-- ==== Sys2Proof/Word.lean ====
section
/-! DEFINITION. The plain words of the model: a byte, and a little-endian sequence of bytes (spec/00 R9). -/

namespace Sys2Proof

/-- One byte of a memory, a frame or a message. -/
abbrev Byte := BitVec 8

/-- A sequence of bytes in ascending address order. -/
abbrev Bytes := List Byte

end Sys2Proof
end

