-- ==== Sys2Proof/View.lean ====
section
/-! DEFINITION. What a command brings from the world outside the block. -/

namespace Sys2Proof

/-- What stands outside the LK7 while it reaches memory in one command: `host` the bytes of host memory that its reads are answered with (a byte
not listed: the host completes with an error or not at all), `ecc` the DDR5 lines in which errors have come up, each with the symbols that they are in (spec/13 R353: bits 0 to 7 the data
symbols, 8 and 9 the check symbols), `old` the table entries for which the DMMU uses what it has cached (spec/12 R333 lets it use the old entry or the new one). -/
structure MemView where
  host : List (Nat × Byte)
  ecc : List (Nat × Nat)
  old : List Nat
  deriving DecidableEq, Repr, Inhabited

/-- What configuration space holds that only the LK7 sets (spec/12 R316, R319, R320, R328), by name: the manual gives it no offsets. -/
inductive CfgReg where
  | vendorId
  | deviceId
  | revisionId
  | classCode
  | subsystemVendorId
  | subsystemId
  | bar (n : Nat)
  | msixVectors
  | serialNumber
  | resetTime
  | flrTime
  deriving DecidableEq, Repr, Inhabited

/-- Where a register access of the host goes (spec/12 R319 to R321): a BAR0 offset of PF0 or PF1; MSI-X Enable of one of them, or the size of BAR2 by Resizable BAR, in
configuration space, to which the manual gives no offsets; a register of configuration space by name, of the function with a number. -/
inductive RegSpace where
  | bar0 (func off : Nat)
  | msixEnable (func : Nat)
  | bar2Size
  | config (number : Nat) (reg : CfgReg)
  deriving DecidableEq, Repr, Inhabited

end Sys2Proof
end

