-- ==== Sys2Proof/Syntax.lean ====
section
/-! DEFINITION. The commands of the LK7: one constructor for each row of spec/opcode_table.json, in its order.  A row that is a register write carries the
32-bit word `w` that is written and the stamp `t` of the write; an event of the hardware or of the world outside carries the unit it happens at, the stamp `t` of device time (spec/10 R265)
at which it happens, and what comes from outside with it. -/

namespace Sys2Proof

/-- A command. -/
inductive Instr where
  /-- NOP (R53): A fetched NOP word writes nothing, leaves the neighbour output unchanged and reads no operand. -/
  | nop (bp : Nat)
  /-- EVAL (R53): A BP evaluates its truth table on four operands and writes the result into step entry s. -/
  | eval (bp : Nat)
  /-- EVAL_DRIVE (R53): As EVAL, and the BP also drives an out-lane of its G1 for step s. -/
  | evalDrive (bp : Nat)
  /-- COMMIT (R53): The BP writes the shadow of a state entry and sets its written flag. -/
  | commit (bp : Nat)
  /-- COMMIT_DRIVE (R53): The BP commits state entries 0 to 255 and drives an out-lane. -/
  | commitDrive (bp : Nat)
  /-- MEM_ADDR (R53): The result is shifted into the address register of a G2 bank port. -/
  | memAddr (bp : Nat)
  /-- MEM_WDATA (R53): The result is written into one bit of a bank port's write-data register. -/
  | memWdata (bp : Nat)
  /-- MEM_GO (R128): A result of 1 starts a read or write access on a G2 bank port. -/
  | memGo (bp : Nat)
  /-- FAR_ADDR (R144): The result is written into one bit of the G4 far-port address register. -/
  | farAddr (bp : Nat)
  /-- FAR_DATA (R53): The result is written into one bit of the 512-bit far-port write-data register. -/
  | farData (bp : Nat)
  /-- FAR_GO (R146): A result of 1 checks and issues a far request into the pending buffer. -/
  | farGo (bp : Nat)
  /-- EDGE_OUT (R58): The result drives an outbound edge lane. -/
  | edgeOut (bp : Nat)
  /-- PROBE (R53): The result drives a probe lane of the own G4. -/
  | probe (bp : Nat)
  /-- RESERVED_MODE (R46): A word with MODE 0xD to 0xF or reserved bits set raises RESERVED_MODE at its fetch. -/
  | reservedMode (bp : Nat)
  /-- BANK_ARRAY_CYCLE (R128): The array cycle after a MEM_GO performs the read or write and later places read data in the register. -/
  | bankArrayCycle (g : Nat)
  /-- FAR_RESPONSE (R143): A far response or its DMMU report arrives and is held in the pending buffer of the port. -/
  | farResponse (g id : Nat) (v : MemView)
  /-- BELAY_ENTRY (R105): After the last step of a pitch the step counter freezes and the belay starts evaluating its conditions. -/
  | belayEntry
  /-- SNAPSHOT (R467): At the snapshot instant every counter is copied into its SNAP register and EV_SNAP_DONE is raised. -/
  | snapshot (t : Nat)
  /-- BELAY_CONDITIONS_MET (R104): All wait conditions are met and holds ended, and a linked device sends READY or STOP. -/
  | belayConditionsMet (t : Nat)
  /-- BELAY_RELEASE (R105): Cycle k of a belay: first-take and time-base flags latch, then far delivery, link commit, mirror update and injection follow. -/
  | belayRelease (t : Nat)
  /-- BELAY_TIMEOUT (R116): The belay timer reaches TIMEOUT while a wait condition is unmet and the array fault-stops. -/
  | belayTimeout (t : Nat)
  /-- TICK_EDGE (R109): The tick edge of a tick is reached and belay 0 in locked mode may end. -/
  | tickEdge (t : Nat)
  /-- PRESENTATION (R228): At a presentation instant the oldest due and ready take is presented on the outbound lanes. -/
  | presentation (t : Nat)
  /-- START (R410): Host writes RUN_CTRL.START and the array leaves belay 0 of its resting take, or the start is refused. -/
  | start (w t : Nat)
  /-- HALT (R412): Host writes RUN_CTRL.HALT to request a hard halt. -/
  | halt (w t : Nat)
  /-- TAKE_WATCHDOG (R419): The take watchdog count expires, raising TAKE_WATCHDOG and entering safe state. -/
  | takeWatchdog (t : Nat)
  /-- WDOG_PERIOD_US_WRITE (R419): A write of the watchdog period is dropped while the array runs. -/
  | wdogPeriodUsWrite (w t : Nat)
  /-- TAKE_CTRL_WRITE (R125): A write to TAKE_CTRL is applied while stopped or dropped with WRITE_REFUSED while running. -/
  | takeCtrlWrite (w t : Nat)
  /-- INJECT_THROUGH_WRITE (R371): Writing INJECT_THROUGH_HI commits the value and records each SQ tail. -/
  | injectThroughWrite (w t : Nat)
  /-- CHECK_CTRL_WRITE (R171): A write enabling check mode is taken while stopped and dropped while running. -/
  | checkCtrlWrite (w t : Nat)
  /-- BANK_CTRL_WRITE (R140): A BANK_CTRL write sets aspect, join and requested owner, or is dropped. -/
  | bankCtrlWrite (g w t : Nat)
  /-- FAR_CTRL_WRITE (R154): A far-port control or window write is applied while stopped or dropped while running. -/
  | farCtrlWrite (g off w t : Nat)
  /-- SLATE (R187): A slate is checked in order and, for a full load, the acceptance steps of R196 open the load. -/
  | slate (bs : Bytes) (v : MemView) (t : Nat)
  /-- INSTR (R190): An INSTR frame writes up to 256 instruction words of one column with fresh check bits. -/
  | instrFrame (bs : Bytes) (v : MemView) (t : Nat)
  /-- STATE (R190): A STATE frame writes the state entries of one G2. -/
  | stateFrame (bs : Bytes) (v : MemView) (t : Nat)
  /-- BANK (R141): A BANK frame sets a bank's configuration or one 4 KiB chunk of its contents. -/
  | bankFrame (bs : Bytes) (v : MemView) (t : Nat)
  /-- LANE (R73): A LANE frame loads the selection table of one segment or half of a mirror map. -/
  | laneFrame (bs : Bytes) (v : MemView) (t : Nat)
  /-- PITCH (R190): A PITCH frame loads the injection target list of one belay. -/
  | pitchFrame (bs : Bytes) (v : MemView) (t : Nat)
  /-- EDGE (R235): An EDGE frame loads ELB, routing, memory, clock, FIFO, user-event or lane-map configuration. -/
  | edgeFrame (bs : Bytes) (v : MemView) (t : Nat)
  /-- PIN (R192): A PIN frame loads the configuration words of one bank, skipping locked pins. -/
  | pinFrame (bs : Bytes) (v : MemView) (t : Nat)
  /-- TIMEBASE (R288): A TIMEBASE frame loads a time base's source block or comparator list. -/
  | timebaseFrame (bs : Bytes) (v : MemView) (t : Nat)
  /-- END (R198): Host writes LOAD_CTRL.END and an OPEN load becomes INCOMPLETE. -/
  | loadEnd (t : Nat)
  /-- REGION_RELEASE (R206): Host releases a reloaded edge region, which runs the staged release alone. -/
  | regionRelease (t : Nat)
  /-- STATE_ACK (R200): Host acknowledges cleared state entries and STATE_CLEARED is cleared. -/
  | stateAck (t : Nat)
  /-- PRODUCTION_ID_WRITE (R207): A write of LOAD.PRODUCTION_ID is taken or dropped while a load is OPEN. -/
  | productionIdWrite (hi w t : Nat)
  /-- STAGED_GLOBAL_RELEASE (R231): Host writes EDGE_CTRL.RELEASE and the release sequencer starts, or the release is refused. -/
  | stagedGlobalRelease (w t : Nat)
  /-- RELEASE_STAGE_1 (R231): At e0 output enables turn on. -/
  | releaseStage1
  /-- RELEASE_STAGE_2 (R231): Eight edge cycles after stage 1 memory and FIFO write enables turn on. -/
  | releaseStage2
  /-- RELEASE_STAGE_3 (R231): Sixteen edge cycles after e0 the user reset is released and EV_EDGE_RELEASED raised. -/
  | releaseStage3
  /-- EDGE_CLOCK_CYCLE (R218): In each GCT0 cycle long lines take their driver values and user events are raised. -/
  | edgeClockCycle (rise fall levels t : Nat)
  /-- BLOCK_MEMORY_ACCESS (R220): A block-memory port with EN = 1 reads and may write at its clock edge. -/
  | blockMemoryAccess (b : Nat)
  /-- FIFO_WRITE (R222): An edge FIFO writes an entry, or drops it with overflow when full. -/
  | fifoWrite (f : Nat)
  /-- FIFO_POP (R222): An edge FIFO pops its head, or records underflow when empty. -/
  | fifoPop (f : Nat)
  /-- EDGE_PLL_LOCK (R213): An edge PLL reaches lock and its LOCK bit reads 1. -/
  | edgePllLock (n : Nat)
  /-- PROBE_SEL_WRITE (R233): A probe selection takes effect from the third GCT0 edge after the write. -/
  | probeSelWrite (k w t : Nat)
  /-- PRESENT_CFG_WRITE (R238): A PRESENT_CFG write is taken or dropped with WRITE_REFUSED. -/
  | presentCfgWrite (w t : Nat)
  /-- PIN_CFG_HI_WRITE (R245): Writing PIN_CFG_k_HI commits a pin word at the change edge, or is dropped. -/
  | pinCfgHiWrite (b k hi t : Nat)
  /-- KEEPER_WINDOW_END (R245): 20 ns after a function change the new function drives the pad. -/
  | keeperWindowEnd (p ext t : Nat)
  /-- LOCKKEY (R248): A write to LOCKKEY opens, advances or fails the pin lock sequence. -/
  | lockKey (b w t : Nat)
  /-- LOCK (R248): A LOCK write while armed locks the masked pins, otherwise it is dropped. -/
  | lock (b w t : Nat)
  /-- LOCK_SEQ_TIMEOUT (R248): 64 aux cycles pass without the second key or a LOCK write and the sequence is dropped. -/
  | lockSeqTimeout (b t : Nat)
  /-- MATCH_CTRL_WRITE (R251): A matcher write is taken while disabled, or enables it with the filtered match preset. -/
  | matchCtrlWrite (m w t : Nat)
  /-- PIN_MATCH (R251): A matcher's debounced match changes or holds and EV_PIN_MATCH_m is raised by MODE. -/
  | pinMatch (m levels cycles t : Nat)
  /-- PIN_LEVEL_REQUEST (R258): A pin's requested level changes and the envelope decides the permitted pad level. -/
  | pinLevelRequest (p ext t : Nat)
  /-- MIN_PULSE_ELAPSED (R259): A delayed level change reaches the pad once MIN_PULSE has elapsed. -/
  | minPulseElapsed (p ext t : Nat)
  /-- RATE_WINDOW_END (R260): A rate window ends and a held pin takes its requested level. -/
  | rateWindowEnd (p ext t : Nat)
  /-- OUTPUT_READBACK (R261): A pad mismatch lasting 100 ns plus the filter raises OUTPUT_READBACK. -/
  | outputReadback (p level since t : Nat)
  /-- TIME_WRAP (R268): The nanosecond count wraps, WRAPS increments and a WRAP packet is written. -/
  | timeWrap (t : Nat)
  /-- ADDEND_WRITE (R273): Writing ADDEND_HI commits the addend, or is dropped. -/
  | addendWrite (hi t : Nat)
  /-- JUMP_ACCEPT (R275): Device time steps by the latest measured offset and discipline resumes. -/
  | jumpAccept (w t : Nat)
  /-- JUMP_REJECT (R275): The refused offset is discarded and the device enters holdover. -/
  | jumpReject (w t : Nat)
  /-- RESUME (R275): The device leaves holdover and discipline restarts. -/
  | resume (w t : Nat)
  /-- SYNC_INTERVAL (R272): Every 2^SYNC_LOG2 µs the master sends SYNC on every ACTIVE port. -/
  | syncInterval (t : Nat)
  /-- PTM_EXCHANGE (R273): At each PTM interval the PTM requester runs and device time is disciplined. -/
  | ptmExchange (m t : Nat)
  /-- SYNC_LOSS (R271): A follower receives no SYNC for four sync intervals and the election repeats. -/
  | syncLoss (t : Nat)
  /-- DIVIDER_COUNT (R276): A DIVIDER time base counts every DIV reference edges. -/
  | dividerCount (n t : Nat)
  /-- PERIODIC_INSTANT (R277): A PERIODIC time base reaches START + k × PERIOD. -/
  | periodicInstant (n t : Nat)
  /-- TRIGGER_EDGE (R276): A qualified edge of a chassis line counts for a TRIGGER time base. -/
  | triggerEdge (line level since t : Nat)
  /-- ZERO_CROSS_EDGE (R276): A qualified zero-cross edge counts for a ZERO_CROSS time base. -/
  | zeroCrossEdge (n level since t : Nat)
  /-- LINE_SYNC_EDGE (R276): A qualified line-sync edge counts for a LINE_SYNC time base. -/
  | lineSyncEdge (n level since t : Nat)
  /-- ENCODER_COUNT (R278): A qualified A/B change counts up or down, or is an illegal transition. -/
  | encoderCount (n a b since t : Nat)
  /-- INDEX (R279): An applied index sets POSITION to INDEX_POS and may count an index error. -/
  | index (n since t : Nat)
  /-- LOST_TIMEOUT (R280): No tick for LOST_TIMEOUT µs makes the time base lost. -/
  | lostTimeout (n t : Nat)
  /-- SUBSTITUTE_TICK (R281): Under SUBSTITUTE a substitute tick is issued every MEAN_PERIOD. -/
  | substituteTick (n t : Nat)
  /-- TB_CFG_WRITE (R290): A TBASE source-block write is taken, or dropped with WRITE_REFUSED. -/
  | tbCfgWrite (n off w t : Nat)
  /-- PULSE_CTRL_WRITE (R285): A PULSE_CTRL write arms a pulse output or is dropped. -/
  | pulseCtrlWrite (k w t : Nat)
  /-- PULSE_BOUNDARY (R285): A pulse output reaches a start or end boundary and changes level. -/
  | pulseBoundary (k t : Nat)
  /-- CAPTURE_EDGE (R286): A qualified capture edge is stamped into the FIFO or dropped on overflow. -/
  | captureEdge (k level since t : Nat)
  /-- STAMP_LO_READ (R286): Reading STAMP_LO returns and pops the oldest capture stamp. -/
  | stampLoRead (k t : Nat)
  /-- TRIG_PULSE_END (R287): A trigger-line pulse reaches its WIDTH and the line returns to idle. -/
  | trigPulseEnd (k t : Nat)
  /-- ENABLE (R304): KL_CTRL.ENABLE or its clearing starts port training or takes the port DOWN. -/
  | enable (p w t : Nat)
  /-- RETRAIN (R304): A RETRAIN write puts the port into DETECT and clears V2_FAILED. -/
  | retrain (p w t : Nat)
  /-- PEER_CLOCK_ACTIVITY (R304): In DETECT the peer's forwarded clock is active for 10 µs and the port enters CLOCK_LOCK. -/
  | peerClockActivity (p t : Nat)
  /-- RECEIVE_PLL_LOCK (R304): The receive PLL locks and the port enters BIT_LOCK. -/
  | receivePllLock (p t : Nat)
  /-- BIT_LOCK_DONE (R304): Lane training ends with enough lanes locked and the port enters SYMBOL_LOCK. -/
  | bitLockDone (p lanes t : Nat)
  /-- SYMBOL_LOCK_DONE (R304): Every lane is aligned and deskewed and the port enters EXCHANGE. -/
  | symbolLockDone (p t : Nat)
  /-- LINK_STATE_TIMEOUT (R307): A bring-up state times out, counting a failed attempt or falling back to v1. -/
  | linkStateTimeout (p t : Nat)
  /-- EXCHANGE_A (R305): An EXCHANGE_A message is checked against the wiring and version. -/
  | exchangeA (p highest selected lanes position peerPort mhz device : Nat)
  /-- EXCHANGE_B (R305): An EXCHANGE_B message is checked for PRODUCTION_ID and SET_SIZE. -/
  | exchangeB (p production size : Nat)
  /-- EXCHANGE_C (R301): An EXCHANGE_C message records the peer serial number. -/
  | exchangeC (p serial : Nat)
  /-- LINK_FRAME_SEND (R298): In every frame period the port sends a frame and enters it into the replay buffer. -/
  | linkFrameSend (p t : Nat)
  /-- LINK_FRAME_RECEIVE (R310): A received frame is accepted or discarded and its acknowledgement processed. -/
  | linkFrameReceive (p : Nat) (lanes : List (List Nat)) (t : Nat)
  /-- REPLAY_TIMEOUT (R310): No acknowledgement for REPLAY_TIMEOUT_NS starts a replay. -/
  | replayTimeout (p t : Nat)
  /-- LINK_LOS (R309): Loss of signal on a data lane sends the port to BIT_LOCK without the lane. -/
  | linkLos (p lane t : Nat)
  /-- LINK_LOL (R309): Loss of lock on a lane or forwarded clock sends the port back to BIT_LOCK or CLOCK_LOCK. -/
  | linkLol (p lane t : Nat)
  /-- ANNOUNCE (R271): An ANNOUNCE message advertises eligibility and is relayed. -/
  | announce (p eligible priority origin hops : Nat)
  /-- SYNC (R272): A SYNC message carries the master's ADDEND and starts a time measurement. -/
  | sync (p addend t : Nat)
  /-- FOLLOW_UP (R302): A FOLLOW_UP message carries t1 or voids the measurement. -/
  | followUp (p t1 void : Nat)
  /-- DELAY_REQ (R272): A DELAY_REQ message is stamped and answered. -/
  | delayReq (p again t : Nat)
  /-- DELAY_RESP (R272): A DELAY_RESP message completes t1 to t4 and the follower computes its offset. -/
  | delayResp (p t4 void : Nat)
  /-- TICK (R282): A TICK message makes a KERMALINK time base issue a tick with the master's stamp. -/
  | tick (p n stamp pos : Nat)
  /-- READY (R118): A READY message is relayed toward or collected by the belay master. -/
  | ready (p belay take origin : Nat)
  /-- RELEASE (R118): A RELEASE message names the global release instant and deadline response. -/
  | release (p belay instant resp take : Nat)
  /-- STOP (R121): A STOP message makes a device stop at its next belay, or is a halt request with code 0. -/
  | stop (p origin take code : Nat)
  /-- START_CHECK (R303): A START_CHECK message compares schedule digest and step clock with the peer. -/
  | startCheck (p digest mhz : Nat)
  /-- LOWRATE_REQ (R314): A LOWRATE_REQ message asks the peer to move the port to LOWRATE. -/
  | lowrateReq (p : Nat)
  /-- LOWRATE_ACK (R314): A LOWRATE_ACK message lets both sides retrain at 1.25 Gb/s. -/
  | lowrateAck (p : Nat)
  /-- FULLRATE_REQ (R314): A FULLRATE_REQ message returns the port to full-rate training. -/
  | fullrateReq (p : Nat)
  /-- TX_EQ_WRITE (R315): A TX_EQ write is taken for the next CLOCK_LOCK or dropped while running. -/
  | txEqWrite (p w t : Nat)
  /-- REGISTER_WRITE (R10): A write to a register with no row of its own sets its fields by type. -/
  | registerWrite (place : RegSpace) (size be value t : Nat)
  /-- INFLIGHT_PEAK_READ (R343): Reading INFLIGHT_PEAK returns and clears the peak. -/
  | inflightPeakRead (place : RegSpace) (size t : Nat)
  /-- BAR2_READ (R322): A BAR2 read returns DDR5 data at BAR2_OFFSET plus the offset. -/
  | bar2Read (off n : Nat) (v : MemView)
  /-- BAR2_WRITE (R322): A BAR2 write stores into DDR5, or is dropped beyond capacity. -/
  | bar2Write (off : Nat) (bs : Bytes)
  /-- BAR2_OFFSET_HI_WRITE (R322): Writing BAR2_OFFSET_HI commits the new DDR5 offset. -/
  | bar2OffsetHiWrite (w t : Nat)
  /-- BAR4_READ (R324): A BAR4 read returns array state while stopped, or all ones while running. -/
  | bar4Read (off n : Nat)
  /-- BAR4_WRITE (R325): A BAR4 write replaces or merges array state while stopped, or is refused. -/
  | bar4Write (off : Nat) (bs : Bytes)
  /-- GO (R333): DMMU.INV_CTRL.GO starts an invalidation, or is dropped while busy. -/
  | go (w t : Nat)
  /-- INVALIDATION_DONE (R333): An invalidation completes and DONE is set. -/
  | invalidationDone
  /-- CTX_ROOT_WRITE (R334): A context root write is taken or dropped while the root is valid. -/
  | ctxRootWrite (c hi w t : Nat)
  /-- COMMIT_FENCES (R339): FENCE_CTRL.COMMIT starts activating the staged fence set. -/
  | commitFences (w t : Nat)
  /-- FENCE_COMMITTED (R339): The new fence set is in effect and COMMITTED reads 1. -/
  | fenceCommitted
  /-- FENCE_LOCK (R341): FENCE_CTRL.LOCK makes fence control and entries read-only. -/
  | fenceLock (w t : Nat)
  /-- DDR_CHANNEL_READY (R350): A channel completes zero-fill and, when all are done, READY is set. -/
  | ddrChannelReady (c t : Nat)
  /-- DDR_INIT_FAILED (R349): A channel fails a training step and enters FAILED. -/
  | ddrInitFailed (c step slot t : Nat)
  /-- DDR_RETRAIN (R350): DDR_CTRL.RETRAIN reruns initialisation, or is dropped. -/
  | ddrRetrain (w t : Nat)
  /-- PATROL_SCRUB_READ (R357): The patrol scrubber reads and corrects the next line of a channel. -/
  | patrolScrubRead (c : Nat) (v : MemView) (t : Nat)
  /-- DDR_REFRESH (R358): A channel refreshes a rank as DDR5 requires. -/
  | ddrRefresh (c t : Nat)
  /-- DIMM_TEMP_READ (R359): Every 8 ms DIMM temperatures are read, refresh doubled or HOT set. -/
  | dimmTempRead (c temp t : Nat)
  /-- SQ_TAIL_WRITE (R375): Host submits descriptors by writing SQ_TAIL, or the write is dropped as overrun. -/
  | sqTailWrite (q w t : Nat)
  /-- CQ_HEAD_WRITE (R375): Host frees completion entries, or the write is dropped as HEAD_ERROR. -/
  | cqHeadWrite (q w t : Nat)
  /-- Q_CTRL_WRITE (R384): A queue control write enables the pair or is refused. -/
  | qCtrlWrite (q w t : Nat)
  /-- QUEUE_RESET (R383): Q_CTRL.RESET stops fetch and aborts the queue's items. -/
  | queueReset (q w t : Nat)
  /-- DESCRIPTOR_FETCH (R374): The LK7 fetches a descriptor from an SQ into the matching store or a ready queue. -/
  | descriptorFetch (q : Nat) (v : MemView) (t : Nat)
  /-- TOKEN_POST (R379): Host writes TOKEN_POST to add counts to a token. -/
  | tokenPost (w t : Nat)
  /-- ITEM_DISPATCH (R381): An idle engine or prefetch slot takes the head of the highest ready queue. -/
  | itemDispatch (e t : Nat)
  /-- RESTART_POINT (R382): A running item reaches 4 KiB or 64 µs and may be pre-empted. -/
  | restartPoint (e t : Nat)
  /-- ITEM_COMPLETION (R377): An item's writes have landed, the completion entry is written and DONE_TOKEN posted. -/
  | itemCompletion (q : Nat) (v : MemView) (t : Nat)
  /-- COPY (R365): The engine copies LENGTH bytes from SRC to DST in ascending order. -/
  | copy (e n : Nat) (v : MemView) (t : Nat)
  /-- FILL (R365): The engine fills DST with the 8-byte pattern of ARG. -/
  | fill (e n : Nat) (v : MemView) (t : Nat)
  /-- LOAD_FRAMES (R368): The engine delivers slate and frames to the loader. -/
  | loadFrames (e n : Nat) (v : MemView) (t : Nat)
  /-- READBACK (R365): The engine copies array state to a DVA. -/
  | readback (e n : Nat) (v : MemView) (t : Nat)
  /-- VERIFY (R369): The engine compares array state with memory and ends with MISMATCH on a difference. -/
  | verify (e n : Nat) (v : MemView) (t : Nat)
  /-- INJECT (R370): The engine stages stimulus bits for a named take and belay. -/
  | inject (e : Nat) (v : MemView) (t : Nat)
  /-- CAPTURE (R373): The engine writes inbound edge-lane samples of a run of takes to memory. -/
  | capture (e : Nat) (v : MemView) (t : Nat)
  /-- RESTORE (R365): The engine writes memory into array state. -/
  | restore (e n : Nat) (v : MemView) (t : Nat)
  /-- CHECKSUM (R365): The engine computes CRC-32C or SHA-384 of SRC. -/
  | checksum (e n : Nat) (v : MemView) (t : Nat)
  /-- TRACE_DRAIN (R459): The engine copies trace ring bytes to DST and advances RD. -/
  | traceDrain (e n : Nat) (v : MemView) (t : Nat)
  /-- ERASE (R369): The engine writes zeros to DST and reads the range back. -/
  | erase (e n : Nat) (v : MemView) (t : Nat)
  /-- FENCE (R374): A queue barrier holds later descriptors until earlier items complete. -/
  | fence (q t : Nat)
  /-- TOKEN (R365): A TOKEN item posts counts of a token. -/
  | token (q t : Nat)
  /-- TIMER (R380): A TIMER item enters a delay list sorted by key. -/
  | timer (q t : Nat)
  /-- TIMER_DUE (R380): A delay-list key is reached and the TIMER item completes. -/
  | timerDue (l t : Nat)
  /-- MAILBOX (R471): A MAILBOX item sends a message on mailbox channel 1. -/
  | mailbox (q : Nat) (v : MemView) (t : Nat)
  /-- NOC_PACKET_ARRIVAL (R389): A NoC packet arrives at a router, gateway or endpoint and is routed, held or refused. -/
  | nocPacketArrival (node input header err t : Nat)
  /-- RSP_TIMEOUT (R393): A request without response for RSP_TIMEOUT_US completes as a timeout. -/
  | rspTimeout (kind id t : Nat)
  /-- CHECK_MODE_WRITE (R394): A CHECK_MODE write starts draining routers one by one, or is dropped. -/
  | checkModeWrite (w t : Nat)
  /-- ROUTER_DRAINED (R394): A draining router is empty, applies its configuration and resumes. -/
  | routerDrained (t : Nat)
  /-- DOM_CTRL_WRITE (R397): A REQ write asks a domain on or off, or the request is refused. -/
  | domCtrlWrite (dom w t : Nat)
  /-- POINT_OF_NO_RETURN (R398): Isolation is asserted and the gateway stops passing packets. -/
  | pointOfNoReturn (dom t : Nat)
  /-- DOMAIN_OFF (R398): A domain's power switches open and STATE becomes OFF. -/
  | domainOff (dom t : Nat)
  /-- DOMAIN_ON (R400): A starting domain reaches ON after clearing and relock, delivering held packets. -/
  | domainOn (dom t : Nat)
  /-- TARGET_WRITE (R402): PWR_CTRL.TARGET requests RUN, PARK or BIVOUAC. -/
  | targetWrite (w t : Nat)
  /-- BIVOUAC_ENTRY (R404): After the array halts and peers answer, domains go off and DDR5 self-refreshes. -/
  | bivouacEntry (t : Nat)
  /-- PCIE_D_STATE_CHANGE (R402): A PF0 transition to D3hot or D0 writes TARGET. -/
  | pcieDStateChange (state : Nat)
  /-- LIMITER_SAMPLE (R406): Every 1 µs the limiter measures power and scales engines. -/
  | limiterSample (power t : Nat)
  /-- ATTACH (R420): DBG_CTRL.ATTACH attaches or detaches the debugger. -/
  | attach (w t : Nat)
  /-- WATCH_CTRL_WRITE (R430): A watch write enables the unit at the next boundary or is dropped. -/
  | watchCtrlWrite (w t : Nat)
  /-- BAP_GO (R431): BAP_CTRL.GO starts a background access, or is dropped while busy. -/
  | bapGo (w t : Nat)
  /-- BAP_DONE (R432): A background access takes effect and RESULT is reported. -/
  | bapDone (v : MemView) (t : Nat)
  /-- NEW_NONCE (R439): A new random unlock nonce is drawn. -/
  | newNonce (w t : Nat)
  /-- UNLOCK (R440): An unlock token is checked and the secure-content erase starts, or is refused. -/
  | unlock (w t : Nat)
  /-- UNLOCK_ERASE_DONE (R440): The secure erase completes and debug is OPEN. -/
  | unlockEraseDone (v : MemView) (t : Nat)
  /-- EXTEST (R443): The TAP drives pads through the envelope, or acts as BYPASS while running. -/
  | extest (cells levels t : Nat)
  /-- SAMPLE_PRELOAD (R443): The TAP samples or preloads the boundary-scan register. -/
  | samplePreload (levels cells t : Nat)
  /-- IDCODE (R442): The TAP returns the device IDCODE. -/
  | idcode (t : Nat)
  /-- DBG_ACCESS (R444): A TAP Update-DR performs a PF0 BAR0 read or write. -/
  | dbgAccess (bits t : Nat)
  /-- BYPASS (R443): The TAP passes TDI to TDO through one bit. -/
  | bypass (n bits t : Nat)
  /-- TEST_LOGIC_RESET (R443): The TAP resets and selects IDCODE. -/
  | testLogicReset (t : Nat)
  /-- TRACE_ENABLE_WRITE (R462): TRACE_CTRL.ENABLE starts the unit with a cairn, or disables it with a flush. -/
  | traceEnableWrite (w t : Nat)
  /-- FLUSH (R459): The current trace line is padded and sent to the sink. -/
  | flush (w t : Nat)
  /-- SINK_RESTART (R461): A stopped sink resumes with OVERFLOW and a cairn. -/
  | sinkRestart (w t : Nat)
  /-- SINK_LINE_WRITE (R459): The sink takes a 64-byte line from the trace buffer. -/
  | sinkLineWrite (v : MemView) (t : Nat)
  /-- TRACE_OVERFLOW (R457): Once a quarter of the buffer is free, OVERFLOW and a cairn are written. -/
  | traceOverflow (t : Nat)
  /-- TS_PERIOD (R455): With the array stopped a TS packet is written when the period elapses. -/
  | tsPeriod (t : Nat)
  /-- SNAP_REQ (R466): A snapshot is requested for an instant chosen by SNAP_MODE. -/
  | snapReq (w t : Nat)
  /-- MGMT_WATCHDOG (R470): The firmware watchdog expires, resetting the controller and entering safe state. -/
  | mgmtWatchdog (t : Nat)
  /-- MGMT_RESTART (R470): The restarted firmware runs again and EV_MGMT_RESTART is raised. -/
  | mgmtRestart (t : Nat)
  /-- DOORBELL (R471): Host rings the channel 0 doorbell to send a mailbox message. -/
  | doorbell (t : Nat)
  /-- MBOX_REPLY (R471): The firmware places a reply and REPLY_READY is set. -/
  | mboxReply (v : MemView) (t : Nat)
  /-- GET_INFO (R472): The firmware returns version, SVN, boot source, serial and owner-key hash. -/
  | getInfo (t : Nat)
  /-- LOG_READ (R472): The firmware returns MRAM log slots. -/
  | logRead (t : Nat)
  /-- COUNTER_READ (R472): The firmware returns a monotonic counter. -/
  | counterRead (t : Nat)
  /-- COUNTER_RAISE (R474): A monotonic counter is raised, or the value is refused. -/
  | counterRaise (t : Nat)
  /-- UPDATE_BEGIN (R473): The update area is erased for a new image or settings block. -/
  | updateBegin (err : Bool) (t : Nat)
  /-- UPDATE_DATA (R473): Bytes are written into the update area. -/
  | updateData (err : Bool) (t : Nat)
  /-- UPDATE_COMMIT (R473): The update is verified and written into its slot or copy. -/
  | updateCommit (err : Bool) (t : Nat)
  /-- SENSOR_READ (R472): The firmware returns temperatures and rail readings. -/
  | sensorRead (t : Nat)
  /-- I2C_XFER (R476): The firmware performs a board I²C transfer. -/
  | i2cXfer (ack : Bool) (data : Bytes) (t : Nat)
  /-- CLEAR (R485): SAFE_CTRL.CLEAR ends safe state, or is refused with CLEAR_REASON. -/
  | clear (outside : Bool) (t : Nat)
  /-- TEST (R480): SAFE_CTRL.TEST enters safe state with cause 0. -/
  | test (t : Nat)
  /-- ESTOP_INPUT (R483): ESTOP_N qualified low enters safe state within 1 µs. -/
  | estopInput (t : Nat)
  /-- ESTOP_DEASSERT (R483): ESTOP_N qualified high clears ESTOP_NOW without ending safe state. -/
  | estopDeassert (t : Nat)
  /-- INSTRUCTION_STORE_SCRUB (R486): The scrubber reads the next word of each column and corrects or reports it. -/
  | instructionStoreScrub (t : Nat)
  /-- EDGE_SCRUB (R487): The edge scrubber reads configuration and envelope tables and corrects or reports them. -/
  | edgeScrub (corrected : Nat) (bad : List (Bool × Nat)) (t : Nat)
  /-- VOLTAGE_MONITOR (R488): A rail outside its window for 2 µs raises VOLTAGE_MONITOR. -/
  | voltageMonitor (r bank mv t : Nat)
  /-- THERMAL_SAMPLE (R489): Every 20 µs each sensor is sampled for warning and limit. -/
  | thermalSample (readings : List Nat) (t : Nat)
  /-- CLOCK_MONITOR (R490): A clock lost or out of frequency raises CLOCK_MONITOR. -/
  | clockMonitor (code kind t : Nat)
  /-- STEP_MHZ_WRITE (R491): A step-clock write relocks the step PLL, or is dropped. -/
  | stepMhzWrite (w t : Nat)
  /-- STEP_PLL_LOCK (R491): The step PLL relocks and STEP_LOCKED reads 1. -/
  | stepPllLock (t : Nat)
  /-- POR (R492): VDD_AUX applied or restored resets everything and starts power sequencing. -/
  | por
  /-- DEVICE_RESET (R492): PERST_N, Hot Reset or link-down resets the device and reboots from flash. -/
  | deviceReset (cause t : Nat)
  /-- RESET_CTRL_DEVICE (R492): A keyed RESET_CTRL.DEVICE write takes the link down 1 ms later. -/
  | resetCtrlDevice (w t : Nat)
  /-- ARRAY_RESET (R41): RESET_CTRL.ARRAY clears array state and returns the array to take 0. -/
  | arrayReset (t : Nat)
  /-- EDGE_RESET (R492): RESET_CTRL.EDGE restores base edge configuration, or is refused while running. -/
  | edgeReset (t : Nat)
  /-- FLR_PF0 (R492): An FLR of PF0 stops the array and clears DMMU, fences, queues, tokens and trace. -/
  | flrPf0 (t : Nat)
  /-- FLR_PF1 (R328): An FLR of PF1 clears PF1 configuration and mailbox messages in progress. -/
  | flrPf1 (t : Nat)
  /-- BOOT (R182): The management controller reads settings and images, verifies, applies base configuration and becomes ready. -/
  | boot (errors runs : Nat) (mv : List Nat) (t0 t : Nat)
  /-- PAGE_LOCK_WRITE (R497): A PAGE_LOCK write opens or closes the page's RWL fields. -/
  | pageLockWrite (func off w t : Nat)
  /-- EV_ROUTE_WRITE (R503): An EV_ROUTE or ROUTE write sets a route entry, or is dropped. -/
  | evRouteWrite (func off w t : Nat)
  /-- EV_RAISED_CLEAR (R502): A W1C write clears raised event bits, a same-cycle raise winning. -/
  | evRaisedClear (func off w same t : Nat)
  /-- EV_ENABLE_WRITE (R504): Enabling a raised event sends its MSI-X message. -/
  | evEnableWrite (func off w t : Nat)
  /-- EV_FORCE_WRITE (R507): A write to EV_FORCE raises events as if by their sources. -/
  | evForceWrite (func off w t : Nat)
  /-- REFERENCE_RETURN (R276): REFCLK_100 returns after a loss: holdover ends, DIVIDER time bases restart at edge 0, PERIODIC time bases resume at the next instant, and loss cause 0x5 ends. -/
  | referenceReturn (t : Nat)
  /-- OFFSET_ABSORBED (R274): A negative offset that is absorbed by adding ADDEND / 2 per reference edge is used up, SLEWING clears, and normal advance resumes. -/
  | offsetAbsorbed (t : Nat)
  /-- MSIX_VECTOR_UNMASK (R327): Host software clears the mask of an MSI-X vector, and the LK7 sends the pending message. -/
  | msixVectorUnmask (func vector t : Nat)
  /-- TAP_HOLDS_DBG_ACCESS (R420): The TAP loads the DBG_ACCESS instruction, the debugger counts as attached, JTAG_ATTACHED is set, and EV_DEBUG_ATTACH is raised. -/
  | tapHoldsDbgAccess (t : Nat)
  /-- RAIL_ENTERS_WINDOW (R488): A supply rail first enters its monitor window, its voltage monitor is armed, and the power sequencer starts its 1 ms count toward opening the domain switches. -/
  | railEntersWindow (r bank mv t : Nat)
  deriving DecidableEq, Repr

end Sys2Proof
end

