-- ==== Sys2Proof/WellFormed.lean ====
section
/-! DEFINITION. Well-formed commands: every operand lies in the range that its field or the number of its units gives it. -/

namespace Sys2Proof

/-- A number below `n`: the number of a unit of which there are `n`, or a field of so many values. -/
def bound (x n : Nat) : Bool := decide (x < n)

/-- A value of `n` bits. -/
def fits (x n : Nat) : Bool := decide (x < 2 ^ n)

/-- A register word (spec/00 R10). -/
def isWord (w : Nat) : Bool := fits w 32

/-- A stamp of device time (spec/10 R265). -/
def isStamp (t : Nat) : Bool := fits t 64

/-- A sequence of exactly `n` bytes. -/
def sized (bs : Bytes) (n : Nat) : Bool := bs.length == n

/-- A place of a register access: BAR0 of PF0 has 64 MiB, that of PF1 1 MiB (spec/12 R320). -/
def isSpace (s : RegSpace) : Bool :=
  match s with
  | .bar0 func off => bound func 2 && fits off (if func = 0 then 26 else 20)
  | .msixEnable func => bound func 2
  | .bar2Size => true
  | .config number _ => bound number 8

/-- The operands of a command are in range. -/
def Instr.wellFormed (i : Instr) : Bool :=
  match i with
  | .nop bp => bound bp 262144
  | .eval bp => bound bp 262144
  | .evalDrive bp => bound bp 262144
  | .commit bp => bound bp 262144
  | .commitDrive bp => bound bp 262144
  | .memAddr bp => bound bp 262144
  | .memWdata bp => bound bp 262144
  | .memGo bp => bound bp 262144
  | .farAddr bp => bound bp 262144
  | .farData bp => bound bp 262144
  | .farGo bp => bound bp 262144
  | .edgeOut bp => bound bp 262144
  | .probe bp => bound bp 262144
  | .reservedMode bp => bound bp 262144
  | .bankArrayCycle g => bound g 4096
  | .farResponse g _ _ => bound g 64
  | .belayEntry => true
  | .snapshot t => isStamp t
  | .belayConditionsMet t => isStamp t
  | .belayRelease t => isStamp t
  | .belayTimeout t => isStamp t
  | .tickEdge t => isStamp t
  | .presentation t => isStamp t
  | .start w t => isWord w && isStamp t
  | .halt w t => isWord w && isStamp t
  | .takeWatchdog t => isStamp t
  | .wdogPeriodUsWrite w t => isWord w && isStamp t
  | .takeCtrlWrite w t => isWord w && isStamp t
  | .injectThroughWrite w t => isWord w && isStamp t
  | .checkCtrlWrite w t => isWord w && isStamp t
  | .bankCtrlWrite g w t => bound g 4096 && isWord w && isStamp t
  | .farCtrlWrite g off w t => bound g 64 && bound off 4096 && isWord w && isStamp t
  | .slate bs _ t => sized bs 4096 && isStamp t
  | .instrFrame _ _ t => isStamp t
  | .stateFrame _ _ t => isStamp t
  | .bankFrame _ _ t => isStamp t
  | .laneFrame _ _ t => isStamp t
  | .pitchFrame _ _ t => isStamp t
  | .edgeFrame _ _ t => isStamp t
  | .pinFrame _ _ t => isStamp t
  | .timebaseFrame _ _ t => isStamp t
  | .loadEnd t => isStamp t
  | .regionRelease t => isStamp t
  | .stateAck t => isStamp t
  | .productionIdWrite hi w t => bound hi 2 && isWord w && isStamp t
  | .stagedGlobalRelease w t => isWord w && isStamp t
  | .releaseStage1 => true
  | .releaseStage2 => true
  | .releaseStage3 => true
  | .edgeClockCycle rise fall levels t => bound rise 256 && bound fall 256 && fits levels 320 && isStamp t
  | .blockMemoryAccess b => bound b 64
  | .fifoWrite f => bound f 32
  | .fifoPop f => bound f 32
  | .edgePllLock n => bound n 2
  | .probeSelWrite k w t => bound k 32 && isWord w && isStamp t
  | .presentCfgWrite w t => isWord w && isStamp t
  | .pinCfgHiWrite b k hi t => bound b 10 && bound k 32 && isWord hi && isStamp t
  | .keeperWindowEnd p ext t => bound p 320 && bound ext 3 && isStamp t
  | .lockKey b w t => bound b 10 && isWord w && isStamp t
  | .lock b w t => bound b 10 && isWord w && isStamp t
  | .lockSeqTimeout b t => bound b 10 && isStamp t
  | .matchCtrlWrite m w t => bound m 16 && isWord w && isStamp t
  | .pinMatch m levels _ t => bound m 16 && fits levels 320 && isStamp t
  | .pinLevelRequest p ext t => bound p 320 && bound ext 3 && isStamp t
  | .minPulseElapsed p ext t => bound p 320 && bound ext 3 && isStamp t
  | .rateWindowEnd p ext t => bound p 320 && bound ext 3 && isStamp t
  | .outputReadback p level since t => bound p 320 && bound level 2 && isStamp since && isStamp t
  | .timeWrap t => isStamp t
  | .addendWrite hi t => isWord hi && isStamp t
  | .jumpAccept w t => isWord w && isStamp t
  | .jumpReject w t => isWord w && isStamp t
  | .resume w t => isWord w && isStamp t
  | .syncInterval t => isStamp t
  | .ptmExchange m t => fits m 64 && isStamp t
  | .syncLoss t => isStamp t
  | .dividerCount n t => bound n 4 && isStamp t
  | .periodicInstant n t => bound n 4 && isStamp t
  | .triggerEdge line level since t => bound line 16 && bound level 2 && isStamp since && isStamp t
  | .zeroCrossEdge n level since t => bound n 4 && bound level 2 && isStamp since && isStamp t
  | .lineSyncEdge n level since t => bound n 4 && bound level 2 && isStamp since && isStamp t
  | .encoderCount n a b since t => bound n 4 && bound a 2 && bound b 2 && isStamp since && isStamp t
  | .index n since t => bound n 4 && isStamp since && isStamp t
  | .lostTimeout n t => bound n 4 && isStamp t
  | .substituteTick n t => bound n 4 && isStamp t
  | .tbCfgWrite n off w t => bound n 4 && bound off 128 && isWord w && isStamp t
  | .pulseCtrlWrite k w t => bound k 8 && isWord w && isStamp t
  | .pulseBoundary k t => bound k 8 && isStamp t
  | .captureEdge k level since t => bound k 16 && bound level 2 && isStamp since && isStamp t
  | .stampLoRead k t => bound k 16 && isStamp t
  | .trigPulseEnd k t => bound k 16 && isStamp t
  | .enable p w t => bound p 8 && isWord w && isStamp t
  | .retrain p w t => bound p 8 && isWord w && isStamp t
  | .peerClockActivity p t => bound p 8 && isStamp t
  | .receivePllLock p t => bound p 8 && isStamp t
  | .bitLockDone p lanes t => bound p 8 && bound lanes 256 && isStamp t
  | .symbolLockDone p t => bound p 8 && isStamp t
  | .linkStateTimeout p t => bound p 8 && isStamp t
  | .exchangeA p highest selected lanes position peerPort mhz device => bound p 8 && bound highest 256 && bound selected 256 && bound lanes 256 && bound position 256 && bound peerPort 256 && bound mhz 65536 && bound device 65536
  | .exchangeB p production size => bound p 8 && fits production 64 && bound size 256
  | .exchangeC p serial => bound p 8 && fits serial 64
  | .linkFrameSend p t => bound p 8 && isStamp t
  | .linkFrameReceive p _ t => bound p 8 && isStamp t
  | .replayTimeout p t => bound p 8 && isStamp t
  | .linkLos p lane t => bound p 8 && bound lane 128 && isStamp t
  | .linkLol p lane t => bound p 8 && bound lane 128 && isStamp t
  | .announce p eligible priority origin hops => bound p 8 && bound eligible 2 && bound priority 16 && bound origin 256 && bound hops 256
  | .sync p addend t => bound p 8 && fits addend 40 && isStamp t
  | .followUp p t1 void => bound p 8 && isStamp t1 && bound void 2
  | .delayReq p again t => bound p 8 && bound again 2 && isStamp t
  | .delayResp p t4 void => bound p 8 && isStamp t4 && bound void 2
  | .tick p n stamp pos => bound p 8 && bound n 4 && isStamp stamp && isWord pos
  | .ready p belay take origin => bound p 8 && bound belay 256 && fits take 48 && bound origin 256
  | .release p belay instant resp take => bound p 8 && bound belay 256 && isStamp instant && bound resp 256 && fits take 48
  | .stop p origin take code => bound p 8 && bound origin 256 && fits take 48 && bound code 256
  | .startCheck p digest mhz => bound p 8 && fits digest 64 && bound mhz 65536
  | .lowrateReq p => bound p 8
  | .lowrateAck p => bound p 8
  | .fullrateReq p => bound p 8
  | .txEqWrite p w t => bound p 8 && isWord w && isStamp t
  | .registerWrite place _ be value t => isSpace place && bound be 256 && fits value 64 && isStamp t
  | .inflightPeakRead place _ t => isSpace place && isStamp t
  | .bar2Read off _ _ => fits off 48
  | .bar2Write off _ => fits off 48
  | .bar2OffsetHiWrite w t => isWord w && isStamp t
  | .bar4Read off _ => fits off 40
  | .bar4Write off _ => fits off 40
  | .go w t => isWord w && isStamp t
  | .invalidationDone => true
  | .ctxRootWrite c hi w t => bound c 64 && bound hi 2 && isWord w && isStamp t
  | .commitFences w t => isWord w && isStamp t
  | .fenceCommitted => true
  | .fenceLock w t => isWord w && isStamp t
  | .ddrChannelReady c t => bound c 8 && isStamp t
  | .ddrInitFailed c step slot t => bound c 8 && bound step 65536 && bound slot 2 && isStamp t
  | .ddrRetrain w t => isWord w && isStamp t
  | .patrolScrubRead c _ t => bound c 8 && isStamp t
  | .ddrRefresh c t => bound c 8 && isStamp t
  | .dimmTempRead c temp t => bound c 8 && bound temp 256 && isStamp t
  | .sqTailWrite q w t => bound q 64 && isWord w && isStamp t
  | .cqHeadWrite q w t => bound q 64 && isWord w && isStamp t
  | .qCtrlWrite q w t => bound q 64 && isWord w && isStamp t
  | .queueReset q w t => bound q 64 && isWord w && isStamp t
  | .descriptorFetch q _ t => bound q 64 && isStamp t
  | .tokenPost w t => isWord w && isStamp t
  | .itemDispatch e t => bound e 32 && isStamp t
  | .restartPoint e t => bound e 32 && isStamp t
  | .itemCompletion q _ t => bound q 64 && isStamp t
  | .copy e _ _ t => bound e 32 && isStamp t
  | .fill e _ _ t => bound e 32 && isStamp t
  | .loadFrames e _ _ t => bound e 32 && isStamp t
  | .readback e _ _ t => bound e 32 && isStamp t
  | .verify e _ _ t => bound e 32 && isStamp t
  | .inject e _ t => bound e 32 && isStamp t
  | .capture e _ t => bound e 32 && isStamp t
  | .restore e _ _ t => bound e 32 && isStamp t
  | .checksum e _ _ t => bound e 32 && isStamp t
  | .traceDrain e _ _ t => bound e 32 && isStamp t
  | .erase e _ _ t => bound e 32 && isStamp t
  | .fence q t => bound q 64 && isStamp t
  | .token q t => bound q 64 && isStamp t
  | .timer q t => bound q 64 && isStamp t
  | .timerDue l t => bound l 16 && isStamp t
  | .mailbox q _ t => bound q 64 && isStamp t
  | .nocPacketArrival node input header err t => bound node 256 && bound input 8 && fits header 128 && bound err 3 && isStamp t
  | .rspTimeout kind _ t => bound kind 2 && isStamp t
  | .checkModeWrite w t => isWord w && isStamp t
  | .routerDrained t => isStamp t
  | .domCtrlWrite dom w t => bound dom 113 && isWord w && isStamp t
  | .pointOfNoReturn dom t => bound dom 113 && isStamp t
  | .domainOff dom t => bound dom 113 && isStamp t
  | .domainOn dom t => bound dom 113 && isStamp t
  | .targetWrite w t => isWord w && isStamp t
  | .bivouacEntry t => isStamp t
  | .pcieDStateChange state => bound state 4
  | .limiterSample _ t => isStamp t
  | .attach w t => isWord w && isStamp t
  | .watchCtrlWrite w t => isWord w && isStamp t
  | .bapGo w t => isWord w && isStamp t
  | .bapDone _ t => isStamp t
  | .newNonce w t => isWord w && isStamp t
  | .unlock w t => isWord w && isStamp t
  | .unlockEraseDone _ t => isStamp t
  | .extest cells levels t => fits cells 644 && fits levels 324 && isStamp t
  | .samplePreload levels cells t => fits levels 324 && fits cells 644 && isStamp t
  | .idcode t => isStamp t
  | .dbgAccess bits t => fits bits 60 && isStamp t
  | .bypass _ _ t => isStamp t
  | .testLogicReset t => isStamp t
  | .traceEnableWrite w t => isWord w && isStamp t
  | .flush w t => isWord w && isStamp t
  | .sinkRestart w t => isWord w && isStamp t
  | .sinkLineWrite _ t => isStamp t
  | .traceOverflow t => isStamp t
  | .tsPeriod t => isStamp t
  | .snapReq w t => isWord w && isStamp t
  | .mgmtWatchdog t => isStamp t
  | .mgmtRestart t => isStamp t
  | .doorbell t => isStamp t
  | .mboxReply _ t => isStamp t
  | .getInfo t => isStamp t
  | .logRead t => isStamp t
  | .counterRead t => isStamp t
  | .counterRaise t => isStamp t
  | .updateBegin _ t => isStamp t
  | .updateData _ t => isStamp t
  | .updateCommit _ t => isStamp t
  | .sensorRead t => isStamp t
  | .i2cXfer _ _ t => isStamp t
  | .clear _ t => isStamp t
  | .test t => isStamp t
  | .estopInput t => isStamp t
  | .estopDeassert t => isStamp t
  | .instructionStoreScrub t => isStamp t
  | .edgeScrub _ _ t => isStamp t
  | .voltageMonitor r bank mv t => bound r 8 && bound bank 10 && bound mv 65536 && isStamp t
  | .thermalSample _ t => isStamp t
  | .clockMonitor code kind t => bound code 8 && bound kind 2 && isStamp t
  | .stepMhzWrite w t => isWord w && isStamp t
  | .stepPllLock t => isStamp t
  | .por => true
  | .deviceReset cause t => bound cause 4 && isStamp t
  | .resetCtrlDevice w t => isWord w && isStamp t
  | .arrayReset t => isStamp t
  | .edgeReset t => isStamp t
  | .flrPf0 t => isStamp t
  | .flrPf1 t => isStamp t
  | .boot _ _ _ t0 t => isStamp t0 && isStamp t
  | .pageLockWrite func off w t => bound func 2 && isWord off && isWord w && isStamp t
  | .evRouteWrite func off w t => bound func 2 && isWord off && isWord w && isStamp t
  | .evRaisedClear func off w same t => bound func 2 && isWord off && isWord w && isWord same && isStamp t
  | .evEnableWrite func off w t => bound func 2 && isWord off && isWord w && isStamp t
  | .evForceWrite func off w t => bound func 2 && isWord off && isWord w && isStamp t
  | .referenceReturn t => isStamp t
  | .offsetAbsorbed t => isStamp t
  | .msixVectorUnmask func vector t => bound func 2 && bound vector 2048 && isStamp t
  | .tapHoldsDbgAccess t => isStamp t
  | .railEntersWindow r bank mv t => bound r 8 && bound bank 10 && bound mv 65536 && isStamp t

end Sys2Proof
end

