-- ==== Sys2Proof/Decode.lean ====
section
/-! DEFINITION. Commands from words.  The opcode table gives none of its rows any bits: a command reaches the LK7 as an access, an event or a message, not as a word,
so no word spells one. -/

namespace Sys2Proof

/-- The command that a word spells by the bits of the opcode table. -/
def decodeTableWord (_nbits _w : Nat) : Option Instr := none

end Sys2Proof
end

