-- ==== Sys2Proof/Config.lean ====
section
/-! DEFINITION. What the manual leaves open and the model does not choose: free values and the cryptographic primitives
the manual names by their standards.  Each is an opaque constant: no proof can see a value of it. -/

namespace Sys2Proof

/-- A value the manual leaves open (a random nonce, a routing signal in a combinational loop, …).  The argument is the
state's counter of free values drawn, so each draw is a fresh one. -/
opaque Config.freeValue : Nat → Nat

/-- SHA-384 of a byte sequence, 48 bytes as a little-endian number. -/
opaque Config.sha384 : Bytes → Nat

/-- ECDSA over P-384: public key (96 bytes, x then y), digest, signature (96 bytes, r then s). -/
opaque Config.ecdsaVerify : Bytes → Nat → Bytes → Bool

/-- AES key unwrap: key slot of the device wrapping key, wrapped key; none when the integrity check fails. -/
opaque Config.aesUnwrap : Nat → Bytes → Option Nat

/-- AES-256-GCM decryption: key, initialisation vector, additional authenticated data, ciphertext, tag. -/
opaque Config.gcmOpen : Nat → Bytes → Bytes → Bytes → Bytes → Option Bytes

/-- The digest of a schedule that START_CHECK carries: of L and the pitch map, as eight bytes each.  The manual does not name the function. -/
opaque Config.scheduleDigest : Bytes → Nat

/-- The owner key (96 bytes) whose SHA-384 hash is written in the MRAM; the manual does not say where the device takes the key itself from. -/
opaque Config.ownerKey : Nat → Bytes

/-- The frequency of the board clock GCLK0 in kHz, against which the limits of an edge PLL are checked; the manual gives only its upper bound. -/
opaque Config.gclk0 : Nat

/-- The positions that the devices of the reel set with a production identifier occupy (bit `p`: position `p`); no field of a reel names them. -/
opaque Config.reelSet : Nat → Nat

/-- Which of the links of spec/12 R316 has been negotiated: the rate less one in bits [2:0], the width as a power of two in bits [7:3], Flit mode and 14-bit tags above.
The choice is the host's. -/
opaque Config.pcieLink : Nat

/-- How far the training of a DDR5 channel has come (argument: the channel, and 8 times the time since its start); spec/13 R348 bounds it only. -/
opaque Config.ddrStep : Nat → Nat

/-- How far the zero-fill of the slowest DDR5 channel has come (argument: the time since the start of training). -/
opaque Config.zeroFill : Nat → Nat

/-- The Brynsuward firmware key held in the boot ROM (96 bytes). -/
opaque Config.firmwareKey : Bytes

end Sys2Proof
end

