-- ==== Sys2Proof/Machine/Bits.lean ====
section
/-! DEFINITION. Bit fields of numbers and their byte order (spec/00 R9), the two cyclic redundancy codes and the SECDED
codes of spec/02 R40.  Words whose width differs from register to register are natural numbers here; every field is cut
to its width where it is stored. -/

namespace Sys2Proof.Machine

/-- Bit `i` of `n`. -/
def bitAt (n i : Nat) : Nat := n / 2 ^ i % 2

/-- The bit as a truth value. -/
def isSet (n i : Nat) : Bool := bitAt n i == 1

/-- Field `[lo + width - 1 : lo]` of `n`. -/
def fieldAt (n lo width : Nat) : Nat := n / 2 ^ lo % 2 ^ width

/-- `n` with field `[lo + width - 1 : lo]` replaced by `v`. -/
def putField (n lo width v : Nat) : Nat :=
  n % 2 ^ lo + (v % 2 ^ width) * 2 ^ lo + n / 2 ^ (lo + width) * 2 ^ (lo + width)

/-- `n` with bit `i` replaced by `v`. -/
def putBit (n i v : Nat) : Nat := putField n i 1 v

/-- A truth value as a bit. -/
def bit (b : Bool) : Nat := if b then 1 else 0

/-- The number that a little-endian byte sequence holds (R9). -/
def leNat : Bytes → Nat
  | [] => 0
  | b :: bs => b.toNat + 256 * leNat bs

/-- The `k` bytes of `n`, least significant first (R9). -/
def leBytes (n : Nat) : Nat → Bytes
  | 0 => []
  | k + 1 => BitVec.ofNat 8 n :: leBytes (n / 256) k

/-- `len` bytes from offset `off` of a sequence, as a number. -/
def leAt (bs : Bytes) (off len : Nat) : Nat := leNat ((bs.drop off).take len)

/-- Whether every byte from `off`, `len` of them, is zero: a reserved field. -/
def zeroAt (bs : Bytes) (off len : Nat) : Bool := leAt bs off len == 0

/-- The two's complement value of a `w`-bit number. -/
def signedOf (w n : Nat) : Int := if 2 * (n % 2 ^ w) < 2 ^ w then Int.ofNat (n % 2 ^ w) else Int.ofNat (n % 2 ^ w) - 2 ^ w

/-- The `w`-bit two's complement encoding of an integer. -/
def unsignedOf (w : Nat) (i : Int) : Nat := (i % (2 ^ w : Nat)).toNat

/-- The number of set bits among the lowest `w` bits. -/
def popCount (n : Nat) : Nat → Nat
  | 0 => 0
  | w + 1 => n % 2 + popCount (n / 2) w

/-- The positions below `w` at which `n` has a 1, ascending from `i`. -/
def setBitsFrom (n i : Nat) : Nat → List Nat
  | 0 => []
  | w + 1 => if n % 2 = 1 then i :: setBitsFrom (n / 2) (i + 1) w else setBitsFrom (n / 2) (i + 1) w

/-- The positions below `w` at which `n` has a 1, in ascending order. -/
def setBits (n w : Nat) : List Nat := setBitsFrom n 0 w

/-- The exclusive or of all set bits of `n` (its parity), over `w` bits. -/
def parity (n w : Nat) : Nat := popCount n w % 2

/-- Saturating increment of a counter that holds at its largest value. -/
def satAdd (n k width : Nat) : Nat := min (n + k) (2 ^ width - 1)

/-- One bit step of a reflected CRC with polynomial `poly`. -/
def crcBit (poly c : Nat) : Nat := if c % 2 = 1 then (c / 2) ^^^ poly else c / 2

/-- Eight bit steps. -/
def crcByte (poly c : Nat) (b : Byte) : Nat :=
  let c0 := c ^^^ b.toNat
  crcBit poly (crcBit poly (crcBit poly (crcBit poly (crcBit poly (crcBit poly (crcBit poly (crcBit poly c0)))))))

/-- CRC-32C over a byte sequence (R188, R365).  PRESUMED: the spec names the code and not its parameters; these are the
Castagnoli polynomial, reflected, with all ones before and after. -/
def crc32c (bs : Bytes) : Nat := (bs.foldl (crcByte 0x82F63B78) 0xFFFFFFFF) ^^^ 0xFFFFFFFF

/-- The power of two at or below `p`, that is whether position `p` of a codeword holds a check bit (R40). -/
def isCheckPos (p : Nat) : Bool := p == 1 || p == 2 || p == 4 || p == 8 || p == 16 || p == 32 || p == 64

/-- The position in the codeword of data bit `k` (R40): the positions from 3 upward that hold no check bit. -/
def dataPos (k : Nat) : Nat :=
  if k < 1 then k + 3 else if k < 4 then k + 4 else if k < 11 then k + 5 else if k < 26 then k + 6
  else if k < 57 then k + 7 else k + 8

/-- The exclusive or of the positions of the set bits: bits 0 to 6 of it are c0 to c6 (R40). -/
def checkFold (data : Nat) (k : Nat) : Nat → Nat
  | 0 => 0
  | n + 1 => (if data % 2 = 1 then dataPos k else 0) ^^^ checkFold (data / 2) (k + 1) n

/-- The eight check bits, c7 in bit 7, of `w` data bits (R40; `w` is 96 for a word, 64 for selection entries). -/
def checkBits (w data : Nat) : Nat :=
  let c := checkFold data 0 w
  c + 128 * ((parity data w + parity c 7) % 2)

/-- The codeword of `w` data bits: the check bits stand above the data (R40). -/
def encodeEcc (w data : Nat) : Nat := data % 2 ^ w + checkBits w (data % 2 ^ w) * 2 ^ w

/-- What the check of a stored codeword finds (R65, R74). -/
inductive EccResult where
  | clean (data : Nat)
  | corrected (data : Nat)
  | bad (data syndrome : Nat)
  deriving DecidableEq, Repr

/-- The data bit at codeword position `p`, if one stands there. -/
def posData (p : Nat) : Option Nat :=
  if isCheckPos p || p == 0 then none
  else if p < 4 then some (p - 3) else if p < 8 then some (p - 4) else if p < 16 then some (p - 5)
  else if p < 32 then some (p - 6) else if p < 64 then some (p - 7) else some (p - 8)

/-- The check of a stored codeword of `w` data bits, by the syndrome of R65 and R74. -/
def decodeEcc (w code : Nat) : EccResult :=
  let data := code % 2 ^ w
  let stored := code / 2 ^ w
  let s06 := (stored % 128) ^^^ (checkFold data 0 w)
  let s7 := (parity data w + parity stored 8) % 2
  let s := s06 + 128 * s7
  if s = 0 then .clean data
  else if s7 = 1 ∧ s06 ≤ w + 7 then
    match posData s06 with
    | some k => .corrected (putBit data k (1 - bitAt data k))
    | none => .corrected data
  else .bad data s

end Sys2Proof.Machine
end

