-- ==== Sys2Proof/Machine/Store.lean ====
section
/-! DEFINITION. Sparse stores: every memory, register file and table of the LK7 is a list of (key, value) pairs with
strictly rising keys in which no value equals the default, which is what an unlisted key reads as.  Equal contents are
then equal lists. -/

namespace Sys2Proof.Machine

/-- A sparse store.  A byte memory (`SMap Byte`) is a list of `Host.Cell`. -/
abbrev SMap (α : Type) := List (Nat × α)

/-- The entry listed under `k`, if there is one. -/
def SMap.look {α : Type} (m : SMap α) (k : Nat) : Option α :=
  match m with
  | [] => none
  | (i, v) :: r => if i = k then some v else SMap.look r k

/-- What the store holds under `k`; the default where nothing is listed. -/
def SMap.get {α : Type} [Inhabited α] (m : SMap α) (k : Nat) : α := (SMap.look m k).getD default

/-- The store without `k`. -/
def SMap.del {α : Type} (m : SMap α) (k : Nat) : SMap α :=
  match m with
  | [] => []
  | (i, v) :: r => if i = k then SMap.del r k else (i, v) :: SMap.del r k

/-- The store with `v` listed under `k`, in order. -/
def SMap.ins {α : Type} (m : SMap α) (k : Nat) (v : α) : SMap α :=
  match m with
  | [] => [(k, v)]
  | (i, w) :: r => if k < i then (k, v) :: (i, w) :: r else if i = k then (k, v) :: r else (i, w) :: SMap.ins r k v

/-- Writing a value: the default is not listed. -/
def SMap.set {α : Type} [Inhabited α] [DecidableEq α] (m : SMap α) (k : Nat) (v : α) : SMap α :=
  if v = default then SMap.del m k else SMap.ins m k v

/-- The keys rise strictly above `b`, and no value is the default. -/
def SMap.wfFrom {α : Type} [Inhabited α] [DecidableEq α] (b : Nat) (m : SMap α) : Bool :=
  match m with
  | [] => true
  | (i, v) :: r => decide (b ≤ i) && decide (v ≠ default) && SMap.wfFrom (i + 1) r

/-- The canonical form. -/
def SMap.wf {α : Type} [Inhabited α] [DecidableEq α] (m : SMap α) : Bool := SMap.wfFrom 0 m

/-- The part of a store whose keys lie outside `[lo, hi)`: the range is set to the default. -/
def SMap.clear {α : Type} (m : SMap α) (lo hi : Nat) : SMap α := m.filter fun e => decide (e.1 < lo ∨ hi ≤ e.1)

/-- The part of a store whose keys lie in `[lo, hi)`. -/
def SMap.range {α : Type} (m : SMap α) (lo hi : Nat) : SMap α := m.filter fun e => decide (lo ≤ e.1 ∧ e.1 < hi)

/-- The keys in `[lo, hi)`, with those of `src` in the same range put in their place. -/
def SMap.graft {α : Type} [Inhabited α] [DecidableEq α] (m src : SMap α) (lo hi : Nat) : SMap α :=
  (SMap.range src lo hi).foldl (fun acc e => SMap.set acc e.1 e.2) (SMap.clear m lo hi)

/-- `f` applied to every listed value; what becomes the default is no longer listed. -/
def SMap.mapVal {α : Type} [Inhabited α] [DecidableEq α] (m : SMap α) (f : α → α) : SMap α :=
  (m.map fun e => (e.1, f e.2)).filter fun e => decide (e.2 ≠ default)

/-- `n` bytes from address `a`, in ascending order. -/
def SMap.bytes (m : SMap Byte) (a : Nat) : Nat → Bytes
  | 0 => []
  | n + 1 => SMap.get m a :: SMap.bytes m (a + 1) n

/-- A byte sequence stored from address `a` upward. -/
def SMap.store (m : SMap Byte) (a : Nat) : Bytes → SMap Byte
  | [] => m
  | b :: bs => SMap.store (SMap.set m a b) (a + 1) bs

/-- A bit held in a store of byte rows. -/
def SMap.bitGet (m : SMap Nat) (i : Nat) : Nat := bitAt (SMap.get m (i / 8)) (i % 8)

/-- Writing one bit of a store of byte rows. -/
def SMap.bitSet (m : SMap Nat) (i v : Nat) : SMap Nat := SMap.set m (i / 8) (putBit (SMap.get m (i / 8)) (i % 8) v)

end Sys2Proof.Machine
end

