-- ==== Sys2Proof/Machine/Regs.lean ====
section
/-! DEFINITION. The registers of the LK7, one `Reg` per field of the register tables of spec/04 to spec/19, named as
the manual names them (`R.<page>.<register>_<field>`), and the list of fields of each kind of page.  The fields of the
common header (spec/19 R495) and of the EVT pages (R513) are not here: `Machine/Pages.lean` serves them. -/

namespace Sys2Proof.Machine

/-- The access types of a register field (spec/00 R10). -/
inductive Access where
  | ro | rw | rwl | w1c | w1s | wo | rc
  deriving DecidableEq, Repr, Inhabited

/-- A register field.  `base` is the offset of its first page in PF0 BAR0, `off` the offset of the register in the page,
`stride` and `count` the step and the number of registers of a numbered register, `lo` and `width` the place of the field
counted from bit 0 of the word at `off` (a field of a register longer than 32 bits goes on into the following words),
`reset` the value the table gives for reset. -/
structure Reg where
  base : Nat
  off : Nat
  stride : Nat
  count : Nat
  lo : Nat
  width : Nat
  ty : Access
  reset : Nat
  deriving DecidableEq, Repr, Inhabited

/-- The key under which the field of page `n` (of its kind) and register number `k` is held: the bit address of the
field in PF0 BAR0. -/
def Reg.key (r : Reg) (n k : Nat) : Nat := (r.base + 0x1000 * n + r.off + r.stride * k) * 8 + r.lo


/-! Registers of the TAKE page (spec/04 R124, R125). -/

def R.TAKE.TAKE_CTRL_MODE : Reg := ⟨0x12000, 0x040, 0, 1, 0, 1, .rw, 0x0⟩
def R.TAKE.TAKE_CTRL_TB_SEL : Reg := ⟨0x12000, 0x040, 0, 1, 1, 2, .rw, 0x0⟩
def R.TAKE.TAKE_CTRL_DEADLINE_RESP : Reg := ⟨0x12000, 0x040, 0, 1, 4, 2, .rw, 0x0⟩
def R.TAKE.TAKE_CTRL_LOST_RESP : Reg := ⟨0x12000, 0x040, 0, 1, 6, 2, .rw, 0x0⟩
def R.TAKE.TAKE_CTRL_STEAL_LIMIT : Reg := ⟨0x12000, 0x040, 0, 1, 8, 8, .rw, 0x0⟩
def R.TAKE.TAKE_STATUS_RUNNING : Reg := ⟨0x12000, 0x044, 0, 1, 0, 1, .ro, 0x0⟩
def R.TAKE.TAKE_STATUS_PITCH : Reg := ⟨0x12000, 0x044, 0, 1, 1, 4, .ro, 0x0⟩
def R.TAKE.TAKE_STATUS_AT_BELAY : Reg := ⟨0x12000, 0x044, 0, 1, 5, 1, .ro, 0x1⟩
def R.TAKE.TAKE_STATUS_BELAY : Reg := ⟨0x12000, 0x044, 0, 1, 6, 4, .ro, 0x0⟩
def R.TAKE.TAKE_STATUS_WAITING_TICK : Reg := ⟨0x12000, 0x044, 0, 1, 10, 1, .ro, 0x0⟩
def R.TAKE.TAKE_STATUS_WAITING_FAR : Reg := ⟨0x12000, 0x044, 0, 1, 11, 1, .ro, 0x0⟩
def R.TAKE.TAKE_STATUS_WAITING_LINK : Reg := ⟨0x12000, 0x044, 0, 1, 12, 1, .ro, 0x0⟩
def R.TAKE.TAKE_STATUS_WAITING_INJECT : Reg := ⟨0x12000, 0x044, 0, 1, 13, 1, .ro, 0x0⟩
def R.TAKE.TAKE_STATUS_THROTTLED : Reg := ⟨0x12000, 0x044, 0, 1, 14, 1, .ro, 0x0⟩
def R.TAKE.TAKE_STATUS_STEALING : Reg := ⟨0x12000, 0x044, 0, 1, 15, 1, .ro, 0x0⟩
def R.TAKE.TAKE_STATUS_TICK_PENDING : Reg := ⟨0x12000, 0x044, 0, 1, 16, 1, .ro, 0x0⟩
def R.TAKE.TAKE_STATUS_WRITE_REFUSED : Reg := ⟨0x12000, 0x044, 0, 1, 17, 1, .w1c, 0x0⟩
def R.TAKE.TAKE_NUMBER : Reg := ⟨0x12000, 0x048, 0, 1, 0, 48, .ro, 0x0⟩
def R.TAKE.INJECT_THROUGH : Reg := ⟨0x12000, 0x050, 0, 1, 0, 48, .rw, 0xffffffffffff⟩
def R.TAKE.DEADLINE_COUNT : Reg := ⟨0x12000, 0x058, 0, 1, 0, 32, .ro, 0x0⟩
def R.TAKE.SKIP_COUNT : Reg := ⟨0x12000, 0x05C, 0, 1, 0, 32, .ro, 0x0⟩
def R.TAKE.PITCH_MAP : Reg := ⟨0x12000, 0x060, 0x8, 16, 0, 64, .ro, 0x0⟩
def R.TAKE.TICK_STAMP : Reg := ⟨0x12000, 0x0E0, 0, 1, 0, 64, .ro, 0x0⟩
def R.TAKE.GLOBAL_LEAD_NS : Reg := ⟨0x12000, 0x0E8, 0, 1, 0, 32, .ro, 0x0⟩

/-! Registers of the BANK page (spec/05 R140, R154). -/

def R.BANK.BANK_CTRL_ASPECT : Reg := ⟨0x1000000, 0x040, 0, 1, 0, 3, .rw, 0x0⟩
def R.BANK.BANK_CTRL_JOIN : Reg := ⟨0x1000000, 0x040, 0, 1, 3, 1, .rw, 0x0⟩
def R.BANK.BANK_CTRL_OWNER : Reg := ⟨0x1000000, 0x040, 0, 1, 4, 2, .rw, 0x0⟩
def R.BANK.BANK_STATUS_OWNER_NOW : Reg := ⟨0x1000000, 0x044, 0, 1, 0, 2, .ro, 0x0⟩
def R.BANK.BANK_STATUS_HANDOVER_PENDING : Reg := ⟨0x1000000, 0x044, 0, 1, 2, 1, .ro, 0x0⟩
def R.BANK.BANK_STATUS_CLEARED : Reg := ⟨0x1000000, 0x044, 0, 1, 3, 1, .w1c, 0x1⟩
def R.BANK.BANK_STATUS_WRITE_REFUSED : Reg := ⟨0x1000000, 0x044, 0, 1, 4, 1, .w1c, 0x0⟩
def R.BANK.BANK_STATUS_REFUSED_ACCESS : Reg := ⟨0x1000000, 0x044, 0, 1, 5, 1, .w1c, 0x0⟩
def R.BANK.BANK_STATUS_JOINED : Reg := ⟨0x1000000, 0x044, 0, 1, 6, 1, .ro, 0x0⟩
def R.BANK.DROP_COUNT : Reg := ⟨0x1000000, 0x048, 0, 1, 0, 32, .ro, 0x0⟩
def R.BANK.PORTA_ADDR : Reg := ⟨0x1000000, 0x04C, 0, 1, 0, 17, .ro, 0x0⟩
def R.BANK.PORTB_ADDR : Reg := ⟨0x1000000, 0x050, 0, 1, 0, 17, .ro, 0x0⟩

/-! Registers of the FAR page (spec/05 R140, R154). -/

def R.FAR.FAR_CTRL_ENABLE : Reg := ⟨0x400000, 0x040, 0, 1, 0, 1, .rw, 0x0⟩
def R.FAR.FAR_CTRL_CTX : Reg := ⟨0x400000, 0x040, 0, 1, 1, 6, .rw, 0x0⟩
def R.FAR.FAR_STATUS_ISSUED : Reg := ⟨0x400000, 0x044, 0, 1, 0, 5, .ro, 0x0⟩
def R.FAR.FAR_STATUS_OUTSTANDING : Reg := ⟨0x400000, 0x044, 0, 1, 5, 5, .ro, 0x0⟩
def R.FAR.FAR_STATUS_XLATE_FAULT : Reg := ⟨0x400000, 0x044, 0, 1, 10, 1, .w1c, 0x0⟩
def R.FAR.FAR_STATUS_WRITE_REFUSED : Reg := ⟨0x400000, 0x044, 0, 1, 11, 1, .w1c, 0x0⟩
def R.FAR.FAR_STATUS_CFG_ERROR : Reg := ⟨0x400000, 0x044, 0, 1, 12, 1, .ro, 0x0⟩
def R.FAR.FAULT_DVA : Reg := ⟨0x400000, 0x048, 0, 1, 0, 48, .ro, 0x0⟩
def R.FAR.WIN_BASE : Reg := ⟨0x400000, 0x080, 0x10, 16, 16, 32, .rw, 0x0⟩
def R.FAR.WIN_CFG_VALID : Reg := ⟨0x400000, 0x088, 0x10, 16, 0, 1, .rw, 0x0⟩
def R.FAR.WIN_CFG_WRITABLE : Reg := ⟨0x400000, 0x088, 0x10, 16, 1, 1, .rw, 0x0⟩
def R.FAR.WIN_CFG_SIZE_LOG2 : Reg := ⟨0x400000, 0x088, 0x10, 16, 8, 6, .rw, 0x10⟩

/-! Registers of the CHECK page (spec/06 R176). -/

def R.CHECK.CHECK_CTRL_ENABLE : Reg := ⟨0x13000, 0x040, 0, 1, 0, 1, .rw, 0x0⟩
def R.CHECK.CHECK_STATUS_ACTIVE : Reg := ⟨0x13000, 0x044, 0, 1, 0, 1, .ro, 0x0⟩
def R.CHECK.CHECK_STATUS_CLOCK_REFUSED : Reg := ⟨0x13000, 0x044, 0, 1, 1, 1, .w1c, 0x0⟩
def R.CHECK.CHECK_STATUS_WRITE_REFUSED : Reg := ⟨0x13000, 0x044, 0, 1, 2, 1, .w1c, 0x0⟩
def R.CHECK.CHECK_STATUS_COST_LOADED : Reg := ⟨0x13000, 0x044, 0, 1, 3, 1, .ro, 0x0⟩
def R.CHECK.COST_FLOOR : Reg := ⟨0x13000, 0x048, 0, 1, 0, 64, .ro, 0xc0a080404030200⟩
def R.CHECK.COST_TABLE : Reg := ⟨0x13000, 0x050, 0, 1, 0, 64, .ro, 0x0⟩
def R.CHECK.TOKEN_CEIL_1G : Reg := ⟨0x13000, 0x058, 0, 1, 0, 16, .ro, 0x3700⟩
def R.CHECK.TOKEN_CEIL : Reg := ⟨0x13000, 0x05C, 0, 1, 0, 20, .ro, 0x0⟩
def R.CHECK.BUDGET : Reg := ⟨0x13000, 0x100, 0x4, 64, 0, 20, .ro, 0x0⟩
def R.CHECK.PEAK : Reg := ⟨0x13000, 0x200, 0x4, 64, 0, 20, .ro, 0x0⟩

/-! Registers of the LOAD page (spec/07 R207). -/

def R.LOAD.LOAD_CTRL_END : Reg := ⟨0x14000, 0x040, 0, 1, 0, 1, .wo, 0x0⟩
def R.LOAD.LOAD_CTRL_REGION_RELEASE : Reg := ⟨0x14000, 0x040, 0, 1, 1, 1, .wo, 0x0⟩
def R.LOAD.LOAD_CTRL_STATE_ACK : Reg := ⟨0x14000, 0x040, 0, 1, 2, 1, .wo, 0x0⟩
def R.LOAD.LOAD_STATUS_STATE : Reg := ⟨0x14000, 0x044, 0, 1, 0, 3, .ro, 0x0⟩
def R.LOAD.LOAD_STATUS_PARTIAL : Reg := ⟨0x14000, 0x044, 0, 1, 3, 1, .ro, 0x0⟩
def R.LOAD.LOAD_STATUS_FENCED : Reg := ⟨0x14000, 0x044, 0, 1, 4, 1, .ro, 0x0⟩
def R.LOAD.LOAD_STATUS_SECURE : Reg := ⟨0x14000, 0x044, 0, 1, 5, 1, .ro, 0x0⟩
def R.LOAD.LOAD_STATUS_RUN_REFUSED : Reg := ⟨0x14000, 0x044, 0, 1, 6, 1, .w1c, 0x0⟩
def R.LOAD.LOAD_STATUS_FENCE_PASSED : Reg := ⟨0x14000, 0x044, 0, 1, 7, 1, .w1c, 0x0⟩
def R.LOAD.LOAD_STATUS_PIN_LOCKED_SKIPPED : Reg := ⟨0x14000, 0x044, 0, 1, 8, 1, .w1c, 0x0⟩
def R.LOAD.LOAD_STATUS_CRC_RETRY : Reg := ⟨0x14000, 0x044, 0, 1, 9, 1, .w1c, 0x0⟩
def R.LOAD.LOAD_STATUS_LAST_CODE : Reg := ⟨0x14000, 0x044, 0, 1, 10, 8, .ro, 0x0⟩
def R.LOAD.LOAD_STATUS_STATE_CLEARED : Reg := ⟨0x14000, 0x044, 0, 1, 18, 1, .ro, 0x0⟩
def R.LOAD.LOAD_STATUS_UNIT_SPLIT : Reg := ⟨0x14000, 0x044, 0, 1, 19, 1, .w1c, 0x0⟩
def R.LOAD.FRAMES_WRITTEN : Reg := ⟨0x14000, 0x048, 0, 1, 0, 32, .ro, 0x0⟩
def R.LOAD.FRAME_COUNT : Reg := ⟨0x14000, 0x04C, 0, 1, 0, 32, .ro, 0x0⟩
def R.LOAD.PRODUCTION_ID : Reg := ⟨0x14000, 0x050, 0, 1, 0, 64, .rw, 0x0⟩
def R.LOAD.POSITION : Reg := ⟨0x14000, 0x058, 0, 1, 0, 6, .rw, 0x0⟩
def R.LOAD.FENCE_TAKE : Reg := ⟨0x14000, 0x060, 0, 1, 0, 48, .rw, 0x0⟩
def R.LOAD.REJOIN_TAKE : Reg := ⟨0x14000, 0x068, 0, 1, 0, 48, .rw, 0x0⟩
def R.LOAD.BOOT_STATUS_SOURCE : Reg := ⟨0x14000, 0x070, 0, 1, 0, 1, .ro, 0x0⟩
def R.LOAD.BOOT_STATUS_REASON : Reg := ⟨0x14000, 0x070, 0, 1, 1, 4, .ro, 0x0⟩
def R.LOAD.BOOT_STATUS_SETTINGS_COPY : Reg := ⟨0x14000, 0x070, 0, 1, 5, 1, .ro, 0x0⟩
def R.LOAD.BOOT_STATUS_READY_MS : Reg := ⟨0x14000, 0x070, 0, 1, 16, 16, .ro, 0x0⟩

/-! Registers of the EDGE page (spec/08 R238). -/

def R.EDGE.EDGE_CTRL_RELEASE : Reg := ⟨0x300000, 0x040, 0, 1, 0, 1, .wo, 0x0⟩
def R.EDGE.EDGE_CTRL_HALT_GATE : Reg := ⟨0x300000, 0x040, 0, 1, 8, 8, .rw, 0xff⟩
def R.EDGE.EDGE_STATUS_RELEASE_STAGE : Reg := ⟨0x300000, 0x044, 0, 1, 0, 2, .ro, 0x0⟩
def R.EDGE.EDGE_STATUS_RELEASE_REFUSED : Reg := ⟨0x300000, 0x044, 0, 1, 2, 1, .w1c, 0x0⟩
def R.EDGE.EDGE_STATUS_PLL0_LOCK : Reg := ⟨0x300000, 0x044, 0, 1, 3, 1, .ro, 0x0⟩
def R.EDGE.EDGE_STATUS_PLL1_LOCK : Reg := ⟨0x300000, 0x044, 0, 1, 4, 1, .ro, 0x0⟩
def R.EDGE.EDGE_STATUS_LL_CONFLICT : Reg := ⟨0x300000, 0x044, 0, 1, 5, 1, .w1c, 0x0⟩
def R.EDGE.EDGE_STATUS_BMEM_COLLISION : Reg := ⟨0x300000, 0x044, 0, 1, 6, 1, .w1c, 0x0⟩
def R.EDGE.EDGE_STATUS_FIFO_OVERFLOW : Reg := ⟨0x300000, 0x044, 0, 1, 7, 1, .w1c, 0x0⟩
def R.EDGE.EDGE_STATUS_FIFO_UNDERFLOW : Reg := ⟨0x300000, 0x044, 0, 1, 8, 1, .w1c, 0x0⟩
def R.EDGE.EDGE_STATUS_WRITE_REFUSED : Reg := ⟨0x300000, 0x044, 0, 1, 9, 1, .w1c, 0x0⟩
def R.EDGE.EDGE_STATUS_PRESENT_FULL : Reg := ⟨0x300000, 0x044, 0, 1, 10, 1, .ro, 0x0⟩
def R.EDGE.PRESENT_CFG_P : Reg := ⟨0x300000, 0x048, 0, 1, 0, 4, .rw, 0x1⟩
def R.EDGE.PRESENT_CFG_OFF : Reg := ⟨0x300000, 0x048, 0, 1, 4, 16, .rw, 0x3⟩
def R.EDGE.PRESENT_COUNT : Reg := ⟨0x300000, 0x04C, 0, 1, 0, 32, .ro, 0x0⟩
def R.EDGE.HELD_COUNT : Reg := ⟨0x300000, 0x050, 0, 1, 0, 32, .ro, 0x0⟩
def R.EDGE.LL_CONFLICT_COUNT : Reg := ⟨0x300000, 0x054, 0, 1, 0, 32, .ro, 0x0⟩
def R.EDGE.LL_CONFLICT_MASK : Reg := ⟨0x300000, 0x058, 0, 1, 0, 64, .w1c, 0x0⟩
def R.EDGE.BMEM_COLL : Reg := ⟨0x300000, 0x060, 0, 1, 0, 64, .w1c, 0x0⟩
def R.EDGE.FIFO_OVF : Reg := ⟨0x300000, 0x068, 0, 1, 0, 32, .w1c, 0x0⟩
def R.EDGE.FIFO_UNF : Reg := ⟨0x300000, 0x06C, 0, 1, 0, 32, .w1c, 0x0⟩
def R.EDGE.FIFO_LEVEL : Reg := ⟨0x300000, 0x100, 0x4, 32, 0, 7, .ro, 0x0⟩
def R.EDGE.PROBE_SEL_INDEX : Reg := ⟨0x300000, 0x180, 0x4, 32, 0, 16, .rw, 0x0⟩
def R.EDGE.PROBE_SEL_KIND : Reg := ⟨0x300000, 0x180, 0x4, 32, 16, 1, .rw, 0x0⟩
def R.EDGE.PROBE_SEL_ENABLE : Reg := ⟨0x300000, 0x180, 0x4, 32, 17, 1, .rw, 0x0⟩

/-! Registers of the PINBANK page (spec/09 R263, R264). -/

def R.PINBANK.BANK_STATUS_VCCIO_CODE : Reg := ⟨0x301000, 0x040, 0, 1, 0, 3, .ro, 0x7⟩
def R.PINBANK.BANK_STATUS_WRITE_REFUSED : Reg := ⟨0x301000, 0x040, 0, 1, 3, 1, .w1c, 0x0⟩
def R.PINBANK.BANK_STATUS_LOCK_ARMED : Reg := ⟨0x301000, 0x040, 0, 1, 4, 1, .ro, 0x0⟩
def R.PINBANK.BANK_STATUS_LOCK_SEQ_FAILED : Reg := ⟨0x301000, 0x040, 0, 1, 5, 1, .w1c, 0x0⟩
def R.PINBANK.LOCKKEY : Reg := ⟨0x301000, 0x044, 0, 1, 0, 16, .wo, 0x0⟩
def R.PINBANK.LOCK : Reg := ⟨0x301000, 0x048, 0, 1, 0, 32, .w1s, 0x0⟩
def R.PINBANK.GPIO_OUT : Reg := ⟨0x301000, 0x04C, 0, 1, 0, 32, .rw, 0x0⟩
def R.PINBANK.GPIO_OE : Reg := ⟨0x301000, 0x050, 0, 1, 0, 32, .rw, 0x0⟩
def R.PINBANK.PIN_IN : Reg := ⟨0x301000, 0x054, 0, 1, 0, 32, .ro, 0x0⟩
def R.PINBANK.PIN_CFG : Reg := ⟨0x301000, 0x100, 0x8, 32, 0, 64, .rw, 0x0⟩

/-! Registers of the MATCH page (spec/09 R263, R264). -/

def R.MATCH.MATCH_CTRL_ENABLE : Reg := ⟨0x310000, 0x040, 0, 1, 0, 1, .rw, 0x0⟩
def R.MATCH.MATCH_CTRL_MODE : Reg := ⟨0x310000, 0x040, 0, 1, 1, 2, .rw, 0x0⟩
def R.MATCH.MATCH_CTRL_DEBOUNCE : Reg := ⟨0x310000, 0x040, 0, 1, 16, 16, .rw, 0x0⟩
def R.MATCH.MATCH_STATUS_RAW : Reg := ⟨0x310000, 0x044, 0, 1, 0, 1, .ro, 0x0⟩
def R.MATCH.MATCH_STATUS_FILTERED : Reg := ⟨0x310000, 0x044, 0, 1, 1, 1, .ro, 0x0⟩
def R.MATCH.MATCH_STATUS_WRITE_REFUSED : Reg := ⟨0x310000, 0x044, 0, 1, 2, 1, .w1c, 0x0⟩
def R.MATCH.VALUE : Reg := ⟨0x310000, 0x048, 0, 1, 0, 32, .rw, 0x0⟩
def R.MATCH.MASK : Reg := ⟨0x310000, 0x04C, 0, 1, 0, 32, .rw, 0x0⟩
def R.MATCH.STAMP : Reg := ⟨0x310000, 0x050, 0, 1, 0, 64, .ro, 0x0⟩
def R.MATCH.SEL_PIN : Reg := ⟨0x310000, 0x080, 0x4, 32, 0, 9, .rw, 0x0⟩
def R.MATCH.SEL_ENABLE : Reg := ⟨0x310000, 0x080, 0x4, 32, 9, 1, .rw, 0x0⟩

/-! Registers of the ENV page (spec/09 R263, R264). -/

def R.ENV.ENV_STATUS_LOCKED : Reg := ⟨0xB000, 0x040, 0, 1, 0, 1, .ro, 0x0⟩
def R.ENV.ENV_STATUS_ENABLED : Reg := ⟨0xB000, 0x040, 0, 1, 1, 1, .ro, 0x0⟩
def R.ENV.ENV_STATUS_SAFE_DRIVEN : Reg := ⟨0xB000, 0x040, 0, 1, 2, 1, .ro, 0x0⟩
def R.ENV.ENV_STATUS_PAIR_COUNT : Reg := ⟨0xB000, 0x040, 0, 1, 3, 7, .ro, 0x0⟩
def R.ENV.CLAMP_COUNT : Reg := ⟨0xB000, 0x044, 0, 1, 0, 32, .ro, 0x0⟩
def R.ENV.CLAMPED : Reg := ⟨0xB000, 0x060, 0x4, 10, 0, 32, .ro, 0x0⟩

/-! Registers of the TIME page (spec/10 R289, R290). -/

def R.TIME.TIME_CTRL_SOURCE : Reg := ⟨0xD000, 0x040, 0, 1, 0, 1, .rw, 0x0⟩
def R.TIME.TIME_CTRL_ELIGIBLE : Reg := ⟨0xD000, 0x040, 0, 1, 1, 1, .rw, 0x1⟩
def R.TIME.TIME_CTRL_PRIORITY : Reg := ⟨0xD000, 0x040, 0, 1, 2, 4, .rw, 0x0⟩
def R.TIME.TIME_CTRL_SYNC_LOG2 : Reg := ⟨0xD000, 0x040, 0, 1, 6, 4, .rw, 0xa⟩
def R.TIME.TIME_CTRL_JUMP_ACCEPT : Reg := ⟨0xD000, 0x040, 0, 1, 10, 1, .wo, 0x0⟩
def R.TIME.TIME_CTRL_JUMP_REJECT : Reg := ⟨0xD000, 0x040, 0, 1, 11, 1, .wo, 0x0⟩
def R.TIME.TIME_CTRL_RESUME : Reg := ⟨0xD000, 0x040, 0, 1, 12, 1, .wo, 0x0⟩
def R.TIME.TIME_STATUS_LOCKED : Reg := ⟨0xD000, 0x044, 0, 1, 0, 1, .ro, 0x0⟩
def R.TIME.TIME_STATUS_MASTER : Reg := ⟨0xD000, 0x044, 0, 1, 1, 1, .ro, 0x1⟩
def R.TIME.TIME_STATUS_FROZEN : Reg := ⟨0xD000, 0x044, 0, 1, 2, 1, .ro, 0x0⟩
def R.TIME.TIME_STATUS_HOLDOVER : Reg := ⟨0xD000, 0x044, 0, 1, 3, 1, .ro, 0x0⟩
def R.TIME.TIME_STATUS_SLEWING : Reg := ⟨0xD000, 0x044, 0, 1, 4, 1, .ro, 0x0⟩
def R.TIME.TIME_STATUS_WRITE_REFUSED : Reg := ⟨0xD000, 0x044, 0, 1, 5, 1, .w1c, 0x0⟩
def R.TIME.TIME_STATUS_UPSTREAM_PORT : Reg := ⟨0xD000, 0x044, 0, 1, 6, 3, .ro, 0x0⟩
def R.TIME.TIME_STATUS_MASTER_POS : Reg := ⟨0xD000, 0x044, 0, 1, 16, 6, .ro, 0x0⟩
def R.TIME.WRAPS : Reg := ⟨0xD000, 0x050, 0, 1, 0, 32, .ro, 0x0⟩
def R.TIME.ADDEND : Reg := ⟨0xD000, 0x054, 0, 1, 0, 40, .rw, 0xa00000000⟩
def R.TIME.JUMP_LIMIT : Reg := ⟨0xD000, 0x05C, 0, 1, 0, 32, .rw, 0x3e8⟩
def R.TIME.PENDING : Reg := ⟨0xD000, 0x060, 0, 1, 0, 64, .ro, 0x0⟩
def R.TIME.OFFSET : Reg := ⟨0xD000, 0x068, 0, 1, 0, 64, .ro, 0x0⟩
def R.TIME.PTM_OFFSET : Reg := ⟨0xD000, 0x070, 0, 1, 0, 32, .rw, 0x0⟩
def R.TIME.PTM_INTERVAL : Reg := ⟨0xD000, 0x074, 0, 1, 0, 16, .rw, 0x3e8⟩
def R.TIME.PTM_LAST : Reg := ⟨0xD000, 0x078, 0, 1, 0, 64, .ro, 0x0⟩
def R.TIME.PULSE_CTRL_MODE : Reg := ⟨0xD000, 0x100, 0x20, 8, 0, 2, .rw, 0x0⟩
def R.TIME.PULSE_CTRL_IDLE : Reg := ⟨0xD000, 0x100, 0x20, 8, 2, 1, .rw, 0x0⟩
def R.TIME.PULSE_CTRL_ARMED : Reg := ⟨0xD000, 0x100, 0x20, 8, 8, 1, .ro, 0x0⟩
def R.TIME.PULSE_CTRL_LATE : Reg := ⟨0xD000, 0x100, 0x20, 8, 9, 1, .w1c, 0x0⟩
def R.TIME.START : Reg := ⟨0xD000, 0x104, 0x20, 8, 0, 64, .rw, 0x0⟩
def R.TIME.PERIOD : Reg := ⟨0xD000, 0x10C, 0x20, 8, 0, 64, .rw, 0x0⟩
def R.TIME.WIDTH : Reg := ⟨0xD000, 0x114, 0x20, 8, 0, 32, .rw, 0x0⟩
def R.TIME.CAP_CTRL_ENABLE : Reg := ⟨0xD000, 0x200, 0x20, 16, 0, 1, .rw, 0x0⟩
def R.TIME.CAP_CTRL_EDGE : Reg := ⟨0xD000, 0x200, 0x20, 16, 1, 2, .rw, 0x0⟩
def R.TIME.CAP_CTRL_GATE_EN : Reg := ⟨0xD000, 0x200, 0x20, 16, 3, 1, .rw, 0x0⟩
def R.TIME.CAP_CTRL_FILTER : Reg := ⟨0xD000, 0x200, 0x20, 16, 4, 4, .rw, 0x0⟩
def R.TIME.CAP_STATUS_LEVEL : Reg := ⟨0xD000, 0x204, 0x20, 16, 0, 5, .ro, 0x0⟩
def R.TIME.CAP_STATUS_OVERFLOW : Reg := ⟨0xD000, 0x204, 0x20, 16, 5, 1, .w1c, 0x0⟩
def R.TIME.CAP_STATUS_LATE : Reg := ⟨0xD000, 0x204, 0x20, 16, 6, 1, .w1c, 0x0⟩
def R.TIME.STAMP : Reg := ⟨0xD000, 0x208, 0x20, 16, 0, 64, .ro, 0x0⟩
def R.TIME.GATE_START : Reg := ⟨0xD000, 0x210, 0x20, 16, 0, 64, .rw, 0x0⟩
def R.TIME.GATE_END : Reg := ⟨0xD000, 0x218, 0x20, 16, 0, 64, .rw, 0x0⟩
def R.TIME.TRIG_CFG_OUT : Reg := ⟨0xD000, 0x400, 0x4, 16, 0, 1, .rw, 0x0⟩
def R.TIME.TRIG_CFG_SRC : Reg := ⟨0xD000, 0x400, 0x4, 16, 1, 2, .rw, 0x0⟩
def R.TIME.TRIG_CFG_ARG : Reg := ⟨0xD000, 0x400, 0x4, 16, 3, 4, .rw, 0x0⟩
def R.TIME.TRIG_CFG_WIDTH : Reg := ⟨0xD000, 0x400, 0x4, 16, 16, 16, .rw, 0x4⟩

/-! Registers of the TBASE page (spec/10 R289, R290). -/

def R.TBASE.TB_CFG_SOURCE : Reg := ⟨0xE000, 0x040, 0, 1, 0, 4, .rw, 0x0⟩
def R.TBASE.TB_CFG_EDGE : Reg := ⟨0xE000, 0x040, 0, 1, 4, 2, .rw, 0x0⟩
def R.TBASE.TB_CFG_TICK_SEL : Reg := ⟨0xE000, 0x040, 0, 1, 6, 1, .rw, 0x0⟩
def R.TBASE.TB_CFG_DIR_INV : Reg := ⟨0xE000, 0x040, 0, 1, 7, 1, .rw, 0x0⟩
def R.TBASE.TB_CFG_TRIG_LINE : Reg := ⟨0xE000, 0x040, 0, 1, 8, 4, .rw, 0x0⟩
def R.TBASE.TB_CFG_FILTER : Reg := ⟨0xE000, 0x040, 0, 1, 12, 4, .rw, 0x0⟩
def R.TBASE.TB_CFG_INDEX_MODE : Reg := ⟨0xE000, 0x040, 0, 1, 16, 2, .rw, 0x0⟩
def R.TBASE.DIV : Reg := ⟨0xE000, 0x044, 0, 1, 0, 32, .rw, 0x0⟩
def R.TBASE.CPR : Reg := ⟨0xE000, 0x048, 0, 1, 0, 32, .rw, 0x0⟩
def R.TBASE.INDEX_POS : Reg := ⟨0xE000, 0x04C, 0, 1, 0, 32, .rw, 0x0⟩
def R.TBASE.PERIOD : Reg := ⟨0xE000, 0x050, 0, 1, 0, 64, .rw, 0x0⟩
def R.TBASE.START : Reg := ⟨0xE000, 0x058, 0, 1, 0, 64, .rw, 0x0⟩
def R.TBASE.LOST_TIMEOUT : Reg := ⟨0xE000, 0x060, 0, 1, 0, 32, .rw, 0x0⟩
def R.TBASE.TB_STATUS_VALID : Reg := ⟨0xE000, 0x080, 0, 1, 0, 1, .ro, 0x0⟩
def R.TBASE.TB_STATUS_SUBSTITUTING : Reg := ⟨0xE000, 0x080, 0, 1, 1, 1, .ro, 0x0⟩
def R.TBASE.TB_STATUS_LOST : Reg := ⟨0xE000, 0x080, 0, 1, 2, 1, .w1c, 0x0⟩
def R.TBASE.TB_STATUS_LOST_CAUSE : Reg := ⟨0xE000, 0x080, 0, 1, 3, 3, .ro, 0x0⟩
def R.TBASE.TB_STATUS_INDEX_SEEN : Reg := ⟨0xE000, 0x080, 0, 1, 6, 1, .ro, 0x0⟩
def R.TBASE.TB_STATUS_WRITE_REFUSED : Reg := ⟨0xE000, 0x080, 0, 1, 7, 1, .w1c, 0x0⟩
def R.TBASE.TB_STATUS_CMP_ARG : Reg := ⟨0xE000, 0x080, 0, 1, 8, 8, .ro, 0x0⟩
def R.TBASE.POSITION : Reg := ⟨0xE000, 0x084, 0, 1, 0, 32, .ro, 0x0⟩
def R.TBASE.POS_STAMP : Reg := ⟨0xE000, 0x088, 0, 1, 0, 64, .ro, 0x0⟩
def R.TBASE.REVOLUTIONS : Reg := ⟨0xE000, 0x090, 0, 1, 0, 32, .ro, 0x0⟩
def R.TBASE.TICK_COUNT : Reg := ⟨0xE000, 0x094, 0, 1, 0, 32, .ro, 0x0⟩
def R.TBASE.LAST_TICK : Reg := ⟨0xE000, 0x098, 0, 1, 0, 64, .ro, 0x0⟩
def R.TBASE.MEAN_PERIOD : Reg := ⟨0xE000, 0x0A0, 0, 1, 0, 32, .ro, 0x0⟩
def R.TBASE.ENC_ERRORS : Reg := ⟨0xE000, 0x0A4, 0, 1, 0, 16, .ro, 0x0⟩
def R.TBASE.INDEX_ERRORS : Reg := ⟨0xE000, 0x0A8, 0, 1, 0, 16, .ro, 0x0⟩
def R.TBASE.TICK_MERGED : Reg := ⟨0xE000, 0x0AC, 0, 1, 0, 16, .ro, 0x0⟩

/-! Registers of the KL page (spec/11 R315). -/

def R.KL.KL_CTRL_ENABLE : Reg := ⟨0x209000, 0x040, 0, 1, 0, 1, .rw, 0x0⟩
def R.KL.KL_CTRL_V2_ALLOW : Reg := ⟨0x209000, 0x040, 0, 1, 1, 1, .rw, 0x1⟩
def R.KL.KL_CTRL_RETRAIN : Reg := ⟨0x209000, 0x040, 0, 1, 2, 1, .wo, 0x0⟩
def R.KL.KL_CTRL_MIN_LANES : Reg := ⟨0x209000, 0x040, 0, 1, 4, 4, .rw, 0x8⟩
def R.KL.KL_CTRL_TRAIN_RETRIES : Reg := ⟨0x209000, 0x040, 0, 1, 8, 4, .rw, 0x3⟩
def R.KL.KL_STATUS_STATE : Reg := ⟨0x209000, 0x044, 0, 1, 0, 4, .ro, 0x0⟩
def R.KL.KL_STATUS_VERSION : Reg := ⟨0x209000, 0x044, 0, 1, 4, 2, .ro, 0x0⟩
def R.KL.KL_STATUS_USABLE : Reg := ⟨0x209000, 0x044, 0, 1, 6, 8, .ro, 0x0⟩
def R.KL.KL_STATUS_TRAINED : Reg := ⟨0x209000, 0x044, 0, 1, 14, 7, .ro, 0x0⟩
def R.KL.KL_STATUS_V2_FAILED : Reg := ⟨0x209000, 0x044, 0, 1, 21, 1, .ro, 0x0⟩
def R.KL.KL_STATUS_LANES_SHORT : Reg := ⟨0x209000, 0x044, 0, 1, 22, 1, .w1c, 0x0⟩
def R.KL.KL_STATUS_DOWN_REASON : Reg := ⟨0x209000, 0x044, 0, 1, 23, 3, .ro, 0x1⟩
def R.KL.KL_STATUS_WRITE_REFUSED : Reg := ⟨0x209000, 0x044, 0, 1, 26, 1, .w1c, 0x0⟩
def R.KL.TX_EQ_PRE : Reg := ⟨0x209000, 0x048, 0, 1, 0, 4, .rw, 0x4⟩
def R.KL.TX_EQ_POST : Reg := ⟨0x209000, 0x048, 0, 1, 4, 5, .rw, 0xc⟩
def R.KL.TX_EQ_SWING : Reg := ⟨0x209000, 0x048, 0, 1, 9, 2, .rw, 0x2⟩
def R.KL.LOS_NOW : Reg := ⟨0x209000, 0x04C, 0, 1, 0, 8, .ro, 0x0⟩
def R.KL.LOL_NOW : Reg := ⟨0x209000, 0x04C, 0, 1, 8, 8, .ro, 0x0⟩
def R.KL.CLK_LOL_NOW : Reg := ⟨0x209000, 0x04C, 0, 1, 16, 1, .ro, 0x0⟩
def R.KL.CRC_ERRORS : Reg := ⟨0x209000, 0x050, 0, 1, 0, 32, .ro, 0x0⟩
def R.KL.DISPARITY_ERRORS : Reg := ⟨0x209000, 0x054, 0, 1, 0, 32, .ro, 0x0⟩
def R.KL.REPLAYS : Reg := ⟨0x209000, 0x058, 0, 1, 0, 32, .ro, 0x0⟩
def R.KL.LINK_DOWNS : Reg := ⟨0x209000, 0x05C, 0, 1, 0, 16, .ro, 0x0⟩
def R.KL.BAD_MESSAGES : Reg := ⟨0x209000, 0x05C, 0, 1, 16, 16, .ro, 0x0⟩
def R.KL.PEER_POSITION : Reg := ⟨0x209000, 0x060, 0, 1, 0, 6, .ro, 0x0⟩
def R.KL.PEER_PORT : Reg := ⟨0x209000, 0x060, 0, 1, 8, 3, .ro, 0x0⟩
def R.KL.PEER_VERSION : Reg := ⟨0x209000, 0x060, 0, 1, 12, 2, .ro, 0x0⟩
def R.KL.PEER_DEVICE_ID : Reg := ⟨0x209000, 0x060, 0, 1, 16, 16, .ro, 0x0⟩
def R.KL.PEER_SERIAL : Reg := ⟨0x209000, 0x064, 0, 1, 0, 64, .ro, 0x0⟩
def R.KL.PEER_PRODUCTION_ID : Reg := ⟨0x209000, 0x06C, 0, 1, 0, 64, .ro, 0x0⟩
def R.KL.LATENCY_NS : Reg := ⟨0x209000, 0x074, 0, 1, 0, 16, .ro, 0x0⟩
def R.KL.REPLAY_TIMEOUT_NS : Reg := ⟨0x209000, 0x078, 0, 1, 0, 16, .rw, 0x7d0⟩

/-! Registers of the PCIE page (spec/12 R343). -/

def R.PCIE.PCIE_STATUS_SPEED : Reg := ⟨0x100000, 0x040, 0, 1, 0, 3, .ro, 0x0⟩
def R.PCIE.PCIE_STATUS_WIDTH : Reg := ⟨0x100000, 0x040, 0, 1, 3, 5, .ro, 0x0⟩
def R.PCIE.PCIE_STATUS_FLIT : Reg := ⟨0x100000, 0x040, 0, 1, 8, 1, .ro, 0x0⟩
def R.PCIE.PCIE_STATUS_TAG14 : Reg := ⟨0x100000, 0x040, 0, 1, 9, 1, .ro, 0x0⟩
def R.PCIE.PCIE_STATUS_BAR0_PARTIAL : Reg := ⟨0x100000, 0x040, 0, 1, 10, 1, .w1c, 0x0⟩
def R.PCIE.PCIE_STATUS_BAR0_ABORT : Reg := ⟨0x100000, 0x040, 0, 1, 11, 1, .w1c, 0x0⟩
def R.PCIE.PCIE_STATUS_APERTURE_REFUSED : Reg := ⟨0x100000, 0x040, 0, 1, 12, 1, .w1c, 0x0⟩
def R.PCIE.PCIE_STATUS_BAR2_RANGE : Reg := ⟨0x100000, 0x040, 0, 1, 13, 1, .w1c, 0x0⟩
def R.PCIE.PCIE_STATUS_INSTR_MERGE_REFUSED : Reg := ⟨0x100000, 0x040, 0, 1, 14, 1, .w1c, 0x0⟩
def R.PCIE.BAR2_OFFSET : Reg := ⟨0x100000, 0x048, 0, 1, 30, 12, .rw, 0x0⟩
def R.PCIE.INFLIGHT : Reg := ⟨0x100000, 0x050, 0, 1, 0, 17, .ro, 0x0⟩
def R.PCIE.INFLIGHT_PEAK : Reg := ⟨0x100000, 0x054, 0, 1, 0, 17, .rc, 0x0⟩

/-! Registers of the DMMU page (spec/12 R343). -/

def R.DMMU.INV_CTRL_CTX : Reg := ⟨0x101000, 0x040, 0, 1, 0, 6, .rw, 0x0⟩
def R.DMMU.INV_CTRL_SCOPE : Reg := ⟨0x101000, 0x040, 0, 1, 6, 2, .rw, 0x0⟩
def R.DMMU.INV_CTRL_GO : Reg := ⟨0x101000, 0x040, 0, 1, 8, 1, .wo, 0x0⟩
def R.DMMU.INV_STATUS_BUSY : Reg := ⟨0x101000, 0x044, 0, 1, 0, 1, .ro, 0x0⟩
def R.DMMU.INV_STATUS_DONE : Reg := ⟨0x101000, 0x044, 0, 1, 1, 1, .w1c, 0x0⟩
def R.DMMU.INV_BASE : Reg := ⟨0x101000, 0x048, 0, 1, 0, 64, .rw, 0x0⟩
def R.DMMU.INV_PAGES : Reg := ⟨0x101000, 0x050, 0, 1, 0, 32, .rw, 0x0⟩
def R.DMMU.DMMU_STATUS_WRITE_REFUSED : Reg := ⟨0x101000, 0x054, 0, 1, 0, 1, .w1c, 0x0⟩
def R.DMMU.CTX_ROOT_VALID : Reg := ⟨0x101000, 0x100, 0x20, 64, 0, 1, .rw, 0x0⟩
def R.DMMU.CTX_ROOT_ROOT_TARGET : Reg := ⟨0x101000, 0x100, 0x20, 64, 1, 1, .rw, 0x0⟩
def R.DMMU.CTX_ROOT_ADDR : Reg := ⟨0x101000, 0x100, 0x20, 64, 12, 52, .rw, 0x0⟩
def R.DMMU.CTX_STATUS_FAULTED : Reg := ⟨0x101000, 0x108, 0x20, 64, 0, 1, .w1c, 0x0⟩
def R.DMMU.CTX_STATUS_REASON : Reg := ⟨0x101000, 0x108, 0x20, 64, 1, 3, .ro, 0x0⟩
def R.DMMU.CTX_STATUS_FAULT_COUNT : Reg := ⟨0x101000, 0x108, 0x20, 64, 16, 16, .ro, 0x0⟩
def R.DMMU.FAULT_DVA : Reg := ⟨0x101000, 0x10C, 0x20, 64, 0, 48, .ro, 0x0⟩

/-! Registers of the FENCE page (spec/12 R343). -/

def R.FENCE.FENCE_CTRL_ENFORCE : Reg := ⟨0x102000, 0x040, 0, 1, 0, 1, .rw, 0x1⟩
def R.FENCE.FENCE_CTRL_LOCK : Reg := ⟨0x102000, 0x040, 0, 1, 1, 1, .w1s, 0x0⟩
def R.FENCE.FENCE_CTRL_COMMIT : Reg := ⟨0x102000, 0x040, 0, 1, 2, 1, .wo, 0x0⟩
def R.FENCE.FENCE_STATUS_COMMITTED : Reg := ⟨0x102000, 0x044, 0, 1, 0, 1, .ro, 0x1⟩
def R.FENCE.FENCE_STATUS_VIOLATION : Reg := ⟨0x102000, 0x044, 0, 1, 1, 1, .w1c, 0x0⟩
def R.FENCE.FENCE_STATUS_WRITE_REFUSED : Reg := ⟨0x102000, 0x044, 0, 1, 2, 1, .w1c, 0x0⟩
def R.FENCE.VIOL_COUNT : Reg := ⟨0x102000, 0x048, 0, 1, 0, 32, .ro, 0x0⟩
def R.FENCE.VIOL_ADDR : Reg := ⟨0x102000, 0x050, 0, 1, 0, 64, .ro, 0x0⟩
def R.FENCE.ENTRY_BASE_VALID : Reg := ⟨0x102000, 0x100, 0x10, 32, 0, 1, .rw, 0x0⟩
def R.FENCE.ENTRY_BASE_BASE : Reg := ⟨0x102000, 0x100, 0x10, 32, 12, 52, .rw, 0x0⟩
def R.FENCE.ENTRY_LIMIT : Reg := ⟨0x102000, 0x108, 0x10, 32, 12, 52, .rw, 0x0⟩

/-! Registers of the DDR page (spec/13 R362). -/

def R.DDR.DDR_CTRL_EXCLUDE : Reg := ⟨0x200000, 0x040, 0, 1, 0, 8, .rw, 0x0⟩
def R.DDR.DDR_CTRL_HASH : Reg := ⟨0x200000, 0x040, 0, 1, 8, 1, .rw, 0x1⟩
def R.DDR.DDR_CTRL_SPEED_MAX : Reg := ⟨0x200000, 0x040, 0, 1, 9, 3, .rw, 0x4⟩
def R.DDR.DDR_CTRL_RETRAIN : Reg := ⟨0x200000, 0x040, 0, 1, 12, 1, .wo, 0x0⟩
def R.DDR.DDR_CTRL_SCRUB_EN : Reg := ⟨0x200000, 0x040, 0, 1, 13, 1, .rw, 0x1⟩
def R.DDR.DDR_STATUS_READY : Reg := ⟨0x200000, 0x044, 0, 1, 0, 1, .ro, 0x0⟩
def R.DDR.DDR_STATUS_INIT_FAILED : Reg := ⟨0x200000, 0x044, 0, 1, 1, 1, .ro, 0x0⟩
def R.DDR.DDR_STATUS_WRITE_REFUSED : Reg := ⟨0x200000, 0x044, 0, 1, 2, 1, .w1c, 0x0⟩
def R.DDR.DDR_STATUS_ACTIVE : Reg := ⟨0x200000, 0x044, 0, 1, 3, 8, .ro, 0x0⟩
def R.DDR.DDR_STATUS_SPEED : Reg := ⟨0x200000, 0x044, 0, 1, 11, 3, .ro, 0x0⟩
def R.DDR.DDR_STATUS_DPC : Reg := ⟨0x200000, 0x044, 0, 1, 14, 2, .ro, 0x0⟩
def R.DDR.DDR_STATUS_INIT_PERCENT : Reg := ⟨0x200000, 0x044, 0, 1, 16, 7, .ro, 0x0⟩
def R.DDR.CAPACITY : Reg := ⟨0x200000, 0x048, 0, 1, 0, 64, .ro, 0x0⟩
def R.DDR.SCRUB_HOURS : Reg := ⟨0x200000, 0x050, 0, 1, 0, 5, .rw, 0x18⟩
def R.DDR.THERM_LIMIT : Reg := ⟨0x200000, 0x054, 0, 1, 0, 8, .rw, 0x5f⟩

/-! Registers of the DDRCH page (spec/13 R362). -/

def R.DDRCH.CH_STATUS_STATE : Reg := ⟨0x201000, 0x040, 0, 1, 0, 4, .ro, 0x0⟩
def R.DDRCH.CH_STATUS_STEP : Reg := ⟨0x201000, 0x040, 0, 1, 4, 4, .ro, 0x0⟩
def R.DDRCH.CH_STATUS_HOT : Reg := ⟨0x201000, 0x040, 0, 1, 8, 1, .ro, 0x0⟩
def R.DDRCH.CH_STATUS_LOG_FULL : Reg := ⟨0x201000, 0x040, 0, 1, 9, 1, .w1c, 0x0⟩
def R.DDRCH.CH_STATUS_TEMP : Reg := ⟨0x201000, 0x040, 0, 1, 16, 8, .ro, 0x0⟩
def R.DDRCH.CE_COUNT : Reg := ⟨0x201000, 0x044, 0, 1, 0, 32, .ro, 0x0⟩
def R.DDRCH.UE_COUNT : Reg := ⟨0x201000, 0x048, 0, 1, 0, 32, .ro, 0x0⟩
def R.DDRCH.SCRUB_PASSES : Reg := ⟨0x201000, 0x04C, 0, 1, 0, 32, .ro, 0x0⟩
def R.DDRCH.GEOMETRY_DIMM_GIB : Reg := ⟨0x201000, 0x050, 0, 1, 0, 9, .ro, 0x0⟩
def R.DDRCH.GEOMETRY_RANKS : Reg := ⟨0x201000, 0x050, 0, 1, 9, 3, .ro, 0x0⟩
def R.DDRCH.GEOMETRY_BG_BITS : Reg := ⟨0x201000, 0x050, 0, 1, 12, 4, .ro, 0x0⟩
def R.DDRCH.GEOMETRY_BANK_BITS : Reg := ⟨0x201000, 0x050, 0, 1, 16, 4, .ro, 0x0⟩
def R.DDRCH.GEOMETRY_COL_BITS : Reg := ⟨0x201000, 0x050, 0, 1, 20, 4, .ro, 0x0⟩
def R.DDRCH.GEOMETRY_ROW_BITS : Reg := ⟨0x201000, 0x050, 0, 1, 24, 5, .ro, 0x0⟩
def R.DDRCH.POISON_PA : Reg := ⟨0x201000, 0x100, 0x8, 64, 0, 42, .ro, 0x0⟩
def R.DDRCH.POISON_VALID : Reg := ⟨0x201000, 0x100, 0x8, 64, 63, 1, .ro, 0x0⟩

/-! Registers of the ENGQ page (spec/14 R384). -/

def R.ENGQ.Q_CTRL_ENABLE : Reg := ⟨0x108000, 0x040, 0, 1, 0, 1, .rw, 0x0⟩
def R.ENGQ.Q_CTRL_LOC : Reg := ⟨0x108000, 0x040, 0, 1, 1, 1, .rw, 0x0⟩
def R.ENGQ.Q_CTRL_SIZE_LOG2 : Reg := ⟨0x108000, 0x040, 0, 1, 2, 5, .rw, 0x4⟩
def R.ENGQ.Q_CTRL_CTX : Reg := ⟨0x108000, 0x040, 0, 1, 7, 6, .rw, 0x0⟩
def R.ENGQ.Q_CTRL_RESET : Reg := ⟨0x108000, 0x040, 0, 1, 13, 1, .wo, 0x0⟩
def R.ENGQ.Q_STATUS_ACTIVE : Reg := ⟨0x108000, 0x044, 0, 1, 0, 1, .ro, 0x0⟩
def R.ENGQ.Q_STATUS_HALTED : Reg := ⟨0x108000, 0x044, 0, 1, 1, 1, .ro, 0x0⟩
def R.ENGQ.Q_STATUS_OVERRUN : Reg := ⟨0x108000, 0x044, 0, 1, 2, 1, .w1c, 0x0⟩
def R.ENGQ.Q_STATUS_HEAD_ERROR : Reg := ⟨0x108000, 0x044, 0, 1, 3, 1, .w1c, 0x0⟩
def R.ENGQ.Q_STATUS_CQ_FULL : Reg := ⟨0x108000, 0x044, 0, 1, 4, 1, .ro, 0x0⟩
def R.ENGQ.Q_STATUS_CFG_ERROR : Reg := ⟨0x108000, 0x044, 0, 1, 5, 1, .ro, 0x0⟩
def R.ENGQ.Q_STATUS_WRITE_REFUSED : Reg := ⟨0x108000, 0x044, 0, 1, 6, 1, .w1c, 0x0⟩
def R.ENGQ.Q_STATUS_IDLE : Reg := ⟨0x108000, 0x044, 0, 1, 7, 1, .ro, 0x1⟩
def R.ENGQ.SQ_BASE : Reg := ⟨0x108000, 0x048, 0, 1, 0, 64, .rw, 0x0⟩
def R.ENGQ.CQ_BASE : Reg := ⟨0x108000, 0x050, 0, 1, 0, 64, .rw, 0x0⟩
def R.ENGQ.SQ_TAIL : Reg := ⟨0x108000, 0x058, 0, 1, 0, 32, .rw, 0x0⟩
def R.ENGQ.SQ_HEAD : Reg := ⟨0x108000, 0x05C, 0, 1, 0, 32, .ro, 0x0⟩
def R.ENGQ.CQ_TAIL : Reg := ⟨0x108000, 0x060, 0, 1, 0, 32, .ro, 0x0⟩
def R.ENGQ.CQ_HEAD : Reg := ⟨0x108000, 0x064, 0, 1, 0, 32, .rw, 0x0⟩
def R.ENGQ.PENDING : Reg := ⟨0x108000, 0x068, 0, 1, 0, 17, .ro, 0x0⟩

/-! Registers of the ENG_SCHED page (spec/14 R384). -/

def R.ENG_SCHED.ENG_BUSY : Reg := ⟨0x104000, 0x040, 0, 1, 0, 32, .ro, 0x0⟩
def R.ENG_SCHED.MATCH_USED : Reg := ⟨0x104000, 0x044, 0, 1, 0, 14, .ro, 0x0⟩
def R.ENG_SCHED.TOKEN_POST_ID : Reg := ⟨0x104000, 0x048, 0, 1, 0, 16, .wo, 0x0⟩
def R.ENG_SCHED.TOKEN_POST_COUNT : Reg := ⟨0x104000, 0x048, 0, 1, 16, 8, .wo, 0x0⟩
def R.ENG_SCHED.SCHED_STATUS_TOKEN_OVF : Reg := ⟨0x104000, 0x04C, 0, 1, 0, 1, .w1c, 0x0⟩
def R.ENG_SCHED.SCHED_STATUS_MATCH_FULL : Reg := ⟨0x104000, 0x04C, 0, 1, 1, 1, .ro, 0x0⟩
def R.ENG_SCHED.SCHED_STATUS_WRITE_REFUSED : Reg := ⟨0x104000, 0x04C, 0, 1, 2, 1, .w1c, 0x0⟩
def R.ENG_SCHED.SCHED_STATUS_LAST_OVF_ID : Reg := ⟨0x104000, 0x04C, 0, 1, 16, 16, .ro, 0x0⟩
def R.ENG_SCHED.BELAY_TOKEN_ID : Reg := ⟨0x104000, 0x080, 0x4, 16, 0, 16, .rw, 0x0⟩
def R.ENG_SCHED.BELAY_TOKEN_ENABLE : Reg := ⟨0x104000, 0x080, 0x4, 16, 16, 1, .rw, 0x0⟩
def R.ENG_SCHED.TICK_TOKEN_ID : Reg := ⟨0x104000, 0x0C0, 0x4, 4, 0, 16, .rw, 0x0⟩
def R.ENG_SCHED.TICK_TOKEN_ENABLE : Reg := ⟨0x104000, 0x0C0, 0x4, 4, 16, 1, .rw, 0x0⟩
def R.ENG_SCHED.DLIST_CFG_KEY : Reg := ⟨0x104000, 0x100, 0x4, 16, 0, 3, .rw, 0x0⟩
def R.ENG_SCHED.DLIST_CFG_USED : Reg := ⟨0x104000, 0x100, 0x4, 16, 16, 13, .ro, 0x0⟩

/-! Registers of the NOC page (spec/15 R408). -/

def R.NOC.NOC_CTRL_CHECK_MODE : Reg := ⟨0x103000, 0x040, 0, 1, 0, 1, .rw, 0x0⟩
def R.NOC.NOC_STATUS_RECONFIG : Reg := ⟨0x103000, 0x044, 0, 1, 0, 1, .ro, 0x0⟩
def R.NOC.NOC_STATUS_WRITE_REFUSED : Reg := ⟨0x103000, 0x044, 0, 1, 1, 1, .w1c, 0x0⟩
def R.NOC.NOC_STATUS_DRAIN_NODE : Reg := ⟨0x103000, 0x044, 0, 1, 8, 8, .ro, 0x0⟩
def R.NOC.CORR_COUNT : Reg := ⟨0x103000, 0x048, 0, 1, 0, 32, .ro, 0x0⟩
def R.NOC.DOMAIN_OFF_COUNT : Reg := ⟨0x103000, 0x04C, 0, 1, 0, 32, .ro, 0x0⟩
def R.NOC.DECODE_COUNT : Reg := ⟨0x103000, 0x050, 0, 1, 0, 32, .ro, 0x0⟩
def R.NOC.RSP_TIMEOUT_US : Reg := ⟨0x103000, 0x054, 0, 1, 0, 16, .rw, 0x32⟩

/-! Registers of the POWER page (spec/15 R408). -/

def R.POWER.PWR_CTRL_TARGET : Reg := ⟨0xC000, 0x040, 0, 1, 0, 2, .rw, 0x0⟩
def R.POWER.PWR_STATUS_STATE : Reg := ⟨0xC000, 0x044, 0, 1, 0, 2, .ro, 0x0⟩
def R.POWER.PWR_STATUS_TRANSITION : Reg := ⟨0xC000, 0x044, 0, 1, 2, 1, .ro, 0x0⟩
def R.POWER.PWR_STATUS_WAIT_PEER : Reg := ⟨0xC000, 0x044, 0, 1, 3, 1, .ro, 0x0⟩
def R.POWER.PWR_STATUS_EMULATED : Reg := ⟨0xC000, 0x044, 0, 1, 4, 1, .ro, 0x0⟩
def R.POWER.PWR_STATUS_HALTED_FOR_POWER : Reg := ⟨0xC000, 0x044, 0, 1, 5, 1, .w1c, 0x0⟩
def R.POWER.PWR_STATUS_THROTTLING : Reg := ⟨0xC000, 0x044, 0, 1, 6, 1, .ro, 0x0⟩
def R.POWER.PWR_STATUS_LIMIT_UNMET : Reg := ⟨0xC000, 0x044, 0, 1, 7, 1, .w1c, 0x0⟩
def R.POWER.PWR_STATUS_WRITE_REFUSED : Reg := ⟨0xC000, 0x044, 0, 1, 8, 1, .w1c, 0x0⟩
def R.POWER.PL_LIMIT_W : Reg := ⟨0xC000, 0x048, 0, 1, 0, 10, .rw, 0x12c⟩
def R.POWER.PL_WINDOW_US : Reg := ⟨0xC000, 0x04C, 0, 1, 0, 16, .rw, 0x3e8⟩
def R.POWER.PL_MAX_HOLD : Reg := ⟨0xC000, 0x050, 0, 1, 0, 16, .rw, 0x1000⟩
def R.POWER.POWER_NOW : Reg := ⟨0xC000, 0x054, 0, 1, 0, 16, .ro, 0x0⟩
def R.POWER.THROTTLE_COUNT : Reg := ⟨0xC000, 0x058, 0, 1, 0, 32, .ro, 0x0⟩
def R.POWER.THROTTLE_CYCLES : Reg := ⟨0xC000, 0x05C, 0, 1, 0, 32, .ro, 0x0⟩
def R.POWER.DOM_CTRL_REQ_G4 : Reg := ⟨0xC000, 0x100, 0x8, 64, 0, 1, .rw, 0x0⟩
def R.POWER.DOM_CTRL_REQ : Reg := ⟨0xC000, 0x300, 0x8, 49, 0, 1, .rw, 0x1⟩
def R.POWER.DOM_CTRL_WAKE_EN : Reg := ⟨0xC000, 0x100, 0x8, 113, 1, 1, .rw, 0x1⟩
def R.POWER.DOM_STATUS_STATE : Reg := ⟨0xC000, 0x104, 0x8, 113, 0, 2, .ro, 0x0⟩
def R.POWER.DOM_STATUS_PENDING : Reg := ⟨0xC000, 0x104, 0x8, 113, 2, 2, .ro, 0x0⟩
def R.POWER.DOM_STATUS_REFUSED : Reg := ⟨0xC000, 0x104, 0x8, 113, 4, 1, .w1c, 0x0⟩
def R.POWER.DOM_STATUS_REFUSE_REASON : Reg := ⟨0xC000, 0x104, 0x8, 113, 5, 3, .ro, 0x0⟩
def R.POWER.DOM_STATUS_DOWN_ABORTED : Reg := ⟨0xC000, 0x104, 0x8, 113, 8, 1, .w1c, 0x0⟩
def R.POWER.DOM_STATUS_WOKEN : Reg := ⟨0xC000, 0x104, 0x8, 113, 9, 1, .w1c, 0x0⟩
def R.POWER.DOM_STATUS_HELD : Reg := ⟨0xC000, 0x104, 0x8, 113, 10, 1, .ro, 0x0⟩

/-! Registers of the RUN page (spec/16 R445). -/

def R.RUN.RUN_CTRL_START : Reg := ⟨0x15000, 0x040, 0, 1, 0, 1, .wo, 0x0⟩
def R.RUN.RUN_CTRL_HALT : Reg := ⟨0x15000, 0x040, 0, 1, 1, 1, .wo, 0x0⟩
def R.RUN.RUN_CTRL_DEBUG_MODE : Reg := ⟨0x15000, 0x040, 0, 1, 2, 1, .rw, 0x0⟩
def R.RUN.RUN_CTRL_STEP_TAKES : Reg := ⟨0x15000, 0x040, 0, 1, 16, 16, .rw, 0x0⟩
def R.RUN.RUN_STATUS_STATE : Reg := ⟨0x15000, 0x044, 0, 1, 0, 3, .ro, 0x0⟩
def R.RUN.RUN_STATUS_REFUSED : Reg := ⟨0x15000, 0x044, 0, 1, 3, 1, .w1c, 0x0⟩
def R.RUN.RUN_STATUS_WRITE_REFUSED : Reg := ⟨0x15000, 0x044, 0, 1, 4, 1, .w1c, 0x0⟩
def R.RUN.RUN_STATUS_REFUSE_REASON : Reg := ⟨0x15000, 0x044, 0, 1, 8, 8, .ro, 0x0⟩
def R.RUN.RUN_STATUS_HALT_CAUSE : Reg := ⟨0x15000, 0x044, 0, 1, 16, 3, .ro, 0x0⟩
def R.RUN.WDOG_PERIOD_US : Reg := ⟨0x15000, 0x048, 0, 1, 0, 32, .rw, 0x0⟩

/-! Registers of the DBG page (spec/16 R445). -/

def R.DBG.DBG_CTRL_ATTACH : Reg := ⟨0x16000, 0x040, 0, 1, 0, 1, .rw, 0x0⟩
def R.DBG.DBG_CTRL_UNLOCK : Reg := ⟨0x16000, 0x040, 0, 1, 1, 1, .wo, 0x0⟩
def R.DBG.DBG_CTRL_NEW_NONCE : Reg := ⟨0x16000, 0x040, 0, 1, 2, 1, .wo, 0x0⟩
def R.DBG.DBG_STATUS_ATTACHED : Reg := ⟨0x16000, 0x044, 0, 1, 0, 1, .ro, 0x0⟩
def R.DBG.DBG_STATUS_JTAG_ATTACHED : Reg := ⟨0x16000, 0x044, 0, 1, 1, 1, .ro, 0x0⟩
def R.DBG.DBG_STATUS_SECURE_STATE : Reg := ⟨0x16000, 0x044, 0, 1, 2, 2, .ro, 0x0⟩
def R.DBG.DBG_STATUS_UNLOCK_FAILS : Reg := ⟨0x16000, 0x044, 0, 1, 4, 2, .ro, 0x0⟩
def R.DBG.DBG_STATUS_UNLOCK_REFUSED : Reg := ⟨0x16000, 0x044, 0, 1, 6, 1, .w1c, 0x0⟩
def R.DBG.DBG_STATUS_UNLOCK_REASON : Reg := ⟨0x16000, 0x044, 0, 1, 7, 3, .ro, 0x0⟩
def R.DBG.DBG_STATUS_BAP_REFUSED : Reg := ⟨0x16000, 0x044, 0, 1, 10, 1, .w1c, 0x0⟩
def R.DBG.DBG_STATUS_LOCKED_ACCESS : Reg := ⟨0x16000, 0x044, 0, 1, 11, 1, .w1c, 0x0⟩
def R.DBG.TOKEN_KEY : Reg := ⟨0x16000, 0x048, 0, 1, 0, 2, .rw, 0x0⟩
def R.DBG.SECURE_CTX_MASK : Reg := ⟨0x16000, 0x050, 0, 1, 0, 64, .ro, 0x0⟩
def R.DBG.NONCE : Reg := ⟨0x16000, 0x060, 0, 1, 0, 256, .ro, 0x0⟩
def R.DBG.TOKEN : Reg := ⟨0x16000, 0x0A0, 0, 1, 0, 768, .wo, 0x0⟩
def R.DBG.BAP_CTRL_GO : Reg := ⟨0x16000, 0x100, 0, 1, 0, 1, .wo, 0x0⟩
def R.DBG.BAP_CTRL_WRITE : Reg := ⟨0x16000, 0x100, 0, 1, 1, 1, .rw, 0x0⟩
def R.DBG.BAP_CTRL_SPACE : Reg := ⟨0x16000, 0x100, 0, 1, 2, 1, .rw, 0x0⟩
def R.DBG.BAP_CTRL_MODE : Reg := ⟨0x16000, 0x100, 0, 1, 3, 1, .rw, 0x0⟩
def R.DBG.BAP_CTRL_RESPECT_LOCK : Reg := ⟨0x16000, 0x100, 0, 1, 4, 1, .rw, 0x0⟩
def R.DBG.BAP_CTRL_BELAY : Reg := ⟨0x16000, 0x100, 0, 1, 5, 5, .rw, 0x1f⟩
def R.DBG.BAP_CTRL_CTX : Reg := ⟨0x16000, 0x100, 0, 1, 10, 6, .rw, 0x0⟩
def R.DBG.BAP_CTRL_LEN : Reg := ⟨0x16000, 0x100, 0, 1, 16, 7, .rw, 0x0⟩
def R.DBG.BAP_STATUS_BUSY : Reg := ⟨0x16000, 0x104, 0, 1, 0, 1, .ro, 0x0⟩
def R.DBG.BAP_STATUS_RESULT : Reg := ⟨0x16000, 0x104, 0, 1, 1, 3, .ro, 0x0⟩
def R.DBG.BAP_ADDR : Reg := ⟨0x16000, 0x108, 0, 1, 0, 64, .rw, 0x0⟩
def R.DBG.BAP_DATA : Reg := ⟨0x16000, 0x140, 0, 1, 0, 512, .rw, 0x0⟩
def R.DBG.LOCK_PROBE_LANE : Reg := ⟨0x16000, 0x200, 0x20, 16, 0, 12, .rw, 0x0⟩
def R.DBG.LOCK_PROBE_ENABLE : Reg := ⟨0x16000, 0x200, 0x20, 16, 12, 1, .rw, 0x0⟩
def R.DBG.LOCK_PROBE_CTX : Reg := ⟨0x16000, 0x200, 0x20, 16, 16, 6, .rw, 0x0⟩
def R.DBG.LOCK_BASE : Reg := ⟨0x16000, 0x208, 0x20, 16, 0, 48, .rw, 0x0⟩
def R.DBG.LOCK_LIMIT : Reg := ⟨0x16000, 0x210, 0x20, 16, 0, 48, .rw, 0x0⟩

/-! Registers of the WATCH page (spec/16 R445). -/

def R.WATCH.WATCH_CTRL_ENABLE : Reg := ⟨0x17000, 0x040, 0, 1, 0, 1, .rw, 0x0⟩
def R.WATCH.WATCH_CTRL_ACTION : Reg := ⟨0x17000, 0x040, 0, 1, 1, 2, .rw, 0x0⟩
def R.WATCH.WATCH_CTRL_REARM : Reg := ⟨0x17000, 0x040, 0, 1, 3, 1, .rw, 0x0⟩
def R.WATCH.WATCH_STATUS_FIRED : Reg := ⟨0x17000, 0x044, 0, 1, 0, 1, .w1c, 0x0⟩
def R.WATCH.WATCH_STATUS_WRITE_REFUSED : Reg := ⟨0x17000, 0x044, 0, 1, 1, 1, .w1c, 0x0⟩
def R.WATCH.WATCH_STATUS_LEVEL : Reg := ⟨0x17000, 0x044, 0, 1, 2, 3, .ro, 0x0⟩
def R.WATCH.WATCH_STATUS_BREAK_COMP : Reg := ⟨0x17000, 0x044, 0, 1, 16, 6, .ro, 0x0⟩
def R.WATCH.BREAK_TAKE : Reg := ⟨0x17000, 0x048, 0, 1, 0, 48, .ro, 0x0⟩
def R.WATCH.BREAK_STEP : Reg := ⟨0x17000, 0x050, 0, 1, 0, 11, .ro, 0x0⟩
def R.WATCH.CTXID_CFG : Reg := ⟨0x17000, 0x054, 0, 1, 0, 32, .rw, 0x0⟩
def R.WATCH.CTXID_VALUE : Reg := ⟨0x17000, 0x058, 0, 1, 0, 64, .rw, 0x0⟩
def R.WATCH.CTXID_MASK : Reg := ⟨0x17000, 0x060, 0, 1, 0, 64, .rw, 0x0⟩
def R.WATCH.CMP_CFG_ENABLE : Reg := ⟨0x17000, 0x100, 0x20, 64, 0, 1, .rw, 0x0⟩
def R.WATCH.CMP_CFG_INVERT : Reg := ⟨0x17000, 0x100, 0x20, 64, 1, 1, .rw, 0x0⟩
def R.WATCH.CMP_CFG_CTX_EN : Reg := ⟨0x17000, 0x100, 0x20, 64, 2, 1, .rw, 0x0⟩
def R.WATCH.CMP_CFG_BASE : Reg := ⟨0x17000, 0x100, 0x20, 64, 4, 12, .rw, 0x0⟩
def R.WATCH.CMP_CFG_WIDTH : Reg := ⟨0x17000, 0x100, 0x20, 64, 16, 7, .rw, 0x1⟩
def R.WATCH.LOW : Reg := ⟨0x17000, 0x108, 0x20, 64, 0, 64, .rw, 0x0⟩
def R.WATCH.HIGH : Reg := ⟨0x17000, 0x110, 0x20, 64, 0, 64, .rw, 0x0⟩
def R.WATCH.MASK : Reg := ⟨0x17000, 0x118, 0x20, 64, 0, 64, .rw, 0xffffffffffffffff⟩
def R.WATCH.SEQ_COND : Reg := ⟨0x17000, 0x900, 0x20, 8, 0, 64, .rw, 0x0⟩
def R.WATCH.SEQ_RESET : Reg := ⟨0x17000, 0x908, 0x20, 8, 0, 64, .rw, 0x0⟩
def R.WATCH.SEQ_CFG_OP : Reg := ⟨0x17000, 0x910, 0x20, 8, 0, 1, .rw, 0x0⟩
def R.WATCH.SEQ_CFG_LAST : Reg := ⟨0x17000, 0x910, 0x20, 8, 1, 1, .rw, 0x0⟩
def R.WATCH.SEQ_CFG_EDGE : Reg := ⟨0x17000, 0x910, 0x20, 8, 2, 1, .rw, 0x0⟩
def R.WATCH.SEQ_CFG_COUNT : Reg := ⟨0x17000, 0x910, 0x20, 8, 16, 16, .rw, 0x1⟩

/-! Registers of the TRACE page (spec/17 R468). -/

def R.TRACE.TRACE_CTRL_ENABLE : Reg := ⟨0x211000, 0x040, 0, 1, 0, 1, .rw, 0x0⟩
def R.TRACE.TRACE_CTRL_CAP_EN : Reg := ⟨0x211000, 0x040, 0, 1, 1, 1, .rw, 0x0⟩
def R.TRACE.TRACE_CTRL_TS_EN : Reg := ⟨0x211000, 0x040, 0, 1, 2, 1, .rw, 0x1⟩
def R.TRACE.TRACE_CTRL_TD_EN : Reg := ⟨0x211000, 0x040, 0, 1, 3, 1, .rw, 0x0⟩
def R.TRACE.TRACE_CTRL_SINK : Reg := ⟨0x211000, 0x040, 0, 1, 4, 2, .rw, 0x0⟩
def R.TRACE.TRACE_CTRL_OVERWRITE : Reg := ⟨0x211000, 0x040, 0, 1, 6, 1, .rw, 0x0⟩
def R.TRACE.TRACE_CTRL_LINK_EN : Reg := ⟨0x211000, 0x040, 0, 1, 7, 1, .rw, 0x0⟩
def R.TRACE.TRACE_CTRL_FILT_EN : Reg := ⟨0x211000, 0x040, 0, 1, 8, 1, .rw, 0x0⟩
def R.TRACE.TRACE_CTRL_FLUSH : Reg := ⟨0x211000, 0x040, 0, 1, 9, 1, .wo, 0x0⟩
def R.TRACE.TRACE_CTRL_SINK_RESTART : Reg := ⟨0x211000, 0x040, 0, 1, 10, 1, .wo, 0x0⟩
def R.TRACE.TRACE_CTRL_PIN_WIDTH : Reg := ⟨0x211000, 0x040, 0, 1, 11, 2, .rw, 0x2⟩
def R.TRACE.TRACE_CTRL_PIN_LVDS : Reg := ⟨0x211000, 0x040, 0, 1, 13, 1, .rw, 0x1⟩
def R.TRACE.TRACE_CTRL_PIN_DIV : Reg := ⟨0x211000, 0x040, 0, 1, 14, 2, .rw, 0x0⟩
def R.TRACE.TRACE_CTRL_CAIRN_KIB : Reg := ⟨0x211000, 0x040, 0, 1, 16, 16, .rw, 0x40⟩
def R.TRACE.TRACE_STATUS_RUNNING : Reg := ⟨0x211000, 0x044, 0, 1, 0, 1, .ro, 0x0⟩
def R.TRACE.TRACE_STATUS_SINK_STOPPED : Reg := ⟨0x211000, 0x044, 0, 1, 1, 1, .ro, 0x0⟩
def R.TRACE.TRACE_STATUS_STOP_REASON : Reg := ⟨0x211000, 0x044, 0, 1, 2, 3, .ro, 0x0⟩
def R.TRACE.TRACE_STATUS_OVERFLOWING : Reg := ⟨0x211000, 0x044, 0, 1, 5, 1, .ro, 0x0⟩
def R.TRACE.TRACE_STATUS_SECURE_BLOCKED : Reg := ⟨0x211000, 0x044, 0, 1, 6, 1, .ro, 0x0⟩
def R.TRACE.TRACE_STATUS_WRITE_REFUSED : Reg := ⟨0x211000, 0x044, 0, 1, 7, 1, .w1c, 0x0⟩
def R.TRACE.TRACE_STATUS_POWER_STOPPED : Reg := ⟨0x211000, 0x044, 0, 1, 8, 1, .ro, 0x0⟩
def R.TRACE.TRACE_STATUS_CFG_SEQ : Reg := ⟨0x211000, 0x044, 0, 1, 16, 8, .ro, 0x0⟩
def R.TRACE.RING_BASE : Reg := ⟨0x211000, 0x048, 0, 1, 0, 64, .rw, 0x0⟩
def R.TRACE.RING_CFG_SIZE_LOG2 : Reg := ⟨0x211000, 0x050, 0, 1, 0, 6, .rw, 0x10⟩
def R.TRACE.RING_CFG_RING_CTX : Reg := ⟨0x211000, 0x050, 0, 1, 6, 6, .rw, 0x0⟩
def R.TRACE.WR : Reg := ⟨0x211000, 0x058, 0, 1, 0, 64, .ro, 0x0⟩
def R.TRACE.RD : Reg := ⟨0x211000, 0x060, 0, 1, 0, 64, .rw, 0x0⟩
def R.TRACE.RD_ADDR : Reg := ⟨0x211000, 0x068, 0, 1, 0, 64, .rw, 0x0⟩
def R.TRACE.WB_ADDR : Reg := ⟨0x211000, 0x070, 0, 1, 0, 64, .rw, 0x0⟩
def R.TRACE.TS_PERIOD_US : Reg := ⟨0x211000, 0x078, 0, 1, 0, 32, .rw, 0x3e8⟩
def R.TRACE.RING_THRESH : Reg := ⟨0x211000, 0x07C, 0, 1, 0, 32, .rw, 0x0⟩
def R.TRACE.FILT_FROM_TAKE : Reg := ⟨0x211000, 0x080, 0, 1, 0, 48, .rw, 0x0⟩
def R.TRACE.FILT_TO_TAKE : Reg := ⟨0x211000, 0x088, 0, 1, 0, 48, .rw, 0x0⟩
def R.TRACE.LOST_TAKES : Reg := ⟨0x211000, 0x090, 0, 1, 0, 48, .ro, 0x0⟩
def R.TRACE.BUFFER_LEVEL : Reg := ⟨0x211000, 0x098, 0, 1, 0, 21, .ro, 0x0⟩
def R.TRACE.CAP_MASK : Reg := ⟨0x211000, 0x100, 0x8, 64, 0, 64, .rw, 0x0⟩
def R.TRACE.FIELD_CFG_ENABLE : Reg := ⟨0x211000, 0x300, 0x4, 16, 0, 1, .rw, 0x0⟩
def R.TRACE.FIELD_CFG_BASE : Reg := ⟨0x211000, 0x300, 0x4, 16, 4, 12, .rw, 0x0⟩
def R.TRACE.FIELD_CFG_WIDTH : Reg := ⟨0x211000, 0x300, 0x4, 16, 16, 7, .rw, 0x1⟩

/-! Registers of the CNT page (spec/17 R468). -/

def R.CNT.LIVE : Reg := ⟨0x220000, 0x080, 0x10, 24, 0, 48, .ro, 0x0⟩
def R.CNT.SNAP : Reg := ⟨0x220000, 0x088, 0x10, 24, 0, 48, .ro, 0x0⟩
def R.CNT.SEL : Reg := ⟨0x220000, 0x200, 0x4, 6, 0, 8, .rw, 0xc0⟩

/-! Registers of the CNTSNAP page (spec/17 R468). -/

def R.CNTSNAP.SNAP_CTRL_SNAP_REQ : Reg := ⟨0x212000, 0x040, 0, 1, 0, 1, .wo, 0x0⟩
def R.CNTSNAP.SNAP_CTRL_SNAP_MODE : Reg := ⟨0x212000, 0x040, 0, 1, 1, 2, .rw, 0x0⟩
def R.CNTSNAP.SNAP_STATUS_PENDING : Reg := ⟨0x212000, 0x044, 0, 1, 0, 1, .ro, 0x0⟩
def R.CNTSNAP.SNAP_STATUS_MID_TAKE : Reg := ⟨0x212000, 0x044, 0, 1, 1, 1, .ro, 0x0⟩
def R.CNTSNAP.SNAP_STATUS_MERGED : Reg := ⟨0x212000, 0x044, 0, 1, 2, 1, .w1c, 0x0⟩
def R.CNTSNAP.SNAP_STATUS_LATE : Reg := ⟨0x212000, 0x044, 0, 1, 3, 1, .w1c, 0x0⟩
def R.CNTSNAP.SNAP_SEQ : Reg := ⟨0x212000, 0x048, 0, 1, 0, 32, .ro, 0x0⟩
def R.CNTSNAP.SNAP_TAKE : Reg := ⟨0x212000, 0x050, 0, 1, 0, 48, .ro, 0x0⟩
def R.CNTSNAP.SNAP_TIME : Reg := ⟨0x212000, 0x058, 0, 1, 0, 64, .ro, 0x0⟩
def R.CNTSNAP.SNAP_AT_TAKE : Reg := ⟨0x212000, 0x060, 0, 1, 0, 48, .rw, 0x0⟩
def R.CNTSNAP.SNAP_AT_TIME : Reg := ⟨0x212000, 0x068, 0, 1, 0, 64, .rw, 0x0⟩

/-! Registers of the SAFETY page (spec/18 R494). -/

def R.SAFETY.SAFE_CTRL_CLEAR : Reg := ⟨0xA000, 0x040, 0, 1, 0, 1, .wo, 0x0⟩
def R.SAFETY.SAFE_CTRL_TEST : Reg := ⟨0xA000, 0x040, 0, 1, 1, 1, .wo, 0x0⟩
def R.SAFETY.SAFE_STATUS_IN_SAFE : Reg := ⟨0xA000, 0x044, 0, 1, 0, 1, .ro, 0x0⟩
def R.SAFETY.SAFE_STATUS_ESTOP_NOW : Reg := ⟨0xA000, 0x044, 0, 1, 1, 1, .ro, 0x0⟩
def R.SAFETY.SAFE_STATUS_CLEAR_REFUSED : Reg := ⟨0xA000, 0x044, 0, 1, 2, 1, .w1c, 0x0⟩
def R.SAFETY.SAFE_STATUS_CLEAR_REASON : Reg := ⟨0xA000, 0x044, 0, 1, 3, 3, .ro, 0x0⟩
def R.SAFETY.SAFE_STATUS_MGMT_RUNNING : Reg := ⟨0xA000, 0x044, 0, 1, 6, 1, .ro, 0x0⟩
def R.SAFETY.SAFE_STATUS_MGMT_HELD : Reg := ⟨0xA000, 0x044, 0, 1, 7, 1, .ro, 0x0⟩
def R.SAFETY.SAFE_STATUS_CAUSE : Reg := ⟨0xA000, 0x044, 0, 1, 8, 8, .ro, 0x0⟩
def R.SAFETY.SAFE_STAMP : Reg := ⟨0xA000, 0x048, 0, 1, 0, 64, .ro, 0x0⟩
def R.SAFETY.SAFE_ENTRIES : Reg := ⟨0xA000, 0x050, 0, 1, 0, 32, .ro, 0x0⟩
def R.SAFETY.RING_WR : Reg := ⟨0xA000, 0x054, 0, 1, 0, 32, .ro, 0x0⟩
def R.SAFETY.LOG_SEQ : Reg := ⟨0xA000, 0x058, 0, 1, 0, 32, .ro, 0x0⟩
def R.SAFETY.LOG_SUPPRESSED : Reg := ⟨0xA000, 0x05C, 0, 1, 0, 32, .ro, 0x0⟩
def R.SAFETY.TJ_LIMIT : Reg := ⟨0xA000, 0x060, 0, 1, 0, 8, .ro, 0x7d⟩
def R.SAFETY.TJ_WARN : Reg := ⟨0xA000, 0x060, 0, 1, 8, 8, .rw, 0x73⟩
def R.SAFETY.TJ_NOW_TEMP : Reg := ⟨0xA000, 0x064, 0, 1, 0, 8, .ro, 0x0⟩
def R.SAFETY.TJ_NOW_SENSOR : Reg := ⟨0xA000, 0x064, 0, 1, 8, 6, .ro, 0x0⟩
def R.SAFETY.SCRUB_PASSES_IS : Reg := ⟨0xA000, 0x068, 0, 1, 0, 32, .ro, 0x0⟩
def R.SAFETY.SCRUB_PASSES_EDGE : Reg := ⟨0xA000, 0x06C, 0, 1, 0, 32, .ro, 0x0⟩
def R.SAFETY.SCRUB_CORRECTED : Reg := ⟨0xA000, 0x070, 0, 1, 0, 32, .ro, 0x0⟩
def R.SAFETY.RAIL_MV : Reg := ⟨0xA000, 0x100, 0x4, 7, 0, 16, .ro, 0x0⟩
def R.SAFETY.VCCIO_MV : Reg := ⟨0xA000, 0x140, 0x4, 10, 0, 16, .ro, 0x0⟩

/-! Registers of the CLK page (spec/18 R494). -/

def R.CLK.STEP_MHZ : Reg := ⟨0x9000, 0x040, 0, 1, 0, 12, .rw, 0x3e8⟩
def R.CLK.CLK_STATUS_STEP_LOCKED : Reg := ⟨0x9000, 0x044, 0, 1, 0, 1, .ro, 0x0⟩
def R.CLK.CLK_STATUS_HOLDOVER : Reg := ⟨0x9000, 0x044, 0, 1, 1, 1, .ro, 0x0⟩
def R.CLK.CLK_STATUS_WRITE_REFUSED : Reg := ⟨0x9000, 0x044, 0, 1, 2, 1, .w1c, 0x0⟩

/-! Registers of the RESET page (spec/18 R494). -/

def R.RESET.RESET_CTRL_ARRAY : Reg := ⟨0x8000, 0x040, 0, 1, 0, 1, .wo, 0x0⟩
def R.RESET.RESET_CTRL_EDGE : Reg := ⟨0x8000, 0x040, 0, 1, 1, 1, .wo, 0x0⟩
def R.RESET.RESET_CTRL_DEVICE : Reg := ⟨0x8000, 0x040, 0, 1, 2, 1, .wo, 0x0⟩
def R.RESET.RESET_CTRL_KEY : Reg := ⟨0x8000, 0x040, 0, 1, 16, 16, .wo, 0x0⟩
def R.RESET.RESET_STATUS_LAST_CAUSE : Reg := ⟨0x8000, 0x044, 0, 1, 0, 3, .ro, 0x0⟩
def R.RESET.RESET_STATUS_REFUSED : Reg := ⟨0x8000, 0x044, 0, 1, 3, 1, .w1c, 0x0⟩

/-! Registers of the MBOX page (spec/18 R494). -/

def R.MBOX.MBOX_CTRL_DOORBELL : Reg := ⟨0x100000000, 0x040, 0, 1, 0, 1, .wo, 0x0⟩
def R.MBOX.MBOX_STATUS_BUSY : Reg := ⟨0x100000000, 0x044, 0, 1, 0, 1, .ro, 0x0⟩
def R.MBOX.MBOX_STATUS_REPLY_READY : Reg := ⟨0x100000000, 0x044, 0, 1, 1, 1, .w1c, 0x0⟩
def R.MBOX.MBOX_STATUS_FW_RUNNING : Reg := ⟨0x100000000, 0x044, 0, 1, 2, 1, .ro, 0x0⟩
def R.MBOX.MBOX_STATUS_RECOVERY : Reg := ⟨0x100000000, 0x044, 0, 1, 3, 1, .ro, 0x0⟩
def R.MBOX.MBOX_STATUS_BRIDGE_REFUSED : Reg := ⟨0x100000000, 0x044, 0, 1, 4, 1, .w1c, 0x0⟩
def R.MBOX.MBOX_STATUS_CH1_LEVEL : Reg := ⟨0x100000000, 0x044, 0, 1, 8, 4, .ro, 0x0⟩
def R.MBOX.REQ : Reg := ⟨0x100000000, 0x100, 0, 1, 0, 2048, .rw, 0x0⟩
def R.MBOX.REPLY : Reg := ⟨0x100000000, 0x200, 0, 1, 0, 4096, .ro, 0x0⟩

/-! Registers of the ID page (spec/19 R511, R514). -/

def R.ID.ID_DEVICE_DEVICE_ID : Reg := ⟨0x0, 0x040, 0, 1, 0, 16, .ro, 0x7080⟩
def R.ID.ID_DEVICE_REVISION : Reg := ⟨0x0, 0x040, 0, 1, 16, 8, .ro, 0xa1⟩
def R.ID.ID_PART_DIES : Reg := ⟨0x0, 0x044, 0, 1, 0, 8, .ro, 0x8⟩
def R.ID.ID_PART_STEP_LIMIT : Reg := ⟨0x0, 0x044, 0, 1, 8, 12, .ro, 0x3e8⟩
def R.ID.ID_PART_RANGE : Reg := ⟨0x0, 0x044, 0, 1, 20, 1, .ro, 0x0⟩
def R.ID.ID_PART_SECURE : Reg := ⟨0x0, 0x044, 0, 1, 21, 1, .ro, 0x0⟩
def R.ID.SERIAL : Reg := ⟨0x0, 0x048, 0, 1, 0, 64, .ro, 0x0⟩
def R.ID.FW_VERSION : Reg := ⟨0x0, 0x050, 0, 1, 0, 32, .ro, 0x0⟩
def R.ID.EV_SUMMARY : Reg := ⟨0x0, 0x054, 0, 1, 0, 10, .ro, 0x0⟩

/-! Registers of the GROUP page (spec/19 R511, R514). -/

def R.GROUP.GRP_STATUS_POPULATED : Reg := ⟨0x440000, 0x040, 0, 1, 0, 1, .ro, 0x1⟩
def R.GROUP.GRP_STATUS_FENCED : Reg := ⟨0x440000, 0x040, 0, 1, 1, 1, .ro, 0x0⟩
def R.GROUP.GRP_STATUS_FENCED_G3 : Reg := ⟨0x440000, 0x040, 0, 1, 2, 8, .ro, 0x0⟩
def R.GROUP.GRP_STATUS_DOMAIN : Reg := ⟨0x440000, 0x040, 0, 1, 10, 2, .ro, 0x0⟩

/-! The fields of each page, in the order of its table. -/

/-- The fields of a page of type TAKE. -/
def rowsTake : List Reg :=
  [R.TAKE.TAKE_CTRL_MODE, R.TAKE.TAKE_CTRL_TB_SEL, R.TAKE.TAKE_CTRL_DEADLINE_RESP, R.TAKE.TAKE_CTRL_LOST_RESP,
   R.TAKE.TAKE_CTRL_STEAL_LIMIT, R.TAKE.TAKE_STATUS_RUNNING, R.TAKE.TAKE_STATUS_PITCH, R.TAKE.TAKE_STATUS_AT_BELAY,
   R.TAKE.TAKE_STATUS_BELAY, R.TAKE.TAKE_STATUS_WAITING_TICK, R.TAKE.TAKE_STATUS_WAITING_FAR,
   R.TAKE.TAKE_STATUS_WAITING_LINK, R.TAKE.TAKE_STATUS_WAITING_INJECT, R.TAKE.TAKE_STATUS_THROTTLED,
   R.TAKE.TAKE_STATUS_STEALING, R.TAKE.TAKE_STATUS_TICK_PENDING, R.TAKE.TAKE_STATUS_WRITE_REFUSED,
   R.TAKE.TAKE_NUMBER, R.TAKE.INJECT_THROUGH, R.TAKE.DEADLINE_COUNT, R.TAKE.SKIP_COUNT, R.TAKE.PITCH_MAP,
   R.TAKE.TICK_STAMP, R.TAKE.GLOBAL_LEAD_NS]
/-- The fields of a page of type BANK. -/
def rowsBank : List Reg :=
  [R.BANK.BANK_CTRL_ASPECT, R.BANK.BANK_CTRL_JOIN, R.BANK.BANK_CTRL_OWNER, R.BANK.BANK_STATUS_OWNER_NOW,
   R.BANK.BANK_STATUS_HANDOVER_PENDING, R.BANK.BANK_STATUS_CLEARED, R.BANK.BANK_STATUS_WRITE_REFUSED,
   R.BANK.BANK_STATUS_REFUSED_ACCESS, R.BANK.BANK_STATUS_JOINED, R.BANK.DROP_COUNT, R.BANK.PORTA_ADDR,
   R.BANK.PORTB_ADDR]
/-- The fields of a page of type FAR. -/
def rowsFar : List Reg :=
  [R.FAR.FAR_CTRL_ENABLE, R.FAR.FAR_CTRL_CTX, R.FAR.FAR_STATUS_ISSUED, R.FAR.FAR_STATUS_OUTSTANDING,
   R.FAR.FAR_STATUS_XLATE_FAULT, R.FAR.FAR_STATUS_WRITE_REFUSED, R.FAR.FAR_STATUS_CFG_ERROR, R.FAR.FAULT_DVA,
   R.FAR.WIN_BASE, R.FAR.WIN_CFG_VALID, R.FAR.WIN_CFG_WRITABLE, R.FAR.WIN_CFG_SIZE_LOG2]
/-- The fields of a page of type CHECK. -/
def rowsCheck : List Reg :=
  [R.CHECK.CHECK_CTRL_ENABLE, R.CHECK.CHECK_STATUS_ACTIVE, R.CHECK.CHECK_STATUS_CLOCK_REFUSED,
   R.CHECK.CHECK_STATUS_WRITE_REFUSED, R.CHECK.CHECK_STATUS_COST_LOADED, R.CHECK.COST_FLOOR, R.CHECK.COST_TABLE,
   R.CHECK.TOKEN_CEIL_1G, R.CHECK.TOKEN_CEIL, R.CHECK.BUDGET, R.CHECK.PEAK]
/-- The fields of a page of type LOAD. -/
def rowsLoad : List Reg :=
  [R.LOAD.LOAD_CTRL_END, R.LOAD.LOAD_CTRL_REGION_RELEASE, R.LOAD.LOAD_CTRL_STATE_ACK, R.LOAD.LOAD_STATUS_STATE,
   R.LOAD.LOAD_STATUS_PARTIAL, R.LOAD.LOAD_STATUS_FENCED, R.LOAD.LOAD_STATUS_SECURE, R.LOAD.LOAD_STATUS_RUN_REFUSED,
   R.LOAD.LOAD_STATUS_FENCE_PASSED, R.LOAD.LOAD_STATUS_PIN_LOCKED_SKIPPED, R.LOAD.LOAD_STATUS_CRC_RETRY,
   R.LOAD.LOAD_STATUS_LAST_CODE, R.LOAD.LOAD_STATUS_STATE_CLEARED, R.LOAD.LOAD_STATUS_UNIT_SPLIT,
   R.LOAD.FRAMES_WRITTEN, R.LOAD.FRAME_COUNT, R.LOAD.PRODUCTION_ID, R.LOAD.POSITION, R.LOAD.FENCE_TAKE,
   R.LOAD.REJOIN_TAKE, R.LOAD.BOOT_STATUS_SOURCE, R.LOAD.BOOT_STATUS_REASON, R.LOAD.BOOT_STATUS_SETTINGS_COPY,
   R.LOAD.BOOT_STATUS_READY_MS]
/-- The fields of a page of type EDGE. -/
def rowsEdge : List Reg :=
  [R.EDGE.EDGE_CTRL_RELEASE, R.EDGE.EDGE_CTRL_HALT_GATE, R.EDGE.EDGE_STATUS_RELEASE_STAGE,
   R.EDGE.EDGE_STATUS_RELEASE_REFUSED, R.EDGE.EDGE_STATUS_PLL0_LOCK, R.EDGE.EDGE_STATUS_PLL1_LOCK,
   R.EDGE.EDGE_STATUS_LL_CONFLICT, R.EDGE.EDGE_STATUS_BMEM_COLLISION, R.EDGE.EDGE_STATUS_FIFO_OVERFLOW,
   R.EDGE.EDGE_STATUS_FIFO_UNDERFLOW, R.EDGE.EDGE_STATUS_WRITE_REFUSED, R.EDGE.EDGE_STATUS_PRESENT_FULL,
   R.EDGE.PRESENT_CFG_P, R.EDGE.PRESENT_CFG_OFF, R.EDGE.PRESENT_COUNT, R.EDGE.HELD_COUNT, R.EDGE.LL_CONFLICT_COUNT,
   R.EDGE.LL_CONFLICT_MASK, R.EDGE.BMEM_COLL, R.EDGE.FIFO_OVF, R.EDGE.FIFO_UNF, R.EDGE.FIFO_LEVEL,
   R.EDGE.PROBE_SEL_INDEX, R.EDGE.PROBE_SEL_KIND] ++
  [R.EDGE.PROBE_SEL_ENABLE]
/-- The fields of a page of type PINBANK. -/
def rowsPinbank : List Reg :=
  [R.PINBANK.BANK_STATUS_VCCIO_CODE, R.PINBANK.BANK_STATUS_WRITE_REFUSED, R.PINBANK.BANK_STATUS_LOCK_ARMED,
   R.PINBANK.BANK_STATUS_LOCK_SEQ_FAILED, R.PINBANK.LOCKKEY, R.PINBANK.LOCK, R.PINBANK.GPIO_OUT, R.PINBANK.GPIO_OE,
   R.PINBANK.PIN_IN, R.PINBANK.PIN_CFG]
/-- The fields of a page of type MATCH. -/
def rowsMatch : List Reg :=
  [R.MATCH.MATCH_CTRL_ENABLE, R.MATCH.MATCH_CTRL_MODE, R.MATCH.MATCH_CTRL_DEBOUNCE, R.MATCH.MATCH_STATUS_RAW,
   R.MATCH.MATCH_STATUS_FILTERED, R.MATCH.MATCH_STATUS_WRITE_REFUSED, R.MATCH.VALUE, R.MATCH.MASK, R.MATCH.STAMP,
   R.MATCH.SEL_PIN, R.MATCH.SEL_ENABLE]
/-- The fields of a page of type ENV. -/
def rowsEnv : List Reg :=
  [R.ENV.ENV_STATUS_LOCKED, R.ENV.ENV_STATUS_ENABLED, R.ENV.ENV_STATUS_SAFE_DRIVEN, R.ENV.ENV_STATUS_PAIR_COUNT,
   R.ENV.CLAMP_COUNT, R.ENV.CLAMPED]
/-- The fields of a page of type TIME. -/
def rowsTime : List Reg :=
  [R.TIME.TIME_CTRL_SOURCE, R.TIME.TIME_CTRL_ELIGIBLE, R.TIME.TIME_CTRL_PRIORITY, R.TIME.TIME_CTRL_SYNC_LOG2,
   R.TIME.TIME_CTRL_JUMP_ACCEPT, R.TIME.TIME_CTRL_JUMP_REJECT, R.TIME.TIME_CTRL_RESUME, R.TIME.TIME_STATUS_LOCKED,
   R.TIME.TIME_STATUS_MASTER, R.TIME.TIME_STATUS_FROZEN, R.TIME.TIME_STATUS_HOLDOVER, R.TIME.TIME_STATUS_SLEWING,
   R.TIME.TIME_STATUS_WRITE_REFUSED, R.TIME.TIME_STATUS_UPSTREAM_PORT, R.TIME.TIME_STATUS_MASTER_POS, R.TIME.WRAPS,
   R.TIME.ADDEND, R.TIME.JUMP_LIMIT, R.TIME.PENDING, R.TIME.OFFSET, R.TIME.PTM_OFFSET, R.TIME.PTM_INTERVAL,
   R.TIME.PTM_LAST, R.TIME.PULSE_CTRL_MODE] ++
  [R.TIME.PULSE_CTRL_IDLE, R.TIME.PULSE_CTRL_ARMED, R.TIME.PULSE_CTRL_LATE, R.TIME.START, R.TIME.PERIOD,
   R.TIME.WIDTH, R.TIME.CAP_CTRL_ENABLE, R.TIME.CAP_CTRL_EDGE, R.TIME.CAP_CTRL_GATE_EN, R.TIME.CAP_CTRL_FILTER,
   R.TIME.CAP_STATUS_LEVEL, R.TIME.CAP_STATUS_OVERFLOW, R.TIME.CAP_STATUS_LATE, R.TIME.STAMP, R.TIME.GATE_START,
   R.TIME.GATE_END, R.TIME.TRIG_CFG_OUT, R.TIME.TRIG_CFG_SRC, R.TIME.TRIG_CFG_ARG, R.TIME.TRIG_CFG_WIDTH]
/-- The fields of a page of type TBASE. -/
def rowsTbase : List Reg :=
  [R.TBASE.TB_CFG_SOURCE, R.TBASE.TB_CFG_EDGE, R.TBASE.TB_CFG_TICK_SEL, R.TBASE.TB_CFG_DIR_INV,
   R.TBASE.TB_CFG_TRIG_LINE, R.TBASE.TB_CFG_FILTER, R.TBASE.TB_CFG_INDEX_MODE, R.TBASE.DIV, R.TBASE.CPR,
   R.TBASE.INDEX_POS, R.TBASE.PERIOD, R.TBASE.START, R.TBASE.LOST_TIMEOUT, R.TBASE.TB_STATUS_VALID,
   R.TBASE.TB_STATUS_SUBSTITUTING, R.TBASE.TB_STATUS_LOST, R.TBASE.TB_STATUS_LOST_CAUSE,
   R.TBASE.TB_STATUS_INDEX_SEEN, R.TBASE.TB_STATUS_WRITE_REFUSED, R.TBASE.TB_STATUS_CMP_ARG, R.TBASE.POSITION,
   R.TBASE.POS_STAMP, R.TBASE.REVOLUTIONS, R.TBASE.TICK_COUNT] ++
  [R.TBASE.LAST_TICK, R.TBASE.MEAN_PERIOD, R.TBASE.ENC_ERRORS, R.TBASE.INDEX_ERRORS, R.TBASE.TICK_MERGED]
/-- The fields of a page of type KL. -/
def rowsKl : List Reg :=
  [R.KL.KL_CTRL_ENABLE, R.KL.KL_CTRL_V2_ALLOW, R.KL.KL_CTRL_RETRAIN, R.KL.KL_CTRL_MIN_LANES,
   R.KL.KL_CTRL_TRAIN_RETRIES, R.KL.KL_STATUS_STATE, R.KL.KL_STATUS_VERSION, R.KL.KL_STATUS_USABLE,
   R.KL.KL_STATUS_TRAINED, R.KL.KL_STATUS_V2_FAILED, R.KL.KL_STATUS_LANES_SHORT, R.KL.KL_STATUS_DOWN_REASON,
   R.KL.KL_STATUS_WRITE_REFUSED, R.KL.TX_EQ_PRE, R.KL.TX_EQ_POST, R.KL.TX_EQ_SWING, R.KL.LOS_NOW, R.KL.LOL_NOW,
   R.KL.CLK_LOL_NOW, R.KL.CRC_ERRORS, R.KL.DISPARITY_ERRORS, R.KL.REPLAYS, R.KL.LINK_DOWNS, R.KL.BAD_MESSAGES] ++
  [R.KL.PEER_POSITION, R.KL.PEER_PORT, R.KL.PEER_VERSION, R.KL.PEER_DEVICE_ID, R.KL.PEER_SERIAL,
   R.KL.PEER_PRODUCTION_ID, R.KL.LATENCY_NS, R.KL.REPLAY_TIMEOUT_NS]
/-- The fields of a page of type PCIE. -/
def rowsPcie : List Reg :=
  [R.PCIE.PCIE_STATUS_SPEED, R.PCIE.PCIE_STATUS_WIDTH, R.PCIE.PCIE_STATUS_FLIT, R.PCIE.PCIE_STATUS_TAG14,
   R.PCIE.PCIE_STATUS_BAR0_PARTIAL, R.PCIE.PCIE_STATUS_BAR0_ABORT, R.PCIE.PCIE_STATUS_APERTURE_REFUSED,
   R.PCIE.PCIE_STATUS_BAR2_RANGE, R.PCIE.PCIE_STATUS_INSTR_MERGE_REFUSED, R.PCIE.BAR2_OFFSET, R.PCIE.INFLIGHT,
   R.PCIE.INFLIGHT_PEAK]
/-- The fields of a page of type DMMU. -/
def rowsDmmu : List Reg :=
  [R.DMMU.INV_CTRL_CTX, R.DMMU.INV_CTRL_SCOPE, R.DMMU.INV_CTRL_GO, R.DMMU.INV_STATUS_BUSY, R.DMMU.INV_STATUS_DONE,
   R.DMMU.INV_BASE, R.DMMU.INV_PAGES, R.DMMU.DMMU_STATUS_WRITE_REFUSED, R.DMMU.CTX_ROOT_VALID,
   R.DMMU.CTX_ROOT_ROOT_TARGET, R.DMMU.CTX_ROOT_ADDR, R.DMMU.CTX_STATUS_FAULTED, R.DMMU.CTX_STATUS_REASON,
   R.DMMU.CTX_STATUS_FAULT_COUNT, R.DMMU.FAULT_DVA]
/-- The fields of a page of type FENCE. -/
def rowsFence : List Reg :=
  [R.FENCE.FENCE_CTRL_ENFORCE, R.FENCE.FENCE_CTRL_LOCK, R.FENCE.FENCE_CTRL_COMMIT, R.FENCE.FENCE_STATUS_COMMITTED,
   R.FENCE.FENCE_STATUS_VIOLATION, R.FENCE.FENCE_STATUS_WRITE_REFUSED, R.FENCE.VIOL_COUNT, R.FENCE.VIOL_ADDR,
   R.FENCE.ENTRY_BASE_VALID, R.FENCE.ENTRY_BASE_BASE, R.FENCE.ENTRY_LIMIT]
/-- The fields of a page of type DDR. -/
def rowsDdr : List Reg :=
  [R.DDR.DDR_CTRL_EXCLUDE, R.DDR.DDR_CTRL_HASH, R.DDR.DDR_CTRL_SPEED_MAX, R.DDR.DDR_CTRL_RETRAIN,
   R.DDR.DDR_CTRL_SCRUB_EN, R.DDR.DDR_STATUS_READY, R.DDR.DDR_STATUS_INIT_FAILED, R.DDR.DDR_STATUS_WRITE_REFUSED,
   R.DDR.DDR_STATUS_ACTIVE, R.DDR.DDR_STATUS_SPEED, R.DDR.DDR_STATUS_DPC, R.DDR.DDR_STATUS_INIT_PERCENT,
   R.DDR.CAPACITY, R.DDR.SCRUB_HOURS, R.DDR.THERM_LIMIT]
/-- The fields of a page of type DDRCH. -/
def rowsDdrch : List Reg :=
  [R.DDRCH.CH_STATUS_STATE, R.DDRCH.CH_STATUS_STEP, R.DDRCH.CH_STATUS_HOT, R.DDRCH.CH_STATUS_LOG_FULL,
   R.DDRCH.CH_STATUS_TEMP, R.DDRCH.CE_COUNT, R.DDRCH.UE_COUNT, R.DDRCH.SCRUB_PASSES, R.DDRCH.GEOMETRY_DIMM_GIB,
   R.DDRCH.GEOMETRY_RANKS, R.DDRCH.GEOMETRY_BG_BITS, R.DDRCH.GEOMETRY_BANK_BITS, R.DDRCH.GEOMETRY_COL_BITS,
   R.DDRCH.GEOMETRY_ROW_BITS, R.DDRCH.POISON_PA, R.DDRCH.POISON_VALID]
/-- The fields of a page of type ENGQ. -/
def rowsEngq : List Reg :=
  [R.ENGQ.Q_CTRL_ENABLE, R.ENGQ.Q_CTRL_LOC, R.ENGQ.Q_CTRL_SIZE_LOG2, R.ENGQ.Q_CTRL_CTX, R.ENGQ.Q_CTRL_RESET,
   R.ENGQ.Q_STATUS_ACTIVE, R.ENGQ.Q_STATUS_HALTED, R.ENGQ.Q_STATUS_OVERRUN, R.ENGQ.Q_STATUS_HEAD_ERROR,
   R.ENGQ.Q_STATUS_CQ_FULL, R.ENGQ.Q_STATUS_CFG_ERROR, R.ENGQ.Q_STATUS_WRITE_REFUSED, R.ENGQ.Q_STATUS_IDLE,
   R.ENGQ.SQ_BASE, R.ENGQ.CQ_BASE, R.ENGQ.SQ_TAIL, R.ENGQ.SQ_HEAD, R.ENGQ.CQ_TAIL, R.ENGQ.CQ_HEAD, R.ENGQ.PENDING]
/-- The fields of a page of type ENG_SCHED. -/
def rowsEngSched : List Reg :=
  [R.ENG_SCHED.ENG_BUSY, R.ENG_SCHED.MATCH_USED, R.ENG_SCHED.TOKEN_POST_ID, R.ENG_SCHED.TOKEN_POST_COUNT,
   R.ENG_SCHED.SCHED_STATUS_TOKEN_OVF, R.ENG_SCHED.SCHED_STATUS_MATCH_FULL, R.ENG_SCHED.SCHED_STATUS_WRITE_REFUSED,
   R.ENG_SCHED.SCHED_STATUS_LAST_OVF_ID, R.ENG_SCHED.BELAY_TOKEN_ID, R.ENG_SCHED.BELAY_TOKEN_ENABLE,
   R.ENG_SCHED.TICK_TOKEN_ID, R.ENG_SCHED.TICK_TOKEN_ENABLE, R.ENG_SCHED.DLIST_CFG_KEY, R.ENG_SCHED.DLIST_CFG_USED]
/-- The fields of a page of type NOC. -/
def rowsNoc : List Reg :=
  [R.NOC.NOC_CTRL_CHECK_MODE, R.NOC.NOC_STATUS_RECONFIG, R.NOC.NOC_STATUS_WRITE_REFUSED, R.NOC.NOC_STATUS_DRAIN_NODE,
   R.NOC.CORR_COUNT, R.NOC.DOMAIN_OFF_COUNT, R.NOC.DECODE_COUNT, R.NOC.RSP_TIMEOUT_US]
/-- The fields of a page of type POWER. -/
def rowsPower : List Reg :=
  [R.POWER.PWR_CTRL_TARGET, R.POWER.PWR_STATUS_STATE, R.POWER.PWR_STATUS_TRANSITION, R.POWER.PWR_STATUS_WAIT_PEER,
   R.POWER.PWR_STATUS_EMULATED, R.POWER.PWR_STATUS_HALTED_FOR_POWER, R.POWER.PWR_STATUS_THROTTLING,
   R.POWER.PWR_STATUS_LIMIT_UNMET, R.POWER.PWR_STATUS_WRITE_REFUSED, R.POWER.PL_LIMIT_W, R.POWER.PL_WINDOW_US,
   R.POWER.PL_MAX_HOLD, R.POWER.POWER_NOW, R.POWER.THROTTLE_COUNT, R.POWER.THROTTLE_CYCLES, R.POWER.DOM_CTRL_REQ_G4,
   R.POWER.DOM_CTRL_REQ, R.POWER.DOM_CTRL_WAKE_EN, R.POWER.DOM_STATUS_STATE, R.POWER.DOM_STATUS_PENDING,
   R.POWER.DOM_STATUS_REFUSED, R.POWER.DOM_STATUS_REFUSE_REASON, R.POWER.DOM_STATUS_DOWN_ABORTED,
   R.POWER.DOM_STATUS_WOKEN] ++
  [R.POWER.DOM_STATUS_HELD]
/-- The fields of a page of type RUN. -/
def rowsRun : List Reg :=
  [R.RUN.RUN_CTRL_START, R.RUN.RUN_CTRL_HALT, R.RUN.RUN_CTRL_DEBUG_MODE, R.RUN.RUN_CTRL_STEP_TAKES,
   R.RUN.RUN_STATUS_STATE, R.RUN.RUN_STATUS_REFUSED, R.RUN.RUN_STATUS_WRITE_REFUSED, R.RUN.RUN_STATUS_REFUSE_REASON,
   R.RUN.RUN_STATUS_HALT_CAUSE, R.RUN.WDOG_PERIOD_US]
/-- The fields of a page of type DBG. -/
def rowsDbg : List Reg :=
  [R.DBG.DBG_CTRL_ATTACH, R.DBG.DBG_CTRL_UNLOCK, R.DBG.DBG_CTRL_NEW_NONCE, R.DBG.DBG_STATUS_ATTACHED,
   R.DBG.DBG_STATUS_JTAG_ATTACHED, R.DBG.DBG_STATUS_SECURE_STATE, R.DBG.DBG_STATUS_UNLOCK_FAILS,
   R.DBG.DBG_STATUS_UNLOCK_REFUSED, R.DBG.DBG_STATUS_UNLOCK_REASON, R.DBG.DBG_STATUS_BAP_REFUSED,
   R.DBG.DBG_STATUS_LOCKED_ACCESS, R.DBG.TOKEN_KEY, R.DBG.SECURE_CTX_MASK, R.DBG.NONCE, R.DBG.TOKEN,
   R.DBG.BAP_CTRL_GO, R.DBG.BAP_CTRL_WRITE, R.DBG.BAP_CTRL_SPACE, R.DBG.BAP_CTRL_MODE, R.DBG.BAP_CTRL_RESPECT_LOCK,
   R.DBG.BAP_CTRL_BELAY, R.DBG.BAP_CTRL_CTX, R.DBG.BAP_CTRL_LEN, R.DBG.BAP_STATUS_BUSY] ++
  [R.DBG.BAP_STATUS_RESULT, R.DBG.BAP_ADDR, R.DBG.BAP_DATA, R.DBG.LOCK_PROBE_LANE, R.DBG.LOCK_PROBE_ENABLE,
   R.DBG.LOCK_PROBE_CTX, R.DBG.LOCK_BASE, R.DBG.LOCK_LIMIT]
/-- The fields of a page of type WATCH. -/
def rowsWatch : List Reg :=
  [R.WATCH.WATCH_CTRL_ENABLE, R.WATCH.WATCH_CTRL_ACTION, R.WATCH.WATCH_CTRL_REARM, R.WATCH.WATCH_STATUS_FIRED,
   R.WATCH.WATCH_STATUS_WRITE_REFUSED, R.WATCH.WATCH_STATUS_LEVEL, R.WATCH.WATCH_STATUS_BREAK_COMP,
   R.WATCH.BREAK_TAKE, R.WATCH.BREAK_STEP, R.WATCH.CTXID_CFG, R.WATCH.CTXID_VALUE, R.WATCH.CTXID_MASK,
   R.WATCH.CMP_CFG_ENABLE, R.WATCH.CMP_CFG_INVERT, R.WATCH.CMP_CFG_CTX_EN, R.WATCH.CMP_CFG_BASE,
   R.WATCH.CMP_CFG_WIDTH, R.WATCH.LOW, R.WATCH.HIGH, R.WATCH.MASK, R.WATCH.SEQ_COND, R.WATCH.SEQ_RESET,
   R.WATCH.SEQ_CFG_OP, R.WATCH.SEQ_CFG_LAST] ++
  [R.WATCH.SEQ_CFG_EDGE, R.WATCH.SEQ_CFG_COUNT]
/-- The fields of a page of type TRACE. -/
def rowsTrace : List Reg :=
  [R.TRACE.TRACE_CTRL_ENABLE, R.TRACE.TRACE_CTRL_CAP_EN, R.TRACE.TRACE_CTRL_TS_EN, R.TRACE.TRACE_CTRL_TD_EN,
   R.TRACE.TRACE_CTRL_SINK, R.TRACE.TRACE_CTRL_OVERWRITE, R.TRACE.TRACE_CTRL_LINK_EN, R.TRACE.TRACE_CTRL_FILT_EN,
   R.TRACE.TRACE_CTRL_FLUSH, R.TRACE.TRACE_CTRL_SINK_RESTART, R.TRACE.TRACE_CTRL_PIN_WIDTH,
   R.TRACE.TRACE_CTRL_PIN_LVDS, R.TRACE.TRACE_CTRL_PIN_DIV, R.TRACE.TRACE_CTRL_CAIRN_KIB,
   R.TRACE.TRACE_STATUS_RUNNING, R.TRACE.TRACE_STATUS_SINK_STOPPED, R.TRACE.TRACE_STATUS_STOP_REASON,
   R.TRACE.TRACE_STATUS_OVERFLOWING, R.TRACE.TRACE_STATUS_SECURE_BLOCKED, R.TRACE.TRACE_STATUS_WRITE_REFUSED,
   R.TRACE.TRACE_STATUS_POWER_STOPPED, R.TRACE.TRACE_STATUS_CFG_SEQ, R.TRACE.RING_BASE, R.TRACE.RING_CFG_SIZE_LOG2] ++
  [R.TRACE.RING_CFG_RING_CTX, R.TRACE.WR, R.TRACE.RD, R.TRACE.RD_ADDR, R.TRACE.WB_ADDR, R.TRACE.TS_PERIOD_US,
   R.TRACE.RING_THRESH, R.TRACE.FILT_FROM_TAKE, R.TRACE.FILT_TO_TAKE, R.TRACE.LOST_TAKES, R.TRACE.BUFFER_LEVEL,
   R.TRACE.CAP_MASK, R.TRACE.FIELD_CFG_ENABLE, R.TRACE.FIELD_CFG_BASE, R.TRACE.FIELD_CFG_WIDTH]
/-- The fields of a page of type CNT. -/
def rowsCnt : List Reg :=
  [R.CNT.LIVE, R.CNT.SNAP, R.CNT.SEL]
/-- The fields of a page of type CNTSNAP. -/
def rowsCntsnap : List Reg :=
  [R.CNTSNAP.SNAP_CTRL_SNAP_REQ, R.CNTSNAP.SNAP_CTRL_SNAP_MODE, R.CNTSNAP.SNAP_STATUS_PENDING,
   R.CNTSNAP.SNAP_STATUS_MID_TAKE, R.CNTSNAP.SNAP_STATUS_MERGED, R.CNTSNAP.SNAP_STATUS_LATE, R.CNTSNAP.SNAP_SEQ,
   R.CNTSNAP.SNAP_TAKE, R.CNTSNAP.SNAP_TIME, R.CNTSNAP.SNAP_AT_TAKE, R.CNTSNAP.SNAP_AT_TIME]
/-- The fields of a page of type SAFETY. -/
def rowsSafety : List Reg :=
  [R.SAFETY.SAFE_CTRL_CLEAR, R.SAFETY.SAFE_CTRL_TEST, R.SAFETY.SAFE_STATUS_IN_SAFE, R.SAFETY.SAFE_STATUS_ESTOP_NOW,
   R.SAFETY.SAFE_STATUS_CLEAR_REFUSED, R.SAFETY.SAFE_STATUS_CLEAR_REASON, R.SAFETY.SAFE_STATUS_MGMT_RUNNING,
   R.SAFETY.SAFE_STATUS_MGMT_HELD, R.SAFETY.SAFE_STATUS_CAUSE, R.SAFETY.SAFE_STAMP, R.SAFETY.SAFE_ENTRIES,
   R.SAFETY.RING_WR, R.SAFETY.LOG_SEQ, R.SAFETY.LOG_SUPPRESSED, R.SAFETY.TJ_LIMIT, R.SAFETY.TJ_WARN,
   R.SAFETY.TJ_NOW_TEMP, R.SAFETY.TJ_NOW_SENSOR, R.SAFETY.SCRUB_PASSES_IS, R.SAFETY.SCRUB_PASSES_EDGE,
   R.SAFETY.SCRUB_CORRECTED, R.SAFETY.RAIL_MV, R.SAFETY.VCCIO_MV]
/-- The fields of a page of type CLK. -/
def rowsClk : List Reg :=
  [R.CLK.STEP_MHZ, R.CLK.CLK_STATUS_STEP_LOCKED, R.CLK.CLK_STATUS_HOLDOVER, R.CLK.CLK_STATUS_WRITE_REFUSED]
/-- The fields of a page of type RESET. -/
def rowsReset : List Reg :=
  [R.RESET.RESET_CTRL_ARRAY, R.RESET.RESET_CTRL_EDGE, R.RESET.RESET_CTRL_DEVICE, R.RESET.RESET_CTRL_KEY,
   R.RESET.RESET_STATUS_LAST_CAUSE, R.RESET.RESET_STATUS_REFUSED]
/-- The fields of a page of type MBOX. -/
def rowsMbox : List Reg :=
  [R.MBOX.MBOX_CTRL_DOORBELL, R.MBOX.MBOX_STATUS_BUSY, R.MBOX.MBOX_STATUS_REPLY_READY, R.MBOX.MBOX_STATUS_FW_RUNNING,
   R.MBOX.MBOX_STATUS_RECOVERY, R.MBOX.MBOX_STATUS_BRIDGE_REFUSED, R.MBOX.MBOX_STATUS_CH1_LEVEL, R.MBOX.REQ,
   R.MBOX.REPLY]
/-- The fields of a page of type ID. -/
def rowsId : List Reg :=
  [R.ID.ID_DEVICE_DEVICE_ID, R.ID.ID_DEVICE_REVISION, R.ID.ID_PART_DIES, R.ID.ID_PART_STEP_LIMIT, R.ID.ID_PART_RANGE,
   R.ID.ID_PART_SECURE, R.ID.SERIAL, R.ID.FW_VERSION, R.ID.EV_SUMMARY]
/-- The fields of a page of type GROUP. -/
def rowsGroup : List Reg :=
  [R.GROUP.GRP_STATUS_POPULATED, R.GROUP.GRP_STATUS_FENCED, R.GROUP.GRP_STATUS_FENCED_G3, R.GROUP.GRP_STATUS_DOMAIN]

end Sys2Proof.Machine
end

