-- ==== Sys2Proof/Machine/Dev.lean ====
section
/-! DEFINITION. The state of the device, part by part, as plain data.  The registers are one store of fields
(`Dev.regs`, by the keys of `Machine/Regs.lean`); what the manual keeps in memories, buffers, tables and latches that no
register shows stands in the structures of this file, each with the rule that gives it. -/

namespace Sys2Proof.Machine

/-- What the SPD of a DIMM says (spec/13 R345, R352): its kind, 0 for an empty slot, 1 for an RDIMM with ECC and no 3DS stack above four ranks, other values for modules that are not supported;
its capacity in GiB, ranks, DRAM width, highest speed bin, coded as SPEED_MAX, and the numbers of bank-group, bank, column and row bits that GEOMETRY shows. -/
structure Dimm where
  kind : Nat
  gib : Nat
  ranks : Nat
  width : Nat
  speed : Nat
  bgBits : Nat
  bankBits : Nat
  colBits : Nat
  rowBits : Nat
  deriving DecidableEq, Repr, Inhabited

/-- The part (spec/00 R2, R7), the identity written into it at manufacture (spec/18 R477), and the DIMMs of the board, by channel × 2 + slot. -/
structure Part where
  dies : Nat
  stepLimit : Nat
  rangeC : Bool
  secure : Bool
  serial : Nat
  ownerHash : Nat
  dimms : SMap Dimm
  deriving DecidableEq, Repr, Inhabited

/-- A fault record before it is laid out in 32 bytes (spec/06 R173). -/
structure FRec where
  code : Nat
  sev : Nat
  safety : Nat
  logged : Nat
  noStep : Nat
  locKind : Nat
  position : Nat
  location : Nat
  step : Nat
  pitch : Nat
  atBelay : Nat
  take : Nat
  time : Nat
  detail : Nat
  deriving DecidableEq, Repr, Inhabited

/-- What the device puts out, in order: the model's own log of outputs that leave the block. -/
inductive Out where
  | msix (func vector addr data : Nat)
  | hostWrite (addr attr : Nat) (data : Bytes)
  | hostRead (addr attr len : Nat)
  | readData (data : Bytes)
  | poisonData (data : Bytes)
  | readFailed (status : Nat)
  | retryStatus
  | frame (port : Nat) (lanes : List (List Nat))
  | message (port kind : Nat) (body : Bytes)
  | tdo (width value : Nat)
  | linkDown
  | i2c (addr : Nat) (data : Bytes)
  | ptmRequest
  | flit (node next : Nat) (header : Nat)
  | tracePins (pins : Nat) (lvds : Bool) (div : Nat) (edges : List Nat)
  | wait
  deriving DecidableEq, Repr

/-- An access of a bank port from its MEM_GO to the delivery of its data (spec/05 R128). `seq` is the number of the step
that started it, `done` tells that its array cycle has been made, `word` the read data not yet delivered. -/
structure Acc where
  seq : Nat
  write : Nat
  addr : Nat
  wdata : Nat
  done : Bool
  word : Option Nat
  deriving DecidableEq, Repr, Inhabited

/-- An entry of a far port's pending or delivered buffer (spec/05 R143): `kind` 0 nothing, 1 read response, 2 write
acknowledgement. -/
structure FarEntry where
  kind : Nat
  data : Nat
  deriving DecidableEq, Repr, Inhabited

/-- An issued far request (spec/05 R146, R150): the entry of the pending buffer it takes, `answered` once its response
is held, `discard` when an array fault stop has abandoned it, `interval` the delivery interval it belongs to. -/
structure FarReq where
  entry : Nat
  window : Nat
  line : Nat
  write : Nat
  data : Nat
  step : Nat
  answered : Bool
  discard : Bool
  deriving DecidableEq, Repr, Inhabited

/-- What a word does to state that other words of its step may do to too (spec/02 R53 to R57): `nbr` its neighbour
output, the others one action each. -/
inductive ActKind where
  | nbr | lane | memAddr | memWdata | memGo | farAddr | farData | farGo | edge | probe
  deriving DecidableEq, Repr, Inhabited

/-- The shared effect of a BP in a step, gathered until the step ends (spec/02 R43, R53).  `key` is the place it acts on, by
kind: the BP; lane number of the part (G1 × 8 + lane); bank port (G2 × 2 + port); bit (port × 256 + bit); far port, or bit of its
address (G4 × 64 + bit) or data (G4 × 512 + bit); edge lane; probe lane.  `v` is the result, or the direction of an access.
`ok` is false where a fault of the word itself keeps the action from taking effect. -/
structure Act where
  kind : ActKind
  key : Nat
  bp : Nat
  v : Nat
  ok : Bool
  deriving DecidableEq, Repr, Inhabited

/-- A fenced array group (spec/07 R204): the BPs `[lo, hi)`, its level, the value its upward lanes carry. -/
structure Fence where
  lo : Nat
  hi : Nat
  level : Nat
  border : SMap Nat
  deriving DecidableEq, Repr, Inhabited

/-- The record of a take boundary (spec/03 R90, spec/05 R153, spec/16 R429). -/
structure Boundary where
  segs : SMap Nat
  segDef : Nat
  rx : SMap Nat
  mirror : SMap Nat
  nbr : SMap Nat
  farDel : SMap FarEntry
  farPend : SMap FarEntry
  farReq : SMap FarReq
  issued : SMap Nat
  watchLevel : Nat
  watchCounts : SMap Nat
  watchPrev : Nat
  watchFired : Bool
  deriving DecidableEq, Repr, Inhabited

/-- The Boolean processor array, its lanes, banks and far ports (spec/02, 03, 05).
`cols`: codewords of 96 data and 8 check bits by bp × 2048 + word.  `stepRows`, `stateRows`, `shadowRows`, `flagRows`:
rows of eight entries by bp × 256 + row and bp × 64 + row (`flagRows` the written flags).  `badRows`: rows whose parity fails, by
(bp × 3 + store) × 256 + row.  `wrote`: which step entries the current take wrote.  `firstCommit`: 1 + step of the first
commit, by bp × 512 + entry.  `segs`: slot value (bit 0) and driven bit (bit 1), exclusive or `segDef`, by segment
identifier (TYPE 0 is the out-lane, TYPE 0xF the hub receive register), `segsLast` what they carried in slot L − 1 of the last take, `hubCorrected` the hub's count of corrected selection entries (R74).  `selTab`: codewords of four selection entries,
by identifier × 512 + step / 4.  Bank ports by g2 × 2 + port.
Far requests by g4 × 2^32 + request number, `farNext` the next number of each port. -/
structure Arr where
  cols : SMap Nat
  stepRows : SMap Nat
  stateRows : SMap Nat
  shadowRows : SMap Nat
  flagRows : SMap Nat
  badRows : SMap Nat
  wrote : SMap Nat
  firstCommit : SMap Nat
  nbr : SMap Nat
  edgeOut : SMap Nat
  probe : SMap Nat
  portAddr : SMap Nat
  portWd : SMap Nat
  portRd : SMap Nat
  acc : SMap Acc
  coll : SMap Nat
  banks : SMap Byte
  farAddr : SMap Nat
  farWd : SMap Nat
  farPend : SMap FarEntry
  farDel : SMap FarEntry
  farReq : SMap FarReq
  farNext : SMap Nat
  segs : SMap Nat
  segDef : Nat
  segsLast : SMap Nat
  hubCorrected : Nat
  selTab : SMap Nat
  mirrorMap : SMap Nat
  mirror : SMap Nat
  rx : SMap Nat
  staged : SMap Nat
  injTab : SMap (List Nat)
  journal : List (Nat × Nat)
  fences : List Fence
  deriving DecidableEq, Repr, Inhabited

/-- Where the sequencer stands (spec/04 R105): at rest at belay 0; in a step; after the last step of a pitch, before
cycle 0 of the belay; waiting in a belay; after cycle k has been reached and announced. -/
inductive Phase where
  | resting | stepping | ended | waiting | met
  deriving DecidableEq, Repr, Inhabited

/-- A staged injection (spec/14 R370, R372): the item it came from, the take and belay it names, its bits, whether the current take
has already applied it, and whether it is kept from an earlier attempt. -/
structure Inj where
  item : Nat
  take : Nat
  belay : Nat
  bits : Nat
  applied : Bool
  kept : Bool
  deriving DecidableEq, Repr, Inhabited

/-- What becomes of a tick of the selected time base, judged by R110 to R112 as it arrives: it starts the next take; it is held under LOG for the
take after; it is discarded; it is not used, under SAFE. -/
inductive Fate where
  | starts | pends | discarded | unused
  deriving DecidableEq, Repr, Inhabited

/-- What the last take boundary replaced, for the case that a peer's STOP makes the closed take incomplete after all (spec/04 R121). -/
structure Undo where
  stateRows : SMap Nat
  badRows : SMap Nat
  inject : List Inj
  saved : Boundary
  deriving DecidableEq, Repr, Inhabited

/-- The sequencer of takes (spec/04, spec/16).  `seq` counts executed steps; `len` and `pitches` are L and N of the reel.
`first`, `tbValid`, `tbSkip` are the latches of R52, `skipNext` the time bases skipped for the next take, `skipAfter` for the take after a tick that
already waits for its take.  `throttleSeq` is `seq` at the last belay that could be held by the limiter.  `acted`, `stage` and `faults` gather
what the step in execution has done.  `waits` are the unmet conditions: bit 0 WAIT_TICK, 1 WAIT_FAR, 2 WAIT_LINK, 3 WAIT_INJECT.  `waited` is the count of the belay timer in device time, `entry` the instant of cycle 0 of the
belay on the clock `mono`, `farWaited` the time for which WAIT_FAR has been unmet, `hold` the instant at which the limiter hold ends
and `stolen` the cycles inserted.  `ticks` are the ticks whose tick edge is still to come, each with what becomes of it, `tick` the tick that belay 0 may
use, `logTick` one held under LOG, `subs` the stamps of the substitute ticks among them, `judged` tells that a tick started the last take, `tStart` its stamp, `boundary` the stamp of the last
take boundary, `started` the stamp of the last start.  `release` is the global release instant, `ready` the devices whose READY the
master holds, `passed` the handshake messages already passed on, `closingResp` the deadline response to send or apply at the
boundary of the current belay 0 or the next, `nextResp` that of a take whose belay 0 still stands.  `haltReq` is the cause of a pending halt, `haltOrigin`
its device or the code of a stop, `takesLeft` the takes of a stepped run, `again` a take to be executed again, `ran` that a pitch
has been executed since the array last rested without lane contents of a take, `saved` the record of the last boundary, `undo` what
that boundary replaced, `peerStop` the device whose STOP waits for the next belay, `linkStop` that exhausted replays stop the array there,
`linkPitch` the first pitch whose link slots no WAIT_LINK belay has committed, `startWait` that a start waits for the step PLL (spec/18 R491),
`startHeld` that one waits for the START_CHECK of a peer (R97). -/
structure Seqr where
  phase : Phase
  step : Nat
  seq : Nat
  len : Nat
  pitches : Nat
  belay : Nat
  first : Bool
  tbValid : Nat
  tbSkip : Nat
  skipNext : Nat
  skipAfter : Nat
  throttleSeq : Nat
  acted : List Nat
  stage : List Act
  faults : List FRec
  stopReq : Bool
  waits : Nat
  /-- The token of the current belay, as BELAY_TOKEN gave it when the belay began (spec/14 R379, R384), 0 for none. -/
  belayTok : Nat
  waited : Nat
  entry : Nat
  farWaited : Nat
  hold : Nat
  stolen : Nat
  ticks : List (Nat × Fate)
  tick : Option Nat
  logTick : Option Nat
  subs : List Nat
  judged : Bool
  tStart : Nat
  boundary : Nat
  started : Nat
  release : Option Nat
  ready : List Nat
  passed : List (Nat × Nat × Nat × Nat)
  closingResp : Nat
  nextResp : Nat
  haltReq : Nat
  haltOrigin : Nat
  takesLeft : Nat
  again : Bool
  ran : Bool
  wdLeft : Nat
  wdOn : Bool
  saved : Boundary
  undo : Option Undo
  peerStop : Option Nat
  linkStop : Bool
  linkPitch : Nat
  startWait : Bool
  startHeld : Bool
  deriving DecidableEq, Repr, Inhabited

end Sys2Proof.Machine
end

