-- ==== Sys2Proof/Machine/Device.lean ====
section
/-! DEFINITION. The device: the parts of `Machine/Dev.lean` and the state of the other blocks, in one structure. -/

namespace Sys2Proof.Machine

/-- The trace unit (spec/17).  `buf` holds the stream bytes that no sink has taken, `off` the stream bytes written,
`nextTake` is the number after that of the last TAKE packet;
packets of a boundary that do not fit count as `lostTakes`, `lostOther` counts other packets.  `machine` is the state of the enable machine (R396), `pendingReq` 1
a pending enable; `wbDue` tells that WR is to be written at the end of a flush, `wbWaits` that a write of WR waits for DDR5. -/
structure Trc where
  buf : Bytes
  off : Nat
  sinceCairn : Nat
  key : Bool
  prev : Nat
  lastField : SMap Nat
  lastTs : Nat
  lastTime : Nat
  lastTake : Nat
  nextTake : Nat
  lostTakes : Nat
  lostOther : Nat
  gap : Bool
  needCairn : Bool
  machine : Nat
  pendingReq : Nat
  wbDue : Bool
  wbWaits : Bool
  capMask : SMap Nat
  sel : SMap Nat
  deriving DecidableEq, Repr, Inhabited

/-- A mailbox message that waits or is served (spec/18 R471): its MAILBOX item, 0 on channel 0, its bytes, and whether a restart of the
firmware has found it in progress (R472). -/
structure Msg where
  item : Nat
  body : Bytes
  restarted : Bool
  deriving DecidableEq, Repr, Inhabited

/-- The management plane (spec/18).  `ring` holds the last 256 records, `slots` and `seqs` the safety log of the MRAM (the sequence words, the
highest one as entry 1,024), `logTimes` the monotonic instants of the records of the last second, `counters` the monotonic counters.  `faultN` and `safeN` tell that FAULT_N and SAFE_N are
asserted, `thermalStop` that THERMAL_LIMIT stops the step clock, `bootFailed` BOOT_GOLDEN_FAILED, `inReset` the time from a POR or DEVICE reset
to readiness.  `railArmed` are the armed rail monitors (rail + 16 × bank), `railsAt` the instant (plus one) at which the last rail entered its window, `resetAt` the instant of the last POR or DEVICE reset on `mono`, `scrubAt` the word or slot
that the instruction-store scrubber reads next, `temps` the last reading of each sensor, `hotCounts` its samples in a row at or above the limit.  `msgs` are the messages of both channels in order of arrival,
`reply` the reply to the first that the firmware has ready.  `update` is the target and length of the update in progress, `area` the update area (offset, byte plus
one; not listed: erased), `flash` the serial flash.  `svn`, `fwVersion` are those of the running image, `settingsSeq` and `settingsCopy` the settings block in use.
`restartAt` is the instant (plus one) of the last restart of the firmware. -/
structure Mgmt where
  ring : SMap FRec
  slots : SMap FRec
  seqs : SMap Nat
  logTimes : List Nat
  counters : SMap Nat
  faultN : Bool
  safeN : Bool
  thermalStop : Bool
  bootFailed : Bool
  inReset : Bool
  railArmed : List Nat
  railsAt : Nat
  resetAt : Nat
  scrubAt : Nat
  temps : SMap Nat
  hotCounts : SMap Nat
  warned : Bool
  restartAt : Nat
  msgs : List Msg
  reply : Option Bytes
  update : Option (Nat × Nat)
  area : SMap Nat
  flash : SMap Byte
  svn : Nat
  fwVersion : Nat
  settingsSeq : Nat
  settingsCopy : Nat
  deriving DecidableEq, Repr, Inhabited

/-- The loader (spec/07): the slate in force, the positions (bit `p`: position `p`) that the reel set occupies, the expected frame, what the load has written,
and the G2s that its CONFIG frames have joined. -/
structure Loader where
  slate : Bytes
  setSize : Nat
  members : Nat
  expected : Nat
  frames : Bytes
  targets : List Nat
  joins : List Nat
  partialNow : Bool
  region : Nat × Nat × Nat
  edgeRegion : Option Nat
  fencePending : Bool
  rejoinPending : Bool
  staging : List Bytes
  requireSigned : Bool
  reelKeys : Bytes
  sigKey : Nat
  secureKey : Option Nat
  stepMin : Nat
  stepMax : Nat
  fullSlate : Bytes
  fullDone : Bool
  regionRelease : Nat
  deriving DecidableEq, Repr, Inhabited

/-- The edge fabric (spec/08).  `cfg` holds the configuration payloads in force, `base` those of the boot image, by kind × 65,536 + item
(R235); `lanemap` the edge-lane map, outbound entries at 1,024 + lane.  `bmem` the block memories, 4 KiB each.  `mac` the outputs
of the macrocells, `longLines`, `memRead` (memory × 2 + port), `coll` the collision flags (cycles of port B left), `fifo` the entries of each
FIFO with the edges that the other side still needs to count them, `fifoWord` the data words.  `userPrev` and `ptPrev` what user-event
signals and product-term clocks were.  `sampleNext` is what the connected inbound lanes held before the last GCT0 edge, `sampleHist` that of the last 512 ns of edges (edge,
instant, lanes, and the IN FIFOs that were not empty), newest first,
`tickSamples` the samples of ticks that no take has used (stamp, lanes, sample edge), `sample` that of the current take.  `present` the completed takes that await presentation (take,
lanes, boundary), `shown` the outbound lanes as presented, `nextTake` the take to be presented next, `instants` the presentation instants
to come (edge, take).  `edges` counts GCT0 edges, `lastEdge` is the instant of the last one on `mono` and `gctPeriod` the time since the one before.
`e0` is the edge of stage 1, `regionE0` that of the release of a region (plus one), `regionStage` the stage which that release has reached; `strobes` the tick strobes to come (time base, edge), `presStrobe` the edge of the last presentation plus one.
`probeHist` holds what the probes selected showed in the last cycles, `probeSel` the selections in force in the current one, `pinIn` the input buffers of the pins, `levels` the
pads as last seen, `high` the trees whose clock is high.  `fenced` are the fenced regions, `borders` their border values by macrocell.  `presNext` are the values that the macrocells on trees of the
presentation strobe take if a presentation begins at the last edge.  `pre` are the routing signals that memories and FIFOs use, as they stood
before the last clock event, `rose` the trees that rose in it, `acted` the memories (by number) and FIFO sides (64 + 2 f write, + 1 read) that have acted
in it; `popDue` the IN FIFOs whose head a sample has taken, `pushDue` the OUT FIFOs that a presentation offers a word; `eventAt` the instant of the last clock event on `mono`,
`portWrites` the last write of each memory port (memory × 2 + port): its instant (plus one), its address and the word that it replaced. -/
structure Edge where
  cfg : SMap Bytes
  base : SMap Bytes
  lanemap : SMap Nat
  bmem : SMap Byte
  mac : SMap Nat
  longLines : SMap Nat
  memRead : SMap Nat
  coll : SMap Nat
  fifo : SMap (List (Nat × Nat))
  fifoWord : SMap Nat
  userPrev : SMap Nat
  ptPrev : SMap Nat
  sampleNext : SMap Nat
  sampleHist : List (Nat × Nat × SMap Nat × Nat)
  tickSamples : List (Nat × SMap Nat × Nat)
  sample : SMap Nat
  present : List (Nat × SMap Nat × Nat)
  shown : SMap Nat
  nextTake : Nat
  instants : List (Nat × Nat)
  edges : Nat
  lastEdge : Nat
  gctPeriod : Nat
  e0 : Option Nat
  regionE0 : SMap Nat
  strobes : List (Nat × Nat)
  presStrobe : Nat
  probeHist : List (SMap Nat)
  probeSel : SMap Nat
  presNext : SMap Nat
  pinIn : SMap Nat
  levels : Nat
  high : Nat
  borders : SMap Nat
  fenced : List Nat
  regionStage : SMap Nat
  pre : SMap Nat
  rose : Nat
  acted : List Nat
  popDue : SMap Nat
  pushDue : List Nat
  eventAt : Nat
  portWrites : SMap (Nat × Nat × Nat)
  deriving DecidableEq, Repr, Inhabited

/-- The pins (spec/09), by pin number.  `cfg` is the configuration word in effect, `next` the committed words whose change edges are still to come, each with its edge, `window` the
end of a keeper window (plus one), `windowEnd` that of the last one that has ended.  Instants count on `mono`.  A pad is 0 driver off, 1 driven to 0, 2 driven to 1: `pads` holds them, `request` what was
last requested, `hold` and `sleepHold` what they were on entry into HALT and SLEEP.  `clamp` holds the instant (plus one) of an interlock clamp, `delay`
1 for a change that a limit of R259 or R260 holds back, `changed` the instant of the last level change (plus one), `left` that at which a pad left a level
(pin × 2 + level, plus one), `toggles` the level changes in the rate window `winNo`.  `input` are the synchronised pad levels, `kept` the bits
that the matchers keep for pins in keeper windows, `rawSince` the instant (plus one) since which the raw match of a matcher has kept its value, `filterAt` the stamp of the cycle that last
changed its filtered match.  `lockStep` 1: the first
key has been written, 2: armed, since `lockStart`, by bank.  `bsr` is the boundary-scan register. -/
structure Pins where
  cfg : SMap Nat
  next : SMap (List (Nat × Nat))
  window : SMap Nat
  windowEnd : SMap Nat
  input : SMap Nat
  kept : SMap Nat
  rawSince : SMap Nat
  filterAt : SMap Nat
  pads : SMap Nat
  request : SMap Nat
  clamp : SMap Nat
  delay : SMap Nat
  changed : SMap Nat
  left : SMap Nat
  toggles : SMap Nat
  winNo : SMap Nat
  lockStep : SMap Nat
  lockStart : SMap Nat
  extest : Bool
  bsr : Nat
  halt : Bool
  sleep : Bool
  hold : SMap Nat
  sleepHold : SMap Nat
  deriving DecidableEq, Repr, Inhabited

/-- How a correction moves device time (spec/10 R274, R275): a step forward; a step backward, which only an accepted jump makes; an offset to be absorbed. -/
inductive JumpKind where
  | forward | backward | slew
  deriving DecidableEq, Repr, Inhabited

/-- A correction that waits for the next edge of REFCLK_100 (spec/10 R274): the device time until that edge, its size, and whether a TS packet records it (R275). -/
structure Jump where
  wait : Nat
  size : Nat
  kind : JumpKind
  ts : Bool
  deriving DecidableEq, Repr, Inhabited

/-- Device time beyond its registers, and the time bases (spec/10).  Instants count on `Dev.now`.  Edge number `refNo` of
REFCLK_100 since POR fell at the instant `refAt` of the clock `mono`, and the later ones follow ADDEND apart.  `slewLeft` is what is left of a negative offset, `jump` a correction
that waits for its edge, `jumped` one just made, whose effects are still to come: the instant of its edge on `mono`, device time before it, the correction.
`epoch` counts the wraps of device time already announced, `lastSync` and `lastHeard` are the instants of the last SYNC and of the last SYNC or TICK, `masterAddend` the ADDEND that the last SYNC carried, 0 before
one, `t1` to `t4` the stamps of a measurement, plus one, by
port, `lockCount` the measured offsets in a row within bounds, `masterSeen` what each position has announced (1 + ELIGIBLE + 2 × PRIORITY).  By time base:
`divNext` the reference edge of the next count of a DIVIDER, `perNext` the next instant of a PERIODIC, `lost` the causes of a loss that stand, by bit, `lostNow` 1 while the time base is
lost, `lostSince` the instant of the last tick or of enabling, `lastAB` the last encoder levels, `indexed` 1 once an index has been applied, `history` the stamps of
the last real ticks, newest first, `list` the comparator list, `subNext` the next substitute tick.  By output or input: `caps` the capture FIFOs,
oldest first, `pulse` 1 while a pulse output is active, `pulseEnd` 1 where its next boundary is the end, `pulseNext` that boundary, `pulsePer` and `pulseWid` the period
and width with which it was armed, `pulseArm` the instant of arming on `mono`, `trig` 1 while a line pulses, `trigEnd` the end of the pulse on `mono`; `outs` what each output shows at its pad, newest first: the
instant on `mono` from which it shows it, and 1 for active (pulse output k under k, line k under 8 + k). -/
structure Clock where
  refAt : Nat
  refNo : Nat
  slewLeft : Nat
  jump : Option Jump
  jumped : Option (Nat × Nat × Jump)
  epoch : Nat
  lastSync : Nat
  lastHeard : Nat
  masterAddend : Nat
  t1 : SMap Nat
  t2 : SMap Nat
  t3 : SMap Nat
  t4 : SMap Nat
  lockCount : Nat
  masterSeen : SMap Nat
  divNext : SMap Nat
  perNext : SMap Nat
  lost : SMap Nat
  lostNow : SMap Nat
  lostSince : SMap Nat
  lastAB : SMap Nat
  indexed : SMap Nat
  history : SMap (List Nat)
  list : SMap (List Nat)
  subNext : SMap Nat
  caps : SMap (List Nat)
  pulse : SMap Nat
  pulseEnd : SMap Nat
  pulseNext : SMap Nat
  pulsePer : SMap Nat
  pulseWid : SMap Nat
  pulseArm : SMap Nat
  trig : SMap Nat
  trigEnd : SMap Nat
  outs : SMap (List (Nat × Nat))
  deriving DecidableEq, Repr, Inhabited

/-- A frame held in a replay buffer (spec/11 R310): its SEQ, the number of the DATA frame of the take that it carries, its bytes of the message
stream, and the messages that it completes. -/
structure LinkFrame where
  seq : Nat
  data : Option Nat
  msg : Bytes
  msgs : List (Nat × Bytes)
  deriving DecidableEq, Repr, Inhabited

/-- A KermaLink port (spec/11).  `fails` counts failed attempts, `version` is the rate trained or in training, `low` the low-rate mode; `excl` the lanes
excluded until the next CLOCK_LOCK, `locked` those that training has locked, `noComma` consecutive frames without a comma by lane, `eq` the pre-emphasis in
effect.  `txSeq` and `expect` are the next SEQ to send and the one expected, `nak` stands while an expected frame is missing, `ahead` how far past it the frames of the peer have come, `again` how many of the
next good frames the peer has sent before, `txPlus` the lanes sent whose running disparity is +1, `rxPlus` that of the lanes received (1 for −1, 2 for +1, 0 before the first comma), `resend` counts the entries of the replay buffer that a
replay in progress has still to send, `nakSeq` and `nakCount` the replays asked for the same ACK_SEQ, `ackSince` the instant since which none has been acknowledged.
`queue` holds the messages, `txMsg` what is left of the one in transmission `txCur`, `rxMsg` the bytes of the one in reception.  `store` is the transmit store, lane × 2048 + slot; `rxTotal`
and `txTotal` count the good DATA frames received and the DATA frames sent in the take.  `sync` is a SYNC whose frame is not acknowledged yet: its SEQ, t1, whether it was sent
again.  `gotA` to `gotC` what the exchange has brought, `sel` the version selected, `peerSel` the peer's selection, plus one.  `dispAt` is the instant (plus one) of the last LINK_DISPARITY record.
`lowReq`: this device has asked for LOWRATE; `lowAck`: the answer is on its way; `peerLow`: the peer has asked; `fullReq`: FULLRATE_REQ is on its way; `fromLow`: the port has run LOWRATE since it was last ACTIVE.
`peerDigest` and `peerStep` are those of the last START_CHECK, `since` the instant of entry into the state. -/
structure Port where
  fails : Nat
  version : Nat
  low : Bool
  excl : Nat
  locked : Nat
  noComma : SMap Nat
  eq : Nat
  txSeq : Nat
  expect : Nat
  nak : Bool
  ahead : Nat
  again : Nat
  txPlus : Nat
  rxPlus : SMap Nat
  replay : List LinkFrame
  resend : Nat
  nakSeq : Option Nat
  nakCount : Nat
  ackSince : Nat
  queue : List (Nat × Bytes)
  txMsg : Bytes
  txCur : Option (Nat × Bytes)
  rxMsg : Bytes
  store : SMap Nat
  rxTotal : Nat
  txTotal : Nat
  sync : Option (Nat × Nat × Bool)
  gotA : Bool
  gotB : Bool
  gotC : Bool
  sel : Nat
  peerSel : Nat
  dispAt : Nat
  lowReq : Bool
  lowAck : Bool
  peerLow : Bool
  fullReq : Bool
  fromLow : Bool
  peerDigest : Option Nat
  peerStep : Nat
  since : Nat
  deriving DecidableEq, Repr, Inhabited

/-- The host side (spec/12): MSI-X tables by function × 4096 + vector (`msixUnmask` 1 where the mask is clear), the fence set in effect and the set
being activated, the invalidation in progress (scope, context, base, pages), the table entries the DMMU has cached, plus one, the PF0 D-state,
the size of BAR2 as a power of two and the offset in effect. -/
structure HostSt where
  msixAddr : SMap Nat
  msixData : SMap Nat
  msixUnmask : SMap Nat
  msixPend : SMap Nat
  msixEnable : SMap Nat
  fences : List (Nat × Nat)
  fenceNext : Option (List (Nat × Nat))
  invalidating : Option (Nat × Nat × Nat × Nat)
  cache : SMap Nat
  dstate : Nat
  linkUp : Bool
  bar2Log : Nat
  bar2Offset : Nat
  deriving DecidableEq, Repr, Inhabited

/-- The DDR5 channels (spec/13): memory by physical address, the poisoned lines, the next line of each patrol scrub, the channels
whose refresh rate is doubled, HASH, EXCLUDE, SPEED_MAX and SCRUB_EN as the last training took them, the instant at which that began, on `mono`, and by channel the instant (plus one) of entry into self-refresh; `asked` are the channels in self-refresh that a request has reached, which are to wake. -/
structure Ddr where
  mem : SMap Byte
  poison : SMap Nat
  scrubAt : SMap Nat
  doubled : SMap Nat
  hash : Nat
  excl : Nat
  speedMax : Nat
  scrubOn : Bool
  startAt : Nat
  srSince : SMap Nat
  asked : List Nat
  deriving DecidableEq, Repr, Inhabited

/-- Where a fetched work item stands (spec/14): in the matching store; in a ready queue; running on an engine; in the prefetch
slot of an engine; in a delay list; in the injection staging; finished, its completion entry still to be written. -/
inductive Stand where
  | matching | ready | running | prefetch | delayed | staged | finished
  deriving DecidableEq, Repr, Inhabited

/-- A fetched work item (spec/14 R363): its number in order of fetch, its queue, its 64-byte descriptor, where it stands, the place it has
in its ready queue or delay list, its engine, the bytes completed, those completed at the last restart point and the instant of it, the instant at which it started on the clock `mono`, the status and
detail code it ends with, whether it has been set aside at a restart point, its internal state (by type: the phase of a FILL, the partial CRC-32C of a
CHECKSUM, the bytes that an ERASE was to read back before DST), the message of a SHA-384 so far, a second position (the bytes that an ERASE has read back,
the bytes that a TRACE_DRAIN is to copy), and the bank pages that it addresses. -/
structure Item where
  id : Nat
  queue : Nat
  desc : Bytes
  stand : Stand
  order : Nat
  engine : Nat
  done : Nat
  lastPoint : Nat
  pointTime : Nat
  started : Nat
  status : Nat
  detail : Nat
  restart : Bool
  state : Nat
  acc : Bytes
  back : Nat
  banks : List Nat
  deriving DecidableEq, Repr, Inhabited

/-- The scheduler, queues and engines (spec/14).  `items` in order of fetch; `captures` the edge-lane records not yet written, by item, take
and bits; `tails` the tails recorded by INJECT_THROUGH, plus one; `slots` the saved-state slots (R378), by queue; `resetting` the queues that Q_CTRL.RESET is emptying. -/
structure Eng where
  tokens : SMap Nat
  items : List Item
  nextId : Nat
  nextOrder : Nat
  sram : SMap Byte
  inject : List Inj
  captures : List (Nat × Nat × Nat)
  tails : SMap Nat
  slots : SMap Bytes
  resetting : List Nat
  deriving DecidableEq, Repr, Inhabited

/-- An access to a word of PF0 BAR0 that waits at the gateway of a domain (spec/15 R398, R399): the domain, whether it comes through the TAP, the word's offset and the
value written; `write` false for a read. -/
structure Held where
  dom : Nat
  tap : Bool
  off : Nat
  value : Nat
  write : Bool
  deriving DecidableEq, Repr, Inhabited

/-- A packet in the input buffer of a router (spec/15 R387): the router, the input, the packet's number, its header, its flits that stand in the buffer, those still upstream, the
instant of its arrival, whether its head has left, and whether a flit still carries an error that the endpoint corrects (R392). -/
structure Queued where
  node : Nat
  input : Nat
  id : Nat
  header : Nat
  flits : Nat
  due : Nat
  since : Nat
  gone : Bool
  err : Bool
  deriving DecidableEq, Repr, Inhabited

/-- The network and the power domains (spec/15).  `queued` are the packets in the routers, in order of arrival, `nextPacket` the number of the next one, `granted` the input last granted (plus one)
by router, output and VC; `gated` the packets that gateways hold, in order of arrival: domain, router, header.  `drainLeft` are the routers still to be drained, `newMode` the mode they take, `mode` 1 for a router in end-to-end
mode.  By domain: `offAt` the instant (plus one) of an accepted power-down, `ponr` 1 beyond its point of no return, `offRec` the instant (plus one) of the last
NOC_DOMAIN_OFF record.  `entryStep` is how far an entry into BIVOUAC has come: 1 trace
stopped, 2 the peers asked, 3 the pins asleep and the routers of the compute dies draining; `back` the domains that an exit from BIVOUAC brings back, `savedLanes` the lane record kept for it.
`attachNow` is the debugger as the power machine sees it.  `samples` are the power measurements of the window, newest first, in tenths of a watt, `above` counts those since the last belay that could
be held in which the average exceeded the limit, `windowBelay` that such a belay has been reached. -/
structure Net where
  queued : List Queued
  nextPacket : Nat
  granted : SMap Nat
  gated : List (Nat × Nat × Nat)
  drainLeft : List Nat
  newMode : Nat
  mode : SMap Nat
  held : List Held
  offAt : SMap Nat
  ponr : SMap Nat
  offRec : SMap Nat
  entryStep : Nat
  back : List Nat
  savedLanes : Option Boundary
  attachNow : Bool
  samples : List Nat
  above : Nat
  windowBelay : Bool
  deriving DecidableEq, Repr, Inhabited

/-- What a background access waits for (spec/16 R432): nothing is in progress; its effect is due at once; an inserted cycle; a belay that
takes queued accesses; an idle cycle of the bank of a G2; only its report. -/
inductive BapWait where
  | idle | now | steal | service | bankIdle (g : Nat) | report
  deriving DecidableEq, Repr, Inhabited

/-- Debug (spec/16): the watch sequencer (`counts` by level, `prevCond` the conditions of the step before), the background access port, the
probe lanes as the last take boundary found them (`lockLanes`), the TAP (instruction register, boundary-scan register in `Pins`, status and data of DBG_ACCESS).  `onBank` is the bank page that the access in progress addresses.  `snapPend`
is a requested snapshot: mode, and whether it is due now. -/
structure Dbg where
  watchOn : Bool
  watchPend : Bool
  counts : SMap Nat
  prevCond : Nat
  fired : Bool
  firedNow : Bool
  bap : BapWait
  onBank : Option Nat
  lockLanes : SMap Nat
  tapIr : Nat
  tapStatus : Nat
  tapData : Nat
  erasing : Bool
  snapPend : Option (Nat × Bool)
  deriving DecidableEq, Repr, Inhabited

/-- The device. `now` is device time in units of 2^-32 ns (spec/10 R265), `mono` the time since POR that no correction of device time touches. -/
structure Dev where
  part : Part
  now : Nat
  mono : Nat
  regs : SMap Nat
  latch : SMap Nat
  mirrorLatch : SMap Nat
  evRaised : SMap Nat
  evEnable : SMap Nat
  evRoute : SMap Nat
  arr : Arr
  tk : Seqr
  trc : Trc
  mg : Mgmt
  ld : Loader
  edge : Edge
  pins : Pins
  clk : Clock
  ports : SMap Port
  host : HostSt
  ddr : Ddr
  eng : Eng
  net : Net
  dbg : Dbg
  out : List Out
  freeCtr : Nat
  deriving DecidableEq, Repr, Inhabited

end Sys2Proof.Machine
end

