-- ==== Sys2Proof/Machine/Ops.lean ====
section
/-! DEFINITION. The named operations over the registers, memories and outputs of the device. -/

namespace Sys2Proof.Machine

/-! Registers (spec/00 R10). -/

/-- The value of a register field: what has been stored under its key, and its reset value where nothing is. -/
def Dev.rdAt (d : Dev) (r : Reg) (n k : Nat) : Nat := (SMap.look d.regs (r.key n k)).getD r.reset

/-- Storing a register field: the value is cut to the width of the field, and the reset value is not listed. -/
def Dev.wrAt (d : Dev) (r : Reg) (n k v : Nat) : Dev :=
  { d with regs := if v % 2 ^ r.width = r.reset then SMap.del d.regs (r.key n k)
                   else SMap.ins d.regs (r.key n k) (v % 2 ^ r.width) }

/-- A field of a page of which there is one. -/
def Dev.rd (d : Dev) (r : Reg) : Nat := d.rdAt r 0 0

/-- Storing a field of a page of which there is one. -/
def Dev.wr (d : Dev) (r : Reg) (v : Nat) : Dev := d.wrAt r 0 0 v

/-- A one-bit field as a truth value. -/
def Dev.on (d : Dev) (r : Reg) : Bool := d.rd r == 1

/-- A counter register that holds at its largest value. -/
def Dev.bumpAt (d : Dev) (r : Reg) (n k : Nat) : Dev := d.wrAt r n k (satAdd (d.rdAt r n k) 1 r.width)

/-- The same for a page of which there is one. -/
def Dev.bump (d : Dev) (r : Reg) : Dev := d.bumpAt r 0 0

/-- A counter of the counter pages: unit `u`, counter `k`, 48 bits, wrapping (spec/17 R464). -/
def Dev.count (d : Dev) (u k n : Nat) : Dev := d.wrAt R.CNT.LIVE u k (d.rdAt R.CNT.LIVE u k + n)

/-! Outputs and free values. -/

/-- Something leaves the block. -/
def Dev.emit (d : Dev) (o : Out) : Dev := { d with out := d.out ++ [o] }

/-- The next free value, cut to `w` bits, and the state in which it has been drawn. -/
def Dev.free (d : Dev) (w : Nat) : Nat × Dev := (Config.freeValue d.freeCtr % 2 ^ w, { d with freeCtr := d.freeCtr + 1 })

/-! The part (spec/00 R7, R11). -/

/-- The Boolean processors of the part. -/
def Dev.bps (d : Dev) : Nat := d.part.dies * 32768
/-- The G2 groups, and so the banks, of the part. -/
def Dev.g2s (d : Dev) : Nat := d.part.dies * 512
/-- The G4 groups, and so the far ports, of the part. -/
def Dev.g4s (d : Dev) : Nat := d.part.dies * 8

/-- The DIMMs of a channel of the board (spec/13 R345). -/
def Part.slots (p : Part) (c : Nat) : List Dimm := [SMap.get p.dimms (2 * c), SMap.get p.dimms (2 * c + 1)].filter fun m => decide (m.kind ≠ 0)
/-- The channels that have DIMMs. -/
def Part.dimmMask (p : Part) : Nat := (List.range 8).foldl (fun m c => if p.slots c = [] then m else m + 2 ^ c) 0
/-- Power domain `i` is that of a DDR5 channel without DIMMs, which stays powered down (spec/13 R346, spec/01 R37). -/
def Dev.emptyChannel (d : Dev) (i : Nat) : Bool := decide (0x48 ≤ i ∧ i < 0x50) && !isSet d.part.dimmMask (i - 0x48)

/-! Run state (spec/16 R409). -/

/-- RUN_STATUS.STATE. -/
def Dev.runState (d : Dev) : Nat := d.rd R.RUN.RUN_STATUS_STATE
/-- TAKE_STATUS.RUNNING: 1 in RUNNING and HALTING. -/
def Dev.running (d : Dev) : Bool := d.runState == 1 || d.runState == 2
/-- The load state of R199. -/
def Dev.loadState (d : Dev) : Nat := d.rd R.LOAD.LOAD_STATUS_STATE
/-- The device belongs to a reel set of more than one device. -/
def Dev.linked (d : Dev) : Bool := decide (d.ld.setSize > 1)
/-- The sequencer is frozen: the array rests, waits in a belay, or has just ended a pitch. -/
def Dev.frozen (d : Dev) : Bool := decide (d.tk.phase ≠ .stepping)
/-- The state of power domain `i`: 0 OFF, 1 STARTING, 2 ON, 3 STOPPING (spec/15 R396). -/
def Dev.domState (d : Dev) (i : Nat) : Nat := d.rdAt R.POWER.DOM_STATUS_STATE 0 i
/-- The position byte of the device: [5:3] G8, [2:0] G7. -/
def Dev.position (d : Dev) : Nat := d.rd R.LOAD.POSITION

/-! Time (spec/10 R265).  The unit is 2^-32 ns. -/

/-- Device time in the layout of a stamp: [63:32] nanoseconds, [31:0] fraction. -/
def Dev.stamp (d : Dev) : Nat := d.now % 2 ^ 64

/-- One microsecond. -/
def usec : Nat := 1000 * 2 ^ 32

/-- The step-clock period in device time times STEP_MHZ: ADDEND × 100 (R109). -/
def Dev.stepNum (d : Dev) : Nat := d.rd R.TIME.ADDEND * 100

/-- Whether a wait condition that the belay timer counts is unmet: WAIT_FAR, WAIT_LINK or WAIT_INJECT (R116). -/
def Dev.timerCounts (d : Dev) : Bool := decide (d.tk.phase = .waiting ∧ 2 ≤ d.tk.waits)

/-- Device time goes on by `dt` and no correction falls due; the belay timer (R116) and the take watchdog (R418) count with it.  While a negative offset is absorbed it goes on
at half its rate (spec/10 R274). -/
def Dev.elapse (d : Dev) (dt : Nat) : Dev :=
  { d with
    now := d.now + dt
    mono := d.mono + dt + min dt d.clk.slewLeft
    clk := { d.clk with slewLeft := d.clk.slewLeft - dt, jump := d.clk.jump.map fun j => { j with wait := j.wait - dt } }
    tk := { d.tk with
      waited := if d.timerCounts then d.tk.waited + dt else d.tk.waited
      farWaited := if d.tk.phase = .waiting ∧ isSet d.tk.waits 1 then d.tk.farWaited + dt else d.tk.farWaited
      wdLeft := if d.tk.wdOn && d.running then d.tk.wdLeft - dt else d.tk.wdLeft } }

/-- The correction `j` takes effect now (spec/10 R274, R275); what it does beyond device time comes after. -/
def Dev.makeJump (j : Jump) (d : Dev) : Dev :=
  let now := match j.kind with
    | .forward => d.now + j.size
    | .backward => d.now - j.size
    | .slew => d.now
  { d with now := now, clk := { d.clk with
      jump := none, jumped := some (d.mono, d.now, j)
      slewLeft := if j.kind = .slew then d.clk.slewLeft + j.size else d.clk.slewLeft
      epoch := if j.kind = .backward then now / 2 ^ 64 else d.clk.epoch } }

/-- Where a correction falls due within `dt`, device time goes on to its edge, and the correction is made. -/
def Dev.passJump (d : Dev) (dt : Nat) : Dev :=
  match d.clk.jump with
  | some j => if j.wait ≤ dt then (d.elapse j.wait).makeJump j else d
  | none => d

/-- The part of `dt` that comes after a correction. -/
def Dev.afterJump (d : Dev) (dt : Nat) : Nat :=
  match d.clk.jump with
  | some j => dt - (if j.wait ≤ dt then j.wait else 0)
  | none => dt

/-- The time `dt` passes. -/
def Dev.advance (d : Dev) (dt : Nat) : Dev := (d.passJump dt).elapse (d.afterJump dt)

/-- The time from now to the stamp `t`, when it lies ahead: in the coming half of the range of a stamp, which wraps (spec/10 R268). -/
def Dev.timeTo (d : Dev) (t : Nat) : Nat :=
  let dt := (2 ^ 64 + t % 2 ^ 64 - d.stamp) % 2 ^ 64
  if dt < 2 ^ 63 then dt else 0

/-! The edges of REFCLK_100 (spec/10 R265): one in each ADDEND of the clock `mono`. -/

/-- The time since the last edge of REFCLK_100. -/
def Dev.sinceRef (d : Dev) : Nat := (d.mono - d.clk.refAt) % max 1 (d.rd R.TIME.ADDEND)

/-- The number of the last edge. -/
def Dev.refEdges (d : Dev) : Nat := d.clk.refNo + (d.mono - d.clk.refAt) / max 1 (d.rd R.TIME.ADDEND)

/-- The number of the first edge at or after now. -/
def Dev.nextRefEdge (d : Dev) : Nat := if d.sinceRef = 0 then d.refEdges else d.refEdges + 1

/-- The instant of the first edge at or after `m` on the clock `mono`. -/
def Dev.refEdgeAt (d : Dev) (m : Nat) : Nat :=
  let a := max 1 (d.rd R.TIME.ADDEND)
  d.clk.refAt + (m - d.clk.refAt + a - 1) / a * a

/-- ADDEND changes: the edges before now stand, the next one comes at the new ADDEND after the last. -/
def Dev.setAddend (v : Nat) (d : Dev) : Dev :=
  { d with clk := { d.clk with refAt := d.mono - d.sinceRef, refNo := d.refEdges } }.wr R.TIME.ADDEND v

/-- Device time as its registers show it: as it stood at the last edge of REFCLK_100. -/
def Dev.timeShown (d : Dev) : Nat :=
  let since := if d.clk.slewLeft = 0 then d.sinceRef else d.sinceRef / 2
  (2 ^ 64 + d.now - since) % 2 ^ 64

/-- Device time reaches the stamp `t` of an event; a stamp already passed changes nothing. -/
def Dev.toTime (d : Dev) (t : Nat) : Dev :=
  let d1 := d.passJump (d.timeTo t)
  d1.elapse (d1.timeTo t)

/-- The instant of a stamp `t` of the last or the coming half range, on the clock `now`, which does not wrap. -/
def Dev.instantOf (d : Dev) (t : Nat) : Nat :=
  let dt := (2 ^ 64 + t % 2 ^ 64 - d.stamp) % 2 ^ 64
  if dt < 2 ^ 63 then d.now + dt else d.now + dt - 2 ^ 64

/-- A span of the clock `mono` from now as device time, which goes on at half its rate while a negative offset is absorbed (R274). -/
def Dev.spanOf (d : Dev) (x : Nat) : Nat := x - min (x / 2) d.clk.slewLeft

/-- Device time at the instant `m` of the clock `mono`, on the clock `now`, at the rate of now. -/
def Dev.stampAt (d : Dev) (m : Nat) : Nat :=
  if d.mono ≤ m then d.now + d.spanOf (m - d.mono) else d.now - (if d.clk.slewLeft = 0 then d.mono - m else (d.mono - m) / 2)

/-- The instant on the clock `mono` of an instant `x` of the clock `now`. -/
def Dev.monoAt (d : Dev) (x : Nat) : Nat :=
  if d.now ≤ x then d.mono + (x - d.now) + min (x - d.now) d.clk.slewLeft else d.mono - (if d.clk.slewLeft = 0 then d.now - x else 2 * (d.now - x))

/-! The time-base clock (R266, R267): 400 MHz, four edges in each period of REFCLK_100, the first of them on its edge (log 3). -/

/-- The instant on `mono` of the time-base clock edge `n` cycles after the first one at or after `m`. -/
def Dev.tbEdge (d : Dev) (m n : Nat) : Nat :=
  let a := max 1 (d.rd R.TIME.ADDEND)
  let r := (m + (d.clk.refAt / a + 1) * a - d.clk.refAt) % a
  let k := (r * 4 + a - 1) / a + n
  m - r + k / 4 * a + a * (k % 4) / 4

/-- The time-base clock edge that is now, or the next one. -/
def Dev.tbNow (d : Dev) : Nat := d.tbEdge d.mono 0

/-- The edge at which the qualified level of an input follows a pad that has stood at its level since the stamp `since` (R267): the synchroniser takes it at the first edge, and two
stages and FILTER + 1 cycles later the filter gives it out. -/
def Dev.qualified (d : Dev) (filter since : Nat) : Nat :=
  d.tbEdge (d.monoAt (d.instantOf since)) (filter + 3)

/-- The time to the next edge of the step clock (R266): edge k lies k × 100 / STEP_MHZ reference periods after edge 0 of REFCLK_100, i / STEP_MHZ of the way
through its period, and is stamped with ADDEND × i / STEP_MHZ rounded down.  DESIGN CHOICE (log 3): the fixed phase relation of R266 is that the two clocks
share edge 0. -/
def Dev.toStepEdge (d : Dev) : Nat :=
  let a := max 1 (d.rd R.TIME.ADDEND)
  let f := max 1 (d.rd R.CLK.STEP_MHZ)
  let k := (d.refEdges * f + ((d.sinceRef + 1) * f + a - 1) / a + 99) / 100
  (k * 100 / f - d.refEdges) * a + a * (k * 100 % f) / f - d.sinceRef

/-- The same in device time. -/
def Dev.stepPeriod (d : Dev) : Nat := d.spanOf d.toStepEdge

/-- The step clock reaches its next edge. -/
def Dev.cycle (d : Dev) : Dev := d.advance d.stepPeriod

/-- A span of the clock `mono` in step-clock cycles. -/
def Dev.cyclesIn (d : Dev) (x : Nat) : Nat := (2 * x * d.rd R.CLK.STEP_MHZ + d.stepNum) / (2 * max 1 d.stepNum)

/-! Lists of things to do. -/

/-- `f` for every number below `n`, in ascending order. -/
def forUpto {α : Type} (n : Nat) (f : Nat → α → α) (a : α) : α := (List.range n).foldl (fun x i => f i x) a

/-- `f` for every element of a list, in order. -/
def forAll {α β : Type} (l : List β) (f : β → α → α) (a : α) : α := l.foldl (fun x b => f b x) a

/-- `f` where the condition holds. -/
def Dev.when (d : Dev) (c : Bool) (f : Dev → Dev) : Dev := if c then f d else d

/-! Register pairs that a write of the high word commits. -/

/-- The low word of a register pair whose high word commits it, where it has been written since the last commit: kept beside the read latches, by
the bit address of the register, plus one. -/
def Dev.stagedLow (d : Dev) (key now : Nat) : Nat := (SMap.look d.latch (2 ^ 40 + key)).getD (now % 2 ^ 32 + 1) - 1

/-- The low word of such a pair is written. -/
def Dev.stageLow (key v : Nat) (d : Dev) : Dev := { d with latch := SMap.set d.latch (2 ^ 40 + key) (v % 2 ^ 32 + 1) }

/-- The pair is committed. -/
def Dev.unstage (key : Nat) (d : Dev) : Dev := { d with latch := SMap.del d.latch (2 ^ 40 + key) }

end Sys2Proof.Machine
end

