-- ==== Sys2Proof/Machine/Stream.lean ====
section
/-! DEFINITION. The Dunhus stream of the trace unit (spec/17 R449 to R457): how packets are laid out and enter the
buffer.  What each event writes stands with the event. -/

namespace Sys2Proof.Machine

/-- The hub buffer of the trace unit, 1 MiB (R457). -/
def traceBufferSize : Nat := 0x100000

/-- A varint: 7-bit groups, least significant first, bit 7 set in every byte but the last (R449). -/
def varint (n : Nat) : Nat → Bytes
  | 0 => [BitVec.ofNat 8 (n % 128)]
  | fuel + 1 => if n < 128 then [BitVec.ofNat 8 n] else BitVec.ofNat 8 (128 + n % 128) :: varint (n / 128) fuel

/-- A varint of at most 64 bits. -/
def varint64 (n : Nat) : Bytes := varint n 9

/-- The header byte of a packet. -/
def packetHead (ty flags : Nat) : Byte := BitVec.ofNat 8 (ty * 16 + flags)

/-- The trace unit is ON and writes packets (R462, R463). -/
def Dev.tracing (d : Dev) : Bool := d.on R.TRACE.TRACE_STATUS_RUNNING && !d.on R.TRACE.TRACE_STATUS_POWER_STOPPED

/-- Bytes enter the stream. -/
def Dev.streamOut (d : Dev) (bs : Bytes) : Dev :=
  ({ d with trc := { d.trc with
      buf := d.trc.buf ++ bs
      off := d.trc.off + bs.length
      sinceCairn := d.trc.sinceCairn + bs.length } }).count 0xB4 0 bs.length

/-- Whether `n` bytes fit the buffer. -/
def Dev.traceFits (d : Dev) (n : Nat) : Bool :=
  decide (d.trc.buf.length + n ≤ traceBufferSize) && !d.on R.TRACE.TRACE_STATUS_OVERFLOWING

/-- A packet of an event other than a take boundary: written if it fits, counted as lost otherwise (R457). -/
def Dev.tracePacket (d : Dev) (bs : Bytes) : Dev :=
  if d.tracing then
    if d.traceFits bs.length then (d.streamOut bs).count 0xB4 4 1
    else ({ d with trc := { d.trc with lostOther := d.trc.lostOther + 1 } }.wr R.TRACE.TRACE_STATUS_OVERFLOWING 1).count 0xB4 5 1
  else d

/-- The 32 bytes of a fault record (spec/06 R173). -/
def FRec.bytes (r : FRec) : Bytes :=
  leBytes r.code 1 ++
  leBytes (r.sev % 8 + r.safety % 2 * 8 + r.logged % 2 * 16 + r.noStep % 2 * 32) 1 ++
  leBytes (r.locKind % 16) 1 ++ leBytes (r.position % 64) 1 ++ leBytes r.location 4 ++
  leBytes (r.step % 2 ^ 11 + r.pitch % 16 * 2 ^ 11 + r.atBelay % 2 * 2 ^ 15) 2 ++
  leBytes r.take 6 ++ leBytes r.time 8 ++ leBytes r.detail 8

/-- FAULT packet (R449). -/
def Dev.traceFault (d : Dev) (r : FRec) : Dev := d.tracePacket (packetHead 0xA 0 :: r.bytes)

/-- HALT packet: the take at which the array rests, the cause, the position of the originating device (R449). -/
def Dev.traceHalt (d : Dev) (origin : Nat) : Dev :=
  d.tracePacket (packetHead 0x8 0 :: (leBytes (d.rd R.TAKE.TAKE_NUMBER) 6 ++
    leBytes (d.rd R.RUN.RUN_STATUS_HALT_CAUSE) 1 ++ leBytes origin 1 ++ leBytes d.stamp 8))

/-- BREAK packet (R449). -/
def Dev.traceBreak (d : Dev) : Dev :=
  d.tracePacket (packetHead 0x9 0 :: (leBytes (d.rd R.WATCH.BREAK_TAKE) 6 ++ leBytes (d.rd R.WATCH.BREAK_STEP) 2 ++
    leBytes (d.rd R.WATCH.WATCH_STATUS_BREAK_COMP) 1 ++ leBytes d.stamp 8))

/-- LINK packet, written only while LINK_EN is 1 (R456). -/
def Dev.traceLink (d : Dev) (port state : Nat) : Dev :=
  if d.on R.TRACE.TRACE_CTRL_LINK_EN then
    d.tracePacket (packetHead 0xB 0 :: (leBytes port 1 ++ leBytes state 1 ++ leBytes d.stamp 8))
  else d

/-- WRAP packet (R449, R268). -/
def Dev.traceWrap (d : Dev) : Dev := d.tracePacket (packetHead 0x7 0 :: leBytes (d.rd R.TIME.WRAPS) 4)

/-- POWER packet: state, EXIT and EMULATED flags (R449, R463). -/
def Dev.tracePower (d : Dev) (state exit emulated : Nat) : Dev :=
  d.tracePacket (packetHead 0x6 (exit + 2 * emulated) :: (leBytes state 1 ++ leBytes d.stamp 8))

/-- TS packet: stamp, TAKE_NUMBER, WRAPS (R449).  TAKE_NUMBER has 48 bits. -/
def Dev.tsBytes (d : Dev) : Bytes :=
  packetHead 0x2 0 :: (leBytes d.stamp 8 ++ leBytes (d.rd R.TAKE.TAKE_NUMBER) 6 ++ leBytes (d.rd R.TIME.WRAPS) 4)

/-- The number of enabled fields (R447). -/
def Dev.traceFields (d : Dev) : List Nat := (List.range 16).filter fun f => d.rdAt R.TRACE.FIELD_CFG_ENABLE 0 f == 1

/-- Whether probe lane `j` belongs to an enabled field. -/
def Dev.inField (d : Dev) (j : Nat) : Bool :=
  d.traceFields.any fun f =>
    decide (d.rdAt R.TRACE.FIELD_CFG_BASE 0 f ≤ j ∧ j < d.rdAt R.TRACE.FIELD_CFG_BASE 0 f + d.rdAt R.TRACE.FIELD_CFG_WIDTH 0 f)

/-- The lanes of the capture vector, ascending (R447): every selected lane that belongs to no enabled field. -/
def Dev.captureLanes (d : Dev) : List Nat :=
  d.trc.capMask.flatMap fun e => ((setBits e.2 64).map fun i => 64 * e.1 + i).filter fun j => !d.inField j

/-- V, the length of the capture vector in bytes (R447). -/
def Dev.captureLen (d : Dev) : Nat := (d.captureLanes.length + 7) / 8

/-- A cairn (R453), with the fill that brings it to a multiple of 64 bytes of the stream (R454). -/
def Dev.cairnBytes (d : Dev) (offset nextTake : Nat) : Bytes :=
  List.replicate ((64 - offset % 64) % 64) 0 ++
  ([0x40, 0x44, 0x55, 0x4E, 0x48, 0x55, 0x53, 0x21] ++ leBytes nextTake 6 ++ leBytes d.captureLen 2 ++ leBytes d.stamp 8 ++
    leBytes (d.rd R.TIME.WRAPS) 4 ++ leBytes d.traceFields.length 1 ++
    leBytes (d.rd R.TRACE.TRACE_CTRL_TS_EN + 2 * d.rd R.TRACE.TRACE_CTRL_TD_EN) 1 ++ leBytes d.position 1 ++
    leBytes (d.rd R.TRACE.TRACE_STATUS_CFG_SEQ) 1)

/-- What a cairn resets: the next TAKE packet is a KEY packet, and every field starts from 0 (R450, R452). -/
def Dev.afterCairn (d : Dev) : Dev :=
  ({ d with trc := { d.trc with sinceCairn := 0, key := true, lastField := [], needCairn := false, gap := false } }).count 0xB4 3 1

/-- The trace unit writes a cairn now, if it fits. -/
def Dev.traceCairn (d : Dev) (nextTake : Nat) : Dev :=
  let bs := d.cairnBytes d.trc.off nextTake
  if d.tracing && d.traceFits bs.length then (d.streamOut bs).afterCairn
  else { d with trc := { d.trc with needCairn := true } }

/-- The current line is padded with fill (spec/17 R459). -/
def Dev.tracePad (d : Dev) : Dev :=
  let n := (64 - d.trc.off % 64) % 64
  if n = 0 then d else d.streamOut (List.replicate n 0)

/-- FLUSH (spec/17 R459): the current line is padded; the sink takes it. -/
def Dev.traceFlush (d : Dev) : Dev := { d.tracePad with trc := { d.tracePad.trc with wbDue := true } }

/-- The trace unit writes a TS packet now; one that does not fit is lost, and the last one written stays the reference (R455). -/
def Dev.traceTs (d : Dev) : Dev :=
  let d1 := d.tracePacket d.tsBytes
  if d.tracing && d.traceFits d.tsBytes.length then
    { d1 with trc := { d1.trc with lastTs := d.stamp, lastTime := d.stamp, lastTake := d.rd R.TAKE.TAKE_NUMBER } }
  else d1

end Sys2Proof.Machine
end

