-- ==== Sys2Proof/Machine/Banks.lean ====
section
/-! DEFINITION. The G2 banks (spec/05 R126 to R136): words and aspects, joined pairs, the array cycle, ownership. -/

namespace Sys2Proof.Machine

/-- The bank page that governs G2 `g`: the lower page of a joined pair (R131). -/
def Dev.bankPage (d : Dev) (g : Nat) : Nat :=
  if g % 2 = 1 ∧ d.rdAt R.BANK.BANK_CTRL_JOIN (g - 1) 0 = 1 then g - 1 else g

/-- G2 `g` is part of a joined pair (R129). -/
def Dev.joined (d : Dev) (g : Nat) : Bool := d.rdAt R.BANK.BANK_CTRL_JOIN (d.bankPage g) 0 == 1

/-- The data bits of an aspect code (R127). -/
def aspectBits (code : Nat) : Nat := 8 * 2 ^ code

/-- The address bits that an access uses (R127). -/
def aspectAddrBits (code : Nat) (join : Bool) : Nat := 16 - code + bit join

/-- The word address that an access of G2 `g` uses. -/
def Dev.bankWord (d : Dev) (g addr : Nat) : Nat :=
  addr % 2 ^ aspectAddrBits (d.rdAt R.BANK.BANK_CTRL_ASPECT (d.bankPage g) 0) (d.joined g)

/-- The byte address of a word of the bank of G2 `g`, in the store of all banks (64 KiB each, R126, R129). -/
def Dev.bankByte (d : Dev) (g addr : Nat) : Nat :=
  let code := d.rdAt R.BANK.BANK_CTRL_ASPECT (d.bankPage g) 0
  d.bankPage g * 0x10000 + d.bankWord g addr * (aspectBits code / 8)

/-- Reading a word of the bank (R126). -/
def Dev.bankRead (d : Dev) (g addr : Nat) : Nat :=
  leNat (SMap.bytes d.arr.banks (d.bankByte g addr) (aspectBits (d.rdAt R.BANK.BANK_CTRL_ASPECT (d.bankPage g) 0) / 8))

/-- Writing a word of the bank: bits [w − 1:0] of the data (R127). -/
def Dev.bankWrite (d : Dev) (g addr data : Nat) : Dev :=
  let bs := leBytes data (aspectBits (d.rdAt R.BANK.BANK_CTRL_ASPECT (d.bankPage g) 0) / 8)
  { d with arr := { d.arr with banks := SMap.store d.arr.banks (d.bankByte g addr) bs } }

/-- Owner in effect of the bank of G2 `g`: 0 ARRAY, 1 ENGINE, 2 DEBUG (R133). -/
def Dev.bankOwner (d : Dev) (g : Nat) : Nat := d.rdAt R.BANK.BANK_STATUS_OWNER_NOW (d.bankPage g) 0

/-- A read samples the word as it stands before any write of the array cycle (R128). -/
def Dev.accRead (key : Nat) (d : Dev) : Dev :=
  match SMap.look d.arr.acc key with
  | none => d
  | some a =>
    if a.done ∨ a.write = 1 then d
    else { d with arr := { d.arr with acc := SMap.ins d.arr.acc key { a with done := true, word := some (d.bankRead (key / 2) a.addr) } } }

/-- A write takes effect at the end of the array cycle (R128); in a joined bank the write of the upper G2 to the word that
the lower G2 writes in the same cycle is dropped, its COLL_B reads 1 two steps after its start, and DROP_COUNT of the
governing page rises (R132). -/
def Dev.accWrite (key : Nat) (d : Dev) : Dev :=
  match SMap.look d.arr.acc key with
  | none => d
  | some a =>
    if a.done ∨ a.write = 0 then d
    else
      let g := key / 2
      let d1 := { d with arr := { d.arr with acc := SMap.ins d.arr.acc key { a with done := true } } }
      match (if d.joined g ∧ g % 2 = 1 then SMap.look d.arr.acc ((g - 1) * 2) else none) with
      | some l =>
        if l.write = 1 ∧ l.seq = a.seq ∧ d.bankWord g l.addr = d.bankWord g a.addr then
          Dev.bumpAt { d1 with arr := { d1.arr with coll := SMap.set d1.arr.coll key (a.seq + 3) } } R.BANK.DROP_COUNT (g - 1) 0
        else d1.bankWrite g a.addr a.wdata
      | none => d1.bankWrite g a.addr a.wdata

/-- The array cycle of the bank that G2 `g` belongs to: every access started and not yet made, reads before writes.  A
joined pair has one bank, so both G2s take part. -/
def Dev.bankCycle (g : Nat) (d : Dev) : Dev :=
  let ks := if d.joined g then [d.bankPage g * 2, d.bankPage g * 2 + 1, d.bankPage g * 2 + 2, d.bankPage g * 2 + 3] else [g * 2, g * 2 + 1]
  forAll ks Dev.accWrite (forAll ks Dev.accRead d)

/-- The array cycle of every bank. -/
def Dev.bankCycles (d : Dev) : Dev := forAll (d.arr.acc.map fun e => e.1 / 2) Dev.bankCycle d

/-- Read data whose array cycle has been made come to stand in the read-data register; the bits above the word are 0
(R51, R127, R128). -/
def Dev.deliverReads (d : Dev) : Dev :=
  { d with arr := { d.arr with
      portRd := d.arr.acc.foldl (fun m e => match e.2.word with | some w => SMap.set m e.1 w | none => m) d.arr.portRd
      acc := d.arr.acc.map fun e => (e.1, { e.2 with word := none }) } }

/-- Accesses that no longer hold their port: those that the step before the last one, or an earlier one, started. -/
def Dev.retireAccesses (d : Dev) : Dev :=
  { d with arr := { d.arr with acc := d.arr.acc.filter fun e => decide (d.tk.seq ≤ e.2.seq + 1) || !e.2.done } }

/-- The design leaves a port of the bank of page `g` idle in this array cycle: no access started on it waits for its array cycle.  In a joined pair port B of the lower G2
and port A of the upper one are always idle (R134). -/
def Dev.bankFree (d : Dev) (g : Nat) : Bool :=
  d.joined g || [2 * g, 2 * g + 1].any fun k => (SMap.look d.arr.acc k).all (·.done)

/-- An owner change that waits takes effect for the bank of page `g` (R136). -/
def Dev.handover (g : Nat) (d : Dev) : Dev :=
  if d.rdAt R.BANK.BANK_STATUS_HANDOVER_PENDING g 0 = 1 then
    (d.wrAt R.BANK.BANK_STATUS_OWNER_NOW g 0 (d.rdAt R.BANK.BANK_CTRL_OWNER g 0)).wrAt R.BANK.BANK_STATUS_HANDOVER_PENDING g 0 0
  else d

/-- Whether the background access port has an access in progress on the bank of page `g` (R136). -/
def Dev.bapOnBank (d : Dev) (g : Nat) : Bool := decide (d.dbg.onBank = some g)

/-- Whether a running work item of an engine addresses the bank of page `g`: the bank region of the array space. -/
def Dev.itemOnBank (d : Dev) (g : Nat) : Bool := d.eng.items.any fun it => decide (it.stand = .running) && it.banks.contains g

/-- The bank pages on which an owner change waits. -/
def Dev.pendingHandovers (d : Dev) : List Nat :=
  let k0 := R.BANK.BANK_STATUS_HANDOVER_PENDING.key 0 0
  d.regs.filterMap fun e =>
    if k0 ≤ e.1 ∧ (e.1 - k0) % 0x8000 = 0 ∧ (e.1 - k0) / 0x8000 < d.g2s ∧ e.2 = 1 then some ((e.1 - k0) / 0x8000) else none

/-- An access of the old owner of the bank of page `g` is in progress, which a change away from ENGINE or DEBUG waits for (R136). -/
def Dev.ownerBusy (d : Dev) (g : Nat) : Bool :=
  match d.bankOwner g with
  | 0 => false
  | 1 => d.itemOnBank g
  | _ => d.bapOnBank g

/-- Every owner change that waits and that no access of the old owner holds back takes effect (R136). -/
def Dev.handovers (d : Dev) : Dev := forAll d.pendingHandovers (fun g d => if d.ownerBusy g then d else d.handover g) d

/-- The same with the array stopped, at the end of an access. -/
def Dev.idleHandovers (d : Dev) : Dev := if d.running then d else d.handovers

end Sys2Proof.Machine
end

