-- ==== Sys2Proof/Machine/Flags.lean ====
section
/-! DEFINITION. Events, fault records and safe state: the flags that every block raises (spec/19 R501 to R510, spec/06
R173 to R175, spec/18 R477 to R484), and the array fault stop of spec/02 R67 from its step 2 on. -/

namespace Sys2Proof.Machine

/-! Registers of the common header (spec/19 R495), by page number: PF0 BAR0 offset / 0x1000. -/

def R.HDR.PAGE_LOCK_OPEN : Reg := ⟨0, 0x00C, 0, 1, 16, 1, .ro, 0⟩
def R.HDR.CTRL_EV_MASK : Reg := ⟨0, 0x010, 0, 1, 0, 1, .rw, 0⟩
def R.HDR.STATUS_ROUTE_REFUSED : Reg := ⟨0, 0x014, 0, 1, 2, 1, .w1c, 0⟩
def R.HDR.EV_ROUTE_LOCAL : Reg := ⟨0, 0x024, 0, 1, 0, 5, .rw, 0⟩

/-! Event numbers (spec/19 R509, R510). -/

/-- The page number of the MBOX page, which lies in PF1. -/
def mboxPage : Nat := 0x100000

/-- The page that owns a source and the local bit that shows it (R509); none where no header shows it. -/
def evOwner (src : Nat) : Option (Nat × Nat) :=
  if src ≤ 2 then some (0x12, src)
  else if 0x040 ≤ src ∧ src < 0x080 then some (0x440 + (src - 0x040), 0)
  else if 0x080 ≤ src ∧ src < 0x0C0 then some (0x440 + (src - 0x080), 1)
  else if 0x200 ≤ src ∧ src ≤ 0x203 then some (0x14, src - 0x200)
  else if 0x240 ≤ src ∧ src ≤ 0x244 then some (0x300, src - 0x240)
  else if 0x260 ≤ src ∧ src < 0x270 then some (0x310 + (src - 0x260), 0)
  else if 0x400 ≤ src ∧ src ≤ 0x402 then some (0xD, src - 0x400)
  else if 0x408 ≤ src ∧ src ≤ 0x413 then some (0xE + (src - 0x408) % 4, (src - 0x408) / 4)
  else if 0x420 ≤ src ∧ src < 0x430 then some (0xD, 3 + (src - 0x420))
  else if 0x480 ≤ src ∧ src < 0x490 then some (0x209 + (src - 0x480) % 8, (src - 0x480) / 8)
  else if src = 0x500 then some (0x100, 0)
  else if src = 0x501 then some (0x101, 0)
  else if src = 0x502 then some (0x102, 0)
  else if src = 0x510 then some (0x200, 0)
  else if 0x518 ≤ src ∧ src < 0x528 then some (0x201 + (src - 0x518) % 8, (src - 0x518) / 8)
  else if 0x600 ≤ src ∧ src < 0x680 then some (0x108 + (src - 0x600) % 64, (src - 0x600) / 64)
  else if 0x680 ≤ src ∧ src ≤ 0x683 then some (0x104, src - 0x680)
  else if src = 0x700 ∨ src = 0x701 then some (0x103, src - 0x700)
  else if src = 0x710 ∨ src = 0x711 then some (0xC, src - 0x710)
  else if 0x720 ≤ src ∧ src ≤ 0x722 then some (0xC, 2 + (src - 0x720))
  else if 0x780 ≤ src ∧ src ≤ 0x782 then some (0x211, src - 0x780)
  else if src = 0x790 then some (0x212, 0)
  else if 0x7A0 ≤ src ∧ src ≤ 0x7A2 then some (0x15, src - 0x7A0)
  else if src = 0x7A6 then some (0x15, 3)
  else if 0x7A3 ≤ src ∧ src ≤ 0x7A5 then some (0x16, src - 0x7A3)
  else if 0x7C0 ≤ src ∧ src ≤ 0x7C6 then some (0xA, src - 0x7C0)
  else if src = 0x7C8 then some (mboxPage, 0)
  else if src = 0x7C9 then some (0xB, 0)
  else none

/-- The fault event of a fault code (R510); EVENT_ROUTED has none. -/
def faultEvent (code : Nat) : Option Nat :=
  if 0x10 ≤ code ∧ code ≤ 0x23 then some code
  else if 0x40 ≤ code ∧ code ≤ 0x4A then some (0x210 + (code - 0x40))
  else if 0x60 ≤ code ∧ code ≤ 0x65 then some (0x4F0 + (code - 0x60))
  else if code = 0x70 ∨ code = 0x71 then some (0x470 + (code - 0x70))
  else if 0x80 ≤ code ∧ code ≤ 0x88 then some (0x7E0 + (code - 0x80))
  else if code = 0xA0 ∨ code = 0xA1 then some (0x770 + (code - 0xA0))
  else if 0xA2 ≤ code ∧ code ≤ 0xA4 then some (0x5F2 + (code - 0xA2))
  else if code = 0xA5 then some 0x6F5
  else if code = 0xA6 then some 0x5F6
  else none

/-- Whether the tables of R509 and R510 assign the number `src`; the others are reserved. -/
def evAssigned (src : Nat) : Bool :=
  (evOwner src).isSome || decide (0x300 ≤ src ∧ src < 0x400) || decide (0x430 ≤ src ∧ src < 0x440) ||
  decide (0x010 ≤ src ∧ src ≤ 0x023) || decide (0x210 ≤ src ∧ src ≤ 0x21A) || decide (0x4F0 ≤ src ∧ src ≤ 0x4F5) ||
  decide (0x470 ≤ src ∧ src ≤ 0x471) || decide (0x7E0 ≤ src ∧ src ≤ 0x7E8) || decide (0x770 ≤ src ∧ src ≤ 0x771) ||
  decide (0x5F2 ≤ src ∧ src ≤ 0x5F4) || decide (src = 0x6F5) || decide (src = 0x5F6)

/-- The page number that a record of EVENT_ROUTED or a note names: the owning page, or the EVT page of the source where no
header shows it.  DEDUCED: the spec names no page for such a source; the EVT page holds it. -/
def evPage (src : Nat) : Nat := ((evOwner src).map (·.1)).getD (1 + src / 512)

/-- Page type and instance of a page number as LOCATION of LOC_KIND UNIT holds them (R174, R499). -/
def unitLoc (page : Nat) : Nat :=
  let at' (ty base : Nat) : Nat := ty * 0x10000 + (page - base)
  if page = 0 then 0x10000
  else if page < 8 then at' 0x0002 1
  else if page = 0x8 then at' 0x0010 0x8 else if page = 0x9 then at' 0x0011 0x9 else if page = 0xA then at' 0x0012 0xA
  else if page = 0xB then at' 0x0013 0xB else if page = 0xC then at' 0x0014 0xC else if page = 0xD then at' 0x0015 0xD
  else if page < 0x12 then at' 0x0016 0xE
  else if page = 0x12 then at' 0x0020 0x12 else if page = 0x13 then at' 0x0021 0x13 else if page = 0x14 then at' 0x0022 0x14
  else if page = 0x15 then at' 0x0023 0x15 else if page = 0x16 then at' 0x0024 0x16 else if page = 0x17 then at' 0x0025 0x17
  else if page = 0x100 then at' 0x0030 0x100 else if page = 0x101 then at' 0x0031 0x101
  else if page = 0x102 then at' 0x0032 0x102 else if page = 0x103 then at' 0x0033 0x103
  else if page = 0x104 then at' 0x0034 0x104 else if page < 0x148 then at' 0x0035 0x108
  else if page = 0x200 then at' 0x0040 0x200 else if page < 0x209 then at' 0x0041 0x201
  else if page < 0x211 then at' 0x0042 0x209 else if page = 0x211 then at' 0x0043 0x211
  else if page = 0x212 then at' 0x0044 0x212 else if page < 0x2D5 then at' 0x0045 0x220
  else if page = 0x300 then at' 0x0050 0x300 else if page < 0x30B then at' 0x0051 0x301
  else if page < 0x320 then at' 0x0052 0x310 else if page < 0x440 then at' 0x0060 0x400
  else if page < 0x480 then 0x0061 * 0x10000 + 0x4000 + (page - 0x440)
  else if page < 0x490 then 0x0061 * 0x10000 + 0x5000 + (page - 0x480)
  else if page = 0x490 then 0x0061 * 0x10000 + 0x6000
  else if page < 0x2000 then at' 0x0070 0x1000
  else 0x0080 * 0x10000

/-! Event sources (R501 to R506). -/

/-- RAISED of a source. -/
def Dev.raised (d : Dev) (src : Nat) : Bool := SMap.get d.evRaised src == 1
/-- ENABLE of a source. -/
def Dev.enabled (d : Dev) (src : Nat) : Bool := SMap.get d.evEnable src == 1
/-- The route entry of a source (R503). -/
def Dev.route (d : Dev) (src : Nat) : Nat := SMap.get d.evRoute src
/-- EV_MASK of the page that owns a source; 0 where none does. -/
def Dev.evMasked (d : Dev) (src : Nat) : Bool :=
  match evOwner src with
  | some (p, _) => d.rdAt R.HDR.CTRL_EV_MASK p 0 == 1
  | none => false

/-- The MSI-X message of a route: sent, held pending while the vector is masked, or not sent while MSI-X is disabled
(R326, R327, R504). -/
def Dev.sendMsix (route : Nat) (d : Dev) : Dev :=
  let func := bitAt route 11
  let v := func * 4096 + route % 2048
  if SMap.get d.host.msixEnable func = 0 then d
  else if SMap.get d.host.msixUnmask v = 1 then
    (d.emit (.msix func (route % 2048) (SMap.get d.host.msixAddr v) (SMap.get d.host.msixData v))).count 0xB0 9 1
  else { d with host := { d.host with msixPend := SMap.set d.host.msixPend v 1 } }

/-- RAISED becomes 1; a change from 0 sends the MSI-X message (R501, R502, R504). -/
def Dev.flagEvent (src : Nat) (d : Dev) : Dev :=
  let d1 := { d with evRaised := SMap.set d.evRaised src 1 }
  if !d.raised src && d.enabled src && isSet (d.route src) 12 && !d.evMasked src then d1.sendMsix (d.route src) else d1

/-- A fault record with the step fields of the sequencer, or none of them (R173). -/
def Dev.record (d : Dev) (code sev locKind location detail noStep : Nat) : FRec :=
  { code := code, sev := sev, safety := 0, logged := 0, noStep := noStep, locKind := locKind, position := d.position,
    location := location
    step := if noStep = 1 then 0 else d.tk.step
    pitch := if noStep = 1 then 0 else d.tk.belay
    atBelay := if noStep = 1 then 0 else bit d.frozen
    take := d.rd R.TAKE.TAKE_NUMBER, time := d.stamp, detail := detail }

/-- The note record of an event with TRACE = 1 (R506). -/
def Dev.noteEvent (src : Nat) (d : Dev) : Dev :=
  if isSet (d.route src) 13 && d.enabled src && !d.evMasked src then
    d.traceFault (d.record 0x00 0 0x5 (unitLoc (evPage src)) src 1)
  else d

/-- A raise of a source without its safety route. -/
def Dev.plainEvent (src : Nat) (d : Dev) : Dev := (d.flagEvent src).noteEvent src

/-! The volatile ring and the safety log (spec/18 R477 to R479). -/

/-- Records written to MRAM in the second before now (R478), on the management clock. -/
def Dev.logCount (d : Dev) : Nat := (d.mg.logTimes.filter fun t => decide (d.mono < t + 1000000 * usec)).length

/-- A record enters the ring and, if it is of SEVERITY SAFETY or a boot fault, the MRAM log, unless 64 records have been
written in the last second (R478, R479).  The answer is the record as written, and whether MRAM suppressed it. -/
def Dev.writeRecord (d : Dev) (r : FRec) : FRec × Bool × Dev :=
  let want := r.sev == 4 || r.code == 0x49 || r.code == 0x4A
  let room := decide (d.logCount < 64)
  let r1 := { r with logged := bit (want && room) }
  let wr := d.rd R.SAFETY.RING_WR
  let d1 := { d with mg := { d.mg with ring := SMap.set d.mg.ring (wr % 256) r1 } }.wr R.SAFETY.RING_WR (wr + 1)
  if want && room then
    let q := (SMap.get d.mg.seqs 1024) + 1
    let d2 := { d1 with mg := { d1.mg with
      slots := SMap.set d1.mg.slots (q % 1024) r1
      seqs := SMap.set (SMap.set d1.mg.seqs (q % 1024) q) 1024 q
      logTimes := d.mono :: d1.mg.logTimes.filter fun t => decide (d.mono < t + 1000000 * usec) } }
    (r1, false, d2.wr R.SAFETY.LOG_SEQ q)
  else if want then (r1, true, d1.bump R.SAFETY.LOG_SUPPRESSED)
  else (r1, false, d1)

/-- The record of an event routed to the safety monitor (R505); a suppressed record of EV_LOG_SUPPRESSED itself raises
nothing (R478). -/
def Dev.routedRecord (src : Nat) (d : Dev) : Dev :=
  let r := { d.record 0x01 4 0x5 (unitLoc (evPage src)) src 1 with safety := 1 }
  let w := d.writeRecord r
  if w.2.1 && src ≠ 0x7C6 then w.2.2.plainEvent 0x7C6 else w.2.2

/-! Messages to other devices (spec/11 R301). -/

/-- KL_STATUS.STATE of a port. -/
def Dev.portState (d : Dev) (p : Nat) : Nat := d.rdAt R.KL.KL_STATUS_STATE p 0

/-- LOAD_STATUS.FENCED: a group or an edge region is fenced (spec/07 R207). -/
def Dev.showFenced (d : Dev) : Dev := d.wr R.LOAD.LOAD_STATUS_FENCED (bit (d.arr.fences != [] || d.edge.fenced != []))

/-- A port of the device. -/
def Dev.port (d : Dev) (p : Nat) : Port := SMap.get d.ports p

/-- Changing a port. -/
def Dev.setPort (d : Dev) (p : Nat) (f : Port → Port) : Dev := { d with ports := SMap.set d.ports p (f (d.port p)) }

/-- A message is queued on a port (R301). -/
def Dev.queueMessage (p kind : Nat) (body : Bytes) (d : Dev) : Dev :=
  d.setPort p fun q => { q with queue := q.queue ++ [(kind, body)] }

/-- The port carries messages: ACTIVE or LOWRATE, in which they flow as well (R314). -/
def Dev.portTalks (d : Dev) (p : Nat) : Bool := decide (p < 8) && (d.portState p == 6 || d.portState p == 7)

/-- A message is queued on every port that carries messages. -/
def Dev.sendAll (kind : Nat) (body : Bytes) (d : Dev) : Dev :=
  forUpto 8 (fun p d => if d.portTalks p then d.queueMessage p kind body else d) d

/-- A message is queued on every port that carries messages but one. -/
def Dev.sendAllBut (from' kind : Nat) (body : Bytes) (d : Dev) : Dev :=
  forUpto 8 (fun p d => if d.portTalks p && decide (p ≠ from') then d.queueMessage p kind body else d) d

/-- STOP: origin position, take number, fault code (R301, R121); sent only in a linked system. -/
def Dev.sendStop (code : Nat) (d : Dev) : Dev :=
  if d.linked then d.sendAll 0x22 (leBytes d.position 1 ++ leBytes (d.rd R.TAKE.TAKE_NUMBER) 6 ++ leBytes code 1) else d

/-! The array fault stop (spec/02 R67). -/

/-- Step 3: shadows and written flags are discarded with fresh parity, and the journal of injected entries is undone. -/
def Dev.discardShadows (d : Dev) : Dev :=
  { d with arr := { d.arr with
      shadowRows := [], flagRows := [], firstCommit := [], journal := []
      badRows := d.arr.badRows.filter fun e => decide (e.1 / 256 % 3 ≠ 2)
      stateRows := d.arr.journal.foldl (fun m e => SMap.bitSet m e.1 e.2) d.arr.stateRows } }

/-- An array fault stop keeps the injections that the take has applied, to be applied again (spec/14 R372). -/
def Dev.keepInjects (d : Dev) : Dev :=
  { d with eng := { d.eng with inject := d.eng.inject.map fun j => if j.applied then { j with applied := false, kept := true } else j } }

/-- Step 5: responses to the requests issued in the abandoned attempt are discarded (R67, R153). -/
def Dev.discardRequests (d : Dev) : Dev :=
  { d with arr := { d.arr with farReq := d.arr.farReq.map fun e =>
      if (SMap.look d.tk.saved.farReq e.1).isSome then e else (e.1, { e.2 with discard := true }) } }

/-- The sequencer comes to rest at belay 0. -/
def Dev.restArray (d : Dev) : Dev :=
  let tk := { d.tk with
    phase := .resting, step := d.tk.len - 1, belay := 0, waits := 0, waited := 0, farWaited := 0, hold := 0, stolen := 0, acted := [], stage := []
    faults := [], stopReq := false, ready := [], release := none, closingResp := 0, nextResp := 0, haltReq := 0, ticks := [], tick := none
    subs := [], passed := d.tk.passed.filter (fun e => decide (e.1 ≠ 0x20)), logTick := none, judged := false, ran := false, skipNext := 0, skipAfter := 0, undo := none, peerStop := none, linkStop := false, linkPitch := 0 }
  { d with tk := tk, ports := SMap.mapVal d.ports fun q => { q with rxTotal := 0, txTotal := 0 } }

/-- The samples and presentation instants that a take not begun, or not completed, has fixed are void (spec/08 R227). -/
def Dev.dropInstants (d : Dev) : Dev :=
  let p := d.rd R.EDGE.PRESENT_CFG_P
  let n := d.rd R.TAKE.TAKE_NUMBER
  { d with edge := { d.edge with instants := d.edge.instants.filter (fun e => decide (e.2 + p < n)), tickSamples := [] } }

/-- The length of a keeper window: 20 ns (spec/09 R245). -/
def keeperTime : Nat := 20 * 2 ^ 32

/-- A keeper window that began at the instant `start` stands on every user pin that `sel` names (spec/09 R245, R246). -/
def Dev.windowsFrom (start : Nat) (sel : Nat → Bool) (d : Dev) : Dev :=
  let e := start + keeperTime + 1
  let w := (List.range 320).filterMap fun p => if sel p then some (p, e) else (SMap.look d.pins.window p).map fun x => (p, x)
  { d with pins := { d.pins with window := w } }

/-- A keeper window opens now on every user pin that `sel` names. -/
def Dev.openWindows (sel : Nat → Bool) (d : Dev) : Dev := d.windowsFrom d.mono sel

/-- The fields of a pin word whose change is a function change: FUNC, OUT_EN, LVDS, DDR, OUT_MC, OE_FIXED, DDR_GCT, OE_MC, SUB (spec/09 R245). -/
def pinFunctionBits (w : Nat) : Nat × Nat × Nat × Nat := (fieldAt w 0 4, fieldAt w 11 2, fieldAt w 16 28, fieldAt w 56 8)

/-- Word `w` of pin `p` takes effect at its change edge; a function change opens the keeper window, or restarts one that stands, on both pins where an LVDS pair is completed
(spec/09 R245, R247). -/
def Dev.pinTakes (p w edge : Nat) (d : Dev) : Dev :=
  let old := SMap.get d.pins.cfg p
  let mate := p / 2 * 2 + 1 - p % 2
  let both := isSet w 11 && isSet (SMap.get d.pins.cfg mate) 11
  let d1 := { d with pins := { d.pins with cfg := SMap.set d.pins.cfg p w } }
  if pinFunctionBits w = pinFunctionBits old then d1 else d1.windowsFrom edge fun q => q == p || (both && q == mate)

/-- The committed words of pin `p` whose change edges have come take effect, in their order. -/
def Dev.settlePin (p : Nat) (d : Dev) : Dev :=
  let l := SMap.get d.pins.next p
  let due := l.filter fun e => decide (e.2 ≤ d.mono)
  if due = [] then d
  else forAll due (fun e d => d.pinTakes p e.1 e.2) { d with pins := { d.pins with next := SMap.set d.pins.next p (l.filter fun e => decide (d.mono < e.2)) } }

/-- Every committed word whose change edge has come. -/
def Dev.settlePins (d : Dev) : Dev := forAll d.pins.next (fun e d => d.settlePin e.1) d

/-- The function of pin `p`: FUNC of its word (spec/09 R242). -/
def Dev.pinFunc (d : Dev) (p : Nat) : Nat := fieldAt (SMap.get d.pins.cfg p) 0 3

/-- Pins in EDGE and PROBE function, which alone enter HALT (spec/09 R252). -/
def Dev.haltPin (d : Dev) (p : Nat) : Bool := d.pinFunc p == 0 || d.pinFunc p == 6

/-- Pin `p` stands in a keeper window. -/
def Dev.inWindow (d : Dev) (p : Nat) : Bool :=
  let e := SMap.get d.pins.window p
  decide (e ≠ 0) && decide (d.mono < e - 1)

/-- What the pads are driven to now: a pin in a keeper window drives nothing (spec/09 R245, R253). -/
def Dev.padsDriven (d : Dev) : SMap Nat := d.pins.pads.filter fun e => !d.inWindow e.1

/-- Pins in EDGE and PROBE function enter HALT, which holds what they drive, through a keeper window (spec/09 R246, R252, R253). -/
def Dev.pinsHalt (d : Dev) : Dev :=
  if d.pins.halt then d
  else
    let d1 := d.settlePins
    { d1 with pins := { d1.pins with halt := true, hold := d1.padsDriven } }.openWindows d1.haltPin

/-- The pins leave HALT at a start, through a keeper window (spec/09 R246, R252). -/
def Dev.pinsRelease (d : Dev) : Dev :=
  if d.pins.halt then
    let d1 := d.settlePins
    { d1 with pins := { d1.pins with halt := false, hold := [] } }.openWindows d1.haltPin
  else d

/-- Pins that are not in MGMT function enter SLEEP, or leave it (spec/09 R246, R252, R253). -/
def Dev.pinsSleep (on : Bool) (d : Dev) : Dev :=
  if d.pins.sleep = on then d
  else
    let d1 := d.settlePins
    { d1 with pins := { d1.pins with sleep := on, sleepHold := if on then d1.padsDriven else [] } }.openWindows fun p => d1.pinFunc p != 7

/-- Steps 2 to 5 of the array fault stop: the accesses started make their array cycle, the shadows, the injected entries
and the requests of the attempt are undone, the pins go to HALT, the array rests at belay 0 of the incomplete take, and
owner changes that wait take effect (R67, R128, R136). -/
def Dev.abandonTake (d : Dev) : Dev :=
  let d0 := (d.bankCycles.deliverReads.discardShadows.keepInjects.discardRequests.dropInstants.pinsHalt)
  let d1 := { d0 with arr := { d0.arr with acc := [], coll := [] } }
  let d2 := { d1.restArray with tk := { d1.restArray.tk with again := true } }
  let d3 := ((d2.wr R.RUN.RUN_STATUS_STATE 4).count 0xB2 10 1).handovers
  { d3 with dbg := { d3.dbg with firedNow := false, snapPend := d3.dbg.snapPend.map fun x => if x.1 = 0 then (0, true) else x } }

/-- The stop that entry into safe state makes of a running array (R484): at once when the step counter is frozen, at the
end of the step in execution otherwise. -/
def Dev.stopForSafe (code : Nat) (d : Dev) : Dev :=
  if d.running then
    if d.frozen then ((d.abandonTake).sendStop code).traceHalt d.position
    else { d with tk := { d.tk with stopReq := true, haltOrigin := code } }
  else d

/-! Safe state (spec/18 R482). -/

/-- Whether a fault code keeps its own timing of the array stop (R484): array faults, TAKE_DEADLINE, TIMEBASE_LOST. -/
def keepsTiming (code : Nat) : Bool := decide (0x10 ≤ code ∧ code ≤ 0x22) || code == 0x71

/-- The monitor latches: CAUSE, SAFE_STAMP, SAFE_ENTRIES, counter 2, the pins, SAFE_N and FAULT_N, EV_SAFE_STATE, the FAULT
packet, the stop of the array.  A fault that arrives during safe state leaves all of it (R482, R484). -/
def Dev.enterSafe (r : FRec) (cause : Nat) (d : Dev) : Dev :=
  if d.on R.SAFETY.SAFE_STATUS_IN_SAFE then d
  else
    let d1 := (((d.wr R.SAFETY.SAFE_STATUS_IN_SAFE 1).wr R.SAFETY.SAFE_STATUS_CAUSE cause).wr R.SAFETY.SAFE_STAMP d.stamp).bump R.SAFETY.SAFE_ENTRIES
    let d2 := { d1 with mg := { d1.mg with faultN := true, safeN := true, counters := SMap.set d1.mg.counters 2 (SMap.get d1.mg.counters 2 + 1), thermalStop := d1.mg.thermalStop || cause == 0x85 } }
    let d3 := ((d2.wr R.ENV.ENV_STATUS_SAFE_DRIVEN 1).plainEvent 0x7C0).traceFault r
    let d4 := if isSet (d3.route 0x7C0) 14 then d3.routedRecord 0x7C0 else d3
    if keepsTiming cause then d4 else d4.stopForSafe cause

/-- A source raises its event (R501 to R506): the flag, the message, the note, and, with SAFETY = 1, the record of
EVENT_ROUTED and safe state (R505). -/
def Dev.event (src : Nat) (d : Dev) : Dev :=
  let d1 := d.plainEvent src
  if isSet (d1.route src) 14 then
    (d1.routedRecord src).enterSafe { d1.record 0x01 4 0x5 (unitLoc (evPage src)) src 1 with safety := 1 } 0x01
  else d1

/-- A fault is reported (R173, R478, R505, R510): the record, the fault event, safe state where the fault reaches the safety
monitor, always (`sev` 4) or by its route.  `packet`: the fault's chapter writes a FAULT packet of its own. -/
def Dev.report (r : FRec) (packet : Bool) (d : Dev) : Dev :=
  let ev := (faultEvent r.code).getD 0
  let safe := r.sev == 4 || isSet (d.route ev) 14
  let r1 := if safe then { r with sev := 4, safety := 1 } else r
  let w := d.writeRecord r1
  let traced := isSet (d.route ev) 13 && d.enabled ev && !d.evMasked ev
  let entering := safe && !d.on R.SAFETY.SAFE_STATUS_IN_SAFE
  let d1 := w.2.2.flagEvent ev
  let d2 := if (packet || traced) && !entering then d1.traceFault w.1 else d1
  let d3 := if w.2.1 then d2.event 0x7C6 else d2
  if safe then d3.enterSafe w.1 r.code else d3

/-- A fault of a block outside the array: NO_STEP set, LOC_KIND UNIT of a page. -/
def Dev.unitFault (code sev page detail : Nat) (d : Dev) : Dev :=
  d.report (d.record code sev 0x5 (unitLoc page) detail 1) false

/-! Requests in flight (spec/12 R342, R343). -/

/-- PCIE.INFLIGHT: the requests that wait for their response between commands, which are those of the far ports.  A request of an engine, of the trace unit or of a table
walk is issued and answered within the command that makes it, so that no tracker but the far ports' (R146) can be full. -/
def Dev.inflight (d : Dev) : Nat := (d.arr.farReq.filter fun e => !e.2.answered).length

/-- INFLIGHT_PEAK follows a device-wide count of `n`. -/
def Dev.peakAt (n : Nat) (d : Dev) : Dev := if d.rd R.PCIE.INFLIGHT_PEAK < n then d.wr R.PCIE.INFLIGHT_PEAK n else d

/-- A far request has been issued, and waits. -/
def Dev.notePeak (d : Dev) : Dev := d.peakAt d.inflight

/-- A request is in flight for the time of the command that issues it. -/
def Dev.passing (d : Dev) : Dev := d.peakAt (d.inflight + 1)

end Sys2Proof.Machine
end

