-- ==== Sys2Proof/Machine/Snapshot.lean ====
section
/-! DEFINITION. The counters and their snapshots (spec/17 R464 to R467). -/

namespace Sys2Proof.Machine

/-- The key of a register field is that of LIVE_k of a counter unit. -/
def isLiveKey (key : Nat) : Bool :=
  decide (R.CNT.LIVE.key 0 0 ≤ key ∧ key < R.CNT.LIVE.key 0xB5 0) && decide ((key - R.CNT.LIVE.key 0 0) % 0x8000 < 0x800) &&
    decide ((key - R.CNT.LIVE.key 0 0) % 0x80 = 0)

/-- The same for SNAP_k, which stands 64 bits above. -/
def isSnapKey (key : Nat) : Bool := decide (64 ≤ key) && isLiveKey (key - 64)

/-- What a counter of elapsed time has to add to its stored value: ns in ACTIVE and in LOWRATE of a port, ns in self-refresh of a DDR5 channel. -/
def Dev.runningCount (d : Dev) (u k : Nat) : Nat :=
  if 0x48 ≤ u ∧ u < 0x50 ∧ ((k = 10 ∧ d.portState (u - 0x48) = 6) ∨ (k = 11 ∧ d.portState (u - 0x48) = 7)) then
    (d.mono - (d.port (u - 0x48)).since) / 2 ^ 32
  else if 0x40 ≤ u ∧ u < 0x48 ∧ k = 9 ∧ SMap.get d.ddr.srSince (u - 0x40) ≠ 0 then (d.mono + 1 - SMap.get d.ddr.srSince (u - 0x40)) / 2 ^ 32
  else 0

/-- LIVE_k of unit `u` as it reads. -/
def Dev.liveCount (d : Dev) (u k : Nat) : Nat := (d.rdAt R.CNT.LIVE u k + d.runningCount u k) % 2 ^ 48

/-- The counters of elapsed time. -/
def runningCounters : List (Nat × Nat) :=
  (List.range 8).flatMap fun i => [(0x40 + i, 9), (0x48 + i, 10), (0x48 + i, 11)]

/-- Every counter of every unit is copied into its SNAP register. -/
def Dev.copyCounters (d : Dev) : Dev :=
  let kept := d.regs.filter fun e => !isSnapKey e.1
  let regs := d.regs.foldl (fun m e => if isLiveKey e.1 then SMap.ins m (e.1 + 64) e.2 else m) kept
  forAll runningCounters (fun x m => m.wrAt R.CNT.SNAP x.1 x.2 (d.liveCount x.1 x.2)) { d with regs := regs }

/-- The end of a snapshot: SNAP_TIME, SNAP_TAKE, MID_TAKE, SNAP_SEQ, PENDING, EV_SNAP_DONE. -/
def Dev.snapDone (mid time : Nat) (d : Dev) : Dev :=
  let d1 := ((d.wr R.CNTSNAP.SNAP_TIME time).wr R.CNTSNAP.SNAP_TAKE (d.rd R.TAKE.TAKE_NUMBER - 1)).wr R.CNTSNAP.SNAP_STATUS_MID_TAKE mid
  let d2 := (d1.wr R.CNTSNAP.SNAP_SEQ (d1.rd R.CNTSNAP.SNAP_SEQ + 1)).wr R.CNTSNAP.SNAP_STATUS_PENDING 0
  { d2 with dbg := { d2.dbg with snapPend := none } }.event 0x790

/-- The requested snapshot falls on the boundary that closes take `n` (R466): mode 0, or mode 1 with that take. -/
def Dev.snapAt (d : Dev) (n : Nat) : Bool :=
  match d.dbg.snapPend with
  | some (m, _) => m == 0 || (m == 1 && decide (d.rd R.CNTSNAP.SNAP_AT_TAKE = n))
  | none => false

/-- A snapshot that a fault stop makes due is taken; so is one whose instant of device time the time-base clock edge of now, or the next one, has reached (R466). -/
def Dev.snapNow (d : Dev) : Dev :=
  let edge := d.stampAt d.tbNow % 2 ^ 64
  match d.dbg.snapPend with
  | some (m, due) =>
    if due then d.copyCounters.snapDone 1 d.stamp
    else if m == 2 && decide ((2 ^ 64 + edge - d.rd R.CNTSNAP.SNAP_AT_TIME) % 2 ^ 64 < 2 ^ 63) then d.copyCounters.snapDone 1 edge else d
  | none => d

/-- A write of SNAP_CTRL (R466): SNAP_MODE 3 is dropped; a request while one is PENDING is dropped. -/
def Dev.snapCtrlWrite (w t : Nat) (d0 : Dev) : Dev :=
  let d := d0.toTime t
  let m := fieldAt w 1 2
  if m = 3 then d
  else if w % 2 = 0 then d.wr R.CNTSNAP.SNAP_CTRL_SNAP_MODE m
  else if d.on R.CNTSNAP.SNAP_STATUS_PENDING then d.wr R.CNTSNAP.SNAP_STATUS_MERGED 1
  else
    let d1 := d.wr R.CNTSNAP.SNAP_CTRL_SNAP_MODE m
    if m = 1 ∧ d1.rd R.CNTSNAP.SNAP_AT_TAKE < d1.rd R.TAKE.TAKE_NUMBER then d1.wr R.CNTSNAP.SNAP_STATUS_LATE 1
    else
      let mode := if m = 0 ∧ !d1.running then 2 else m
      { d1 with dbg := { d1.dbg with snapPend := some (mode, false) } }.wr R.CNTSNAP.SNAP_STATUS_PENDING 1

/-- The snapshot instant, at the stamp `t`, of a request that no take boundary serves. -/
def Dev.snapshot (t : Nat) (d : Dev) : Dev := (d.toTime t).snapNow

end Sys2Proof.Machine
end

