-- ==== Sys2Proof/Machine/Lanes.lean ====
section
/-! DEFINITION. The scheduled lanes (spec/03): segment identifiers, selection entries, the slot a segment carries, the
shift at the end of a step, link mirrors. -/

namespace Sys2Proof.Machine

/-- A segment identifier (R73): type, index of the first BP of the owning group, lane. -/
def segId (ty group lane : Nat) : Nat := ty * 2 ^ 28 + group * 2 ^ 10 + lane

/-- TYPE of a segment identifier. -/
def segTy (id : Nat) : Nat := id / 2 ^ 28
/-- GROUP of a segment identifier. -/
def segGroup (id : Nat) : Nat := id / 2 ^ 10 % 2 ^ 18
/-- LANE of a segment identifier. -/
def segLane (id : Nat) : Nat := id % 2 ^ 10

/-- Identifier of an out-lane: the model's TYPE 0, since out-lanes have no selection table (R71). -/
def outLane (g1 lane : Nat) : Nat := segId 0 (g1 * 8) lane
/-- Identifier of a hub receive register: the model's TYPE 0xF (R69). -/
def hubLane (die lane : Nat) : Nat := segId 0xF (die * 32768) lane

/-- What a registered segment holds: value in bit 0, driven bit in bit 1. -/
def Dev.segHeld (d : Dev) (id : Nat) : Nat := (SMap.get d.arr.segs id) ^^^ d.arr.segDef

/-- The stored codeword that holds the selection entry of a step, checked (R74). -/
def Dev.selCode (d : Dev) (id t : Nat) : EccResult := decodeEcc 64 (SMap.get d.arr.selTab (id * 512 + t / 4))

/-- The selection entry of segment `id` for step `t`, corrected; an entry that cannot be corrected selects nothing. -/
def Dev.selEntry (d : Dev) (id t : Nat) : Nat :=
  match d.selCode id t with
  | .clean x => fieldAt x (16 * (t % 4)) 16
  | .corrected x => fieldAt x (16 * (t % 4)) 16
  | .bad _ _ => 0

/-- An inbound edge lane: its sample, with driven bit 1 if the EDGE frames connect it (R78, R81, R224). -/
def Dev.edgeInLane (d : Dev) (lane : Nat) : Nat :=
  if isSet (SMap.get d.edge.lanemap lane) 31 then SMap.get d.edge.sample lane % 2 + 2 else 0

/-- A G3 inbound lane in slot `t` (unregistered, R70, R72). `g` is the first BP of the G3. -/
def Dev.g3In (d : Dev) (g lane t : Nat) : Nat :=
  let e := d.selEntry (segId 5 g lane) t
  let src := e % 2 ^ 15
  let g4 := g / 4096 * 4096
  if isSet e 15 then
    if src < 1024 then d.segHeld (segId 4 (g4 + src / 128 * 512) (src % 128))
    else d.segHeld (segId 7 g4 (src - 1024))
  else 0

/-- A G2 inbound lane in slot `t` (unregistered). `g` is the first BP of the G2. -/
def Dev.g2In (d : Dev) (g lane t : Nat) : Nat :=
  let e := d.selEntry (segId 3 g lane) t
  let src := e % 2 ^ 15
  let g3 := g / 512 * 512
  if isSet e 15 then
    if src < 256 then d.segHeld (segId 2 (g3 + src / 32 * 64) (src % 32)) else d.g3In g3 (src - 256) t
  else 0

/-- What source number `src` of segment `id` carries in slot `t` (R72). -/
def Dev.segSource (d : Dev) (id src t : Nat) : Nat :=
  let g := segGroup id
  let ty := segTy id
  if ty = 1 then
    let g2 := g / 64 * 64
    if src < 64 then d.segHeld (outLane ((g2 + src / 8 * 8) / 8) (src % 8)) else d.g2In g2 (src - 64) t
  else if ty = 2 then d.segHeld (outLane ((g + src / 8 * 8) / 8) (src % 8))
  else if ty = 4 then d.segHeld (segId 2 (g + src / 32 * 64) (src % 32))
  else if ty = 6 then d.segHeld (segId 4 (g + src / 128 * 512) (src % 128))
  else if ty = 7 then
    let die := g / 32768 * 32768
    if src < 3072 then d.segHeld (segId 6 (die + src / 384 * 4096) (src % 384)) else d.segHeld (segId 9 die (src - 4096))
  else if ty = 8 then d.segHeld (segId 6 (g + src / 384 * 4096) (src % 384))
  else if src < 8192 then d.segHeld (hubLane (src / 1024) (src % 1024)) else d.edgeInLane (src - 8192)

/-- The slot that a G1 inbound lane carries for step `t`: a mirror entry passes by the register (R70). -/
def Dev.inboundLane (d : Dev) (g1 k t : Nat) : Nat :=
  let id := segId 1 (g1 * 8) k
  let e := d.selEntry id t
  if isSet e 15 && decide (2048 ≤ e % 2 ^ 15) then
    SMap.get d.arr.mirror (g1 * 8 / 4096 * 2048 + (e % 2 ^ 15 - 2048)) % 2 + 2
  else d.segHeld id

/-- Whether segments of this type are registered (R69). -/
def segRegistered (ty : Nat) : Bool := decide (ty ≠ 3 ∧ ty ≠ 5 ∧ ty ≠ 0xB)

/-- The first BP and the number of BPs of a group of level `lv`. -/
def levelSize (lv : Nat) : Nat := 8 ^ lv

/-- The type of the upward lanes of a level, 2 to 5. -/
def upType (lv : Nat) : Nat := if lv = 2 then 2 else if lv = 3 then 4 else if lv = 4 then 6 else 8

/-- The border value with driven bit 1 that the upward lanes of a fenced group carry (spec/07 R204). -/
def Dev.fenceLanes (d : Dev) (m : SMap Nat) : SMap Nat :=
  d.arr.fences.foldl (fun m f => f.border.foldl (fun m e => SMap.set m (segId (upType f.level) f.lo e.1) (e.2 % 2 + 2)) m) m

/-- The slots that the registered segments carry for step `t` + 1 (slot index `nt` of the table), from what their sources
carry in slot `t` (R70): every segment whose entry selects a source, the hub receive registers one to one from the G5
upward lanes, and the out-lanes that the step drove. -/
def Dev.nextSlots (d : Dev) (t nt : Nat) (driven : SMap Nat) : SMap Nat :=
  let picked := d.arr.selTab.foldl (fun m e =>
    let id := e.1 / 512
    if e.1 % 512 = nt / 4 ∧ segRegistered (segTy id) then
      let en := d.selEntry id nt
      if isSet en 15 && !(decide (segTy id = 1) && decide (2048 ≤ en % 2 ^ 15)) then
        SMap.set m id (d.segSource id (en % 2 ^ 15) t)
      else m
    else m) driven
  let hub := (List.range d.part.dies).foldl (fun m die =>
    if d.arr.segDef = 0 then
      (d.arr.segs.filter fun e => decide (segTy e.1 = 8 ∧ segGroup e.1 / 32768 = die)).foldl
        (fun m e => SMap.set m (hubLane die (segLane e.1)) e.2) m
    else (List.range 1024).foldl (fun m l => SMap.set m (hubLane die l) (d.segHeld (segId 8 (die * 32768) l))) m) picked
  d.fenceLanes hub

/-- The end of step `t`: every registered segment takes its next slot. -/
def Dev.shiftLanes (d : Dev) (t nt : Nat) (driven : SMap Nat) : Dev :=
  { d with arr := { d.arr with segs := d.nextSlots t nt driven, segDef := 0 } }

/-- The driven-bit check of KermaLink outbound lanes in step `t` (R79): a lane whose entry for the slot selects a source
carries driven bit 0. -/
def Dev.outboundUndriven (d : Dev) (t : Nat) : List FRec :=
  d.arr.selTab.filterMap fun e =>
    let id := e.1 / 512
    if segTy id = 0xA ∧ e.1 % 512 = t / 4 ∧ isSet (d.selEntry id t) 15 ∧ d.segHeld id / 2 = 0 then
      some (d.record 0x11 2 0x4 (segLane id / 128 + 8 * (segLane id % 128)) t 0)
    else none

/-- Selection entries fetched in step `t` that cannot be corrected (R74). -/
def Dev.badSelections (d : Dev) (t : Nat) : List FRec :=
  d.arr.selTab.filterMap fun e =>
    if e.1 % 512 = t / 4 then
      match decodeEcc 64 e.2 with
      | .bad _ s => some (d.record 0x1C 4 0x3 (e.1 / 512) s 0)
      | _ => none
    else none

/-- The counter unit of a segment: its G4, or none for the segments in hub SRAM (R74, R464).  DESIGN CHOICE: a G5 upward segment, which no G4 owns, is counted
in the first G4 of its die. -/
def segUnit (id : Nat) : Option Nat := if segTy id = 9 ∨ segTy id = 0xA then none else some (segGroup id / 4096)

/-- Selection entries corrected in step `t` are counted in the G4 that owns the segment (counter 7 of R464), those of hub segments in the counter of the
hub (R74).  DEDUCED: R464 lists no counter unit that shows the hub's count, so it stands in the state alone. -/
def Dev.countSelections (t : Nat) (d : Dev) : Dev :=
  d.arr.selTab.foldl (fun d e =>
    if e.1 % 512 = t / 4 then
      match decodeEcc 64 e.2, segUnit (e.1 / 512) with
      | .corrected _, some g4 => d.count g4 7 1
      | .corrected _, none => { d with arr := { d.arr with hubCorrected := (d.arr.hubCorrected + 1) % 2 ^ 48 } }
      | _, _ => d
    else d) d

/-- The commit of staged link slots (R83): a slot that no frame delivered keeps its contents. -/
def Dev.commitLinks (d : Dev) : Dev :=
  { d with arr := { d.arr with
      rx := (d.arr.staged.foldl (fun m e => SMap.set m e.1 (e.2 - 1)) d.arr.rx), staged := [] } }

/-- Receive-buffer slot of a port: port, lane, slot (R83). -/
def rxKey (port lane slot : Nat) : Nat := (port * 80 + lane) * 2048 + slot

/-- The mirror update at the belay that opens pitch `q` (R85). -/
def Dev.updateMirrors (d : Dev) (q : Nat) : Dev :=
  let m' := d.arr.mirrorMap.foldl (fun m e =>
    if e.1 / 2048 % 16 = q ∧ isSet e.2 31 then
      SMap.set m (e.1 / 2048 / 16 * 2048 + e.1 % 2048) (SMap.get d.arr.rx (rxKey (fieldAt e.2 28 3) (fieldAt e.2 21 7) (fieldAt e.2 10 11)))
    else m) d.arr.mirror
  { d with arr := { d.arr with mirror := m' } }

end Sys2Proof.Machine
end

