-- ==== Sys2Proof/Machine/Operands.lean ====
section
/-! DEFINITION. The instruction word and its checks at fetch (spec/02 R45 to R48, R53, R59, R60, R65, R533), and every form
of an operand (R49 to R52). -/

namespace Sys2Proof.Machine

/-! Fields of the word (R45). -/

def wordTt (w : Nat) : Nat := fieldAt w 0 16
/-- Operand field `f`, 0 A to 3 D. -/
def wordOp (w f : Nat) : Nat := fieldAt w (16 + 14 * f) 14
def wordMode (w : Nat) : Nat := fieldAt w 72 4
def wordAux (w : Nat) : Nat := fieldAt w 76 11
def wordPwr (w : Nat) : Nat := fieldAt w 87 3
def wordRsvd (w : Nat) : Nat := fieldAt w 90 6

/-- The AUX bits that a MODE names (R53), as a number of low bits: in every layout they are the lowest ones. -/
def auxWidth (mode : Nat) : Nat :=
  if mode = 2 then 3 else if mode = 3 then 9 else if mode = 4 then 11 else if mode = 5 then 1 else if mode = 6 then 9
  else if mode = 7 then 2 else if mode = 8 then 6 else if mode = 9 then 9 else if mode = 0xA then 1
  else if mode = 0xB then 10 else if mode = 0xC then 6 else 0

/-- AUX bits set that the MODE does not name. -/
def auxBad (w : Nat) : Bool := decide (2 ^ auxWidth (wordMode w) ≤ wordAux w)

/-- The word raises RESERVED_MODE at its fetch (R46, R53). -/
def wordReserved (w : Nat) : Bool := decide (0xD ≤ wordMode w) || decide (wordRsvd w ≠ 0) || auxBad w

/-- The actual power class of a word, by MODE and AUX (R59); none for MODE 0xD to 0xF. -/
def actualClass (w : Nat) : Option Nat :=
  let m := wordMode w
  if m = 0 then some 0 else if m = 1 then some 1 else if m = 2 ∨ m = 3 ∨ m = 0xC then some 2 else if m = 4 ∨ m = 0xB then some 3
  else if m = 5 ∨ m = 6 ∨ m = 8 ∨ m = 9 then some 4 else if m = 7 then some (if isSet (wordAux w) 1 then 6 else 5)
  else if m = 0xA then some 7 else none

/-- Whether an operand field is valid at schedule length `len` (R48, R49, R52). -/
def operandValid (len op : Nat) : Bool :=
  let i := op % 4096
  if op / 4096 = 0 then decide (i < 0xA00) && !(decide (len ≤ i ∧ i < 2048))
  else if op / 4096 = 1 then decide (i < 0x10)
  else if op / 4096 = 2 then decide (i < 0x400)
  else decide (i < 6 ∧ i ≠ 3) || i == 8 || decide (0x10 ≤ i ∧ i ≤ 0x13) || decide (0x18 ≤ i ∧ i ≤ 0x1B)

/-- The lowest invalid operand field of a word, if there is one; a NOP has none (R48, R533). -/
def badField (len w : Nat) : Option Nat :=
  if wordMode w = 0 then none else [0, 1, 2, 3].find? fun f => !operandValid len (wordOp w f)

/-! Location of a fault (R174). -/

/-- LOCATION of a group: the index of its first BP and its level. -/
def groupLoc (level index : Nat) : Nat := index + level * 2 ^ 18

/-- A fault record of the array at a BP. -/
def Dev.bpFault (d : Dev) (code bp detail : Nat) : FRec := d.record code 2 0x1 bp detail 0

/-- The word that a BP fetches in step `s`, checked (R65). -/
def Dev.fetch (d : Dev) (bp s : Nat) : EccResult := decodeEcc 96 (SMap.get d.arr.cols (bp * 2048 + s))

/-- The word bits of a fetch, corrected where they can be. -/
def EccResult.word : EccResult → Nat
  | .clean w => w
  | .corrected w => w
  | .bad w _ => w

/-- The BP is in a fenced array group (spec/07 R204). -/
def Dev.fencedBp (d : Dev) (bp : Nat) : Bool := d.arr.fences.any fun f => decide (f.lo ≤ bp ∧ bp < f.hi)

/-- The BP fetches: it is present, its G4 domain is ON and no fence holds its group. -/
def Dev.bpLive (d : Dev) (bp : Nat) : Bool := decide (bp < d.bps) && d.domState (bp / 4096) == 2 && !d.fencedBp bp

/-- The cost of a power class by the loaded cost table (spec/06 R158). -/
def Dev.cost (d : Dev) (cls : Nat) : Nat :=
  fieldAt (d.rd R.CHECK.COST_TABLE) (8 * cls) 8

/-- The tokens that G4 `g` spends in step `s`: the cost of the declared class of every word that its BPs fetch, NOP words
included; a fenced BP costs nothing (spec/06 R161, spec/07 R204).  A word that is not listed in the columns declares class 0. -/
def Dev.tokenSum (d : Dev) (g s : Nat) : Nat :=
  let listed := (SMap.range d.arr.cols (g * 4096 * 2048) ((g + 1) * 4096 * 2048)).filter fun e =>
    decide (e.1 % 2048 = s) && !d.fencedBp (e.1 / 2048)
  let fenced := (d.arr.fences.map fun f => min f.hi ((g + 1) * 4096) - max f.lo (g * 4096)).sum
  (listed.map fun e => d.cost (wordPwr (decodeEcc 96 e.2).word)).sum + (4096 - fenced - listed.length) * d.cost 0

/-- The sum of G4 `g` in step `s` lies above its budget: POWER_BUDGET of kind 0, the whole G4 is the faulting unit (R161). -/
def Dev.overBudget (d : Dev) (g s : Nat) : Bool := decide (d.rdAt R.CHECK.BUDGET 0 g < d.tokenSum g s)

/-- The fetch faults of a word (R533, R168): the records of RESERVED_MODE, SCHEDULE_BOUNDS, a declared class too low; or
INSTR_UNCORRECTABLE alone. -/
def Dev.fetchFaults (d : Dev) (bp : Nat) (f : EccResult) : List FRec :=
  match f with
  | .bad _ s => [{ d.bpFault 0x1C bp s with sev := 4 }]
  | .clean w | .corrected w =>
    (match actualClass w with
     | some c => if wordPwr w < c then [d.bpFault 0x15 bp (2 ^ 63 + (wordPwr w + 16 * c))] else []
     | none => []) ++
    (if wordMode w < 0xD then
      match badField d.tk.len w with
      | some i => [d.bpFault 0x1A bp (i + wordOp w i * 2 ^ 16)]
      | none => []
     else []) ++
    (if wordReserved w then [d.bpFault 0x20 bp (wordMode w + 16 * bit (decide (wordRsvd w ≠ 0)) + 32 * bit (auxBad w))] else [])

/-! Reading an operand. -/

/-- The parity row of an entry fails (R66). Store 0 step, 1 state, 2 shadow. -/
def Dev.rowBad (d : Dev) (bp store entry : Nat) : Bool := SMap.get d.arr.badRows ((bp * 3 + store) * 256 + entry / 8) == 1

/-- Whether step `j` of the current take wrote entry `j` (R49, spec/06 R169). -/
def Dev.wrote (d : Dev) (bp j : Nat) : Bool := SMap.bitGet d.arr.wrote (bp * 2048 + j) == 1

/-- Check mode is on (spec/06 R169). -/
def Dev.checkMode (d : Dev) : Bool := d.on R.CHECK.CHECK_CTRL_ENABLE

/-- State entry `k` of a BP. -/
def Dev.stateEntry (d : Dev) (bp k : Nat) : Nat := SMap.bitGet d.arr.stateRows (bp * 512 + k)
/-- Step entry `j` of a BP. -/
def Dev.stepEntry (d : Dev) (bp j : Nat) : Nat := SMap.bitGet d.arr.stepRows (bp * 2048 + j)

/-- The entry of the delivered buffer that RSEL of the far port names (spec/05 R144, R149). -/
def Dev.farSel (d : Dev) (g4 : Nat) : Nat := fieldAt (SMap.get d.arr.farAddr g4) 60 4
/-- The delivered entry that class 10 operands and FAR_VALID read. -/
def Dev.farEntry (d : Dev) (g4 : Nat) : FarEntry := SMap.get d.arr.farDel (g4 * 16 + d.farSel g4)

/-- Operand field `f` of BP `bp` in step `s`: its value, and the records of the faults that the read raises. -/
def Dev.readOperand (d : Dev) (bp s f op : Nat) : Nat × List FRec :=
  let i := op % 4096
  if op / 4096 = 0 then
    if i < 2048 then
      (d.stepEntry bp i,
        (if d.checkMode && (decide (s ≤ i) || !d.wrote bp i) then
          [d.bpFault 0x1B bp (i + f * 2 ^ 12 + bit (decide (i < s)) * 2 ^ 14)] else []) ++
        (if d.rowBad bp 0 i then [{ d.bpFault 0x1D bp i with sev := 4 }] else []))
    else
      (d.stateEntry bp (i - 2048),
        if d.rowBad bp 1 (i - 2048) then [{ d.bpFault 0x1D bp ((i - 2048) + 2 ^ 12) with sev := 4 }] else [])
  else if op / 4096 = 1 then
    if i < 8 then (SMap.get d.arr.nbr (bp / 8 * 8 + i), [])
    else
      let v := d.inboundLane (bp / 8) (i - 8) s
      (v % 2, if v / 2 = 0 then [d.bpFault 0x11 bp ((i - 8) + f * 16)] else [])
  else if op / 4096 = 2 then
    if i < 0x200 then (bitAt (SMap.get d.arr.portRd (bp / 64 * 2 + i / 256)) (i % 256), [])
    else
      let g4 := bp / 4096
      let e := d.farEntry g4
      let issued := d.rdAt R.FAR.FAR_STATUS_ISSUED g4 0
      (if e.kind = 1 then bitAt e.data (i - 0x200) else 0,
        if d.farSel g4 < issued then [d.bpFault 0x19 bp (d.farSel g4 + issued * 16 + f * 2 ^ 9)] else [])
  else
    (if i = 1 then 1
     else if i = 2 then bit d.tk.first
     else if i = 4 ∨ i = 5 then bit (decide (SMap.get d.arr.coll (bp / 64 * 2 + (i - 4)) = d.tk.seq + 1))
     else if i = 8 then bit (decide ((d.farEntry (bp / 4096)).kind = 1))
     else if 0x18 ≤ i then bitAt d.tk.tbSkip (i % 4)
     else if 0x10 ≤ i then bitAt d.tk.tbValid (i % 4)
     else 0, [])

/-- The result of a word (R47) and the faults of its operand reads. -/
def Dev.result (d : Dev) (bp s w : Nat) : Nat × List FRec :=
  let a := d.readOperand bp s 0 (wordOp w 0)
  let b := d.readOperand bp s 1 (wordOp w 1)
  let c := d.readOperand bp s 2 (wordOp w 2)
  let e := d.readOperand bp s 3 (wordOp w 3)
  (bitAt (wordTt w) (e.1 * 8 + c.1 * 4 + b.1 * 2 + a.1), a.2 ++ b.2 ++ c.2 ++ e.2)

end Sys2Proof.Machine
end

