-- ==== Sys2Proof/Machine/Watch.lean ====
section
/-! DEFINITION. The watch unit (spec/16 R423 to R430) and the probe-lane counters (spec/17 R465): what they evaluate at the
end of a step and at a take boundary. -/

namespace Sys2Proof.Machine

/-- Probe lane `j` (R423). -/
def Dev.probeLane (d : Dev) (j : Nat) : Nat := SMap.get d.arr.probe j % 2

/-- The value of `width` consecutive probe lanes from `base` (R423). -/
def Dev.probeField (d : Dev) (base width : Nat) : Nat :=
  (List.range width).foldl (fun v i => v + d.probeLane (base + i) * 2 ^ i) 0

/-- The number of probe lanes present (R423). -/
def Dev.probeLanes (d : Dev) : Nat := d.g4s * 64

/-- The context match (R425). -/
def Dev.ctxMatch (d : Dev) : Bool :=
  let cfg := d.rd R.WATCH.CTXID_CFG
  let m := d.rd R.WATCH.CTXID_MASK
  (d.probeField (fieldAt cfg 4 12) (fieldAt cfg 16 7)) &&& m == d.rd R.WATCH.CTXID_VALUE &&& m

/-- Comparator `c` is true on the probe lanes as they stand (R424). -/
def Dev.comparator (d : Dev) (c : Nat) : Bool :=
  let v := (d.probeField (d.rdAt R.WATCH.CMP_CFG_BASE 0 c) (d.rdAt R.WATCH.CMP_CFG_WIDTH 0 c)) &&& d.rdAt R.WATCH.MASK 0 c
  let inRange := decide (d.rdAt R.WATCH.LOW 0 c ≤ v ∧ v ≤ d.rdAt R.WATCH.HIGH 0 c)
  d.rdAt R.WATCH.CMP_CFG_ENABLE 0 c == 1 && (inRange != (d.rdAt R.WATCH.CMP_CFG_INVERT 0 c == 1)) &&
    (d.rdAt R.WATCH.CMP_CFG_CTX_EN 0 c == 0 || d.ctxMatch)

/-- The comparators that the condition of level `i` names. -/
def Dev.condComps (d : Dev) (i : Nat) : List Nat := setBits (d.rdAt R.WATCH.SEQ_COND 0 i) 64

/-- The condition of level `i` (R427): any of its comparators, or all of them. -/
def Dev.levelCond (d : Dev) (i : Nat) : Bool :=
  if d.rdAt R.WATCH.SEQ_CFG_OP 0 i = 0 then (d.condComps i).any d.comparator else (d.condComps i).all d.comparator

/-- The sequencer fires in step `s` at level `i` (R428). -/
def Dev.fireWatch (d : Dev) (i : Nat) : Dev :=
  let comp := ((d.condComps i).find? d.comparator).getD 0
  let d1 := (((d.wr R.WATCH.BREAK_TAKE (d.rd R.TAKE.TAKE_NUMBER)).wr R.WATCH.BREAK_STEP d.tk.step).wr
    R.WATCH.WATCH_STATUS_BREAK_COMP comp).wr R.WATCH.WATCH_STATUS_FIRED 1
  { d1 with dbg := { d1.dbg with fired := true, firedNow := true } }

/-- One evaluation of the sequencer at the end of a step (R426, R427). -/
def Dev.watchStep (d : Dev) : Dev :=
  if d.dbg.watchOn && !d.dbg.fired then
    let i := d.rd R.WATCH.WATCH_STATUS_LEVEL
    let conds := (List.range 8).foldl (fun m l => m + bit (d.levelCond l) * 2 ^ l) 0
    let now := isSet conds i && (d.rdAt R.WATCH.SEQ_CFG_EDGE 0 i == 0 || !isSet d.dbg.prevCond i)
    let n := SMap.get d.dbg.counts i + bit now
    let reset := (setBits (d.rdAt R.WATCH.SEQ_RESET 0 i) 64).any d.comparator
    let d1 := { d with dbg := { d.dbg with prevCond := conds } }
    if reset then { d1.wr R.WATCH.WATCH_STATUS_LEVEL 0 with dbg := { d1.dbg with counts := [] } }
    else if now && decide (d.rdAt R.WATCH.SEQ_CFG_COUNT 0 i ≤ n) then
      if d.rdAt R.WATCH.SEQ_CFG_LAST 0 i = 1 then d1.fireWatch i
      else if i < 7 then
        { d1.wr R.WATCH.WATCH_STATUS_LEVEL (i + 1) with dbg := { d1.dbg with counts := SMap.set (SMap.set d1.dbg.counts i n) (i + 1) 0 } }
      else { d1 with dbg := { d1.dbg with counts := SMap.set d1.dbg.counts i n } }
    else { d1 with dbg := { d1.dbg with counts := SMap.set d1.dbg.counts i n } }
  else d

/-- The sequencer starts at level 0 when the unit is enabled (R427). -/
def Dev.watchStart (d : Dev) : Dev :=
  { d.wr R.WATCH.WATCH_STATUS_LEVEL 0 with dbg := { d.dbg with
      watchOn := true, watchPend := false, counts := [], prevCond := 0, fired := false, firedNow := false } }

/-- Probe-lane counter `k` of G4 `g` by its effective selection (R465): kinds 0 and 1 count steps, 2 boundaries.
`before` is the value of the lane in the step before. -/
def Dev.probeCount (boundary : Bool) (before : SMap Nat) (d : Dev) : Dev :=
  forAll d.trc.sel (fun e d =>
    let g := e.1 / 8
    let lane := 64 * g + e.2 % 64
    let kind := e.2 / 64 % 4
    let v := d.probeLane lane
    let hit := if boundary then kind = 2 ∧ v = 1
      else (kind = 0 ∧ v = 1) ∨ (kind = 1 ∧ v = 1 ∧ SMap.get before lane % 2 = 0)
    if hit then d.count g (e.1 % 8) 1 else d) d

end Sys2Proof.Machine
end

