-- ==== Sys2Proof/Machine/Array.lean ====
section
/-! DEFINITION. The step of the array (spec/02 R42 to R67): what each Boolean processor does in it, the conflicts between
words, and the end of the step, at which every shared write is made, the lanes shift, the watch unit evaluates and the faults of
the step stop the array. -/

namespace Sys2Proof.Machine

/-! The action of a word (R53). -/

/-- A fault record of the array at a group. -/
def Dev.groupFault (d : Dev) (code sev level first detail : Nat) : FRec := d.record code sev 0x2 (groupLoc level first) detail 0

/-- The faults of a MEM_GO with result 1 on port `p`: BANK_PORT_BUSY of cases 1 and 5, and BANK_OWNER (R55, R130, R133). -/
def Dev.memGoFaults (d : Dev) (bp p : Nat) : List FRec :=
  let g := bp / 64
  (match SMap.look d.arr.acc (g * 2 + p) with
   | some a => if a.seq + 1 = d.tk.seq then [d.bpFault 0x13 bp (p + 1 * 2)] else []
   | none => []) ++
  (if d.joined g && decide (p = 1 - g % 2) then [d.bpFault 0x13 bp (p + 5 * 2)] else []) ++
  (if d.bankOwner g ≠ 0 then [d.bpFault 0x14 bp (p + 2 * d.bankOwner g)] else [])

/-- WINDOW of the address register of a far port (spec/05 R144). -/
def Dev.farWindow (d : Dev) (g4 : Nat) : Nat := fieldAt (SMap.get d.arr.farAddr g4) 0 4
/-- LINE of the address register of a far port. -/
def Dev.farLine (d : Dev) (g4 : Nat) : Nat := fieldAt (SMap.get d.arr.farAddr g4) 4 56

/-- The reason for which a FAR_GO fails its window check, if it does (spec/05 R146, spec/06 R167).  Where several hold, the
lowest.  DESIGN CHOICE: the spec gives one reason field and no order. -/
def Dev.farWindowReason (d : Dev) (g4 write : Nat) : Option Nat :=
  let w := d.farWindow g4
  if d.rdAt R.FAR.FAR_CTRL_ENABLE g4 0 = 0 then some 0
  else if d.rdAt R.FAR.WIN_CFG_VALID g4 w = 0 then some 1
  else if 2 ^ (d.rdAt R.FAR.WIN_CFG_SIZE_LOG2 g4 w - 6) ≤ d.farLine g4 then some 2
  else if write = 1 ∧ d.rdAt R.FAR.WIN_CFG_WRITABLE g4 w = 0 then some 3
  else none

/-- The faults of a FAR_GO with result 1: FAR_REQUEST_LIMIT of kind 0 where ISSUED is 16, and FAR_WINDOW (spec/05 R146). -/
def Dev.farGoFaults (d : Dev) (bp write : Nat) : List FRec :=
  let g4 := bp / 4096
  (if d.rdAt R.FAR.FAR_STATUS_ISSUED g4 0 = 16 then [d.groupFault 0x16 2 4 (g4 * 4096) 0] else []) ++
  match d.farWindowReason g4 write with
  | some x => [d.groupFault 0x17 2 4 (g4 * 4096) (d.farWindow g4 + x * 16 + d.farLine g4 * 256)]
  | none => []

/-- Whether the EDGE frames connect outbound edge lane `lane` (spec/08 R224). -/
def Dev.laneOutConnected (d : Dev) (lane : Nat) : Bool := isSet (SMap.get d.edge.lanemap (1024 + lane)) 31

/-- The state entry that a COMMIT or COMMIT_DRIVE names (R53). -/
def commitEntry (w : Nat) : Nat := if wordMode w = 3 then fieldAt (wordAux w) 0 9 else fieldAt (wordAux w) 0 8

/-- The out-lane that an EVAL_DRIVE or COMMIT_DRIVE names (R53). -/
def driveLane (w : Nat) : Nat := if wordMode w = 2 then fieldAt (wordAux w) 0 3 else fieldAt (wordAux w) 8 3

/-- The action that a word takes on shared state with result `r`, if it takes one, by its MODE and AUX (R53); the faults of
that action decide `ok`. -/
def wordAct (bp w r : Nat) (ok : Bool) : List Act :=
  let aux := wordAux w
  let g2 := bp / 64
  let g4 := bp / 4096
  let m := wordMode w
  if m = 2 ∨ m = 4 then [⟨.lane, bp / 8 * 8 + driveLane w, bp, r, ok⟩]
  else if m = 5 then [⟨.memAddr, g2 * 2 + aux % 2, bp, r, ok⟩]
  else if m = 6 then [⟨.memWdata, (g2 * 2 + aux % 2) * 256 + fieldAt aux 1 8, bp, r, ok⟩]
  else if m = 7 then (if r = 1 then [⟨.memGo, g2 * 2 + aux % 2, bp, bitAt aux 1, ok⟩] else [])
  else if m = 8 then [⟨.farAddr, g4 * 64 + aux % 64, bp, r, ok⟩]
  else if m = 9 then [⟨.farData, g4 * 512 + aux % 512, bp, r, ok⟩]
  else if m = 0xA then (if r = 1 then [⟨.farGo, g4, bp, aux % 2, ok⟩] else [])
  else if m = 0xB then [⟨.edge, aux % 1024, bp, r, ok⟩]
  else if m = 0xC then [⟨.probe, g4 * 64 + aux % 64, bp, r, ok⟩]
  else []

/-- The faults that the action of a word raises by itself, with result `r` (R55, R58, R63, spec/05 R130, R146). -/
def Dev.actFaults (d : Dev) (bp w r : Nat) : List FRec :=
  let m := wordMode w
  if m = 3 ∨ m = 4 then
    let k := commitEntry w
    if SMap.bitGet d.arr.flagRows (bp * 512 + k) = 1 then
      [d.bpFault 0x1F bp (k + (SMap.get d.arr.firstCommit (bp * 512 + k) - 1) * 2 ^ 16)]
    else []
  else if m = 7 ∧ r = 1 then d.memGoFaults bp (wordAux w % 2)
  else if m = 0xA ∧ r = 1 then d.farGoFaults bp (wordAux w % 2)
  else if m = 0xB ∧ !d.laneOutConnected (wordAux w % 1024) then [d.bpFault 0x1E bp (wordAux w % 1024)]
  else []

/-! A BP in a step (R43). -/

/-- Faults of the step are gathered until it ends. -/
def Dev.addFaults (d : Dev) (fs : List FRec) : Dev := { d with tk := { d.tk with faults := d.tk.faults ++ fs } }

/-- Actions of the step are gathered until it ends. -/
def Dev.addActs (d : Dev) (as : List Act) : Dev := { d with tk := { d.tk with stage := d.tk.stage ++ as } }

/-- The writes of a BP into its own stores: step entry `s` with its written mark (R49, R169), and for a commit the shadow and
its written flag (R53, R62). -/
def Dev.ownWrites (d : Dev) (bp s w r : Nat) : Dev :=
  let d1 := { d with arr := { d.arr with
    stepRows := SMap.bitSet d.arr.stepRows (bp * 2048 + s) r, wrote := SMap.bitSet d.arr.wrote (bp * 2048 + s) 1 } }
  if wordMode w = 3 ∨ wordMode w = 4 then
    let i := bp * 512 + commitEntry w
    { d1 with arr := { d1.arr with
        shadowRows := SMap.bitSet d1.arr.shadowRows i r, flagRows := SMap.bitSet d1.arr.flagRows i 1
        firstCommit := SMap.set d1.arr.firstCommit i (s + 1) } }
  else d1

/-- What a word that passed its fetch checks does in step `s`.  DEDUCED (log 26): where an operand read faults, or the budget of the G4 is exceeded, the word
performs no action, and the faults of that action are not raised. -/
def Dev.runWord (d : Dev) (bp s w : Nat) : Dev :=
  if wordMode w = 0 then d
  else
    let x := d.result bp s w
    if x.2 ≠ [] then d.addFaults x.2
    else if d.overBudget (bp / 4096) s then d
    else
      let fs := d.actFaults bp w x.1
      if fs ≠ [] then (d.addFaults fs).addActs (wordAct bp w x.1 false)
      else (d.ownWrites bp s w x.1).addActs (⟨.nbr, bp, bp, x.1, true⟩ :: wordAct bp w x.1 true)

/-- BP `bp` takes part in the step in execution. -/
def Dev.runBp (d : Dev) (bp : Nat) : Dev :=
  let s := d.tk.step
  let f := d.fetch bp s
  let d0 := { d with tk := { d.tk with acted := bp :: d.tk.acted } }
  let d1 := match f with
    | .corrected _ => (d0.count (bp / 4096) 6 1).event (0x040 + bp / 4096)
    | _ => d0
  match d.fetchFaults bp f with
  | [] => d1.runWord bp s f.word
  | fs => d1.addFaults fs

/-- The row of the opcode table that a fetched word belongs to: its MODE, or 0xD for a word that raises RESERVED_MODE. -/
def EccResult.row : EccResult → Nat
  | .bad w _ => min (wordMode w) 0xD
  | .clean w => if wordReserved w then 0xD else wordMode w
  | .corrected w => if wordReserved w then 0xD else wordMode w

/-- The event "BP `bp` fetches and executes a word of row `row`": it happens where the array is in a step, the BP takes part in
it and has not yet acted, and the word it fetches is of that row; otherwise there is no such event. -/
def Dev.bpStep (row bp : Nat) (d : Dev) : Dev :=
  if decide (d.tk.phase = .stepping) && d.bpLive bp && !d.tk.acted.contains bp && (d.fetch bp d.tk.step).row == row then d.runBp bp
  else d

/-- The BPs that still have to act in this step and whose word is listed: every other BP fetches the word 0, a NOP. -/
def Dev.bpsToAct (d : Dev) : List Nat :=
  d.arr.cols.filterMap fun e =>
    if e.1 % 2048 = d.tk.step ∧ d.bpLive (e.1 / 2048) ∧ !d.tk.acted.contains (e.1 / 2048) then some (e.1 / 2048) else none

/-! Conflicts between words (R55 to R57, spec/05 R132). -/

/-- The acts on the same place as `a`. -/
def actsOn (as : List Act) (a : Act) : List Act := as.filter fun b => decide (b.kind = a.kind ∧ b.key = a.key)

/-- Two words act on the place. -/
def conflicted (as : List Act) (a : Act) : Bool := decide (1 < (actsOn as a).length)

/-- The lowest-numbered BP of a list of acts. -/
def lowestBp (as : List Act) : Nat := as.foldl (fun m a => min m a.bp) (2 ^ 18)

/-- The record of a lane collision of `a`, the lowest-numbered driver of its place (R57, R80, R167). -/
def Dev.collision (d : Dev) (kind lane : Nat) (as : List Act) : FRec :=
  let low := lowestBp as
  let mask := as.foldl (fun m a => if a.bp / 8 = low / 8 then m ||| 2 ^ (a.bp % 8) else m) 0
  let detail := kind + lane * 2 ^ 8 + mask * 2 ^ 32
  if kind = 0 then d.groupFault 0x10 2 1 (low / 8 * 8) detail else d.bpFault 0x10 low detail

/-- The acts of a kind that conflict. -/
def conflictsOf (as : List Act) (k : ActKind) : List Act := as.filter fun a => decide (a.kind = k) && conflicted as a

/-- BANK_PORT_BUSY of cases 2 to 4: one record for each G2, port and case, naming the lowest BP and, for case 4, the lowest bit
(R55). -/
def Dev.portConflicts (d : Dev) (as : List Act) : List FRec :=
  let one (k : ActKind) (case' : Nat) : List FRec :=
    (conflictsOf as k).map fun a =>
      let port := if case' = 4 then a.key / 256 else a.key
      let all := (conflictsOf as k).filter fun b => decide ((if case' = 4 then b.key / 256 else b.key) = port)
      let low := if case' = 4 then all.foldl (fun m b => min m (b.key % 256)) 255 else 0
      d.bpFault 0x13 (lowestBp all) (port % 2 + case' * 2 + low * 2 ^ 8)
  one .memGo 2 ++ one .memAddr 3 ++ one .memWdata 4

/-- FAR_REQUEST_LIMIT of kinds 1 and 2 (R56): the lowest kind, and for kind 2 the lowest register and bit. -/
def Dev.farConflicts (d : Dev) (as : List Act) : List FRec :=
  (conflictsOf as .farGo).map (fun a => d.groupFault 0x16 2 4 (a.key * 4096) 1) ++
  (conflictsOf as .farAddr).map (fun a => d.groupFault 0x16 2 4 (a.key / 64 * 4096) (2 + a.key % 64 * 16)) ++
  (conflictsOf as .farData).map (fun a => d.groupFault 0x16 2 4 (a.key / 512 * 4096) (2 + 4 + a.key % 512 * 16))

/-- LANE_COLLISION of out-lanes, edge lanes and probe lanes (R57). -/
def Dev.laneConflicts (d : Dev) (as : List Act) : List FRec :=
  (conflictsOf as .lane).map (fun a => d.collision 0 (a.key % 8) (actsOn as a)) ++
  (conflictsOf as .edge).map (fun a => d.collision 1 a.key (actsOn as a)) ++
  (conflictsOf as .probe).map (fun a => d.collision 2 (a.key % 64) (actsOn as a))

/-- Two design writes that start together on ports A and B of a single bank and name the same word: BANK_DUAL_WRITE
(spec/05 R132). `as` are the acts that take effect. -/
def Dev.dualWrite (d : Dev) (as : List Act) (a : Act) : Bool :=
  decide (a.kind = .memGo ∧ a.v = 1) && !d.joined (a.key / 2) &&
  as.any fun b => decide (b.kind = .memGo ∧ b.v = 1 ∧ b.key / 2 = a.key / 2 ∧ b.key ≠ a.key ∧
    d.bankWord (a.key / 2) (SMap.get d.arr.portAddr b.key) = d.bankWord (a.key / 2) (SMap.get d.arr.portAddr a.key))

/-- The records of dual writes. -/
def Dev.dualWrites (d : Dev) (as : List Act) : List FRec :=
  (as.filter (d.dualWrite as)).map fun a =>
    d.groupFault 0x12 2 2 (a.key / 2 * 64) (d.bankWord (a.key / 2) (SMap.get d.arr.portAddr a.key))

/-! The records of a step, in order (spec/06 R168). -/

/-- The entry, lane or bit that orders the records of one code at one location. -/
def FRec.sub (r : FRec) : Nat :=
  if r.code = 0x10 then fieldAt r.detail 8 10
  else if r.code = 0x11 then (if r.locKind = 4 then r.detail else fieldAt r.detail 0 3 * 4 + fieldAt r.detail 4 2)
  else if r.code = 0x1B ∨ r.code = 0x1D then fieldAt r.detail 0 12 * 4 + fieldAt r.detail 12 2
  else if r.code = 0x19 then fieldAt r.detail 9 2
  else if r.code = 0x16 then fieldAt r.detail 0 2 * 2 ^ 16 + fieldAt r.detail 2 2 * 2 ^ 12 + fieldAt r.detail 4 9
  else r.detail

/-- The order of R168: code, location, then the entry, lane or bit.  DEDUCED: locations of different kinds compare by LOCATION. -/
def FRec.before (a b : FRec) : Bool :=
  decide (a.code < b.code) || (a.code == b.code && (decide (a.location < b.location) ||
    (a.location == b.location && (decide (a.sub < b.sub) || (a.sub == b.sub && decide (a.detail < b.detail))))))

/-- What makes two records of a step the same fault: code, location and detail, but for a port conflict, whose record stands for
its G2, port and case (R55), a far-port limit, of which there is one per G4 (R56), and a failing parity row (R66). -/
def FRec.same (a b : FRec) : Bool :=
  a.code == b.code && a.locKind == b.locKind &&
  (if a.code = 0x13 then a.location / 64 == b.location / 64 && a.detail % 16 == b.detail % 16
   else if a.code = 0x16 then a.location == b.location
   else if a.code = 0x1D then a.location == b.location && a.detail / 8 == b.detail / 8
   else a.location == b.location && a.detail == b.detail)

/-- A record put into a list in order. -/
def insertRec (r : FRec) : List FRec → List FRec
  | [] => [r]
  | x :: xs => if r.before x then r :: x :: xs else x :: insertRec r xs

/-- The records of a step: in the order of R168, each fault once, named by the first record of it. -/
def orderFaults (fs : List FRec) : List FRec :=
  (fs.foldl (fun acc r => insertRec r acc) []).foldl (fun acc r => if acc.any (fun x => x.same r) then acc else acc ++ [r]) []

/-! The end of a step. -/

/-- An access starts (spec/05 R128): address, data and direction as they stand at the start of the step; a dual write starts
an access that lands nothing (R132). -/
def Dev.startAccess (d : Dev) (a : Act) (dual : Bool) (m : SMap Acc) : SMap Acc :=
  SMap.ins m a.key ⟨d.tk.seq, a.v, SMap.get d.arr.portAddr a.key, SMap.get d.arr.portWd a.key, dual, none⟩

/-- A far request is issued (spec/05 R146): it takes entry ISSUED of the pending buffer, with the registers as they stand at the
start of the step. -/
def Dev.issueFar (d : Dev) (a : Act) : Dev :=
  let g4 := a.key
  let n := SMap.get d.arr.farNext g4
  let j := d.rdAt R.FAR.FAR_STATUS_ISSUED g4 0
  let q : FarReq :=
    { entry := j, window := d.farWindow g4, line := d.farLine g4, write := a.v, data := SMap.get d.arr.farWd g4
      step := d.tk.step, answered := false, discard := false }
  ((({ d with arr := { d.arr with farReq := SMap.ins d.arr.farReq (g4 * 2 ^ 32 + n) q, farNext := SMap.set d.arr.farNext g4 (n + 1) } }).wrAt
    R.FAR.FAR_STATUS_ISSUED g4 0 (j + 1)).count 0xB2 14 1)

/-- A write that stands in the stage takes effect at the end of the step (R53). -/
def Dev.applyAct (d : Dev) (a : Act) : Dev :=
  let r := d.arr
  match a.kind with
  | .nbr => { d with arr := { r with nbr := SMap.set r.nbr a.key a.v } }
  | .memAddr => { d with arr := { r with portAddr := SMap.set r.portAddr a.key ((SMap.get r.portAddr a.key * 2 + a.v) % 2 ^ 17) } }
  | .memWdata =>
    { d with arr := { r with portWd := SMap.set r.portWd (a.key / 256) (putBit (SMap.get r.portWd (a.key / 256)) (a.key % 256) a.v) } }
  | .farAddr => { d with arr := { r with farAddr := SMap.set r.farAddr (a.key / 64) (putBit (SMap.get r.farAddr (a.key / 64)) (a.key % 64) a.v) } }
  | .farData => { d with arr := { r with farWd := SMap.set r.farWd (a.key / 512) (putBit (SMap.get r.farWd (a.key / 512)) (a.key % 512) a.v) } }
  | .edge => { d with arr := { r with edgeOut := SMap.set r.edgeOut a.key a.v } }
  | .probe => { d with arr := { r with probe := SMap.set r.probe a.key a.v } }
  | .lane | .memGo | .farGo => d

/-- The G4s whose domain is ON. -/
def Dev.liveG4s (d : Dev) : List Nat := (List.range d.g4s).filter fun g => d.domState g == 2

/-- The power sums of the step: PEAK_g, and POWER_BUDGET of kind 0 (spec/06 R161, R162). -/
def Dev.powerSums (d : Dev) : Dev :=
  forAll d.liveG4s (fun g d =>
    let sum := d.tokenSum g d.tk.step
    let d1 := if d.rdAt R.CHECK.PEAK 0 g < sum then d.wrAt R.CHECK.PEAK 0 g sum else d
    if d.rdAt R.CHECK.BUDGET 0 g < sum then
      d1.addFaults [d1.groupFault 0x15 2 4 (g * 4096) (sum % 2 ^ 20 + d.rdAt R.CHECK.BUDGET 0 g * 2 ^ 20)]
    else d1) d

/-- Slot `s` of the KermaLink outbound lanes, as the ports transmit it (R83, spec/11 R297): what a lane with SEL = 1 carries, and 0 on every other lane (R79). -/
def Dev.storeSlots (d : Dev) (s : Nat) : Dev :=
  let blank := { d with ports := SMap.mapVal d.ports fun q => { q with store := q.store.filter fun e => decide (e.1 % 2048 ≠ s) } }
  d.arr.selTab.foldl (fun x e =>
    let id := e.1 / 512
    if segTy id = 0xA ∧ e.1 % 512 = s / 4 ∧ isSet (d.selEntry id s) 15 then
      x.setPort (segLane id / 128) fun q => { q with store := SMap.set q.store (segLane id % 128 * 2048 + s) (d.segHeld id % 2) }
    else x) blank

/-- Every conflict between the words of the step. -/
def Dev.wordConflicts (d : Dev) (as clean : List Act) : List FRec :=
  d.portConflicts as ++ d.farConflicts as ++ d.laneConflicts as ++ d.dualWrites clean

/-- The shared writes of the step (R43): the accesses that earlier steps started make their array cycle first; what conflicts
takes no effect; requests and accesses take the registers as they stood at the start of the step. -/
def Dev.applyStep (d : Dev) : Dev :=
  let as := d.tk.stage
  let clean := as.filter fun a => a.ok && !conflicted as a
  let fs := d.wordConflicts as clean
  let d1 := d.bankCycles.deliverReads
  let gos := clean.filter fun a => decide (a.kind = .memGo)
  let d2 := { d1 with arr := { d1.arr with acc := gos.foldl (fun m a => d.startAccess a (d.dualWrite clean a) m) d1.arr.acc } }
  let d3 := forAll (clean.filter fun a => decide (a.kind = .farGo)) (fun a d => (d.issueFar a).notePeak) d2
  let d4 := forAll clean (fun a d => d.applyAct a) d3
  let driven := (clean.filter fun a => decide (a.kind = .lane)).foldl (fun m a => SMap.set m (outLane (a.key / 8) (a.key % 8)) (a.v + 2)) []
  let s := d.tk.step
  ((d4.storeSlots s).shiftLanes s ((s + 1) % max d.tk.len 1) driven).addFaults fs

/-- Steps 2 to 6 of the array fault stop (R67, R456, R121): the records in order, each with its FAULT packet, EV_ARRAY_FAULT, the HALT
packet and, in a linked system, STOP. -/
def Dev.faultStop (d : Dev) (fs : List FRec) : Dev :=
  let code := (fs.head?.map (·.code)).getD 0
  let d1 := forAll fs (fun r d => d.report r true) d.abandonTake
  (((d1.event 0x000).traceHalt d1.position).sendStop code).snapNow

/-- Index of the last step of pitch `b`. -/
def Dev.lastStep (d : Dev) (b : Nat) : Nat :=
  if b + 1 < d.tk.pitches then fieldAt (d.rdAt R.TAKE.PITCH_MAP 0 (b + 1)) 0 11 - 1 else d.tk.len - 1

/-- The step counter goes on: to the next step, or to the end of the pitch.  `slots` is what the segments carried in the step. -/
def Dev.nextStep (slots : SMap Nat) (d : Dev) : Dev :=
  let tk := { d.tk with acted := [], stage := [], faults := [] }
  if d.tk.step = d.lastStep d.tk.belay then
    { d with tk := { tk with phase := .ended }, arr := { d.arr with segsLast := slots } }
  else { d with tk := { tk with step := d.tk.step + 1 } }

/-- The end of the step in execution: every BP that has not acted acts, then everything that the step does at its end. -/
def Dev.endStep (d : Dev) : Dev :=
  let before := d.arr.probe
  let d1 := forAll d.bpsToAct (fun bp d => d.runBp bp) d
  let s := d1.tk.step
  let d2 := (d1.addFaults (d1.badSelections s ++ d1.outboundUndriven s)).countSelections s
  let d3 := ((d2.powerSums).applyStep).watchStep
  let d4 := (d3.probeCount false before).count 0xB2 1 1
  let fs := orderFaults d4.tk.faults
  let d5 := { d4 with tk := { d4.tk with seq := d4.tk.seq + 1 } }.retireAccesses
  if fs ≠ [] then d5.faultStop fs
  else if d5.tk.stopReq then ((d5.abandonTake.sendStop d5.tk.haltOrigin).traceHalt d5.position).snapNow
  else d5.nextStep d.arr.segs

end Sys2Proof.Machine
end

