-- ==== Sys2Proof/Machine/Wiring.lean ====
section
/-! DEFINITION. How devices are wired into a G7 and a G8 (spec/01 R30, R31), which ports a reel set uses, and how the slots of a
pitch are cut into DATA frames (spec/11 R296, R297). -/

namespace Sys2Proof.Machine

/-- Position and port that face port `k` of the device at position `pos` (R30, R31); the outward port of device g in G7 g faces
nothing. -/
def facing (pos k : Nat) : Option (Nat × Nat) :=
  let g := pos / 8
  let d := pos % 8
  if k ≠ d then some (g * 8 + k, d) else if d ≠ g then some (d * 8 + g, g) else none

/-- The positions of a reel set of `n` devices, one of them at position `pos` (R29: gaps are allowed).  DESIGN CHOICE (log 38): they are a value of
the set that the manual leaves open; one that does not name `n` positions with `pos` among them gives way to the lowest positions. -/
def setMembers (production pos n : Nat) : Nat :=
  let m := Config.reelSet production % 2 ^ 64
  if n ≤ 1 then 2 ^ pos
  else if popCount m 64 = n ∧ isSet m pos then m
  else if pos < n then 2 ^ n - 1 else 2 ^ (n - 1) - 1 + 2 ^ pos

/-- The ports that the reel set wires (R34): those that face a member. -/
def Dev.wiredPorts (d : Dev) : List Nat :=
  (List.range 8).filter fun k =>
    match facing d.position k with
    | some (p, _) => isSet d.ld.members p
    | none => false

/-- The positions among `ok` that are in the set `m` or face one of it (R30, R31). -/
def grown (ok m : Nat) : Nat :=
  (List.range 64).foldl (fun s p =>
    if isSet ok p && !isSet m p && (List.range 8).any (fun k => match facing p k with | some (q, _) => isSet m q | none => false) then s + 2 ^ p else s) m

/-- The links of a shortest path from position `p` to one of the set `m`, through positions among `ok`. -/
def linksTo (ok m p : Nat) : Nat → Option Nat
  | 0 => none
  | fuel + 1 => if isSet m p then some 0 else (linksTo ok (grown ok m) p fuel).map (· + 1)

/-- The length of the shortest path to position `b` that begins at port `k`, which must carry messages; it goes through members of the reel set, or, where the device is of none, through any
position, and does not come back to the device. -/
def Dev.pathBy (d : Dev) (b k : Nat) : Option Nat :=
  let all := if d.linked then d.ld.members else 2 ^ 64 - 1
  if d.portTalks k then
    match facing d.position k with
    | some (q, _) => linksTo (putBit all d.position 0) (2 ^ b) q 8
    | none => none
  else none

/-- The first port of the shortest path to position `b` over the ports of R30 and R31, the lower-numbered one where two paths are equally short (spec/10 R271). -/
def Dev.firstPort (d : Dev) (b : Nat) : Option Nat :=
  ((List.range 8).foldl (fun m k =>
    match d.pathBy b k, m with
    | some n, some (n', _) => if n < n' then some (n, k) else m
    | some n, none => some (n, k)
    | none, _ => m) (none : Option (Nat × Nat))).map (·.2)

/-- Length in steps of pitch `q`. -/
def Dev.pitchLen (d : Dev) (q : Nat) : Nat := d.lastStep q + 1 - fieldAt (d.rdAt R.TAKE.PITCH_MAP 0 q) 0 11

/-- U, the lanes in use of a port. -/
def Dev.usedLanes (d : Dev) (p : Nat) : Nat := popCount (d.rdAt R.KL.KL_STATUS_USABLE p 0) 8

/-- B, the payload bits of a frame of a port (R295). -/
def Dev.frameBits (d : Dev) (p : Nat) : Nat := 200 * max 1 (d.usedLanes p)

/-- T, the trained lane count (R296). -/
def Dev.trained (d : Dev) (p : Nat) : Nat := d.rdAt R.KL.KL_STATUS_TRAINED p 0

/-- D_q, the DATA frames of pitch `q` on a port (R297). -/
def Dev.pitchFrames (d : Dev) (p q : Nat) : Nat := (d.pitchLen q * d.trained p + d.frameBits p - 1) / d.frameBits p

/-- The DATA frames of the pitches below `q`. -/
def Dev.framesBefore (d : Dev) (p q : Nat) : Nat := ((List.range q).map (d.pitchFrames p)).sum

/-- The pitch and the number within it of DATA frame `j` of a take, by going through the pitches from `q`. -/
def Dev.framePlaceFrom (d : Dev) (p j q : Nat) : Nat → Option (Nat × Nat)
  | 0 => none
  | n + 1 => if j < d.pitchFrames p q then some (q, j) else d.framePlaceFrom p (j - d.pitchFrames p q) (q + 1) n

/-- The pitch and the number within it of DATA frame `j` of a take. -/
def Dev.framePlace (d : Dev) (p j : Nat) : Option (Nat × Nat) := d.framePlaceFrom p j 0 d.tk.pitches

/-- Pitch-map entry `b` (spec/04 R95). -/
def Dev.mapEntry (d : Dev) (b : Nat) : Nat := d.rdAt R.TAKE.PITCH_MAP 0 b

/-- The pitch that the current belay closes. -/
def Dev.closingPitch (d : Dev) : Nat := (d.tk.belay + d.tk.pitches - 1) % max 1 d.tk.pitches

/-- The wired ports on which a frame of the closing pitch has not yet arrived, or that are not ACTIVE (spec/04 R98, spec/11 R312).  Belay 0 at which a run starts closes no
pitch. -/
def Dev.missingPorts (d : Dev) : List Nat :=
  if d.tk.ran then d.wiredPorts.filter fun p => decide (d.portState p ≠ 6) ||
    decide ((d.port p).rxTotal < d.framesBefore p (d.closingPitch + 1)) else []

/-- The device is the time and belay master of its set, or stands alone (spec/04 R118). -/
def Dev.isMaster (d : Dev) : Bool := !d.linked || d.on R.TIME.TIME_STATUS_MASTER

end Sys2Proof.Machine
end

