-- ==== Sys2Proof/Machine/Sched.lean ====
section
/-! DEFINITION. The scheduler of the service engines (spec/14): the fields of a descriptor, tokens, the matching store, the delay lists,
where items stand, and how they end. -/

namespace Sys2Proof.Machine

/-! Fields of a descriptor (R363). -/

def Item.ty (i : Item) : Nat := leAt i.desc 0 1
def Item.flags (i : Item) : Nat := leAt i.desc 1 1
def Item.prio (i : Item) : Nat := leAt i.desc 2 1 % 4
def Item.ctx (i : Item) : Nat := leAt i.desc 3 1 % 64
def Item.tokenCount (i : Item) : Nat := leAt i.desc 4 1 % 8
def Item.list (i : Item) : Nat := leAt i.desc 5 1 % 16
def Item.doneToken (i : Item) : Nat := leAt i.desc 6 2
/-- Operand token `k`. -/
def Item.token (i : Item) (k : Nat) : Nat := leAt i.desc (8 + 2 * k) 2
def Item.tag (i : Item) : Nat := leAt i.desc 16 8
def Item.src (i : Item) : Nat := leAt i.desc 24 8
def Item.dst (i : Item) : Nat := leAt i.desc 32 8
def Item.len (i : Item) : Nat := leAt i.desc 40 8
def Item.arg (i : Item) : Nat := leAt i.desc 48 8
def Item.resumeState (i : Item) : Nat := leAt i.desc 56 8
/-- The operand tokens of an item. -/
def Item.tokens (i : Item) : List Nat := (List.range i.tokenCount).map i.token

/-- Types with restart points (R365): COPY, FILL, READBACK, VERIFY, RESTORE, CHECKSUM, TRACE_DRAIN, ERASE. -/
def Item.restartable (i : Item) : Bool := [1, 2, 4, 5, 8, 9, 0xA, 0xB].contains i.ty

/-- Types that never occupy an engine (R381): NOP, FENCE, TOKEN, TIMER, MAILBOX. -/
def Item.engineless (i : Item) : Bool := [0, 0xC, 0xD, 0xE, 0xF].contains i.ty

/-! Items. -/

/-- The item with number `id`. -/
def Dev.item (d : Dev) (id : Nat) : Option Item := d.eng.items.find? fun i => i.id == id

/-- Changing an item. -/
def Dev.setItem (d : Dev) (id : Nat) (f : Item → Item) : Dev :=
  { d with eng := { d.eng with items := d.eng.items.map fun i => if i.id = id then f i else i } }

/-- An item becomes ready: it takes the last place of its ready queue (R381). -/
def Dev.makeReady (id : Nat) (d : Dev) : Dev :=
  let d1 := d.setItem id fun i => { i with stand := .ready, order := d.eng.nextOrder }
  { d1 with eng := { d1.eng with nextOrder := d.eng.nextOrder + 1 } }

/-- An item returns to the head of its ready queue (R381, R382); an engine number from 64 upward is that of an engine that has run it and does no more. -/
def Dev.headReady (id : Nat) (d : Dev) : Dev :=
  let least := d.eng.items.foldl (fun m i => if i.stand = .ready then min m i.order else m) d.eng.nextOrder
  d.setItem id fun i => { i with stand := .ready, order := least - 1, engine := if i.stand = .running ∨ i.restart then 64 + i.engine % 64 else 32 }

/-- An item ends: its completion entry is to be written (R377). -/
def Dev.endItem (id status : Nat) (d : Dev) : Dev := d.setItem id fun i => { i with stand := .finished, status := status }

/-! Tokens (R379, R380). -/

/-- The items in the matching store take their tokens, oldest first. -/
def Dev.matchItems (d : Dev) : Dev :=
  forAll (d.eng.items.filter fun i => decide (i.stand = .matching)) (fun i d =>
    if i.tokens.all (fun t => decide (1 ≤ SMap.get d.eng.tokens t)) then
      let m := i.tokens.foldl (fun m t => SMap.set m t (SMap.get m t - 1)) d.eng.tokens
      ({ d with eng := { d.eng with tokens := m } }).makeReady i.id
    else d) d

/-- A post of `n` counts of token `t` (R379); token 0 is none. A post beyond 255 leaves the count at 255 and is reported. -/
def Dev.postToken (t n : Nat) (d : Dev) : Dev :=
  if t = 0 then d
  else
    let c := SMap.get d.eng.tokens t + n
    let d1 := { d with eng := { d.eng with tokens := SMap.set d.eng.tokens t (min c 255) } }
    let d2 := if 255 < c then
        (((d1.wr R.ENG_SCHED.SCHED_STATUS_TOKEN_OVF 1).wr R.ENG_SCHED.SCHED_STATUS_LAST_OVF_ID t).event 0x680)
      else d1
    d2.matchItems

/-- The token of belay `b` as BELAY_TOKEN gives it now, 0 for none; a write takes effect from the next belay (R384). -/
def Dev.belayToken (d : Dev) (b : Nat) : Nat :=
  if d.rdAt R.ENG_SCHED.BELAY_TOKEN_ENABLE 0 b = 1 then d.rdAt R.ENG_SCHED.BELAY_TOKEN_ID 0 b else 0

/-- The tick token of time base `n`, if enabled. -/
def Dev.tickToken (d : Dev) (n : Nat) : Dev :=
  if d.rdAt R.ENG_SCHED.TICK_TOKEN_ENABLE 0 n = 1 then d.postToken (d.rdAt R.ENG_SCHED.TICK_TOKEN_ID 0 n) 1 else d

/-! Injection (R101, R191, R370 to R372). -/

/-- Take and belay that an INJECT item names. -/
def Item.injectTake (i : Item) : Nat := fieldAt i.arg 0 48
def Item.injectBelay (i : Item) : Nat := fieldAt i.arg 48 4

/-- The injection list of belay `b`: the state entries it names, as bits of the state store, in order (R190, R191). -/
def Dev.injectList (d : Dev) (b : Nat) : List Nat :=
  ((SMap.look d.arr.injTab b).getD []).map fun e => fieldAt e 0 18 * 512 + fieldAt e 18 9

/-- An SQ still holds unfetched descriptors below the tail recorded at the last write of INJECT_THROUGH (R371). -/
def Dev.sqBehind (d : Dev) : Bool :=
  d.eng.tails.any fun e =>
    let left := (2 ^ 32 + (e.2 - 1) - d.rdAt R.ENGQ.SQ_HEAD e.1 0) % 2 ^ 32
    decide (0 < left ∧ left < 2 ^ 31)

/-- The condition of WAIT_INJECT for the current take at belay `b` (R98, R371).  DEDUCED: an item in the staging counts as there, since it
is applied only in cycle k + 2; what holds the belay are fetched items that are not staged yet. -/
def Dev.injectMet (d : Dev) (b : Nat) : Bool :=
  let n := d.rd R.TAKE.TAKE_NUMBER
  decide (n ≤ d.rd R.TAKE.INJECT_THROUGH) && !d.sqBehind &&
    !d.eng.items.any fun i => decide (i.ty = 6 ∧ i.injectTake = n ∧ i.injectBelay = b) &&
      (decide (i.stand = .matching) || decide (i.stand = .ready) || decide (i.stand = .running) || decide (i.stand = .prefetch))

/-- The bits of an injection written into the state entries of a list, each old value entering the journal (R67, R191). -/
def Dev.injectBits (d : Dev) (bits : Nat) (targets : List Nat) : Dev :=
  let st := (targets.zip (List.range targets.length)).foldl
    (fun (st : SMap Nat × List (Nat × Nat)) t =>
      (SMap.bitSet st.1 t.1 (bitAt bits t.2), (t.1, SMap.bitGet st.1 t.1) :: st.2)) (d.arr.stateRows, d.arr.journal)
  { d with arr := { d.arr with stateRows := st.1, journal := st.2 } }

/-- Cycle k + 2 at belay `b`: the kept items of an earlier attempt, then the others in the order of staging (R370, R372). -/
def Dev.applyInjects (d : Dev) (b : Nat) : Dev :=
  let n := d.rd R.TAKE.TAKE_NUMBER
  let due := d.eng.inject.filter fun j => decide (j.take = n ∧ j.belay = b) && !j.applied
  let d1 := forAll (due.filter (·.kept) ++ due.filter (fun j => !j.kept)) (fun j d =>
    let d1 := (d.injectBits j.bits (d.injectList b)).count 0xB2 13 1
    if j.kept then d1 else d1.endItem j.item 0x00) d
  { d1 with eng := { d1.eng with inject := d1.eng.inject.map fun j => if j.take = n ∧ j.belay = b then { j with applied := true } else j } }

/-- The take boundary frees what has been applied (R372). -/
def Dev.freeInjects (d : Dev) : Dev := { d with eng := { d.eng with inject := d.eng.inject.filter fun j => !j.applied } }

/-! Captures of edge-lane samples (R373). -/

/-- The running CAPTURE items whose takes include the current take. -/
def Dev.capturing (d : Dev) : List Item :=
  let n := d.rd R.TAKE.TAKE_NUMBER
  d.eng.items.filter fun i =>
    decide (i.ty = 7 ∧ i.stand = .running ∧ fieldAt i.arg 0 48 ≤ n ∧ n < fieldAt i.arg 0 48 + i.len / 128)

/-- The 1,024 inbound samples as one number. -/
def Dev.sampleBits (d : Dev) : Nat := d.edge.sample.foldl (fun v e => v + e.2 % 2 * 2 ^ e.1) 0

/-- Cycle k of belay 0: the sample of the take is recorded for each CAPTURE item; the 65th unwritten record ends its item. A take
executed again replaces its record (R373). -/
def Dev.captureSample (d : Dev) : Dev :=
  let n := d.rd R.TAKE.TAKE_NUMBER
  forAll d.capturing (fun i d =>
    let rest := d.eng.captures.filter fun c => !(decide (c.1 = i.id ∧ c.2.1 = n))
    if rest.length < 64 then { d with eng := { d.eng with captures := rest ++ [(i.id, n, d.sampleBits)] } }
    else ({ d with eng := { d.eng with captures := d.eng.captures.filter fun c => c.1 ≠ i.id } }).endItem i.id 0x18) d

end Sys2Proof.Machine
end

