-- ==== Sys2Proof/Machine/TraceTake.lean ====
section
/-! DEFINITION. What the trace unit writes at a take boundary (spec/17 R446 to R458): cairn, TS, TDELTA and TAKE packets. -/

namespace Sys2Proof.Machine

/-- The number of zero bytes at the head. -/
def zeroPrefix : Bytes → Nat
  | [] => 0
  | b :: bs => if b = 0 then zeroPrefix bs + 1 else 0

/-- Literal bytes, at most 128 to a control byte (R451). -/
def literalRuns (bs : Bytes) : Nat → Bytes
  | 0 => []
  | n + 1 =>
    if bs = [] then []
    else BitVec.ofNat 8 ((bs.take 128).length - 1) :: (bs.take 128 ++ literalRuns (bs.drop 128) n)

/-- A run of `z` zero bytes, at most 128 to a control byte (R451). -/
def zeroRuns (z : Nat) : Nat → Bytes
  | 0 => []
  | n + 1 => if z = 0 then [] else BitVec.ofNat 8 (0x80 + (min z 128 - 1)) :: zeroRuns (z - 128) n

/-- The coded vector (R451): every run of two or more zero bytes is a zero run, the bytes between are literals. -/
def codeVector (bs lit : Bytes) : Nat → Bytes
  | 0 => literalRuns lit (lit.length + 1)
  | n + 1 =>
    match bs with
    | [] => literalRuns lit (lit.length + 1)
    | b :: rest =>
      let z := zeroPrefix (b :: rest)
      if 2 ≤ z then literalRuns lit (lit.length + 1) ++ zeroRuns z (z + 1) ++ codeVector ((b :: rest).drop z) [] n
      else codeVector rest (lit ++ [b]) n

/-- The zigzag code of a field difference (R450). -/
def zigzag (w v u : Nat) : Nat :=
  let x := signedOf w ((v + 2 ^ w - u % 2 ^ w) % 2 ^ w)
  if 0 ≤ x then 2 * x.toNat else 2 * (-x).toNat - 1

/-- The value of field `f`. -/
def Dev.traceField (d : Dev) (f : Nat) : Nat := d.probeField (d.rdAt R.TRACE.FIELD_CFG_BASE 0 f) (d.rdAt R.TRACE.FIELD_CFG_WIDTH 0 f)

/-- The capture of a take (R446, R447) as one number. -/
def Dev.captureNow (d : Dev) : Nat :=
  (d.captureLanes.zip (List.range d.captureLanes.length)).foldl (fun v x => v + d.probeLane x.1 * 2 ^ x.2) 0

/-- The TAKE packet, coded against zero with `key` (R449 to R452). -/
def Dev.takePacket (d : Dev) (key : Bool) : Bytes :=
  let prev := if key then 0 else d.trc.prev
  let fields := d.traceFields.flatMap fun f =>
    varint64 (zigzag (d.rdAt R.TRACE.FIELD_CFG_WIDTH 0 f) (d.traceField f) (if key then 0 else SMap.get d.trc.lastField f))
  let x := leBytes (d.captureNow ^^^ prev) d.captureLen
  packetHead 0x1 (bit key) :: (fields ++ codeVector x [] (x.length + 1))

/-- TDELTA packet (R449, R455). -/
def Dev.tdeltaPacket (d : Dev) (lastTake lastTime : Nat) : Bytes :=
  packetHead 0x3 0 :: (varint64 (d.rd R.TAKE.TAKE_NUMBER - lastTake) ++ varint64 ((2 ^ 64 + d.stamp - lastTime) % 2 ^ 64 / 2 ^ 28))

/-- Take `n` is traced (R458). -/
def Dev.inFilter (d : Dev) (n : Nat) : Bool :=
  !d.on R.TRACE.TRACE_CTRL_FILT_EN || (decide (d.rd R.TRACE.FILT_FROM_TAKE ≤ n) && decide (n < d.rd R.TRACE.FILT_TO_TAKE))

/-- TAKE and TDELTA packets are written (R448, R462). -/
def Dev.takesTraced (d : Dev) : Bool := d.on R.TRACE.TRACE_CTRL_CAP_EN && !d.on R.LOAD.LOAD_STATUS_SECURE

/-- A cairn stands before the packets of this boundary (R454).  DEDUCED: also where the last TAKE packet since a cairn was not that of the take before, as after secure
content or a load, since a gap in take numbers always comes after a cairn (R452). -/
def Dev.cairnDue (d : Dev) (n : Nat) : Bool :=
  d.trc.needCairn || d.trc.gap || decide (d.rd R.TRACE.TRACE_CTRL_CAIRN_KIB * 1024 ≤ d.trc.sinceCairn) ||
    (d.takesTraced && !d.trc.key && decide (d.trc.nextTake ≠ n))

/-- A TS packet is due (R455). -/
def Dev.tsDue (d : Dev) : Bool :=
  d.on R.TRACE.TRACE_CTRL_TS_EN && decide ((2 ^ 64 + d.stamp - (d.trc.lastTs + d.rd R.TRACE.TS_PERIOD_US * usec) % 2 ^ 64) % 2 ^ 64 < 2 ^ 63)

/-- The packets of the boundary that closes take `n`: all of them, or, if they do not fit, none and the take is lost (R457). -/
def Dev.traceBoundary (n : Nat) (d : Dev) : Dev :=
  if !d.tracing then d
  else if !d.inFilter n then { d with trc := { d.trc with gap := true } }
  else
    let cairn := d.cairnDue n
    let c := if cairn then d.cairnBytes d.trc.off n else []
    let ts := if d.tsDue then d.tsBytes else []
    let lastTake := if d.tsDue then d.rd R.TAKE.TAKE_NUMBER else d.trc.lastTake
    let lastTime := if d.tsDue then d.stamp else d.trc.lastTime
    let key := cairn || d.trc.key
    let td := if d.takesTraced && d.on R.TRACE.TRACE_CTRL_TD_EN then d.tdeltaPacket lastTake lastTime else []
    let tp := if d.takesTraced then d.takePacket key else []
    let bs := c ++ ts ++ td ++ tp
    if bs = [] then d
    else if d.traceFits bs.length then
      let d1 := d.streamOut bs
      let d2 := if cairn then { d1.afterCairn with trc := { d1.afterCairn.trc with sinceCairn := bs.length } } else d1
      let d3 := if d.tsDue then { d2 with trc := { d2.trc with lastTs := d.stamp, lastTime := d.stamp, lastTake := d.rd R.TAKE.TAKE_NUMBER } } else d2
      let d4 := if td ≠ [] then { d3 with trc := { d3.trc with lastTime := d.stamp, lastTake := d.rd R.TAKE.TAKE_NUMBER } } else d3
      if d.takesTraced then
        let fields := d.traceFields.foldl (fun m f => SMap.set m f (d.traceField f)) []
        ({ d4 with trc := { d4.trc with prev := d.captureNow, key := false, lastField := fields, nextTake := n + 1 } }).count 0xB4 1 1
      else d4
    else
      (({ d with trc := { d.trc with lostTakes := d.trc.lostTakes + 1 } }.wr R.TRACE.TRACE_STATUS_OVERFLOWING 1).count 0xB4 2 1)

end Sys2Proof.Machine
end

