-- ==== Sys2Proof/Machine/ArraySpace.lean ====
section
/-! DEFINITION. The array aperture and the engine array space (spec/12 R323 to R325, spec/14 R364): reading and writing instruction words,
step, state and shadow entries and banks by byte address. -/

namespace Sys2Proof.Machine

/-- The regions of the engine array space. -/
inductive Region where
  | instr | step | state | shadow | bank | reserved
  deriving DecidableEq, Repr, Inhabited

/-- The region of an offset (R323, R364).  Offsets of absent BPs and banks are reserved. -/
def Dev.region (d : Dev) (off : Nat) : Region :=
  if off < 0x180000000 then (if off / 0x6000 < d.bps then .instr else .reserved)
  else if off < 0x184000000 then (if (off - 0x180000000) / 256 < d.bps then .step else .reserved)
  else if off < 0x185000000 then (if (off - 0x184000000) / 64 < d.bps then .state else .reserved)
  else if off < 0x186000000 then (if (off - 0x185000000) / 64 < d.bps then .shadow else .reserved)
  else if 0x200000000 ≤ off ∧ off - 0x200000000 < d.g2s * 0x10000 then .bank
  else .reserved

/-- The domain whose stores an aperture offset names: the G4 for data stores and banks; instruction words lie in the die's instruction store. -/
def Dev.offsetDomain (d : Dev) (off : Nat) : Option Nat :=
  match d.region off with
  | .instr => some (0x68 + off / 0x6000 / 32768)
  | .step => some ((off - 0x180000000) / 256 / 4096)
  | .state => some ((off - 0x184000000) / 64 / 4096)
  | .shadow => some ((off - 0x185000000) / 64 / 4096)
  | .bank => some ((off - 0x200000000) / 0x10000 / 64)
  | .reserved => none

/-- Row (store 0 step, 1 state, 2 shadow) number `row` of the store: whether its parity fails. `per` rows to a BP. -/
def Dev.rowFails (d : Dev) (store per row : Nat) : Bool := SMap.get d.arr.badRows ((row / per * 3 + store) * 256 + row % per) == 1

/-- The byte at an offset, and whether it must be returned as poisoned (R324). -/
def Dev.arrByte (d : Dev) (off : Nat) : Byte × Bool :=
  match d.region off with
  | .instr =>
    match decodeEcc 96 (SMap.get d.arr.cols (off / 12)) with
    | .clean w => (BitVec.ofNat 8 (w / 256 ^ (off % 12)), false)
    | .corrected w => (BitVec.ofNat 8 (w / 256 ^ (off % 12)), false)
    | .bad w _ => (BitVec.ofNat 8 (w / 256 ^ (off % 12)), true)
  | .step => (BitVec.ofNat 8 (SMap.get d.arr.stepRows (off - 0x180000000)), d.rowFails 0 256 (off - 0x180000000))
  | .state => (BitVec.ofNat 8 (SMap.get d.arr.stateRows (off - 0x184000000)), d.rowFails 1 64 (off - 0x184000000))
  | .shadow => (BitVec.ofNat 8 (SMap.get d.arr.shadowRows (off - 0x185000000)), d.rowFails 2 64 (off - 0x185000000))
  | .bank => (SMap.get d.arr.banks (off - 0x200000000), false)
  | .reserved => (0, false)

/-- `n` bytes from an offset, and whether any of them is poisoned. -/
def Dev.arrRead (d : Dev) (off n : Nat) : Bytes × Bool :=
  let l := (List.range n).map fun i => d.arrByte (off + i)
  (l.map (·.1), l.any (·.2))

/-- A row of eight entries written as a whole: fresh parity (spec/02 R66), and no journal entry of it is undone any more (R67). -/
def Dev.writeRow (d : Dev) (store per row v : Nat) : Dev :=
  let bad := SMap.set d.arr.badRows ((row / per * 3 + store) * 256 + row % per) 0
  if store = 0 then { d with arr := { d.arr with stepRows := SMap.set d.arr.stepRows row v, badRows := bad } }
  else
    { d with arr := { d.arr with
        stateRows := SMap.set d.arr.stateRows row v, badRows := bad, journal := d.arr.journal.filter fun e => decide (e.1 / 8 ≠ row) } }

/-- An instruction word stored with fresh check bits (R40). -/
def Dev.writeWord (d : Dev) (q v : Nat) : Dev := { d with arr := { d.arr with cols := SMap.set d.arr.cols q (encodeEcc 96 v) } }

/-- The part of a byte sequence at `off` that falls into word `q`, put over the bytes of `v`. -/
def overlay (off : Nat) (bs : Bytes) (q v : Nat) : Nat :=
  leNat ((List.range 12).map fun k =>
    let a := q * 12 + k
    if off ≤ a ∧ a < off + bs.length then (bs.drop (a - off)).headD 0 else BitVec.ofNat 8 (v / 256 ^ k))

/-- A write into instruction word `q` (R325): whole, or a merge, which an uncorrectable word refuses. -/
def Dev.mergeWord (off : Nat) (bs : Bytes) (q : Nat) (d : Dev) : Dev :=
  if off ≤ q * 12 ∧ q * 12 + 12 ≤ off + bs.length then d.writeWord q (overlay off bs q 0)
  else
    match decodeEcc 96 (SMap.get d.arr.cols q) with
    | .clean v => d.writeWord q (overlay off bs q v)
    | .corrected v => d.writeWord q (overlay off bs q v)
    | .bad _ _ => d.wr R.PCIE.PCIE_STATUS_INSTR_MERGE_REFUSED 1

/-- A byte written outside the instruction words; the shadow region and reserved offsets take no write (R323). -/
def Dev.writeArrByte (off : Nat) (b : Byte) (d : Dev) : Dev :=
  match d.region off with
  | .step => d.writeRow 0 256 (off - 0x180000000) b.toNat
  | .state => d.writeRow 1 64 (off - 0x184000000) b.toNat
  | .bank => { d with arr := { d.arr with banks := SMap.set d.arr.banks (off - 0x200000000) b } }
  | .instr | .shadow | .reserved => d

/-- Bytes written from an offset, as a belay access (R19). -/
def Dev.arrWrite (d : Dev) (off : Nat) (bs : Bytes) : Dev :=
  if d.region off = .instr ∧ bs ≠ [] then
    let last := min (off + bs.length - 1) (0x180000000 - 1)
    forAll ((List.range (last / 12 - off / 12 + 1)).map fun k => off / 12 + k) (fun q d => d.mergeWord off bs q) d
  else forAll ((List.range bs.length).zip bs) (fun x d => d.writeArrByte (off + x.1) x.2) d

/-- An access lies within one region, and covers whole words where it touches instruction words (R364). -/
def Dev.arrFits (d : Dev) (off n : Nat) : Bool :=
  let r := d.region off
  decide (n = 0) ||
  (decide (r ≠ .reserved) && decide (d.region (off + n - 1) = r) && (decide (r ≠ .instr) || (decide (off % 12 = 0) && decide (n % 12 = 0))))

/-- The bank page that governs the bank at an offset of the bank region. -/
def Dev.bankAt (d : Dev) (off : Nat) : Nat := d.bankPage ((off - 0x200000000) / 0x10000)

end Sys2Proof.Machine
end

