-- ==== Sys2Proof/Machine/Bap.lean ====
section
/-! DEFINITION. The background access port on the engine array space (spec/16 R431, R432, R434): what an access does when it takes effect. -/

namespace Sys2Proof.Machine

/-- LEN, the bytes of the access. -/
def Dev.bapLen (d : Dev) : Nat := d.rd R.DBG.BAP_CTRL_LEN
/-- The offset in the engine array space. -/
def Dev.bapOff (d : Dev) : Nat := d.rd R.DBG.BAP_ADDR % 2 ^ 36

/-- The access addresses a bank. -/
def Dev.bapBank (d : Dev) : Bool := decide (d.region d.bapOff = .bank)

/-- The result that an array-space access has before anything is moved (R432, R434): 3 SECURE, 5 INVALID, 2 OWNER, 0 OK.  The address
has bit 63 set and bits [62:36] clear (spec/14 R364). -/
def Dev.bapCheck (d : Dev) : Nat :=
  let write := d.on R.DBG.BAP_CTRL_WRITE
  if d.on R.LOAD.LOAD_STATUS_SECURE then 3
  else if d.bapLen = 0 ∨ 64 < d.bapLen ∨ !d.arrFits d.bapOff d.bapLen ∨ d.rd R.DBG.BAP_ADDR / 2 ^ 36 ≠ 2 ^ 27 then 5
  else if write && decide (d.region d.bapOff = .shadow) then 5
  else if write && d.bapBank && (decide (d.bankOwner (d.bankAt d.bapOff) = 1) ||
      (decide (d.bankOwner (d.bankAt d.bapOff) = 0) && d.running && !d.on R.DBG.BAP_CTRL_MODE)) then 2
  else 0

/-- The effect of an array-space access with result OK: data into BAP_DATA, or from it. -/
def Dev.bapMove (d : Dev) : Dev :=
  if d.on R.DBG.BAP_CTRL_WRITE then d.arrWrite d.bapOff (leBytes (d.rd R.DBG.BAP_DATA) d.bapLen)
  else d.wr R.DBG.BAP_DATA (leNat (d.arrRead d.bapOff d.bapLen).1)

/-- The domain that an array-space access addresses is ON, or there is none. -/
def Dev.bapPowered (d : Dev) : Bool := (d.offsetDomain d.bapOff).all fun i => d.domState i == 2

/-- The access takes effect: its result is fixed and only its report is still to come. -/
def Dev.bapEffect (d : Dev) : Dev :=
  let r := d.bapCheck
  let d1 := if r = 0 then d.bapMove else d
  let d2 := if r = 2 then (d1.wr R.DBG.DBG_STATUS_BAP_REFUSED 1).wrAt R.BANK.BANK_STATUS_REFUSED_ACCESS (d1.bankAt d1.bapOff) 0 1 else d1
  { d2.wr R.DBG.BAP_STATUS_RESULT r with dbg := { d2.dbg with bap := .report } }

/-- A queued access takes effect at belay `b` in cycle k + 2: BELAY names this belay, or any (R103, R432). -/
def Dev.bapAtBelay (d : Dev) (b : Nat) : Dev :=
  if d.dbg.bap = .service ∧ d.bapPowered ∧ (d.rd R.DBG.BAP_CTRL_BELAY = b ∨ d.rd R.DBG.BAP_CTRL_BELAY = 0x1F ∨ !d.on R.DBG.BAP_CTRL_WRITE) then d.bapEffect
  else d

/-- An inserted cycle is due at the current belay (R103): the entry carries ALLOW_STEAL, STEAL_LIMIT leaves room and an access waits. -/
def Dev.stealDue (d : Dev) : Bool :=
  decide (d.dbg.bap = .steal ∧ d.tk.phase = .waiting) && d.bapPowered && isSet (d.mapEntry d.tk.belay) 17 &&
    decide (d.tk.stolen < d.rd R.TAKE.TAKE_CTRL_STEAL_LIMIT)

/-- When an array-space access started now takes effect (R432). -/
def Dev.bapWhen (d : Dev) : BapWait :=
  let write := d.on R.DBG.BAP_CTRL_WRITE
  if !d.running then .now
  else if d.bapBank && decide (d.bankOwner (d.bankAt d.bapOff) = 2) then .now
  else if d.bapBank && !write && decide (d.bankOwner (d.bankAt d.bapOff) = 1) then .now
  else if d.bapBank && !write then .bankIdle (d.bankAt d.bapOff)
  else if d.on R.DBG.BAP_CTRL_MODE then .steal
  else .service

end Sys2Proof.Machine
end

