-- ==== Sys2Proof/Machine/Boundary.lean ====
section
/-! DEFINITION. The take boundary (spec/04 R94, R105): the shadow check and promotion (spec/02 R62, R66), the record of the boundary
(spec/03 R90, spec/05 R153, spec/16 R429), the watch unit's action (R428), trace, halts, and the fences of a partial load (spec/07 R204, R205). -/

namespace Sys2Proof.Machine

/-! Fences (spec/07 R202, R204, R205). -/

/-- The region of the slate in force: KIND, LEVEL, GROUP (R202). -/
def Dev.slateKind (d : Dev) : Nat := leAt d.ld.slate 0x200 1
def Dev.slateLevel (d : Dev) : Nat := leAt d.ld.slate 0x201 1
def Dev.slateGroup (d : Dev) : Nat := leAt d.ld.slate 0x204 4

/-- Border mode of border signal `i`: 1 HOLD, 2 ZERO, 3 ONE (R202). -/
def Dev.borderMode (d : Dev) (i : Nat) : Nat :=
  let m := fieldAt (leAt d.ld.slate (0x300 + i / 4) 1) (2 * (i % 4)) 2
  if m = 0 then leAt d.ld.slate 0x203 1 else m

/-- The upward lanes of a group of level 3, 4 or 5 (spec/03 R69). -/
def upLanes (lv : Nat) : Nat := if lv = 3 then 128 else if lv = 4 then 384 else 1024

/-- The level of the groups that own segments of a type; 9 for the hub, the edge and the ports. -/
def segLevel (ty : Nat) : Nat :=
  if ty = 1 then 1 else if ty = 2 ∨ ty = 3 then 2 else if ty = 4 ∨ ty = 5 then 3 else if ty = 6 ∨ ty = 7 then 4
  else if ty = 8 then 5 else 9

/-- The level of the group that owns a segment; 5 for the hub switch of a die. -/
def ownerLevel (ty : Nat) : Nat := if ty = 9 then 5 else segLevel ty

/-- The value that a fenced group's upward lane carries. -/
def Dev.borderValue (d : Dev) (lv lo i : Nat) : Nat :=
  let m := d.borderMode i
  if m = 1 then SMap.get d.arr.segsLast (segId (upType lv) lo i) % 2 else if m = 3 then 1 else 0

/-- The stores of the BPs `[lo, hi)` cleared, and the selection entries of the groups among them (R204). -/
def Dev.clearGroup (lo hi lv : Nat) (d : Dev) : Dev :=
  { d with arr := { d.arr with
      cols := SMap.clear d.arr.cols (lo * 2048) (hi * 2048)
      stepRows := SMap.clear d.arr.stepRows (lo * 256) (hi * 256)
      stateRows := SMap.clear d.arr.stateRows (lo * 64) (hi * 64)
      shadowRows := SMap.clear d.arr.shadowRows (lo * 64) (hi * 64)
      flagRows := SMap.clear d.arr.flagRows (lo * 64) (hi * 64)
      badRows := SMap.clear d.arr.badRows (lo * 768) (hi * 768)
      wrote := SMap.clear d.arr.wrote (lo * 256) (hi * 256)
      firstCommit := SMap.clear d.arr.firstCommit (lo * 512) (hi * 512)
      selTab := d.arr.selTab.filter fun e =>
        !(decide (ownerLevel (segTy (e.1 / 512)) ≤ lv ∧ lo ≤ segGroup (e.1 / 512) ∧ segGroup (e.1 / 512) < hi)) } }

/-- An array group is fenced (R204). -/
def Dev.fenceGroup (d : Dev) : Dev :=
  let lv := d.slateLevel
  let lo := d.slateGroup
  let hi := lo + levelSize lv
  let border := (List.range (upLanes lv)).foldl (fun m i => SMap.set m i (2 + d.borderValue lv lo i)) []
  let d1 := d.clearGroup lo hi lv
  let f : Fence := { lo := lo, hi := hi, level := lv, border := border }
  let d2 := { d1 with
    arr := { d1.arr with fences := d1.arr.fences ++ [f] }
    ld := { d1.ld with fencePending := false, rejoinPending := true } }
  let d3 := { d2 with arr := { d2.arr with segs := d2.fenceLanes d2.arr.segs } }
  d3.showFenced.event 0x202

/-- Every fenced group rejoins: REJOIN_TAKE is one register (R205). -/
def Dev.rejoinGroup (d : Dev) : Dev :=
  { d with arr := { d.arr with fences := [] }, ld := { d.ld with rejoinPending := false } }.showFenced

/-- The record of a rejoin that finds the load not COMPLETE: LOAD_INCOMPLETE with SEVERITY STOP (R198, R205). -/
def Dev.rejoinFault (d : Dev) : FRec :=
  d.record 0x46 2 0x5 (unitLoc 0x14) (d.rd R.LOAD.FRAMES_WRITTEN + d.rd R.LOAD.FRAME_COUNT * 2 ^ 32) 0

/-- The fence that the take about to begin names, in cycle 0 of its belay 0 (R204). -/
def Dev.boundaryFence (d : Dev) : Dev :=
  if d.ld.fencePending && decide (d.rd R.LOAD.FENCE_TAKE = d.rd R.TAKE.TAKE_NUMBER) then d.fenceGroup else d

/-- The rejoin that it names (R205): a load that is not COMPLETE stops the array, the group still fenced. -/
def Dev.boundaryRejoin (d : Dev) : Dev :=
  if d.ld.rejoinPending && decide (d.rd R.LOAD.REJOIN_TAKE = d.rd R.TAKE.TAKE_NUMBER) then
    if d.loadState = 2 then d.rejoinGroup else (d.wr R.LOAD.LOAD_STATUS_LAST_CODE 0x46).faultStop [d.rejoinFault]
  else d

/-! The shadow check and promotion (spec/02 R62, R66). -/

/-- The records of the shadow rows whose parity fails, each naming the first entry of its row. -/
def Dev.badShadows (d : Dev) : List FRec :=
  d.arr.badRows.filterMap fun e =>
    if e.2 = 1 ∧ e.1 / 256 % 3 = 2 then
      some { d.bpFault 0x1D (e.1 / 256 / 3) (e.1 % 256 * 8 + 2 * 2 ^ 12 + 2 ^ 14) with sev := 4 }
    else none

/-- Eight entries after promotion: the shadow where the written flag is set. -/
def promoteRow (flags shadow state : Nat) : Nat := (state ^^^ (state &&& flags)) ||| (shadow &&& flags)

/-- Promotion of every written shadow; the written flags, the written marks of step entries and the journal are cleared (R62, R67, R169). -/
def Dev.promote (d : Dev) : Dev :=
  { d with arr := { d.arr with
      stateRows := d.arr.flagRows.foldl
        (fun m e => SMap.set m e.1 (promoteRow (SMap.get d.arr.flagRows e.1) (SMap.get d.arr.shadowRows e.1) (SMap.get m e.1))) d.arr.stateRows
      flagRows := [], firstCommit := [], wrote := [], journal := [] } }

/-! The record of the boundary. -/

/-- What the LK7 records at a take boundary (spec/03 R90, spec/05 R153, spec/16 R429); a request whose response is to be discarded belongs to no take. -/
def Dev.boundaryRecord (d : Dev) : Boundary :=
  { segs := d.arr.segs, segDef := d.arr.segDef, rx := d.arr.rx, mirror := d.arr.mirror, nbr := d.arr.nbr
    farDel := d.arr.farDel, farPend := d.arr.farPend, farReq := d.arr.farReq.filter fun e => !e.2.discard
    issued := (List.range d.g4s).foldl (fun m g => SMap.set m g (d.rdAt R.FAR.FAR_STATUS_ISSUED g 0)) []
    watchLevel := d.rd R.WATCH.WATCH_STATUS_LEVEL, watchCounts := d.dbg.counts, watchPrev := d.dbg.prevCond, watchFired := d.dbg.fired }

/-- The record restored before a take is executed again; every staging copy is discarded (R90, R153, R429).  Requests of the abandoned attempt whose responses are to be
discarded stay in flight: their writes still reach memory. -/
def Dev.restoreBoundary (d : Dev) : Dev :=
  let r := d.tk.saved
  let farReq := (d.arr.farReq.filter (·.2.discard)).foldl (fun m e => SMap.ins m e.1 e.2) r.farReq
  let d1 := { d with
    arr := { d.arr with
      segs := r.segs, segDef := r.segDef, rx := r.rx, mirror := r.mirror, nbr := r.nbr, staged := [], wrote := []
      farDel := r.farDel, farPend := r.farPend, farReq := farReq }
    dbg := { d.dbg with counts := r.watchCounts, prevCond := r.watchPrev, fired := r.watchFired, firedNow := false } }
  let d2 := (d1.wr R.WATCH.WATCH_STATUS_LEVEL r.watchLevel).wr R.WATCH.WATCH_STATUS_FIRED (bit r.watchFired)
  forUpto d.g4s (fun g d => d.wrAt R.FAR.FAR_STATUS_ISSUED g 0 (SMap.get r.issued g)) d2

/-! The watch unit, probe counters and debug at a boundary. -/

/-- The action of a firing at the boundary that closes its take (R428): event, BREAK packet, halt request. -/
def Dev.watchAction (d : Dev) : Dev :=
  let d1 := if d.dbg.firedNow then
      let a := d.rd R.WATCH.WATCH_CTRL_ACTION
      let e := if a = 1 then d else d.event 0x7A1
      let p := if a = 2 then e else e.traceBreak
      let h := if a = 0 ∧ !p.on R.RUN.RUN_CTRL_DEBUG_MODE ∧ p.tk.haltReq = 0 then { p with tk := { p.tk with haltReq := 2, haltOrigin := p.position } } else p
      let r := { h with dbg := { h.dbg with firedNow := false } }
      if r.on R.WATCH.WATCH_CTRL_REARM then
        let b := { r.dbg with fired := false, counts := [] }
        { r.wr R.WATCH.WATCH_STATUS_LEVEL 0 with dbg := b }
      else r
    else d
  if d1.dbg.watchPend then d1.watchStart else d1

/-- The probe lanes as the boundary finds them, by which ranges are locked (spec/16 R436). -/
def Dev.latchLocks (d : Dev) : Dev := { d with dbg := { d.dbg with lockLanes := d.arr.probe } }

/-- Capture masks and counter selections written since the last boundary take effect (spec/17 R462, R465); a changed mask needs a cairn
(R454). -/
def Dev.latchTraceCfg (d : Dev) : Dev :=
  let mask := (List.range 64).foldl (fun m g => SMap.set m g (d.rdAt R.TRACE.CAP_MASK 0 g)) ([] : SMap Nat)
  let sel := (List.range (d.g4s * 6)).foldl (fun m i => SMap.set m (i / 6 * 8 + i % 6) (d.rdAt R.CNT.SEL (i / 6) (i % 6))) ([] : SMap Nat)
  { d with trc := { d.trc with capMask := mask, sel := sel, needCairn := d.trc.needCairn || decide (mask ≠ d.trc.capMask) } }

/-! Hard halts (spec/16 R412, R413, R416). -/

/-- The array comes to rest in belay 0 by a hard halt with cause `c`. -/
def Dev.hardHalt (c origin : Nat) (d : Dev) : Dev :=
  let tk := { d.tk with
    phase := .resting, belay := 0, waits := 0, ready := [], release := none, haltReq := 0, ticks := [], tick := none, logTick := none
    subs := [], passed := d.tk.passed.filter (fun e => decide (e.1 ≠ 0x20)), judged := false, skipNext := 0, skipAfter := 0, closingResp := 0, nextResp := 0, hold := 0, stopReq := false }
  let d1 := ((({ d with tk := tk }.wr R.RUN.RUN_STATUS_STATE 3).wr R.RUN.RUN_STATUS_HALT_CAUSE c).dropInstants.pinsHalt).handovers
  let d2 := ((d1.event 0x7A0).traceHalt origin).count 0xB2 12 1
  if c = 5 then d2
  else if c = 7 ∧ d.tk.closingResp = 1 ∧ d.linked then
    d2.sendAll 0x21 (leBytes 0 1 ++ leBytes d.stamp 8 ++ leBytes 1 1 ++ leBytes (d.rd R.TAKE.TAKE_NUMBER) 2)
  else d2.sendStop 0

/-- A halt is requested (R412): at once before cycle k of belay 0, at the closing boundary otherwise; the first request of a take names
the cause. -/
def Dev.requestHalt (c origin : Nat) (d : Dev) : Dev :=
  if d.runState ≠ 1 then d
  else if d.tk.belay = 0 ∧ (d.tk.phase = .waiting ∨ d.tk.phase = .met) then d.hardHalt c origin
  else if d.tk.haltReq = 0 then
    { d.wr R.RUN.RUN_STATUS_STATE 2 with tk := { d.tk with haltReq := c, haltOrigin := origin } }
  else d

/-! Cycle 0 of belay 0. -/

/-- A completed take waits for its presentation: its outbound lanes and the instant of its boundary (spec/08 R228). -/
def Dev.queuePresentation (n : Nat) (d : Dev) : Dev :=
  { d with edge := { d.edge with present := d.edge.present ++ [(n, d.arr.edgeOut, d.now)] } }

/-- One take of a stepped run is done (R415). -/
def Dev.countStepTakes (d : Dev) : Dev :=
  if d.tk.takesLeft = 0 then d
  else
    let d1 := { d with tk := { d.tk with takesLeft := d.tk.takesLeft - 1 } }
    if d.tk.takesLeft = 1 ∧ d.tk.haltReq = 0 then { d1 with tk := { d1.tk with haltReq := 3, haltOrigin := d.position } } else d1

/-- The take boundary that closes the current take, every shadow row having passed its check: promotion, the take number, the record, the
watch unit, trace, fences, and the halt that was requested (R62, R90, R105, R412, R415, R428, R446). -/
def Dev.closeTake (d : Dev) : Dev :=
  let n := d.rd R.TAKE.TAKE_NUMBER
  let undo := some ⟨d.arr.stateRows, d.arr.badRows, d.eng.inject, d.tk.saved⟩
  let snap := d.snapAt n
  let d0 := if snap then d.copyCounters else d
  let d1 := ((d0.promote.freeInjects).wr R.TAKE.TAKE_NUMBER (n + 1)).count 0xB2 0 1
  let tk := { d1.tk with
    undo := undo, boundary := d1.now, again := false, wdLeft := d1.rd R.RUN.WDOG_PERIOD_US * usec }
  let d2 := ({ d1 with tk := tk }.queuePresentation n).latchTraceCfg
  let d3 := (d2.probeCount true []).latchLocks
  let d4 := (d3.traceBoundary n).watchAction
  let d5 := if snap then (d4.countStepTakes).snapDone 0 d4.stamp else d4.countStepTakes
  let d5f := d5.boundaryFence
  let d6 := { d5f with tk := { d5f.tk with saved := d5f.boundaryRecord } }.boundaryRejoin
  if d6.running then
    if d6.tk.haltReq ≠ 0 then d6.hardHalt d6.tk.haltReq d6.tk.haltOrigin else d6.handovers
  else d6

/-- Cycle 0 of belay 0 (R66, R94): shadow parity first; a failing row makes the take incomplete. -/
def Dev.takeBoundary (d : Dev) : Dev :=
  match d.badShadows with
  | [] => d.closeTake
  | fs => d.faultStop (orderFaults fs)

end Sys2Proof.Machine
end

