-- ==== Sys2Proof/Machine/Belay.lean ====
section
/-! DEFINITION. Belays (spec/04 R94 to R123): entry, wait conditions, release, timeout, the tick edge of locked mode, and the handshake of
linked devices. -/

namespace Sys2Proof.Machine

/-! Wait conditions (R98). -/

/-- A far request whose response has not arrived and which no fault stop has abandoned. -/
def Dev.farUnmet (d : Dev) : Bool := d.arr.farReq.any fun e => !e.2.answered && !e.2.discard

/-- Locked mode (R107). -/
def Dev.locked (d : Dev) : Bool := d.on R.TAKE.TAKE_CTRL_MODE

/-- The unmet conditions of the current belay: bit 0 WAIT_TICK, 1 WAIT_FAR, 2 WAIT_LINK, 3 WAIT_INJECT (R98, R107, R120). -/
def Dev.unmet (d : Dev) : Nat :=
  let e := d.mapEntry d.tk.belay
  bit (decide (d.tk.belay = 0) && d.locked && d.isMaster && d.tk.tick.isNone && d.tk.logTick.isNone) +
  2 * bit (isSet e 13 && d.farUnmet) + 4 * bit (isSet e 14 && decide (d.missingPorts ≠ [])) +
  8 * bit (isSet e 15 && !d.injectMet d.tk.belay)

/-- The conditions are evaluated again, in every cycle of the belay (R105). -/
def Dev.rewait (d : Dev) : Dev := if d.tk.phase = .waiting then { d with tk := { d.tk with waits := d.unmet } } else d

/-! The limiter hold (spec/15 R406). -/

/-- The length of the hold in step-clock cycles: A is the mean of the samples of the window, in tenths of a watt. -/
def Dev.limiterHold (d : Dev) : Nat :=
  let sum := d.net.samples.sum
  let lim := d.net.samples.length * (d.rd R.POWER.PL_LIMIT_W * 10)
  let c := d.tk.seq - d.tk.throttleSeq
  if lim < sum then (if lim = 0 then d.rd R.POWER.PL_MAX_HOLD else min (d.rd R.POWER.PL_MAX_HOLD) ((c * (sum - lim) + lim - 1) / lim)) else 0

/-- A belay that carries ALLOW_THROTTLE asks the limiter (R102). -/
def Dev.throttle (d : Dev) : Dev :=
  if isSet (d.mapEntry d.tk.belay) 16 then
    let h := d.limiterHold
    let d1 := { d with
      tk := { d.tk with hold := d.mono + h * d.stepNum / d.rd R.CLK.STEP_MHZ, throttleSeq := d.tk.seq }
      net := { d.net with windowBelay := true } }
    if h = 0 then d1
    else ((((d1.bump R.POWER.THROTTLE_COUNT).wr R.POWER.THROTTLE_CYCLES (d1.rd R.POWER.THROTTLE_CYCLES + h)).count 0xB2 5 h).event 0x721)
  else d

/-! Entry (R105). -/

/-- The belay starts: conditions, hold and timer (R105, R116). -/
def Dev.openBelay (d : Dev) : Dev :=
  let tk := { d.tk with
    phase := .waiting, waited := 0, farWaited := 0, stolen := 0, entry := d.mono, hold := d.mono, release := none
    belayTok := d.belayToken d.tk.belay }
  ({ d with tk := tk }.throttle).rewait

/-- The stop that a peer's STOP asks for takes effect (R121): steps 3 to 5 of the fault stop, EV_PEER_STOP, the HALT packet. -/
def Dev.peerStopped (origin : Nat) (d : Dev) : Dev := (((d.abandonTake).event 0x001).traceHalt origin).snapNow

/-- The stop that exhausted replays make takes effect (spec/11 R311): as after BELAY_TIMEOUT, but that STOP has been sent already. -/
def Dev.linkStopped (d : Dev) : Dev := (((d.abandonTake).event 0x000).traceHalt d.position).snapNow

/-- The last step of the pitch has been executed: cycle 0 of the belay that follows (R94, R105). -/
def Dev.belayEntry (d : Dev) : Dev :=
  if d.tk.phase ≠ .ended then d
  else
    match d.tk.peerStop with
    | some p => d.bankCycles.deliverReads.peerStopped p
    | none =>
      if d.tk.linkStop then d.bankCycles.deliverReads.linkStopped
      else
      let b := (d.tk.belay + 1) % max 1 d.tk.pitches
      let d0 := d.bankCycles.deliverReads
      let d1 := { d0 with tk := { d0.tk with belay := b, phase := .waiting, waits := 0 } }
      let d2 := if b = 0 then d1.takeBoundary else d1
      if d2.running then d2.openBelay else d2

/-! The handshake of linked devices (R118 to R121, spec/11 R301). -/

/-- How the master holds the READY of a device: position, belay, take. -/
def readyKey (origin belay take : Nat) : Nat := origin + 64 * belay + 1024 * (take % 2 ^ 32)

/-- The master holds READY from every device of the reel set (R118). -/
def Dev.allReady (d : Dev) : Bool :=
  (List.range 64).all fun p => !isSet d.ld.members p || d.tk.ready.contains (readyKey p d.tk.belay (d.rd R.TAKE.TAKE_NUMBER))

/-- The master sends RELEASE once it holds every READY: the instant is the time of the last READY plus GLOBAL_LEAD_NS (R118, R120).  DEDUCED: READY carries no
stamp, so the time of the last one is the instant at which the master comes to hold it. -/
def Dev.masterRelease (d : Dev) : Dev :=
  if d.isMaster && decide (d.tk.phase = .met) && d.tk.release.isNone && d.allReady then
    let r := d.now + d.rd R.TAKE.GLOBAL_LEAD_NS * 2 ^ 32
    let d1 := { d with tk := { d.tk with release := some r } }
    d1.sendAll 0x21 (leBytes d.tk.belay 1 ++ leBytes (r % 2 ^ 64) 8 ++ leBytes d.tk.closingResp 1 ++ leBytes (d.rd R.TAKE.TAKE_NUMBER) 2)
  else d

/-- READY of this device: sent on every ACTIVE port, and collected by the master itself (R118). -/
def Dev.sendReady (d : Dev) : Dev :=
  let n := d.rd R.TAKE.TAKE_NUMBER
  let d1 := d.sendAll 0x20 (leBytes d.tk.belay 1 ++ leBytes n 4 ++ leBytes d.position 1)
  if d.isMaster then { d1 with tk := { d1.tk with ready := readyKey d.position d.tk.belay n :: d1.tk.ready } }.masterRelease else d1

/-- Every condition of R104 holds, and at belay 0 the presentation buffer has room (spec/08 R229). -/
def Dev.belayDone (d : Dev) : Bool :=
  decide (d.tk.phase = .waiting) && decide (d.tk.waits = 0) && decide (d.tk.hold ≤ d.mono) && !d.stealDue &&
    !(decide (d.tk.belay = 0) && decide (16 ≤ d.edge.present.length))

/-- The conditions are met at the instant stamped `t`: a linked device sends READY and waits for the global release. -/
def Dev.conditionsMet (t : Nat) (d : Dev) : Dev :=
  let d1 := (d.toTime t).rewait
  if d1.belayDone then
    let d2 := { d1 with tk := { d1.tk with phase := .met } }
    if d2.linked then d2.sendReady else d2
  else d

/-! Cycle k and after (R105). -/

/-- The edge FIFOs of direction IN that the EDGE frames configure. -/
def Dev.inFifos (d : Dev) : List Nat :=
  (List.range 32).filter fun f => decide (SMap.get d.edge.cfg (0x30100 + f) ≠ []) && leAt (SMap.get d.edge.cfg (0x30100 + f)) 0 1 == 0

/-- The last GCT0 edge at or before `u` with the lanes as they stood before it and the IN FIFOs that were not empty, for which the hub keeps 512 ns of
history (spec/08 R226, spec/10 R282). -/
def Dev.edgeAt (d : Dev) (u : Nat) : Nat × SMap Nat × Nat :=
  match d.edge.sampleHist.find? fun e => decide (e.2.1 ≤ u) with
  | some e => (e.1, e.2.2)
  | none => (d.edge.edges, d.edge.sampleNext, 0)

/-- The sample edge of the stamp `u` with the lanes as they stood before it. -/
def Dev.sampleAt (d : Dev) (u : Nat) : SMap Nat × Nat := ((d.edgeAt u).2.1, (d.edgeAt u).1)

/-- What the sample edge at or before `u` fixes, that of take `m`: each IN FIFO that the sample saw holding a word gives up its head (spec/08 R222), and the
presentation instant of take m − P lies OFF edges later (R227). -/
def Dev.fixInstant (u m : Nat) (d : Dev) : Dev :=
  let e := d.edgeAt u
  let due := (d.inFifos.filter (isSet e.2.2)).foldl (fun s f => SMap.set s f 1) d.edge.popDue
  let inst := if d.rd R.EDGE.PRESENT_CFG_P ≤ m then [(e.1 + d.rd R.EDGE.PRESENT_CFG_OFF, m - d.rd R.EDGE.PRESENT_CFG_P)] else []
  { d with edge := { d.edge with instants := d.edge.instants ++ inst, popDue := due } }

/-- The sample taken for the tick `u`: the lanes and the sample edge (spec/08 R226). -/
def Dev.tickSample (d : Dev) (u : Nat) : SMap Nat × Nat :=
  match d.edge.tickSamples.find? fun e => e.1 == u with
  | some e => e.2
  | none => (d.edge.sampleNext, d.edge.edges)

/-- The sample of a tick goes. -/
def Dev.dropSample (u : Nat) (d : Dev) : Dev :=
  { d with edge := { d.edge with tickSamples := d.edge.tickSamples.filter fun e => decide (e.1 ≠ u) } }

/-- The tick edge of `u` has been reached: the first step-clock edge at or after u + 4 T_step (R109). -/
def Dev.edgeReached (d : Dev) (u : Nat) : Bool :=
  decide (u * d.rd R.CLK.STEP_MHZ + 4 * d.stepNum ≤ d.now * d.rd R.CLK.STEP_MHZ)

/-- A tick is discarded (R111, R112): SKIP_COUNT, and TBn_SKIP in the take that the next tick starts. -/
def Dev.skipTick (d : Dev) : Dev :=
  let m := 2 ^ d.rd R.TAKE.TAKE_CTRL_TB_SEL
  let d1 := if d.tk.tick.isSome then { d with tk := { d.tk with skipAfter := d.tk.skipAfter ||| m } }
    else { d with tk := { d.tk with skipNext := d.tk.skipNext ||| m } }
  (d1.bump R.TAKE.SKIP_COUNT).count 0xB2 8 1

/-- A device that is not the master takes its tick at the release (R120): of the ticks whose tick edge has been reached the oldest one; where the master
answered a miss by HOLD_SKIP, the oldest that is not discarded, those before it being skipped; where it answered by LOG, the others are further misses.  The
ticks that are left wait for the next belay 0. -/
def Dev.followTick (d : Dev) : Dev :=
  let due := d.tk.ticks.filter fun e => d.edgeReached e.1
  let skipped (e : Nat × Fate) : Bool := d.tk.closingResp == 2 && e.2 == .discarded
  match due.dropWhile skipped with
  | [] => d
  | e :: late =>
    let drop := due.takeWhile skipped ++ (if d.tk.closingResp = 3 then late else [])
    let left := (if d.tk.closingResp = 3 then [] else late) ++ d.tk.ticks.filter fun x => !d.edgeReached x.1
    let d1 := forAll drop (fun _ d => d.skipTick) { d with tk := { d.tk with ticks := left } }
    { d1 with tk := { d1.tk with tick := some e.1 } }

/-- The VALID bits of the four time bases. -/
def Dev.validBits (d : Dev) : Nat := (List.range 4).foldl (fun v n => v + d.rdAt R.TBASE.TB_STATUS_VALID n 0 * 2 ^ n) 0

/-- The sample of the current take stands at the inbound edge lanes (spec/08 R226, spec/03 R81). -/
def Dev.placeSample (s : SMap Nat) (d : Dev) : Dev := { d with edge := { d.edge with sample := s } }.count 0xB3 1 1

/-- The registers that count since the last array start are cleared as the array leaves belay 0 of take 0 (spec/00 R14, spec/05 R140, spec/06 R162,
spec/08 R238). -/
def Dev.startCounters (d : Dev) : Dev :=
  let d1 := (d.wr R.TAKE.DEADLINE_COUNT 0).wr R.EDGE.PRESENT_COUNT 0
  forUpto d.g2s (fun g d => d.wrAt R.BANK.DROP_COUNT g 0 0) (forUpto d.g4s (fun g d => d.wrAt R.CHECK.PEAK 0 g 0) d1)

/-- The tick that starts the take of the current belay 0: one that belay 0 waited for, else the one held under LOG. -/
def Dev.startTick (d : Dev) : Option Nat := if d.tk.tick.isSome then d.tk.tick else d.tk.logTick

/-- TBn_VALID of the take that begins: the selected time base reads 0 where a substitute tick starts the take (R114). -/
def Dev.takeValid (d : Dev) : Nat :=
  if d.locked && d.startTick.any d.tk.subs.contains then putBit d.validBits (d.rd R.TAKE.TAKE_CTRL_TB_SEL) 0 else d.validBits

/-- A READY or RELEASE of take `n` or of the one before is still remembered as passed on, and every STOP. -/
def Dev.recentPass (n : Nat) (k : Nat × Nat × Nat × Nat) : Bool :=
  k.1 == 0x22 || k.2.2.1 % 65536 == n % 65536 || (k.2.2.1 + 1) % 65536 == n % 65536

/-- Cycle k of belay 0: the take begins (R105, R108, R110): the flags of spec/02 R52, the sample, TICK_STAMP. -/
def Dev.openTake (d0 : Dev) : Dev :=
  let d := if d0.locked && !d0.isMaster then d0.followTick else d0
  let n := d.rd R.TAKE.TAKE_NUMBER
  let tk := { d.tk with
    first := n == 0, tbValid := d.takeValid, tbSkip := d.tk.skipNext, skipNext := d.tk.skipAfter, skipAfter := 0
    tick := none, logTick := if d.tk.tick.isSome then d.tk.logTick else none, subs := d.tk.subs.filter (fun u => decide (some u ≠ d.startTick))
    closingResp := d.tk.nextResp, nextResp := 0, undo := none, wdOn := true, passed := d.tk.passed.filter (Dev.recentPass n) }
  let d1 := if n = 0 && !d.tk.again then { d with tk := tk }.startCounters else { d with tk := tk }
  let d2 := if d.locked then
      match d.startTick with
      | some u =>
        let s := d.tickSample u
        let e := { d1 with tk := { d1.tk with judged := true, tStart := u } }
        (((e.dropSample u).placeSample s.1).wr R.TAKE.TICK_STAMP (u % 2 ^ 64)).count 0xB2 6 1
      | none => d1.placeSample d1.edge.sampleNext
    else (d1.placeSample (d1.sampleAt d1.now).1).fixInstant d1.now n
  d2.captureSample

/-- Delivery of far responses in cycle k + 1 (spec/05 R148). -/
def Dev.deliverFar (d : Dev) : Dev :=
  forUpto d.g4s (fun g d =>
    let n := d.rdAt R.FAR.FAR_STATUS_ISSUED g 0
    let del := (List.range 16).foldl
      (fun m j => SMap.set m (g * 16 + j) (if j < n then SMap.get d.arr.farPend (g * 16 + j) else default)) d.arr.farDel
    let a := { d.arr with farDel := del, farReq := d.arr.farReq.filter fun e => decide (e.1 / 2 ^ 32 ≠ g) || e.2.discard }
    { d with arr := a }.wrAt R.FAR.FAR_STATUS_ISSUED g 0 0) d

/-- The cycles of a belay are counted (spec/17 R464): 4 + W, W, and the WAIT_FAR stall. -/
def Dev.countBelay (d : Dev) : Dev :=
  let w := d.cyclesIn (d.mono - d.tk.entry)
  ((d.count 0xB2 2 (4 + w)).count 0xB2 3 w).count 0xB2 15 (d.cyclesIn d.tk.farWaited)

/-- The frames of the take that belay 0 has closed no longer count (R98). -/
def Dev.newFrameCounts (d : Dev) : Dev :=
  { d with ports := (List.range 8).foldl (fun m p =>
      let q := SMap.get m p
      SMap.set m p { q with rxTotal := q.rxTotal - d.framesBefore p d.tk.pitches, txTotal := 0 }) d.ports }

/-- Cycles k to k + 3, and the first step of the pitch is next (R99, R100, R105). -/
def Dev.runRelease (d : Dev) : Dev :=
  let b := d.tk.belay
  let e := d.mapEntry b
  let d1 := d.countBelay
  let d2 := if b = 0 then d1.openTake.newFrameCounts else d1
  let d3 := d2.postToken d2.tk.belayTok 1
  let d4 := if isSet e 13 then d3.deliverFar else d3
  let d5 := if isSet e 14 then d4.commitLinks.updateMirrors b else d4
  let d6 := (d5.applyInjects b).bapAtBelay b
  let d7 := forUpto 4 (fun _ d => d.cycle) d6
  let tk := { d7.tk with
    linkPitch := if isSet e 14 || b == 0 then b else d7.tk.linkPitch
    phase := .stepping, step := fieldAt e 0 11, acted := [], stage := [], faults := [], waits := 0, ran := true, ready := [], release := none }
  { d7 with tk := tk }

/-- The instant of cycle k has come: at once on a device alone, at the global release instant in a linked system (R118). -/
def Dev.releaseDue (d : Dev) : Bool :=
  decide (d.tk.phase = .met) && (!d.linked || d.tk.release.any fun r => decide (r ≤ d.now))

/-- Cycle k of the belay, on the step-clock edge stamped `t`. -/
def Dev.belayRelease (t : Nat) (d : Dev) : Dev :=
  let d1 := d.toTime t
  if d1.releaseDue then d1.runRelease else d

/-! Belay timeout (R116, R117). -/

/-- The record of BELAY_TIMEOUT. -/
def Dev.timeoutRecord (d : Dev) : FRec :=
  let port := if isSet d.tk.waits 2 then d.missingPorts.headD 0xFF else 0xFF
  d.record 0x22 4 0x5 (unitLoc 0x12) (d.tk.waits / 2 % 8 + port * 2 ^ 8) 0

/-- The belay timer reaches TIMEOUT while a condition is unmet; before take 0 no belay times out. -/
def Dev.belayTimeout (t : Nat) (d : Dev) : Dev :=
  let d1 := d.toTime t
  if d1.timerCounts && decide (fieldAt (d1.mapEntry d1.tk.belay) 24 10 * usec ≤ d1.tk.waited) &&
      !(decide (d1.tk.belay = 0) && decide (d1.rd R.TAKE.TAKE_NUMBER = 0)) then
    d1.faultStop [d1.timeoutRecord]
  else d

/-! Locked mode (R109 to R112). -/

/-- A take begun or about to begin has not reached its closing boundary. -/
def Dev.inTake (d : Dev) : Bool := !(decide (d.tk.belay = 0) && decide (d.tk.phase = .waiting))

/-- A tick that belay 0 of the current take number waits for or has: the take that it starts has not begun. -/
def Dev.tickHeld (d : Dev) : Bool := d.tk.tick.isSome || d.tk.ticks.any fun e => e.2 == .starts

/-- A tick is pending under LOG. -/
def Dev.tickPending (d : Dev) : Bool := d.tk.logTick.isSome || d.tk.ticks.any fun e => e.2 == .pends

/-- The take that the tick before `u` starts or has started misses its deadline at the tick `u` (R110, R112). -/
def Dev.missed (d : Dev) (u : Nat) : Bool :=
  d.tickHeld || d.tickPending || (d.tk.judged && (d.inTake || decide (u ≤ d.tk.boundary)))

/-- What becomes of the tick `u` (R110 to R112). -/
def Dev.fate (d : Dev) (u : Nat) : Fate :=
  let resp := d.rd R.TAKE.TAKE_CTRL_DEADLINE_RESP
  if !d.missed u then .starts
  else if resp = 1 then .discarded
  else if resp = 2 then (if d.tickPending then .discarded else .pends)
  else .unused

/-- The take after the one that a held tick starts, or that is in progress; otherwise the one that waits at belay 0. -/
def Dev.takeAfter (d : Dev) : Nat := d.rd R.TAKE.TAKE_NUMBER + bit (d.tickHeld || d.inTake)

/-- The record of TAKE_DEADLINE: the take that missed, t_(n+1) in DETAIL (R110).  A further miss is that of the take which the pending tick starts. -/
def Dev.deadlineRecord (d : Dev) (u sev : Nat) : FRec :=
  let n := d.takeAfter
  { d.record 0x21 sev 0x5 (unitLoc 0x12) (u % 2 ^ 64) 0 with take := if d.tk.logTick.isSome then n else n - 1 }

/-- The response that the master sends at the boundary that closes the take which missed: the next belay 0, or the one after where the take has not
begun (R120). -/
def Dev.respond (resp : Nat) (d : Dev) : Dev :=
  if d.tk.tick.isSome then { d with tk := { d.tk with nextResp := resp } } else { d with tk := { d.tk with closingResp := resp } }

/-- SAFE (R111): the array stops at the closing boundary of the take that missed. -/
def Dev.deadlineHalt (d : Dev) : Dev :=
  if d.tk.tick.isSome then
    if d.runState = 1 ∧ d.tk.haltReq = 0 then
      { d.wr R.RUN.RUN_STATUS_STATE 2 with tk := { d.tk with haltReq := 7, haltOrigin := d.position } }
    else d
  else d.requestHalt 7 d.position

/-- A tick that makes a take miss its deadline, by what becomes of it (R110 to R112). -/
def Dev.missTick (u : Nat) (f : Fate) (d : Dev) : Dev :=
  let d1 := (d.bump R.TAKE.DEADLINE_COUNT).count 0xB2 7 1
  match f with
  | .discarded => ((d1.report (d.deadlineRecord u 0) false).respond (d.rd R.TAKE.TAKE_CTRL_DEADLINE_RESP + 1)).skipTick
  | .pends =>
    let d2 := (d1.report (d.deadlineRecord u 0) false).respond 3
    { d2 with tk := { d2.tk with logTick := some u } }
  | _ => ((d1.report (d.deadlineRecord u 4) false).respond 1).deadlineHalt

/-- The tick edge of the oldest tick whose edge is still to come, on the step-clock edge stamped `t` (R109, R110). -/
def Dev.tickEdge (t : Nat) (d : Dev) : Dev :=
  let d1 := d.toTime t
  match d1.tk.ticks with
  | [] => d
  | (u, f) :: rest =>
    if d1.edgeReached u && d1.isMaster then
      let d2 := { d1 with tk := { d1.tk with ticks := rest } }
      (if f = .starts then { d2 with tk := { d2.tk with tick := some u } } else d2.missTick u f).rewait
    else d

/-- A tick of time base `n` stamped `u` reaches the sequencer: while the array runs in locked mode on it, and the tick is stamped after the
last start (R109, R115).  A tick that starts a take has its sample taken at once, and fixes a presentation instant (spec/08 R226, R227); the strobe of one that is
discarded, the last that was asked for, is not raised (spec/08 R216). -/
def Dev.sequencerTick (n u : Nat) (d : Dev) : Dev :=
  if d.running && d.locked && decide (d.rd R.TAKE.TAKE_CTRL_TB_SEL = n) && decide (d.tk.started < u) then
    let f := d.fate u
    let m := if f = .pends then d.takeAfter else d.rd R.TAKE.TAKE_NUMBER
    let d1 := { d with tk := { d.tk with ticks := d.tk.ticks ++ [(u, f)] } }
    match f with
    | .starts | .pends => { d1 with edge := { d1.edge with tickSamples := d1.edge.tickSamples ++ [(u, d.sampleAt u)] } }.fixInstant u m
    | .discarded => { d1 with edge := { d1.edge with strobes := d1.edge.strobes.dropLast } }
    | .unused => d1
  else d

end Sys2Proof.Machine
end

