-- ==== Sys2Proof/Machine/Envelope.lean ====
section
/-! DEFINITION. The output envelope (spec/09 R254 to R262): the unit that the hardware loader fills at boot and that no command
writes after it, and the limits that it puts on a pad. -/

namespace Sys2Proof.Machine

/-- The envelope unit: loaded and locked, ENV_FLAGS.ENABLE, the pin entries (16 bytes as one number), the pair entries 0 to `count` − 1, the boot
lock masks by bank (spec/09 R255). -/
structure Envelope where
  locked : Bool
  enable : Bool
  count : Nat
  entry : SMap Nat
  pairs : SMap Nat
  bootLock : SMap Nat
  deriving DecidableEq, Repr, Inhabited

/-- One envelope cycle: 2.5 ns (R255). -/
def envCycle : Nat := 5 * 2 ^ 31

/-- The pin entry of pin `p` (R256). -/
def Envelope.pin (v : Envelope) (p : Nat) : Nat := SMap.get v.entry p
def Envelope.safeMode (v : Envelope) (p : Nat) : Nat := fieldAt (v.pin p) 0 3
def Envelope.guarded (v : Envelope) (p : Nat) : Bool := isSet (v.pin p) 8
def Envelope.readback (v : Envelope) (p : Nat) : Bool := isSet (v.pin p) 9
def Envelope.minPulse (v : Envelope) (p : Nat) : Nat := fieldAt (v.pin p) 16 16
def Envelope.rateWindow (v : Envelope) (p : Nat) : Nat := fieldAt (v.pin p) 32 16
def Envelope.maxToggles (v : Envelope) (p : Nat) : Nat := fieldAt (v.pin p) 48 16
def Envelope.rbFilter (v : Envelope) (p : Nat) : Nat := fieldAt (v.pin p) 64 16

/-- The limits of the envelope apply. -/
def Envelope.acts (v : Envelope) : Bool := v.locked && v.enable

/-- The pad in SAFE (R254, R256): 0 driver off, 1 driven to 0, 2 driven to 1. -/
def Envelope.safePad (v : Envelope) (p : Nat) : Nat :=
  if !v.acts then 0 else if v.safeMode p = 4 then 1 else if v.safeMode p = 5 then 2 else 0

/-- The pairs that name pin `p`, lowest first, each with the pad level at which `p` is active in it, the other pin and its active level, and
DEAD_TIME. -/
def Envelope.pairsOf (v : Envelope) (p : Nat) : List (Nat × Nat × Nat × Nat × Nat) :=
  (List.range v.count).filterMap fun q =>
    let e := SMap.get v.pairs q
    let a := fieldAt e 0 16
    let b := fieldAt e 16 16
    let la := 1 + bitAt e 33
    let lb := 1 + bitAt e 34
    if a = p then some (q, la, b, lb, fieldAt e 48 16) else if b = p then some (q, lb, a, la, fieldAt e 48 16) else none

/-- The pad of pin `p` (0 off, 1 driven to 0, 2 driven to 1). -/
def Dev.pad (d : Dev) (p : Nat) : Nat := SMap.get d.pins.pads p

/-- Pin `o` has been inactive at the pad for `dead` envelope cycles (R258). -/
def Dev.inactiveFor (d : Dev) (o level dead : Nat) : Bool :=
  let left := SMap.get d.pins.left (o * 2 + (level - 1))
  decide (d.pad o ≠ level) && (decide (left = 0) || decide (left - 1 + dead * envCycle ≤ d.mono))

/-- The pairs whose interlock keeps pin `p` from pad level `lv`, in ascending order (R258). -/
def Dev.interlocks (d : Dev) (v : Envelope) (p lv : Nat) : List Nat :=
  ((v.pairsOf p).filter fun x => decide (x.2.1 = lv) && !d.inactiveFor x.2.2.1 x.2.2.2.1 x.2.2.2.2).map (·.1)

/-- The lowest-numbered of them, if there is one. -/
def Dev.interlocked (d : Dev) (v : Envelope) (p lv : Nat) : Option Nat := (d.interlocks v p lv).head?

/-- The lowest of a list that is not empty. -/
def lowest : List Nat → Option Nat
  | [] => none
  | a :: l => some (l.foldl min a)

/-- The rate window in progress: windows restart at each wrap of device time (R260, spec/10 R269). -/
def Dev.rateWindowNo (d : Dev) (v : Envelope) (p : Nat) : Nat :=
  d.rd R.TIME.WRAPS * 2 ^ 33 + d.stamp / max 1 (v.rateWindow p * usec)

/-- MIN_PULSE holds back a level change of a guarded pin (R259). -/
def Dev.pulseHolds (d : Dev) (v : Envelope) (p : Nat) : Bool :=
  let c := SMap.get d.pins.changed p
  v.guarded p && decide (c ≠ 0) && decide (d.mono < c - 1 + v.minPulse p * envCycle)

/-- The rate limit holds back a level change of a guarded pin (R260). -/
def Dev.rateHolds (d : Dev) (v : Envelope) (p : Nat) : Bool :=
  v.guarded p && decide (v.rateWindow p ≠ 0) && decide (SMap.get d.pins.winNo p = d.rateWindowNo v p + 1) &&
    decide (v.maxToggles p ≤ SMap.get d.pins.toggles p)

/-- The pad takes a level: a change is counted in the rate window, and its instant kept (R258 to R260). -/
def Dev.setPad (d : Dev) (v : Envelope) (p lv : Nat) : Dev :=
  let old := d.pad p
  if old = lv then d
  else
    let w := d.rateWindowNo v p + 1
    let n := if SMap.get d.pins.winNo p = w then SMap.get d.pins.toggles p else 0
    { d with pins := { d.pins with
        pads := SMap.set d.pins.pads p lv
        changed := SMap.set d.pins.changed p (d.mono + 1)
        left := if old = 0 then d.pins.left else SMap.set d.pins.left (p * 2 + (old - 1)) (d.mono + 1)
        winNo := SMap.set d.pins.winNo p w
        toggles := SMap.set d.pins.toggles p (n + 1) } }

/-- The bit of pin `p` in CLAMPED; a clamp that begins is counted (R258, R264). -/
def Dev.setClamped (d : Dev) (p : Nat) (on : Bool) : Dev :=
  let old := d.rdAt R.ENV.CLAMPED 0 (p / 32)
  let d1 := d.wrAt R.ENV.CLAMPED 0 (p / 32) (putBit old (p % 32) (bit on))
  if on && !isSet old (p % 32) then d1.bump R.ENV.CLAMP_COUNT else d1

/-- A fault of the envelope (R262): SEVERITY SAFETY, the ENV page. -/
def Dev.envFault (code detail : Nat) (d : Dev) : Dev := d.unitFault code 4 0xB detail

/-- An interlock clamp: the pin stays as it is at the pad until its request has returned to inactive (R258, R262). -/
def Dev.clampPin (p q lv : Nat) (d : Dev) : Dev :=
  (({ d with pins := { d.pins with clamp := SMap.set d.pins.clamp p lv, delay := SMap.set d.pins.delay p 0 } }.setClamped p true).envFault
    0x80 (p + q * 2 ^ 16)).event 0x7C9

/-- A change held back by MIN_PULSE (`kind` 0) or the rate limit (`kind` 1): one fault for each request held back (R259, R260, R262). -/
def Dev.delayPin (p kind : Nat) (d : Dev) : Dev :=
  if SMap.get d.pins.delay p = kind + 1 then d
  else
    ({ d with pins := { d.pins with delay := SMap.set d.pins.delay p (kind + 1), clamp := SMap.set d.pins.clamp p 0 } }.setClamped p true).envFault 0x81 (p + kind * 2 ^ 16)

/-- The clamp of a pin ends. -/
def Dev.unclamp (p : Nat) (d : Dev) : Dev :=
  { d with pins := { d.pins with clamp := SMap.set d.pins.clamp p 0, delay := SMap.set d.pins.delay p 0 } }.setClamped p false

/-- The level `lv` is requested of pin `p` and the envelope decides the level of the pad (R258 to R260).  `rivals` are the pairs whose other pin requests its active level in the same
envelope cycle: both then stay inactive. -/
def Dev.permit (d : Dev) (v : Envelope) (p lv : Nat) (rivals : List Nat) : Dev :=
  let d0 := { d with pins := { d.pins with request := SMap.set d.pins.request p lv } }
  let broken := lowest (rivals ++ d.interlocks v p lv)
  if !v.acts then (d0.unclamp p).setPad v p lv
  else if SMap.get d.pins.clamp p = lv ∧ lv ≠ 0 then d0
  else if d.pad p = lv then d0.unclamp p
  else if d.pulseHolds v p && decide (rivals = []) then d0.delayPin p 0
  else if d.rateHolds v p && decide (rivals = []) then d0.delayPin p 1
  else
    match broken with
    | some q => d0.clampPin p q lv
    | none => (d0.unclamp p).setPad v p lv

end Sys2Proof.Machine
end

