-- ==== Sys2Proof/Machine/Pins.lean ====
section
/-! DEFINITION. The pins (spec/09): the configuration word and its checks, what a pin's function and state request of its pad, the lock sequence,
the pattern matchers. -/

namespace Sys2Proof.Machine

/-! The configuration word (R242). -/

def pinLvds (w : Nat) : Bool := isSet w 11
def pinDdr (w : Nat) : Bool := isSet w 12

/-- A pin offers FUNC with SUB (R243); the LVDS forms of TRACE go with LVDS = 1, the single-ended ones with 0. -/
def offered (pin func sub : Nat) (lvds : Bool) : Bool :=
  let b := pin / 32
  let k := pin % 32
  if func = 0 ∨ func = 1 then sub == 0
  else if func = 2 then b == 9 && decide (k < 16) && sub == k
  else if func = 3 then b == 8 && ((decide (k < 8) && sub == k) || (decide (8 ≤ k ∧ k < 24) && sub == 0x10 + (k - 8)))
  else if func = 4 then b == 7 && decide (k < 24) && sub == k
  else if func = 5 then
    (b == 5 && lvds && sub == k / 2) || (b == 6 && decide (k < 16) && !lvds && sub == k) || (b == 6 && k == 16 && !lvds && sub == 16) ||
      (b == 6 && decide (30 ≤ k) && lvds && sub == 16)
  else if func = 6 then b == 4 && sub == 0
  else b == 9 && decide (28 ≤ k) && sub == k - 28

/-- A word is valid by itself (R241 to R243). -/
def pinWordValid (pin w : Nat) : Bool :=
  let func := fieldAt w 0 3
  let ddr := pinDdr w
  decide (fieldAt w 4 3 ≤ 4) && decide (fieldAt w 44 4 = 0) && decide (fieldAt w 54 2 = 0) && decide (fieldAt w 48 2 ≠ 3) &&
    decide (fieldAt w 51 2 ≠ 3) && offered pin func (fieldAt w 56 8) (pinLvds w) && (!ddr || (pinLvds w && func == 0)) &&
    (ddr || decide (fieldAt w 29 3 = 0)) && (decide (func = 0 ∧ bitAt w 28 = 0) || decide (fieldAt w 32 12 = 0)) &&
    (!pinLvds w || (decide (fieldAt w 4 3 = 0 ∧ fieldAt w 8 3 = 0) && (fieldAt w 13 3 == 2 || fieldAt w 13 3 == 3)))

/-- The measured VCCIO code of a pin's bank (R239). -/
def Dev.vccio (d : Dev) (pin : Nat) : Nat := d.rdAt R.PINBANK.BANK_STATUS_VCCIO_CODE (pin / 32) 0

/-- The two words of a pair form a valid LVDS pair (R241). -/
def pairValid (w1 w2 : Nat) : Bool := pinLvds w1 && pinLvds w2 && fieldAt w1 0 3 == fieldAt w2 0 3

/-- The other pin of the pair. -/
def pinMate (p : Nat) : Nat := p / 2 * 2 + 1 - p % 2

/-- The word last committed for a pin, whether or not its change edge has come. -/
def Dev.pinCommitted (d : Dev) (p : Nat) : Nat :=
  match (SMap.get d.pins.next p).getLast? with
  | some x => x.1
  | none => SMap.get d.pins.cfg p

/-- Another pin selects the same TRACE signal in the other form (R243). -/
def traceClash (word : Nat → Nat) (p w : Nat) : Bool :=
  fieldAt w 0 3 == 5 && (List.range 64).any fun i =>
    let q := 160 + i
    let u := word q
    q != p && fieldAt u 0 3 == 5 && fieldAt u 56 8 == fieldAt w 56 8 && pinLvds u != pinLvds w

/-- The word passes every check of R247 but the lock. -/
def Dev.pinWordTaken (d : Dev) (p w : Nat) : Bool :=
  let mate := d.pinCommitted (pinMate p)
  pinWordValid p w && fieldAt w 13 3 == d.vccio p && !traceClash d.pinCommitted p w && (!(pinLvds w && pinLvds mate) || pairValid w mate)

/-- Pin `p` is locked (R249). -/
def Dev.pinLocked (d : Dev) (p : Nat) : Bool := isSet (d.rdAt R.PINBANK.LOCK (p / 32) 0) (p % 32)

/-- One cycle of the aux clock, which is taken from REFCLK_100 (R245). -/
def Dev.auxCycle (d : Dev) : Nat := d.rd R.TIME.ADDEND

/-- The change edge of a word committed now: the first aux-clock edge at least two cycles later (R245). -/
def Dev.changeEdge (d : Dev) : Nat := d.refEdgeAt (d.mono + 2 * d.auxCycle)

/-- A word is committed: it takes effect at its change edge, in the place of one committed for the same edge (R245). -/
def Dev.commitPin (d : Dev) (p w : Nat) : Dev :=
  { d.wrAt R.PINBANK.PIN_CFG (p / 32) (p % 32) w with pins := { d.pins with
      next := SMap.set d.pins.next p ((SMap.get d.pins.next p).filter (fun e => decide (e.2 ≠ d.changeEdge)) ++ [(w, d.changeEdge)]) } }

/-- The LO word of PIN_CFG_k of bank `b` is written: it changes nothing until the HI word commits it (R245). -/
def Dev.pinCfgLoWrite (b k lo : Nat) (d : Dev) : Dev := d.stageLow (R.PINBANK.PIN_CFG.key b k) lo

/-- The HI word of PIN_CFG_k of bank `b` is written (R245, R247): bits [31:0] of the word are the LO word last written since the last write of HI,
and those of the word in the register where there is none. -/
def Dev.pinCfgHiWrite (b k hi t : Nat) (d : Dev) : Dev :=
  let d1 := (d.toTime t).settlePins
  let key := R.PINBANK.PIN_CFG.key b k
  let p := b * 32 + k
  let w := d1.stagedLow key (d1.rdAt R.PINBANK.PIN_CFG b k) + hi % 2 ^ 32 * 2 ^ 32
  let d2 := d1.unstage key
  if !d2.pinLocked p && d2.pinWordTaken p w then d2.commitPin p w else d2.wrAt R.PINBANK.BANK_STATUS_WRITE_REFUSED b 0 1

/-! The lock sequence (R248). -/

/-- 64 cycles of the aux clock. -/
def Dev.armTime (d : Dev) : Nat := 64 * d.auxCycle

/-- The sequence of bank `b` is dropped or ends. -/
def Dev.endLock (b : Nat) (failed : Bool) (d : Dev) : Dev :=
  let d1 := { d with pins := { d.pins with lockStep := SMap.set d.pins.lockStep b 0, lockStart := SMap.set d.pins.lockStart b 0 } }
  let d2 := d1.wrAt R.PINBANK.BANK_STATUS_LOCK_ARMED b 0 0
  if failed then d2.wrAt R.PINBANK.BANK_STATUS_LOCK_SEQ_FAILED b 0 1 else d2

/-- The time of the sequence of bank `b` has run out. -/
def Dev.lockExpired (d : Dev) (b : Nat) : Bool :=
  decide (SMap.get d.pins.lockStep b ≠ 0) && decide (SMap.get d.pins.lockStart b + d.armTime ≤ d.mono)

/-- A sequence whose time has run out is dropped. -/
def Dev.expireLock (b : Nat) (d : Dev) : Dev := if d.lockExpired b then d.endLock b true else d

/-- The sequence of bank `b` stands at `step` from now. -/
def Dev.setLock (b step : Nat) (d : Dev) : Dev :=
  { d with pins := { d.pins with lockStep := SMap.set d.pins.lockStep b step, lockStart := SMap.set d.pins.lockStart b d.mono } }

/-- A write to LOCKKEY of bank `b`.  A write while the bank is armed ends the arming without a LOCK write. -/
def Dev.lockKeyWrite (b w t : Nat) (d : Dev) : Dev :=
  let d1 := (d.toTime t).expireLock b
  let key := w % 2 ^ 16
  match SMap.get d1.pins.lockStep b with
  | 0 => if key = 0x6B1D then d1.setLock b 1 else d1.wrAt R.PINBANK.BANK_STATUS_LOCK_SEQ_FAILED b 0 1
  | 1 => if key = 0x94E2 then (d1.setLock b 2).wrAt R.PINBANK.BANK_STATUS_LOCK_ARMED b 0 1 else d1.endLock b true
  | _ => d1.endLock b true

/-- A write to LOCK of bank `b`: taken while armed, dropped otherwise. -/
def Dev.lockWrite (b w t : Nat) (d : Dev) : Dev :=
  let d1 := (d.toTime t).expireLock b
  if SMap.get d1.pins.lockStep b = 2 then
    (d1.wrAt R.PINBANK.LOCK b 0 (d1.rdAt R.PINBANK.LOCK b 0 ||| (w % 2 ^ 32))).endLock b false
  else d1

/-- The time of the sequence runs out: 64 aux-clock cycles after its first or second key. -/
def Dev.lockTimeout (b t : Nat) (d : Dev) : Dev :=
  let d1 := d.toTime t
  if d1.lockExpired b then d1.endLock b true else d

/-- Any other write to a block-specific register of the page ends the arming. -/
def Dev.endArming (b : Nat) (d : Dev) : Dev := if SMap.get d.pins.lockStep b = 2 then d.endLock b true else d

/-! What stands at routing signals and matchers (R245, R250). -/

/-- Pin `p` is the pending half of an LVDS pair (R247). -/
def Dev.pendingHalf (d : Dev) (p : Nat) : Bool := pinLvds (SMap.get d.pins.cfg p) && !pinLvds (SMap.get d.pins.cfg (pinMate p))

/-! What a pin requests (R243, R244, R252, R253). -/

/-- The output of macrocell `m`, or the border value in its place while its region is fenced (spec/08 R237). -/
def Dev.macOut (d : Dev) (m : Nat) : Nat :=
  if d.edge.fenced.contains (m / 256) then SMap.get d.edge.borders m else SMap.get d.edge.mac m

/-- The level of probe output `p`: its source two GCT0 cycles before (spec/08 R233). -/
def Dev.probeLevel (d : Dev) (p : Nat) : Nat := SMap.get (d.edge.probeHist.getD 1 []) p

/-- A driven level as a pad: 1 for 0, 2 for 1. -/
def driven (lv : Nat) : Nat := 1 + lv % 2

/-- The other leg of an LVDS pair. -/
def otherLeg (pad : Nat) : Nat := if pad = 1 then 2 else if pad = 2 then 1 else 0

/-- What output `k` of spec/10 shows at its pad (pulse output k under k, line k under 8 + k): it follows the edge that fires it two cycles later (spec/10 R267). -/
def Dev.outShown (d : Dev) (k : Nat) : Nat :=
  match (SMap.get d.clk.outs k).find? fun e => decide (e.1 ≤ d.mono) with
  | some e => e.2
  | none => 0

/-- The level of pulse output `k` (spec/10 R285): the active level is the inverse of IDLE. -/
def Dev.pulseLevel (d : Dev) (k : Nat) : Nat := (d.outShown k + d.rdAt R.TIME.PULSE_CTRL_IDLE 0 k) % 2

/-- The level that chassis line `k` drives as an output (spec/10 R287); a pulse is active at 1.  DEDUCED: R287 names no idle level for pulses. -/
def Dev.trigLevel (d : Dev) (k : Nat) : Nat :=
  if d.rdAt R.TIME.TRIG_CFG_SRC 0 k = 0 then d.pulseLevel (d.rdAt R.TIME.TRIG_CFG_ARG 0 k % 8) else d.outShown (8 + k)

/-- What the function of pin `p` drives, with word `w` (R241 to R244); a DDR output takes the odd word's OUT_MC while its tree is low. `ext` is what the trace
unit's serialiser, the console or the board bus drives on a TRACE or MGMT pin (0 nothing, 1 or 2 a level). -/
def Dev.functionPad (d : Dev) (p ext : Nat) : Nat :=
  let w := SMap.get d.pins.cfg p
  let released := decide (1 ≤ d.rd R.EDGE.EDGE_STATUS_RELEASE_STAGE)
  if !isSet w 3 then 0
  else
    match fieldAt w 0 3 with
    | 0 =>
      let src := if pinDdr w && !isSet d.edge.high (fieldAt w 29 3) then SMap.get d.pins.cfg (p + 1) else w
      if released && (isSet w 28 || d.macOut (fieldAt w 32 12) % 2 == 1) then driven (d.macOut (fieldAt src 16 12)) else 0
    | 1 =>
      if isSet (d.rdAt R.PINBANK.GPIO_OE (p / 32) 0) (p % 32) then driven (bitAt (d.rdAt R.PINBANK.GPIO_OUT (p / 32) 0) (p % 32)) else 0
    | 2 => if d.rdAt R.TIME.TRIG_CFG_OUT 0 (p % 32) = 1 then driven (d.trigLevel (p % 32)) else 0
    | 3 => if p % 32 < 8 then driven (d.pulseLevel (p % 32)) else 0
    | 6 => if released then driven (d.probeLevel (p % 32)) else 0
    | 5 => ext
    | 7 => if p % 32 = 29 then 0 else ext
    | _ => 0

/-- The function level of a pin: the odd pin of a pair carries the other leg (R241). -/
def Dev.functionLevel (d : Dev) (p ext : Nat) : Nat :=
  if pinLvds (SMap.get d.pins.cfg p) ∧ p % 2 = 1 then otherLeg (d.functionPad (p - 1) ext)
  else d.functionPad p ext

/-- A HALT or SLEEP level: mode, value, what the pin drove at entry (R242, R253). -/
def stateLevel (mode val heldPad : Nat) : Nat :=
  if heldPad = 0 then 0 else if mode = 0 then driven val else if mode = 1 then heldPad else 0

/-- The level that the governing state of pin `p` requests below SAFE (R252); a pending half drives nothing (R247); in EXTEST the boundary-scan cell drives it (spec/16 R443). -/
def Dev.requestLevel (d : Dev) (p ext : Nat) : Nat :=
  let w := SMap.get d.pins.cfg p
  if d.pins.extest then (if bitAt d.pins.bsr (2 * p) = 1 then driven (bitAt d.pins.bsr (2 * p + 1)) else 0)
  else if d.pendingHalf p then 0
  else if d.pins.halt && d.haltPin p then
    (if isSet w 3 then stateLevel (fieldAt w 48 2) (bitAt w 50) (SMap.get d.pins.hold p) else 0)
  else if d.pins.sleep && decide (d.pinFunc p ≠ 7) then
    (if isSet w 3 then stateLevel (fieldAt w 51 2) (bitAt w 53) (SMap.get d.pins.sleepHold p) else 0)
  else d.functionLevel p ext

/-! Requests and the envelope (R258 to R260). -/

/-- The level that pin `q` requests now, `ext` being what an outside driver gives on pin `p`; what one gives on another pin is as it was. -/
def Dev.wants (d : Dev) (p ext q : Nat) : Nat :=
  if q = p then d.requestLevel p ext
  else if d.pinFunc q = 5 ∨ d.pinFunc q = 7 then SMap.get d.pins.request q
  else d.requestLevel q 0

/-- Pin `q` requests the level `lv` from this envelope cycle on, and is not there yet. -/
def Dev.rises (d : Dev) (p ext q lv : Nat) : Bool :=
  decide (d.pad q ≠ lv ∧ d.wants p ext q = lv) && (q == p || (decide (SMap.get d.pins.request q ≠ lv) && !d.inWindow q))

/-- The pairs of pin `q`, going to level `lv`, whose other pin becomes active in the same envelope cycle: the pair, that pin and its active level. -/
def Dev.rivalsOf (d : Dev) (v : Envelope) (p ext q lv : Nat) : List (Nat × Nat × Nat) :=
  ((v.pairsOf q).filter fun x => decide (x.2.1 = lv) && d.rises p ext x.2.2.1 x.2.2.2.1).map fun x => (x.1, x.2.2.1, x.2.2.2.1)

/-- The pins, with their levels, that become active in the same envelope cycle as those of `l`, from pair to pair. -/
def Dev.risingWith (d : Dev) (v : Envelope) (p ext : Nat) (l : List (Nat × Nat)) : Nat → List (Nat × Nat)
  | 0 => l
  | fuel + 1 =>
    let more := (l.flatMap fun x => (d.rivalsOf v p ext x.1 x.2).map (·.2)).filter fun x => !l.contains x
    match more with
    | [] => l
    | x :: _ => d.risingWith v p ext (l ++ [x]) fuel

/-- The pin's governing state as it stands decides its pad: SAFE directly, every other state through the envelope, together with the pins of its pairs that become active with it. -/
def Dev.drivePin (d : Dev) (v : Envelope) (p ext : Nat) : Dev :=
  if d.on R.SAFETY.SAFE_STATUS_IN_SAFE then (d.unclamp p).setPad v p (v.safePad p)
  else
    let lv := d.requestLevel p ext
    let all := if v.acts && d.rises p ext p lv then d.risingWith v p ext [(p, lv)] (2 * v.count) else [(p, lv)]
    forAll all (fun x y => y.permit v x.1 x.2 ((d.rivalsOf v p ext x.1 x.2).map (·.1))) d

/-- The requested level of pin `p` changes (R258). -/
def Dev.pinRequest (v : Envelope) (p ext t : Nat) (d : Dev) : Dev :=
  let d1 := (d.toTime t).settlePins
  if d1.inWindow p && !d1.on R.SAFETY.SAFE_STATUS_IN_SAFE then d else d1.drivePin v p ext

/-- A keeper window ends: the function, or the state that governs, drives again (R245, R246). -/
def Dev.windowEnd (v : Envelope) (p ext t : Nat) (d : Dev) : Dev :=
  let d1 := (d.toTime t).settlePins
  if decide (SMap.get d1.pins.window p ≠ 0) && !d1.inWindow p then
    { d1 with pins := { d1.pins with window := SMap.set d1.pins.window p 0, windowEnd := SMap.set d1.pins.windowEnd p (SMap.get d1.pins.window p) } }.drivePin v p ext
  else d

/-- MIN_PULSE has elapsed on a pin whose change it has held back: the pad takes the level requested now (R259). -/
def Dev.minPulseElapsed (v : Envelope) (p ext t : Nat) (d : Dev) : Dev :=
  let d1 := (d.toTime t).settlePins
  if SMap.get d1.pins.delay p = 1 ∧ !d1.pulseHolds v p ∧ !d1.inWindow p then d1.drivePin v p ext else d

/-- A rate window ends on a pin whose change the rate limit has held back (R260). -/
def Dev.rateWindowEnd (v : Envelope) (p ext t : Nat) (d : Dev) : Dev :=
  let d1 := (d.toTime t).settlePins
  if SMap.get d1.pins.delay p = 2 ∧ !d1.rateHolds v p ∧ !d1.inWindow p then d1.drivePin v p ext else d

/-- The instant from which the comparison of pin `p` with its permitted level stands without a pause: 100 ns after the last change of that level, and the end of the last keeper
window (R261). -/
def Dev.comparedSince (d : Dev) (p : Nat) : Nat :=
  let changed := SMap.get d.pins.changed p
  max (if changed = 0 then 0 else changed - 1 + 100 * 2 ^ 32) (max (SMap.get d.pins.window p) (SMap.get d.pins.windowEnd p) - 1)

/-- The pad of pin `p` has read `level` against the permitted level from `since` to `t` (R261): 100 ns plus RB_FILTER, the comparison pausing for the first 100 ns
after a change of the permitted level, and throughout a keeper window.  DEDUCED: a mismatch persists only while it is compared. -/
def Dev.outputReadback (v : Envelope) (p level since t : Nat) (d : Dev) : Dev :=
  let d1 := (d.toTime t).settlePins
  let start := max (d1.mono + d1.instantOf since - d1.now) (d1.comparedSince p)
  if v.acts && v.readback p && decide (d1.pad p ≠ 0) && decide (d1.pad p ≠ driven level) && !d1.inWindow p &&
      decide (start + 100 * 2 ^ 32 + v.rbFilter p * envCycle ≤ d1.mono) then
    d1.envFault 0x82 (p + (d1.pad p - 1) * 2 ^ 24 + level % 2 * 2 ^ 25)
  else d

/-! What holds a pad that nothing drives.  The level that the board and the pull then give is the board's, an operand of the commands that sample pads. -/

/-- The pull that pin `p` applies: 0 none, 1 pull-up, 2 pull-down, 3 keeper (R242, R244 to R247, R254, R256). -/
def Dev.pinPull (d : Dev) (v : Envelope) (p : Nat) : Nat :=
  if d.on R.SAFETY.SAFE_STATUS_IN_SAFE then
    (if !v.acts then 0 else if v.safeMode p = 1 then 2 else if v.safeMode p = 2 then 1 else 0)
  else if d.pendingHalf p then 0
  else if d.inWindow p then 3
  else fieldAt (SMap.get d.pins.cfg p) 8 2

/-- The drive strength of pin `p`, coded as DRIVE (R242, R256). -/
def Dev.pinDrive (d : Dev) (v : Envelope) (p : Nat) : Nat :=
  if d.on R.SAFETY.SAFE_STATUS_IN_SAFE then (if v.acts then fieldAt (v.pin p) 3 3 else 0) else fieldAt (SMap.get d.pins.cfg p) 4 3

/-! Pattern matchers (R250, R251). -/

/-- The word of matcher `m` from the synchronised pin levels; a pin in a keeper window keeps the bit sampled before the window (R250). -/
def Dev.matchWord (d : Dev) (m : Nat) : Nat :=
  (List.range 32).foldl (fun w i =>
    let p := d.rdAt R.MATCH.SEL_PIN m i
    if d.rdAt R.MATCH.SEL_ENABLE m i = 1 then w + SMap.get (if d.inWindow p then d.pins.kept else d.pins.input) p % 2 * 2 ^ i else w) 0

/-- The raw match of matcher `m`. -/
def Dev.rawMatch (d : Dev) (m : Nat) : Nat :=
  bit (((d.matchWord m) ^^^ d.rdAt R.MATCH.VALUE m 0) &&& d.rdAt R.MATCH.MASK m 0 == 0)

/-- The raw match of matcher `m` takes a value, which has stood since the instant `since` where it is another. -/
def Dev.setRaw (m raw since : Nat) (d : Dev) : Dev :=
  let same := decide (SMap.get d.pins.rawSince m ≠ 0) && d.rdAt R.MATCH.MATCH_STATUS_RAW m 0 == raw
  { d.wrAt R.MATCH.MATCH_STATUS_RAW m 0 raw with pins := { d.pins with
      rawSince := if same then d.pins.rawSince else SMap.set d.pins.rawSince m (since + 1) } }

/-- The filtered match of matcher `m` takes a value in the cycle now reached. -/
def Dev.setFiltered (m v : Nat) (d : Dev) : Dev :=
  { d.wrAt R.MATCH.MATCH_STATUS_FILTERED m 0 v with pins := { d.pins with filterAt := SMap.set d.pins.filterAt m d.stamp } }

/-- The raw match of matcher `m` has kept its value for DEBOUNCE + 1 cycles of the aux clock (R250). -/
def Dev.debounced (d : Dev) (m : Nat) : Bool :=
  decide (SMap.get d.pins.rawSince m - 1 + d.rdAt R.MATCH.MATCH_CTRL_DEBOUNCE m 0 * d.auxCycle ≤ d.mono)

/-- A write of MATCH_CTRL of matcher `m`: taken while disabled, or when it clears ENABLE; enabling presets the filtered match. -/
def Dev.matchCtrlWrite (m w : Nat) (d : Dev) : Dev :=
  let enabled := d.rdAt R.MATCH.MATCH_CTRL_ENABLE m 0 == 1
  if fieldAt w 1 2 = 3 ∨ (enabled && isSet w 0) then d.wrAt R.MATCH.MATCH_STATUS_WRITE_REFUSED m 0 1
  else
    let d1 := ((d.wrAt R.MATCH.MATCH_CTRL_ENABLE m 0 w).wrAt R.MATCH.MATCH_CTRL_MODE m 0 (w / 2)).wrAt R.MATCH.MATCH_CTRL_DEBOUNCE m 0 (w / 2 ^ 16)
    if isSet w 0 then ((d1.setRaw m (d1.rawMatch m) d1.mono).setFiltered m (d1.rawMatch m)) else d1

/-- A write of SEL_i, VALUE or MASK of matcher `m`: dropped while it is enabled (R251). -/
def Dev.matchWrite (m : Nat) (f : Dev → Dev) (d : Dev) : Dev :=
  if d.rdAt R.MATCH.MATCH_CTRL_ENABLE m 0 = 1 then d.wrAt R.MATCH.MATCH_STATUS_WRITE_REFUSED m 0 1 else f d

/-- The synchronised pin levels, bit p of `levels`; what the matchers keep for pins in keeper windows stays (R250). -/
def Dev.samplePins (levels : Nat) (d : Dev) : Dev :=
  let m := (List.range 320).filterMap fun p => if bitAt levels p = 1 then some (p, 1) else none
  let k := (List.range 320).filterMap fun p => if (if d.inWindow p then SMap.get d.pins.kept p else bitAt levels p) = 1 then some (p, 1) else none
  { d with pins := { d.pins with input := m, kept := k } }

/-- The synchronised pins stand at `levels` in the aux-clock cycle stamped `t`, as they have in the `cycles` cycles that end with it; matcher `m` acts in it (R250, R251). -/
def Dev.pinMatch (m levels cycles t : Nat) (d : Dev) : Dev :=
  let d1 := ((d.toTime t).settlePins).samplePins levels
  if d1.rdAt R.MATCH.MATCH_CTRL_ENABLE m 0 = 0 then d1
  else
    let raw := d1.rawMatch m
    let old := d1.rdAt R.MATCH.MATCH_STATUS_FILTERED m 0
    let d2 := d1.setRaw m raw (d1.mono - (cycles - 1) * d1.auxCycle)
    let d3 := if d2.debounced m ∧ old ≠ raw then d2.setFiltered m raw else d2
    let new := d3.rdAt R.MATCH.MATCH_STATUS_FILTERED m 0
    let mode := d1.rdAt R.MATCH.MATCH_CTRL_MODE m 0
    if (mode == 0 && new == 1) || (mode == 1 && old == 0 && new == 1) || (mode == 2 && old == 1 && new == 0) then
      (d3.wrAt R.MATCH.STAMP m 0 (SMap.get d3.pins.filterAt m)).event (0x260 + m)
    else d3

end Sys2Proof.Machine
end

