-- ==== Sys2Proof/Machine/Edge.lean ====
section
/-! DEFINITION. The edge fabric (spec/08): routing signals, product terms, macrocells, long lines, block memories, FIFOs, the staged global release
and the probes.  One clock event is the set of trees that rise or fall at one instant; block memories and FIFOs act on it by commands of their own. -/

namespace Sys2Proof.Machine

/-! Configuration payloads (R235). -/

/-- The payload of quarter `q` of ELB `e`. -/
def Dev.elbQuarter (d : Dev) (e q : Nat) : Bytes := SMap.get d.edge.cfg (e * 4 + q)
/-- The routing signal that input `i` of ELB `e` selects (R209, R210). -/
def Dev.elbInput (d : Dev) (e i : Nat) : Nat := leAt (SMap.get d.edge.cfg (0x10000 + e)) (2 * i) 2
/-- Where term `t` stands: quarter and local number. -/
def termPlace (t : Nat) : Nat × Nat := if t < 80 then (t / 20, t % 20) else ((t - 80) / 4, 20 + (t - 80) % 4)
/-- The configuration word of macrocell `m` (R211). -/
def Dev.macWord (d : Dev) (m : Nat) : Nat := leAt (d.elbQuarter (m / 16) (m % 16 / 4)) (292 + 8 * (m % 4)) 8
def macTy (w : Nat) : Nat := fieldAt w 22 2
def macClk (w : Nat) : Nat := fieldAt w 24 4
/-- The macrocells that the EDGE frames configure, in ascending order. -/
def Dev.macs (d : Dev) : List Nat :=
  (SMap.range d.edge.cfg 0 1024).flatMap fun e => (List.range 4).map fun j => e.1 / 4 * 16 + e.1 % 4 * 4 + j
/-- The clock frame; where none is loaded, GCT0 takes PLL0 (R215). -/
def Dev.treeSource (d : Dev) (g : Nat) : Nat :=
  let c := SMap.get d.edge.cfg 0x30000
  if c = [] then (if g = 0 then 1 else 0) else leAt c (16 + g) 1
/-- The configuration of block memory `b`. -/
def Dev.memCfg (d : Dev) (b : Nat) : Bytes := SMap.get d.edge.cfg (0x20100 + b)
/-- The configuration of FIFO `f`. -/
def Dev.fifoCfg (d : Dev) (f : Nat) : Bytes := SMap.get d.edge.cfg (0x30100 + f)
/-- FIFO `f` has direction OUT. -/
def Dev.fifoOut (d : Dev) (f : Nat) : Bool := leAt (d.fifoCfg f) 0 1 == 1
/-- FIFO `f` is configured. -/
def Dev.fifoUsed (d : Dev) (f : Nat) : Bool := decide (d.fifoCfg f ≠ [])

/-- RELEASE_STAGE, or the stage of the release of a region (R231, spec/07 R206). -/
def Dev.stageOf (d : Dev) (region : Nat) : Nat :=
  if d.edge.fenced.contains region then SMap.get d.edge.regionStage region else d.rd R.EDGE.EDGE_STATUS_RELEASE_STAGE

/-! Routing signals (R209). -/

/-- The entries of FIFO `f` that its other side counts (R222). -/
def Dev.fifoSeen (d : Dev) (f : Nat) : List (Nat × Nat) := (SMap.get d.edge.fifo f).filter fun e => e.2 == 0
/-- The data word of FIFO `f`. -/
def Dev.fifoData (d : Dev) (f : Nat) : Nat :=
  if d.fifoOut f then SMap.get d.edge.fifoWord f else ((d.fifoSeen f).head?.map (·.1)).getD (SMap.get d.edge.fifoWord f)

/-- A clock strobe is on in the current GCT0 cycle: the tick strobe of TB `n` (R216); none during a hard halt (R230). -/
def Dev.tickStrobe (d : Dev) (n : Nat) : Bool := decide (d.runState ≠ 3) && d.edge.strobes.contains (n, d.edge.edges)
/-- The presentation strobe (R227). -/
def Dev.presentStrobe (d : Dev) : Bool := decide (d.edge.presStrobe = d.edge.edges + 1)

/-- A macrocell whose output follows its terms: COMB, or a latch whose clock is high (R211). `ce` is its enable. -/
def Dev.clockHigh (d : Dev) (w : Nat) (pt : Nat) : Bool :=
  let h := if macClk w = 8 then pt == 1 else isSet d.edge.high (macClk w)
  h != isSet w 28

/-- The value of routing signal `n`, where `k` gives the outputs of COMB macrocells and open latches and the long lines (by signal number, plus one);
none where it is not known yet. -/
def Dev.sigVal (d : Dev) (k : SMap Nat) (n : Nat) : Option Nat :=
  if n < 0x1000 then
    if d.edge.fenced.contains (n / 256) then some (SMap.get d.edge.borders n)
    else
      let t := macTy (d.macWord n)
      if t = 0 ∨ t = 3 then (match SMap.get k n with | 0 => none | v + 1 => some v) else some (SMap.get d.edge.mac n)
  else if n < 0x1140 then some (if d.pendingHalf (n - 0x1000) then 0 else SMap.get d.edge.pinIn (n - 0x1000))
  else if 0x1400 ≤ n ∧ n < 0x1800 then
    some (if d.edge.lanemap.any (fun e => e.1 == 1024 + (n - 0x1400) && isSet e.2 31) then SMap.get d.edge.shown (n - 0x1400) % 2 else 0)
  else if 0x1800 ≤ n ∧ n < 0x2800 then some (bitAt (SMap.get d.edge.memRead ((n - 0x1800) / 32)) (n % 32))
  else if 0x2800 ≤ n ∧ n < 0x2C00 then some (bitAt (d.fifoData ((n - 0x2800) / 32)) (n % 32))
  else if 0x2C00 ≤ n ∧ n < 0x2C40 then
    let f := (n - 0x2C00) / 2
    some (if n % 2 = 0 then bit (d.fifoSeen f == []) else bit (decide (64 ≤ (SMap.get d.edge.fifo f).length)))
  else if 0x2C40 ≤ n ∧ n < 0x2C80 then some (bit (decide (SMap.get d.edge.coll (n - 0x2C40) ≠ 0)))
  else if 0x2C80 ≤ n ∧ n < 0x2CC0 then (match SMap.get k n with | 0 => none | v + 1 => some v)
  else if 0x2CC0 ≤ n ∧ n < 0x2CC4 then some (bit (d.tickStrobe (n - 0x2CC0)))
  else if n = 0x2CC4 then some (bit d.presentStrobe)
  else if n = 0x2CC5 then some (bit (d.rd R.EDGE.EDGE_STATUS_RELEASE_STAGE == 3))
  else some 0

/-! Terms and sums (R210, R211), in three values: known 0, known 1, not known yet. -/

def andK (a b : Option Nat) : Option Nat :=
  match a, b with
  | some 0, _ => some 0
  | _, some 0 => some 0
  | some _, some _ => some 1
  | _, _ => none

def notK (a : Option Nat) : Option Nat := a.map fun v => 1 - v

def orK (a b : Option Nat) : Option Nat := notK (andK (notK a) (notK b))

/-- Term `t` of ELB `e`. -/
def Dev.termVal (d : Dev) (k : SMap Nat) (e t : Nat) : Option Nat :=
  let pl := termPlace t
  let q := d.elbQuarter e pl.1
  if isSet (leAt q 288 3) pl.2 then
    let bits := leAt q (12 * pl.2) 12
    (setBits bits 96).foldl (fun acc b => andK acc (if b % 2 = 0 then d.sigVal k (d.elbInput e (b / 2)) else notK (d.sigVal k (d.elbInput e (b / 2)))))
      (if (List.range 48).any fun i => fieldAt bits (2 * i) 2 == 3 then some 0 else some 1)
  else some 0

/-- Owned term `j` of macrocell `m`. -/
def Dev.ownTerm (d : Dev) (k : SMap Nat) (m j : Nat) : Option Nat := d.termVal k (m / 16) (5 * (m % 16) + j)

/-- The sum of macrocell `m`. -/
def Dev.macSum (d : Dev) (k : SMap Nat) (m : Nat) : Option Nat :=
  let w := d.macWord m
  let own := (setBits (fieldAt w 0 5) 5).foldl (fun acc j => orK acc (d.ownTerm k m j)) (some 0)
  let all := (setBits (fieldAt w 5 16) 16).foldl (fun acc j => orK acc (d.termVal k (m / 16) (80 + j))) own
  if isSet w 21 then notK all else all

/-- A registered macrocell holds RST_VAL: before stage 3 of the release of its region (R231). -/
def Dev.inReset (d : Dev) (m : Nat) : Bool := decide (d.stageOf (m / 256) < 3)

/-- The clock of macrocell `m` is stopped during a hard halt (R230). -/
def Dev.haltGated (d : Dev) (w : Nat) : Bool :=
  decide (d.runState = 3) && (macClk w == 8 || isSet (d.rd R.EDGE.EDGE_CTRL_HALT_GATE) (macClk w))

/-- The output of a COMB macrocell or a latch: its sum while it is transparent and enabled, else what it holds. -/
def Dev.macFlow (d : Dev) (k : SMap Nat) (m : Nat) : Option Nat :=
  let w := d.macWord m
  if macTy w = 0 then d.macSum k m
  else if d.inReset m then some (bitAt w 30)
  else
    match (if isSet w 31 then d.ownTerm k m 2 else some 0) with
    | none => none
    | some (_ + 1) => some (bitAt w 30)
    | some 0 =>
      match (if isSet w 29 then d.ownTerm k m 3 else some 1), (if macClk w = 8 then d.ownTerm k m 4 else some 0) with
      | some ce, some pt =>
        if ce = 1 && d.clockHigh w pt && !d.haltGated w then d.macSum k m else some (SMap.get d.edge.mac m)
      | _, _ => none

/-- The macrocells that may drive long line `l`, ascending (R211). -/
def Dev.lineDrivers (d : Dev) (l : Nat) : List Nat :=
  d.macs.filter fun m => decide (fieldAt (d.macWord m) 38 2 ≠ 0 ∧ fieldAt (d.macWord m) 32 6 = l)

/-- Macrocell `m` drives its long line: output enables act from stage 1; a fenced region drives nothing (R218, R231, R237). -/
def Dev.lineOe (d : Dev) (k : SMap Nat) (m : Nat) : Option Nat :=
  let w := d.macWord m
  if d.edge.fenced.contains (m / 256) ∨ d.rd R.EDGE.EDGE_STATUS_RELEASE_STAGE = 0 then some 0
  else if fieldAt w 38 2 = 1 then some 1 else d.ownTerm k m 1

/-- The value of long line `l`: that of its lowest driver, else its keeper (R218). -/
def Dev.lineFlow (d : Dev) (k : SMap Nat) (l : Nat) : List Nat → Option Nat
  | [] => some (SMap.get d.edge.longLines l)
  | m :: ms =>
    match d.lineOe k m with
    | none => none
    | some 0 => d.lineFlow k l ms
    | some (_ + 1) => d.sigVal k m

/-- One pass over everything not known yet. -/
def Dev.flowPass (d : Dev) (k : SMap Nat) : SMap Nat :=
  let k1 := d.macs.foldl (fun k m =>
    let t := macTy (d.macWord m)
    if SMap.get k m = 0 ∧ (t = 0 ∨ t = 3) then (match d.macFlow k m with | some v => SMap.set k m (v + 1) | none => k) else k) k
  (List.range 64).foldl (fun k l =>
    if SMap.get k (0x2C80 + l) = 0 then
      (match d.lineFlow k l (d.lineDrivers l) with | some v => SMap.set k (0x2C80 + l) (v + 1) | none => k)
    else k) k1

/-- Passes until nothing more becomes known. -/
def Dev.flow (d : Dev) (k : SMap Nat) : Nat → SMap Nat
  | 0 => k
  | n + 1 => let k1 := d.flowPass k; if k1 = k then k else d.flow k1 n

/-- The macrocells and lines still unknown lie on closed loops or depend on them: each has a free value (R212). -/
def Dev.freeLoops (k : SMap Nat) (d : Dev) : SMap Nat × Dev :=
  let nodes := (d.macs.filter fun m => decide (SMap.get k m = 0) && (macTy (d.macWord m) == 0 || macTy (d.macWord m) == 3)) ++
    ((List.range 64).map (0x2C80 + ·)).filter fun n => decide (SMap.get k n = 0)
  nodes.foldl (fun x n => let f := x.2.free 1; (SMap.set x.1 n (f.1 + 1), f.2)) (k, d)

/-- The outputs of the combinational part, by signal number, plus one. -/
def Dev.combValues (d : Dev) : SMap Nat × Dev := d.freeLoops (d.flow [] (d.macs.length + 65))

/-- Registered macrocells in reset, and those whose asynchronous reset term is 1, take RST_VAL (R211). -/
def Dev.asyncResets (k : SMap Nat) (d : Dev) : Dev :=
  forAll d.macs (fun m d =>
    let w := d.macWord m
    if (macTy w = 1 ∨ macTy w = 2) ∧ (d.inReset m ∨ (isSet w 31 ∧ d.ownTerm k m 2 = some 1)) then
      { d with edge := { d.edge with mac := SMap.set d.edge.mac m (bitAt w 30) } }
    else d) d

/-- The combinational part settles: COMB outputs, latches and long lines are stored; resets act until nothing changes. -/
def Dev.settleEdge (d : Dev) : Nat → SMap Nat × Dev
  | 0 => d.combValues
  | n + 1 =>
    let x := d.combValues
    let d1 := x.2.asyncResets x.1
    if d1.edge.mac = x.2.edge.mac then x else d1.settleEdge n

/-- The stored outputs after settling. -/
def Dev.storeComb (k : SMap Nat) (d : Dev) : Dev :=
  let mac := (SMap.range k 0 0x1000).foldl (fun m e => SMap.set m e.1 (e.2 - 1)) d.edge.mac
  let ll := (SMap.range k 0x2C80 0x2CC0).foldl (fun m e => SMap.set m (e.1 - 0x2C80) (e.2 - 1)) d.edge.longLines
  { d with edge := { d.edge with mac := mac, longLines := ll } }

/-- The edge fabric comes to rest; the signals as they then stand, and the device. -/
def Dev.rest (d : Dev) : SMap Nat × Dev :=
  let x := d.settleEdge (d.macs.length + 1)
  (x.1, x.2.storeComb x.1)

/-- The same, the device alone. -/
def Dev.restEdge (d : Dev) : Dev := d.rest.2

/-! Clock events. -/

/-- The value of a routing signal after settling. -/
def Dev.sig (d : Dev) (k : SMap Nat) (n : Nat) : Nat := (d.sigVal k n).getD 0

/-- What a D or T macrocell takes at an active edge of its clock, or what it holds (R211, R230). -/
def Dev.macNext (d : Dev) (k : SMap Nat) (m : Nat) : Nat :=
  let w := d.macWord m
  let old := SMap.get d.edge.mac m
  let s := (d.macSum k m).getD 0
  if d.inReset m then bitAt w 30
  else if d.haltGated w || (isSet w 29 && d.ownTerm k m 3 != some 1) then old
  else if macTy w = 2 then (old + s) % 2 else s

/-- The D and T macrocells that `sel` names take their next value, all from the signals `k`. -/
def Dev.clockMacs (d : Dev) (k : SMap Nat) (sel : Nat → Bool) : Dev :=
  let ms := d.macs.filter fun m => (macTy (d.macWord m) == 1 || macTy (d.macWord m) == 2) && sel m
  { d with edge := { d.edge with mac := ms.foldl (fun s m => SMap.set s m (d.macNext k m)) d.edge.mac } }

/-- Product-term clocks that rise, or fall for CLK_INV, act, until none does (R211). `k` is how the signals stood before. -/
def Dev.ripple (d : Dev) (k : SMap Nat) : Nat → Dev
  | 0 => d
  | n + 1 =>
    let x := d.rest
    let pts := (x.2.macs.filter fun m => macClk (x.2.macWord m) == 8 && macTy (x.2.macWord m) != 0).map fun m =>
      (m, (x.2.ownTerm x.1 m 4).getD 0)
    let act := pts.filter fun e =>
      let was := SMap.get x.2.edge.ptPrev e.1
      if isSet (x.2.macWord e.1) 28 then was == 1 && e.2 == 0 else was == 0 && e.2 == 1
    let d1 := { x.2 with edge := { x.2.edge with ptPrev := pts.foldl (fun m e => SMap.set m e.1 e.2) x.2.edge.ptPrev } }
    if act = [] then d1 else (d1.clockMacs k fun m => act.any fun e => e.1 == m).ripple x.1 n

/-- Trees `rise` rise and trees `fall` fall: every macrocell on them acts on the signals `k` as they stood before. -/
def Dev.clockTrees (d : Dev) (k : SMap Nat) (rise fall : Nat) : Dev :=
  let hit (m : Nat) : Bool :=
    let w := d.macWord m
    macClk w != 8 && (if isSet w 28 then isSet fall (macClk w) else isSet rise (macClk w))
  let d1 := { d with edge := { d.edge with high := (d.edge.high ||| rise) &&& (255 - (fall &&& (255 - rise))) } }
  (d1.clockMacs k hit).ripple k (d.macs.length + 1)

/-! Block memories (R220, R221). -/

/-- Memory and FIFO sides on tree `g` make no access during a hard halt (R230). -/
def Dev.sideGated (d : Dev) (g : Nat) : Bool := decide (d.runState = 3) && isSet (d.rd R.EDGE.EDGE_CTRL_HALT_GATE) g

/-- A routing signal before the last clock event, as memories and FIFOs used it. -/
def Dev.preSig (d : Dev) (n : Nat) : Nat := SMap.get d.edge.pre n

/-- `w` routing signals named from offset `off` of a payload, as a number. -/
def Dev.preNum (d : Dev) (c : Bytes) (off w : Nat) : Nat :=
  (List.range w).foldl (fun v i => v + d.preSig (leAt c (off + 2 * i) 2) * 2 ^ i) 0

/-- What port `p` of memory `b` does at the last clock event: nothing, or its address with what it writes. -/
def Dev.memPort (d : Dev) (b p : Nat) : Option (Nat × Option Nat) :=
  let c := d.memCfg b
  let g := leAt c (1 + p) 1
  let off := 8 + 100 * p
  if c = [] ∨ !isSet d.edge.rose g ∨ d.sideGated g ∨ d.preSig (leAt c (off + 96) 2) = 0 then none
  else
    let a := d.preNum c off 15 % 2 ^ (15 - leAt c 0 1)
    some (a, if d.preSig (leAt c (off + 94) 2) = 1 ∧ 2 ≤ d.stageOf (b / 4) then some (d.preNum c (off + 30) 32) else none)

/-- Word `i` of memory `b` in its aspect: bits [i·w + w − 1 : i·w]. -/
def Dev.memWord (d : Dev) (b i : Nat) : Nat :=
  let w := 2 ^ leAt (d.memCfg b) 0 1
  (List.range w).foldl (fun v j => v + bitAt (SMap.get d.edge.bmem (b * 4096 + (i * w + j) / 8)).toNat ((i * w + j) % 8) * 2 ^ j) 0

/-- Writing that word. -/
def Dev.memStore (b i v : Nat) (d : Dev) : Dev :=
  let w := 2 ^ leAt (d.memCfg b) 0 1
  let m := (List.range w).foldl (fun m j =>
    let a := b * 4096 + (i * w + j) / 8
    SMap.set m a (BitVec.ofNat 8 (putBit (SMap.get m a).toNat ((i * w + j) % 8) (bitAt v j)))) d.edge.bmem
  { d with edge := { d.edge with bmem := m } }

/-- 0.4 ns, in which the edges of two ports count as one cycle (R221), times ten. -/
def sameCycle : Nat := 4 * 2 ^ 32

/-- Port `p` of memory `b` has written address `a` in the cycle of the last clock event: the word as it stood before (R221). -/
def Dev.writtenNow (d : Dev) (b p a : Nat) : Option Nat :=
  let x := SMap.get d.edge.portWrites (b * 2 + p)
  if x.1 ≠ 0 ∧ (d.edge.eventAt - (x.1 - 1)) * 10 ≤ sameCycle ∧ x.2.1 = a then some x.2.2 else none

/-- Two writes of one address in one cycle (R221). -/
def Dev.collide (b : Nat) (d : Dev) : Dev :=
  let d1 := { d with edge := { d.edge with coll := SMap.set d.edge.coll b 1 } }
  ((d1.wr R.EDGE.BMEM_COLL (d1.rd R.EDGE.BMEM_COLL ||| 2 ^ b)).count 0xB3 3 1).event 0x242

/-- Port `p` of memory `b` makes its access at address `a` (R220, R221): it reads the word as it stood before the cycle, and writes `w`; of two writes to one
address in one cycle that of port A lands. -/
def Dev.portAccess (b p a : Nat) (w : Option Nat) (d : Dev) : Dev :=
  let other := d.writtenNow b (1 - p) a
  let old := other.getD (d.memWord b a)
  let d1 := { d with edge := { d.edge with memRead := SMap.set d.edge.memRead (b * 2 + p) old } }
  match w with
  | none => d1
  | some v =>
    let d2 := if p = 1 ∧ other.isSome then d1
      else { d1.memStore b a v with edge := { (d1.memStore b a v).edge with
        portWrites := SMap.set d1.edge.portWrites (b * 2 + p) (d1.edge.eventAt + 1, a, old) } }
    if other.isSome then d2.collide b else d2

/-- Both ports of memory `b` at the last clock event. -/
def Dev.blockMemory (b : Nat) (d : Dev) : Dev :=
  if d.edge.acted.contains b then d
  else
    let act (p : Nat) (x : Option (Nat × Option Nat)) (d : Dev) : Dev := match x with | some (a, w) => d.portAccess b p a w | none => d
    act 1 (d.memPort b 1) (act 0 (d.memPort b 0) { d with edge := { d.edge with acted := b :: d.edge.acted } })

/-! FIFOs (R222, R223). -/

/-- The entries of FIFO `f`; FIFO_LEVEL shows their number. -/
def Dev.setFifo (f : Nat) (es : List (Nat × Nat)) (d : Dev) : Dev :=
  { d with edge := { d.edge with fifo := SMap.set d.edge.fifo f es } }

/-- A word enters FIFO `f`, or is dropped with overflow; the other side counts it at the third edge of its clock. -/
def Dev.pushFifo (f v : Nat) (d : Dev) : Dev :=
  let es := SMap.get d.edge.fifo f
  if 64 ≤ es.length then
    ((d.wr R.EDGE.FIFO_OVF (d.rd R.EDGE.FIFO_OVF ||| 2 ^ f)).count 0xB3 4 1).event 0x243
  else d.setFifo f (es ++ [(v % 2 ^ 32, 3)])

/-- The side of a FIFO has acted on the last clock event. -/
def Dev.actSide (k : Nat) (d : Dev) : Dev := { d with edge := { d.edge with acted := k :: d.edge.acted } }

/-- The write side of FIFO `f`: an IN FIFO at its clock with WE = 1, an OUT FIFO once at each presentation with PUSH = 1, both from stage 2. -/
def Dev.fifoWrite (f : Nat) (d : Dev) : Dev :=
  let c := d.fifoCfg f
  if d.edge.acted.contains (64 + 2 * f) || !d.fifoUsed f || decide (d.stageOf (f / 2) < 2) then d
  else if d.fifoOut f then
    let b := leAt c 6 2
    if d.edge.pushDue.contains f && SMap.get d.edge.shown (b + 32) % 2 == 1 then
      { d with edge := { d.edge with pushDue := d.edge.pushDue.filter (· != f) } }.pushFifo f
        ((List.range 32).foldl (fun v i => v + SMap.get d.edge.shown (b + i) % 2 * 2 ^ i) 0)
    else d
  else if isSet d.edge.rose (leAt c 1 1) && !d.sideGated (leAt c 1 1) && d.preSig (leAt c 4 2) == 1 then
    (d.actSide (64 + 2 * f)).pushFifo f (d.preNum c 8 32)
  else d

/-- The head of FIFO `f` goes.  What the data word of an empty IN FIFO shows is a free value: the manual names none. -/
def Dev.popHead (f : Nat) (d : Dev) : Dev :=
  let d1 := d.setFifo f ((SMap.get d.edge.fifo f).drop 1)
  if d.fifoOut f then
    { d1 with edge := { d1.edge with fifoWord := SMap.set d1.edge.fifoWord f (((d.fifoSeen f).head?.map (·.1)).getD 0) } }
  else if d1.fifoSeen f = [] then
    let x := d1.free 32
    { x.2 with edge := { x.2.edge with fifoWord := SMap.set x.2.edge.fifoWord f x.1 } }
  else d1

/-- The read side of FIFO `f`: an IN FIFO gives up the head that a sample has taken, an OUT FIFO pops at its clock with RE = 1, or records underflow. -/
def Dev.fifoPop (f : Nat) (d : Dev) : Dev :=
  let c := d.fifoCfg f
  if !d.fifoUsed f then d
  else if d.fifoOut f then
    if d.edge.acted.contains (65 + 2 * f) || !isSet d.edge.rose (leAt c 1 1) || d.sideGated (leAt c 1 1) || d.preSig (leAt c 4 2) == 0 then d
    else
      let d1 := d.actSide (65 + 2 * f)
      if d.preSig (0x2C00 + 2 * f) = 0 then d1.popHead f
      else ((d1.wr R.EDGE.FIFO_UNF (d1.rd R.EDGE.FIFO_UNF ||| 2 ^ f)).count 0xB3 5 1).event 0x244
  else if SMap.get d.edge.popDue f = 1 then
    let d1 := { d with edge := { d.edge with popDue := SMap.set d.edge.popDue f 0 } }
    if d.fifoSeen f = [] then d1 else d1.popHead f
  else d

/-- Every access of the last clock event that no command has made. -/
def Dev.finishAccesses (d : Dev) : Dev :=
  let d1 := forAll (SMap.range d.edge.cfg 0x20100 0x20140) (fun e d => d.blockMemory (e.1 - 0x20100)) d
  forAll (SMap.range d.edge.cfg 0x30100 0x30120) (fun e d => (d.fifoWrite (e.1 - 0x30100)).fifoPop (e.1 - 0x30100)) d1

/-- The routing signals that memories and FIFOs use, with the EMPTY flags. -/
def Dev.sideSignals (d : Dev) : List Nat :=
  ((SMap.range d.edge.cfg 0x20100 0x20140).flatMap fun e => (List.range 100).map fun i => leAt e.2 (8 + 2 * i) 2) ++
  ((SMap.range d.edge.cfg 0x30100 0x30120).flatMap fun e =>
    (0x2C00 + 2 * (e.1 - 0x30100)) :: leAt e.2 4 2 :: (List.range 32).map fun i => leAt e.2 (8 + 2 * i) 2)

/-- The other side of each FIFO counts written words as its clock goes on (R222). -/
def Dev.ageFifos (rise : Nat) (d : Dev) : Dev :=
  forAll (SMap.range d.edge.cfg 0x30100 0x30120) (fun e d =>
    let f := e.1 - 0x30100
    let g := if d.fifoOut f then leAt e.2 1 1 else 0
    if isSet rise g then d.setFifo f ((SMap.get d.edge.fifo f).map fun x => (x.1, x.2 - 1)) else d) d

/-- A collision flag reads 1 for one cycle of the clock of port B (R221). -/
def Dev.ageCollisions (rise : Nat) (d : Dev) : Dev :=
  { d with edge := { d.edge with coll := d.edge.coll.filter fun e => !isSet rise (leAt (d.memCfg e.1) 2 1) } }

/-! The GCT0 cycle (R215, R218, R226, R233, R234). -/

/-- The sample that the coming GCT0 edge takes of the connected inbound lanes. -/
def Dev.sampleLanes (d : Dev) (k : SMap Nat) : SMap Nat :=
  (SMap.range d.edge.lanemap 0 1024).filterMap fun e =>
    if isSet e.2 31 ∧ d.sig k (fieldAt e.2 0 16) = 1 then some (e.1, 1) else none

/-- User events at a GCT0 edge: a signal that is 1 and was 0 at the edge before raises EV_USER. -/
def Dev.userEvents (k : SMap Nat) (d : Dev) : Dev :=
  let c := SMap.get d.edge.cfg 0x30200
  if c = [] then d
  else
    forUpto 256 (fun u d =>
      let s := leAt c (2 * u) 2
      if s = 0xFFFF then d
      else
        let v := d.sig k s
        let d1 := { d with edge := { d.edge with userPrev := SMap.set d.edge.userPrev u v } }
        if v = 1 ∧ SMap.get d.edge.userPrev u = 0 then (d1.count 0xB3 6 1).event (0x300 + u) else d1) d

/-- Long lines with two or more drivers in the GCT0 cycle that ends (R218).  DEDUCED: a cycle is judged by the output enables as they stand at its end, once everything that
its edge has set off has come to rest. -/
def Dev.lineConflicts (k : SMap Nat) (d : Dev) : Dev :=
  forUpto 64 (fun l d =>
    if 2 ≤ ((d.lineDrivers l).filter fun m => d.lineOe k m == some 1).length then
      ((((d.wr R.EDGE.LL_CONFLICT_MASK (d.rd R.EDGE.LL_CONFLICT_MASK ||| 2 ^ l)).bump R.EDGE.LL_CONFLICT_COUNT).count 0xB3 2 1).event 0x241)
    else d) d

/-- PROBE_SEL_k as one number: INDEX, KIND, ENABLE. -/
def Dev.probeSelNow (d : Dev) (p : Nat) : Nat :=
  d.rdAt R.EDGE.PROBE_SEL_INDEX 0 p + d.rdAt R.EDGE.PROBE_SEL_KIND 0 p * 2 ^ 16 + d.rdAt R.EDGE.PROBE_SEL_ENABLE 0 p * 2 ^ 17

/-- What the source of probe `p` showed in the GCT0 cycle that ends, by the selection that stood at its edge; 0 where it is disabled (R233). -/
def Dev.probeSource (d : Dev) (k : SMap Nat) (p : Nat) : Nat :=
  let s := SMap.get d.edge.probeSel p
  if !isSet s 17 then 0 else if !isSet s 16 then d.sig k (fieldAt s 0 16) else SMap.get d.edge.sample (fieldAt s 0 10) % 2

/-- Every probe takes its source of the cycle that ends, and the selection of the cycle that begins. -/
def Dev.shiftProbes (k : SMap Nat) (d : Dev) : Dev :=
  let now := (List.range 32).foldl (fun m p => SMap.set m p (d.probeSource k p)) ([] : SMap Nat)
  let sel := (List.range 32).foldl (fun m p => SMap.set m p (d.probeSelNow p)) ([] : SMap Nat)
  { d with edge := { d.edge with probeHist := (now :: d.edge.probeHist).take 2, probeSel := sel } }

/-- The trees, of those that `ev` names, that have an external source; strobe trees follow their strobes (R214). -/
def Dev.outerTrees (d : Dev) (ev : Nat) : Nat :=
  (List.range 8).foldl (fun m g =>
    let s := d.treeSource g
    if isSet ev g ∧ s ≠ 0 ∧ s < 8 then m + 2 ^ g else m) 0

/-- The trees whose source is the strobe with code `c`. -/
def Dev.strobeTrees (d : Dev) (c : Nat) : Nat :=
  (List.range 8).foldl (fun m g => if d.treeSource g = c then m + 2 ^ g else m) 0

/-- The trees that a GCT0 edge makes rise: those of the tick strobes that begin there. -/
def Dev.strobeRises (d : Dev) : Nat := (List.range 4).foldl (fun m n => if d.tickStrobe n then m ||| d.strobeTrees (8 + n) else m) 0

/-- All trees with a strobe source. -/
def Dev.allStrobeTrees (d : Dev) : Nat := (List.range 5).foldl (fun m n => m ||| d.strobeTrees (8 + n)) 0

/-- The input buffers of the pins, whose pads stand at `levels`; a DDR input holds the bit captured at the rising edge of its tree on the even pin, that of the falling edge on
the odd pin (R209, spec/09 R241). -/
def Dev.takeInputs (levels rise fall : Nat) (d : Dev) : Dev :=
  let m := (List.range 320).filterMap fun p =>
    let w := SMap.get d.pins.cfg p
    let g := fieldAt w 29 3
    let v := if pinLvds w && isSet (SMap.get d.pins.cfg (p / 2 * 2)) 12 then
        (if isSet (if p % 2 = 0 then rise else fall) g then bitAt levels (p / 2 * 2) else SMap.get d.edge.pinIn p)
      else bitAt levels p
    if v = 1 then some (p, 1) else none
  { d with edge := { d.edge with pinIn := m, levels := levels } }

/-- The IN FIFOs whose EMPTY flag is 0. -/
def Dev.holdingFifos (d : Dev) : Nat :=
  (SMap.range d.edge.cfg 0x30100 0x30120).foldl (fun m e =>
    let f := e.1 - 0x30100
    if !d.fifoOut f ∧ d.fifoSeen f ≠ [] then m + 2 ^ f else m) 0

/-- The word of PLL `n` (R213); where no clock frame is loaded, PLL0 passes REFCLK_100 on at 100 MHz (R215): a word with M, D and O of 1. -/
def Dev.pllWord (d : Dev) (n : Nat) : Nat :=
  let c := SMap.get d.edge.cfg 0x30000
  if c = [] then 1 + 2 ^ 2 + 2 ^ 12 else leAt c (8 * n) 8

/-- GCT0 comes from a GCLK pin: directly, or through a PLL whose reference it is. -/
def Dev.gctFromPin (d : Dev) : Bool :=
  if d.treeSource 0 = 1 ∨ d.treeSource 0 = 2 then isSet (d.pllWord (d.treeSource 0 - 1)) 1 else true

/-- The stamp of the GCT0 edge that has come (spec/10 R266): one taken from a GCLK pin carries that of the first time-base clock edge at or after it, minus 5 ns; one of a PLL fed from
REFCLK_100 that of its place, k × D × O / M reference periods after edge 0. -/
def Dev.gctStamp (d : Dev) : Nat :=
  if d.gctFromPin then d.stampAt d.tbNow - 5 * 2 ^ 32
  else
    let w := d.pllWord (d.treeSource 0 - 1)
    let a := max 1 (d.rd R.TIME.ADDEND)
    let num := max 1 (fieldAt w 2 7)
    let den := max 1 ((fieldAt w 9 3 + 1) * fieldAt w 12 7)
    let k := ((d.refEdges * a + d.sinceRef + 1) * num + a * den - 1) / (a * den) - 1
    d.stampAt (d.mono - (d.refEdges * a + d.sinceRef - (k * den / num * a + a * (k * den % num) / num)))

/-- A rising edge of GCT0 is counted and stamped. -/
def Dev.countEdge (d : Dev) : Dev :=
  { d with edge := { d.edge with
      sampleHist := (d.edge.edges + 1, d.gctStamp, d.edge.sampleNext, d.holdingFifos) :: d.edge.sampleHist.filter fun e => decide (d.now ≤ e.2.1 + 512 * 2 ^ 32)
      edges := d.edge.edges + 1, gctPeriod := d.mono - d.edge.lastEdge, lastEdge := d.mono
      strobes := d.edge.strobes.filter fun e => decide (d.edge.edges < e.2) } }

/-- What the macrocells on trees of the presentation strobe take if a presentation begins at this edge: they act on the signals as they stood before it (R214). -/
def Dev.presentationNext (d : Dev) (k : SMap Nat) : SMap Nat :=
  let g := d.strobeTrees 0xC
  let ms := d.macs.filter fun m =>
    let w := d.macWord m
    (macTy w == 1 || macTy w == 2) && macClk w != 8 && isSet g (macClk w) && !isSet w 28
  ms.foldl (fun s m => SMap.ins s m (d.macNext k m)) []

/-- A GCT0 cycle ends at a rising edge of GCT0, the signals standing at `k`: its long-line conflicts, probes and user events; the sample of the edge. -/
def Dev.endCycle (k : SMap Nat) (d : Dev) : Dev :=
  let d1 := (((d.lineConflicts k).shiftProbes k).userEvents k)
  { d1 with edge := { d1.edge with sampleNext := d.sampleLanes k, presNext := d.presentationNext k } }.countEdge

/-- The routing signals that memories and FIFOs use are kept as they stand before a clock event. -/
def Dev.keepSignals (k : SMap Nat) (d : Dev) : Dev :=
  { d with edge := { d.edge with pre := d.sideSignals.foldl (fun m n => SMap.set m n (d.sig k n)) [], acted := [], eventAt := d.mono } }

/-- The clock event stamped `t`: trees `rise` rise and trees `fall` fall, the pads of the pins standing at `levels`.  A tree with a strobe source rises with its strobe, and falls
at the end of the strobe's cycle. -/
def Dev.edgeClock (t rise fall levels : Nat) (d : Dev) : Dev :=
  let d0 := (d.finishAccesses.toTime t).settlePins
  let r0 := d0.outerTrees rise
  let f0 := d0.outerTrees fall
  let x := (d0.takeInputs levels 0 0).rest
  let d1 := x.2.keepSignals x.1
  let d2 := if isSet r0 0 then d1.endCycle x.1 else d1
  let r := if isSet r0 0 then r0 ||| d2.strobeRises else r0
  let f := if isSet r0 0 then f0 ||| (d2.allStrobeTrees &&& d2.edge.high) else f0
  let d3 := ({ d2 with edge := { d2.edge with rose := r } }.takeInputs levels r f).ageCollisions r
  ((d3.clockTrees x.1 r f).ageFifos r).restEdge

/-! The staged global release (R231, R232, spec/07 R206). -/

/-- A PLL that feeds a tree is not locked. -/
def Dev.treePllUnlocked (d : Dev) : Bool :=
  (List.range 8).any fun g => (d.treeSource g == 1 && !d.on R.EDGE.EDGE_STATUS_PLL0_LOCK) || (d.treeSource g == 2 && !d.on R.EDGE.EDGE_STATUS_PLL1_LOCK)

/-- e0 for a request made now: the first GCT0 edge at least two GCT0 cycles later. -/
def Dev.releaseEdge (d : Dev) : Nat := if d.edge.lastEdge = d.mono then d.edge.edges + 2 else d.edge.edges + 3

/-- EDGE_CTRL is written: HALT_GATE, and RELEASE. -/
def Dev.edgeCtrlWrite (w t : Nat) (d : Dev) : Dev :=
  let d1 := (d.toTime t).wr R.EDGE.EDGE_CTRL_HALT_GATE (w / 2 ^ 8)
  if !isSet w 0 then d1
  else if d1.loadState ≠ 2 ∨ d1.treePllUnlocked then
    if 1 ≤ d1.rd R.EDGE.EDGE_STATUS_RELEASE_STAGE ∨ d1.edge.e0.isSome then d1
    else ((d1.wr R.EDGE.EDGE_STATUS_RELEASE_REFUSED 1).wr R.RUN.RUN_STATUS_REFUSED 1).wr R.RUN.RUN_STATUS_REFUSE_REASON 0x10
  else if 1 ≤ d1.rd R.EDGE.EDGE_STATUS_RELEASE_STAGE ∨ d1.edge.e0.isSome then d1
  else { d1 with edge := { d1.edge with e0 := some d1.releaseEdge } }

/-- The release of region `r` is in progress, has reached stage `n` − 1, and its edge of stage `n` has come. -/
def Dev.regionDue (d : Dev) (n after r : Nat) : Bool :=
  let e := SMap.get d.edge.regionE0 r
  decide (e ≠ 0) && decide (e - 1 + after ≤ d.edge.edges) && SMap.get d.edge.regionStage r + 1 == n

/-- The release of region `r` reaches stage `n`; at stage 3 its border values end (spec/07 R206). -/
def Dev.regionReach (n r : Nat) (d : Dev) : Dev :=
  if n < 3 then { d with edge := { d.edge with regionStage := SMap.set d.edge.regionStage r n } }.restEdge
  else
    let e := { d.edge with
      fenced := d.edge.fenced.filter (· != r), borders := SMap.clear d.edge.borders (256 * r) (256 * (r + 1))
      regionStage := SMap.set d.edge.regionStage r 0, regionE0 := SMap.set d.edge.regionE0 r 0 }
    (({ d with edge := e }.showFenced).restEdge).event 0x240

/-- The global release reaches stage `n`, when its edge has come; at stage 3 every outbound lane takes 0 (R227). -/
def Dev.globalReach (n after : Nat) (d : Dev) : Dev :=
  match d.edge.e0 with
  | none => d
  | some e =>
    if d.edge.edges < e + after ∨ d.rd R.EDGE.EDGE_STATUS_RELEASE_STAGE + 1 ≠ n then d
    else
      let d1 := d.wr R.EDGE.EDGE_STATUS_RELEASE_STAGE n
      if n < 3 then d1.restEdge else { d1 with edge := { d1.edge with e0 := none, shown := [] } }.restEdge.event 0x240

/-- Every release in progress, that of the device and those of regions, whose edge of stage `n` has come reaches it. -/
def Dev.reachStage (n after : Nat) (d : Dev) : Dev :=
  forAll (d.edge.fenced.filter (d.regionDue n after)) (fun r d => d.regionReach n r) (d.globalReach n after)

/-- The release is withdrawn: configuration state and user reset again (R196, R228, R232). -/
def Dev.withdrawRelease (d : Dev) : Dev :=
  let d1 := { d with edge := { d.edge with e0 := none, fenced := [], borders := [], regionStage := [], regionE0 := [] } }
  (d1.wr R.EDGE.EDGE_STATUS_RELEASE_STAGE 0).showFenced

/-- Completed takes that await presentation are discarded; the first take presented after is take 0 of the next run (R228). -/
def Dev.discardPresent (d : Dev) : Dev :=
  { d with edge := { d.edge with present := [], instants := [], nextTake := 0, tickSamples := [], presStrobe := 0, pushDue := [] } }

/-! Registers with rules of their own (R213, R233, R238). -/

/-- PLL `n` reaches lock: it is enabled by its word, or it is PLL0 where no clock frame is loaded. -/
def Dev.pllLock (n : Nat) (d : Dev) : Dev :=
  let c := SMap.get d.edge.cfg 0x30000
  let on := if c = [] then n == 0 else isSet (leAt c (8 * n) 8) 0
  if !on then d
  else if n = 0 then d.wr R.EDGE.EDGE_STATUS_PLL0_LOCK 1 else if n = 1 then d.wr R.EDGE.EDGE_STATUS_PLL1_LOCK 1 else d

/-- PROBE_SEL_k is written: the probe samples its new source from the next GCT0 edge, which its output shows from the third. -/
def Dev.probeSelWrite (k w : Nat) (d : Dev) : Dev :=
  ((d.wrAt R.EDGE.PROBE_SEL_INDEX 0 k w).wrAt R.EDGE.PROBE_SEL_KIND 0 k (w / 2 ^ 16)).wrAt R.EDGE.PROBE_SEL_ENABLE 0 k (w / 2 ^ 17)

/-- EDGE_STATUS is written: RELEASE_REFUSED and WRITE_REFUSED clear, and each of bits 5 to 8, which shows that a bit of its mask is set, clears its mask (R238). -/
def Dev.edgeStatusWrite (w : Nat) (d : Dev) : Dev :=
  let clear (i : Nat) (r : Reg) (d : Dev) : Dev := if isSet w i then d.wr r 0 else d
  clear 8 R.EDGE.FIFO_UNF (clear 7 R.EDGE.FIFO_OVF (clear 6 R.EDGE.BMEM_COLL (clear 5 R.EDGE.LL_CONFLICT_MASK
    (clear 9 R.EDGE.EDGE_STATUS_WRITE_REFUSED (clear 2 R.EDGE.EDGE_STATUS_RELEASE_REFUSED d)))))

/-- PRESENT_CFG is written. -/
def Dev.presentCfgWrite (w : Nat) (d : Dev) : Dev :=
  if d.running ∨ fieldAt w 0 4 = 0 ∨ fieldAt w 4 16 < 3 then d.wr R.EDGE.EDGE_STATUS_WRITE_REFUSED 1
  else (d.wr R.EDGE.PRESENT_CFG_P w).wr R.EDGE.PRESENT_CFG_OFF (w / 16)

end Sys2Proof.Machine
end

