-- ==== Sys2Proof/Machine/Present.lean ====
section
/-! DEFINITION. Presentation of completed takes on the outbound edge lanes (spec/08 R227 to R230, spec/04 R113). -/

namespace Sys2Proof.Machine

/-- The OUT FIFOs that the EDGE frames configure: a presentation offers each a word. -/
def Dev.outFifos (d : Dev) : List Nat := (SMap.range d.edge.cfg 0x30100 0x30120).filterMap fun e => if leAt e.2 0 1 = 1 then some (e.1 - 0x30100) else none

/-- The oldest take is presented: every outbound lane takes the value that the take left on it, the presentation strobe begins, and the trees that it
feeds rise (R214, R227, R228); what they clock has taken its values from the signals as they stood before the edge. -/
def Dev.showTake (n : Nat) (lanes : SMap Nat) (d : Dev) : Dev :=
  let x := d.finishAccesses.rest
  let trees := x.2.strobeTrees 0xC
  let e := { x.2.edge with
    rose := trees, acted := [], high := x.2.edge.high ||| trees
    mac := x.2.edge.presNext.foldl (fun m e => SMap.set m e.1 e.2) x.2.edge.mac
    present := d.edge.present.drop 1, shown := lanes, nextTake := n + 1, presStrobe := d.edge.edges + 1, pushDue := d.outFifos }
  let d1 := ({ x.2 with edge := e }.takeInputs x.2.edge.levels trees 0).ageCollisions trees
  let d2 := ((d1.ripple x.1 (d1.macs.length + 1)).ageFifos trees).restEdge
  (d2.wr R.EDGE.PRESENT_COUNT (d2.rd R.EDGE.PRESENT_COUNT + 1)).count 0xB3 0 1

/-- The oldest due take is not ready: the lanes keep their values (R113, R228). -/
def Dev.holdPresentation (d : Dev) : Dev := ((d.bump R.EDGE.HELD_COUNT).count 0xB2 9 1).event 0x002

/-- The oldest unpresented take is ready at the edge now reached: its closing boundary lies two GCT0 periods or more before it (R228). -/
def Dev.readyTake (d : Dev) : Option (Nat × SMap Nat) :=
  match d.edge.present with
  | (n, lanes, b) :: _ => if n = d.edge.nextTake ∧ b + 2 * d.edge.gctPeriod ≤ d.now then some (n, lanes) else none
  | [] => none

/-- The earliest presentation instant has been reached, on the GCT0 edge stamped `t`.  During a hard halt nothing is presented (R230). -/
def Dev.presentation (t : Nat) (d : Dev) : Dev :=
  let d1 := d.toTime t
  match d1.edge.instants with
  | [] => d
  | (edge, m) :: rest =>
    if edge ≤ d1.edge.edges then
      let d2 := { d1 with edge := { d1.edge with instants := rest } }
      if d2.runState = 3 ∨ m < d2.edge.nextTake then d2
      else
        match d2.readyTake with
        | some x => d2.showTake x.1 x.2
        | none => d2.holdPresentation
    else d

end Sys2Proof.Machine
end

