-- ==== Sys2Proof/Machine/TimeBase.lean ====
section
/-! DEFINITION. The time bases TB0 to TB3 (spec/10 R276 to R290): counting, comparator lists, ticks, loss and substitution; pulse outputs,
captures and chassis trigger lines. -/

namespace Sys2Proof.Machine

/-! Sources (R276). -/

def Dev.tbSource (d : Dev) (n : Nat) : Nat := d.rdAt R.TBASE.TB_CFG_SOURCE n 0

/-- An edge that EDGE selects: 0 rising, 1 falling, 2 both (R276, R286). -/
def edgeSelected (sel level : Nat) : Bool := (sel == 0 && level == 1) || (sel == 1 && level == 0) || sel == 2

/-- Pin `p` is in function FUNC with SUB, and its bank has a rail (R280, spec/09 R243). -/
def Dev.pinServes (d : Dev) (p func sub : Nat) : Bool :=
  d.pinFunc p == func && fieldAt (SMap.get d.pins.cfg p) 56 8 == sub && !d.pendingHalf p && d.vccio p != 7

/-- The input pins of the source of time base `n` are in their functions (R243, R280). -/
def Dev.tbPinsOk (d : Dev) (n : Nat) : Bool :=
  let tb (i : Nat) : Bool := d.pinServes (224 + 6 * n + i) 4 (6 * n + i)
  match d.tbSource n with
  | 2 => d.pinServes (288 + d.rdAt R.TBASE.TB_CFG_TRIG_LINE n 0) 2 (d.rdAt R.TBASE.TB_CFG_TRIG_LINE n 0)
  | 3 => tb 0 && tb 1 && tb 2
  | 4 => tb 3
  | 5 => tb 4 && tb 5
  | _ => true

/-! Trigger lines and pulse outputs (R284, R285, R287). -/

/-- Output `k` (see `Dev.outShown`) is fired to `v` at the time-base clock edge `m`: its pad changes two cycles later (R267). -/
def Dev.setOut (k v m : Nat) (d : Dev) : Dev :=
  let l := SMap.get d.clk.outs k
  let late (e : Nat × Nat) : Bool := decide (d.mono < e.1)
  { d with clk := { d.clk with outs := SMap.set d.clk.outs k ((d.tbEdge m 2, v) :: (l.takeWhile late ++ (l.dropWhile late).take 1)) } }

/-- Line `k` starts an active pulse of WIDTH cycles at the edge `m`; one that runs starts its width again. -/
def Dev.trigPulse (k m : Nat) (d : Dev) : Dev :=
  { d with clk := { d.clk with
      trig := SMap.set d.clk.trig k 1
      trigEnd := SMap.set d.clk.trigEnd k (d.tbEdge m (d.rdAt R.TIME.TRIG_CFG_WIDTH 0 k)) } }.setOut (8 + k) 1 m

/-- The lines that pulse at each tick of time base `n`; none during a hard halt (spec/16 R413). -/
def Dev.tickPulses (n m : Nat) (d : Dev) : Dev :=
  if d.runState = 3 then d
  else
    forUpto 16 (fun k d =>
      if d.rdAt R.TIME.TRIG_CFG_OUT 0 k = 1 ∧ d.rdAt R.TIME.TRIG_CFG_SRC 0 k = 2 ∧ d.rdAt R.TIME.TRIG_CFG_ARG 0 k = n then d.trigPulse k m else d) d

/-- Pulse output `k` takes its active (1) or idle (0) level at the edge `m`. -/
def Dev.setPulse (k v m : Nat) (d : Dev) : Dev := { d with clk := { d.clk with pulse := SMap.set d.clk.pulse k v } }.setOut k v m

/-! Ticks (R277). -/

/-- Everything that a tick of time base `n` stamped `u`, issued at the time-base clock edge `m`, reaches: its strobe (spec/08 R216), its token (spec/14 R380), trigger lines, the followers (R282), and
the sequencer (spec/04 R109). -/
def Dev.spreadTick (n u m : Nat) (d : Dev) : Dev :=
  let s := max ((d.sampleAt u).2 + 3) (d.edge.edges + 1)
  let d1 := { d with edge := { d.edge with strobes := d.edge.strobes ++ [(n, s)] } }
  let d2 := (d1.tickToken n).tickPulses n m
  let d3 := if d2.linked && d2.isMaster then
      d2.sendAll 0x15 (leBytes n 1 ++ leBytes (u % 2 ^ 64) 8 ++ leBytes (d2.rdAt R.TBASE.POSITION n 0) 4) else d2
  (d3.sequencerTick n u).rewait

/-- MEAN_PERIOD from the stamps of the last 16 real ticks (R281), in nanoseconds. -/
def meanPeriod (h : List Nat) : Nat :=
  if h.length < 2 then 0 else ((h.headD 0 - h.getLastD 0) / (h.length - 1)) / 2 ^ 32

/-- Time base `n` issues a real tick stamped `u` at the edge `m`: it ends a loss whose causes have all ended (R277, R280, R281). -/
def Dev.issueTick (n u m : Nat) (d : Dev) : Dev :=
  let h := (u :: SMap.get d.clk.history n).take 16
  let causes := putBit (SMap.get d.clk.lost n) 1 0
  let live := decide (causes = 0)
  let c := { d.clk with
    history := SMap.set d.clk.history n h, lost := SMap.set d.clk.lost n causes, lostSince := SMap.set d.clk.lostSince n u
    lostNow := if live then SMap.set d.clk.lostNow n 0 else d.clk.lostNow
    subNext := if live then SMap.set d.clk.subNext n 0 else d.clk.subNext }
  let d1 := ((({ d with clk := c }.wrAt R.TBASE.TICK_COUNT n 0 (d.rdAt R.TBASE.TICK_COUNT n 0 + 1)).wrAt R.TBASE.LAST_TICK n 0 u).wrAt
    R.TBASE.MEAN_PERIOD n 0 (meanPeriod h))
  let d2 := if live then (d1.wrAt R.TBASE.TB_STATUS_VALID n 0 1).wrAt R.TBASE.TB_STATUS_SUBSTITUTING n 0 0 else d1
  d2.spreadTick n u m

/-- A further tick in the same cycle merges (R277). -/
def Dev.mergeTick (n : Nat) (d : Dev) : Dev := d.bumpAt R.TBASE.TICK_MERGED n 0

/-- `k` ticks asked for in the cycle of the edge `m`: the first is issued, unless the cycle already has one, the others merge. -/
def Dev.tickCycle (n k m : Nat) (d : Dev) : Dev :=
  let u := d.stampAt m
  if k = 0 then d
  else if (SMap.get d.clk.history n).head? = some u then forUpto k (fun _ d => d.mergeTick n) d
  else forUpto (k - 1) (fun _ d => d.mergeTick n) (d.issueTick n u m)

/-! Comparator lists (R283, R284). -/

/-- The entries of time base `n` at boundary `p` that fire in a direction, in list order. -/
def Dev.firing (d : Dev) (n p : Nat) (up : Bool) : List Nat :=
  (SMap.get d.clk.list n).filter fun e => decide (fieldAt e 0 32 = p) && isSet e (if up then 36 else 37)

/-- An entry that is no TICK acts at the edge `m`; PULSE and TRIG_OUT entries do nothing during a hard halt (spec/16 R413). -/
def Dev.fireEntry (n e m : Nat) (d : Dev) : Dev :=
  let act := fieldAt e 32 4
  let arg := fieldAt e 40 8
  let compare := d.rdAt R.TIME.PULSE_CTRL_MODE 0 arg = 3
  if act = 5 then (d.wrAt R.TBASE.TB_STATUS_CMP_ARG n 0 arg).event (0x410 + n)
  else if d.runState = 3 then d
  else if act = 2 ∧ arg < 8 ∧ compare then d.setPulse arg 1 m
  else if act = 3 ∧ arg < 8 ∧ compare then d.setPulse arg 0 m
  else if act = 4 ∧ arg < 16 ∧ d.rdAt R.TIME.TRIG_CFG_OUT 0 arg = 1 ∧ d.rdAt R.TIME.TRIG_CFG_SRC 0 arg = 1 then d.trigPulse arg m
  else d

/-- Time base `n` has counted across boundary `p` at the edge `m`: its entries fire and its ticks are issued (R276, R277, R284). -/
def Dev.crossed (n p : Nat) (up : Bool) (m : Nat) (d : Dev) : Dev :=
  let es := d.firing n p up
  let d1 := forAll es (fun e d => d.fireEntry n e m) d
  let ticks := if d.rdAt R.TBASE.TB_CFG_TICK_SEL n 0 = 0 then 1 else (es.filter fun e => decide (fieldAt e 32 4 = 1)).length
  d1.tickCycle n ticks m

/-- The positions of time base `n`: CPR, or 2^32 (R276). -/
def Dev.tbPositions (d : Dev) (n : Nat) : Nat := if d.rdAt R.TBASE.CPR n 0 = 0 then 2 ^ 32 else d.rdAt R.TBASE.CPR n 0

/-- One count of time base `n` at the time-base clock edge `m` (R276, R277): POSITION, REVOLUTIONS at a wrap, the crossing. -/
def Dev.countTb (n : Nat) (up : Bool) (m : Nat) (d : Dev) : Dev :=
  let p := d.rdAt R.TBASE.POSITION n 0
  let last := d.tbPositions n - 1
  let q := if up then (if last ≤ p then 0 else p + 1) else (if p = 0 then last else p - 1)
  let r := d.rdAt R.TBASE.REVOLUTIONS n 0
  let d1 := d.wrAt R.TBASE.POSITION n 0 q
  let d2 := if up && decide (q = 0) then d1.wrAt R.TBASE.REVOLUTIONS n 0 (r + 1)
    else if !up && decide (p = 0) then d1.wrAt R.TBASE.REVOLUTIONS n 0 (2 ^ 32 + r - 1) else d1
  d2.crossed n (if up then q else p) up m

/-! Loss (R280, spec/04 R114). -/

/-- A substitute tick that is due at the instant `due` and issued at the edge `m`: it changes neither POSITION nor TICK_COUNT and fires no entry; the next one is due MEAN_PERIOD after this
one was (R281).  A take that it starts finds TBn_VALID at 0 (spec/04 R114). -/
def Dev.substitute (n due m : Nat) (d : Dev) : Dev :=
  let u := d.stampAt m
  let marks := d.running && d.locked && decide (d.rd R.TAKE.TAKE_CTRL_TB_SEL = n)
  let d1 := { d with
    clk := { d.clk with subNext := SMap.set d.clk.subNext n (due + d.rdAt R.TBASE.MEAN_PERIOD n 0 * 2 ^ 32) }
    tk := { d.tk with subs := if marks then u :: d.tk.subs else d.tk.subs } }
  ((d1.wrAt R.TBASE.TB_STATUS_SUBSTITUTING n 0 1).wrAt R.TBASE.LAST_TICK n 0 u).spreadTick n u m

/-- Substitute ticks of a lost time base begin: SUBSTITUTE is its response and a mean period exists (R281). -/
def Dev.startSubstitutes (n : Nat) (d : Dev) : Dev :=
  if d.rd R.TAKE.TAKE_CTRL_TB_SEL = n ∧ d.rd R.TAKE.TAKE_CTRL_LOST_RESP = 2 ∧ SMap.get d.clk.lostNow n = 1 ∧
      0 < d.rdAt R.TBASE.MEAN_PERIOD n 0 then d.substitute n (d.stampAt d.tbNow) d.tbNow
  else d

/-- The loss of time base `n` stops the array under SAFE: it is selected, and the array runs in locked mode (R114). -/
def Dev.lossStops (d : Dev) (n : Nat) : Bool :=
  d.running && d.locked && d.rd R.TAKE.TAKE_CTRL_TB_SEL == n && (d.rd R.TAKE.TAKE_CTRL_LOST_RESP == 0 || d.rd R.TAKE.TAKE_CTRL_LOST_RESP == 3)

/-- A cause of loss of time base `n` arises (R280). -/
def Dev.loseTb (n cause : Nat) (d : Dev) : Dev :=
  let d1 := { d with clk := { d.clk with lost := SMap.set d.clk.lost n (putBit (SMap.get d.clk.lost n) cause 1) } }
  if SMap.get d.clk.lostNow n = 1 then d1
  else
    let d2 := { d1 with clk := { d1.clk with lostNow := SMap.set d1.clk.lostNow n 1 } }
    let d3 := ((d2.wrAt R.TBASE.TB_STATUS_VALID n 0 0).wrAt R.TBASE.TB_STATUS_LOST n 0 1).wrAt R.TBASE.TB_STATUS_LOST_CAUSE n 0 cause
    let stops := d3.lossStops n
    let d4 := d3.unitFault 0x71 (if stops then 4 else 0) (0xE + n) (n + cause * 16)
    (if stops then d4.requestHalt 7 d4.position else d4).startSubstitutes n

/-- A cause of loss ends; the loss itself ends at the next tick. -/
def Dev.endCause (n cause : Nat) (d : Dev) : Dev :=
  { d with clk := { d.clk with lost := SMap.set d.clk.lost n (putBit (SMap.get d.clk.lost n) cause 0) } }

/-- The pins of every time base, as they now stand: cause 0x2 arises or ends. -/
def Dev.watchTbPins (d : Dev) : Dev :=
  forUpto 4 (fun n d =>
    let bad := !d.tbPinsOk n
    if bad && !isSet (SMap.get d.clk.lost n) 2 then d.loseTb n 2
    else if !bad && isSet (SMap.get d.clk.lost n) 2 then d.endCause n 2 else d) d

/-- A time base that counts: its source, its pins; a DIVIDER and a PERIODIC only while REFCLK_100 is there (R276). -/
def Dev.tbCounts (d : Dev) (n source : Nat) : Bool :=
  decide (n < 4) && d.tbSource n == source && d.tbPinsOk n && !((source == 1 || source == 6) && (d.on R.CLK.CLK_STATUS_HOLDOVER || isSet (SMap.get d.clk.lost n) 5))

/-- Edge `k` of REFCLK_100 on the clock `mono`. -/
def Dev.refInstant (d : Dev) (k : Nat) : Nat := d.clk.refAt + k * d.rd R.TIME.ADDEND - d.clk.refNo * d.rd R.TIME.ADDEND

/-! Effects of a correction (R274, R275). -/

/-- The next boundary of pulse output `k` takes effect at the edge `m`: a start makes it active, unless WIDTH is 0; an end makes it idle, and arms the next period of PERIODIC or ends ONCE. -/
def Dev.pulseStep (k m : Nat) (d : Dev) : Dev :=
  let next := SMap.get d.clk.pulseNext k
  let wid := SMap.get d.clk.pulseWid k
  if SMap.get d.clk.pulseEnd k = 0 then
    { d with clk := { d.clk with
        pulseEnd := SMap.set d.clk.pulseEnd k 1, pulseNext := SMap.set d.clk.pulseNext k (next + wid) } }.setPulse k (bit (decide (0 < wid))) m
  else
    let d1 := { d with clk := { d.clk with
        pulseEnd := SMap.set d.clk.pulseEnd k 0
        pulseNext := SMap.set d.clk.pulseNext k (next - wid + SMap.get d.clk.pulsePer k) } }.setPulse k 0 m
    if d.rdAt R.TIME.PULSE_CTRL_MODE 0 k = 2 then d1 else d1.wrAt R.TIME.PULSE_CTRL_ARMED 0 k 0

/-- A pulse output of which boundaries lie in the step `(from', now]` acts on all of them at its edge `m`, and is LATE. -/
def Dev.latePulse (from' m k : Nat) (d : Dev) : Dev :=
  let due (d : Dev) : Bool := d.rdAt R.TIME.PULSE_CTRL_ARMED 0 k == 1 && decide (SMap.get d.clk.pulseNext k ≤ d.now)
  let next := SMap.get d.clk.pulseNext k
  if due d && decide (from' < next) then
    let per := SMap.get d.clk.pulsePer k
    let skip := if per = 0 then 0 else (d.now - next) / per * per
    let d1 := { d with clk := { d.clk with pulseNext := SMap.set d.clk.pulseNext k (next + skip) } }
    (forUpto 3 (fun _ d => if due d then d.pulseStep k m else d) d1).wrAt R.TIME.PULSE_CTRL_LATE 0 k 1
  else d

/-- A capture gate with a boundary in the step is LATE. -/
def Dev.lateGate (from' k : Nat) (d : Dev) : Dev :=
  let inStep (s : Nat) : Bool := decide (from' < d.instantOf s) && decide (d.instantOf s ≤ d.now)
  if d.rdAt R.TIME.CAP_CTRL_ENABLE 0 k = 1 ∧ d.rdAt R.TIME.CAP_CTRL_GATE_EN 0 k = 1 ∧
      (inStep (d.rdAt R.TIME.GATE_START 0 k) ∨ inStep (d.rdAt R.TIME.GATE_END 0 k)) then d.wrAt R.TIME.CAP_STATUS_LATE 0 k 1
  else d

/-- The instants of a PERIODIC time base that lie in the step: their ticks merge into one, stamped with the stamp of the step. -/
def Dev.latePeriodic (m n : Nat) (d : Dev) : Dev :=
  let next := SMap.get d.clk.perNext n
  let per := max 1 (d.rdAt R.TBASE.PERIOD n 0)
  if d.tbCounts n 6 && decide (next ≤ d.now) then
    let i := (d.now - next) / per + 1
    let d1 := { d with clk := { d.clk with perNext := SMap.set d.clk.perNext n (next + i * per) } }
    forUpto i (fun _ d => d.countTb n true m) d1
  else d

/-- A correction that has been made has its effects: EV_TIME_STEP, SLEWING for an offset to be absorbed, the TS packet of an accepted jump, and at a forward step what lies in it (R274,
R275). -/
def Dev.settleJump (d : Dev) : Dev :=
  match d.clk.jumped with
  | none => d
  | some (m, a, j) =>
    let d1 := ({ d with clk := { d.clk with jumped := none } }.event 0x402).when j.ts Dev.traceTs
    match j.kind with
    | .forward => forUpto 4 (fun n d => d.latePeriodic m n) (forUpto 16 (fun k d => d.lateGate a k) (forUpto 8 (fun k d => d.latePulse a m k) d1))
    | .backward => d1
    | .slew => d1.wr R.TIME.TIME_STATUS_SLEWING 1

/-- Device time reaches the stamp `t`, with the effects of a correction on the way. -/
def Dev.toTick (d : Dev) (t : Nat) : Dev := (d.toTime t).settleJump

/-! The sources' events. -/

/-- DIV reference edges have passed (R276). -/
def Dev.dividerCount (n t : Nat) (d : Dev) : Dev :=
  let d1 := d.toTick t
  let next := SMap.get d1.clk.divNext n
  if d1.tbCounts n 1 && decide (next ≤ d1.refEdges) then
    { d1 with clk := { d1.clk with divNext := SMap.set d1.clk.divNext n (next + d1.rdAt R.TBASE.DIV n 0) } }.countTb n true (d1.refInstant next)
  else d1

/-- The first time-base clock edge at or after the instant START + k × PERIOD of a PERIODIC time base has come (R277). -/
def Dev.periodicInstant (n t : Nat) (d : Dev) : Dev :=
  let d1 := d.toTick t
  let next := SMap.get d1.clk.perNext n
  let m := d1.tbEdge (d1.monoAt next) 0
  if d1.tbCounts n 6 && decide (m ≤ d1.mono) then
    { d1 with clk := { d1.clk with perNext := SMap.set d1.clk.perNext n (next + d1.rdAt R.TBASE.PERIOD n 0) } }.countTb n true m
  else d1

/-- Device time reaches the stamp `t` of an input event, with the pins as they then are. -/
def Dev.toInput (d : Dev) (t : Nat) : Dev := ((d.toTick t).settlePins).watchTbPins

/-- The edge at which the filter of time base `n` gives out a level that has stood at the pad since the stamp `since`; nothing before it has come (R267). -/
def Dev.tbQualified (d : Dev) (n since : Nat) : Option Nat :=
  let m := d.qualified (d.rdAt R.TBASE.TB_CFG_FILTER n 0) since
  if m ≤ d.mono then some m else none

/-- An edge on an input of the sources that count edges, TRIGGER (0x2), ZERO_CROSS (0x4), LINE_SYNC (0x5): the pad has stood at `level` from `since` to `t`. -/
def Dev.inputEdge (source n level since t : Nat) (d : Dev) : Dev :=
  let d1 := d.toInput t
  match d1.tbQualified n since with
  | some m => if d1.tbCounts n source && edgeSelected (d1.rdAt R.TBASE.TB_CFG_EDGE n 0) level then d1.countTb n true m else d1
  | none => d1

/-- Chassis line `line` has an edge: every TRIGGER time base on it counts (R276); a line configured as an output is no input (R287). -/
def Dev.triggerEdge (line level since t : Nat) (d : Dev) : Dev :=
  if d.rdAt R.TIME.TRIG_CFG_OUT 0 line = 1 then d
  else forUpto 4 (fun n d => if d.rdAt R.TBASE.TB_CFG_TRIG_LINE n 0 = line then d.inputEdge 2 n level since t else d) d

/-- The place of (A, B) in the sequence 00, 10, 11, 01 that counts up (R278). -/
def quadrature (a b : Nat) : Nat := if a = 0 ∧ b = 0 then 0 else if a = 1 ∧ b = 0 then 1 else if a = 1 ∧ b = 1 then 2 else 3

/-- A change of A and B together: ENC_ERRORS, the event, and a loss until the next legal count (R278). -/
def Dev.encoderError (n : Nat) (d : Dev) : Dev := ((d.bumpAt R.TBASE.ENC_ERRORS n 0).event (0x408 + n)).loseTb n 3

/-- The pads of an encoder's A and B have stood at `a` and `b` from `since` to `t`: their qualified levels change (R278). -/
def Dev.encoderCount (n a b since t : Nat) (d : Dev) : Dev :=
  let d1 := d.toInput t
  match d1.tbQualified n since with
  | none => d1
  | some m =>
    let q := quadrature (a % 2) (b % 2)
    let step := (q + 4 - SMap.get d1.clk.lastAB n) % 4
    let d2 := { d1 with clk := { d1.clk with lastAB := SMap.set d1.clk.lastAB n q } }
    if !d1.tbCounts n 3 ∨ step = 0 then d2
    else if step = 2 then d2.encoderError n
    else (d2.endCause n 3).countTb n ((step == 1) != (d2.rdAt R.TBASE.TB_CFG_DIR_INV n 0 == 1)) m

/-- A rising edge of the index, Z of an ENCODER, frame sync of a LINE_SYNC source: the pad has stood at 1 from `since` to `t` (R279). -/
def Dev.index (n since t : Nat) (d : Dev) : Dev :=
  let d1 := d.toInput t
  let mode := d1.rdAt R.TBASE.TB_CFG_INDEX_MODE n 0
  if (d1.tbQualified n since).isSome && (d1.tbCounts n 3 || d1.tbCounts n 5) && (mode == 1 || (mode == 2 && SMap.get d1.clk.indexed n == 0)) then
    let pos := d1.rdAt R.TBASE.INDEX_POS n 0
    let wrong := decide (d1.rdAt R.TBASE.POSITION n 0 ≠ pos)
    let d2 := { d1 with clk := { d1.clk with indexed := SMap.set d1.clk.indexed n 1 } }
    let d3 := (d2.wrAt R.TBASE.POSITION n 0 pos).wrAt R.TBASE.TB_STATUS_INDEX_SEEN n 0 1
    if wrong then (d3.bumpAt R.TBASE.INDEX_ERRORS n 0).event (0x40C + n) else d3
  else d1

/-- No tick for LOST_TIMEOUT µs (R280): a cause of the sources 0x2 to 0x5 (R276). -/
def Dev.lostTimeout (n t : Nat) (d : Dev) : Dev :=
  let d1 := d.toTick t
  let lim := d1.rdAt R.TBASE.LOST_TIMEOUT n 0
  if 2 ≤ d1.tbSource n ∧ d1.tbSource n ≤ 5 ∧ lim ≠ 0 ∧ SMap.get d1.clk.lostSince n + lim * usec ≤ d1.now ∧ !isSet (SMap.get d1.clk.lost n) 1 then
    d1.loseTb n 1
  else d1

/-- A further substitute tick is due (R281). -/
def Dev.substituteTick (n t : Nat) (d : Dev) : Dev :=
  let d1 := d.toTick t
  let next := SMap.get d1.clk.subNext n
  let m := d1.tbEdge (d1.monoAt next) 0
  if next ≠ 0 ∧ m ≤ d1.mono ∧ SMap.get d1.clk.lostNow n = 1 ∧ d1.rd R.TAKE.TAKE_CTRL_TB_SEL = n ∧ d1.rd R.TAKE.TAKE_CTRL_LOST_RESP = 2 then
    d1.substitute n next m
  else d1

/-- REFCLK_100 is lost (R276, R280): DIVIDER, PERIODIC and KERMALINK time bases are lost with cause 0x5. -/
def Dev.refLost (d : Dev) : Dev :=
  forUpto 4 (fun n d => if d.tbSource n = 1 ∨ d.tbSource n = 6 ∨ d.tbSource n = 7 then d.loseTb n 5 else d) d

/-! Source blocks (R288, R290). -/

/-- The first instant START + k × PERIOD at or after the time-base clock edge at which the block takes effect (R277). -/
def Dev.firstInstant (d : Dev) (n : Nat) : Nat :=
  let s := d.instantOf (d.rdAt R.TBASE.START n 0)
  let p := max 1 (d.rdAt R.TBASE.PERIOD n 0)
  let e := d.stampAt d.tbNow
  if e ≤ s then s else s + (e - s + p - 1) / p * p

/-- The source block of time base `n` takes effect (R276, R277): the first edge at or after now is edge 0 of a DIVIDER. -/
def Dev.tbTakesEffect (n : Nat) (d : Dev) : Dev :=
  { d with clk := { d.clk with
      divNext := SMap.set d.clk.divNext n (d.nextRefEdge + d.rdAt R.TBASE.DIV n 0)
      perNext := SMap.set d.clk.perNext n (d.firstInstant n) } }

/-- A change of SOURCE (R280, R290): index and mean period cleared, any loss of the old source ended; the counts are cleared too, unless a load makes the change (`keep`), which leaves
POSITION and REVOLUTIONS as they stand (R288). -/
def Dev.sourceChanged (n : Nat) (keep : Bool) (d : Dev) : Dev :=
  let c := { d.clk with
    history := SMap.set d.clk.history n [], lost := SMap.set d.clk.lost n 0, lostNow := SMap.set d.clk.lostNow n 0
    lostSince := SMap.set d.clk.lostSince n d.now, indexed := SMap.set d.clk.indexed n 0, subNext := SMap.set d.clk.subNext n 0 }
  let d1 := if keep then { d with clk := c } else ({ d with clk := c }.wrAt R.TBASE.POSITION n 0 0).wrAt R.TBASE.REVOLUTIONS n 0 0
  (((d1.wrAt R.TBASE.TB_STATUS_INDEX_SEEN n 0 0).wrAt
    R.TBASE.MEAN_PERIOD n 0 0).wrAt R.TBASE.TB_STATUS_VALID n 0 0).wrAt R.TBASE.TB_STATUS_SUBSTITUTING n 0 0

/-- The 64 bytes of the source block of time base `n`, offsets 0x040 to 0x07F (R288). -/
def Dev.tbBlock (d : Dev) (n : Nat) : Bytes :=
  let cfg := d.tbSource n + d.rdAt R.TBASE.TB_CFG_EDGE n 0 * 2 ^ 4 + d.rdAt R.TBASE.TB_CFG_TICK_SEL n 0 * 2 ^ 6 +
    d.rdAt R.TBASE.TB_CFG_DIR_INV n 0 * 2 ^ 7 + d.rdAt R.TBASE.TB_CFG_TRIG_LINE n 0 * 2 ^ 8 + d.rdAt R.TBASE.TB_CFG_FILTER n 0 * 2 ^ 12 +
    d.rdAt R.TBASE.TB_CFG_INDEX_MODE n 0 * 2 ^ 16
  leBytes cfg 4 ++ leBytes (d.rdAt R.TBASE.DIV n 0) 4 ++ leBytes (d.rdAt R.TBASE.CPR n 0) 4 ++ leBytes (d.rdAt R.TBASE.INDEX_POS n 0) 4 ++
    leBytes (d.rdAt R.TBASE.PERIOD n 0) 8 ++ leBytes (d.rdAt R.TBASE.START n 0) 8 ++ leBytes (d.rdAt R.TBASE.LOST_TIMEOUT n 0) 4 ++
    List.replicate 28 0

/-- A source block that R288 accepts: valid codes, no reserved bit, DIV and PERIOD in range for their sources, LOST_TIMEOUT. -/
def blockValid (bs : Bytes) : Bool :=
  let cfg := leAt bs 0 4
  decide (fieldAt cfg 0 4 ≤ 7) && decide (fieldAt cfg 4 2 ≤ 2) && decide (fieldAt cfg 16 2 ≤ 2) && decide (cfg < 2 ^ 18) &&
    (decide (fieldAt cfg 0 4 ≠ 1) || decide (2 ≤ leAt bs 4 4)) && (decide (fieldAt cfg 0 4 ≠ 6) || decide (5 * 2 ^ 32 ≤ leAt bs 16 8)) &&
    decide (leAt bs 32 4 ≤ 1000000) && zeroAt bs 36 28

/-- The source block of time base `n` is replaced, by a load (`keep`) or by a register write. -/
def Dev.setTbBlock (n : Nat) (bs : Bytes) (keep : Bool) (d : Dev) : Dev :=
  let cfg := leAt bs 0 4
  let old := d.tbSource n
  let d1 := ((((((d.wrAt R.TBASE.TB_CFG_SOURCE n 0 cfg).wrAt R.TBASE.TB_CFG_EDGE n 0 (cfg / 2 ^ 4)).wrAt R.TBASE.TB_CFG_TICK_SEL n 0 (cfg / 2 ^ 6)).wrAt
    R.TBASE.TB_CFG_DIR_INV n 0 (cfg / 2 ^ 7)).wrAt R.TBASE.TB_CFG_TRIG_LINE n 0 (cfg / 2 ^ 8)).wrAt R.TBASE.TB_CFG_FILTER n 0 (cfg / 2 ^ 12)).wrAt
    R.TBASE.TB_CFG_INDEX_MODE n 0 (cfg / 2 ^ 16)
  let d2 := (((((d1.wrAt R.TBASE.DIV n 0 (leAt bs 4 4)).wrAt R.TBASE.CPR n 0 (leAt bs 8 4)).wrAt R.TBASE.INDEX_POS n 0 (leAt bs 12 4)).wrAt
    R.TBASE.PERIOD n 0 (leAt bs 16 8)).wrAt R.TBASE.START n 0 (leAt bs 24 8)).wrAt R.TBASE.LOST_TIMEOUT n 0 (leAt bs 32 4)
  let d3 := if d2.tbSource n = old then d2 else d2.sourceChanged n keep
  (d3.tbTakesEffect n).watchTbPins

/-- A word of the source block of time base `n` at page offset `off` is written (R290): PERIOD and START are checked, and take effect, at the write of
their high word. -/
def Dev.tbCfgWrite (n off w : Nat) (d : Dev) : Dev :=
  let refused := d.wrAt R.TBASE.TB_STATUS_WRITE_REFUSED n 0 1
  let key := (0xE000 + 0x1000 * n + off) * 8
  if d.running ∧ d.rd R.TAKE.TAKE_CTRL_TB_SEL = n then refused
  else if off = 0x50 ∨ off = 0x58 then d.stageLow key w
  else
    let low := if off = 0x54 ∨ off = 0x5C then d.stagedLow (key - 32) (leAt (d.tbBlock n) (off - 0x44) 4) else 0
    let pair := off == 0x54 || off == 0x5C
    let i := if pair then off - 0x44 else off - 0x40
    let new := if pair then leBytes low 4 ++ leBytes w 4 else leBytes w 4
    let bs := (d.tbBlock n).take i ++ new ++ (d.tbBlock n).drop (i + new.length)
    if blockValid bs then (if pair then d.unstage (key - 32) else d).setTbBlock n bs false else refused

/-- A comparator list that R288 accepts for a time base with the given CPR and source. -/
def listValid (cpr source : Nat) (es : List Nat) : Bool :=
  decide (source ≠ 7) && es.all (fun e =>
    let act := fieldAt e 32 4
    let arg := fieldAt e 40 8
    decide (1 ≤ act ∧ act ≤ 5) && decide (fieldAt e 38 2 = 0) && decide (fieldAt e 48 16 = 0) && (cpr == 0 || decide (fieldAt e 0 32 < cpr)) &&
      ((act == 1 && arg == 0) || ((act == 2 || act == 3) && decide (arg < 8)) || (act == 4 && decide (arg < 16)) || act == 5)) &&
    (es.zip (es.drop 1)).all fun p => decide (fieldAt p.1 0 32 ≤ fieldAt p.2 0 32)

/-! Pulse outputs (R285). -/

/-- PULSE_CTRL_k is written.  A PERIODIC write that R285 drops changes nothing but WRITE_REFUSED. -/
def Dev.pulseCtrlWrite (k w t : Nat) (d : Dev) : Dev :=
  let d0 := d.toTick t
  let mode := w % 4
  let start := d0.rdAt R.TIME.START 0 k
  let per := d0.rdAt R.TIME.PERIOD 0 k
  let wid := d0.rdAt R.TIME.WIDTH 0 k * 2 ^ 32
  if mode = 2 ∧ (per ≤ wid ∨ per < 5 * 2 ^ 32) then d0.wr R.TIME.TIME_STATUS_WRITE_REFUSED 1
  else
    let d1 := ((d0.when (isSet w 9) fun x => x.wrAt R.TIME.PULSE_CTRL_LATE 0 k 0).wrAt R.TIME.PULSE_CTRL_MODE 0 k mode).wrAt R.TIME.PULSE_CTRL_IDLE 0 k (w / 4)
    let arms := mode == 1 || mode == 2
    let at' := d1.instantOf start
    let d2 := d1.wrAt R.TIME.PULSE_CTRL_ARMED 0 k (bit arms)
    let c := { d2.clk with
      pulseEnd := SMap.set d2.clk.pulseEnd k 0, pulseArm := SMap.set d2.clk.pulseArm k (d2.mono + 1)
      pulseNext := SMap.set d2.clk.pulseNext k (if arms then at' else 0)
      pulsePer := SMap.set d2.clk.pulsePer k (if mode = 2 then per else 0), pulseWid := SMap.set d2.clk.pulseWid k (if arms then wid else 0) }
    let d3 := { d2 with clk := c }.setPulse k 0 d2.tbNow
    if arms ∧ at' ≤ d3.now then d3.wrAt R.TIME.PULSE_CTRL_LATE 0 k 1 else d3

/-- The time-base clock edge at which the next boundary of pulse output `k` takes effect: the first at or after it, and after the arming (R285). -/
def Dev.pulseEdge (d : Dev) (k : Nat) : Nat := max (d.tbEdge (d.monoAt (SMap.get d.clk.pulseNext k)) 0) (d.tbEdge (SMap.get d.clk.pulseArm k) 0)

/-- That edge has come. -/
def Dev.pulseDue (d : Dev) (k : Nat) : Bool :=
  d.rdAt R.TIME.PULSE_CTRL_ARMED 0 k == 1 && decide (d.pulseEdge k ≤ d.mono)

/-- Pulse output `k` reaches a boundary; an end that falls on the same edge as its start takes effect with it. -/
def Dev.pulseBoundary (k t : Nat) (d : Dev) : Dev :=
  let d1 := d.toTick t
  if d1.pulseDue k then
    let m := d1.pulseEdge k
    let d2 := d1.pulseStep k m
    if SMap.get d2.clk.pulseEnd k = 1 ∧ d2.pulseEdge k = m then d2.pulseStep k m else d2
  else d1

/-- The pulse of line `k` reaches its WIDTH (R287). -/
def Dev.trigPulseEnd (k t : Nat) (d : Dev) : Dev :=
  let d1 := d.toTick t
  let m := SMap.get d1.clk.trigEnd k
  if SMap.get d1.clk.trig k = 1 ∧ m ≤ d1.mono then
    { d1 with clk := { d1.clk with trig := SMap.set d1.clk.trig k 0, trigEnd := SMap.set d1.clk.trigEnd k 0 } }.setOut (8 + k) 0 m
  else d1

/-! Captures (R286). -/

/-- Stamp `a` is at or after stamp `b` (R269). -/
def stampGe (a b : Nat) : Bool := decide ((2 ^ 64 + a % 2 ^ 64 - b % 2 ^ 64) % 2 ^ 64 < 2 ^ 63)

/-- The FIFO of capture `k`, with LEVEL and the oldest stamp. -/
def Dev.setCaps (k : Nat) (l : List Nat) (d : Dev) : Dev :=
  ({ d with clk := { d.clk with caps := SMap.set d.clk.caps k l } }.wrAt R.TIME.CAP_STATUS_LEVEL 0 k l.length).wrAt R.TIME.STAMP 0 k (l.headD 0)

/-- The pad of capture input `k` has stood at `level` from `since` to `t`: a qualified edge, stamped with the time-base clock edge at which the filter gives it out (R267). -/
def Dev.captureEdge (k level since t : Nat) (d : Dev) : Dev :=
  let d1 := (d.toTick t).settlePins
  let m := d1.qualified (d1.rdAt R.TIME.CAP_CTRL_FILTER 0 k) since
  let u := d1.stampAt m % 2 ^ 64
  let gate := d1.rdAt R.TIME.CAP_CTRL_GATE_EN 0 k = 0 ∨
    (stampGe u (d1.rdAt R.TIME.GATE_START 0 k) ∧ !stampGe u (d1.rdAt R.TIME.GATE_END 0 k))
  if m ≤ d1.mono ∧ d1.rdAt R.TIME.CAP_CTRL_ENABLE 0 k = 1 ∧ edgeSelected (d1.rdAt R.TIME.CAP_CTRL_EDGE 0 k) (level % 2) ∧ gate ∧
      d1.pinServes (264 + k) 3 (0x10 + k) then
    let l := SMap.get d1.clk.caps k
    if 16 ≤ l.length then (d1.wrAt R.TIME.CAP_STATUS_OVERFLOW 0 k 1).event (0x430 + k)
    else (d1.setCaps k (l ++ [putBit u 0 level])).event (0x420 + k)
  else d1

/-- The low word of STAMP_k is read: the oldest stamp goes, its high word is latched. -/
def Dev.stampLoRead (k : Nat) (d : Dev) : Dev :=
  let s := d.rdAt R.TIME.STAMP 0 k
  let d1 := { d with latch := SMap.set d.latch (R.TIME.STAMP.key 0 k / 8) (s / 2 ^ 32 + 1) }
  (d1.emit (.readData (leBytes s 4))).setCaps k ((SMap.get d.clk.caps k).drop 1)

end Sys2Proof.Machine
end

