-- ==== Sys2Proof/Machine/DevTime.lean ====
section
/-! DEFINITION. Device time (spec/10 R265 to R275): wraps, corrections and the jump limit, PTM, the election of the time master and the
exchange with it. -/

namespace Sys2Proof.Machine

/-! Wraps (R268). -/

/-- The nanosecond count wraps: EV_TIME_WRAP, WRAPS, the WRAP packet. -/
def Dev.timeWrap (t : Nat) (d : Dev) : Dev :=
  let d1 := d.toTime t
  if d1.clk.epoch < d1.now / 2 ^ 64 then
    let d2 := { d1 with clk := { d1.clk with epoch := d1.clk.epoch + 1 } }
    ((d2.wr R.TIME.WRAPS (d2.rd R.TIME.WRAPS + 1)).event 0x400).traceWrap
  else d

/-! Corrections (R274, R275). -/

/-- 16 ns. -/
def fineLimit : Nat := 16 * 2 ^ 32

/-- LOCKED after 16 measured offsets in a row within ±0.25 ns; not at an offset outside ±1 ns (R272). -/
def Dev.lockTime (x : Int) (d : Dev) : Dev :=
  let n := if x.natAbs ≤ 2 ^ 30 then d.clk.lockCount + 1 else 0
  let d1 := { d with clk := { d.clk with lockCount := n } }
  if 16 ≤ n then d1.wr R.TIME.TIME_STATUS_LOCKED 1 else if 2 ^ 32 < x.natAbs then d1.wr R.TIME.TIME_STATUS_LOCKED 0 else d1

/-- The frequency correction of a small offset: ADDEND within ±500 ppm of the rate `base`.  By how much is not stated: a free value. -/
def Dev.trimAddend (base : Nat) (d : Dev) : Dev :=
  let x := d.free 40
  let half := base / 2000
  x.2.setAddend (base - half + x.1 % (2 * half + 1))

/-- A correction of `x` units waits for the next edge of REFCLK_100 (R274). -/
def Dev.setJump (kind : JumpKind) (x : Nat) (ts : Bool) (d : Dev) : Dev :=
  { d with clk := { d.clk with jump := some { wait := d.spanOf (d.rd R.TIME.ADDEND - d.sinceRef), size := x, kind := kind, ts := ts } } }

/-- A measured offset `x`, positive where device time is behind, is applied or refused. -/
def Dev.applyOffset (x : Int) (base : Nat) (d : Dev) : Dev :=
  let d1 := (d.wr R.TIME.OFFSET (unsignedOf 64 x)).lockTime x
  if d1.on R.TIME.TIME_STATUS_FROZEN || d1.on R.TIME.TIME_STATUS_HOLDOVER then d1
  else if x.natAbs < fineLimit then d1.trimAddend base
  else if d1.rd R.TIME.JUMP_LIMIT * 2 ^ 32 < x.natAbs then
    ((d1.wr R.TIME.PENDING (unsignedOf 64 x)).wr R.TIME.TIME_STATUS_FROZEN 1).unitFault 0x70 0 0xD (unsignedOf 64 x)
  else d1.setJump (if 0 ≤ x then .forward else .slew) x.natAbs false

/-- A negative offset has been absorbed (R274). -/
def Dev.offsetAbsorbed (t : Nat) (d : Dev) : Dev :=
  let d1 := d.toTick t
  if d1.on R.TIME.TIME_STATUS_SLEWING && decide (d1.clk.slewLeft = 0) then d1.wr R.TIME.TIME_STATUS_SLEWING 0 else d1

/-- JUMP_ACCEPT: device time steps by the latest measured offset at the next reference edge; dropped while the array runs (R275). -/
def Dev.jumpAccept (d : Dev) : Dev :=
  if d.running then d.wr R.TIME.TIME_STATUS_WRITE_REFUSED 1
  else if d.on R.TIME.TIME_STATUS_FROZEN then
    let x := signedOf 64 (d.rd R.TIME.OFFSET)
    (d.wr R.TIME.TIME_STATUS_FROZEN 0).setJump (if 0 ≤ x then .forward else .backward) x.natAbs true
  else d

/-- JUMP_REJECT: the offset is discarded, and the device stays in holdover (R275). -/
def Dev.jumpReject (d : Dev) : Dev :=
  if d.on R.TIME.TIME_STATUS_FROZEN then
    ((d.wr R.TIME.TIME_STATUS_FROZEN 0).wr R.TIME.PENDING 0).wr R.TIME.TIME_STATUS_HOLDOVER 1
  else d

/-- RESUME: discipline restarts (R275). -/
def Dev.resumeTime (d : Dev) : Dev := d.wr R.TIME.TIME_STATUS_HOLDOVER 0

/-- A stamp of the master's time as this device's own, by the latest measured offset while FROZEN (R275). -/
def Dev.fromMaster (d : Dev) (t : Nat) : Nat :=
  if d.on R.TIME.TIME_STATUS_FROZEN then unsignedOf 64 ((Int.ofNat (t % 2 ^ 64)) - signedOf 64 (d.rd R.TIME.OFFSET)) else t % 2 ^ 64

/-! The election (R271). -/

/-- What the device itself advertises: 1 + ELIGIBLE + 2 × PRIORITY. -/
def Dev.ownBid (d : Dev) : Nat := 1 + d.rd R.TIME.TIME_CTRL_ELIGIBLE + 2 * d.rd R.TIME.TIME_CTRL_PRIORITY

/-- Bid `a` of position `p` wins over bid `b` of position `q`: an eligible one first, then the higher PRIORITY, then the lower position. -/
def bidWins (p a q b : Nat) : Bool :=
  let ea := (a - 1) % 2
  let eb := (b - 1) % 2
  if ea ≠ eb then ea == 1
  else if ea = 1 ∧ a ≠ b then decide (b < a)
  else decide (p < q)

/-- The position of the master among the bids known, of devices to which there is a path (R271). -/
def Dev.electedPos (d : Dev) : Nat :=
  ((d.clk.masterSeen.filter fun e => (d.firstPort e.1).isSome).foldl (fun (m : Nat × Nat) e => if bidWins e.1 e.2 m.1 m.2 then e else m) (d.position, d.ownBid)).1

/-- The election: MASTER, MASTER_POS, UPSTREAM_PORT; a change raises EV_TIME_MASTER. -/
def Dev.elect (d : Dev) : Dev :=
  let m := d.electedPos
  let own := m == d.position
  let d1 := ((d.wr R.TIME.TIME_STATUS_MASTER_POS m).wr R.TIME.TIME_STATUS_MASTER (bit own)).wr R.TIME.TIME_STATUS_UPSTREAM_PORT
    (if own then 0 else (d.firstPort m).getD 0)
  if m = d.rd R.TIME.TIME_STATUS_MASTER_POS ∧ bit own = d.rd R.TIME.TIME_STATUS_MASTER then d1
  else { d1 with clk := { d1.clk with lastSync := d1.now, lastHeard := d1.now, masterAddend := 0 } }.event 0x401

/-- The body of the device's own ANNOUNCE (spec/11 R301). -/
def Dev.announceBody (d : Dev) : Bytes :=
  leBytes (d.rd R.TIME.TIME_CTRL_ELIGIBLE) 1 ++ leBytes (d.rd R.TIME.TIME_CTRL_PRIORITY) 1 ++ leBytes d.position 1 ++ leBytes 0 1

/-- The device advertises itself on every port that carries messages, and the election is made again. -/
def Dev.announce (d : Dev) : Dev := (d.sendAll 0x10 d.announceBody).elect

/-- The master is forgotten: its bid no longer counts. -/
def Dev.forgetMaster (d : Dev) : Dev :=
  { d with clk := { d.clk with masterSeen := SMap.del d.clk.masterSeen (d.rd R.TIME.TIME_STATUS_MASTER_POS) } }.announce

/-- Four sync intervals. -/
def Dev.fourSyncs (d : Dev) : Nat := 4 * 2 ^ d.rd R.TIME.TIME_CTRL_SYNC_LOG2 * usec

/-- Four sync intervals have passed on a follower.  Without a SYNC the election is repeated (R271); without a SYNC or a TICK, KERMALINK time bases are lost with cause 0x4 (R280). -/
def Dev.syncLoss (t : Nat) (d : Dev) : Dev :=
  let d1 := d.toTick t
  if d1.on R.TIME.TIME_STATUS_MASTER then d1
  else
    let d2 := if d1.clk.lastHeard + d1.fourSyncs ≤ d1.now then
        forUpto 4 (fun n d => if d.tbSource n = 7 then d.loseTb n 4 else d) { d1 with clk := { d1.clk with lastHeard := d1.now } } else d1
    if d2.clk.lastSync + d2.fourSyncs ≤ d2.now then { d2 with clk := { d2.clk with lastSync := d2.now } }.forgetMaster else d2

/-! The exchange (R272, spec/11 R301, R302). -/

/-- The ADDEND of the time master: the device's own where it is the master, that of the last SYNC on a follower (R270). -/
def Dev.masterRate (d : Dev) : Nat :=
  if d.on R.TIME.TIME_STATUS_MASTER || decide (d.clk.masterAddend = 0) then d.rd R.TIME.ADDEND else d.clk.masterAddend

/-- Every 2^SYNC_LOG2 µs the master sends SYNC on each port that carries messages; a follower serves time on its ports but the upstream one, with the master's ADDEND. -/
def Dev.syncInterval (t : Nat) (d : Dev) : Dev :=
  let d1 := d.toTick t
  let body := leBytes d1.masterRate 5
  if d1.on R.TIME.TIME_STATUS_MASTER then d1.sendAll 0x11 body else d1.sendAllBut (d1.rd R.TIME.TIME_STATUS_UPSTREAM_PORT) 0x11 body

/-- The stamp of a comma symbol: its resolution is 62.5 ps (R272). -/
def Dev.commaStamp (d : Dev) : Nat := d.stamp / 2 ^ 28 * 2 ^ 28

/-- The four stamps of a measurement on port `p` give the offset ((t2 − t1) − (t4 − t3)) / 2 by which this device is ahead, and the latency. -/
def Dev.measured (p : Nat) (d : Dev) : Dev :=
  let g (m : SMap Nat) : Nat := SMap.get m p - 1
  let a := signedOf 64 (2 ^ 64 + g d.clk.t2 - g d.clk.t1)
  let b := signedOf 64 (2 ^ 64 + g d.clk.t4 - g d.clk.t3)
  let d1 := d.wrAt R.KL.LATENCY_NS p 0 (((a + b) / 2).toNat / 2 ^ 32)
  d1.applyOffset (-((a - b) / 2)) d1.masterRate

/-- The measurement in progress on port `p` is discarded. -/
def Dev.voidMeasure (p : Nat) (d : Dev) : Dev :=
  { d with clk := { d.clk with
      t1 := SMap.set d.clk.t1 p 0, t2 := SMap.set d.clk.t2 p 0, t3 := SMap.set d.clk.t3 p 0, t4 := SMap.set d.clk.t4 p 0 } }

/-! PTM and registers (R273, R289). -/

/-- The device keeps PTM time: it is alone, or the master. -/
def Dev.leadsTime (d : Dev) : Bool := !d.linked || d.on R.TIME.TIME_STATUS_MASTER

/-- The PTM requester runs and receives master time `m` in nanoseconds. -/
def Dev.ptmExchange (m t : Nat) (d : Dev) : Dev :=
  let d1 := d.toTick t
  if d1.rd R.TIME.TIME_CTRL_SOURCE = 0 ∧ d1.leadsTime then d1
  else
    let d2 := (d1.emit .ptmRequest).wr R.TIME.PTM_LAST m
    if d2.leadsTime then
      let x := signedOf 64 ((m + d2.rd R.TIME.PTM_OFFSET) % 2 ^ 32 * 2 ^ 32 + 2 ^ 64 - d2.stamp)
      d2.applyOffset x (10 * 2 ^ 32)
    else d2

/-- TIME_CTRL is written: SOURCE, ELIGIBLE, PRIORITY, SYNC_LOG2 of 4 to 14; a change of what the device advertises is announced (R271, R289). -/
def Dev.timeCtrlFields (w : Nat) (d : Dev) : Dev :=
  let old := d.ownBid
  let n := fieldAt w 6 4
  let d1 := ((d.wr R.TIME.TIME_CTRL_SOURCE w).wr R.TIME.TIME_CTRL_ELIGIBLE (w / 2)).wr R.TIME.TIME_CTRL_PRIORITY (w / 4)
  let d2 := if 4 ≤ n ∧ n ≤ 14 then d1.wr R.TIME.TIME_CTRL_SYNC_LOG2 n else d1
  if d2.ownBid = old then d2 else d2.announce

/-- A write of TIME_CTRL (R275, R289). -/
def Dev.timeCtrlWrite (w : Nat) (d : Dev) : Dev :=
  (((d.timeCtrlFields w).when (isSet w 10) Dev.jumpAccept).when (isSet w 11) Dev.jumpReject).when (isSet w 12) Dev.resumeTime

/-- ADDEND_HI is written: the pair is taken on a single device or master with SOURCE FREE, within 9.990 to 10.010 ns (R273). -/
def Dev.addendWrite (hi : Nat) (d : Dev) : Dev :=
  let key := R.TIME.ADDEND.key 0 0
  let v := d.stagedLow key (d.rd R.TIME.ADDEND) + hi % 2 ^ 8 * 2 ^ 32
  if d.rd R.TIME.TIME_CTRL_SOURCE = 0 ∧ d.leadsTime ∧ 9990 * 2 ^ 32 ≤ v * 1000 ∧ v * 1000 ≤ 10010 * 2 ^ 32 then (d.unstage key).setAddend v
  else (d.unstage key).wr R.TIME.TIME_STATUS_WRITE_REFUSED 1

/-- REFCLK_100 is as it must be again (R276): holdover of the clocks ends, cause 0x5 ends, DIVIDER and PERIODIC time bases start again. -/
def Dev.referenceReturn (t : Nat) (d : Dev) : Dev :=
  let d1 := d.toTick t
  let held := d1.on R.CLK.CLK_STATUS_HOLDOVER
  forUpto 4 (fun n d =>
    let cause := isSet (SMap.get d.clk.lost n) 5
    let d2 := if cause then d.endCause n 5 else d
    if (held || cause) && (d.tbSource n == 1 || d.tbSource n == 6) then d2.tbTakesEffect n else d2) (d1.wr R.CLK.CLK_STATUS_HOLDOVER 0)

/-- POSITION is written: a change is announced (R271). -/
def Dev.positionWrite (w : Nat) (d : Dev) : Dev :=
  let d1 := d.wr R.LOAD.POSITION w
  if d1.position = d.position then d1 else d1.announce

end Sys2Proof.Machine
end

