-- ==== Sys2Proof/Machine/Coding.lean ====
section
/-! DEFINITION. The 8b/10b code of a KermaLink lane (spec/11 R294): data symbols, the comma K28.5 and the idle K28.0, with running disparity.  PRESUMED: the manual names the code and
gives no table; this is the code of that name, a symbol written abcdeifghj, its first bit the most significant. -/

namespace Sys2Proof.Machine

/-- The groups abcdei of D0 to D31 at running disparity −1. -/
def sixGroups : List Nat :=
  [0b100111, 0b011101, 0b101101, 0b110001, 0b110101, 0b101001, 0b011001, 0b111000, 0b111001, 0b100101, 0b010101, 0b110100, 0b001101, 0b101100, 0b011100, 0b010111] ++
  [0b011011, 0b100011, 0b010011, 0b110010, 0b001011, 0b101010, 0b011010, 0b111010, 0b110011, 0b100110, 0b010110, 0b110110, 0b001110, 0b101110, 0b011110, 0b101011]

/-- The groups fghj of Dx.0 to Dx.7 at running disparity −1. -/
def fourGroups : List Nat := [0b1011, 0b1001, 0b0101, 0b1100, 0b1101, 0b1010, 0b0110, 0b1110]

/-- The running disparity after a group of `n` bits: the sign of what outweighs, or as it was. -/
def disparityAfter (g n : Nat) (plus : Bool) : Bool :=
  if 2 * popCount g n = n then plus else decide (n < 2 * popCount g n)

/-- The group of six bits for the low five bits `x` of a data byte, or of K28. -/
def sixOf (k : Bool) (x : Nat) (plus : Bool) : Nat :=
  let g := if k then 0b001111 else sixGroups.getD x 0
  if plus && (k || x == 7 || decide (popCount g 6 ≠ 3)) then 63 - g else g

/-- The group of four bits for the high three bits `y` of a byte whose low five bits are `x`: D.x.A7 stands for D.x.7 where a run of five bits would come. -/
def fourOf (k : Bool) (x y : Nat) (plus : Bool) : Nat :=
  let alternate := y == 7 && ((!plus && [17, 18, 20].contains x) || (plus && [11, 13, 14].contains x))
  let g := if k then (if y = 5 then 0b0101 else 0b1011) else if alternate then 0b0111 else fourGroups.getD y 0
  if plus && (k || y == 3 || decide (popCount g 4 ≠ 2)) then 15 - g else g

/-- The symbol of a data byte, or of K28.0 and K28.5 (0x1C and 0xBC), and the running disparity after it. -/
def symbolOf (k : Bool) (b : Nat) (plus : Bool) : Nat × Bool :=
  let s := sixOf k (b % 32) plus
  let r := disparityAfter s 6 plus
  let f := fourOf k (b % 32) (b / 32 % 8) r
  (s * 16 + f, disparityAfter f 4 r)

/-- The comma. -/
def commaByte : Nat := 0xBC
/-- The idle symbol. -/
def idleByte : Nat := 0x1C

/-- The 32 symbols of a lane of a frame (R294) whose symbols 1 to 30 carry the bytes `bs`, and the running disparity after them. -/
def laneSymbols (bs : Bytes) (plus : Bool) : List Nat × Bool :=
  (((true, commaByte) :: bs.map fun b => (false, b.toNat)) ++ [(true, idleByte)]).foldl (fun a x =>
    let y := symbolOf x.1 x.2 a.2
    (a.1 ++ [y.1], y.2)) ([], plus)

/-- The byte of a symbol, and whether it is a K code; none for a code or disparity error. -/
def symbolByte (s : Nat) (plus : Bool) : Option (Bool × Nat) :=
  if s = (symbolOf true commaByte plus).1 then some (true, commaByte)
  else if s = (symbolOf true idleByte plus).1 then some (true, idleByte)
  else
    match (List.range 32).find? fun x => sixOf false x plus == s / 16 with
    | none => none
    | some x => ((List.range 8).find? fun y => fourOf false x y (disparityAfter (s / 16) 6 plus) == s % 16).map fun y => (false, x + 32 * y)

/-- The running disparity that a received symbol leaves. -/
def disparityPast (s : Nat) (plus : Bool) : Bool := disparityAfter (s % 16) 4 (disparityAfter (s / 16 % 64) 6 plus)

/-- What a lane has brought: the bytes of its symbols in order, K codes and errors as none; whether symbol 0 is the comma; the symbols with a code or disparity error; the running disparity
after it. -/
structure LaneIn where
  bytes : List (Option Byte)
  comma : Bool
  errors : Nat
  plus : Bool
  deriving DecidableEq, Repr, Inhabited

/-- A lane is received.  `rd` is the running disparity before it: 1 for −1, 2 for +1, 0 for a receiver that has just locked and takes it from the comma. -/
def laneIn (syms : List Nat) (rd : Nat) : LaneIn :=
  let plus0 := if rd = 0 then syms.headD 0 == (symbolOf true commaByte true).1 else rd == 2
  let z : LaneIn := { bytes := [], comma := decide (symbolByte (syms.headD 0) plus0 = some (true, commaByte)), errors := 0, plus := plus0 }
  syms.foldl (fun a s =>
    let b := symbolByte s a.plus
    { a with
      bytes := a.bytes ++ [match b with | some (false, v) => some (BitVec.ofNat 8 v) | _ => none]
      errors := a.errors + bit b.isNone, plus := disparityPast s a.plus }) z

/-- The bytes of symbols 1 to 30, where all of them carry data. -/
def LaneIn.data (l : LaneIn) : Option Bytes :=
  let m := (l.bytes.drop 1).take 30
  if l.bytes.length = 32 ∧ m.all Option.isSome then some (m.map fun b => b.getD 0) else none

end Sys2Proof.Machine
end

