-- ==== Sys2Proof/Machine/Link.lean ====
section
/-! DEFINITION. KermaLink ports (spec/11): bring-up, frames, replay, retraining and LOWRATE.  What messages do stands in `Machine/Messages.lean`. -/

namespace Sys2Proof.Machine

/-! Records and states (R304, R309). -/

/-- A record of a port: LOC_KIND LINK, NO_STEP set; lane 0 where the fault is of the port as a whole. -/
def Dev.linkFault (d : Dev) (code sev p lane detail : Nat) : FRec := d.record code sev 0x4 (p + 8 * lane) detail 1

/-- T of a port by R296: f is STEP_MAX of the slate while a reel is loaded or a load is OPEN, and the current step clock at other times. -/
def Dev.trainedCount (d : Dev) (p : Nat) : Nat :=
  let r := if (d.port p).version = 2 then 16 else 8
  let f := if (d.loadState = 1 ∨ d.loadState = 2) ∧ d.ld.stepMax ≠ 0 then d.ld.stepMax else d.rd R.CLK.STEP_MHZ
  min 80 (625 * d.usedLanes p * r / max 1 f)

/-- What a port shows in a state (R315): the version, lanes and trained count while it trains or runs at a version; DOWN and DETECT show none. -/
def Dev.showPort (p : Nat) (d : Dev) : Dev :=
  let q := d.port p
  let s := d.portState p
  let ver := if s < 2 ∨ q.low then 0 else q.version
  let d1 := d.wrAt R.KL.KL_STATUS_VERSION p 0 ver
  let d2 := if s < 4 then d1.wrAt R.KL.KL_STATUS_USABLE p 0 0 else d1
  d2.wrAt R.KL.KL_STATUS_TRAINED p 0 (if s = 6 then d2.trainedCount p else 0)

/-- The loss of the way to the master (spec/10 R271, R280): KERMALINK time bases are lost with cause 0x4, the election is repeated. -/
def Dev.pathLost (p : Nat) (d : Dev) : Dev :=
  if d.on R.TIME.TIME_STATUS_MASTER || decide (d.rd R.TIME.TIME_STATUS_UPSTREAM_PORT ≠ p) then d
  else (forUpto 4 (fun n d => if d.tbSource n = 7 then d.loseTb n 4 else d) d).announce

/-- A change of STATE: EV_KL_STATE, the LINK packet, LINK_DOWNS at an exit from ACTIVE (R307, R315). -/
def Dev.setPortState (p s : Nat) (d : Dev) : Dev :=
  let old := d.portState p
  let d1 := (d.wrAt R.KL.KL_STATUS_STATE p 0 s).setPort p fun q => { q with since := d.mono }
  let d2 := if old = s then d1 else ((d1.event (0x480 + p)).traceLink p s)
  let ns := (d.mono - (d.port p).since) / 2 ^ 32
  let d2 := if old = s then d2 else if old = 6 then d2.count (0x48 + p) 10 ns else if old = 7 then d2.count (0x48 + p) 11 ns else d2
  let d2 := if old = 6 ∧ 1 ≤ s ∧ s ≤ 3 then d2.count (0x48 + p) 9 1 else d2
  let d3 := if old = 6 ∧ s ≠ 6 then (d2.bumpAt R.KL.LINK_DOWNS p 0).pathLost p else d2
  (d3.showPort p).rewait

/-- DOWN with a reason; reasons 2 and 3 raise EV_KL_DOWN (R307). -/
def Dev.portDown (p reason : Nat) (d : Dev) : Dev :=
  let d1 := ((d.wrAt R.KL.KL_STATUS_DOWN_REASON p 0 reason).wrAt R.KL.LOS_NOW p 0 0).wrAt R.KL.LOL_NOW p 0 0
  let d2 := ((d1.wrAt R.KL.CLK_LOL_NOW p 0 0).setPort p fun q =>
    { q with fails := 0, low := false, lowReq := false, lowAck := false, peerLow := false, fullReq := false }).setPortState p 0
  if reason = 2 ∨ reason = 3 then d2.event (0x488 + p) else d2

/-- DETECT: the forwarded clock is sent at the v1 rate (R304). -/
def Dev.enterDetect (p : Nat) (d : Dev) : Dev :=
  ((d.wrAt R.KL.KL_STATUS_DOWN_REASON p 0 0).setPort p fun q =>
    { q with version := 1, fromLow := false, low := false, lowReq := false, lowAck := false, peerLow := false, fullReq := false }).setPortState p 1

/-- CLOCK_LOCK at a version, or in LOWRATE: every lane may be used again, and TX_EQ takes effect (R293, R304). -/
def Dev.enterClockLock (p version : Nat) (low : Bool) (d : Dev) : Dev :=
  let eq := d.rdAt R.KL.TX_EQ_PRE p 0 + 16 * d.rdAt R.KL.TX_EQ_POST p 0 + 512 * d.rdAt R.KL.TX_EQ_SWING p 0
  (d.setPort p fun q =>
    { q with version := version, low := low, excl := 0, locked := 0, noComma := [], rxPlus := [], eq := eq, lowReq := false, lowAck := false, fullReq := false }).setPortState p 2

/-- BIT_LOCK (R304, R309). -/
def Dev.enterBitLock (p : Nat) (d : Dev) : Dev :=
  (d.setPort p fun q => { q with locked := 0, noComma := [], rxPlus := [] }).setPortState p 3

/-- The lanes that a port may use: lane 0 in LOWRATE, all eight else, without those excluded. -/
def Port.wanted (q : Port) : Nat := (if q.low then 1 else 255) - ((if q.low then 1 else 255) &&& q.excl)

/-- The fewest lanes a port goes on with. -/
def Dev.minLanes (d : Dev) (p : Nat) : Nat := if (d.port p).low then 1 else d.rdAt R.KL.KL_CTRL_MIN_LANES p 0

/-- SYMBOL_LOCK with the lanes that locked; the others are excluded (R304). -/
def Dev.enterSymbolLock (p lanes : Nat) (d : Dev) : Dev :=
  let lol := d.rdAt R.KL.LOL_NOW p 0
  let los := d.rdAt R.KL.LOS_NOW p 0
  ((((d.setPort p fun q => { q with excl := 255 - lanes }).setPortState p 4).wrAt R.KL.KL_STATUS_USABLE p 0 lanes).wrAt
    R.KL.LOL_NOW p 0 (lol - (lol &&& lanes))).wrAt R.KL.LOS_NOW p 0 (los - (los &&& lanes))

/-! Attempts that fail (R306, R307). -/

/-- A state has failed: a v2 attempt goes back to v1, others count and return to DETECT, or end in DOWN with `reason`. -/
def Dev.attemptFailed (p reason : Nat) (d : Dev) : Dev :=
  let q := d.port p
  if q.version = 2 ∧ !q.low then (d.wrAt R.KL.KL_STATUS_V2_FAILED p 0 1).enterClockLock p 1 false
  else if d.rdAt R.KL.KL_CTRL_TRAIN_RETRIES p 0 ≤ q.fails + 1 then d.portDown p reason
  else (d.setPort p fun q => { q with fails := q.fails + 1 }).enterDetect p

/-- The timeout of a state, 0 for a state without one (R304). -/
def linkTimeout (s : Nat) : Nat :=
  if s = 2 then 500 * usec else if s = 3 then 1000 * usec else if s = 4 then 200 * usec else if s = 5 then 1000 * usec else 0

/-- A state times out (R304, R307): BIT_LOCK goes on with the lanes that locked, if they are enough. -/
def Dev.linkStateTimeout (p t : Nat) (d : Dev) : Dev :=
  let d1 := d.toTime t
  let s := d1.portState p
  let q := d1.port p
  if p < 8 ∧ linkTimeout s ≠ 0 ∧ q.since + linkTimeout s ≤ d1.mono then
    if s = 3 then
      if d1.minLanes p ≤ popCount q.locked 8 then d1.enterSymbolLock p q.locked else d1.attemptFailed p 3
    else d1.attemptFailed p 2
  else d

/-! KL_CTRL and TX_EQ (R304, R308, R315). -/

/-- A write of KL_CTRL: dropped while the array runs; MIN_LANES of 2 to 8, TRAIN_RETRIES of 1 to 15; ENABLE and RETRAIN start training, the clearing of
ENABLE takes the port DOWN. -/
def Dev.klCtrlWrite (p w : Nat) (d : Dev) : Dev :=
  if d.running then d.wrAt R.KL.KL_STATUS_WRITE_REFUSED p 0 1
  else
    let was := d.rdAt R.KL.KL_CTRL_ENABLE p 0
    let m := fieldAt w 4 4
    let r := fieldAt w 8 4
    let d1 := (d.wrAt R.KL.KL_CTRL_ENABLE p 0 w).wrAt R.KL.KL_CTRL_V2_ALLOW p 0 (w / 2)
    let d2 := if 2 ≤ m ∧ m ≤ 8 then d1.wrAt R.KL.KL_CTRL_MIN_LANES p 0 m else d1
    let d3 := if 1 ≤ r then d2.wrAt R.KL.KL_CTRL_TRAIN_RETRIES p 0 r else d2
    if w % 2 = 0 then
      if was = 1 then (d3.wrAt R.KL.KL_STATUS_V2_FAILED p 0 0).portDown p 1 else d3
    else if was = 0 ∨ isSet w 2 then
      ((d3.wrAt R.KL.KL_STATUS_V2_FAILED p 0 0).setPort p fun q => { q with fails := 0 }).enterDetect p
    else d3

/-- A write of TX_EQ: dropped while the array runs, otherwise taken for the next CLOCK_LOCK (R293, R315). -/
def Dev.txEqWrite (p w : Nat) (d : Dev) : Dev :=
  if d.running then d.wrAt R.KL.KL_STATUS_WRITE_REFUSED p 0 1
  else ((d.wrAt R.KL.TX_EQ_PRE p 0 w).wrAt R.KL.TX_EQ_POST p 0 (w / 16)).wrAt R.KL.TX_EQ_SWING p 0 (w / 512)

/-- DETECT has seen the peer's clock for 10 µs. -/
def Dev.peerClockActivity (p t : Nat) (d : Dev) : Dev :=
  let d1 := d.toTime t
  if p < 8 ∧ d1.portState p = 1 then d1.enterClockLock p 1 false else d

/-- The receive PLL has locked: BIT_LOCK, or SYMBOL_LOCK on lane 0 on the way to LOWRATE (R304, R314). -/
def Dev.receivePllLock (p t : Nat) (d : Dev) : Dev :=
  let d1 := d.toTime t
  if p < 8 ∧ d1.portState p = 2 then
    let d2 := d1.wrAt R.KL.CLK_LOL_NOW p 0 0
    if (d2.port p).low then d2.enterSymbolLock p 1 else d2.enterBitLock p
  else d

/-- Training has locked `lanes`: with every wanted lane the port goes on, unless they are too few; otherwise it waits for the timeout (R304). -/
def Dev.bitLockDone (p lanes t : Nat) (d : Dev) : Dev :=
  let d1 := d.toTime t
  if p < 8 ∧ d1.portState p = 3 then
    let d2 := d1.setPort p fun q => { q with locked := lanes &&& q.wanted }
    let q := d2.port p
    if q.locked = q.wanted ∧ d2.minLanes p ≤ popCount q.locked 8 then d2.enterSymbolLock p q.locked else d2
  else d

/-! Buffers at a rate or a lane set that is new (R312, R314). -/

/-- Messages that have not been acknowledged, or not sent whole, are queued again. -/
def Port.requeue (q : Port) : Port :=
  { q with
    queue := q.replay.flatMap (·.msgs) ++ (match q.txCur with | some m => [m] | none => []) ++ q.queue
    replay := q.replay.map fun f => { f with msg := [], msgs := [], data := none }
    txMsg := [], txCur := none, rxMsg := [], sync := none }

/-- The port starts with empty replay buffers and builds again what no WAIT_LINK belay has committed (R312). -/
def Port.restart (q : Port) (frames mono : Nat) : Port :=
  { q.requeue with
    replay := [], resend := 0, nakSeq := none, nakCount := 0, ackSince := mono, txSeq := 0, expect := 0, nak := false, ahead := 0, again := 0
    rxTotal := frames, txTotal := frames }

/-! ACTIVE (R307, R312, R313; spec/04 R119; spec/10 R271). -/

/-- One more than the highest outbound lane or mirror-map lane that the reel names for the port; 0 when it names none (R313). -/
def Dev.reelLanes (d : Dev) (p : Nat) : Nat :=
  let out := d.arr.selTab.foldl (fun m e =>
    let id := e.1 / 512
    if segTy id = 0xA ∧ segLane id / 128 = p then max m (segLane id % 128 + 1) else m) 0
  d.arr.mirrorMap.foldl (fun m e => if isSet e.2 31 ∧ fieldAt e.2 28 3 = p then max m (fieldAt e.2 21 7 + 1) else m) out

/-- Staged slots of a port are cleared (R312). -/
def Dev.clearStaged (p : Nat) (d : Dev) : Dev :=
  { d with arr := { d.arr with staged := SMap.clear d.arr.staged (rxKey p 0 0) (rxKey (p + 1) 0 0) } }

/-- The least lead that a measurement can give, in nanoseconds: READY and RELEASE over the slowest direct port, plus two step-clock cycles (spec/04 R119). -/
def Dev.leastLead (d : Dev) : Nat :=
  let f := max 1 (d.rd R.CLK.STEP_MHZ)
  2 * d.wiredPorts.foldl (fun m p => max m (d.rdAt R.KL.LATENCY_NS p 0)) 0 + (2000 + f - 1) / f

/-- GLOBAL_LEAD_NS is measured once every port that the reel set wires is ACTIVE (spec/04 R119): a free value, no less than what it must cover. -/
def Dev.measureLead (d : Dev) : Dev :=
  if d.linked && d.wiredPorts.all fun p => d.portState p == 6 then
    let x := d.free 32
    x.2.wr R.TAKE.GLOBAL_LEAD_NS (max x.1 d.leastLead)
  else d

/-- The port reaches ACTIVE.  From LOWRATE the replay buffers are kept (R314), otherwise they are discarded and the current pitches built again.  A port
that trains fewer lanes than the reel uses goes DOWN. -/
def Dev.enterActive (p : Nat) (d : Dev) : Dev :=
  let d1 := d.setPortState p 6
  let n := d1.framesBefore p d1.tk.linkPitch
  let d2 := (d1.setPort p fun q => { (if q.fromLow then q.requeue else q.restart n d1.mono) with fails := 0, peerLow := false, fromLow := false }).clearStaged p
  if (d2.loadState = 1 ∨ d2.loadState = 2) ∧ d2.trained p < d2.reelLanes p then
    ((d2.report (d2.linkFault 0x65 3 p 0 0) false).wrAt R.KL.KL_STATUS_LANES_SHORT p 0 1).portDown p 6
  else ((d2.queueMessage p 0x10 d2.announceBody).measureLead).rewait

/-- A port that is DOWN because the reel needed more lanes than it trained trains again when a load opens; `Dev.enterActive` then judges whether the new reel fits (R313). -/
def Dev.reviveShort (d : Dev) : Dev :=
  forUpto 8 (fun p d =>
    if d.portState p = 0 ∧ d.rdAt R.KL.KL_STATUS_DOWN_REASON p 0 = 6 then (d.wrAt R.KL.KL_STATUS_LANES_SHORT p 0 0).enterDetect p else d) d

/-- The trained counts follow a load that opens or ends, and the step clock (R296). -/
def Dev.refreshTrained (d : Dev) : Dev := forUpto 8 (fun p d => if d.portState p = 6 then d.showPort p else d) d

/-! EXCHANGE (R305, R306). -/

/-- The highest version that the port advertises: 2 where v2 is allowed and has not failed. -/
def Dev.highestVersion (d : Dev) (p : Nat) : Nat :=
  if d.rdAt R.KL.KL_CTRL_V2_ALLOW p 0 = 1 ∧ d.rdAt R.KL.KL_STATUS_V2_FAILED p 0 = 0 then 2 else 1

/-- PF0 device ID (spec/00 R7). -/
def Dev.deviceId (d : Dev) : Nat := if d.part.dies = 4 then 0x7040 else 0x7080

/-- EXCHANGE_A goes out (R301). -/
def Dev.sendExchangeA (p : Nat) (d : Dev) : Dev :=
  d.emit (.message p 0x01 (leBytes (d.highestVersion p) 1 ++ leBytes (d.port p).sel 1 ++ leBytes (d.rdAt R.KL.KL_STATUS_USABLE p 0) 1 ++
    leBytes d.position 1 ++ leBytes p 1 ++ leBytes (d.rd R.CLK.STEP_MHZ) 2 ++ leBytes d.deviceId 2))

/-- EXCHANGE: the three messages go out; nothing has come in yet. -/
def Dev.enterExchange (p : Nat) (d : Dev) : Dev :=
  let d1 := (d.setPort p fun q => { q with gotA := false, gotB := false, gotC := false, sel := q.version, peerSel := 0 }).setPortState p 5
  ((d1.sendExchangeA p).emit (.message p 0x02 (leBytes (d1.rd R.LOAD.PRODUCTION_ID) 8 ++ leBytes d1.ld.setSize 1))).emit
    (.message p 0x03 (leBytes d1.part.serial 8))

/-- Every lane is aligned: EXCHANGE, or LOWRATE, which keeps the replay buffers (R304, R314). -/
def Dev.symbolLockDone (p t : Nat) (d : Dev) : Dev :=
  let d1 := d.toTime t
  if p < 8 ∧ d1.portState p = 4 then
    if (d1.port p).low then (d1.setPort p fun q => { q.requeue with fails := 0, fromLow := true }).setPortState p 7 else d1.enterExchange p
  else d

/-- A failed check: LINK_PEER_MISMATCH with the peer position received, DOWN with reason 4 (R305, spec/01 R32). -/
def Dev.peerMismatch (p : Nat) (d : Dev) : Dev :=
  (d.report (d.linkFault 0x64 3 p 0 (d.rdAt R.KL.PEER_POSITION p 0)) false).portDown p 4

/-- The checks have passed and both sides select the same version: ACTIVE, or CLOCK_LOCK at v2 (R304, R306). -/
def Dev.exchangeDone (p : Nat) (d : Dev) : Dev :=
  let q := d.port p
  if q.gotA && q.gotB && q.gotC && decide (q.peerSel = q.sel + 1) then
    if q.sel = q.version then d.enterActive p else d.enterClockLock p q.sel false
  else d

/-- EXCHANGE_A arrives: it is ignored outside EXCHANGE; the PEER registers, the checks, the version, the common lanes. -/
def Dev.exchangeA (p highest selected lanes position port mhz device : Nat) (d : Dev) : Dev :=
  if p < 8 ∧ d.portState p = 5 then
    let d1 := (((d.wrAt R.KL.PEER_POSITION p 0 position).wrAt R.KL.PEER_PORT p 0 port).wrAt R.KL.PEER_VERSION p 0 highest).wrAt
      R.KL.PEER_DEVICE_ID p 0 device
    if facing d1.position p = some (position, port) ∧ device = d1.deviceId ∧ mhz = d1.rd R.CLK.STEP_MHZ then
      let use := d1.rdAt R.KL.KL_STATUS_USABLE p 0 &&& lanes
      let d2 := (d1.wrAt R.KL.KL_STATUS_USABLE p 0 use).setPort p fun q => { q with excl := 255 - use }
      if popCount use 8 < d2.minLanes p then d2.attemptFailed p 3
      else
        let sel := min (d2.highestVersion p) highest
        let d3 := d2.setPort p fun q => { q with gotA := true, peerSel := selected + 1, sel := sel }
        (if sel = (d2.port p).sel then d3 else d3.sendExchangeA p).exchangeDone p
    else d1.peerMismatch p
  else d

/-- EXCHANGE_B arrives: PRODUCTION_ID and SET_SIZE must be the device's own. -/
def Dev.exchangeB (p production size : Nat) (d : Dev) : Dev :=
  if p < 8 ∧ d.portState p = 5 then
    let d1 := d.wrAt R.KL.PEER_PRODUCTION_ID p 0 production
    if production = d1.rd R.LOAD.PRODUCTION_ID ∧ size = d1.ld.setSize then
      (d1.setPort p fun q => { q with gotB := true }).exchangeDone p
    else d1.peerMismatch p
  else d

/-- EXCHANGE_C arrives: the serial number of the peer. -/
def Dev.exchangeC (p serial : Nat) (d : Dev) : Dev :=
  if p < 8 ∧ d.portState p = 5 then
    ((d.wrAt R.KL.PEER_SERIAL p 0 serial).setPort p fun q => { q with gotC := true }).exchangeDone p
  else d

/-! Loss of signal and of lock (R309). -/

/-- A lane loses its signal: BIT_LOCK without the lane. -/
def Dev.linkLos (p lane t : Nat) (d : Dev) : Dev :=
  let d1 := d.toTime t
  let s := d1.portState p
  if p < 8 ∧ lane < 8 ∧ 3 ≤ s ∧ isSet (d1.port p).wanted lane then
    let d2 := ((d1.wrAt R.KL.LOS_NOW p 0 (putBit (d1.rdAt R.KL.LOS_NOW p 0) lane 1)).report (d1.linkFault 0x60 0 p lane 0) false).setPort p fun q =>
      { q with excl := putBit q.excl lane 1 }
    if s = 3 then d2 else d2.enterBitLock p
  else d

/-- A lane loses its lock (BIT_LOCK, the lane retried), or the forwarded clock (lane 0x7F: CLOCK_LOCK). -/
def Dev.linkLol (p lane t : Nat) (d : Dev) : Dev :=
  let d1 := d.toTime t
  let s := d1.portState p
  if p < 8 ∧ lane = 0x7F ∧ 3 ≤ s then
    ((d1.wrAt R.KL.CLK_LOL_NOW p 0 1).report (d1.linkFault 0x61 0 p 0x7F 0) false).enterClockLock p (d1.port p).version (d1.port p).low
  else if p < 8 ∧ lane < 8 ∧ 3 ≤ s ∧ isSet (d1.port p).wanted lane then
    let d2 := (d1.wrAt R.KL.LOL_NOW p 0 (putBit (d1.rdAt R.KL.LOL_NOW p 0) lane 1)).report (d1.linkFault 0x61 0 p lane 0) false
    if s = 3 then d2 else d2.enterBitLock p
  else d

/-! Messages to send (R301). -/

/-- The priority of a message type: STOP, RELEASE, READY, TICK, the time messages, all others. -/
def messagePriority (kind : Nat) : Nat :=
  if kind = 0x22 then 0 else if kind = 0x21 then 1 else if kind = 0x20 then 2 else if kind = 0x15 then 3
  else if 0x11 ≤ kind ∧ kind ≤ 0x14 then 4 else 5

/-- The next message of a queue, and the queue without it. -/
def nextMessage (q : List (Nat × Bytes)) : Option ((Nat × Bytes) × List (Nat × Bytes)) :=
  let best := q.foldl (fun m e => min m (messagePriority e.1)) 6
  match q.find? fun e => messagePriority e.1 == best with
  | none => none
  | some e => some (e, q.erase e)

/-- The 14 bytes of a message (R300). -/
def messageBytes (m : Nat × Bytes) : Bytes := leBytes m.1 1 ++ m.2.take 13 ++ List.replicate (13 - min 13 m.2.length) 0

/-- `need` bytes of the message stream, the messages completed in them, and the port after; a message of type 0 fills the stream (R300). -/
def Port.streamBytes (need : Nat) : Nat → Port → Bytes × List (Nat × Bytes) × Port
  | 0, q => ([], [], q)
  | fuel + 1, q =>
    if need = 0 then ([], [], q)
    else
      let q1 := if q.txMsg = [] then
          match nextMessage q.queue with
          | some (m, rest) => { q with txMsg := messageBytes m, txCur := some m, queue := rest }
          | none => { q with txMsg := List.replicate 14 0, txCur := none }
        else q
      if need < q1.txMsg.length then (q1.txMsg.take need, [], { q1 with txMsg := q1.txMsg.drop need })
      else
        let x := Port.streamBytes (need - q1.txMsg.length) fuel { q1 with txMsg := [], txCur := none }
        (q1.txMsg ++ x.1, (match q1.txCur with | some m => [m] | none => []) ++ x.2.1, x.2.2)

/-! Frames to send (R294 to R300). -/

/-- CRC-16 of a lane (R294).  PRESUMED: most significant bit first, nothing inverted at the end; the manual gives polynomial and initial value. -/
def crc16 (bs : Bytes) : Nat :=
  bs.foldl (fun c b =>
    forUpto 8 (fun _ c => if isSet c 15 then ((c * 2) ^^^ 0x1021) % 65536 else c * 2 % 65536) (c ^^^ (b.toNat * 256))) 0xFFFF

/-- The bytes of symbols 1 to 30 of each lane in use: `u` lanes, sequence byte, payload (byte `j` on lane `j mod u`), message bytes (those of lane 0 the
acknowledgement field), CRC. -/
def frameLanes (u seqByte ack : Nat) (payload msg : Bytes) : List Bytes :=
  (List.range u).map fun i =>
    let pay := (List.range 25).map fun r => (payload.drop (r * u + i)).headD 0
    let m : Bytes := if i = 0 then leBytes ack 2 else ((msg.drop (2 * (i - 1))).take 2 ++ [0, 0]).take 2
    let body := leBytes seqByte 1 ++ pay ++ m
    body ++ leBytes (crc16 body) 2

/-- The payload of DATA frame `j` of the take, from the transmit store (R295, R297, R299). -/
def Dev.framePayload (d : Dev) (p j : Nat) : Bytes :=
  match d.framePlace p j with
  | none => []
  | some (q, k) =>
    let b := d.frameBits p
    let t := max 1 (d.trained p)
    let start := fieldAt (d.mapEntry q) 0 11
    let bitOf (i : Nat) : Nat :=
      let n := k * b + i
      if n < d.pitchLen q * t then SMap.get (d.port p).store (n % t * 2048 + start + n / t) else 0
    (List.range (b / 8)).map fun j => BitVec.ofNat 8 (forUpto 8 (fun i v => v + bitOf (8 * j + i) % 2 * 2 ^ i) 0)

/-- A frame leaves, every lane in 8b/10b symbols (R294, spec/17 R464). -/
def Dev.emitFrame (p : Nat) (lanes : List Bytes) (data : Bool) (d : Dev) : Dev :=
  let x := (lanes.zip (List.range 8)).map fun l => (laneSymbols l.1 (isSet (d.port p).txPlus l.2), l.2)
  let d0 := d.setPort p fun q => { q with txPlus := x.foldl (fun m l => putBit m l.2 (bit l.1.2)) q.txPlus }
  (((d0.emit (.frame p (x.map (·.1.1)))).count (0x48 + p) 0 1).count (0x48 + p) 2 (bit data)).count (0x48 + p) 5 (bit (d.port p).nak)

/-- The bytes of a frame as it is sent now, with the acknowledgement of now. -/
def Dev.frameNow (d : Dev) (p : Nat) (f : LinkFrame) : List Bytes :=
  let q := d.port p
  let ack := q.expect % 128 + 128 * bit q.nak
  let seqByte := f.seq + 128 * bit f.data.isSome
  if d.portState p = 7 then frameLanes 1 seqByte ack f.msg []
  else frameLanes (max 1 (d.usedLanes p)) seqByte ack (match f.data with | some j => d.framePayload p j | none => []) f.msg

/-- The next DATA frame of the take that the array has filled: the pitch is closed, or every step whose slots it carries has been executed (R297). -/
def Dev.filledFrame (d : Dev) (p : Nat) : Option Nat :=
  let j := (d.port p).txTotal
  if d.tk.ran && decide (d.portState p = 6) then
    match d.framePlace p j with
    | none => none
    | some (q, k) =>
      let cur := d.tk.belay
      let open' := decide (d.tk.phase = .stepping)
      let closed := decide (q < cur) || (decide (d.tk.phase = .ended) && decide (q = cur)) ||
        ((decide (d.tk.phase = .waiting) || decide (d.tk.phase = .met) || decide (d.tk.phase = .resting)) && decide (cur = 0))
      let last := fieldAt (d.mapEntry q) 0 11 + ((k + 1) * d.frameBits p - 1) / max 1 (d.trained p)
      if closed || (open' && decide (q = cur) && decide (last < d.tk.step)) then some j else none
  else none

/-- What the completion of a message in a frame starts: t1 of SYNC, t3 of DELAY_REQ (R302), the change of rate after LOWRATE_ACK and FULLRATE_REQ (R314). -/
def Dev.messageSent (p seq kind : Nat) (d : Dev) : Dev :=
  if kind = 0x11 then d.setPort p fun q => { q with sync := some (seq, d.commaStamp, false) }
  else if kind = 0x13 then { d with clk := { d.clk with t3 := SMap.set d.clk.t3 p (d.commaStamp + 1) } }
  else if kind = 0x31 then d.enterClockLock p (d.port p).version true
  else if kind = 0x32 ∧ (d.port p).fullReq then d.enterClockLock p (d.port p).version false
  else d

/-- A new frame (R298, R300): DATA where the next one is filled, the next SEQ, a place in the replay buffer. -/
def Dev.newFrame (p : Nat) (d : Dev) : Dev :=
  let data := d.filledFrame p
  let need := if d.portState p = 7 then 14 else 2 * (d.usedLanes p - 1)
  let x := Port.streamBytes need (need + 2) (d.port p)
  let seq := x.2.2.txSeq
  let f : LinkFrame := { seq := seq, data := data, msg := x.1, msgs := x.2.1 }
  let d1 := d.setPort p fun _ =>
    { x.2.2 with
      txSeq := (seq + 1) % 128, replay := x.2.2.replay ++ [f], ackSince := if x.2.2.replay = [] then d.mono else x.2.2.ackSince
      txTotal := x.2.2.txTotal + bit data.isSome }
  forAll x.2.1 (fun m d => d.messageSent p seq m.1) ((d1.emitFrame p (d.frameNow p f) data.isSome).count (0x48 + p) 6 x.2.1.length)

/-- A frame period, its comma departing at the stamp `t` (R298, R310): the next entry of a replay in progress, or a new frame unless the replay buffer
is full. -/
def Dev.linkFrameSend (p t : Nat) (d : Dev) : Dev :=
  let d1 := d.toTime t
  let q := d1.port p
  if p < 8 ∧ (d1.portState p = 6 ∨ d1.portState p = 7) then
    if 0 < q.resend then
      match q.replay[q.replay.length - q.resend]? with
      | some f => (d1.emitFrame p (d1.frameNow p f) f.data.isSome).setPort p fun q => { q with resend := q.resend - 1 }
      | none => d1.setPort p fun q => { q with resend := 0 }
    else if 64 ≤ q.replay.length then d1
    else d1.newFrame p
  else d

/-! Acknowledgement and replay (R310, R311). -/

/-- ACK_SEQ frees the entries before it; the FOLLOW_UP of a SYNC whose frame is freed is queued, void where the frame was sent again (R302). -/
def Dev.ackFrames (p ack : Nat) (d : Dev) : Dev :=
  let q := d.port p
  match q.replay with
  | [] => d
  | f :: _ =>
    let k := (ack + 128 - f.seq) % 128
    if 0 < k ∧ k ≤ q.replay.length then
      let rest := q.replay.drop k
      let d1 := d.setPort p fun q => { q with replay := rest, resend := min q.resend rest.length, ackSince := d.mono, nakSeq := none, nakCount := 0 }
      match q.sync with
      | some (seq, t1, void) =>
        if rest.any fun g => g.seq == seq then d1
        else (d1.setPort p fun q => { q with sync := none }).queueMessage p 0x12 (leBytes t1 8 ++ leBytes (bit void) 1)
      | none => d1
    else d

/-- Exhausted replays (R311): the record, DOWN with reason 5, and with the array running STOP to the others and the stop at the next belay. -/
def Dev.replayExhausted (p : Nat) (d : Dev) : Dev :=
  let run := d.running
  let d1 := (d.report (d.linkFault 0x63 (if run then 2 else 0) p 0 0) run).portDown p 5
  if run && d1.running then
    let d2 := d1.sendStop 0x63
    if d2.frozen then d2.linkStopped else { d2 with tk := { d2.tk with linkStop := true } }
  else d1

/-- A NAK or a timeout asks for a replay (R310, R311); one that arrives while a replay goes on asks for nothing more. -/
def Dev.startReplay (p : Nat) (d : Dev) : Dev :=
  let q := d.port p
  match q.replay with
  | [] => d
  | f :: _ =>
    if q.resend ≠ 0 then d
    else
      let n := if q.nakSeq = some f.seq then q.nakCount + 1 else 1
      if 9 ≤ n then d.replayExhausted p
      else
        ((d.setPort p fun q =>
          { q with
            resend := q.replay.length, nakSeq := some f.seq, nakCount := n, ackSince := d.mono
            sync := q.sync.map fun s => (s.1, s.2.1, true) }).bumpAt R.KL.REPLAYS p 0).count (0x48 + p) 4 1

/-- No acknowledgement has moved past the oldest entry for REPLAY_TIMEOUT_NS. -/
def Dev.replayTimeout (p t : Nat) (d : Dev) : Dev :=
  let d1 := d.toTime t
  let q := d1.port p
  if p < 8 ∧ (d1.portState p = 6 ∨ d1.portState p = 7) ∧ q.replay ≠ [] ∧
      q.ackSince + d1.rdAt R.KL.REPLAY_TIMEOUT_NS p 0 * 2 ^ 32 ≤ d1.mono then d1.startReplay p
  else d

/-! Received frames (R294, R297, R310). -/

/-- A lane of a frame is as it must be: 30 bytes with a correct CRC. -/
def laneGood (l : Bytes) : Bool := l.length == 30 && leAt l 28 2 == crc16 (l.take 28)

/-- The payload of a received frame as a number: bit `i` of it is payload bit `i`. -/
def framePayloadBits (u : Nat) (lanes : List Bytes) : Nat :=
  (List.range (25 * u)).foldl (fun v j => v + ((((lanes.drop (j % u)).headD []).drop (1 + j / u)).headD 0).toNat * 256 ^ j) 0

/-- The array has not abandoned its take: frames of slots count while it runs, and while it rests after a hard halt (spec/04 R117). -/
def Dev.wantsFrames (d : Dev) : Bool := d.running || d.runState == 3

/-- A good DATA frame: its bits enter the staging copy under the numbering of R297. -/
def Dev.takeData (p u : Nat) (lanes : List Bytes) (d : Dev) : Dev :=
  if !d.wantsFrames then d else
  let total := d.framesBefore p d.tk.pitches
  let j := (d.port p).rxTotal
  match d.framePlace p (if total ≤ j then j - total else j) with
  | none => d
  | some (q, k) =>
    let b := d.frameBits p
    let t := max 1 (d.trained p)
    let start := fieldAt (d.mapEntry q) 0 11
    let bits := framePayloadBits u lanes
    let n := min b (d.pitchLen q * t - k * b)
    let st := forUpto n (fun i m => SMap.set m (rxKey p ((k * b + i) % t) (start + (k * b + i) / t)) (bitAt bits i + 1)) d.arr.staged
    ({ d with arr := { d.arr with staged := st } }.setPort p fun q => { q with rxTotal := q.rxTotal + 1 }).rewait

/-- The whole messages at the head of received stream bytes, and what is left. -/
def splitMessages : Nat → Bytes → List (Nat × Bytes) × Bytes
  | 0, bs => ([], bs)
  | fuel + 1, bs =>
    if 14 ≤ bs.length then
      let x := splitMessages fuel (bs.drop 14)
      ((leAt bs 0 1, (bs.drop 1).take 13) :: x.1, x.2)
    else ([], bs)

/-- The code and disparity errors of a frame, by lane in use: every error is counted, and a LINK_DISPARITY record written, at most one per port in a millisecond (R309). -/
def Dev.disparity (p : Nat) (errors : List (Nat × Nat)) (d : Dev) : Dev :=
  let bad := errors.filter fun e => decide (e.2 ≠ 0)
  let n := (bad.map (·.2)).sum
  if n = 0 then d
  else
    let d1 := (d.wrAt R.KL.DISPARITY_ERRORS p 0 (satAdd (d.rdAt R.KL.DISPARITY_ERRORS p 0) n 32)).count (0x48 + p) 8 n
    let q := d1.port p
    if q.dispAt = 0 ∨ q.dispAt + 1000 * usec ≤ d1.mono + 1 then
      (d1.report (d1.linkFault 0x62 0 p ((bad.headD (0, 0)).1) 0) false).setPort p fun q => { q with dispAt := d1.mono + 1 }
    else d1

end Sys2Proof.Machine
end

