-- ==== Sys2Proof/Machine/Messages.lean ====
section
/-! DEFINITION. The messages of a KermaLink port (spec/11 R300 to R303, R314; spec/04 R118 to R121; spec/10 R271, R272, R282), and the frame that
brings them. -/

namespace Sys2Proof.Machine

/-- The upstream port of a follower (spec/10 R271). -/
def Dev.isUpstream (d : Dev) (p : Nat) : Bool :=
  !d.on R.TIME.TIME_STATUS_MASTER && d.rd R.TIME.TIME_STATUS_UPSTREAM_PORT == p

/-- A message that the device passes on at most once: it is remembered (R303). -/
def Dev.passOnce (key : Nat × Nat × Nat × Nat) (d : Dev) : Dev :=
  { d with tk := { d.tk with passed := key :: d.tk.passed } }

/-! Time (spec/10 R271, R272, R282). -/

/-- ANNOUNCE: the bid of `origin` is kept, relayed on every other port while its hop count is below 3, and the election is made again. -/
def Dev.recvAnnounce (p eligible priority origin hops : Nat) (d : Dev) : Dev :=
  if d.portTalks p then
    let d1 := if hops < 3 then
        d.sendAllBut p 0x10 (leBytes eligible 1 ++ leBytes priority 1 ++ leBytes origin 1 ++ leBytes (hops + 1) 1) else d
    if origin = d1.position then d1
    else { d1 with clk := { d1.clk with masterSeen := SMap.set d1.clk.masterSeen origin (1 + eligible % 2 + 2 * (priority % 16)) } }.elect
  else d

/-- SYNC, its frame arriving at the stamp `t`: a follower takes ADDEND and t2 and answers with DELAY_REQ on its upstream port. -/
def Dev.recvSync (p addend t : Nat) (d : Dev) : Dev :=
  let d1 := d.toTime t
  if d1.portTalks p && d1.isUpstream p then
    let d2 := d1.voidMeasure p
    let d3 := { d2 with clk := { d2.clk with
        lastSync := d2.now, lastHeard := d2.now, masterAddend := addend, t2 := SMap.set d2.clk.t2 p (d2.commaStamp + 1) } }
    let d4 := if d3.on R.TIME.TIME_STATUS_FROZEN || d3.on R.TIME.TIME_STATUS_HOLDOVER then d3 else d3.setAddend addend
    (forUpto 4 (fun n d => if d.tbSource n = 7 then d.endCause n 4 else d) d4).queueMessage p 0x13 []
  else d

/-- The measurement on port `p` has its four stamps. -/
def Dev.tryMeasure (p : Nat) (d : Dev) : Dev :=
  if SMap.get d.clk.t1 p ≠ 0 ∧ SMap.get d.clk.t2 p ≠ 0 ∧ SMap.get d.clk.t3 p ≠ 0 ∧ SMap.get d.clk.t4 p ≠ 0 then
    (d.measured p).voidMeasure p
  else d

/-- FOLLOW_UP: t1, or the measurement is discarded (R302). -/
def Dev.recvFollowUp (p t1 void : Nat) (d : Dev) : Dev :=
  if d.portTalks p && d.isUpstream p then
    if void = 1 then d.voidMeasure p
    else if SMap.get d.clk.t2 p = 0 then d
    else { d with clk := { d.clk with t1 := SMap.set d.clk.t1 p (t1 + 1) } }.tryMeasure p
  else d

/-- DELAY_REQ, its frame arriving at the stamp `t`: DELAY_RESP with t4, void where the frame was sent again (R302). -/
def Dev.recvDelayReq (p again t : Nat) (d : Dev) : Dev :=
  let d1 := d.toTime t
  if d1.portTalks p then d1.queueMessage p 0x14 (leBytes d1.commaStamp 8 ++ leBytes again 1) else d

/-- DELAY_RESP: t4, or the measurement is discarded. -/
def Dev.recvDelayResp (p t4 void : Nat) (d : Dev) : Dev :=
  if d.portTalks p && d.isUpstream p then
    if void = 1 then d.voidMeasure p
    else if SMap.get d.clk.t3 p = 0 then d
    else { d with clk := { d.clk with t4 := SMap.set d.clk.t4 p (t4 + 1) } }.tryMeasure p
  else d

/-- The master's POSITION is taken, and the entries at the boundary crossed fire (spec/10 R282, R284). -/
def Dev.followPosition (n pos : Nat) (d : Dev) : Dev :=
  let prev := d.rdAt R.TBASE.POSITION n 0
  let down := (pos + 1) % d.tbPositions n == prev
  let d1 := d.wrAt R.TBASE.POSITION n 0 pos
  if pos == prev then d1 else forAll (d1.firing n (if down then prev else pos) (!down)) (fun e d => d.fireEntry n e d1.tbNow) d1

/-- TICK from upstream: relayed, and a KERMALINK time base issues the master's tick with its stamp and POSITION (spec/10 R282). -/
def Dev.recvTick (p n stamp pos : Nat) (d : Dev) : Dev :=
  if d.portTalks p && d.isUpstream p then
    let d1 := d.sendAllBut p 0x15 (leBytes n 1 ++ leBytes stamp 8 ++ leBytes pos 4)
    let d2 := { d1 with clk := { d1.clk with lastHeard := d1.now } }
    if decide (n < 4) && d2.tbSource n == 7 then
      let d3 := (d2.endCause n 4).followPosition n pos
      d3.issueTick n (d3.instantOf (d3.fromMaster stamp)) d3.tbNow
    else d2
  else d

/-! The belay handshake (spec/04 R118 to R121). -/

/-- READY: the master collects it, every other device relays it upstream. -/
def Dev.recvReady (p belay take origin : Nat) (d : Dev) : Dev :=
  let key := (0x20, belay, take, origin)
  if d.portTalks p && !d.tk.passed.contains key then
    let d1 := d.passOnce key
    if d1.isMaster then { d1 with tk := { d1.tk with ready := readyKey origin belay take :: d1.tk.ready } }.masterRelease
    else d1.queueMessage (d1.rd R.TIME.TIME_STATUS_UPSTREAM_PORT) 0x20 (leBytes belay 1 ++ leBytes take 4 ++ leBytes origin 1)
  else d

/-- RELEASE: forwarded on every other ACTIVE port; the device that it finds at the belay takes the instant and the deadline response, or halts
under SAFE (R118, R120). -/
def Dev.recvRelease (p belay instant resp take : Nat) (d : Dev) : Dev :=
  let key := (0x21, belay, take, 0)
  if d.portTalks p && !d.isMaster && !d.tk.passed.contains key then
    let d1 := (d.passOnce key).sendAllBut p 0x21 (leBytes belay 1 ++ leBytes instant 8 ++ leBytes resp 1 ++ leBytes take 2)
    if d1.running && decide (d1.tk.belay = belay) && decide (d1.rd R.TAKE.TAKE_NUMBER % 65536 = take) &&
        (decide (d1.tk.phase = .waiting) || decide (d1.tk.phase = .met)) then
      if resp = 1 ∧ belay = 0 then d1.requestHalt 7 (d1.rd R.TIME.TIME_STATUS_MASTER_POS)
      else { d1 with tk := { d1.tk with release := some (d1.instantOf (d1.fromMaster instant)), closingResp := resp } }
    else d1
  else d

/-- A STOP that names the take just closed: its boundary is undone, since the take is incomplete (R121). -/
def Dev.undoBoundary (d : Dev) : Dev :=
  match d.tk.undo with
  | none => d
  | some u =>
    let n := d.rd R.TAKE.TAKE_NUMBER - 1
    let d1 := { d with
      arr := { d.arr with stateRows := u.stateRows, badRows := u.badRows }
      eng := { d.eng with inject := u.inject }
      edge := { d.edge with present := d.edge.present.filter fun e => decide (e.1 ≠ n) }
      tk := { d.tk with saved := u.saved, undo := none } }
    d1.wr R.TAKE.TAKE_NUMBER n

/-- STOP or a halt request (code 0): relayed toward the master, and by the master and from upstream to the others; the array stops at its next belay
(R121, spec/16 R412). -/
def Dev.recvStop (p origin take code : Nat) (d : Dev) : Dev :=
  let key := (0x22, code, take, origin)
  let body := leBytes origin 1 ++ leBytes take 6 ++ leBytes code 1
  if d.portTalks p && !d.tk.passed.contains key then
    let d0 := d.passOnce key
    let d1 := if d0.isMaster || d0.isUpstream p then d0.sendAllBut p 0x22 body
      else d0.queueMessage (d0.rd R.TIME.TIME_STATUS_UPSTREAM_PORT) 0x22 body
    if !d1.running then d1
    else if code = 0 then d1.requestHalt 5 origin
    else if d1.frozen then
      if d1.tk.belay = 0 ∧ take + 1 = d1.rd R.TAKE.TAKE_NUMBER then d1.undoBoundary.peerStopped origin else d1.peerStopped origin
    else { d1 with tk := { d1.tk with peerStop := some origin } }
  else d

/-! START_CHECK (R303, spec/04 R97). -/

/-- The device's own schedule digest: of L and the pitch map. -/
def Dev.scheduleDigest (d : Dev) : Nat :=
  Config.scheduleDigest (leBytes d.tk.len 8 ++ (List.range 16).flatMap fun b => leBytes (d.mapEntry b) 8) % 2 ^ 64

/-- The digest and the step clock of a peer agree with the device's own. -/
def Dev.peerAgrees (d : Dev) (p : Nat) : Bool :=
  match (d.port p).peerDigest with
  | none => true
  | some x => x == d.scheduleDigest && (d.port p).peerStep == d.rd R.CLK.STEP_MHZ

/-- The ports on whose message channel the device compares its schedule with that of its peers: the ACTIVE ones of a linked device. -/
def Dev.checkPorts (d : Dev) : List Nat := if d.linked then (List.range 8).filter fun p => d.portState p == 6 else []

/-- START_CHECK arrives: a difference from the schedule of the loaded reel raises LINK_PEER_MISMATCH, which names the port. -/
def Dev.recvStartCheck (p digest mhz : Nat) (d : Dev) : Dev :=
  if d.portTalks p then
    let d1 := d.setPort p fun q => { q with peerDigest := some digest, peerStep := mhz }
    if !d1.linked || d1.peerAgrees p then d1 else d1.report (d1.linkFault 0x64 3 p 0 0) false
  else d

/-! LOWRATE (R314). -/

/-- LOWRATE_REQ: answered unless the array runs; both sides then enter CLOCK_LOCK at 1.25 Gb/s. -/
def Dev.recvLowrateReq (p : Nat) (d : Dev) : Dev :=
  if d.portTalks p then
    let d1 := d.setPort p fun q => { q with peerLow := true }
    if d1.running ∨ d1.portState p ≠ 6 then d1 else (d1.setPort p fun q => { q with lowAck := true }).queueMessage p 0x31 []
  else d

/-- LOWRATE_ACK: this side follows. -/
def Dev.recvLowrateAck (p : Nat) (d : Dev) : Dev :=
  if d.portTalks p && (d.port p).lowReq then d.enterClockLock p (d.port p).version true else d

/-- FULLRATE_REQ: both sides train from CLOCK_LOCK at the version of R306, unless this device is in BIVOUAC itself. -/
def Dev.recvFullrateReq (p : Nat) (d : Dev) : Dev :=
  if d.portTalks p && d.portState p == 7 then
    let d1 := d.setPort p fun q => { q with peerLow := false }
    if d1.rd R.POWER.PWR_STATUS_STATE = 2 then d1 else d1.enterClockLock p (d1.port p).version false
  else d

/-! The frame (R300, R310). -/

/-- A message that a good frame completes, by its type (R301); one of another type is dropped and counted. -/
def Dev.takeMessage (p again t : Nat) (m : Nat × Bytes) (d : Dev) : Dev :=
  let b := m.2
  let at' (off len : Nat) : Nat := leAt b off len
  if m.1 = 0x10 then d.recvAnnounce p (at' 0 1) (at' 1 1) (at' 2 1) (at' 3 1)
  else if m.1 = 0x11 then d.recvSync p (at' 0 5) t
  else if m.1 = 0x12 then d.recvFollowUp p (at' 0 8) (at' 8 1)
  else if m.1 = 0x13 then d.recvDelayReq p again t
  else if m.1 = 0x14 then d.recvDelayResp p (at' 0 8) (at' 8 1)
  else if m.1 = 0x15 then d.recvTick p (at' 0 1) (at' 1 8) (at' 9 4)
  else if m.1 = 0x20 then d.recvReady p (at' 0 1) (at' 1 4) (at' 5 1)
  else if m.1 = 0x21 then d.recvRelease p (at' 0 1) (at' 1 8) (at' 9 1) (at' 10 2)
  else if m.1 = 0x22 then d.recvStop p (at' 0 1) (at' 1 6) (at' 7 1)
  else if m.1 = 0x23 then d.recvStartCheck p (at' 0 8) (at' 8 2)
  else if m.1 = 0x30 then d.recvLowrateReq p
  else if m.1 = 0x31 then d.recvLowrateAck p
  else if m.1 = 0x32 then d.recvFullrateReq p
  else if m.1 = 0x01 ∨ m.1 = 0x02 ∨ m.1 = 0x03 then d
  else d.bumpAt R.KL.BAD_MESSAGES p 0

/-- Lanes whose comma was missing; the fourth frame in a row without it is a loss of lock (R309). -/
def Dev.commaChecks (p missing t : Nat) (d : Dev) : Dev :=
  forUpto 8 (fun i d =>
    let n := if isSet missing i then SMap.get (d.port p).noComma i + 1 else 0
    let d1 := d.setPort p fun q => { q with noComma := SMap.set q.noComma i (n % 4) }
    if n = 4 then d1.linkLol p i t else d1) d

/-- The physical lanes of a frame of port `p`, in order: lane 0 in LOWRATE, the usable ones else. -/
def Dev.frameLaneNos (d : Dev) (p : Nat) : List Nat := if (d.port p).low then [0] else setBits (d.rdAt R.KL.KL_STATUS_USABLE p 0) 8

/-- A frame is discarded (R310): NAK stands, and the peer will send it again.  `next` is what the peer has sent, counted from the frame expected, once this one is past. -/
def Dev.discardFrame (p next : Nat) (d : Dev) : Dev :=
  d.setPort p fun q => { q with nak := true, ahead := next, again := max q.again next }

/-- A good frame with the expected SEQ is accepted: acknowledgement, slots, messages (R300, R310).  A message whose frame the peer has sent before is taken as sent again (R302). -/
def Dev.acceptFrame (p u t : Nat) (lanes : List Bytes) (d : Dev) : Dev :=
  let low := d.portState p == 7
  let again := bit (decide (0 < (d.port p).again))
  let ack := leAt (lanes.headD []) 26 1
  let stream := if low then ((lanes.headD []).drop 1).take 14 else (lanes.drop 1).flatMap fun l => (l.drop 26).take 2
  let x := splitMessages 4 ((d.port p).rxMsg ++ stream)
  let d2 := (d.count (0x48 + p) 1 1).setPort p fun q =>
    { q with nak := false, ahead := 0, again := q.again - 1, expect := (q.expect + 1) % 128, rxMsg := x.2 }
  let d3 := d2.ackFrames p (ack % 128)
  let d4 := if 128 ≤ ack then d3.startReplay p else d3
  let d5 := if 128 ≤ ((lanes.headD []).headD 0).toNat ∧ !low ∧ d4.portTalks p then d4.takeData p u lanes else d4
  forAll (x.1.filter fun m => m.1 ≠ 0) (fun m d => (d.count (0x48 + p) 7 1).takeMessage p again t m) d5

/-- A frame of a port that carries messages, by its lanes: bad, out of order, or accepted (R294, R310). -/
def Dev.judgeFrame (p t : Nat) (ins : List LaneIn) (d : Dev) : Dev :=
  let u := if d.portState p == 7 then 1 else d.usedLanes p
  let lanes := ins.filterMap LaneIn.data
  let head := (lanes.headD []).headD 0
  let good := decide (ins.length = u) && decide (lanes.length = u) && ins.all (fun l => l.comma && decide (l.errors = 0)) && lanes.all laneGood &&
    lanes.all fun l => l.headD 0 == head
  let ahead := (head.toNat % 128 + 128 - (d.port p).expect % 128) % 128
  if !good then ((d.discardFrame p ((d.port p).ahead + 1)).bumpAt R.KL.CRC_ERRORS p 0).count (0x48 + p) 3 1
  else if ahead ≠ 0 then d.discardFrame p (if ahead < 64 then ahead + 1 else (d.port p).ahead)
  else d.acceptFrame p u t lanes

/-- A frame arrives, its comma at the stamp `t`: the 32 symbols of each lane in use (R294).  Code and disparity errors count in every state from SYMBOL_LOCK on, and a lane may lose its lock (R309);
a port that carries messages then takes the frame. -/
def Dev.linkFrameReceive (p : Nat) (lanes : List (List Nat)) (t : Nat) (d0 : Dev) : Dev :=
  let d := d0.toTime t
  if p < 8 ∧ 4 ≤ d.portState p then
    let ins := (lanes.zip (d.frameLaneNos p)).map fun l => (laneIn l.1 (SMap.get (d.port p).rxPlus l.2), l.2)
    let rd := ins.foldl (fun m l => SMap.set m l.2 (1 + bit l.1.plus)) (d.port p).rxPlus
    let d1 := (d.setPort p fun q => { q with rxPlus := rd }).disparity p (ins.map fun l => (l.2, l.1.errors))
    let missing := ins.foldl (fun m l => putBit m l.2 (bit (!l.1.comma))) 0
    let d2 := if d1.portState p = 4 then d1 else d1.commaChecks p missing t
    if d2.portTalks p then d2.judgeFrame p t (ins.map (·.1)) else d2
  else d0

end Sys2Proof.Machine
end

