-- ==== Sys2Proof/Machine/Dmmu.lean ====
section
/-! DEFINITION. Memory behind the NoC: DDR5 lines with their error codes and poison (spec/13 R351 to R356), the device MMU (spec/12 R329 to R336),
the DMA fences (R337 to R340), and reads and writes of device virtual memory. -/

namespace Sys2Proof.Machine

/-! DDR5 (spec/13). -/

/-- The active channels, in ascending order. -/
def Dev.activeChannels (d : Dev) : List Nat := setBits (d.rd R.DDR.DDR_STATUS_ACTIVE) 8

/-- c of R351: 3, 2 or 1 for 8, 4 or 2 active channels. -/
def Dev.channelBits (d : Dev) : Nat :=
  if d.activeChannels.length = 8 then 3 else if d.activeChannels.length = 4 then 2 else 1

/-- The channel that holds physical address `pa` (R351). -/
def Dev.ddrChannel (d : Dev) (pa : Nat) : Nat :=
  let c := d.channelBits
  let k := if d.ddr.hash = 1 then fieldAt pa 8 c ^^^ fieldAt pa 13 c ^^^ fieldAt pa 18 c else fieldAt pa 8 c
  d.activeChannels.getD k 0

/-- The channel address of `pa` (R351). -/
def Dev.channelAddress (d : Dev) (pa : Nat) : Nat := fieldAt pa (8 + d.channelBits) (34 - d.channelBits) * 256 + pa % 256

/-- DDR5 is READY (R350). -/
def Dev.ddrReady (d : Dev) : Bool := d.on R.DDR.DDR_STATUS_READY

/-- DDR5 serves a request to `pa`: it is READY, and the channel is not in self-refresh, where requests wait (R360). -/
def Dev.ddrServes (d : Dev) (pa : Nat) : Bool := d.ddrReady && decide (SMap.get d.ddr.srSince (d.ddrChannel pa) = 0)

/-- A request that reaches a channel in self-refresh asks it to wake, and waits (R360). -/
def Dev.askChannel (pa : Nat) (d : Dev) : Dev :=
  if SMap.get d.ddr.srSince (d.ddrChannel pa) = 0 then d else { d with ddr := { d.ddr with asked := d.ddrChannel pa :: d.ddr.asked } }

/-- The number of bits that count `n` things, of which there are 1, 2 or 4. -/
def bitsFor (n : Nat) : Nat := if n = 4 then 2 else if n = 2 then 1 else 0

/-- Where a channel address lies in the DIMMs of its channel (R352). -/
structure DdrPlace where
  byte : Nat
  subchannel : Nat
  bankGroup : Nat
  bank : Nat
  column : Nat
  row : Nat
  rank : Nat
  dimm : Nat
  deriving DecidableEq, Repr

/-- The decoding of channel address `a` on channel `c`, by the widths that GEOMETRY shows (R352). -/
def Dev.ddrPlace (d : Dev) (c a : Nat) : DdrPlace :=
  let bg := d.rdAt R.DDRCH.GEOMETRY_BG_BITS c 0
  let ba := d.rdAt R.DDRCH.GEOMETRY_BANK_BITS c 0
  let co := d.rdAt R.DDRCH.GEOMETRY_COL_BITS c 0
  let ro := d.rdAt R.DDRCH.GEOMETRY_ROW_BITS c 0
  let ra := bitsFor (d.rdAt R.DDRCH.GEOMETRY_RANKS c 0)
  { byte := fieldAt a 0 6, subchannel := bitAt a 6, bankGroup := fieldAt a 7 bg, bank := fieldAt a (7 + bg) ba, column := fieldAt a (7 + bg + ba) co
    row := fieldAt a (7 + bg + ba + co) ro, rank := fieldAt a (7 + bg + ba + co + ro) ra, dimm := a / 2 ^ (7 + bg + ba + co + ro + ra) }

/-- The line (physical address / 64) is poisoned. -/
def Dev.poisoned (d : Dev) (line : Nat) : Bool := SMap.get d.ddr.poison line == 1

/-- The slot of the poison log of channel `c` that satisfies `p`. -/
def Dev.poisonSlot (d : Dev) (c : Nat) (p : Nat → Nat → Bool) : Option Nat :=
  (List.range 64).find? fun i => p (d.rdAt R.DDRCH.POISON_VALID c i) (d.rdAt R.DDRCH.POISON_PA c i)

/-- A line is written back with the poison syndrome and enters the poison log (R355, R356). -/
def Dev.poisonLine (line : Nat) (d : Dev) : Dev :=
  let c := d.ddrChannel (line * 64)
  let d1 := { d with ddr := { d.ddr with poison := SMap.set d.ddr.poison line 1 } }.count (0x40 + c) 7 1
  if (d1.poisonSlot c fun v pa => v == 1 && pa == line * 64).isSome then d1
  else
    match d1.poisonSlot c fun v _ => v == 0 with
    | some i => (d1.wrAt R.DDRCH.POISON_VALID c i 1).wrAt R.DDRCH.POISON_PA c i (line * 64)
    | none => d1.wrAt R.DDRCH.CH_STATUS_LOG_FULL c 0 1

/-- A whole line is written: fresh check bits; the line leaves the poison log (R356). -/
def Dev.unpoisonLine (line : Nat) (d : Dev) : Dev :=
  let c := d.ddrChannel (line * 64)
  let d1 := { d with ddr := { d.ddr with poison := SMap.set d.ddr.poison line 0 } }
  match d1.poisonSlot c fun v pa => v == 1 && pa == line * 64 with
  | some i => (d1.wrAt R.DDRCH.POISON_VALID c i 0).wrAt R.DDRCH.POISON_PA c i 0
  | none => d1

/-- What the code makes of the symbols in error of a line (R353): nothing; an error of one symbol, which it corrects; one of two, which it detects. -/
inductive LineError where
  | none | corrected | detected | beyond
  deriving DecidableEq, Repr

/-- The error that the read of a line meets; a poisoned line reads as uncorrectable.  The manual says nothing of errors in more than two symbols. -/
def Dev.lineError (d : Dev) (v : MemView) (line : Nat) : LineError :=
  if d.poisoned line then .detected
  else
    match popCount ((v.ecc.find? fun e => e.1 == line).map (·.2) |>.getD 0) 10 with
    | 0 => .none
    | 1 => .corrected
    | 2 => .detected
    | _ => .beyond

/-- The record of DDR_UNCORRECTABLE for a requester (R355). -/
def Dev.uncorrectable (d : Dev) (req pa : Nat) : FRec :=
  d.record 0xA4 (if req = 0 then 2 else 0) 0x5 (unitLoc (0x201 + d.ddrChannel pa)) (pa % 2 ^ 42 + req * 2 ^ 44) 1

/-- A read that cannot be corrected (R355).  The record of a far port's read is written by the array fault stop, every other one here. -/
def Dev.ddrLost (req line : Nat) (d : Dev) : Dev :=
  let c := d.ddrChannel (line * 64)
  let d1 := ((d.bumpAt R.DDRCH.UE_COUNT c 0).count (0x40 + c) 5 1).poisonLine line
  if req = 0 then d1 else d1.report (d1.uncorrectable req (line * 64)) false

/-- A read of line `line` by requester `req` (R353 to R355): the data, or none where they cannot be corrected.  Where more than two symbols are in error, whether the code detects it, and the data
it gives where it does not, are free values. -/
def Dev.ddrRead (req line : Nat) (v : MemView) (d : Dev) : Option Bytes × MemView × Dev :=
  let c := d.ddrChannel (line * 64)
  let d0 := d.count (0x40 + c) (if req = 5 then 6 else 0) 1
  let v1 := { v with ecc := v.ecc.filter fun e => e.1 ≠ line }
  match d.lineError v line with
  | .none => (some (SMap.bytes d.ddr.mem (line * 64) 64), v, d0)
  | .corrected => (some (SMap.bytes d.ddr.mem (line * 64) 64), v1, ((d0.bumpAt R.DDRCH.CE_COUNT c 0).count (0x40 + c) 4 1).event (0x518 + c))
  | .detected => (none, v1, d0.ddrLost req line)
  | .beyond =>
    let x := d0.free 1
    let y := x.2.free 512
    if x.1 = 1 then (none, v1, x.2.ddrLost req line) else (some (leBytes y.1 64), v1, y.2)

/-- Bytes within one line are written; a partial write to a poisoned line is dropped (R356). -/
def Dev.ddrWrite (pa : Nat) (bs : Bytes) (d : Dev) : Dev :=
  let line := pa / 64
  let c := d.ddrChannel pa
  if pa % 64 = 0 ∧ bs.length = 64 then
    ({ d with ddr := { d.ddr with mem := SMap.store d.ddr.mem pa bs } }.unpoisonLine line).count (0x40 + c) 1 1
  else if d.poisoned line then d.bumpAt R.DDRCH.UE_COUNT c 0
  else { d with ddr := { d.ddr with mem := SMap.store d.ddr.mem pa bs } }.count (0x40 + c) 1 1

/-! The device MMU (spec/12). -/

/-- The outcome of a translation: a host or DDR5 address with the attributes of a host access (bit 0 NOSNOOP, bit 1 RO); a failure by its reason (R335);
or a wait until DDR5 is ready (R350). -/
inductive Xlate where
  | ok (host : Bool) (addr attr : Nat)
  | bad (reason : Nat)
  | wait
  deriving DecidableEq, Repr

/-- Where the table entry of a level that translates `dva` in context `ctx` is cached. -/
def cacheKey (ctx level dva : Nat) : Nat := (ctx * 8 + level) * 2 ^ 48 + dva / 2 ^ (3 + 9 * level) * 2 ^ (3 + 9 * level)

/-- A host read of `n` bytes: none where the host completes with an error. -/
def hostRead (v : MemView) (a n : Nat) : Option Bytes :=
  (List.range n).foldr (fun i acc => match SMap.look v.host (a + i), acc with | some b, some bs => some (b :: bs) | _, _ => none) (some [])

/-- The table entry at an address: its value, a failure, or a wait.  A cached entry is used where the view says so (R333). -/
def Dev.tableEntry (key : Nat) (host : Bool) (addr : Nat) (v : MemView) (d : Dev) : (Xlate ⊕ Nat) × MemView × Dev :=
  let kept := SMap.get d.host.cache key
  let keep (n : Nat) (v : MemView) (d : Dev) : (Xlate ⊕ Nat) × MemView × Dev :=
    (.inr n, v, { d with host := { d.host with cache := SMap.set d.host.cache key (n + 1) } })
  if v.old.contains key && decide (kept ≠ 0) then (.inr (kept - 1), v, d)
  else if host then
    let d := d.passing.emit (.hostRead addr 0 8)
    match hostRead v addr 8 with
    | some bs => keep (leNat bs) v d
    | none => (.inl (.bad 6), v, d)
  else if !d.ddrReady then (.inl .wait, v, d)
  else if d.rd R.DDR.CAPACITY ≤ addr then (.inl (.bad 4), v, d)
  else if !d.ddrServes addr then (.inl .wait, v, d.askChannel addr)
  else
    match d.passing.ddrRead 3 (addr / 64) v with
    | (some bs, v1, d1) => keep (leAt bs (addr % 64) 8) v1 d1
    | (none, v1, d1) => (.inl (.bad 6), v1, d1)

/-- An entry breaks a rule of R331 or R332. -/
def entryMalformed (level e : Nat) : Bool :=
  let leaf := isSet e 3
  decide (fieldAt e 7 5 ≠ 0) || (leaf && decide (level = 4)) || (!leaf && decide (level = 1)) ||
  (!isSet e 4 && decide (e / 2 ^ 42 ≠ 0)) || (leaf && decide (e / 2 ^ 12 * 2 ^ 12 % 2 ^ (3 + 9 * level) ≠ 0))

/-- The walk from a level down (R330 to R332, R335): `rights` is the AND of READ (bit 0) and WRITE (bit 1) so far. -/
def Dev.walk (ctx dva : Nat) (write host : Bool) (addr rights : Nat) (v : MemView) (d : Dev) : Nat → Xlate × MemView × Dev
  | 0 => (.bad 3, v, d)
  | l + 1 =>
    let level := l + 1
    let shift := 3 + 9 * level
    match d.tableEntry (cacheKey ctx level dva) host (addr + fieldAt dva shift 9 * 8) v with
    | (.inl x, v1, d1) => (x, v1, d1)
    | (.inr e, v1, d1) =>
      let r := rights &&& fieldAt e 1 2
      if !isSet e 0 then (.bad 0, v1, d1)
      else if entryMalformed level e then (.bad 3, v1, d1)
      else if isSet e 3 then
        let pa := e / 2 ^ 12 * 2 ^ 12 + dva % 2 ^ shift
        if !write && !isSet r 0 then (.bad 1, v1, d1)
        else if write && !isSet r 1 then (.bad 2, v1, d1)
        else if !isSet e 4 && decide (d1.rd R.DDR.CAPACITY ≤ pa) then (if d1.ddrReady then .bad 4 else .wait, v1, d1)
        else (.ok (isSet e 4) pa (fieldAt e 5 2), v1, d1)
      else d1.walk ctx dva write (isSet e 4) (e / 2 ^ 12 * 2 ^ 12) r v1 l

/-- The translation of a device virtual address in a context (R330 to R335). -/
def Dev.translate (ctx dva : Nat) (write : Bool) (v : MemView) (d : Dev) : Xlate × MemView × Dev :=
  if d.rdAt R.DMMU.CTX_ROOT_VALID 0 ctx = 0 then (.bad 5, v, d)
  else
    d.walk ctx (dva % 2 ^ 48) write (d.rdAt R.DMMU.CTX_ROOT_ROOT_TARGET 0 ctx == 1) (d.rdAt R.DMMU.CTX_ROOT_ADDR 0 ctx * 2 ^ 12) 3 v 4

/-- The write `[a, a + n)` lies wholly inside one active fence, or fences are not enforced (R337). -/
def Dev.fencePasses (d : Dev) (a n : Nat) : Bool :=
  !d.on R.FENCE.FENCE_CTRL_ENFORCE || d.host.fences.any fun f => decide (f.1 ≤ a ∧ a + n ≤ f.2)

/-! Accesses of at most one line. -/

/-- The outcome of an access to device virtual memory; a failed translation names the address that it was asked for. -/
inductive Dma where
  | done (data : Bytes)
  | xlate (reason dva : Nat)
  | poison (pa : Nat)
  | fence (addr : Nat)
  | hostError
  | wait
  deriving DecidableEq, Repr

/-- A read within one line by requester `req` of DDR5.  A read of host memory carries No Snoop as its leaf says (R317). -/
def Dev.readChunk (req ctx dva n : Nat) (v : MemView) (d : Dev) : Dma × MemView × Dev :=
  match d.translate ctx dva false v with
  | (.bad r, v1, d1) => (.xlate r dva, v1, d1)
  | (.wait, v1, d1) => (.wait, v1, d1)
  | (.ok true a attr, v1, d1) =>
    let d2 := d1.passing.emit (.hostRead a (attr % 2) n)
    match hostRead v1 a n with
    | some bs => (.done bs, v1, d2)
    | none => (.hostError, v1, d2)
  | (.ok false a _, v1, d1) =>
    if !d1.ddrServes a then (.wait, v1, d1.askChannel a)
    else
      match d1.passing.ddrRead req (a / 64) v1 with
      | (some bs, v2, d2) => (.done ((bs.drop (a % 64)).take n), v2, d2)
      | (none, v2, d2) => (.poison a, v2, d2)

/-- A checked write within one line: whether it goes to the host, its address there, its attributes and its bytes. -/
structure Target where
  host : Bool
  addr : Nat
  attr : Nat
  data : Bytes
  deriving DecidableEq, Repr

/-- Where a write within one line goes, once the DMMU, the fences and DDR5 let it. -/
def Dev.findTarget (ctx dva : Nat) (bs : Bytes) (v : MemView) (d : Dev) : (Dma ⊕ Target) × MemView × Dev :=
  match d.translate ctx dva true v with
  | (.bad r, v1, d1) => (.inl (.xlate r dva), v1, d1)
  | (.wait, v1, d1) => (.inl .wait, v1, d1)
  | (.ok true a attr, v1, d1) => (if d1.fencePasses a bs.length then .inr ⟨true, a, attr, bs⟩ else .inl (.fence a), v1, d1)
  | (.ok false a _, v1, d1) => (if !d1.ddrServes a then .inl .wait else .inr ⟨false, a, 0, bs⟩, v1, d1.askChannel a)

/-- A checked write is made. -/
def Dev.writeTarget (w : Target) (d : Dev) : Dev :=
  if w.host then d.passing.emit (.hostWrite w.addr w.attr w.data) else d.passing.ddrWrite w.addr w.data

/-- A write within one line. -/
def Dev.writeChunk (ctx dva : Nat) (bs : Bytes) (v : MemView) (d : Dev) : Dma × MemView × Dev :=
  match d.findTarget ctx dva bs v with
  | (.inl r, v1, d1) => (r, v1, d1)
  | (.inr w, v1, d1) => (.done [], v1, d1.writeTarget w)

/-- DMMU_FAULT of a requester that is no far port: 0 engine, 1 trace (R336). -/
def Dev.dmmuFault (ctx dva reason write who : Nat) (d : Dev) : Dev :=
  let d1 := (((d.wrAt R.DMMU.CTX_STATUS_FAULTED 0 ctx 1).wrAt R.DMMU.CTX_STATUS_REASON 0 ctx reason).wrAt
    R.DMMU.FAULT_DVA 0 ctx dva).bumpAt R.DMMU.CTX_STATUS_FAULT_COUNT 0 ctx
  (d1.unitFault 0xA2 0 0x101 (dva % 2 ^ 48 + ctx * 2 ^ 48 + reason * 2 ^ 54 + write * 2 ^ 57 + who * 2 ^ 58)).event 0x501

/-- What a refused host write leaves in the page FENCE, and its event (R340). -/
def Dev.fenceStatus (addr : Nat) (d : Dev) : Dev :=
  (((d.wr R.FENCE.FENCE_STATUS_VIOLATION 1).wr R.FENCE.VIOL_ADDR addr).bump R.FENCE.VIOL_COUNT).event 0x502

/-- DMA_FENCE (R340). -/
def Dev.fenceFault (ctx addr who : Nat) (d : Dev) : Dev :=
  (d.unitFault 0xA3 0 0x102 (addr / 2 ^ 12 * 2 ^ 12 + ctx + who * 2 ^ 8)).fenceStatus addr

/-- The report of a failed access of an engine or the trace unit. -/
def Dev.reportDma (ctx write who : Nat) (r : Dma) (d : Dev) : Dev :=
  match r with
  | .xlate x dva => d.dmmuFault ctx dva x write who
  | .fence a => d.fenceFault ctx a who
  | .done _ | .poison _ | .hostError | .wait => d

/-! Longer accesses. -/

/-- The parts of `[a, a + n)` that lie in one line each: address and length. -/
def lineChunks (a n : Nat) : Nat → List (Nat × Nat)
  | 0 => []
  | fuel + 1 => if n = 0 then [] else (a, min n (64 - a % 64)) :: lineChunks (a + min n (64 - a % 64)) (n - min n (64 - a % 64)) fuel

/-- `n` bytes read from device virtual memory, part by part; the parts read before a failure are lost with it. -/
def Dev.dmaRead (req ctx dva n : Nat) (v : MemView) (d : Dev) : Dma × MemView × Dev :=
  (lineChunks dva n (n / 64 + 2)).foldl
    (fun acc c =>
      match acc with
      | (.done bs, v, d) =>
        match d.readChunk req ctx c.1 c.2 v with
        | (.done more, v1, d1) => (.done (bs ++ more), v1, d1)
        | other => other
      | other => other)
    (.done [], v, d)

/-- Bytes written to device virtual memory, part by part in ascending order; the parts before a failure stay written. -/
def Dev.dmaWrite (ctx dva : Nat) (bs : Bytes) (v : MemView) (d : Dev) : Dma × MemView × Dev :=
  (lineChunks dva bs.length (bs.length / 64 + 2)).foldl
    (fun acc c =>
      match acc with
      | (.done _, v, d) => d.writeChunk ctx c.1 ((bs.drop (c.1 - dva)).take c.2) v
      | other => other)
    (.done [], v, d)

/-- The targets of a write to device virtual memory, part by part in ascending order, or the first failure. -/
def Dev.writeTargets (ctx dva : Nat) (bs : Bytes) (v : MemView) (d : Dev) : (Dma ⊕ List Target) × MemView × Dev :=
  (lineChunks dva bs.length (bs.length / 64 + 2)).foldl
    (fun acc c =>
      match acc with
      | (.inr l, v, d) =>
        match d.findTarget ctx c.1 ((bs.drop (c.1 - dva)).take c.2) v with
        | (.inl r, v1, d1) => (.inl r, v1, d1)
        | (.inr w, v1, d1) => (.inr (l ++ [w]), v1, d1)
      | other => other)
    (.inr [], v, d)

end Sys2Proof.Machine
end

