-- ==== Sys2Proof/Machine/Far.lean ====
section
/-! DEFINITION. The far-memory ports beyond the step (spec/05 R143 to R153): what a response or the DMMU's report does. -/

namespace Sys2Proof.Machine

/-- The device virtual address of a request: BASE + 64 × LINE of its window (R145). -/
def Dev.farDva (d : Dev) (g4 : Nat) (q : FarReq) : Nat := d.rdAt R.FAR.WIN_BASE g4 q.window * 2 ^ 16 + 64 * q.line

/-- An earlier request of the port to the same line is still unanswered, so this one cannot take effect yet (R147). -/
def Dev.farBehind (d : Dev) (g4 id : Nat) (q : FarReq) : Bool :=
  d.arr.farReq.any fun e => decide (e.1 / 2 ^ 32 = g4 ∧ e.1 % 2 ^ 32 < id ∧ d.farDva g4 e.2 = d.farDva g4 q) && !e.2.answered

/-- A response is held in the pending buffer, or discarded with an abandoned attempt; the record of the last boundary takes it too where the request
is older than the boundary (R143, R153). -/
def Dev.holdResponse (d : Dev) (key g4 : Nat) (q : FarReq) (e : FarEntry) : Dev :=
  if q.discard then { d with arr := { d.arr with farReq := SMap.del d.arr.farReq key } }
  else
    let slot := g4 * 16 + q.entry
    let sv := if (SMap.look d.tk.saved.farReq key).isSome then
        { d.tk.saved with
          farReq := SMap.ins d.tk.saved.farReq key { q with answered := true }
          farPend := SMap.set d.tk.saved.farPend slot e }
      else d.tk.saved
    { d with
      arr := { d.arr with farReq := SMap.ins d.arr.farReq key { q with answered := true }, farPend := SMap.set d.arr.farPend slot e }
      tk := { d.tk with saved := sv } }.rewait

/-- A request that failed leaves the port: it is not retried (R150). -/
def Dev.dropRequest (key : Nat) (d : Dev) : Dev :=
  { d with
    arr := { d.arr with farReq := SMap.del d.arr.farReq key }
    tk := { d.tk with saved := { d.tk.saved with farReq := SMap.del d.tk.saved.farReq key } } }

/-- A fault of a far request stops the array: at the step in execution, at once at a belay; with the array at rest it is only reported (R150). -/
def Dev.farStop (r : FRec) (d : Dev) : Dev :=
  if !d.running then d.report r true
  else if d.frozen then d.faultStop [r]
  else d.addFaults [r]

/-- FAR_TRANSLATION (R150, spec/06 R167). -/
def Dev.farTranslation (d : Dev) (g4 : Nat) (q : FarReq) : Dev :=
  let r := d.groupFault 0x18 3 4 (g4 * 4096) (d.farDva g4 q % 2 ^ 48 + q.window * 2 ^ 48 + q.step * 2 ^ 52 + q.write * 2 ^ 63)
  ((d.wrAt R.FAR.FAR_STATUS_XLATE_FAULT g4 0 1).wrAt R.FAR.FAULT_DVA g4 0 (d.farDva g4 q)).farStop r

/-- The response to request number `id` of far port `g4`, or the DMMU's report on it, arrives (R143, R147, R150, spec/12 R336, spec/13 R355).  While
DDR5 is not ready the request waits. -/
def Dev.farResponse (g4 id : Nat) (v : MemView) (d : Dev) : Dev :=
  let key := g4 * 2 ^ 32 + id
  match SMap.look d.arr.farReq key with
  | none => d
  | some q =>
    if q.answered || d.farBehind g4 id q then d
    else
      let ctx := d.rdAt R.FAR.FAR_CTRL_CTX g4 0
      let a := d.farDva g4 q
      let x := if q.write = 1 then d.dmaWrite ctx a (leBytes q.data 64) v else d.dmaRead 0 ctx a 64 v
      match x with
      | (.done bs, _, d1) => d1.holdResponse key g4 q (if q.write = 1 then ⟨2, 0⟩ else ⟨1, leNat bs⟩)
      | (.poison pa, _, d1) => ((d1.dropRequest key).farStop (d1.uncorrectable 0 pa)).rewait
      | (.wait, _, d1) => d1
      | (.fence f, _, d1) => (((d1.fenceStatus f).dropRequest key).farTranslation g4 q).rewait
      | (.xlate _ _, _, d1) | (.hostError, _, d1) => ((d1.dropRequest key).farTranslation g4 q).rewait

end Sys2Proof.Machine
end

