-- ==== Sys2Proof/Machine/Domains.lean ====
section
/-! DEFINITION. The endpoints of the on-chip network, and the power domains with their gateways (spec/15 R385, R386, R395 to R399). -/

namespace Sys2Proof.Machine

/-! Endpoints and routes (R385, R386). -/

/-- The network has a router at this node. -/
def Dev.nodeExists (d : Dev) (node : Nat) : Bool := decide (node % 16 < 8) && decide (node / 16 < (if d.part.dies = 4 then 8 else 12))

/-- The G4 whose router stands at a node of a compute row. -/
def nodeG4 (node : Nat) : Nat :=
  let x := node % 16
  let y := node / 16
  let die := x / 2 + (if 8 ≤ y then 4 else 0)
  die * 8 + 2 * (y % 4) + x % 2

/-- The domain that contains an endpoint; none where the address names no endpoint. -/
def Dev.endpointDomain (d : Dev) (ep : Nat) : Option Nat :=
  let node := ep / 4
  let port := ep % 4
  let x := node % 16
  let y := node / 16
  if !d.nodeExists node then none
  else if y < 4 ∨ 8 ≤ y then (if port < 3 then some (nodeG4 node) else none)
  else if y = 4 then (if port = 0 then some (0x48 + x) else none)
  else if (y = 5 ∨ y = 6) ∧ 2 ≤ port then some 0x59
  else if y = 5 then (if x = 3 ∨ x = 4 then some 0x40 else none)
  else if y = 6 then (if port = 0 ∧ x < 6 then some (if x = 3 then 0x58 else 0x70) else none)
  else if port = 0 then some (0x50 + x) else none

/-- The next router on the way from `node` to the router of endpoint `dst`: along X, then along Y. -/
def nextHop (node dst : Nat) : Nat :=
  let x := node % 16
  let y := node / 16
  let tx := dst / 4 % 16
  let ty := dst / 64
  if x < tx then node + 1 else if tx < x then node - 1 else if y < ty then node + 16 else if ty < y then node - 16 else node

/-! Domains (R395 to R400). -/

/-- The domains that exist. -/
def Dev.domainExists (d : Dev) (i : Nat) : Bool :=
  decide (i < d.g4s) || decide (i = 0x40) || (decide (0x48 ≤ i) && decide (i < 0x5A)) ||
  (decide (0x60 ≤ i) && decide (i < 0x60 + d.part.dies)) || (decide (0x68 ≤ i) && decide (i < 0x68 + d.part.dies)) || decide (i = 0x70)

/-- DOM_CTRL.REQ of a domain. -/
def Dev.domReq (d : Dev) (i : Nat) : Nat := if i < 64 then d.rdAt R.POWER.DOM_CTRL_REQ_G4 0 i else d.rdAt R.POWER.DOM_CTRL_REQ 0 (i - 64)

/-- Writing DOM_CTRL.REQ. -/
def Dev.setDomReq (i v : Nat) (d : Dev) : Dev :=
  if i < 64 then d.wrAt R.POWER.DOM_CTRL_REQ_G4 0 i v else d.wrAt R.POWER.DOM_CTRL_REQ 0 (i - 64) v

/-- DOM_STATUS.STATE of a domain takes a value. -/
def Dev.setDomState (i v : Nat) (d : Dev) : Dev := d.wrAt R.POWER.DOM_STATUS_STATE 0 i v

/-- A lane segment, or hub register, of G4 `g` that loses its value with the domain. -/
def segInG4 (g id : Nat) : Bool := (segUnit id == some g) && decide (segTy id ≠ 8 ∧ segTy id ≠ 0xF ∧ segTy id ≠ 9)

/-- The keys of G4 `g` in a store with `per` keys to a G4. -/
def dropG4 {α : Type} (m : SMap α) (g per : Nat) : SMap α := SMap.clear m (g * per) (g * per + per)

/-- What a G4 loses with its power (R395): its stores, port registers, lanes, mirror and probe lanes; its instruction columns stay. -/
def Dev.loseG4 (g : Nat) (d : Dev) : Dev :=
  { d with arr := { d.arr with
      stepRows := dropG4 d.arr.stepRows g 0x100000, stateRows := dropG4 d.arr.stateRows g 0x40000
      shadowRows := dropG4 d.arr.shadowRows g 0x40000, flagRows := dropG4 d.arr.flagRows g 0x40000
      badRows := dropG4 d.arr.badRows g 0x300000, wrote := dropG4 d.arr.wrote g 0x100000
      firstCommit := dropG4 d.arr.firstCommit g 0x200000, nbr := dropG4 d.arr.nbr g 4096
      probe := dropG4 d.arr.probe g 64
      portAddr := dropG4 d.arr.portAddr g 128, portWd := dropG4 d.arr.portWd g 128
      portRd := dropG4 d.arr.portRd g 128, acc := dropG4 d.arr.acc g 128
      coll := dropG4 d.arr.coll g 128
      farAddr := SMap.del d.arr.farAddr g, farWd := SMap.del d.arr.farWd g
      farPend := dropG4 d.arr.farPend g 16, farDel := dropG4 d.arr.farDel g 16
      mirror := dropG4 d.arr.mirror g 2048
      segs := d.arr.segs.filter fun e => !segInG4 g e.1 } }

/-- A G4 that wakes has its banks cleared (spec/05 R137). -/
def Dev.clearBanks (g : Nat) (d : Dev) : Dev :=
  let d1 := { d with arr := { d.arr with banks := SMap.clear d.arr.banks (g * 64 * 0x10000) ((g + 1) * 64 * 0x10000) } }
  (forUpto 64 (fun i d => d.wrAt R.BANK.BANK_STATUS_CLEARED (g * 64 + i) 0 1) d1).event (0x080 + g)

/-- The lane record of the halting boundary goes back into the segment registers and the mirror of a G4 (spec/03 R90). -/
def Dev.restoreLanes (g : Nat) (d : Dev) : Dev :=
  match d.net.savedLanes with
  | none => d
  | some r =>
    let mine := r.segs.filter fun e => segUnit e.1 == some g
    { d with arr := { d.arr with
        segs := mine.foldl (fun m e => SMap.set m e.1 e.2) d.arr.segs
        mirror := SMap.graft d.arr.mirror r.mirror (g * 2048) (g * 2048 + 2048) } }

/-- A DDR5 channel enters self-refresh (spec/13 R360). -/
def Dev.sleepChannel (c : Nat) (d : Dev) : Dev :=
  if d.rdAt R.DDRCH.CH_STATUS_STATE c 0 = 3 then
    { d with ddr := { d.ddr with srSince := SMap.set d.ddr.srSince c (d.mono + 1) } }.wrAt R.DDRCH.CH_STATUS_STATE c 0 6
  else d

/-- A DDR5 channel leaves self-refresh, its contents kept. -/
def Dev.wakeChannel (c : Nat) (d : Dev) : Dev :=
  if d.rdAt R.DDRCH.CH_STATUS_STATE c 0 = 6 then
    let ns := (d.mono + 1 - SMap.get d.ddr.srSince c) / 2 ^ 32
    ({ d with ddr := { d.ddr with srSince := SMap.set d.ddr.srSince c 0 } }.wrAt R.DDRCH.CH_STATUS_STATE c 0 3).count (0x40 + c) 9 ns
  else d

/-- The edge fabric loses its macrocells, memories and FIFOs; its configuration stays (R401, R405). -/
def Dev.loseEdge (d : Dev) : Dev :=
  { d.withdrawRelease with edge := { d.withdrawRelease.edge with
      bmem := [], mac := [], longLines := [], memRead := [], coll := [], fifo := [], fifoWord := [], pre := [], rose := 0, acted := [], popDue := [] } }

/-- What a domain loses at OFF. -/
def Dev.domainLoses (i : Nat) (d : Dev) : Dev :=
  if i < 64 then d.loseG4 i else if 0x48 ≤ i ∧ i < 0x50 then d.sleepChannel (i - 0x48) else if i = 0x58 then d.loseEdge else d

/-- A domain starts: at a request, or at a packet that wakes it (R396, R399); that of a DDR5 channel without DIMMs stays off. -/
def Dev.startDomain (i : Nat) (d : Dev) : Dev := if d.emptyChannel i then d else (d.setDomState i 1).wrAt R.POWER.DOM_STATUS_PENDING 0 i 0

/-- A transaction that the domain issued or accepted is still outstanding (R397). -/
def Dev.domBusy (d : Dev) (i : Nat) : Bool :=
  if d.on R.DBG.BAP_STATUS_BUSY && !d.on R.DBG.BAP_CTRL_SPACE && d.offsetDomain d.bapOff == some i then true
  else if i < 64 then
    (d.arr.farReq.any fun e => decide (e.1 / 2 ^ 32 = i) && !e.2.answered) ||
    (d.eng.items.any fun it => decide (it.stand = .running) && it.banks.any fun b => decide (b / 64 = i))
  else if i = 0x59 then d.eng.items.any fun it => decide (it.stand = .running) || decide (it.stand = .prefetch)
  else false

/-- The reason to refuse a power-down, if there is one (R397); the lowest where several hold. -/
def Dev.downRefused (d : Dev) (i : Nat) : Nat :=
  if d.domBusy i then 1
  else if i < 64 ∧ d.rdAt R.CHECK.BUDGET 0 i ≠ 0 ∧ d.running then 2
  else if i = 0x58 ∧ 1 ≤ d.rd R.EDGE.EDGE_STATUS_RELEASE_STAGE then 3
  else if i < 64 ∨ (0x48 ≤ i ∧ i < 0x50) ∨ i = 0x58 ∨ i = 0x59 then 0 else 4

/-- A domain that is ON is asked to go off (R397, R398). -/
def Dev.stopDomain (i : Nat) (d : Dev) : Dev :=
  let r := d.downRefused i
  if r = 0 then
    { d with net := { d.net with offAt := SMap.set d.net.offAt i (d.mono + 1), ponr := SMap.set d.net.ponr i 0 } }.setDomState i 3
  else (d.wrAt R.POWER.DOM_STATUS_REFUSED 0 i 1).wrAt R.POWER.DOM_STATUS_REFUSE_REASON 0 i r

/-- The enable machine (R396): a request to go on or off. -/
def Dev.domRequest (i : Nat) (on : Bool) (d : Dev) : Dev :=
  let s := d.domState i
  if s = 0 then (if on then d.startDomain i else d)
  else if s = 1 then d.wrAt R.POWER.DOM_STATUS_PENDING 0 i (if on then 0 else 2)
  else if s = 2 then (if on then d else d.stopDomain i)
  else d.wrAt R.POWER.DOM_STATUS_PENDING 0 i (if on then 1 else 0)

/-- A write of DOM_CTRL: WAKE_EN, and REQ as a request. -/
def Dev.domCtrlWrite (i w : Nat) (d : Dev) : Dev :=
  if d.domainExists i then ((d.wrAt R.POWER.DOM_CTRL_WAKE_EN 0 i (w / 2)).setDomReq i w).domRequest i (w % 2 == 1) else d

/-- NOC_DOMAIN_OFF (R399): counted always, recorded at most once per domain in a millisecond. -/
def Dev.domainOffFault (i src op : Nat) (d : Dev) : Dev :=
  let d1 := (d.bump R.NOC.DOMAIN_OFF_COUNT).count 0xB1 3 1
  let last := SMap.get d1.net.offRec i
  if last = 0 ∨ last + 1000 * usec ≤ d1.mono + 1 then
    { d1 with net := { d1.net with offRec := SMap.set d1.net.offRec i (d1.mono + 1) } }.unitFault 0xA1 0 0x103 (i + src * 2 ^ 8 + op * 2 ^ 18)
  else d1

/-- What a packet finds at the gateway of a domain. -/
inductive Gate where
  | pass | refused | held
  deriving DecidableEq, Repr

/-- A packet from endpoint `src` with opcode `op` and WAKE arrives at the gateway of domain `i` (R398, R399). -/
def Dev.gateway (i src op : Nat) (wake : Bool) (d : Dev) : Gate × Dev :=
  let s := d.domState i
  if s = 2 then (.pass, d)
  else if s = 1 then (.held, d.wrAt R.POWER.DOM_STATUS_HELD 0 i 1)
  else if s = 3 then
    if SMap.get d.net.ponr i = 1 then (.held, d.wrAt R.POWER.DOM_STATUS_HELD 0 i 1)
    else
      let d1 := (((d.setDomState i 2).wrAt R.POWER.DOM_STATUS_PENDING 0 i 0).setDomReq i 1).wrAt R.POWER.DOM_STATUS_DOWN_ABORTED 0 i 1
      (.pass, (d1.event 0x711).count 0xB1 7 1)
  else if (wake || d.rdAt R.POWER.DOM_CTRL_WAKE_EN 0 i == 1) && !d.emptyChannel i then
    (.held, ((((d.startDomain i).setDomReq i 1).wrAt R.POWER.DOM_STATUS_WOKEN 0 i 1).wrAt R.POWER.DOM_STATUS_HELD 0 i 1).count 0xB1 6 1)
  else (.refused, d.domainOffFault i src op)

/-- Every DDR5 channel in self-refresh that a request has reached is asked to wake (spec/13 R360). -/
def Dev.wakeDdr (src : Nat) (wake : Bool) (d : Dev) : Dev :=
  forAll d.ddr.asked (fun c d => (d.gateway (0x48 + c) src 0 wake).2) { d with ddr := { d.ddr with asked := [] } }

/-- Isolation is asserted, 2 µs after an accepted power-down (R398). -/
def Dev.pointOfNoReturn (i t : Nat) (d : Dev) : Dev :=
  let d1 := d.toTime t
  if d1.domState i = 3 ∧ SMap.get d1.net.ponr i = 0 ∧ SMap.get d1.net.offAt i + 2 * usec ≤ d1.mono + 1 then
    { d1 with net := { d1.net with ponr := SMap.set d1.net.ponr i 1 } }
  else d

end Sys2Proof.Machine
end

