-- ==== Sys2Proof/Machine/Router.lean ====
section
/-! DEFINITION. The routers of the on-chip network: their buffers, credits and grants, and what becomes of a packet (spec/15 R387 to R393). -/

namespace Sys2Proof.Machine

/-! Packets (R388, R389, R392, R393). -/

/-- An ERR_RSP to a request with this header. -/
def errRsp (h status : Nat) : Nat :=
  fieldAt h 10 10 + fieldAt h 0 10 * 2 ^ 10 + 1 * 2 ^ 20 + 6 * 2 ^ 22 + fieldAt h 32 16 * 2 ^ 32 + status * 2 ^ 48

/-- A request is refused: a non-posted one is answered, any other packet is discarded. -/
def Dev.refusePacket (node h status : Nat) (d : Dev) : Dev :=
  if fieldAt h 20 2 = 0 ∧ !isSet h 30 then d.emit (.flit node node (errRsp h status)) else d

/-! Routers (R387, R390).  Packets stand in the input buffers until an output grants them; the flits of a packet follow its head. -/

/-- The VC of a packet: 0 REQ, 1 RSP, 2 MSG, 3 TRACE. -/
def packetVc (h : Nat) : Nat := fieldAt h 20 2

/-- The output of the router of `node` that a packet for endpoint `dst` takes: a local port, 4 towards higher Y, 5 towards lower Y, 6 towards higher X, 7 towards lower X. -/
def outputOf (node dst : Nat) : Nat :=
  let n := nextHop node dst
  if n = node then dst % 4 else if n = node + 16 then 4 else if n + 16 = node then 5 else if n = node + 1 then 6 else 7

/-- The router upstream of an input; none for a local port.  PRESUMED: north is towards higher Y and east towards higher X. -/
def upstreamOf (node input : Nat) : Option Nat :=
  if input = 4 then some (node + 16) else if input = 5 then some (node - 16) else if input = 6 then some (node + 1)
  else if input = 7 then some (node - 1) else none

/-- Two packets share an input buffer: router, input and VC. -/
def Queued.sameBuffer (a b : Queued) : Bool := decide (a.node = b.node ∧ a.input = b.input ∧ packetVc a.header = packetVc b.header)

/-- The output that a packet takes at its router. -/
def Queued.output (p : Queued) : Nat := outputOf p.node (fieldAt p.header 0 10)

/-- A credit of the input buffer of a VC is left: it holds fewer than 8 flits (R387). -/
def Dev.credit (d : Dev) (node input vc : Nat) : Bool :=
  decide (((d.net.queued.filter fun p => decide (p.node = node ∧ p.input = input ∧ packetVc p.header = vc)).map (·.flits)).sum < 8)

/-- A packet that has passed its head through an output has flits left for it, so that no other may begin there. -/
def Dev.outputTaken (d : Dev) (node out : Nat) : Bool := d.net.queued.any fun p => p.gone && decide (p.node = node ∧ p.output = out)

/-- The packet is the oldest of its buffer. -/
def Dev.atHead (d : Dev) (p : Queued) : Bool :=
  match d.net.queued.find? fun q => q.sameBuffer p with
  | some q => decide (q.id = p.id)
  | none => false

/-- The packet has waited 16 cycles of the NoC clock, in REQ or TRACE. -/
def Dev.overdue (d : Dev) (p : Queued) : Bool := (packetVc p.header == 0 || packetVc p.header == 3) && decide (p.since + 8 * 2 ^ 32 ≤ d.mono)

/-- The rank of a VC at an output, the lowest first: RSP, MSG, REQ, TRACE. -/
def vcRank (vc : Nat) : Nat := if vc = 1 then 0 else if vc = 2 then 1 else if vc = 0 then 2 else 3

/-- Where the input last granted is kept. -/
def grantKey (node out vc : Nat) : Nat := (node * 8 + out) * 4 + vc

/-- The place of a packet in the order of grants at its output: VC, then the inputs round robin from the one after the last. -/
def Dev.grantRank (d : Dev) (p : Queued) : Nat :=
  let last := SMap.get d.net.granted (grantKey p.node p.output (packetVc p.header))
  vcRank (packetVc p.header) * 8 + (8 + p.input - last) % 8

/-- The packet that an output grants (R390), among those that are ready there and have a credit; the overdue ones first. -/
def Dev.grant (d : Dev) (node out : Nat) (ready : Queued → Bool) : Option Queued :=
  if d.outputTaken node out then none
  else
    let all := d.net.queued.filter fun p => decide (p.node = node ∧ p.output = out ∧ 0 < p.flits) && !p.gone && d.atHead p && ready p
    let late := all.filter d.overdue
    match if late = [] then all else late with
    | [] => none
    | p :: l => some (l.foldl (fun a b => if d.grantRank b < d.grantRank a then b else a) p)

/-- The entry of a packet at a router changes. -/
def Dev.setQueued (id node : Nat) (f : Queued → Queued) (d : Dev) : Dev :=
  { d with net := { d.net with queued := d.net.queued.map fun p => if p.id = id ∧ p.node = node then f p else p } }

/-- A packet is granted its output: its head leaves the router. -/
def Dev.grantOut (p : Queued) (d : Dev) : Dev :=
  let d1 := d.setQueued p.id p.node fun q => { q with gone := true, flits := q.flits - 1 }
  { d1 with net := { d1.net with granted := SMap.set d1.net.granted (grantKey p.node p.output (packetVc p.header)) (p.input + 1) } }.count 0xB1 0 (1 + fieldAt p.header 26 3)

/-- A flit of packet `p` comes into its buffer, from the router upstream that its head has left, or from the endpoint that sends it. -/
def Dev.pullFlit (p : Queued) (d : Dev) : Dev :=
  if p.due = 0 || !d.credit p.node p.input (packetVc p.header) then d
  else
    let take (d : Dev) : Dev := d.setQueued p.id p.node fun q => { q with flits := q.flits + 1, due := q.due - 1 }
    match d.net.queued.find? fun q => decide (q.id = p.id ∧ some q.node = upstreamOf p.node p.input) with
    | none => take d
    | some u => if u.flits = 0 then d else take (d.setQueued u.id u.node fun q => { q with flits := q.flits - 1 })

/-- Flits move on by one hop: into the buffers, and out of those whose packet is passing to an endpoint; packets that have passed whole are gone. -/
def Dev.moveFlits (d : Dev) : Dev :=
  let d1 := forAll d.net.queued (fun p d =>
    match d.net.queued.find? fun q => decide (q.id = p.id ∧ q.node = p.node) with
    | some q => d.pullFlit q
    | none => d) d
  let sunk := d1.net.queued.map fun p => if p.gone ∧ p.output < 4 then { p with flits := 0 } else p
  { d1 with net := { d1.net with queued := sunk.filter fun p => !(p.gone && p.flits == 0 && p.due == 0) } }

/-- The gateway of a domain holds a packet of the VC already: further ones wait upstream (R398). -/
def Dev.gateFull (d : Dev) (i vc : Nat) : Bool := d.net.gated.any fun g => decide (g.1 = i ∧ packetVc g.2.2 = vc)

/-- A packet reaches the gateway of its endpoint: it passes, is held there, or is refused (R398, R399). -/
def Dev.enterGate (i node h : Nat) (d : Dev) : Dev :=
  match d.gateway i (fieldAt h 10 10) (fieldAt h 22 4) (isSet h 29) with
  | (.pass, d1) => d1.emit (.flit node node h)
  | (.held, d1) => { d1 with net := { d1.net with gated := d1.net.gated ++ [(i, node, h)] } }
  | (.refused, d1) => d1.refusePacket node h 1

/-- The next packet that a local port of some router can pass to its gateway. -/
def Dev.nextLocal (d : Dev) : Option (Nat × Queued) :=
  d.net.queued.findSome? fun p =>
    if p.gone || decide (4 ≤ p.output) then none
    else
      match d.endpointDomain (fieldAt p.header 0 10) with
      | none => none
      | some i => (d.grant p.node p.output fun q => !d.gateFull i (packetVc q.header)).map fun q => (i, q)

/-- An error of one bit is corrected: it is counted and reported (R392). -/
def Dev.correctFlit (d : Dev) : Dev := ((d.bump R.NOC.CORR_COUNT).count 0xB1 1 1).event 0x700

/-- The router of `node` corrects at its input (R392): its mode is per hop.  In the other mode it checks, and sends the flit on as it came. -/
def Dev.corrects (d : Dev) (node : Nat) : Bool := SMap.get d.net.mode node == 0

/-- The network settles: flits follow their heads, and packets at their last router pass to their gateways, until nothing more moves. -/
def Dev.settleNet (d : Dev) : Nat → Dev
  | 0 => d
  | fuel + 1 =>
    let d1 := d.moveFlits
    match d1.nextLocal with
    | some (i, p) => (((d1.grantOut p).when p.err Dev.correctFlit).enterGate i p.node p.header).settleNet fuel
    | none => if d1.net.queued = d.net.queued then d1 else d1.settleNet fuel

/-- Enough rounds for every flit in the network to pass the routers that hold parts of its packet. -/
def Dev.settled (d : Dev) : Dev := d.settleNet (8 * d.net.queued.length + 8)

/-- The domain of a gateway is on, or its power-down aborted: the packets that it holds are delivered in order of arrival (R400). -/
def Dev.deliverGated (i : Nat) (d : Dev) : Dev :=
  let mine := d.net.gated.filter fun g => decide (g.1 = i)
  (forAll mine (fun g (d : Dev) => d.emit (.flit g.2.1 g.2.1 g.2.2)) { d with net := { d.net with gated := d.net.gated.filter fun g => decide (g.1 ≠ i) } }).settled

/-- Where an arriving packet comes from: an endpoint or a part of the network that holds none of it, a router that grants it its output, or a router that does not yet. -/
inductive Source where
  | outside | router (p : Queued) | waits
  deriving DecidableEq, Repr

/-- The source of the packet with header `h` that arrives at an input of the router of `node`. -/
def Dev.sourceOf (d : Dev) (node input h : Nat) : Source :=
  match upstreamOf node input with
  | none => .outside
  | some u =>
    if d.net.queued.any fun p => decide (p.node = u ∧ p.header = h ∧ nextHop u (fieldAt h 0 10) = node) && !p.gone then
      match d.grant u (outputOf u (fieldAt h 0 10)) fun p => d.credit node input (packetVc p.header) with
      | some p => if p.header = h then .router p else .waits
      | none => .waits
    else .outside

/-- A packet that is discarded at a router leaves the routers upstream too. -/
def Dev.dropPacket (src : Source) (d : Dev) : Dev :=
  match src with
  | .router p => { d with net := { d.net with queued := d.net.queued.filter fun q => decide (q.id ≠ p.id) } }.settled
  | .outside | .waits => d

/-- A packet brings an error from the router upstream. -/
def Source.err : Source → Bool
  | .router p => p.err
  | .outside | .waits => false

/-- A packet enters the input buffer of a router: its head, and behind it the flits for which there is room. -/
def Dev.enqueue (node input h : Nat) (err : Bool) (src : Source) (d : Dev) : Dev :=
  let q (id : Nat) : Queued := ⟨node, input, id, h, 1, fieldAt h 26 3, d.mono, false, err⟩
  match src with
  | .router p =>
    let d1 := d.grantOut p
    { (d1.emit (.flit p.node node h)) with net := { d1.net with queued := d1.net.queued ++ [q p.id] } }.settled
  | .outside | .waits =>
    { d with net := { d.net with queued := d.net.queued ++ [q d.net.nextPacket], nextPacket := d.net.nextPacket + 1 } }.settled

/-- The router takes no packet now: it is being drained (R394), the buffer has no credit (R387), or the output upstream is not granted to this packet (R390). -/
def Dev.mustWait (d : Dev) (node input h : Nat) : Bool :=
  d.net.drainLeft.head? == some node || !d.credit node input (packetVc h) || d.sourceOf node input h == .waits

/-- A packet arrives at the router of `node` on an input, with header `h`; `err` 0 its codewords are clean, 1 one has an error
that can be corrected, 2 one has an error that cannot.  The router takes it into its
buffer, and passes it to the gateway of its endpoint where it stands there. -/
def Dev.packetArrival (node input h err t : Nat) (d0 : Dev) : Dev :=
  let d := d0.toTime t
  if !d.nodeExists node then d0
  else if d.mustWait node (input % 8) h then d.emit .wait
  else
    let src := d.sourceOf node (input % 8) h
    if err = 2 then ((d.dropPacket src).unitFault 0xA0 4 0x103 (node + input % 8 * 2 ^ 8)).count 0xB1 2 1
    else
      let wrong := err == 1 || src.err
      let d1 := d.when (wrong && d.corrects node) Dev.correctFlit
      if (d1.endpointDomain (fieldAt h 0 10)).isNone ∨ 8 ≤ fieldAt h 22 4 then
        (((d1.dropPacket src).bump R.NOC.DECODE_COUNT).count 0xB1 4 1).refusePacket node h 2
      else d1.enqueue node (input % 8) h (wrong && !d.corrects node) src

end Sys2Proof.Machine
end

