-- ==== Sys2Proof/Machine/Net.lean ====
section
/-! DEFINITION. Power-up and power-down of domains (spec/15 R398, R400), the reconfiguration of routers (R394), the device power states (R401 to R405), and the power limiter. -/

namespace Sys2Proof.Machine

/-! Domains off and on (R398, R400). -/

/-- The packets held for a domain that has gone off meet it as any packet does (R398): they wake it, or are refused. -/
def Dev.meetOff (i : Nat) (d : Dev) : Dev :=
  forAll (d.net.held.filter fun h => decide (h.dom = i)) (fun h d =>
    match d.gateway i 0x14C (2 * bit h.write) false with
    | (.refused, d1) =>
      let d2 := { d1 with net := { d1.net with held := d1.net.held.erase h } }
      if h.tap then { d2 with dbg := { d2.dbg with tapStatus := 0, tapData := 0 } } else d2
    | (.pass, d1) | (.held, d1) => d1) (d.wrAt R.POWER.DOM_STATUS_HELD 0 i 0)

/-- The packets that the gateway of a domain holds meet it as OFF, in order of arrival (R398). -/
def Dev.gatedMeetOff (i : Nat) (d : Dev) : Dev :=
  let d1 := { d with net := { d.net with gated := d.net.gated.filter fun g => decide (g.1 ≠ i) } }
  (forAll (d.net.gated.filter fun g => decide (g.1 = i)) (fun g d => d.enterGate i g.2.1 g.2.2) d1).settled

/-- The power switches are open (R398): STATE becomes OFF. -/
def Dev.domainOff (i t : Nat) (d : Dev) : Dev :=
  let d1 := d.toTime t
  if d1.domState i = 3 ∧ SMap.get d1.net.ponr i = 1 then
    let d2 := { d1 with net := { d1.net with ponr := SMap.set d1.net.ponr i 0, offAt := SMap.set d1.net.offAt i 0 } }
    let d3 := ((((d2.setDomState i 0).domainLoses i).event 0x710).meetOff i).gatedMeetOff i
    if d3.domState i = 0 ∧ d3.rdAt R.POWER.DOM_STATUS_PENDING 0 i = 1 then d3.startDomain i else d3
  else d

/-- Routers are to be drained, after those that are waiting for it. -/
def Dev.drainNodes (nodes : List Nat) (d : Dev) : Dev :=
  let left := d.net.drainLeft ++ nodes
  if left = [] then d
  else
    ({ d with net := { d.net with drainLeft := left, newMode := d.rd R.NOC.NOC_CTRL_CHECK_MODE } }.wr R.NOC.NOC_STATUS_RECONFIG 1).wr
      R.NOC.NOC_STATUS_DRAIN_NODE (left.headD 0)

/-- The routers of compute die `k`. -/
def Dev.dieNodes (d : Dev) (k : Nat) : List Nat :=
  (List.range 256).filter fun n => d.nodeExists n && decide (n / 16 < 4 ∨ 8 ≤ n / 16) && decide (nodeG4 n / 8 = k)

/-- A starting domain is ON (R400): a G4 with its banks cleared and, after BIVOUAC, its lanes as recorded; a DDR5 channel out of self-refresh;
the routers of a compute die reconfigured (R394). -/
def Dev.domainUp (i : Nat) (d : Dev) : Dev :=
  let d1 := d.setDomState i 2
  let d2 := if i < 64 then (d1.clearBanks i).restoreLanes i else if 0x48 ≤ i ∧ i < 0x50 then d1.wakeChannel (i - 0x48)
    else if 0x60 ≤ i ∧ i < 0x68 then d1.drainNodes (d1.dieNodes (i - 0x60)) else d1
  let d3 := { d2 with net := { d2.net with back := d2.net.back.filter fun j => decide (j ≠ i) } }.deliverGated i
  if d3.rdAt R.POWER.DOM_STATUS_PENDING 0 i = 2 then (d3.wrAt R.POWER.DOM_STATUS_PENDING 0 i 0).stopDomain i else d3

/-! Reconfiguration (R394). -/

/-- A write of NOC_CTRL: a change of CHECK_MODE drains the routers one after another. -/
def Dev.checkModeWrite (w : Nat) (d : Dev) : Dev :=
  if d.on R.NOC.NOC_STATUS_RECONFIG then d.wr R.NOC.NOC_STATUS_WRITE_REFUSED 1
  else if w % 2 = d.rd R.NOC.NOC_CTRL_CHECK_MODE then d
  else (d.wr R.NOC.NOC_CTRL_CHECK_MODE w).drainNodes ((List.range 256).filter d.nodeExists)

/-- The draining router is empty: it takes its configuration and resumes; the next one drains. -/
def Dev.routerDrained (t : Nat) (d : Dev) : Dev :=
  let d1 := d.toTime t
  match d1.net.drainLeft with
  | [] => d
  | n :: rest =>
    if d1.net.queued.any fun p => decide (p.node = n) then d1
    else
    let d2 := { d1 with net := { d1.net with drainLeft := rest, mode := SMap.set d1.net.mode n d1.net.newMode } }.count 0xB1 5 1
    if rest = [] then ((d2.wr R.NOC.NOC_STATUS_RECONFIG 0).wr R.NOC.NOC_STATUS_DRAIN_NODE 0).event 0x701
    else d2.wr R.NOC.NOC_STATUS_DRAIN_NODE (rest.headD 0)

/-! Device power states (R401 to R405, spec/16 R421, R422, spec/17 R463). -/

/-- PWR_STATUS.STATE. -/
def Dev.powerState (d : Dev) : Nat := d.rd R.POWER.PWR_STATUS_STATE

/-- The trace unit writes POWER, flushes and stops, or goes on under an emulated entry (spec/17 R463). -/
def Dev.traceSleep (state : Nat) (emulated : Bool) (d : Dev) : Dev :=
  if !d.on R.TRACE.TRACE_STATUS_RUNNING then d
  else if emulated then d.tracePower state 0 1
  else ((d.tracePower state 0 0).traceFlush).wr R.TRACE.TRACE_STATUS_POWER_STOPPED 1

/-- On exit it writes POWER with EXIT, then TS, then a cairn, and resumes. -/
def Dev.traceWake (d : Dev) : Dev :=
  if !d.on R.TRACE.TRACE_STATUS_RUNNING then d
  else
    let d1 := ((d.wr R.TRACE.TRACE_STATUS_POWER_STOPPED 0).tracePower 0 1 (bit (d.on R.POWER.PWR_STATUS_EMULATED))).traceTs
    d1.traceCairn (d1.rd R.TAKE.TAKE_NUMBER)

/-- The device is in BIVOUAC, and not in an emulated one. -/
def Dev.bivouacked (d : Dev) : Bool := decide (d.powerState = 2) && !d.on R.POWER.PWR_STATUS_EMULATED

/-- An entry ends in state `s`. -/
def Dev.powerEntered (s : Nat) (emulated : Bool) (d : Dev) : Dev :=
  let d1 := ((d.wr R.POWER.PWR_STATUS_STATE s).wr R.POWER.PWR_STATUS_TRANSITION 0).wr R.POWER.PWR_STATUS_WAIT_PEER 0
  ({ d1 with net := { d1.net with entryStep := 0 } }.wr R.POWER.PWR_STATUS_EMULATED (bit emulated)).event 0x720

/-- PARK, or an emulated entry: the array has halted, the trace unit and the pins follow (R401, R421).  An entry into BIVOUAC past step 5 is completed first (R404). -/
def Dev.powerDue (d : Dev) : Dev :=
  let s := d.rd R.POWER.PWR_CTRL_TARGET
  if d.on R.POWER.PWR_STATUS_TRANSITION && !d.running && decide (d.net.entryStep ≠ 3) && (s == 1 || (s == 2 && d.net.attachNow)) && d.net.back == [] then
    ((d.traceSleep s d.net.attachNow).pinsSleep true).powerEntered s d.net.attachNow
  else d

/-- An entry begins (R403, R404). -/
def Dev.beginEntry (d : Dev) : Dev :=
  let d1 := { d with net := { d.net with attachNow := d.on R.DBG.DBG_STATUS_ATTACHED } }.wr R.POWER.PWR_STATUS_TRANSITION 1
  let d2 := if d1.running then (d1.wr R.POWER.PWR_STATUS_HALTED_FOR_POWER 1).requestHalt 4 d1.position else d1
  d2.powerDue

/-- An exit ends in RUN; what is asked for by then begins at once. -/
def Dev.exitEnds (d : Dev) : Dev := if d.rd R.POWER.PWR_CTRL_TARGET = 0 then d else d.beginEntry

/-- The lane record kept for the exit is no longer needed. -/
def Dev.dropSavedLanes (d : Dev) : Dev := { d with net := { d.net with savedLanes := none } }

/-- The exit is complete: every domain that BIVOUAC took off is back (R405). -/
def Dev.exitDone (d : Dev) : Dev :=
  if d.on R.POWER.PWR_STATUS_TRANSITION && d.bivouacked && d.net.back == [] then
    let d1 := (d.traceWake).pinsSleep false
    let d2 := ((d1.wr R.POWER.PWR_STATUS_STATE 0).wr R.POWER.PWR_STATUS_TRANSITION 0).event 0x720
    d2.dropSavedLanes.exitEnds
  else d

/-- PARK or an emulated state ends at once. -/
def Dev.leaveLight (d : Dev) : Dev :=
  let d1 := (d.traceWake).pinsSleep false
  (((d1.wr R.POWER.PWR_STATUS_STATE 0).wr R.POWER.PWR_STATUS_EMULATED 0).wr R.POWER.PWR_STATUS_TRANSITION 0).event 0x720

/-- The way out of BIVOUAC begins (R405): the domains start in the reverse order; ports that no sleeping peer holds go back to full rate. -/
def Dev.leaveBivouac (d : Dev) : Dev :=
  let back := ((List.range 0x71).filter fun i => d.domainExists i && decide (d.domState i = 0) && d.net.back.contains i).reverse
  let d1 := { d with net := { d.net with back := back } }.wr R.POWER.PWR_STATUS_TRANSITION 1
  let d2 := forAll back (fun i d => d.startDomain i) d1
  let d3 := forUpto 8 (fun p d =>
    if d.portState p = 7 then (d.setPort p fun q => { q with fullReq := !q.peerLow }).queueMessage p 0x32 [] else d) d2
  d3.exitDone

/-- An entry that has not reached step 6 is cancelled: every block stays as it stands (R404).  One that was completing an emulated state leaves that state. -/
def Dev.cancelEntry (d : Dev) : Dev :=
  let d1 := { (d.wr R.POWER.PWR_STATUS_TRANSITION 0).wr R.POWER.PWR_STATUS_WAIT_PEER 0 with net := { d.net with entryStep := 0 } }
  if d.powerState = 0 then d1 else d1.leaveLight

/-- TARGET takes a value (R402 to R405). -/
def Dev.setTarget (v : Nat) (d : Dev) : Dev :=
  let d1 := d.wr R.POWER.PWR_CTRL_TARGET v
  if d.on R.POWER.PWR_STATUS_TRANSITION then (if d.bivouacked ∨ v ≠ 0 ∨ d.net.entryStep = 3 then d1 else d1.cancelEntry)
  else if v = d.powerState then d1
  else if d.bivouacked then d1.leaveBivouac
  else if v = 0 then d1.leaveLight
  else d1.beginEntry

/-- A write of PWR_CTRL; TARGET = 3 is dropped. -/
def Dev.targetWrite (w : Nat) (d : Dev) : Dev :=
  if w % 4 = 3 then d.wr R.POWER.PWR_STATUS_WRITE_REFUSED 1 else d.setTarget (w % 4)

/-- PF0 changes its D-state: D3hot writes BIVOUAC to TARGET, D0 writes RUN (R402). -/
def Dev.dStateChange (s : Nat) (d : Dev) : Dev :=
  let d1 := { d with host := { d.host with dstate := s } }
  if s = 3 then d1.setTarget 2 else if s = 0 then d1.setTarget 0 else d

/-- Items in prefetch slots go back to the heads of their ready queues; running ones go on to a restart point or their end (R404). -/
def Dev.emptyPrefetch (d : Dev) : Dev := forAll (d.eng.items.filter fun i => decide (i.stand = .prefetch)) (fun i d => d.headReady i.id) d

/-- No item runs, and no completion is left to write in a queue that has room (R404). -/
def Dev.itemsRest (d : Dev) : Bool :=
  !d.eng.items.any fun i => decide (i.stand = .running) || (decide (i.stand = .finished) &&
    decide ((2 ^ 32 + d.rdAt R.ENGQ.CQ_TAIL i.queue 0 - d.rdAt R.ENGQ.CQ_HEAD i.queue 0) % 2 ^ 32 < 2 ^ d.rdAt R.ENGQ.Q_CTRL_SIZE_LOG2 i.queue 0))

/-- Step 2, and the start of step 3: the trace unit writes its POWER packet and stops, fetch and dispatch end. -/
def Dev.stopTrace (d : Dev) : Dev :=
  let d1 := (d.traceSleep 2 false).emptyPrefetch
  { d1 with net := { d1.net with entryStep := 1 } }

/-- Step 5: LOWRATE_REQ to the peers. -/
def Dev.askPeers (d : Dev) : Dev :=
  let d1 := forUpto 8 (fun p d =>
    if d.portState p = 6 then (d.setPort p fun q => { q with lowReq := true }).queueMessage p 0x30 []
    else if d.portState p = 7 then d.queueMessage p 0x30 [] else d) d
  { d1 with net := { d1.net with entryStep := 2 } }

/-- Steps 6 and 7: the pins enter SLEEP, the lane record of the halting boundary is kept, the routers of the compute dies drain. -/
def Dev.drainDies (d : Dev) : Dev :=
  let d1 := (d.pinsSleep true).wr R.POWER.PWR_STATUS_WAIT_PEER 0
  { d1 with net := { d1.net with savedLanes := some d1.tk.saved, entryStep := 3 } }.drainNodes ((List.range d.part.dies).flatMap d.dieNodes)

/-- Steps 7 to 9: the domains, DDR5, STATE; a TARGET that has been written since step 6 is served next. -/
def Dev.finishBivouac (d : Dev) : Dev :=
  let gone := (List.range 0x71).filter fun i =>
    d.domainExists i && decide (d.domState i = 2) &&
      (decide (i < 64) || (decide (0x48 ≤ i) && decide (i < 0x50)) || decide (i = 0x58) || decide (i = 0x59) || (decide (0x60 ≤ i) && decide (i < 0x68)))
  let d1 := forAll gone (fun i d => ((d.setDomState i 0).domainLoses i).event 0x710) d
  let d2 : Dev := { d1 with net := { d1.net with back := gone } }.powerEntered 2 false
  if d2.rd R.POWER.PWR_CTRL_TARGET == 2 then d2 else d2.leaveBivouac

/-- The entry into BIVOUAC goes on by as many steps as it can (R404). -/
def Dev.entrySteps (d : Dev) : Dev :=
  let d1 := if d.net.entryStep = 0 ∧ !d.running then d.stopTrace else d
  let d2 := if d1.net.entryStep = 1 ∧ d1.itemsRest ∧ d1.inflight = 0 then d1.askPeers else d1
  let waits := (List.range 8).any fun p => d2.portState p == 6
  let d3 := if d2.net.entryStep = 2 then (if waits then d2.wr R.POWER.PWR_STATUS_WAIT_PEER 1 else d2.drainDies) else d2
  if d3.net.entryStep = 3 ∧ d3.net.drainLeft = [] then d3.finishBivouac else d3

/-- An entry into BIVOUAC is in progress, not an emulated one. -/
def Dev.enteringBivouac (d : Dev) : Bool :=
  d.on R.POWER.PWR_STATUS_TRANSITION && !d.bivouacked && !d.net.attachNow && (decide (d.rd R.POWER.PWR_CTRL_TARGET = 2) || decide (d.net.entryStep = 3))

/-- BIVOUAC_ENTRY: an entry whose conditions hold goes on. -/
def Dev.bivouacEntry (t : Nat) (d : Dev) : Dev :=
  let d1 := (d.toTime t).powerDue
  if d1.enteringBivouac then d1.entrySteps else d1

/-- Whether the debugger is attached has changed (spec/16 R420, R422): a detach during an emulated state makes the entry a real one. -/
def Dev.attachChanged (d : Dev) : Dev :=
  let now := d.on R.DBG.DBG_CTRL_ATTACH || d.on R.DBG.DBG_STATUS_JTAG_ATTACHED
  if now = d.on R.DBG.DBG_STATUS_ATTACHED then d
  else
    let d1 := (d.wr R.DBG.DBG_STATUS_ATTACHED (bit now)).event 0x7A5
    if !now && d1.on R.POWER.PWR_STATUS_EMULATED then
      let d2 := { d1 with net := { d1.net with attachNow := false } }
      if d2.powerState = 1 then (d2.traceSleep 1 false).wr R.POWER.PWR_STATUS_EMULATED 0
      else d2.wr R.POWER.PWR_STATUS_TRANSITION 1
    else d1

/-! The limiter (R406, R407). -/

/-- A measurement of `power` tenths of a watt enters the window; A is the mean. -/
def Dev.limiterSample (power t : Nat) (d : Dev) : Dev :=
  let d1 := d.toTime t
  let window := max 1 (d1.rd R.POWER.PL_WINDOW_US)
  let s := (power :: d1.net.samples).take window
  let a := s.sum / s.length
  let exceeds := decide (d1.rd R.POWER.PL_LIMIT_W * 10 * s.length < s.sum)
  let n := if exceeds && !d1.net.windowBelay then d1.net.above + 1 else 0
  let d2 := { d1 with net := { d1.net with samples := s, above := if window ≤ n then 0 else n, windowBelay := false } }.wr R.POWER.POWER_NOW a
  if window ≤ n then (d2.wr R.POWER.PWR_STATUS_LIMIT_UNMET 1).event 0x722 else d2

end Sys2Proof.Machine
end

