-- ==== Sys2Proof/Machine/Host.lean ====
section
/-! DEFINITION. The host interface (spec/12): BAR2, the array aperture BAR4, the invalidation of the device MMU, context roots, DMA fences and
masked MSI-X vectors.  BAR0 stands in `Machine/Pages.lean`. -/

namespace Sys2Proof.Machine

/-! BAR2 (R322, R350). -/

/-- The DDR5 physical address of a BAR2 request. -/
def Dev.bar2Address (d : Dev) (off : Nat) : Nat :=
  let size := 2 ^ d.host.bar2Log
  d.host.bar2Offset / size * size + off % size

/-- The high word of BAR2_OFFSET is written: the offset takes effect. -/
def Dev.bar2OffsetHiWrite (w : Nat) (d : Dev) : Dev :=
  let v := d.rd R.PCIE.BAR2_OFFSET % 4 + w % 2 ^ 10 * 4
  { d.wr R.PCIE.BAR2_OFFSET v with host := { d.host with bar2Offset := v * 2 ^ 30 } }

/-- The lines of a BAR2 read, in ascending order, and whether one of them is poisoned. -/
def Dev.bar2Lines (d : Dev) (pa n : Nat) (v : MemView) : Bytes × Bool × Dev :=
  ((lineChunks pa n (n / 64 + 2)).foldl
    (fun (acc : Bytes × Bool × MemView × Dev) c =>
      match acc.2.2.2.ddrRead 2 (c.1 / 64) acc.2.2.1 with
      | (some bs, v1, d1) => (acc.1 ++ (bs.drop (c.1 % 64)).take c.2, acc.2.1, v1, d1)
      | (none, v1, d1) => (acc.1 ++ SMap.bytes d1.ddr.mem c.1 c.2, true, v1, d1))
    ([], false, v, d)) |> fun x => (x.1, x.2.1, x.2.2.2)

/-- PF0 answers memory requests: it is in D0 (R316). -/
def Dev.pf0Awake (d : Dev) : Bool := decide (d.host.dstate = 0)

/-- DDR5 serves the lines of `n` bytes at `pa`. -/
def Dev.bar2Serves (d : Dev) (pa n : Nat) : Bool := (lineChunks pa n (n / 64 + 2)).all fun c => d.ddrServes c.1

/-- The channels of those lines that are in self-refresh are asked to wake. -/
def Dev.bar2Asks (pa n : Nat) (d : Dev) : Dev := (forAll (lineChunks pa n (n / 64 + 2)) (fun c d => d.askChannel c.1) d).wakeDdr 0x14C false

/-- A BAR2 read of `n` bytes at offset `off`.  DDR5 that is not READY, and addresses beyond the populated memory, are unsupported; a channel in self-refresh is
asked to wake, and the request waits. -/
def Dev.bar2Read (off n : Nat) (v : MemView) (d0 : Dev) : Dev :=
  let d := d0.count 0xB0 12 1
  let pa := d.bar2Address off
  if !d.pf0Awake then d.emit (.readFailed 1)
  else if !d.on R.DDR.DDR_STATUS_READY || decide (d.rd R.DDR.CAPACITY < pa + n) then
    ((d.wr R.PCIE.PCIE_STATUS_BAR2_RANGE 1).emit (.readFailed 1)).count 0xB0 4 1
  else if !d.bar2Serves pa n then (d.bar2Asks pa n).emit .wait
  else
    let x := d.bar2Lines pa n v
    if x.2.1 then x.2.2.emit (.poisonData x.1) else x.2.2.emit (.readData x.1)

/-- A BAR2 write. -/
def Dev.bar2Write (off : Nat) (bs : Bytes) (d0 : Dev) : Dev :=
  let d := d0.count 0xB0 13 1
  let pa := d.bar2Address off
  if !d.pf0Awake then d
  else if !d.on R.DDR.DDR_STATUS_READY || decide (d.rd R.DDR.CAPACITY < pa + bs.length) then d.wr R.PCIE.PCIE_STATUS_BAR2_RANGE 1
  else if !d.bar2Serves pa bs.length then (d.bar2Asks pa bs.length).emit .wait
  else forAll (lineChunks pa bs.length (bs.length / 64 + 2)) (fun c d => d.ddrWrite c.1 ((bs.drop (c.1 - pa)).take c.2)) d

/-! BAR4 (R323 to R325, spec/16 R438). -/

/-- The aperture is refused: the array runs, or secure content is loaded. -/
def Dev.apertureRefused (d : Dev) : Bool := d.running || d.on R.LOAD.LOAD_STATUS_SECURE

/-- The refusal of an access to the aperture. -/
def Dev.refuseAperture (d : Dev) : Dev := (d.wr R.PCIE.PCIE_STATUS_APERTURE_REFUSED 1).event 0x500

/-- The gateway in front of an aperture offset. -/
def Dev.offsetGate (off src op : Nat) (wake : Bool) (d : Dev) : Gate × Dev :=
  match d.offsetDomain off with
  | some i => d.gateway i src op wake
  | none => (.pass, d)

/-- A BAR4 read of `n` bytes.  BAR4 reaches no bank, so an offset of the bank region reads 0. -/
def Dev.bar4Read (off n : Nat) (d0 : Dev) : Dev :=
  let d := d0.count 0xB0 14 1
  if !d.pf0Awake then d.emit (.readFailed 1)
  else if d.apertureRefused then (d.refuseAperture).emit (.readData (List.replicate n 0xFF))
  else if d.region off = .reserved ∨ d.region off = .bank then d.emit (.readData (List.replicate n 0))
  else
    match d.offsetGate off 0x14C 0 false with
    | (.refused, d1) => d1.emit (.readData (List.replicate n 0))
    | (.held, d1) => d1.emit .wait
    | (.pass, d1) =>
      let x := d1.arrRead off n
      if x.2 then d1.emit (.poisonData x.1) else d1.emit (.readData x.1)

/-- A BAR4 write. -/
def Dev.bar4Write (off : Nat) (bs : Bytes) (d0 : Dev) : Dev :=
  let d := d0.count 0xB0 14 1
  if !d.pf0Awake then d
  else if d.apertureRefused then d.refuseAperture
  else if d.region off = .reserved ∨ d.region off = .bank ∨ d.region off = .shadow then d
  else
    match d.offsetGate off 0x14C 2 false with
    | (.refused, d1) => d1
    | (.held, d1) => d1.emit .wait
    | (.pass, d1) => d1.arrWrite off bs

/-! Invalidation (R333). -/

/-- A write of INV_CTRL: CTX and SCOPE, and with GO the start of an invalidation.  A GO while BUSY is 1 is dropped; SCOPE 3 is invalid and starts nothing. -/
def Dev.invCtrlWrite (w : Nat) (d : Dev) : Dev :=
  let go := isSet w 8
  if go && d.on R.DMMU.INV_STATUS_BUSY then d.wr R.DMMU.DMMU_STATUS_WRITE_REFUSED 1
  else
    let d1 := (d.wr R.DMMU.INV_CTRL_CTX w).wr R.DMMU.INV_CTRL_SCOPE (w / 64)
    if !go then d1
    else if fieldAt w 6 2 = 3 then d1.wr R.DMMU.DMMU_STATUS_WRITE_REFUSED 1
    else
      { d1 with host := { d1.host with
          invalidating := some (fieldAt w 6 2, fieldAt w 0 6, d1.rd R.DMMU.INV_BASE / 2 ^ 12 % 2 ^ 36, d1.rd R.DMMU.INV_PAGES) } }.wr R.DMMU.INV_STATUS_BUSY 1

/-- A cached entry lies in the scope of an invalidation: scope, context, first page, pages. -/
def inScope (s : Nat × Nat × Nat × Nat) (key : Nat) : Bool :=
  let ctx := key / 2 ^ 48 / 8
  let level := key / 2 ^ 48 % 8
  let first := key % 2 ^ 48 / 2 ^ 12
  s.1 == 2 || (ctx == s.2.1 && (s.1 == 0 || (decide (first < s.2.2.1 + s.2.2.2) && decide (s.2.2.1 < first + 2 ^ (9 * level - 9)))))

/-- Every cached translation in the scope has been discarded: BUSY ends, DONE is set. -/
def Dev.invalidationDone (d : Dev) : Dev :=
  match d.host.invalidating with
  | none => d
  | some s =>
    ({ d with host := { d.host with invalidating := none, cache := d.host.cache.filter fun e => !inScope s e.1 } }.wr
      R.DMMU.INV_STATUS_BUSY 0).wr R.DMMU.INV_STATUS_DONE 1

/-! Context roots (R334). -/

/-- A write of a word of CTX_ROOT_c: dropped while VALID is 1, unless it clears VALID. -/
def Dev.ctxRootWrite (c hi w : Nat) (d : Dev) : Dev :=
  let valid := d.rdAt R.DMMU.CTX_ROOT_VALID 0 c == 1
  let a := d.rdAt R.DMMU.CTX_ROOT_ADDR 0 c
  if valid && (hi == 1 || w % 2 == 1) then d.wr R.DMMU.DMMU_STATUS_WRITE_REFUSED 1
  else if hi = 1 then d.wrAt R.DMMU.CTX_ROOT_ADDR 0 c (putField a 20 32 w)
  else ((d.wrAt R.DMMU.CTX_ROOT_VALID 0 c w).wrAt R.DMMU.CTX_ROOT_ROOT_TARGET 0 c (w / 2)).wrAt R.DMMU.CTX_ROOT_ADDR 0 c (putField a 0 20 (w / 2 ^ 12))

/-! DMA fences (R337 to R341). -/

/-- The staged fences. -/
def Dev.stagedFences (d : Dev) : List (Nat × Nat) :=
  (List.range 32).filterMap fun f =>
    if d.rdAt R.FENCE.ENTRY_BASE_VALID 0 f = 1 then
      some (d.rdAt R.FENCE.ENTRY_BASE_BASE 0 f * 2 ^ 12, d.rdAt R.FENCE.ENTRY_LIMIT 0 f * 2 ^ 12)
    else none

/-- A write of FENCE_CTRL: ENFORCE, LOCK, and with COMMIT the start of the activation of the staged set; all of it is read-only while LOCK is 1. -/
def Dev.fenceCtrlWrite (w : Nat) (d : Dev) : Dev :=
  if d.on R.FENCE.FENCE_CTRL_LOCK then d.wr R.FENCE.FENCE_STATUS_WRITE_REFUSED 1
  else
    let d1 := d.wr R.FENCE.FENCE_CTRL_ENFORCE w
    let d2 := if isSet w 1 then d1.wr R.FENCE.FENCE_CTRL_LOCK 1 else d1
    if isSet w 2 then { d2 with host := { d2.host with fenceNext := some d2.stagedFences } }.wr R.FENCE.FENCE_STATUS_COMMITTED 0 else d2

/-- Every host write is checked against the new set from now on. -/
def Dev.fenceCommitted (d : Dev) : Dev :=
  match d.host.fenceNext with
  | none => d
  | some s => { d with host := { d.host with fences := s, fenceNext := none } }.wr R.FENCE.FENCE_STATUS_COMMITTED 1

/-! MSI-X (R326, R327). -/

/-- The mask bit of a vector is cleared; a pending message is sent. -/
def Dev.msixUnmask (func vector : Nat) (d : Dev) : Dev :=
  let v := func % 2 * 4096 + vector
  let n := if func = 0 then 2048 else 32
  if n ≤ vector ∨ 2 ≤ func then d
  else
    let d1 := { d with host := { d.host with msixUnmask := SMap.set d.host.msixUnmask v 1 } }
    if SMap.get d1.host.msixPend v = 1 ∧ SMap.get d1.host.msixEnable func = 1 then
      { d1 with host := { d1.host with msixPend := SMap.set d1.host.msixPend v 0 } }.sendMsix (func * 2 ^ 11 + vector)
    else d1

end Sys2Proof.Machine
end

