-- ==== Sys2Proof/Machine/Queues.lean ====
section
/-! DEFINITION. The submission and completion queues, and the scheduler of the service engines (spec/14 R363 to R366, R374 to R384). -/

namespace Sys2Proof.Machine

/-! Queues (R374 to R376). -/

/-- The entries of each queue of pair `q`. -/
def Dev.qSize (d : Dev) (q : Nat) : Nat := 2 ^ d.rdAt R.ENGQ.Q_CTRL_SIZE_LOG2 q 0

/-- The items of queue `q`, in order of fetch. -/
def Dev.queueItems (d : Dev) (q : Nat) : List Item := d.eng.items.filter fun i => decide (i.queue = q)

/-- ENGINE_ERROR of a queue (R375): kind 1 overrun, 2 head beyond tail, 3 fetch failed, 4 completion write failed. -/
def Dev.queueFault (q kind : Nat) (d : Dev) : Dev := d.unitFault 0xA5 0 (0x108 + q) (q % 64 + kind * 2 ^ 8)

/-- A write of SQ_TAIL (R375). -/
def Dev.sqTailWrite (q w : Nat) (d : Dev) : Dev :=
  let n := w % 2 ^ 32
  let ahead (c : Nat) : Nat := (2 ^ 32 + n - c) % 2 ^ 32
  if d.qSize q < ahead (d.rdAt R.ENGQ.SQ_TAIL q 0) ∨ d.qSize q < ahead (d.rdAt R.ENGQ.SQ_HEAD q 0) then
    ((d.wrAt R.ENGQ.Q_STATUS_OVERRUN q 0 1).event (0x640 + q)).queueFault q 1
  else d.wrAt R.ENGQ.SQ_TAIL q 0 n

/-- The completion entries that host software has not freed. -/
def Dev.cqUsed (d : Dev) (q : Nat) : Nat := (2 ^ 32 + d.rdAt R.ENGQ.CQ_TAIL q 0 - d.rdAt R.ENGQ.CQ_HEAD q 0) % 2 ^ 32

/-- A write of CQ_HEAD: past CQ_TAIL it is dropped (R375); otherwise it frees entries. -/
def Dev.cqHeadWrite (q w : Nat) (d : Dev) : Dev :=
  let moved := (2 ^ 32 + w % 2 ^ 32 - d.rdAt R.ENGQ.CQ_HEAD q 0) % 2 ^ 32
  if d.cqUsed q < moved then (d.wrAt R.ENGQ.Q_STATUS_HEAD_ERROR q 0 1).queueFault q 2
  else
    let d1 := d.wrAt R.ENGQ.CQ_HEAD q 0 w
    if d1.cqUsed q < d1.qSize q then d1.wrAt R.ENGQ.Q_STATUS_CQ_FULL q 0 0 else d1

/-- The bytes of queue SRAM that the pair `q` would occupy with its registers as they stand: base and length of each queue. -/
def Dev.sramRanges (d : Dev) (q : Nat) : List (Nat × Nat) :=
  [(d.rdAt R.ENGQ.SQ_BASE q 0, 64 * d.qSize q), (d.rdAt R.ENGQ.CQ_BASE q 0, 64 * d.qSize q)]

/-- Two ranges intersect. -/
def meets (a b : Nat × Nat) : Bool := decide (a.1 < b.1 + b.2 ∧ b.1 < a.1 + a.2)

/-- The pair `q` may be enabled (R374): its size is one of 16 to 65,536, its bases are aligned to it, and in queue SRAM it lies inside, clear of every enabled pair. -/
def Dev.queueFits (d : Dev) (q : Nat) : Bool :=
  let s := d.rdAt R.ENGQ.Q_CTRL_SIZE_LOG2 q 0
  let n := 64 * d.qSize q
  let own := d.sramRanges q
  decide (4 ≤ s ∧ s ≤ 16) && decide (d.rdAt R.ENGQ.SQ_BASE q 0 % n = 0) && decide (d.rdAt R.ENGQ.CQ_BASE q 0 % n = 0) &&
  (d.rdAt R.ENGQ.Q_CTRL_LOC q 0 == 0 ||
    (own.all (fun r => decide (r.1 + r.2 ≤ 0x80000)) &&
      !(List.range 64).any fun p =>
        decide (p ≠ q) && d.rdAt R.ENGQ.Q_CTRL_ENABLE p 0 == 1 && d.rdAt R.ENGQ.Q_CTRL_LOC p 0 == 1 &&
          (d.sramRanges p).any fun r => own.any (meets r)))

/-- The last item of a queue that Q_CTRL.RESET empties has gone (R383): the counts return to 0, HALTED and ENABLE are cleared, and with them the saved-state
slot and the tail that INJECT_THROUGH recorded. -/
def Dev.queueEmptied (q : Nat) (d : Dev) : Dev :=
  if d.eng.resetting.contains q && (d.queueItems q == []) then
    let e := { d.eng with resetting := d.eng.resetting.filter (· ≠ q), slots := SMap.set d.eng.slots q [], tails := SMap.set d.eng.tails q 0 }
    let d1 := { d with eng := e }
    let d2 := (((d1.wrAt R.ENGQ.SQ_HEAD q 0 0).wrAt R.ENGQ.SQ_TAIL q 0 0).wrAt R.ENGQ.CQ_HEAD q 0 0).wrAt R.ENGQ.CQ_TAIL q 0 0
    (((d2.wrAt R.ENGQ.Q_STATUS_HALTED q 0 0).wrAt R.ENGQ.Q_CTRL_ENABLE q 0 0).wrAt R.ENGQ.Q_STATUS_CQ_FULL q 0 0).rewait
  else d

/-- A write of Q_CTRL.RESET (R383): the items that no engine runs complete with ABORTED; a running one does at its next restart point. -/
def Dev.queueReset (q : Nat) (d : Dev) : Dev :=
  let ended (i : Item) : Bool := decide (i.queue = q ∧ i.stand ≠ .running ∧ i.stand ≠ .finished)
  let items := d.eng.items.map fun i => if ended i then
    { i with stand := .finished, status := 0x1E, detail := 0, engine := if i.stand = .prefetch then (if i.restart then 64 + i.engine else 32) else i.engine } else i
  let inject := d.eng.inject.filter fun j => j.applied || j.kept || !(d.queueItems q).any fun i => decide (i.id = j.item)
  let e := { d.eng with items := items, inject := inject, resetting := q :: d.eng.resetting.filter (· ≠ q) }
  ({ d with eng := e }.queueEmptied q).rewait

/-- A write of Q_CTRL (R374, R384).  While the pair runs, only RESET and the clearing of ENABLE are taken. -/
def Dev.qCtrlWrite (q w : Nat) (d : Dev) : Dev :=
  if isSet w 13 then d.queueReset q
  else if d.rdAt R.ENGQ.Q_CTRL_ENABLE q 0 = 1 ∨ d.eng.resetting.contains q then
    if w % 2 = 0 ∧ d.rdAt R.ENGQ.Q_CTRL_ENABLE q 0 = 1 then d.wrAt R.ENGQ.Q_CTRL_ENABLE q 0 0 else d.wrAt R.ENGQ.Q_STATUS_WRITE_REFUSED q 0 1
  else
    let d1 := ((d.wrAt R.ENGQ.Q_CTRL_LOC q 0 (w / 2)).wrAt R.ENGQ.Q_CTRL_SIZE_LOG2 q 0 (w / 4)).wrAt R.ENGQ.Q_CTRL_CTX q 0 (w / 2 ^ 7)
    if w % 2 = 0 then d1
    else if d1.queueFits q then (d1.wrAt R.ENGQ.Q_CTRL_ENABLE q 0 1).wrAt R.ENGQ.Q_STATUS_CFG_ERROR q 0 0
    else d1.wrAt R.ENGQ.Q_STATUS_CFG_ERROR q 0 1

/-! Descriptors (R363 to R366). -/

/-- The address space that a type gives to its source or destination. -/
inductive Space where
  | none | dva | array | either
  deriving DecidableEq, Repr

/-- Spaces of SRC and DST, by type (R365). -/
def typeSpaces (ty : Nat) : Space × Space :=
  if ty = 1 then (.either, .either) else if ty = 2 then (.none, .either) else if ty = 3 then (.dva, .none)
  else if ty = 4 ∨ ty = 5 then (.array, .dva) else if ty = 6 then (.dva, .none) else if ty = 7 then (.none, .dva)
  else if ty = 8 then (.dva, .array) else if ty = 9 then (.either, .either) else if ty = 0xA then (.none, .dva)
  else if ty = 0xB then (.none, .either) else if ty = 0xF then (.dva, .dva) else (.none, .none)

/-- Bit 63 of an address: an array address (R364). -/
def isArray (a : Nat) : Bool := isSet a 63

/-- The range `[a, a + n)` is a valid one of its space (R364): a DVA of 48 bits, or an array range within one region. -/
def Dev.rangeOk (d : Dev) (a n : Nat) : Bool :=
  if isArray a then decide (fieldAt a 36 27 = 0) && d.arrFits (a % 2 ^ 36) n else decide (a + n ≤ 2 ^ 48)

/-- An address of an item fits its space; COPY, FILL reach array addresses only in banks (R367). -/
def Dev.addressOk (d : Dev) (ty : Nat) (s : Space) (a n : Nat) : Bool :=
  match s with
  | .none => true
  | .dva => !isArray a && d.rangeOk a n
  | .array => isArray a && d.rangeOk a n
  | .either => d.rangeOk a n && (!(isArray a && (ty == 1 || ty == 2)) || decide (d.region (a % 2 ^ 36) = .bank))

/-- The bytes that an item writes to DST: the result of a CHECKSUM, LENGTH otherwise. -/
def Item.dstLen (i : Item) : Nat := if i.ty = 9 then (if i.arg % 256 = 0 then 4 else 48) else if i.ty = 0xF then i.arg % 512 else i.len

/-- No token is named twice. -/
def distinct : List Nat → Bool
  | [] => true
  | a :: l => !l.contains a && distinct l

/-- The reserved fields of a descriptor are 0, and its token entries are as TOKEN_COUNT says. -/
def Item.formOk (i : Item) : Bool :=
  decide (i.ty ≤ 0xF) && decide (i.flags < 8) && decide (leAt i.desc 2 1 < 4) && decide (leAt i.desc 3 1 < 64) && decide (leAt i.desc 4 1 ≤ 4) &&
  decide (leAt i.desc 5 1 < 16) && (i.ty == 0xE || leAt i.desc 5 1 == 0) && (isSet i.flags 2 || i.resumeState == 0) &&
  i.tokens.all (· ≠ 0) && distinct i.tokens && ((List.range 4).drop i.tokenCount).all fun k => i.token k == 0

/-- The checks of R366. -/
def Dev.descriptorOk (d : Dev) (i : Item) : Bool :=
  let s := typeSpaces i.ty
  i.formOk && decide (i.len ≤ 2 ^ 42) && d.addressOk i.ty s.1 i.src i.len && d.addressOk i.ty s.2 i.dst i.dstLen &&
  (i.ty != 1 || isArray i.src != isArray i.dst || !meets (i.src, i.len) (i.dst, i.len)) &&
  (i.ty != 8 || decide (d.region (i.dst % 2 ^ 36) ≠ .shadow)) && (i.ty != 9 || decide (i.arg % 256 ≤ 1)) &&
  (i.ty != 0xF || decide (i.len ≤ 256)) && (i.ty != 7 || decide (i.len % 128 = 0))

/-! Fetch (R374, R376, R380). -/

/-- The entry into BIVOUAC has stopped fetch and dispatch, or the device is in BIVOUAC (R404). -/
def Dev.enginesHeld (d : Dev) : Bool :=
  d.bivouacked || (d.enteringBivouac && !d.running)

/-- A FENCE item of the queue has not completed: it holds every later descriptor back. -/
def Dev.fenceHolds (d : Dev) (q : Nat) : Bool := (d.queueItems q).any fun i => decide (i.ty = 0xC)

/-- Items in the matching store. -/
def Dev.matchUsed (d : Dev) : Nat := (d.eng.items.filter fun i => decide (i.stand = .matching)).length

/-- The queue may fetch its next descriptor. -/
def Dev.mayFetch (d : Dev) (q : Nat) : Bool :=
  d.rdAt R.ENGQ.Q_CTRL_ENABLE q 0 == 1 && d.rdAt R.ENGQ.Q_STATUS_HALTED q 0 == 0 && !d.eng.resetting.contains q && !d.enginesHeld &&
  !d.fenceHolds q && decide (d.rdAt R.ENGQ.SQ_HEAD q 0 ≠ d.rdAt R.ENGQ.SQ_TAIL q 0)

/-- A failed access to a queue halts it (R376). -/
def Dev.haltQueue (q kind : Nat) (d : Dev) : Dev := (d.queueFault q kind).wrAt R.ENGQ.Q_STATUS_HALTED q 0 1

/-- Bytes of a queue entry: from host memory or DDR5 through the DMMU, or from queue SRAM. -/
def Dev.queueRead (q off : Nat) (v : MemView) (d : Dev) : Dma × Dev :=
  let base := d.rdAt R.ENGQ.SQ_BASE q 0 + off
  let ctx := d.rdAt R.ENGQ.Q_CTRL_CTX q 0
  if d.rdAt R.ENGQ.Q_CTRL_LOC q 0 = 1 then (.done (SMap.bytes d.eng.sram base 64), d)
  else
    match d.dmaRead 1 ctx base 64 v with
    | (r, _, d1) => (r, d1.reportDma ctx 0 0 r)

/-- A fetched descriptor becomes an item: bad, ready, or waiting for its tokens. -/
def Dev.acceptItem (q : Nat) (desc : Bytes) (d : Dev) : Dev :=
  let i : Item := { (default : Item) with id := d.eng.nextId, queue := q, desc := desc, stand := .matching, engine := 32 }
  let d1 := (d.wrAt R.ENGQ.SQ_HEAD q 0 (d.rdAt R.ENGQ.SQ_HEAD q 0 + 1)).count (0x70 + q) 0 1
  let d2 := { d1 with eng := { d1.eng with items := d1.eng.items ++ [i], nextId := d1.eng.nextId + 1 } }
  if !d2.descriptorOk i then d2.endItem i.id 0x10
  else if i.tokenCount = 0 then d2.makeReady i.id
  else
    let d3 := d2.matchItems
    if (d3.item i.id).any (fun j => decide (j.stand = .matching)) then d3.count (0x70 + q) 3 1 else d3

/-- The next descriptor of queue `q` is fetched. -/
def Dev.descriptorFetch (q : Nat) (v : MemView) (t : Nat) (d0 : Dev) : Dev :=
  let d := d0.toTime t
  if !d.mayFetch q then d
  else
    match d.queueRead q (64 * (d.rdAt R.ENGQ.SQ_HEAD q 0 % d.qSize q)) v with
    | (.wait, d1) => (d1.emit .wait).wakeDdr 0x14C true
    | (.done bs, d1) =>
      if leAt bs 4 1 % 8 ≠ 0 ∧ 8192 ≤ d1.matchUsed then (d1.event 0x681) else (d1.acceptItem q bs).rewait
    | (.xlate _ _, d1) | (.poison _, d1) | (.fence _, d1) | (.hostError, d1) => d1.haltQueue q 3

/-- A write of TOKEN_POST (R379). -/
def Dev.tokenPostWrite (w : Nat) (d : Dev) : Dev := (d.postToken (fieldAt w 0 16) (fieldAt w 16 8)).rewait

/-! Dispatch, prefetch and pre-emption (R381, R382). -/

/-- An item keeps the running slot of engine `e`: it runs, or its completion entry is still to be written (R376). -/
def Item.holds (i : Item) (e : Nat) : Bool :=
  decide (i.engine = e) && (decide (i.stand = .running) || decide (i.stand = .finished))

/-- Engine `e` has no item in its running slot. -/
def Dev.engineIdle (d : Dev) (e : Nat) : Bool := !d.eng.items.any fun i => i.holds e

/-- The item that engine `e` runs. -/
def Dev.runningOn (d : Dev) (e : Nat) : Option Item := d.eng.items.find? fun i => decide (i.engine = e ∧ i.stand = .running)

/-- The item in the prefetch slot of engine `e`. -/
def Dev.prefetched (d : Dev) (e : Nat) : Option Item := d.eng.items.find? fun i => decide (i.engine = e ∧ i.stand = .prefetch)

/-- A LOAD_FRAMES item is in an engine. -/
def Dev.loadRuns (d : Dev) : Bool := d.eng.items.any fun i => decide (i.ty = 3) && (decide (i.stand = .running) || decide (i.stand = .prefetch))

/-- A LOAD_FRAMES item may be dispatched only as the first one that became ready, one at a time (R368). -/
def Dev.loadTurn (d : Dev) (i : Item) : Bool :=
  i.ty != 3 || (!d.loadRuns && !d.eng.items.any fun j => decide (j.ty = 3 ∧ j.stand = .ready ∧ j.order < i.order))

/-- The items that an engine may take. -/
def Dev.dispatchable (d : Dev) : List Item :=
  d.eng.items.filter fun i => decide (i.stand = .ready) && !i.engineless && d.loadTurn i

/-- The better of two ready items: the higher priority, then the place in the queue. -/
def betterReady (a b : Item) : Item := if a.prio < b.prio ∨ (a.prio = b.prio ∧ b.order < a.order) then b else a

/-- The head of the highest ready queue. -/
def Dev.readyHead (d : Dev) : Option Item :=
  match d.dispatchable with
  | [] => none
  | i :: l => some (l.foldl betterReady i)

/-- Take `n` has begun: it has been sampled, or is over (R373). -/
def Dev.takeBegun (d : Dev) (n : Nat) : Bool :=
  let now := d.rd R.TAKE.TAKE_NUMBER
  decide (n < now) ||
  (decide (n = now) && (decide (d.tk.phase = .stepping ∨ d.tk.phase = .ended ∨ d.tk.phase = .met) || (decide (d.tk.phase = .waiting) && decide (d.tk.belay ≠ 0))))

/-- The bank pages that the array ranges of an item cover. -/
def Dev.itemBanks (d : Dev) (i : Item) : List Nat :=
  let of (a n : Nat) : List Nat :=
    if isArray a && decide (d.region (a % 2 ^ 36) = .bank) && decide (n ≠ 0) then
      let g := (a % 2 ^ 36 - 0x200000000) / 0x10000
      let h := (a % 2 ^ 36 + n - 1 - 0x200000000) / 0x10000
      (List.range (h - g + 1)).map fun k => d.bankPage (g + k)
    else []
  of i.src i.len ++ of i.dst i.dstLen

/-- The bytes that a TRACE_DRAIN copies (spec/17 R459): min(LENGTH, WR − RD); with OVERWRITE and more than the ring written, RD first moves to the oldest byte kept. -/
def Dev.drainStart (i : Item) (d : Dev) : Dev :=
  if i.ty = 0xA then
    let size := 2 ^ d.rd R.TRACE.RING_CFG_SIZE_LOG2
    let wr := d.rd R.TRACE.WR
    let used := (2 ^ 64 + wr - d.rd R.TRACE.RD) % 2 ^ 64
    let d1 := if d.on R.TRACE.TRACE_CTRL_OVERWRITE && decide (size < used) then d.wr R.TRACE.RD (2 ^ 64 + wr - size) else d
    let left := (2 ^ 64 + wr - d1.rd R.TRACE.RD) % 2 ^ 64
    d1.setItem i.id fun x => { x with back := x.done + min (x.len - x.done) left }
  else d

/-- An engine starts an item, or goes on with one that was set aside.  A CAPTURE whose first take has begun ends at once (R373). -/
def Dev.startItem (id e : Nat) (d : Dev) : Dev :=
  match d.item id with
  | none => d
  | some i =>
    let fresh := !i.restart
    let resumed := fresh && isSet i.flags 2
    let d1 := (d.setItem id fun x => { x with
      stand := .running, engine := e, started := d.mono, lastPoint := x.done + (if x.ty = 0xB then x.back else 0), pointTime := d.mono, restart := false
      state := if fresh then x.resumeState else x.state
      acc := if resumed && decide (x.ty = 9) then SMap.get d.eng.slots (x.resumeState % 64) else x.acc
      banks := d.itemBanks x }).count (0x50 + e) 0 (bit fresh)
    let d2 := if resumed then { d1 with eng := { d1.eng with slots := SMap.set d1.eng.slots i.queue [] } } else d1
    let d3 := if i.ty = 7 ∧ d2.takeBegun (fieldAt i.arg 0 48) then d2.endItem id 0x19 else d2
    d3.drainStart i

/-- An engine whose running slot has become free starts the item of its prefetch slot. -/
def Dev.startPrefetched (e : Nat) (d : Dev) : Dev :=
  if e < 32 ∧ d.engineIdle e then
    match d.prefetched e with
    | some i => (d.count (0x50 + e) 5 1).startItem i.id e
    | none => d
  else d

/-- The prefetch slot of engine `e` can take an item of priority `p`: it is empty, or holds a worse one. -/
def Dev.slotOpen (d : Dev) (p e : Nat) : Bool :=
  match d.prefetched e with
  | some i => decide (i.prio < p)
  | none => true

/-- The engine to be pre-empted for an item of priority `p` (R382): it runs the lowest priority, the most recently started item among equals. -/
def Dev.victim (d : Dev) (p : Nat) : Option Nat :=
  let worse (a b : Item) : Item := if b.prio < a.prio ∨ (b.prio = a.prio ∧ a.started < b.started) then b else a
  match d.eng.items.filter fun i => decide (i.stand = .running ∧ i.engine < 32 ∧ i.prio < p) && d.slotOpen p i.engine with
  | [] => none
  | i :: l => some (l.foldl worse i).engine

/-- An item enters the prefetch slot of engine `e`; a worse one that is there returns to the head of its ready queue. -/
def Dev.prefetchItem (i : Item) (e : Nat) (d : Dev) : Dev :=
  let d1 := match d.prefetched e with
    | some h => d.headReady h.id
    | none => d
  d1.setItem i.id fun x => { x with stand := .prefetch, engine := e }

/-- Engine `e` takes the head of the highest ready queue: into its running slot when it is idle; when no engine is, into a prefetch slot. -/
def Dev.itemDispatch (e t : Nat) (d0 : Dev) : Dev :=
  let d := d0.toTime t
  match d.readyHead with
  | none => d
  | some i =>
    if d.enginesHeld then d
    else
      match d.gateway 0x59 0x14C 0 true with
      | (.held, d1) | (.refused, d1) => d1.emit .wait
      | (.pass, d1) =>
        if d1.engineIdle e then d1.startItem i.id e
        else if (List.range 32).any d1.engineIdle then d1
        else
          match d1.victim i.prio with
          | some w => if w = e then d1.prefetchItem i e else d1
          | none => if d1.slotOpen i.prio e then d1.prefetchItem i e else d1

/-- The position that restart points count (R382): the bytes completed, with those that an ERASE has read back. -/
def Item.progress (i : Item) : Nat := i.done + (if i.ty = 0xB then i.back else 0)

/-- A restart point of the item falls now: 4 KiB or 64 µs since the last one. -/
def Dev.pointReached (d : Dev) (i : Item) : Bool :=
  i.restartable && (decide (i.lastPoint + 4096 ≤ i.progress) || decide (i.pointTime + 64 * usec ≤ d.mono))

/-- A running item is set aside at a restart point: it returns to the head of its ready queue with its internal restart state. -/
def Dev.setAside (id : Nat) (d : Dev) : Dev := (d.headReady id).setItem id fun x => { x with restart := true }

/-- The item that engine `e` runs reaches a restart point (R382, R383, spec/15 R404): a queue reset ends it; an entry into BIVOUAC, or a better item of the prefetch slot, sets
it aside. -/
def Dev.restartPoint (e t : Nat) (d0 : Dev) : Dev :=
  let d := d0.toTime t
  match d.runningOn e with
  | none => d
  | some i =>
    if !d.pointReached i then d
    else if d.eng.resetting.contains i.queue then (d.setItem i.id fun x => { x with restart := true }).endItem i.id 0x1E
    else if d.enginesHeld then (d.setAside i.id).idleHandovers
    else
      match d.prefetched e with
      | some p =>
        if i.prio < p.prio then
          let d1 := (d.setAside i.id).count (0x50 + e) 3 1
          (d1.startPrefetched e).idleHandovers
        else d.setItem i.id fun x => { x with lastPoint := x.progress, pointTime := d.mono }
      | none => d.setItem i.id fun x => { x with lastPoint := x.progress, pointTime := d.mono }

/-! Completion (R376 to R378). -/

/-- Bytes 32 to 63 of the entry are valid: a type with restart points ended by a failed access, or at a restart point. -/
def Item.restartValid (i : Item) : Bool :=
  i.restartable && ([0x11, 0x12, 0x13, 0x14, 0x1C].contains i.status || (i.status == 0x1E && i.restart))

/-- NEXT_SRC: types without a source keep SRC. -/
def Item.nextSrc (i : Item) : Nat := if (typeSpaces i.ty).1 = .none then i.src else i.src + i.done

/-- NEXT_DST: a CHECKSUM writes its result at the end only. -/
def Item.nextDst (i : Item) : Nat := if i.ty = 9 then i.dst else i.dst + i.done

/-- STATE: the partial CRC-32C or the saved-state slot; the phase of a FILL; the bytes before NEXT_DST that an ERASE has still to read back. -/
def Item.stateOut (i : Item) : Nat :=
  if i.ty = 9 then (if i.arg % 256 = 0 then i.state else i.queue)
  else if i.ty = 2 then (i.state + i.done) % 8
  else if i.ty = 0xB then i.state + i.done - i.back else 0

/-- The 64 bytes of the completion entry with count `c`; bytes 32 to 63 are a free value where they are not valid. -/
def Dev.completionEntry (i : Item) (c : Nat) (d : Dev) : Bytes × Dev :=
  let phase := 1 - bitAt c (d.rdAt R.ENGQ.Q_CTRL_SIZE_LOG2 i.queue 0)
  let head := leBytes i.tag 8 ++ leBytes i.status 1 ++ leBytes i.ty 1 ++ leBytes (phase + 2 * bit i.restartValid) 1 ++
    leBytes (if i.engine = 32 then 0x80 else i.engine % 32) 1 ++ leBytes i.queue 1 ++ leBytes i.detail 1 ++ leBytes 0 2 ++
    leBytes i.done 8 ++ leBytes d.stamp 8
  if i.restartValid then (head ++ leBytes i.nextSrc 8 ++ leBytes i.nextDst 8 ++ leBytes (i.len - i.done) 8 ++ leBytes i.stateOut 8, d)
  else
    let x := d.free 256
    (head ++ leBytes x.1 32, x.2)

/-- The completion entry is written at CQ_TAIL. -/
def Dev.writeEntry (i : Item) (v : MemView) (d : Dev) : Dma × Dev :=
  let q := i.queue
  let c := d.rdAt R.ENGQ.CQ_TAIL q 0
  let a := d.rdAt R.ENGQ.CQ_BASE q 0 + 64 * (c % d.qSize q)
  let ctx := d.rdAt R.ENGQ.Q_CTRL_CTX q 0
  let x := d.completionEntry i c
  if d.rdAt R.ENGQ.Q_CTRL_LOC q 0 = 1 then (.done [], { x.2 with eng := { x.2.eng with sram := SMap.store x.2.eng.sram a x.1 } })
  else
    match x.2.dmaWrite ctx a x.1 v with
    | (r, _, d1) => (r, d1.reportDma ctx 1 0 r)

/-- The item leaves the LK7; its engine starts the item of its prefetch slot. -/
def Dev.retireItem (i : Item) (d : Dev) : Dev :=
  let d1 := { d with eng := { d.eng with items := d.eng.items.filter fun x => decide (x.id ≠ i.id) } }
  (((d1.startPrefetched i.engine).queueEmptied i.queue).idleHandovers).rewait

/-- What follows the entry: DONE_TOKEN, in the cases that R363 gives, then EV_CQ_q where an entry has been written. -/
def Dev.afterEntry (i : Item) (entry : Bool) (d : Dev) : Dev :=
  let d1 := d.retireItem i
  let d2 := if i.status < 0x10 ∨ isSet i.flags 1 then (d1.postToken i.doneToken 1).rewait else d1
  if entry then d2.event (0x600 + i.queue) else d2

/-- The item whose completion is due in queue `q`: the first in order of fetch that has ended, or a ready NOP. -/
def Dev.dueItem (d : Dev) (q : Nat) : Option Item :=
  (d.queueItems q).find? fun i => decide (i.stand = .finished) || decide (i.stand = .ready ∧ i.ty = 0)

/-- A completion entry of queue `q` is due: it is written, or held while the queue is full (R376). -/
def Dev.itemCompletion (q : Nat) (v : MemView) (t : Nat) (d0 : Dev) : Dev :=
  let d := d0.toTime t
  match d.dueItem q with
  | none => d
  | some i =>
    if d.bivouacked then d
    else if isSet i.flags 0 ∧ i.status < 0x10 then d.afterEntry i false
    else if d.qSize q ≤ d.cqUsed q then
      if d.rdAt R.ENGQ.Q_STATUS_CQ_FULL q 0 = 1 then d else (d.wrAt R.ENGQ.Q_STATUS_CQ_FULL q 0 1).event 0x683
    else
      match d.writeEntry i v with
      | (.wait, d1) => (d1.emit .wait).wakeDdr 0x14C true
      | (.done _, d1) =>
        let d2 := (d1.wrAt R.ENGQ.CQ_TAIL q 0 (d1.rdAt R.ENGQ.CQ_TAIL q 0 + 1)).count (0x70 + q) 1 1
        let d3 := if 0x10 ≤ i.status then d2.count (0x70 + q) 2 1 else d2
        let d4 := if i.restartValid && decide (i.engine ≠ 32) then d3.count (0x50 + i.engine % 32) 4 1 else d3
        let d5 := if i.restartValid && decide (i.ty = 9 ∧ i.arg % 256 = 1) then
            { d4 with eng := { d4.eng with slots := SMap.set d4.eng.slots q i.acc } }
          else d4
        d5.afterEntry i true
      | (.xlate _ _, d1) | (.poison _, d1) | (.fence _, d1) | (.hostError, d1) => (d1.haltQueue q 4).retireItem i

end Sys2Proof.Machine
end

