-- ==== Sys2Proof/Machine/Engines.lean ====
section
/-! DEFINITION. What the items of the service engines do (spec/14 R365 to R373, R377, R378, R380), all but LOAD_FRAMES, which feeds the loader. -/

namespace Sys2Proof.Machine

/-! Accesses of items. -/

/-- The outcome of one access of an item: bytes, the status and detail with which the item ends, or a wait for DDR5 or a domain. -/
inductive Move where
  | ok (data : Bytes)
  | stop (status detail : Nat)
  | wait
  deriving DecidableEq, Repr

/-- The status that a failed access gives its item (R377). -/
def Dma.move : Dma → Move
  | .done bs => .ok bs
  | .xlate r _ => .stop 0x11 r
  | .fence _ => .stop 0x12 0
  | .poison _ => .stop 0x13 0
  | .hostError => .stop 0x1C 0
  | .wait => .wait

/-- An engine access to a bank is refused (spec/05 R135). -/
def Dev.bankRefused (off : Nat) (d : Dev) : Move × Dev := (.stop 0x14 0, d.wrAt R.BANK.BANK_STATUS_REFUSED_ACCESS (d.bankAt off) 0 1)

/-- The domain of an array offset lets the access through; engines wake a domain that is off (spec/15 R399). -/
def Dev.engineGate (off : Nat) (d : Dev) (f : Dev → Move × Dev) : Move × Dev :=
  match d.offsetGate off 0x14C 0 true with
  | (.pass, d1) => f d1
  | (.held, d1) | (.refused, d1) => (.wait, d1)

/-- `n` bytes of the array space, poisoned ones as an uncorrectable read (spec/12 R324).  DEDUCED: the status of a poisoned array read is that of an
uncorrectable one. -/
def Dev.arrayBytes (off n : Nat) (d : Dev) : Move × Dev :=
  let x := d.arrRead off n
  (if x.2 then .stop 0x13 0 else .ok x.1, d)

/-- A read of array space by an item (R367, spec/16 R438).  That of a bank which the running design owns waits for an idle array cycle (spec/05 R133, R134). -/
def Dev.arraySource (i : Item) (off n : Nat) (d : Dev) : Move × Dev :=
  if d.on R.LOAD.LOAD_STATUS_SECURE && (i.ty == 4 || i.ty == 5 || i.ty == 9) then (.stop 0x1F 0, d)
  else if d.region off = .bank then
    if i.ty = 1 ∧ d.bankOwner (d.bankAt off) ≠ 1 then d.bankRefused off
    else
      d.engineGate off fun d =>
        if d.running && decide (d.bankOwner (d.bankAt off) = 0) && !d.bankFree (d.bankAt off) then (.wait, d) else d.arrayBytes off n
  else if d.running then (.stop 0x15 0, d)
  else d.engineGate off fun d => d.arrayBytes off n

/-- A write of array space by an item (R367, spec/05 R133): a bank owned by ENGINE, or by ARRAY for RESTORE with the array stopped; any other target as a belay access. -/
def Dev.arrayTarget (i : Item) (off : Nat) (bs : Bytes) (d : Dev) : Move × Dev :=
  if d.region off = .bank then
    if d.bankOwner (d.bankAt off) = 1 ∨ (d.bankOwner (d.bankAt off) = 0 ∧ i.ty = 8 ∧ !d.running) then d.engineGate off fun d => (.ok [], d.arrWrite off bs)
    else d.bankRefused off
  else if d.running then (.stop 0x15 0, d)
  else d.engineGate off fun d => (.ok [], d.arrWrite off bs)

/-- What an access of an item answers: a failure is reported, and a wait for DDR5 asks its channels to wake. -/
def Dma.answer (r : Dma) (ctx write : Nat) (v : MemView) (d : Dev) : Move × MemView × Dev :=
  (r.move, v, if r = .wait then d.wakeDdr 0x14C true else d.reportDma ctx write 0 r)

/-- `n` bytes from an address of an item. -/
def Dev.itemRead (i : Item) (a n : Nat) (v : MemView) (d : Dev) : Move × MemView × Dev :=
  if isArray a then
    match d.arraySource i (a % 2 ^ 36) n with
    | (m, d1) => (m, v, d1)
  else
    match d.dmaRead 1 i.ctx a n v with
    | (r, v1, d1) => r.answer i.ctx 0 v1 d1

/-- Bytes to an address of an item; a write that fails leaves nothing written (R378), though what its table walks have found stands. -/
def Dev.itemWrite (i : Item) (a : Nat) (bs : Bytes) (v : MemView) (d : Dev) : Move × MemView × Dev :=
  if isArray a then
    match d.arrayTarget i (a % 2 ^ 36) bs with
    | (m, d1) => (m, v, d1)
  else
    match d.writeTargets i.ctx a bs v with
    | (.inr l, v1, d1) => (.ok [], v1, forAll l (fun w d => d.writeTarget w) d1)
    | (.inl r, v1, d1) => r.answer i.ctx 1 v1 d1

/-- A read, and what is done with the bytes. -/
def Move.andThen (x : Move × MemView × Dev) (f : Bytes → MemView → Dev → Move × MemView × Dev) : Move × MemView × Dev :=
  match x with
  | (.ok bs, v, d) => f bs v d
  | other => other

/-! Moving an item on. -/

/-- Counters of an engine: 1 bytes read, 2 bytes written (spec/17 R464). -/
def Dev.moved (i : Item) (k n : Nat) (d : Dev) : Dev := d.count (0x50 + i.engine) k n

/-- An item ends with a status and a detail code. -/
def Dev.stopItem (id status detail : Nat) (d : Dev) : Dev := (d.setItem id fun x => { x with detail := detail }).endItem id status

/-- The bytes of one request from address `a`: within one line of memory; a whole word where `a` lies in the instruction words and `whole` is set. -/
def Dev.requestLen (d : Dev) (whole : Bool) (a : Nat) : Nat :=
  if isArray a then (if whole && decide (d.region (a % 2 ^ 36) = .instr) then 12 else 64) else 64 - a % 64

/-- What one request does. -/
abbrev Request := Item → Nat → MemView → Dev → Move × MemView × Dev

/-- An item is moved on by up to `n` bytes, request by request, in ascending order (R378): each at most `size` bytes long, none beyond `total` or beyond the next
restart point; `pos` is the position it has reached. -/
def Dev.pump (id : Nat) (pos total : Item → Nat) (size : Item → Dev → Nat) (step : Item → Nat → Item) (one : Request) (n : Nat) (v : MemView) (d : Dev) :
    Nat → Dev
  | 0 => d
  | fuel + 1 =>
    match d.item id with
    | none => d
    | some i =>
      let c := min (size i d) (total i - pos i)
      if c = 0 ∨ n < c ∨ (i.restartable && decide (i.lastPoint + 4096 ≤ i.progress)) then d
      else
        match one i c v d with
        | (.ok _, v1, d1) => (d1.setItem id fun x => step x c).pump id pos total size step one (n - c) v1 fuel
        | (.stop s x, _, d1) => if d1.item id |>.any (fun x => decide (x.stand = .running)) then d1.stopItem id s x else d1
        | (.wait, _, d1) => d1.emit .wait

/-- The bytes completed go on by `c`. -/
def Item.advance (i : Item) (c : Nat) : Item := { i with done := i.done + c }

/-- The running item of type `ty` of engine `e`. -/
def Dev.runningType (d : Dev) (e ty : Nat) : Option Item := (d.runningOn e).filter fun i => i.ty == ty

/-- The running item of type `ty` of engine `e` moves on by up to `n` bytes, and ends with OK at the end of LENGTH. -/
def Dev.moveItem (ty e n : Nat) (size : Item → Dev → Nat) (one : Request) (v : MemView) (t : Nat) (d0 : Dev) : Dev :=
  let d := d0.toTime t
  match d.runningType e ty with
  | none => d
  | some i =>
    let d1 := d.pump i.id Item.done Item.len size Item.advance one n v (n + 1)
    if (d1.item i.id).any fun x => decide (x.stand = .running ∧ x.len ≤ x.done) then d1.endItem i.id 0x00 else d1

/-- The length of a request from SRC to DST. -/
def bothSizes (i : Item) (d : Dev) : Nat := min (d.requestLen false (i.src + i.done)) (d.requestLen true (i.dst + i.done))

/-- One request of COPY, READBACK and RESTORE: from SRC to DST. -/
def copyRequest : Request := fun i c v d =>
  Move.andThen (d.itemRead i (i.src + i.done) c v) fun bs v d =>
    Move.andThen ((d.moved i 1 c).itemWrite i (i.dst + i.done) bs v) fun _ v d => (.ok [], v, d.moved i 2 c)

/-- COPY (R365): LENGTH bytes from SRC to DST, in ascending address order. -/
def Dev.copyMove (e n : Nat) (v : MemView) (t : Nat) (d : Dev) : Dev := d.moveItem 1 e n bothSizes copyRequest v t

/-- READBACK (R365): array address SRC to the DVA DST. -/
def Dev.readbackMove (e n : Nat) (v : MemView) (t : Nat) (d : Dev) : Dev := d.moveItem 4 e n bothSizes copyRequest v t

/-- RESTORE (R365): the DVA SRC to array address DST. -/
def Dev.restoreMove (e n : Nat) (v : MemView) (t : Nat) (d : Dev) : Dev := d.moveItem 8 e n bothSizes copyRequest v t

/-- One request of FILL: byte i takes byte (i mod 8) of ARG. -/
def fillRequest : Request := fun i c v d =>
  let bs := (List.range c).map fun j => BitVec.ofNat 8 (i.arg / 256 ^ ((i.state + i.done + j) % 8))
  Move.andThen (d.itemWrite i (i.dst + i.done) bs v) fun _ v d => (.ok [], v, d.moved i 2 c)

/-- FILL (R365). -/
def Dev.fillMove (e n : Nat) (v : MemView) (t : Nat) (d : Dev) : Dev := d.moveItem 2 e n (fun i d => d.requestLen true (i.dst + i.done)) fillRequest v t

/-- The number of leading bytes in which two sequences agree. -/
def agreeLen : Bytes → Bytes → Nat
  | a :: l, b :: r => if a = b then agreeLen l r + 1 else 0
  | _, _ => 0

/-- One request of VERIFY; at the first byte that differs, DONE holds its offset (R369). -/
def verifyRequest : Request := fun i c v d =>
  Move.andThen (d.itemRead i (i.src + i.done) c v) fun a v d =>
    Move.andThen (d.itemRead i (i.dst + i.done) c v) fun b v d =>
      let k := agreeLen a b
      if k < c then (.stop 0x1A 0, v, (d.moved i 1 (2 * c)).setItem i.id fun x => x.advance k) else (.ok [], v, d.moved i 1 (2 * c))

/-- VERIFY (R365). -/
def Dev.verifyMove (e n : Nat) (v : MemView) (t : Nat) (d : Dev) : Dev := d.moveItem 5 e n bothSizes verifyRequest v t

/-- One request of CHECKSUM: the bytes enter the partial CRC-32C or the SHA-384 message. -/
def checksumRequest : Request := fun i c v d =>
  Move.andThen (d.itemRead i (i.src + i.done) c v) fun bs v d =>
    (.ok [], v, (d.moved i 1 c).setItem i.id fun x =>
      if x.arg % 256 = 0 then { x with state := (bs.foldl (crcByte 0x82F63B78) (x.state ^^^ 0xFFFFFFFF)) ^^^ 0xFFFFFFFF } else { x with acc := x.acc ++ bs })

/-- The result of a CHECKSUM is written to DST, and the item ends. -/
def Dev.checksumEnd (i : Item) (v : MemView) (d : Dev) : Dev :=
  let result := if i.arg % 256 = 0 then leBytes i.state 4 else leBytes (Config.sha384 i.acc) 48
  match d.itemWrite i i.dst result v with
  | (.ok _, _, d1) => (d1.moved i 2 result.length).endItem i.id 0x00
  | (.stop s x, _, d1) => d1.stopItem i.id s x
  | (.wait, _, d1) => d1.emit .wait

/-- CHECKSUM (R365). -/
def Dev.checksumMove (e n : Nat) (v : MemView) (t : Nat) (d0 : Dev) : Dev :=
  let d := d0.toTime t
  match d.runningType e 9 with
  | none => d
  | some i =>
    let d1 := d.pump i.id Item.done Item.len (fun i d => d.requestLen false (i.src + i.done)) Item.advance checksumRequest n v (n + 1)
    match d1.item i.id with
    | some x => if x.stand = .running ∧ x.len ≤ x.done then d1.checksumEnd x v else d1
    | none => d1

/-- One request of TRACE_DRAIN: ring bytes from RD onward go to DST, and RD advances (spec/17 R459). -/
def drainRequest : Request := fun i c v d =>
  let ctx := d.rd R.TRACE.RING_CFG_RING_CTX
  let a := d.rd R.TRACE.RING_BASE + d.rd R.TRACE.RD % 2 ^ d.rd R.TRACE.RING_CFG_SIZE_LOG2
  match d.dmaRead 1 ctx a c v with
  | (.done bs, v1, d1) =>
    Move.andThen ((d1.moved i 1 c).itemWrite i (i.dst + i.done) bs v1) fun _ v d =>
      (.ok [], v, (d.moved i 2 c).wr R.TRACE.RD (d.rd R.TRACE.RD + c))
  | (r, v1, d1) => r.answer ctx 0 v1 d1

/-- The length of a request of TRACE_DRAIN: within a line of the ring and a line of DST. -/
def drainSize (i : Item) (d : Dev) : Nat := min (64 - d.rd R.TRACE.RD % 64) (d.requestLen true (i.dst + i.done))

/-- TRACE_DRAIN (R365): as many bytes as its start has fixed. -/
def Dev.drainMove (e n : Nat) (v : MemView) (t : Nat) (d0 : Dev) : Dev :=
  let d := d0.toTime t
  match d.runningType e 0xA with
  | none => d
  | some i =>
    let d1 := d.pump i.id Item.done Item.back drainSize Item.advance drainRequest n v (n + 1)
    if (d1.item i.id).any fun x => decide (x.stand = .running ∧ x.back ≤ x.done) then d1.endItem i.id 0x00 else d1

/-- One request of the first part of ERASE: zeros. -/
def eraseRequest : Request := fun i c v d =>
  Move.andThen (d.itemWrite i (i.dst + i.done) (List.replicate c 0) v) fun _ v d => (.ok [], v, d.moved i 2 c)

/-- The address that ERASE reads back next: the range begins where the first part of the item began. -/
def Item.backAddr (i : Item) : Nat := i.dst - i.state + i.back

/-- One request of the second part of ERASE; at the first byte that does not read 0, DONE holds its offset (R369). -/
def readBackRequest : Request := fun i c v d =>
  Move.andThen (d.itemRead i i.backAddr c v) fun bs v d =>
    let k := agreeLen bs (List.replicate c 0)
    if k < c then (.stop 0x1A 0, v, (d.moved i 1 c).setItem i.id fun x => { x with done := x.back + k }) else (.ok [], v, d.moved i 1 c)

/-- ERASE (R365, R369): every byte is written, then the whole range is read back. -/
def Dev.eraseMove (e n : Nat) (v : MemView) (t : Nat) (d0 : Dev) : Dev :=
  let d := d0.toTime t
  match d.runningType e 0xB with
  | none => d
  | some i =>
    if i.done < i.len then d.pump i.id Item.done Item.len (fun i d => d.requestLen true (i.dst + i.done)) Item.advance eraseRequest n v (n + 1)
    else
      let d1 := d.pump i.id Item.back (fun i => i.state + i.len) (fun i d => d.requestLen false i.backAddr)
        (fun x c => { x with back := x.back + c }) readBackRequest n v (n + 1)
      if (d1.item i.id).any fun x => decide (x.stand = .running ∧ x.state + x.len ≤ x.back) then d1.endItem i.id 0x00 else d1

/-! Injection and capture (R370 to R373). -/

/-- Belay `b` of the current take has reached cycle k, or is over; a belay whose conditions are met and that waits for the global release has not. -/
def Dev.belayPast (d : Dev) (b : Nat) : Bool :=
  decide (b < d.tk.belay) || (decide (b = d.tk.belay) && decide (d.tk.phase = .stepping ∨ d.tk.phase = .ended))

/-- An injection for take `n` at belay `b` comes too late (R370). -/
def Dev.injectLate (d : Dev) (n b : Nat) : Bool :=
  let now := d.rd R.TAKE.TAKE_NUMBER
  decide (n < now) || (decide (n = now) && d.belayPast b)

/-- The running INJECT item of engine `e` is staged, or completes (R370). -/
def Dev.injectMove (e : Nat) (v : MemView) (t : Nat) (d0 : Dev) : Dev :=
  let d := d0.toTime t
  match d.runningType e 6 with
  | none => d
  | some i =>
    let b := i.injectBelay
    let n := (d.injectList b).length
    if isSet (d.mapEntry b) 15 && decide (i.len ≠ (n + 7) / 8) then d.stopItem i.id 0x10 0
    else if 256 ≤ d.eng.inject.length then d.emit .wait
    else
      match d.itemRead i i.src i.len v with
      | (.wait, _, d1) => d1.emit .wait
      | (.stop s x, _, d1) => d1.stopItem i.id s x
      | (.ok bs, _, d1) =>
        let d2 := d1.moved i 1 i.len
        if !isSet (d2.mapEntry b) 15 then d2.stopItem i.id 0x16 0
        else if d2.injectLate i.injectTake b then d2.stopItem i.id 0x17 0
        else
          let d3 := d2.setItem i.id fun x => { x with stand := .staged, engine := 64 + e, done := x.len }
          let j : Inj := ⟨i.id, i.injectTake, b, leNat bs, false, false⟩
          (({ d3 with eng := { d3.eng with inject := d3.eng.inject ++ [j] } }).startPrefetched e).rewait

/-- The oldest record of an item whose take has closed. -/
def Dev.dueRecord (d : Dev) (id : Nat) : Option (Nat × Nat × Nat) :=
  d.eng.captures.find? fun c => decide (c.1 = id ∧ c.2.1 < d.rd R.TAKE.TAKE_NUMBER)

/-- The running CAPTURE item of engine `e` writes its next record (R373). -/
def Dev.captureMove (e : Nat) (v : MemView) (t : Nat) (d0 : Dev) : Dev :=
  let d := d0.toTime t
  match d.runningType e 7 with
  | none => d
  | some i =>
    if i.len ≤ i.done then d.endItem i.id 0x00
    else
      match d.dueRecord i.id with
      | none => d
      | some c =>
        match d.itemWrite i (i.dst + i.done) (leBytes c.2.2 128) v with
        | (.wait, _, d1) => d1.emit .wait
        | (.stop s x, _, d1) => ({ d1 with eng := { d1.eng with captures := d1.eng.captures.filter fun c => decide (c.1 ≠ i.id) } }).stopItem i.id s x
        | (.ok _, _, d1) =>
          let d2 := ({ d1 with eng := { d1.eng with captures := d1.eng.captures.erase c } }.moved i 2 128).setItem i.id fun x => x.advance 128
          if i.len ≤ i.done + 128 then d2.endItem i.id 0x00 else d2

/-! Items that no engine runs. -/

/-- The ready item of type `ty` of queue `q` that became ready first. -/
def Dev.readyOf (d : Dev) (q ty : Nat) : Option Item :=
  match (d.queueItems q).filter fun i => decide (i.ty = ty ∧ i.stand = .ready) with
  | [] => none
  | i :: l => some (l.foldl (fun a b => if b.order < a.order then b else a) i)

/-- FENCE (R374): it completes once every earlier item of its queue has completed. -/
def Dev.fenceItem (q t : Nat) (d0 : Dev) : Dev :=
  let d := d0.toTime t
  match d.readyOf q 0xC with
  | none => d
  | some i => if (d.queueItems q).any (fun x => decide (x.id < i.id)) then d else d.endItem i.id 0x00

/-- TOKEN (R365): ARG[23:16] counts of token ARG[15:0]. -/
def Dev.tokenItem (q t : Nat) (d0 : Dev) : Dev :=
  let d := d0.toTime t
  match d.readyOf q 0xD with
  | none => d
  | some i => (((d.endItem i.id 0x00).postToken (fieldAt i.arg 0 16) (fieldAt i.arg 16 8))).rewait

/-- The key of list `l` has been reached: an instant of device time, or a tick count (R380). -/
def Dev.keyReached (d : Dev) (l key : Nat) : Bool :=
  let k := d.rdAt R.ENG_SCHED.DLIST_CFG_KEY 0 l
  if k = 0 then decide ((2 ^ 64 + d.stamp - key % 2 ^ 64) % 2 ^ 64 < 2 ^ 63)
  else if k ≤ 4 then decide ((2 ^ 32 + d.rdAt R.TBASE.TICK_COUNT (k - 1) 0 - key % 2 ^ 32) % 2 ^ 32 < 2 ^ 31)
  else false

/-- The items of delay list `l`. -/
def Dev.listItems (d : Dev) (l : Nat) : List Item := d.eng.items.filter fun i => decide (i.stand = .delayed ∧ i.list = l)

/-- TIMER (R380): it enters its delay list, or completes at once with TIMER_LATE; a full list holds it (R376). -/
def Dev.timerItem (q t : Nat) (d0 : Dev) : Dev :=
  let d := d0.toTime t
  match d.readyOf q 0xE with
  | none => d
  | some i =>
    if d.keyReached i.list i.arg then d.endItem i.id 0x01
    else if 4096 ≤ (d.listItems i.list).length then d.event 0x682
    else
      let d1 := d.setItem i.id fun x => { x with stand := .delayed, order := d.eng.nextOrder }
      { d1 with eng := { d1.eng with nextOrder := d1.eng.nextOrder + 1 } }

/-- The items of delay list `l` whose key has been reached complete. -/
def Dev.timerDue (l t : Nat) (d0 : Dev) : Dev :=
  let d := d0.toTime t
  forAll ((d.listItems l).filter fun i => d.keyReached l i.arg) (fun i d => d.endItem i.id 0x00) d

/-- The messages on channel 1: MBOX_STATUS.CH1_LEVEL (spec/18 R471). -/
def Dev.ch1Level (d : Dev) : Nat := (d.mg.msgs.filter fun m => decide (m.item ≠ 0)).length

/-- MAILBOX (R365, spec/18 R471): the message of the oldest ready item of queue `q` enters channel 1, which holds 8; the reply completes the item. -/
def Dev.mailboxItem (q : Nat) (v : MemView) (t : Nat) (d0 : Dev) : Dev :=
  let d := d0.toTime t
  match d.readyOf q 0xF with
  | none => d
  | some i =>
    if 8 ≤ d.ch1Level then d.emit .wait
    else
      match d.itemRead i i.src i.len v with
      | (.wait, _, d1) => d1.emit .wait
      | (.stop s x, _, d1) => d1.stopItem i.id s x
      | (.ok bs, _, d1) =>
        let d2 := d1.setItem i.id fun x => { x with stand := .running, started := d1.mono }
        { d2 with mg := { d2.mg with msgs := d2.mg.msgs ++ [{ item := i.id, body := bs, restarted := false }] } }

/-! Requests without a response (spec/15 R393). -/

/-- A request has had no response for RSP_TIMEOUT_US: of a far port (`kind` 0, the key of the request), of the item that engine `id` runs (`kind` 1). -/
def Dev.rspTimeout (kind id t : Nat) (d0 : Dev) : Dev :=
  let d := d0.toTime t
  if kind = 0 then
    match SMap.look d.arr.farReq id with
    | some q => if q.answered then d else ((d.dropRequest id).farTranslation (id / 2 ^ 32) q).rewait
    | none => d
  else
    match d.runningOn id with
    | some i => d.stopItem i.id 0x1C 0
    | none => d

end Sys2Proof.Machine
end

