-- ==== Sys2Proof/Machine/Image.lean ====
section
/-! DEFINITION. The serial flash: settings blocks, their envelope section, and boot images (spec/07 R177 to R181, spec/09 R255 to R257). -/

namespace Sys2Proof.Machine

/-- `n` bytes of the serial flash from address `a`. -/
def Dev.flashBytes (d : Dev) (a n : Nat) : Bytes := SMap.bytes d.mg.flash a n

/-- Where settings-block copy `c` stands, 0 copy A, 1 copy B (R177). -/
def settingsAddr (c : Nat) : Nat := c * 0x10000

/-- Where the image of a source stands: 0 primary, 1 golden (R177). -/
def imageAddr (src : Nat) : Nat := if src = 0 then 0x100000 else 0x900000

/-- A settings block is valid: MAGIC, and the signature of the owner key (R179). -/
def Dev.settingsValid (d : Dev) (b : Bytes) : Bool :=
  leAt b 0 4 == 0x54534B4C && Config.ecdsaVerify (Config.ownerKey d.part.ownerHash) (Config.sha384 (b.take 0xFFA0)) ((b.drop 0xFFA0).take 96)

/-- The ENVELOPE section of a settings block (R178). -/
def envelopeSection (b : Bytes) : Bytes := (b.drop 0x1C0).take 15936

/-- The envelope that a section gives (R255, R256). -/
def envelopeOf (b : Bytes) : Envelope :=
  { locked := true, enable := bitAt (leAt b 4 4) 0 == 1, count := leAt b 2 2
    entry := forUpto 320 (fun p m => SMap.set m p (leAt b (0x40 + 16 * p) 16)) []
    pairs := forUpto 64 (fun q m => SMap.set m q (leAt b (0x1440 + 16 * q) 16)) []
    bootLock := forUpto 10 (fun k m => SMap.set m k (leAt b (8 + 4 * k) 4)) [] }

/-- A pin entry keeps its codes, its reserved bits and the rate-limit rule (R256, R257). -/
def envPinOk (e : Nat) : Bool :=
  [0, 1, 2, 4, 5].contains (fieldAt e 0 3) && decide (fieldAt e 3 3 ≤ 4) && decide (fieldAt e 6 2 = 0) && decide (fieldAt e 10 6 = 0) &&
    decide (fieldAt e 64 16 ≤ 4000) && decide (fieldAt e 80 48 = 0) &&
    !(isSet e 8 && decide (fieldAt e 32 16 ≠ 0) && decide (fieldAt e 48 16 = 0))

/-- The SAFE level of a pin is its active level `hi` (R257). -/
def safeActive (e hi : Nat) : Bool := decide (fieldAt e 0 3 = 4 + hi)

/-- A pair entry, which stands at an index `valid` or beyond PAIR_COUNT, is well formed (R256, R257). -/
def envPairOk (v : Envelope) (inCount : Bool) (e : Nat) : Bool :=
  let a := fieldAt e 0 16
  let b := fieldAt e 16 16
  decide (fieldAt e 35 5 = 0) && decide (fieldAt e 40 8 = 0) && decide (fieldAt e 64 64 = 0) && (isSet e 32 == inCount) &&
    (!inCount || (decide (a < 320) && decide (b < 320) && decide (a ≠ b) &&
      !(safeActive (v.pin a) (bitAt e 33) && safeActive (v.pin b) (bitAt e 34))))

/-- The check of R257 on the ENVELOPE section. -/
def envelopeOk (b : Bytes) : Bool :=
  let v := envelopeOf b
  decide (leAt b 0 2 = 1) && decide (v.count ≤ 64) && decide (leAt b 4 4 < 2) && zeroAt b 0x30 16 && zeroAt b 0x1840 9728 &&
    (List.range 320).all (fun p => envPinOk (v.pin p)) && (List.range 64).all fun q => envPairOk v (decide (q < v.count)) (SMap.get v.pairs q)

/-- The settings-block copy in use, with its bytes: the valid one with the higher SEQ, copy A where both are equal (R179).  `errors` tells which copies the flash
does not give. -/
def Dev.settingsInUse (d : Dev) (errors : Nat) : Option (Nat × Bytes) :=
  let a := d.flashBytes (settingsAddr 0) 0x10000
  let b := d.flashBytes (settingsAddr 1) 0x10000
  let va := !isSet errors 0 && d.settingsValid a
  let vb := !isSet errors 1 && d.settingsValid b
  if va && vb then (if leAt a 4 4 < leAt b 4 4 then some (1, b) else some (0, a))
  else if va then some (0, a) else if vb then some (1, b) else none

/-- The header of an image (R180). -/
structure ImageHead where
  version : Nat
  svn : Nat
  fwLen : Nat
  cfgLen : Nat
  deriving DecidableEq, Repr, Inhabited

/-- The fields of a header. -/
def imageHead (h : Bytes) : ImageHead := { version := leAt h 4 4, svn := leAt h 8 4, fwLen := leAt h 12 4, cfgLen := leAt h 16 4 }

/-- The reason among 0x2 to 0x5 of R181 for which an image fails, 0 for none.  `rd` gives the bytes of the slot, `key` is the owner key and `least` the
monotonic counter of the SVN. -/
def imageReason (rd : Nat → Nat → Bytes) (key : Bytes) (least : Nat) : Nat :=
  let h := rd 0 4096
  let x := imageHead h
  if leAt h 0 4 ≠ 0x49424B4C ∨ 0x7FF000 < x.fwLen + x.cfgLen then 2
  else
    let cfg := Config.sha384 (rd (4096 + x.fwLen) x.cfgLen)
    if Config.sha384 (rd 4096 x.fwLen) ≠ leAt h 0x20 48 ∨ cfg ≠ leAt h 0x50 48 then 3
    else if !Config.ecdsaVerify Config.firmwareKey (Config.sha384 (h.take 0xFA0)) ((h.drop 0xFA0).take 96) ||
        !Config.ecdsaVerify key (leAt h 0x50 48) ((h.drop 0x80).take 96) then 4
    else if x.svn < least then 5 else 0

/-- The same of the image of source `src` in the flash. -/
def Dev.imageReason (d : Dev) (src : Nat) : Nat :=
  Sys2Proof.Machine.imageReason (fun o n => d.flashBytes (imageAddr src + o) n) (Config.ownerKey d.part.ownerHash) (SMap.get d.mg.counters 0)

/-- The base configuration of an image: EDGE and PIN frames without a slate (R180). -/
def Dev.baseConfig (d : Dev) (src : Nat) : Bytes :=
  let x := imageHead (d.flashBytes (imageAddr src) 4096)
  d.flashBytes (imageAddr src + 4096 + x.fwLen) x.cfgLen

end Sys2Proof.Machine
end

