-- ==== Sys2Proof/Machine/Mgmt.lean ====
section
/-! DEFINITION. The mailbox, firmware update and the firmware watchdog (spec/18 R470 to R477). -/

namespace Sys2Proof.Machine

/-! Messages and replies (R471). -/

def Msg.command (m : Msg) : Nat := leAt m.body 0 2
def Msg.length (m : Msg) : Nat := leAt m.body 2 2
def Msg.tag (m : Msg) : Nat := leAt m.body 4 4
def Msg.payload (m : Msg) : Bytes := (m.body.drop 8).take m.length

/-- LENGTH fits the message: at most 248 bytes, all of them there. -/
def Msg.whole (m : Msg) : Bool := decide (m.length ≤ 248) && decide (8 + m.length ≤ m.body.length)

/-- A reply: STATUS, LENGTH, TAG, payload. -/
def Msg.answer (m : Msg) (status : Nat) (payload : Bytes) : Bytes :=
  leBytes status 2 ++ leBytes payload.length 2 ++ leBytes m.tag 4 ++ payload

/-- DOORBELL (R471): the message in REQ enters channel 0; while BUSY is 1 the write is dropped. -/
def Dev.doorbell (t : Nat) (d0 : Dev) : Dev :=
  let d := d0.toTime t
  if d.on R.MBOX.MBOX_STATUS_BUSY then d
  else
    let m : Msg := { item := 0, body := leBytes (d.rd R.MBOX.REQ) 256, restarted := false }
    ({ d with mg := { d.mg with msgs := d.mg.msgs ++ [m] } }).wr R.MBOX.MBOX_STATUS_BUSY 1

/-- The commands of R472. -/
def mailboxCommands : List Nat := [0x0001, 0x0002, 0x0003, 0x0004, 0x0010, 0x0011, 0x0012, 0x0020, 0x0030]

/-- The commands that the recovery mailbox serves (R475). -/
def recoveryCommands : List Nat := [0x0001, 0x0002, 0x0003, 0x0010, 0x0011, 0x0012]

/-- The firmware runs, or the boot ROM serves channel 0 as the recovery mailbox (R475). -/
def Dev.mailboxServed (d : Dev) (m : Msg) : Bool := d.on R.MBOX.MBOX_STATUS_FW_RUNNING || (d.mg.bootFailed && m.item == 0)

/-- What serving a command gives: STATUS, reply payload, the device. -/
abbrev Served := Nat × Bytes × Dev

/-- The first message, if it is command `cmd`, is served (R471, R472): `f` gives the reply where the state permits the command and `len` accepts its LENGTH. -/
def Dev.serve (cmd t : Nat) (len : Nat → Bool) (f : Bytes → Dev → Served) (d0 : Dev) : Dev :=
  let d := d0.toTime t
  match d.mg.msgs with
  | [] => d
  | m :: _ =>
    if m.restarted || d.mg.reply.isSome || m.command != cmd || !d.mailboxServed m then d
    else
      let r : Served :=
        if d.mg.bootFailed && !recoveryCommands.contains cmd then (3, [], d)
        else if !m.whole || !len m.length then (2, [], d)
        else f m.payload d
      { r.2.2 with mg := { r.2.2.mg with reply := some (m.answer r.1 r.2.1) } }

/-- GET_INFO (R472). -/
def Dev.getInfo (t : Nat) (d : Dev) : Dev :=
  d.serve 0x0001 t (· == 0) fun _ d =>
    (0, leBytes d.mg.fwVersion 4 ++ leBytes d.mg.svn 4 ++ leBytes (d.rd R.LOAD.BOOT_STATUS_SOURCE) 1 ++ leBytes d.part.serial 8 ++ leBytes d.part.ownerHash 48, d)

/-- LOG_READ (R472, R477): records and sequence words of slots.  DESIGN CHOICE: a count outside 1 to 12, or slots beyond 1,023, are REFUSED. -/
def Dev.logRead (t : Nat) (d : Dev) : Dev :=
  d.serve 0x0002 t (· == 4) fun p d =>
    let first := leAt p 0 2
    let n := leAt p 2 2
    if n = 0 ∨ 12 < n ∨ 1024 < first + n then (3, [], d)
    else (0, ((List.range n).map fun k => (SMap.get d.mg.slots (first + k)).bytes ++ leBytes (SMap.get d.mg.seqs (first + k)) 8).flatten, d)

/-- COUNTER_READ (R472, R477): one of the 16 monotonic counters. -/
def Dev.counterRead (t : Nat) (d : Dev) : Dev :=
  d.serve 0x0003 t (· == 1) fun p d => if 16 ≤ leAt p 0 1 then (3, [], d) else (0, leBytes (SMap.get d.mg.counters (leAt p 0 1)) 8, d)

/-- COUNTER_RAISE (R474): only to a higher value, and counter 0 not above the SVN of the running image. -/
def Dev.counterRaise (t : Nat) (d : Dev) : Dev :=
  d.serve 0x0004 t (· == 9) fun p d =>
    let c := leAt p 0 1
    let v := leAt p 1 8
    if 16 ≤ c ∨ v ≤ SMap.get d.mg.counters c ∨ (c = 0 ∧ d.mg.svn < v) then (3, [], d)
    else (0, [], { d with mg := { d.mg with counters := SMap.set d.mg.counters c v } })

/-! Firmware update (R473). -/

/-- A length that the target can hold: an image has its header and fits the slot, a settings block has 64 KiB (R177, R178). -/
def updateLengthOk (target len : Nat) : Bool := if target = 0 then decide (4096 ≤ len ∧ len ≤ 0x800000) else decide (len = 0x10000)

/-- UPDATE_BEGIN erases the update area; `err` tells that the flash reports an error. -/
def Dev.updateBegin (err : Bool) (t : Nat) (d : Dev) : Dev :=
  d.serve 0x0010 t (· == 5) fun p d =>
    let target := leAt p 0 1
    let len := leAt p 1 4
    if 1 < target then (3, [], d)
    else if !updateLengthOk target len then (2, [], d)
    else if err then (5, [], d)
    else (0, [], { d with mg := { d.mg with update := some (target, len), area := [] } })

/-- Bytes into the update area. -/
def storeArea (m : SMap Nat) (a : Nat) : Bytes → SMap Nat
  | [] => m
  | b :: bs => storeArea (SMap.set m a (b.toNat + 1)) (a + 1) bs

/-- UPDATE_DATA writes into the update area; before an UPDATE_BEGIN it is REFUSED. -/
def Dev.updateData (err : Bool) (t : Nat) (d : Dev) : Dev :=
  d.serve 0x0011 t (fun n => decide (5 ≤ n ∧ n ≤ 244)) fun p d =>
    match d.mg.update with
    | none => (3, [], d)
    | some (_, len) =>
      if len < leAt p 0 4 + (p.length - 4) then (2, [], d)
      else if err then (5, [], d)
      else (0, [], { d with mg := { d.mg with area := storeArea d.mg.area (leAt p 0 4) (p.drop 4) } })

/-- `n` bytes of the update area from offset `a`; what an erased byte reads as is not stated, a free value. -/
def Dev.areaBytes (d : Dev) (a : Nat) : Nat → Bytes
  | 0 => []
  | n + 1 =>
    BitVec.ofNat 8 (match SMap.look d.mg.area a with
      | some v => v - 1
      | none => Config.freeValue (d.freeCtr + a)) :: d.areaBytes (a + 1) n

/-- What an UPDATE_COMMIT finds: whether the checks pass, and the flash address that takes the update (R473). -/
def Dev.updateCheck (d : Dev) (target : Nat) : Bool × Nat :=
  if target = 0 then
    (decide (Sys2Proof.Machine.imageReason (fun o n => d.areaBytes o n) (Config.ownerKey d.part.ownerHash) (SMap.get d.mg.counters 0) = 0), imageAddr 0)
  else
    let b := d.areaBytes 0 0x10000
    let inUse := d.mg.settingsCopy
    if inUse = 2 then (d.settingsValid b && envelopeOk (envelopeSection b), settingsAddr 0)
    else (d.settingsValid b && envelopeOk (envelopeSection b) && decide (d.mg.settingsSeq < leAt b 4 4), settingsAddr (1 - inUse))

/-- UPDATE_COMMIT checks the update and writes it into its place. -/
def Dev.updateCommit (err : Bool) (t : Nat) (d : Dev) : Dev :=
  d.serve 0x0012 t (· == 0) fun _ d =>
    match d.mg.update with
    | none => (3, [], d)
    | some (target, len) =>
      let x := d.updateCheck target
      let d1 := { d with freeCtr := d.freeCtr + 0x800000 }
      if !x.1 then (4, [], d1)
      else if err then (5, [], d1)
      else (0, [], { d1 with mg := { d1.mg with flash := SMap.store d1.mg.flash x.2 (d.areaBytes 0 len) } })

/-! Sensors and the board bus (R472, R476). -/

/-- The thermal sensors of the part (R489). -/
def Dev.sensors (d : Dev) : Nat := d.part.dies * 4 + 8

/-- SENSOR_READ: the temperature of every sensor, then the readings of the rails of R488, those of VCCIO last. -/
def Dev.sensorRead (t : Nat) (d : Dev) : Dev :=
  d.serve 0x0020 t (· == 0) fun _ d =>
    (0, ((List.range d.sensors).map fun s => BitVec.ofNat 8 (SMap.get d.mg.temps s)) ++
      ((List.range 7).map fun r => leBytes (d.rdAt R.SAFETY.RAIL_MV 0 r) 2).flatten ++
      ((List.range 10).map fun b => leBytes (d.rdAt R.SAFETY.VCCIO_MV 0 b) 2).flatten, d)

/-- I2C_XFER (R472, R476): the bytes to write go out to the board; `ack` and `data` are what the board answers. -/
def Dev.i2cXfer (ack : Bool) (data : Bytes) (t : Nat) (d : Dev) : Dev :=
  d.serve 0x0030 t (fun n => decide (3 ≤ n ∧ n ≤ 67)) fun p d =>
    if leAt p 1 1 ≠ p.length - 3 then (2, [], d)
    else
      let d1 := d.emit (.i2c (leAt p 0 1) (p.drop 3))
      if ack then (0, data.take (leAt p 2 1), d1) else (6, [], d1)

/-! Replies (R471). -/

/-- The reply to the first message, once there is one: RESTARTED after a restart, UNKNOWN_COMMAND for a command that R472 does not give. -/
def Dev.replyDue (d : Dev) (m : Msg) : Option Bytes :=
  if m.restarted then some (m.answer 7 [])
  else if d.mg.reply.isSome then d.mg.reply
  else if d.mailboxServed m && !mailboxCommands.contains m.command then some (m.answer 1 [])
  else none

/-- The first message leaves the queue. -/
def Dev.messageServed (d : Dev) : Dev := { d with mg := { d.mg with msgs := d.mg.msgs.drop 1, reply := none } }

/-- A reply on channel 0: REPLY, REPLY_READY, EV_MBOX_REPLY. -/
def Dev.replyHost (r : Bytes) (d : Dev) : Dev :=
  (((d.wr R.MBOX.REPLY (putField (d.rd R.MBOX.REPLY) 0 (8 * r.length) (leNat r))).wr R.MBOX.MBOX_STATUS_BUSY 0).wr R.MBOX.MBOX_STATUS_REPLY_READY 1).event 0x7C8

/-- The answer of an item of channel 1 stands: the item ends, with MAILBOX_ERROR where STATUS is not OK or the reply was truncated. -/
def Dev.endMailbox (i : Item) (r : Bytes) (d : Dev) : Dev :=
  let n := min r.length (i.arg % 512)
  ((d.setItem i.id fun x => { x with done := n }).endItem i.id (if leAt r 0 2 ≠ 0 ∨ n < r.length then 0x1D else 0)).messageServed

/-- A reply on channel 1: at most ARG[8:0] bytes go to DST. -/
def Dev.replyItem (i : Item) (r : Bytes) (v : MemView) (d : Dev) : Dev :=
  match d.itemWrite i i.dst (r.take (i.arg % 512)) v with
  | (.wait, _, d1) => (d1.emit .wait).wakeDdr 0x14C true
  | (.stop s x, _, d1) => (d1.stopItem i.id s x).messageServed
  | (.ok _, _, d1) => d1.endMailbox i r

/-- MBOX_REPLY: the reply to the first message is placed. -/
def Dev.mboxReply (v : MemView) (t : Nat) (d0 : Dev) : Dev :=
  let d := d0.toTime t
  match d.mg.msgs with
  | [] => d
  | m :: _ =>
    match d.replyDue m with
    | none => d
    | some r =>
      if m.item = 0 then (d.messageServed).replyHost r
      else
        match d.item m.item with
        | some i => if i.stand = .running then d.replyItem i r v else d.messageServed
        | none => d.messageServed

/-! The firmware watchdog (R470). -/

/-- MGMT_WATCHDOG: the controller is reset and safe state entered; a second expiry within 1 s of a restart holds it in reset. -/
def Dev.mgmtWatchdog (t : Nat) (d0 : Dev) : Dev :=
  let d := d0.toTime t
  if !d.on R.SAFETY.SAFE_STATUS_MGMT_RUNNING then d
  else
    let again := decide (d.mg.restartAt ≠ 0) && decide (d.mono < d.mg.restartAt - 1 + 1000000 * usec)
    let d1 := ((d.wr R.SAFETY.SAFE_STATUS_MGMT_RUNNING 0).wr R.MBOX.MBOX_STATUS_FW_RUNNING 0).wr R.SAFETY.SAFE_STATUS_MGMT_HELD (bit again)
    d1.unitFault 0x86 4 0xA 0

/-- MGMT_RESTART: the boot ROM has verified the firmware again, and it runs; messages in progress are answered with RESTARTED (R472). -/
def Dev.mgmtRestart (t : Nat) (d0 : Dev) : Dev :=
  let d := d0.toTime t
  let src := d.rd R.LOAD.BOOT_STATUS_SOURCE
  let reason := d.imageReason src
  if d.on R.SAFETY.SAFE_STATUS_MGMT_RUNNING || d.on R.SAFETY.SAFE_STATUS_MGMT_HELD || d.mg.bootFailed || d.mg.inReset ||
      (2 ≤ reason && reason ≤ 4) then d
  else
    let d1 := (d.wr R.SAFETY.SAFE_STATUS_MGMT_RUNNING 1).wr R.MBOX.MBOX_STATUS_FW_RUNNING 1
    let mg := { d1.mg with restartAt := d1.mono + 1, reply := none, msgs := d1.mg.msgs.map fun m => { m with restarted := true } }
    { d1 with mg := mg }.event 0x7C5

end Sys2Proof.Machine
end

