-- ==== Sys2Proof/Machine/Ddr.lean ====
section
/-! DEFINITION. DDR5 beyond single accesses (spec/13): initialisation, failures, patrol scrub, refresh and temperature. -/

namespace Sys2Proof.Machine

/-! Initialisation (R346 to R350). -/

/-- The channels that take part: populated and not excluded at the last training. -/
def Dev.ddrWanted (d : Dev) : List Nat := (setBits d.part.dimmMask 8).filter fun c => !isSet d.ddr.excl c

/-- The number of channels is one that the LK7 can run (R346). -/
def ddrCountOk (n : Nat) : Bool := n == 8 || n == 4 || n == 2

/-- A module is one of those that the LK7 supports (R345). -/
def Dimm.supported (m : Dimm) : Bool :=
  m.kind == 1 && decide (16 ≤ m.gib ∧ m.gib ≤ 256) && (m.ranks == 1 || m.ranks == 2 || m.ranks == 4) && (m.width == 4 || m.width == 8) && decide (m.speed ≤ 4)

/-- What R346 compares of a channel: capacity, ranks and DRAM width of its first DIMM, and DPC. -/
def Part.channelClass (p : Part) (c : Nat) : Nat × Nat × Nat × Nat :=
  let m := (p.slots c).headD default
  (m.gib, m.ranks, m.width, (p.slots c).length)

/-- The slot that fails the SPD check of step 1 on channel `c`, among the channels `all` (R348, R349): one with a module that is not supported, or unlike the other of its channel; slot 0 where the
channel differs from the others.  DEDUCED: a channel differs from the others where no more than half of the channels are like it. -/
def Part.spdFault (p : Part) (all : List Nat) (c : Nat) : Option Nat :=
  let ms := p.slots c
  match (List.range ms.length).find? fun i => !(ms.getD i default).supported with
  | some i => some i
  | none =>
    let a := ms.headD default
    if ms.any fun m => decide ((m.gib, m.ranks, m.width) ≠ (a.gib, a.ranks, a.width)) then some 1
    else if 2 * (all.filter fun i => decide (p.channelClass i = p.channelClass c)).length ≤ all.length ∧ 1 < all.length then some 0 else none

/-- A channel fails a step (R349). -/
def Dev.failChannel (c step slot : Nat) (d : Dev) : Dev :=
  let d1 := (d.wrAt R.DDRCH.CH_STATUS_STATE c 0 4).wrAt R.DDRCH.CH_STATUS_STEP c 0 step
  (d1.wr R.DDR.DDR_STATUS_INIT_FAILED 1).unitFault 0xA6 3 (0x201 + c) (step % 16 + slot % 2 * 16)

/-- Channel `c` starts with step 1, which its SPD may fail at once (R348, R349). -/
def Dev.startChannel (c : Nat) (d : Dev) : Dev :=
  let s := if !isSet d.part.dimmMask c then 0 else if isSet d.ddr.excl c then 5 else 1
  let d1 := ((d.wrAt R.DDRCH.CH_STATUS_STATE c 0 s).wrAt R.DDRCH.CH_STATUS_STEP c 0 (if s = 1 then 1 else 0)).wrAt R.DDRCH.CH_STATUS_LOG_FULL c 0 0
  let d2 := forUpto 64 (fun i d => (d.wrAt R.DDRCH.POISON_VALID c i 0).wrAt R.DDRCH.POISON_PA c i 0) d1
  match d.part.spdFault d.ddrWanted c with
  | some slot => if s = 1 then d2.failChannel c 1 slot else d2
  | none => d2

/-- Every populated channel starts with step 1; contents, poison logs and READY are gone; the fields of DDR_CTRL take effect (R348, R350, R361, R362). -/
def Dev.ddrStart (d : Dev) : Dev :=
  let d1 := { d with ddr :=
    { mem := [], poison := [], scrubAt := [], doubled := [], hash := d.rd R.DDR.DDR_CTRL_HASH, excl := d.rd R.DDR.DDR_CTRL_EXCLUDE, speedMax := d.rd R.DDR.DDR_CTRL_SPEED_MAX
      scrubOn := d.on R.DDR.DDR_CTRL_SCRUB_EN, startAt := d.mono, srSince := [], asked := [] } }
  let d2 := (((d1.wr R.DDR.DDR_STATUS_READY 0).wr R.DDR.DDR_STATUS_INIT_FAILED 0).wr R.DDR.DDR_STATUS_INIT_PERCENT 0).wr R.DDR.DDR_STATUS_ACTIVE 0
  forUpto 8 (fun c d => d.startChannel c) d2

/-- The DIMMs of a channel that takes part. -/
def Dev.ddrDpc (d : Dev) : Nat := (d.part.slots (d.ddrWanted.headD 0)).length

/-- The highest speed bin of the limits of R347. -/
def Dev.ddrSpeed (d : Dev) : Nat :=
  (d.ddrWanted.flatMap d.part.slots).foldl (fun m x => min m x.speed) (min d.ddr.speedMax (if d.ddrDpc = 2 then 2 else 4))

/-- The bytes of the DIMMs of the channels that take part. -/
def Dev.ddrBytes (d : Dev) : Nat := ((d.ddrWanted.flatMap d.part.slots).map (·.gib)).sum * 2 ^ 30

/-- GEOMETRY of a channel, from the SPD (R352). -/
def Dev.showGeometry (c : Nat) (d : Dev) : Dev :=
  let m := (d.part.slots c).headD default
  (((((d.wrAt R.DDRCH.GEOMETRY_DIMM_GIB c 0 m.gib).wrAt R.DDRCH.GEOMETRY_RANKS c 0 m.ranks).wrAt R.DDRCH.GEOMETRY_BG_BITS c 0 m.bgBits).wrAt
    R.DDRCH.GEOMETRY_BANK_BITS c 0 m.bankBits).wrAt R.DDRCH.GEOMETRY_COL_BITS c 0 m.colBits).wrAt R.DDRCH.GEOMETRY_ROW_BITS c 0 m.rowBits

/-- A channel has completed step 8; when every channel that takes part has, READY is set (R350). -/
def Dev.ddrChannelReady (c t : Nat) (d : Dev) : Dev :=
  let d1 := d.toTime t
  let s := d1.rdAt R.DDRCH.CH_STATUS_STATE c 0
  if c < 8 ∧ (s = 1 ∨ s = 2) then
    let d2 := ((d1.wrAt R.DDRCH.CH_STATUS_STATE c 0 3).wrAt R.DDRCH.CH_STATUS_STEP c 0 8).showGeometry c
    let all := d2.ddrWanted
    if ddrCountOk all.length && all.all fun i => d2.rdAt R.DDRCH.CH_STATUS_STATE i 0 == 3 then
      let d3 := ((((d2.wr R.DDR.DDR_STATUS_ACTIVE (all.foldl (fun m i => m + 2 ^ i) 0)).wr R.DDR.DDR_STATUS_SPEED d2.ddrSpeed).wr
        R.DDR.DDR_STATUS_DPC d2.ddrDpc).wr R.DDR.DDR_STATUS_INIT_PERCENT 100).wr R.DDR.CAPACITY d2.ddrBytes
      (d3.wr R.DDR.DDR_STATUS_READY 1).event 0x510
    else d2
  else d

/-- A channel fails a step of its training (R349). -/
def Dev.ddrInitFailed (c step slot t : Nat) (d : Dev) : Dev :=
  let d1 := d.toTime t
  let s := d1.rdAt R.DDRCH.CH_STATUS_STATE c 0
  if c < 8 ∧ (s = 1 ∨ s = 2) then
    d1.failChannel c step slot
  else d

/-- The fields of DDR_CTRL but RETRAIN; a SPEED_MAX of 5 to 7 is dropped (R362). -/
def Dev.ddrCtrlFields (w : Nat) (d : Dev) : Dev :=
  let d1 := ((d.wr R.DDR.DDR_CTRL_EXCLUDE w).wr R.DDR.DDR_CTRL_HASH (w / 2 ^ 8)).wr R.DDR.DDR_CTRL_SCRUB_EN (w / 2 ^ 13)
  if fieldAt w 9 3 ≤ 4 then d1.wr R.DDR.DDR_CTRL_SPEED_MAX (w / 2 ^ 9) else d1

/-- A retrain with the fields now written is accepted (R349): 8, 4 or 2 channels are left, and their DIMMs obey R345 and R346. -/
def Dev.retrainOk (d : Dev) : Bool :=
  let all := (setBits d.part.dimmMask 8).filter fun c => !isSet (d.rd R.DDR.DDR_CTRL_EXCLUDE) c
  ddrCountOk all.length && all.all fun c => (d.part.spdFault all c).isNone

/-- A write of DDR_CTRL with RETRAIN (R349, R350): dropped while the array runs or requests are in flight; one that is not accepted leaves INIT_FAILED as it stands. -/
def Dev.ddrRetrain (w : Nat) (d : Dev) : Dev :=
  if d.running ∨ d.inflight ≠ 0 then d.wr R.DDR.DDR_STATUS_WRITE_REFUSED 1
  else
    let d1 := d.ddrCtrlFields w
    if d1.retrainOk then d1.ddrStart else d1

/-! Patrol scrub (R351, R357). -/

/-- The physical address of a channel address on channel `c`. -/
def Dev.physical (d : Dev) (c a : Nat) : Nat :=
  let b := d.channelBits
  let up := a / 256 * 2 ^ (8 + b)
  let k := (d.activeChannels.findIdx? fun i => i == c).getD 0
  let bits := if d.ddr.hash = 1 then k ^^^ fieldAt up 13 b ^^^ fieldAt up 18 b else k
  up + bits * 256 + a % 256

/-- The patrol scrubber reads the next line of a channel, corrects or poisons it, and ends its pass at the last one. -/
def Dev.patrolScrub (c : Nat) (v : MemView) (t : Nat) (d : Dev) : Dev :=
  let d1 := d.toTime t
  if c < 8 ∧ d1.ddr.scrubOn ∧ d1.ddrReady ∧ d1.rdAt R.DDRCH.CH_STATUS_STATE c 0 = 3 then
    let n := SMap.get d1.ddr.scrubAt c
    let d2 := (d1.ddrRead 5 (d1.physical c (n * 64) / 64) v).2.2
    let lines := d2.rd R.DDR.CAPACITY / 64 / max 1 d2.activeChannels.length
    if lines ≤ n + 1 then
      { d2 with ddr := { d2.ddr with scrubAt := SMap.set d2.ddr.scrubAt c 0 } }.wrAt R.DDRCH.SCRUB_PASSES c 0 (d2.rdAt R.DDRCH.SCRUB_PASSES c 0 + 1)
    else { d2 with ddr := { d2.ddr with scrubAt := SMap.set d2.ddr.scrubAt c (n + 1) } }
  else d

/-! Refresh and temperature (R358, R359). -/

/-- A refresh changes nothing but its counter: requests that meet it wait. -/
def Dev.ddrRefresh (c t : Nat) (d : Dev) : Dev :=
  let d1 := d.toTime t
  if c < 8 ∧ d1.rdAt R.DDRCH.CH_STATUS_STATE c 0 = 3 then d1.count (0x40 + c) 3 1 else d

/-- The DIMM sensors of a channel read `temp` °C at the highest. -/
def Dev.dimmTemp (c temp t : Nat) (d : Dev) : Dev :=
  let d1 := d.toTime t
  let s := d1.rdAt R.DDRCH.CH_STATUS_STATE c 0
  if c < 8 ∧ s ≠ 0 ∧ s ≠ 5 then
    let hot := d1.rdAt R.DDRCH.CH_STATUS_HOT c 0
    let limit := d1.rd R.DDR.THERM_LIMIT
    let d2 := { d1.wrAt R.DDRCH.CH_STATUS_TEMP c 0 temp with ddr := { d1.ddr with doubled := SMap.set d1.ddr.doubled c (bit (decide (85 < temp))) } }
    if limit ≤ temp then (if hot = 1 then d2 else (d2.wrAt R.DDRCH.CH_STATUS_HOT c 0 1).event (0x520 + c))
    else if temp + 5 ≤ limit then d2.wrAt R.DDRCH.CH_STATUS_HOT c 0 0 else d2
  else d

end Sys2Proof.Machine
end

