-- ==== Sys2Proof/Machine/Trace.lean ====
section
/-! DEFINITION. The trace unit beyond its packets (spec/17 R447, R455, R457 to R463): enabling, sinks, flush, overflow, configuration. -/

namespace Sys2Proof.Machine

/-! Sinks (R459 to R461). -/

/-- The sink stops with a reason. -/
def Dev.stopSink (reason : Nat) (d : Dev) : Dev :=
  ((d.wr R.TRACE.TRACE_STATUS_SINK_STOPPED 1).wr R.TRACE.TRACE_STATUS_STOP_REASON reason).event 0x781

/-- The pins that carry a signal of the pin sink: data SUB 0 up, or the clock, SUB 16 (R460, spec/09 R243). -/
def tracePinsOf (sub : Nat) (lvds : Bool) : List Nat :=
  if lvds then (if sub = 16 then [6 * 32 + 30, 6 * 32 + 31] else [5 * 32 + 2 * sub, 5 * 32 + 2 * sub + 1]) else [6 * 32 + sub]

/-- Every pin of the pin sink is in TRACE function, single-ended or LVDS as PIN_LVDS says (R460). -/
def Dev.tracePinsOk (d : Dev) : Bool :=
  let lvds := d.on R.TRACE.TRACE_CTRL_PIN_LVDS
  (16 :: List.range (4 * 2 ^ d.rd R.TRACE.TRACE_CTRL_PIN_WIDTH)).all fun s =>
    (tracePinsOf s lvds).all fun p => d.pinServes p 5 s && isSet (SMap.get d.pins.cfg p) 11 == lvds

/-- The sink starts: the pin sink needs its pins (R461). -/
def Dev.startSink (d : Dev) : Dev := if d.rd R.TRACE.TRACE_CTRL_SINK = 2 ∧ !d.tracePinsOk then d.stopSink 5 else d

/-- The reason for which an access of a sink stops it, and the reports. -/
def Dev.sinkFailed (ctx write : Nat) (r : Dma) (d : Dev) : Dev :=
  let d1 := d.reportDma ctx write 1 r
  match r with
  | .xlate _ _ => d1.stopSink 1
  | .fence _ => d1.stopSink 2
  | .poison _ => d1.stopSink 3
  | .hostError => d1.stopSink 4
  | .done _ | .wait => d1

/-! The enable machine (R396, R462). -/

/-- The unit reaches ON: a cairn and a TS packet. -/
def Dev.traceOn (d : Dev) : Dev :=
  let d1 := ({ d with trc := { d.trc with machine := 2, pendingReq := 0 } }.wr R.TRACE.TRACE_STATUS_RUNNING 1).wr R.TRACE.TRACE_STATUS_POWER_STOPPED 0
  ((d1.startSink).traceCairn (d1.rd R.TAKE.TAKE_NUMBER)).traceTs

/-- The flush of a disable is complete: OFF, and on again where an enable waits. -/
def Dev.traceOff (d : Dev) : Dev :=
  if d.trc.machine = 3 ∧ d.trc.buf = [] then
    let d1 := { d with trc := { d.trc with machine := 0 } }
    if d.trc.pendingReq = 1 then d1.traceOn else d1
  else d

/-- ENABLE is set: from OFF the unit starts; during the flush of a disable the enable waits. -/
def Dev.traceEnable (d : Dev) : Dev :=
  let d1 := d.wr R.TRACE.TRACE_CTRL_ENABLE 1
  if d.trc.machine = 3 then { d1 with trc := { d1.trc with pendingReq := 1 } } else d1.traceOn

/-- ENABLE is cleared: the buffer is flushed to the sink, then the unit is OFF. -/
def Dev.traceDisable (d : Dev) : Dev :=
  let d1 := (d.traceFlush.wr R.TRACE.TRACE_CTRL_ENABLE 0).wr R.TRACE.TRACE_STATUS_RUNNING 0
  if d.trc.machine = 2 then { d1 with trc := { d1.trc with machine := 3 } }.traceOff
  else { d1 with trc := { d1.trc with pendingReq := 0 } }

/-- OVERFLOW with the two counts, then a cairn (R457): OVERFLOWING ends, EV_TRACE_OVERFLOW, LOST_TAKES. -/
def Dev.overflowOut (d : Dev) : Dev :=
  let lost := d.trc.lostTakes
  let bs := packetHead 0x5 0 :: (varint64 lost ++ varint64 d.trc.lostOther)
  let d1 := ((d.wr R.TRACE.TRACE_STATUS_OVERFLOWING 0).streamOut bs).count 0xB4 4 1
  let d2 := { d1 with trc := { d1.trc with lostTakes := 0, lostOther := 0 } }.wr R.TRACE.LOST_TAKES (d1.rd R.TRACE.LOST_TAKES + lost)
  (d2.traceCairn (d2.rd R.TAKE.TAKE_NUMBER)).event 0x780

/-- SINK_RESTART (R461): the sink resumes, beginning with OVERFLOW and a cairn; where they do not fit they follow once a quarter of the buffer is free. -/
def Dev.sinkRestart (d : Dev) : Dev :=
  if d.on R.TRACE.TRACE_STATUS_SINK_STOPPED then
    let d1 := ((d.wr R.TRACE.TRACE_STATUS_SINK_STOPPED 0).wr R.TRACE.TRACE_STATUS_STOP_REASON 0).startSink
    if !d1.tracing then d1
    else if d1.trc.buf.length + 256 ≤ traceBufferSize then d1.overflowOut
    else d1.wr R.TRACE.TRACE_STATUS_OVERFLOWING 1
  else d

/-- The configuration fields of TRACE_CTRL. -/
def Dev.traceCtrlFields (w : Nat) (d : Dev) : Dev :=
  let d1 := (((d.wr R.TRACE.TRACE_CTRL_CAP_EN (w / 2)).wr R.TRACE.TRACE_CTRL_TS_EN (w / 4)).wr R.TRACE.TRACE_CTRL_TD_EN (w / 8)).wr
    R.TRACE.TRACE_CTRL_SINK (w / 2 ^ 4)
  let d2 := ((d1.wr R.TRACE.TRACE_CTRL_OVERWRITE (w / 2 ^ 6)).wr R.TRACE.TRACE_CTRL_LINK_EN (w / 2 ^ 7)).wr R.TRACE.TRACE_CTRL_FILT_EN (w / 2 ^ 8)
  (((d2.wr R.TRACE.TRACE_CTRL_PIN_WIDTH (w / 2 ^ 11)).wr R.TRACE.TRACE_CTRL_PIN_LVDS (w / 2 ^ 13)).wr R.TRACE.TRACE_CTRL_PIN_DIV (w / 2 ^ 14)).wr
    R.TRACE.TRACE_CTRL_CAIRN_KIB (w / 2 ^ 16)

/-- A write of TRACE_CTRL (R459, R461, R462).  While ENABLE is 1 only its clearing, FLUSH and SINK_RESTART are taken; a word with SINK 3, PIN_WIDTH 3 or CAIRN_KIB 0 is
dropped. -/
def Dev.traceCtrlWrite (w t : Nat) (d0 : Dev) : Dev :=
  let d := d0.toTime t
  let flush := isSet w 9
  let restart := isSet w 10
  let acts (d : Dev) : Dev := (d.when flush Dev.traceFlush).when restart Dev.sinkRestart
  if d.on R.TRACE.TRACE_CTRL_ENABLE then
    if w % 2 = 0 then d.traceDisable
    else if flush || restart then acts d
    else d.wr R.TRACE.TRACE_STATUS_WRITE_REFUSED 1
  else if fieldAt w 4 2 = 3 ∨ fieldAt w 11 2 = 3 ∨ w / 2 ^ 16 % 2 ^ 16 = 0 then d
  else
    let d1 := acts (d.traceCtrlFields w)
    if w % 2 = 1 then d1.traceEnable else d1

/-! Lines to the sink (R459). -/

/-- WR − RD. -/
def Dev.ringUsed (d : Dev) : Nat := (2 ^ 64 + d.rd R.TRACE.WR - d.rd R.TRACE.RD) % 2 ^ 64

/-- A line would make WR − RD exceed the ring. -/
def Dev.ringFull (d : Dev) : Bool := !d.on R.TRACE.TRACE_CTRL_OVERWRITE && decide (2 ^ d.rd R.TRACE.RING_CFG_SIZE_LOG2 < d.ringUsed + 64)

/-- The first line of the buffer has been taken. -/
def Dev.lineTaken (d : Dev) : Dev := ({ d with trc := { d.trc with buf := d.trc.buf.drop 64 } }.count 0xB4 6 1)

/-- WR goes on by a line; EV_TRACE_THRESHOLD when WR − RD rises to RING_THRESH. -/
def Dev.advanceWr (d : Dev) : Dev :=
  let th := d.rd R.TRACE.RING_THRESH
  let d1 := d.wr R.TRACE.WR (d.rd R.TRACE.WR + 64)
  if th ≠ 0 ∧ d.ringUsed < th ∧ th ≤ d1.ringUsed then d1.event 0x782 else d1

/-- WR goes to WB_ADDR; while DDR5 is not ready it waits there. -/
def Dev.writeWr (v : MemView) (d : Dev) : Dev :=
  let ctx := d.rd R.TRACE.RING_CFG_RING_CTX
  match d.dmaWrite ctx (d.rd R.TRACE.WB_ADDR) (leBytes (d.rd R.TRACE.WR) 8) v with
  | (.wait, _, d1) => ({ d1 with trc := { d1.trc with wbWaits := true } }.emit .wait).wakeDdr 0x14C true
  | (r, _, d1) => { d1 with trc := { d1.trc with wbWaits := false } }.sinkFailed ctx 1 r

/-- The PCIe stream writes WR to WB_ADDR after every 4 KiB and at the end of a flush. -/
def Dev.writeBack (v : MemView) (d : Dev) : Dev :=
  let flushed := d.trc.wbDue && decide (d.trc.buf.length < 64)
  let d1 := if flushed then { d with trc := { d.trc with wbDue := false } } else d
  if d.rd R.TRACE.TRACE_CTRL_SINK = 1 ∧ (d.rd R.TRACE.WR % 4096 = 0 ∨ flushed) then d1.writeWr v else d1

/-- The line goes into the ring. -/
def Dev.ringLine (v : MemView) (d : Dev) : Dev :=
  let ctx := d.rd R.TRACE.RING_CFG_RING_CTX
  let a := d.rd R.TRACE.RING_BASE + d.rd R.TRACE.WR % 2 ^ d.rd R.TRACE.RING_CFG_SIZE_LOG2
  match d.dmaWrite ctx a (d.trc.buf.take 64) v with
  | (.done _, v1, d1) => ((d1.lineTaken.advanceWr).writeBack v1).traceOff
  | (.wait, _, d1) => (d1.emit .wait).wakeDdr 0x14C true
  | (r, _, d1) => d1.sinkFailed ctx 1 r

/-- The PCIe stream reads RD when the ring appears full. -/
def Dev.readRd (v : MemView) (d : Dev) : Dev :=
  let ctx := d.rd R.TRACE.RING_CFG_RING_CTX
  let a := d.rd R.TRACE.RD_ADDR
  match d.dmaRead 4 ctx a 8 v with
  | (.done bs, v1, d1) =>
    let d2 := d1.wr R.TRACE.RD (leNat bs)
    if d2.ringFull then d2 else d2.ringLine v1
  | (.wait, _, d1) => (d1.emit .wait).wakeDdr 0x14C true
  | (r, _, d1) => d1.sinkFailed ctx 0 r

/-- What a line puts on the data pins, edge of the trace clock by edge (R460): two bytes on 16 pins, the even one on data 0 to 7; a byte on 8; a nibble on 4, the low one
first. -/
def pinEdges (pins : Nat) (bs : Bytes) : List Nat :=
  let n := leNat bs
  (List.range (8 * bs.length / pins)).map fun i => fieldAt n (pins * i) pins

/-- A line leaves on the trace pins, of which there are 4, 8 or 16, LVDS or not, at the full rate divided by 2^PIN_DIV. -/
def Dev.lineOnPins (d : Dev) : Dev :=
  let pins := 4 * 2 ^ d.rd R.TRACE.TRACE_CTRL_PIN_WIDTH
  d.emit (.tracePins pins (d.on R.TRACE.TRACE_CTRL_PIN_LVDS) (d.rd R.TRACE.TRACE_CTRL_PIN_DIV) (pinEdges pins (d.trc.buf.take 64)))

/-- The sink takes a line of 64 bytes from the buffer; a write of WR that waits goes first. -/
def Dev.sinkLine (v : MemView) (t : Nat) (d0 : Dev) : Dev :=
  let d := d0.toTime t
  let sink := d.rd R.TRACE.TRACE_CTRL_SINK
  if d.on R.TRACE.TRACE_STATUS_SINK_STOPPED then d
  else if d.trc.wbWaits then d.writeWr v
  else if d.trc.buf.length < 64 then d
  else if sink = 2 then (if d.pins.sleep then d else (d.lineOnPins.lineTaken).traceOff)
  else if d.ringFull then (if sink = 1 then d.readRd v else d)
  else d.ringLine v

/-- Once a quarter of the buffer is free, OVERFLOW and a cairn are written (R457). -/
def Dev.traceOverflow (t : Nat) (d0 : Dev) : Dev :=
  let d := d0.toTime t
  if d.tracing && d.on R.TRACE.TRACE_STATUS_OVERFLOWING && !d.on R.TRACE.TRACE_STATUS_SINK_STOPPED &&
      decide (4 * d.trc.buf.length ≤ 3 * traceBufferSize) then d.overflowOut
  else d

/-- With the array not running, the TS packet is written when its period has elapsed (R455). -/
def Dev.tsPeriod (t : Nat) (d0 : Dev) : Dev :=
  let d := d0.toTime t
  if d.tracing && !d.running && d.tsDue then d.traceTs else d

/-! Configuration (R447, R454, R462). -/

/-- CFG_SEQ rises by one at every accepted write of CAP_MASK or FIELD_CFG. -/
def Dev.bumpCfgSeq (d : Dev) : Dev := d.wr R.TRACE.TRACE_STATUS_CFG_SEQ (d.rd R.TRACE.TRACE_STATUS_CFG_SEQ + 1)

/-- The write is dropped and shown. -/
def Dev.refuseTrace (d : Dev) : Dev := d.wr R.TRACE.TRACE_STATUS_WRITE_REFUSED 1

/-- Every lane of the enabled fields is selected in CAP_MASK (R447). -/
def Dev.fieldsSelected (d : Dev) : Bool :=
  d.traceFields.all fun f =>
    (List.range (d.rdAt R.TRACE.FIELD_CFG_WIDTH 0 f)).all fun i =>
      let j := d.rdAt R.TRACE.FIELD_CFG_BASE 0 f + i
      isSet (d.rdAt R.TRACE.CAP_MASK 0 (j / 64)) (j % 64)

/-- A write of a word of CAP_MASK_g; one that would leave a field lane unselected breaks R447 and is dropped. -/
def Dev.capMaskWrite (g hi w : Nat) (d : Dev) : Dev :=
  let d1 := d.wrAt R.TRACE.CAP_MASK 0 g (putField (d.rdAt R.TRACE.CAP_MASK 0 g) (32 * hi) 32 w)
  if d1.fieldsSelected then d1.bumpCfgSeq else d.refuseTrace

/-- A write of FIELD_CFG_f. -/
def Dev.fieldCfgWrite (f w : Nat) (d : Dev) : Dev :=
  let n := fieldAt w 16 7
  let d1 := ((d.wrAt R.TRACE.FIELD_CFG_ENABLE 0 f w).wrAt R.TRACE.FIELD_CFG_BASE 0 f (w / 2 ^ 4)).wrAt R.TRACE.FIELD_CFG_WIDTH 0 f n
  if d.on R.TRACE.TRACE_CTRL_ENABLE || n == 0 || decide (64 < n) || !d1.fieldsSelected then d.refuseTrace else d1.bumpCfgSeq

/-- RD is written: a value above WR is dropped. -/
def Dev.rdWrite (v : Nat) (d : Dev) : Dev := if d.rd R.TRACE.WR < v then d else d.wr R.TRACE.RD v

end Sys2Proof.Machine
end

