-- ==== Sys2Proof/Machine/Run.lean ====
section
/-! DEFINITION. Run control (spec/16 R409 to R419): starts and their conditions, halts, the take watchdog; and the registers of the array whose
writes depend on the run state. -/

namespace Sys2Proof.Machine

/-! Conditions of a start (R411). -/

/-- A far port that is enabled has a valid window whose BASE is not a multiple of its size (spec/05 R145). -/
def Dev.farMisaligned (d : Dev) (g : Nat) : Bool :=
  d.rdAt R.FAR.FAR_CTRL_ENABLE g 0 == 1 && (List.range 16).any fun w =>
    d.rdAt R.FAR.WIN_CFG_VALID g w == 1 && decide (d.rdAt R.FAR.WIN_BASE g w * 2 ^ 16 % 2 ^ d.rdAt R.FAR.WIN_CFG_SIZE_LOG2 g w ≠ 0)

/-- Check mode above 500 MHz (spec/06 R170). -/
def Dev.checkClock (d : Dev) : Bool := d.on R.CHECK.CHECK_CTRL_ENABLE && decide (500 < d.rd R.CLK.STEP_MHZ)

/-- The time base of locked mode has SOURCE OFF, or is lost under SAFE (spec/04 R114, R115). -/
def Dev.timeBaseRefuses (d : Dev) : Bool :=
  let n := d.rd R.TAKE.TAKE_CTRL_TB_SEL
  let r := d.rd R.TAKE.TAKE_CTRL_LOST_RESP
  d.locked && (d.tbSource n == 0 || (SMap.get d.clk.lostNow n == 1 && (r == 0 || r == 3)))

/-- The conditions that refuse a start, by code, with whether each holds. -/
def Dev.startRefusals (d : Dev) : List (Nat × Bool) :=
  [ (0x01, decide (d.loadState ≠ 2))
  , (0x02, d.wiredPorts.any fun p => decide (d.portState p ≠ 6))
  , (0x03, decide (d.rd R.EDGE.EDGE_STATUS_RELEASE_STAGE ≠ 3))
  , (0x04, d.checkPorts.any fun p => !d.peerAgrees p)
  , (0x05, decide (d.rd R.CLK.STEP_MHZ < d.ld.stepMin) || decide (d.ld.stepMax < d.rd R.CLK.STEP_MHZ))
  , (0x06, d.checkClock)
  , (0x07, (List.range d.g4s).any d.farMisaligned)
  , (0x08, (List.range d.g4s).any fun g => d.rdAt R.FAR.FAR_STATUS_XLATE_FAULT g 0 == 1)
  , (0x09, (List.range d.g4s).any fun g => decide (d.rdAt R.CHECK.BUDGET 0 g ≠ 0) && decide (d.domState g ≠ 2))
  , (0x0A, !d.on R.DDR.DDR_STATUS_READY)
  , (0x0B, d.linked && decide (400 < d.rd R.TAKE.GLOBAL_LEAD_NS) && d.locked && d.tbSource (d.rd R.TAKE.TAKE_CTRL_TB_SEL) == 7)
  , (0x0C, d.on R.SAFETY.SAFE_STATUS_IN_SAFE)
  , (0x0D, decide (d.powerState ≠ 0) || d.on R.POWER.PWR_STATUS_TRANSITION)
  , (0x0E, d.dbg.erasing)
  , (0x0F, d.on R.LOAD.LOAD_STATUS_STATE_CLEARED)
  , (0x11, d.timeBaseRefuses) ]

/-- The lowest code of a condition that fails. -/
def Dev.startReason (d : Dev) : Option Nat := ((d.startRefusals.find? (·.2)).map (·.1))

/-- A start is refused (R411); CHECK_STATUS.CLOCK_REFUSED and FAR_STATUS.CFG_ERROR show their own conditions. -/
def Dev.refuseStart (code : Nat) (d : Dev) : Dev :=
  let d1 := if d.checkClock then d.wr R.CHECK.CHECK_STATUS_CLOCK_REFUSED 1 else d
  let d2 := forUpto d.g4s (fun g x => x.wrAt R.FAR.FAR_STATUS_CFG_ERROR g 0 (bit (d.farMisaligned g))) d1
  ((d2.wr R.RUN.RUN_STATUS_REFUSED 1).wr R.RUN.RUN_STATUS_REFUSE_REASON code).event 0x7A6

/-! The start (R410, R414, R415). -/

/-- START_CHECK: the schedule digest and the step clock in MHz (spec/11 R301, R303). -/
def Dev.sendStartCheck (d : Dev) : Dev :=
  if d.linked then d.sendAll 0x23 (leBytes d.scheduleDigest 8 ++ leBytes (d.rd R.CLK.STEP_MHZ) 2) else d

/-- At a start with secure content loaded, the contexts of the enabled far ports become secure (R438). -/
def Dev.secureContexts (d : Dev) : Dev :=
  if d.on R.LOAD.LOAD_STATUS_SECURE then
    d.wr R.DBG.SECURE_CTX_MASK ((List.range d.g4s).foldl
      (fun m g => if d.rdAt R.FAR.FAR_CTRL_ENABLE g 0 = 1 then m ||| 2 ^ d.rdAt R.FAR.FAR_CTRL_CTX g 0 else m) (d.rd R.DBG.SECURE_CTX_MASK))
  else d

/-- The record of the last boundary is restored before a take is executed again (spec/03 R90, spec/05 R153, R429). -/
def Dev.startAgain (d : Dev) : Dev := if d.tk.again then (d.restoreBoundary).count 0xB2 11 1 else d

/-- A fenced group that waits for a take at or below the one at which the array rests rejoins at the start (spec/07 R205). -/
def Dev.startRejoin (d : Dev) : Dev :=
  if d.ld.rejoinPending && decide (d.rd R.LOAD.REJOIN_TAKE ≤ d.rd R.TAKE.TAKE_NUMBER) then d.rejoinGroup else d

/-- What a start sets in the sequencer: the takes of a stepped run, the watchdog, the instant of the start. -/
def Dev.armSequencer (d : Dev) : Dev :=
  { d with tk := { d.tk with
      takesLeft := d.rd R.RUN.RUN_CTRL_STEP_TAKES, wdLeft := d.rd R.RUN.WDOG_PERIOD_US * usec, wdOn := false
      started := d.now - 1, startWait := false, startHeld := false, haltReq := 0, stopReq := false, passed := [] } }

/-- Ticks count from now on. -/
def Dev.markStarted (d : Dev) : Dev := { d with tk := { d.tk with started := d.now } }

/-- The START_CHECK of every peer has served its start (R97). -/
def Dev.dropDigests (d : Dev) : Dev := { d with ports := SMap.mapVal d.ports fun q => { q with peerDigest := none, peerStep := 0 } }

/-- The array leaves its rest: belay 0 of the resting take begins. -/
def Dev.beginRun (d : Dev) : Dev :=
  let d1 := ((d.startAgain).armSequencer.dropDigests).wr R.RUN.RUN_STATUS_STATE 1
  let d2 := ((d1.pinsRelease).secureContexts).startRejoin
  let d3 := if d2.locked then (d2.startSubstitutes (d2.rd R.TAKE.TAKE_CTRL_TB_SEL)).markStarted else d2.markStarted
  d3.openBelay

/-- A start whose conditions hold; one that finds the step PLL unlocked waits for its lock (spec/18 R491). -/
def Dev.acceptStart (d : Dev) : Dev :=
  if d.on R.CLK.CLK_STATUS_STEP_LOCKED then d.beginRun else { d with tk := { d.tk with startWait := true } }

/-- Every peer whose digest or step clock differs at a start raises LINK_PEER_MISMATCH (spec/04 R97, spec/11 R303). -/
def Dev.reportPeers (d : Dev) : Dev :=
  forAll (d.checkPorts.filter fun p => !d.peerAgrees p) (fun p d => d.report (d.linkFault 0x64 3 p 0 0) false) d

/-- A start whose START_CHECK has been sent: refused, held until the START_CHECK of every peer has come, or accepted (spec/04 R97).  DEDUCED: the comparison comes
before the acceptance, so a start waits for it. -/
def Dev.tryStart (d0 : Dev) : Dev :=
  let d := { d0 with tk := { d0.tk with startHeld := false } }
  match d.startReason with
  | some code => d.refuseStart code
  | none =>
    if d.checkPorts.any fun p => (d.port p).peerDigest.isNone then { d with tk := { d.tk with startHeld := true } } else d.acceptStart

/-- A start that waits for its peers goes on once the last START_CHECK has come. -/
def Dev.heldStart (d : Dev) : Dev :=
  if d.tk.startHeld && d.checkPorts.all fun p => (d.port p).peerDigest.isSome then d.tryStart else d

/-- A start command. -/
def Dev.start (d : Dev) : Dev := if d.running then d else d.sendStartCheck.reportPeers.tryStart

/-- HALT (R412): the request; a start that waits for the step PLL or for a peer is withdrawn.  The entry into a power state may wait for the halt. -/
def Dev.halt (d : Dev) : Dev := (({ d with tk := { d.tk with startWait := false, startHeld := false } }).requestHalt 1 d.position).powerDue

/-- A write of RUN_CTRL: DEBUG_MODE and STEP_TAKES, then START, then HALT. -/
def Dev.runCtrlWrite (w t : Nat) (d : Dev) : Dev :=
  let d1 := ((d.toTime t).wr R.RUN.RUN_CTRL_DEBUG_MODE (w / 4)).wr R.RUN.RUN_CTRL_STEP_TAKES (w / 2 ^ 16)
  (d1.when (isSet w 0) Dev.start).when (isSet w 1) Dev.halt

/-! The take watchdog (R418, R419). -/

/-- The record of TAKE_WATCHDOG. -/
def Dev.watchdogRecord (d : Dev) : FRec :=
  d.record 0x23 4 0x5 (unitLoc 0x15) (d.rd R.TAKE.TAKE_NUMBER % 2 ^ 48 + d.tk.belay * 2 ^ 48 + bit d.frozen * 2 ^ 52) 0

/-- The count reaches WDOG_PERIOD_US at the stamp `t`: safe state, with it the array fault stop, HALT_CAUSE WATCHDOG. -/
def Dev.takeWatchdog (t : Nat) (d : Dev) : Dev :=
  let d1 := d.toTime t
  if d1.running && d1.tk.wdOn && decide (d1.rd R.RUN.WDOG_PERIOD_US ≠ 0) && decide (d1.tk.wdLeft = 0) then
    let d2 := ({ d1 with tk := { d1.tk with wdOn := false } }.wr R.RUN.RUN_STATUS_HALT_CAUSE 6)
    ((d2.report d1.watchdogRecord false).event 0x7A2).stopForSafe 0x23
  else d

/-- A write of WDOG_PERIOD_US: dropped while the array runs. -/
def Dev.wdogWrite (w : Nat) (d : Dev) : Dev :=
  if d.running then d.wr R.RUN.RUN_STATUS_WRITE_REFUSED 1 else d.wr R.RUN.WDOG_PERIOD_US w

/-! Registers of the array. -/

/-- A write of TAKE_CTRL (spec/04 R125). -/
def Dev.takeCtrlWrite (w : Nat) (d : Dev) : Dev :=
  if d.running then d.wr R.TAKE.TAKE_STATUS_WRITE_REFUSED 1
  else
    let d1 := (d.wr R.TAKE.TAKE_CTRL_MODE w).wr R.TAKE.TAKE_CTRL_TB_SEL (w / 2)
    ((d1.wr R.TAKE.TAKE_CTRL_DEADLINE_RESP (w / 2 ^ 4)).wr R.TAKE.TAKE_CTRL_LOST_RESP (w / 2 ^ 6)).wr R.TAKE.TAKE_CTRL_STEAL_LIMIT (w / 2 ^ 8)

/-- A write of INJECT_THROUGH_HI: the whole value takes effect, and the tail of every SQ is recorded (spec/04 R124, spec/14 R371). -/
def Dev.injectThroughWrite (w : Nat) (d : Dev) : Dev :=
  let key := R.TAKE.INJECT_THROUGH.key 0 0
  let low := d.stagedLow key (d.rd R.TAKE.INJECT_THROUGH)
  let tails := (List.range 64).foldl (fun m q => SMap.set m q (d.rdAt R.ENGQ.SQ_TAIL q 0 + 1)) []
  let d1 := (d.wr R.TAKE.INJECT_THROUGH (low + w % 2 ^ 16 * 2 ^ 32)).unstage key
  { d1 with eng := { d1.eng with tails := tails } }.rewait

/-- A write of CHECK_CTRL (spec/06 R171). -/
def Dev.checkCtrlWrite (w : Nat) (d : Dev) : Dev :=
  if d.running then d.wr R.CHECK.CHECK_STATUS_WRITE_REFUSED 1 else d.wr R.CHECK.CHECK_CTRL_ENABLE w

/-- The bank of page `g` is requested for an owner (spec/05 R136): at once with the array stopped, unless an access of the old owner is in progress. -/
def Dev.requestOwner (g owner : Nat) (d : Dev) : Dev :=
  let d1 := d.wrAt R.BANK.BANK_CTRL_OWNER g 0 owner
  (d1.wrAt R.BANK.BANK_STATUS_HANDOVER_PENDING g 0 (bit (d.bankOwner g != owner))).idleHandovers

/-- ASPECT and JOIN of the page of G2 `g`. -/
def Dev.setBankShape (g aspect join : Nat) (d : Dev) : Dev :=
  let d1 := d.wrAt R.BANK.BANK_CTRL_ASPECT g 0 aspect
  if g % 2 = 0 then
    ((d1.wrAt R.BANK.BANK_CTRL_JOIN g 0 join).wrAt R.BANK.BANK_STATUS_JOINED g 0 join).wrAt R.BANK.BANK_STATUS_JOINED (g + 1) 0 join
  else d1

/-- A write of BANK_CTRL in the page of G2 `g` (spec/05 R127, R131, R136, R140): dropped in the upper page of a joined pair, with a code that is not one, and, while the
array runs, with another ASPECT or JOIN. -/
def Dev.bankCtrlWrite (g w : Nat) (d : Dev) : Dev :=
  let aspect := fieldAt w 0 3
  let join := if g % 2 = 0 then bitAt w 3 else d.rdAt R.BANK.BANK_CTRL_JOIN g 0
  let owner := fieldAt w 4 2
  let shape := decide (aspect ≠ d.rdAt R.BANK.BANK_CTRL_ASPECT g 0) || decide (join ≠ d.rdAt R.BANK.BANK_CTRL_JOIN g 0)
  if decide (d.bankPage g ≠ g) || decide (6 ≤ aspect) || owner == 3 || (d.running && shape) then d.wrAt R.BANK.BANK_STATUS_WRITE_REFUSED g 0 1
  else (d.setBankShape g aspect join).requestOwner g owner

/-- A write of FAR_CTRL or of a window register of far port `g` (spec/05 R154): dropped while the array runs, or with a SIZE_LOG2 outside 16 to 40. -/
def Dev.farCtrlWrite (g off w : Nat) (d : Dev) : Dev :=
  let win := (off - 0x80) / 16
  let base := d.rdAt R.FAR.WIN_BASE g win
  let bad := decide (0x80 ≤ off) && decide (off % 16 = 8) && (decide (fieldAt w 8 6 < 16) || decide (40 < fieldAt w 8 6))
  if d.running || bad then d.wrAt R.FAR.FAR_STATUS_WRITE_REFUSED g 0 1
  else if off = 0x40 then (d.wrAt R.FAR.FAR_CTRL_ENABLE g 0 w).wrAt R.FAR.FAR_CTRL_CTX g 0 (w / 2)
  else if 0x80 ≤ off ∧ off < 0x180 then
    if off % 16 = 0 then d.wrAt R.FAR.WIN_BASE g win (putField base 0 16 (w / 2 ^ 16))
    else if off % 16 = 4 then d.wrAt R.FAR.WIN_BASE g win (putField base 16 16 w)
    else if off % 16 = 8 then
      ((d.wrAt R.FAR.WIN_CFG_VALID g win w).wrAt R.FAR.WIN_CFG_WRITABLE g win (w / 2)).wrAt R.FAR.WIN_CFG_SIZE_LOG2 g win (w / 2 ^ 8)
    else d
  else d

end Sys2Proof.Machine
end

