-- ==== Sys2Proof/Machine/Debug.lean ====
section
/-! DEFINITION. Debug (spec/16 R420 to R444): attaching, the registers of the watch unit, the background access port, the TAP.  Unlocking stands in `Machine/Secure.lean`. -/

namespace Sys2Proof.Machine

/-! Attaching (R420). -/

/-- DBG_CTRL.ATTACH is written. -/
def Dev.setAttach (w : Nat) (d : Dev) : Dev := (d.wr R.DBG.DBG_CTRL_ATTACH w).attachChanged

/-- A write of DBG_CTRL at the stamp `t`, as far as ATTACH goes. -/
def Dev.attachWrite (w t : Nat) (d : Dev) : Dev := (d.toTime t).setAttach w

/-- A new NONCE is drawn (R439): a free value. -/
def Dev.newNonce (d : Dev) : Dev := ((d.free 256).2).wr R.DBG.NONCE (d.free 256).1

/-! The watch unit (R423, R427, R430). -/

/-- The write is dropped and shown. -/
def Dev.refuseWatch (d : Dev) : Dev := d.wr R.WATCH.WATCH_STATUS_WRITE_REFUSED 1

/-- A write of WATCH_CTRL: ACTION 3 is dropped; enabling is refused while secure content is loaded (R438). -/
def Dev.watchCtrlWrite (w t : Nat) (d0 : Dev) : Dev :=
  let d := d0.toTime t
  let was := d.on R.WATCH.WATCH_CTRL_ENABLE
  if fieldAt w 1 2 = 3 then d
  else if w % 2 = 1 ∧ !was ∧ d.on R.LOAD.LOAD_STATUS_SECURE then d.refuseWatch
  else
    let d1 := ((d.wr R.WATCH.WATCH_CTRL_ENABLE w).wr R.WATCH.WATCH_CTRL_ACTION (w / 2)).wr R.WATCH.WATCH_CTRL_REARM (w / 8)
    if w % 2 = 0 then { d1 with dbg := { d1.dbg with watchOn := false, watchPend := false } }
    else if was then d1
    else if d1.running then { d1 with dbg := { d1.dbg with watchPend := true } }
    else d1.watchStart

/-- A field of WIDTH lanes from BASE lies within the probe lanes present (R423). -/
def Dev.watchFieldOk (d : Dev) (w : Nat) : Bool :=
  let n := fieldAt w 16 7
  decide (1 ≤ n ∧ n ≤ 64) && decide (fieldAt w 4 12 + n ≤ d.probeLanes)

/-- A word of a 64-bit register takes effect. -/
def Dev.wrHalf (r : Reg) (k hi w : Nat) (d : Dev) : Dev := d.wrAt r 0 k (putField (d.rdAt r 0 k) (32 * hi) 32 w)

/-- A write of a comparator, CTXID or sequencer word at offset `off` (R423, R430): dropped while ENABLE is 1, with a field outside the probe lanes, or with COUNT 0. -/
def Dev.watchWrite (off w : Nat) (d : Dev) : Dev :=
  let c := (off - 0x100) / 0x20
  let l := (off - 0x900) / 0x20
  if d.on R.WATCH.WATCH_CTRL_ENABLE then d.refuseWatch
  else if off = 0x54 then (if d.watchFieldOk w then d.wr R.WATCH.CTXID_CFG w else d.refuseWatch)
  else if off = 0x58 ∨ off = 0x5C then d.wrHalf R.WATCH.CTXID_VALUE 0 ((off - 0x58) / 4) w
  else if off = 0x60 ∨ off = 0x64 then d.wrHalf R.WATCH.CTXID_MASK 0 ((off - 0x60) / 4) w
  else if 0x100 ≤ off ∧ off < 0x900 then
    match off % 0x20 / 4 with
    | 0 =>
      if d.watchFieldOk w then
        (((d.wrAt R.WATCH.CMP_CFG_ENABLE 0 c w).wrAt R.WATCH.CMP_CFG_INVERT 0 c (w / 2)).wrAt R.WATCH.CMP_CFG_CTX_EN 0 c (w / 4)).wrAt
          R.WATCH.CMP_CFG_BASE 0 c (w / 2 ^ 4) |>.wrAt R.WATCH.CMP_CFG_WIDTH 0 c (w / 2 ^ 16)
      else d.refuseWatch
    | 2 => d.wrHalf R.WATCH.LOW c 0 w
    | 3 => d.wrHalf R.WATCH.LOW c 1 w
    | 4 => d.wrHalf R.WATCH.HIGH c 0 w
    | 5 => d.wrHalf R.WATCH.HIGH c 1 w
    | 6 => d.wrHalf R.WATCH.MASK c 0 w
    | 7 => d.wrHalf R.WATCH.MASK c 1 w
    | _ => d
  else if 0x900 ≤ off ∧ off < 0xA00 then
    match off % 0x20 / 4 with
    | 0 => d.wrHalf R.WATCH.SEQ_COND l 0 w
    | 1 => d.wrHalf R.WATCH.SEQ_COND l 1 w
    | 2 => d.wrHalf R.WATCH.SEQ_RESET l 0 w
    | 3 => d.wrHalf R.WATCH.SEQ_RESET l 1 w
    | 4 =>
      if w / 2 ^ 16 % 2 ^ 16 = 0 then d
      else
        ((d.wrAt R.WATCH.SEQ_CFG_OP 0 l w).wrAt R.WATCH.SEQ_CFG_LAST 0 l (w / 2)).wrAt R.WATCH.SEQ_CFG_EDGE 0 l (w / 4) |>.wrAt
          R.WATCH.SEQ_CFG_COUNT 0 l (w / 2 ^ 16)
    | _ => d
  else d

/-! The background access port (R431 to R437). -/

/-- The access is over: its RESULT is valid, EV_BAP_DONE. -/
def Dev.bapReport (d : Dev) : Dev :=
  let d1 := { d with dbg := { d.dbg with bap := .idle, onBank := none } }
  ((d1.wr R.DBG.BAP_STATUS_BUSY 0).event 0x7A3).idleHandovers

/-- A locked range, by descriptor `i`, that the access meets (R436, R437). -/
def Dev.lockMeets (d : Dev) (i : Nat) : Bool :=
  let a := d.rd R.DBG.BAP_ADDR
  d.rdAt R.DBG.LOCK_PROBE_ENABLE 0 i == 1 && SMap.get d.dbg.lockLanes (d.rdAt R.DBG.LOCK_PROBE_LANE 0 i) % 2 == 1 && d.rdAt R.DBG.LOCK_PROBE_CTX 0 i == d.rd R.DBG.BAP_CTRL_CTX &&
    decide (a < d.rdAt R.DBG.LOCK_LIMIT 0 i) && decide (d.rdAt R.DBG.LOCK_BASE 0 i < a + d.bapLen)

/-- The result that a DVA access has before anything is moved: 3 SECURE, 5 INVALID, 1 LOCKED, 0 OK. -/
def Dev.bapDvaCheck (d : Dev) : Nat :=
  if d.on R.LOAD.LOAD_STATUS_SECURE then 3
  else if d.bapLen = 0 ∨ 64 < d.bapLen ∨ 2 ^ 48 < d.rd R.DBG.BAP_ADDR + d.bapLen then 5
  else if d.on R.DBG.BAP_CTRL_RESPECT_LOCK && (List.range 16).any d.lockMeets then 1
  else 0

/-- A DVA access moves its data (R433): through the DMMU, with requester 2 in its faults; a failure of any kind gives RESULT DMMU. -/
def Dev.bapDvaMove (v : MemView) (d : Dev) : Dev :=
  let ctx := d.rd R.DBG.BAP_CTRL_CTX
  let a := d.rd R.DBG.BAP_ADDR
  let write := d.on R.DBG.BAP_CTRL_WRITE
  let x := if write then d.dmaWrite ctx a (leBytes (d.rd R.DBG.BAP_DATA) d.bapLen) v else d.dmaRead 1 ctx a d.bapLen v
  match x with
  | (.wait, _, d1) => (d1.emit .wait).wakeDdr 0x14C true
  | (.done bs, _, d1) =>
    let d2 := if write then d1 else d1.wr R.DBG.BAP_DATA (leNat bs)
    (d2.wr R.DBG.BAP_STATUS_RESULT 0).bapReport
  | (r, _, d1) => ((d1.reportDma ctx (bit write) 2 r).wr R.DBG.BAP_STATUS_RESULT 4).bapReport

/-- A DVA access takes effect. -/
def Dev.bapDva (v : MemView) (d : Dev) : Dev :=
  match d.bapDvaCheck with
  | 0 => d.bapDvaMove v
  | 1 => ((d.wr R.DBG.DBG_STATUS_LOCKED_ACCESS 1).wr R.DBG.BAP_STATUS_RESULT 1).bapReport
  | r => (d.wr R.DBG.BAP_STATUS_RESULT r).bapReport

/-- The fields of BAP_CTRL. -/
def Dev.bapCtrlFields (w : Nat) (d : Dev) : Dev :=
  let d1 := ((d.wr R.DBG.BAP_CTRL_WRITE (w / 2)).wr R.DBG.BAP_CTRL_SPACE (w / 4)).wr R.DBG.BAP_CTRL_MODE (w / 8)
  let d2 := (d1.wr R.DBG.BAP_CTRL_RESPECT_LOCK (w / 2 ^ 4)).wr R.DBG.BAP_CTRL_BELAY (w / 2 ^ 5)
  (d2.wr R.DBG.BAP_CTRL_CTX (w / 2 ^ 10)).wr R.DBG.BAP_CTRL_LEN (w / 2 ^ 16)

/-- BELAY names no belay of the take: from N to 0x1E, in MODE 0 with the array running (R432). -/
def Dev.bapNoBelay (d : Dev) : Bool :=
  d.running && !d.on R.DBG.BAP_CTRL_SPACE && !d.on R.DBG.BAP_CTRL_MODE &&
    decide (d.tk.pitches ≤ d.rd R.DBG.BAP_CTRL_BELAY ∧ d.rd R.DBG.BAP_CTRL_BELAY ≠ 0x1F)

/-- An access starts.  One to array space wakes its domain (spec/15 R399). -/
def Dev.bapStart (d : Dev) : Dev :=
  if d.bapNoBelay then (d.wr R.DBG.BAP_STATUS_RESULT 5).bapReport
  else
    let array := !d.on R.DBG.BAP_CTRL_SPACE
    let g := { d.dbg with bap := if array then d.bapWhen else .now, onBank := if array && d.bapBank then some (d.bankAt d.bapOff) else none }
    let d1 := { d with dbg := g }.wr R.DBG.BAP_STATUS_BUSY 1
    if array then (d1.offsetGate d.bapOff 0x14C (2 * d.rd R.DBG.BAP_CTRL_WRITE) true).2 else d1

/-- A write of BAP_CTRL: dropped while BUSY is 1; GO starts the access. -/
def Dev.bapCtrlWrite (w t : Nat) (d0 : Dev) : Dev :=
  let d := d0.toTime t
  if d.on R.DBG.BAP_STATUS_BUSY then d
  else
    let d1 := d.bapCtrlFields w
    if w % 2 = 1 then d1.bapStart else d1

/-- The stolen cycle of an access in MODE 1: an inserted step-clock cycle of the belay (spec/04 R103). -/
def Dev.stealCycle (d : Dev) : Dev :=
  let d1 := { d with tk := { d.tk with stolen := d.tk.stolen + 1 } }
  ((d1.count 0xB2 4 1).bapEffect).cycle

/-- The background access in progress takes effect, where the array and the bank let it, and RESULT is reported.  An access to a domain that is not ON
waits for it. -/
def Dev.bapDone (v : MemView) (t : Nat) (d0 : Dev) : Dev :=
  let d := d0.toTime t
  if decide (d.dbg.bap ≠ .idle ∧ d.dbg.bap ≠ .report) && !d.on R.DBG.BAP_CTRL_SPACE && !d.bapPowered then d.emit .wait
  else
  match d.dbg.bap with
  | .idle => d
  | .now => if d.on R.DBG.BAP_CTRL_SPACE then d.bapDva v else d.bapEffect.bapReport
  | .steal => if !d.running then d.bapEffect.bapReport else if d.stealDue then (d.stealCycle).bapReport else d
  | .service => if !d.running then d.bapEffect.bapReport else d
  | .bankIdle g => if d.bankFree g then d.bapEffect.bapReport else d
  | .report => d.bapReport

/-! The TAP (R442, R443). -/

/-- The TAP holds another instruction than before: JTAG_ATTACHED is 1 exactly while it holds DBG_ACCESS (R420). -/
def Dev.tapInstruction (ir : Nat) (d : Dev) : Dev :=
  let d1 := { d with dbg := { d.dbg with tapIr := ir }, pins := { d.pins with extest := ir == 0 } }
  (d1.wr R.DBG.DBG_STATUS_JTAG_ATTACHED (bit (ir == 0x20))).attachChanged

/-- The IDCODE of the part. -/
def Dev.idcode (d : Dev) : Nat := if d.part.dies = 8 then 0x17080DCB else 0x17040DCB

/-- IDCODE is selected and shifted out. -/
def Dev.tapIdcode (t : Nat) (d : Dev) : Dev := (((d.toTime t).tapInstruction 0x02)).emit (.tdo 32 d.idcode)

/-- BYPASS: `n` bits shifted in come out behind one 0. -/
def Dev.tapBypass (n bits t : Nat) (d : Dev) : Dev := ((d.toTime t).tapInstruction 0xFF).emit (.tdo n (bits * 2 % 2 ^ n))

/-- Test-Logic-Reset: IDCODE is selected. -/
def Dev.tapReset (t : Nat) (d : Dev) : Dev := (d.toTime t).tapInstruction 0x02

/-- The TAP loads DBG_ACCESS. -/
def Dev.tapHolds (t : Nat) (d : Dev) : Dev := (d.toTime t).tapInstruction 0x20

/-- The boundary-scan cells captured from the levels of the 320 user pins and, above them, of GCLK0 to GCLK3: a user pin has its output enable in bit 2p and its
level in bit 2p + 1, GCLK g its level in bit 640 + g. -/
def captureCells (levels : Nat) : Nat :=
  (List.range 320).foldl (fun v p => v + bitAt levels p * 2 ^ (2 * p + 1)) (fieldAt levels 320 4 * 2 ^ 640)

/-- SAMPLE/PRELOAD: the cells capture the levels of the pads, which are shifted out, and take `cells`. -/
def Dev.tapSample (levels cells t : Nat) (d0 : Dev) : Dev :=
  let d := (d0.toTime t).tapInstruction 0x01
  { d with pins := { d.pins with bsr := cells % 2 ^ 644 } }.emit (.tdo 644 (captureCells levels))

/-- Every user pin asks the envelope for the level of its governing state. -/
def Dev.driveAll (v : Envelope) (d : Dev) : Dev := forUpto 320 (fun p d => d.drivePin v p 0) d

/-- EXTEST: the cells take `cells` and drive the pads through the envelope; while the array runs it acts as BYPASS. -/
def Dev.tapExtest (v : Envelope) (cells levels t : Nat) (d0 : Dev) : Dev :=
  let d := d0.toTime t
  if d.running then (d.tapInstruction 0xFF).emit (.tdo 644 (cells * 2 % 2 ^ 644))
  else
    let d1 := d.tapInstruction 0x00
    ({ d1 with pins := { d1.pins with bsr := cells % 2 ^ 644 } }.driveAll v).emit (.tdo 644 (captureCells levels))

end Sys2Proof.Machine
end

