-- ==== Sys2Proof/Machine/Safe.lean ====
section
/-! DEFINITION. The safety monitor, the scrubbers, the rail, temperature and clock monitors and the step clock (spec/18 R480 to R491). -/

namespace Sys2Proof.Machine

/-! The safety monitor (R480, R483, R485). -/

/-- The nominal voltage of a VCCIO code in mV (spec/09 R239). -/
def vccioNominal (code : Nat) : Nat := if code = 0 then 1200 else if code = 1 then 1500 else if code = 2 then 1800 else if code = 3 then 2500 else if code = 4 then 3300 else 0

/-- The window of rail `r` in mV. -/
def Dev.railWindow (d : Dev) (r bank : Nat) : Nat × Nat :=
  if r = 0 then (658, 742) else if r = 1 then (705, 795) else if r = 2 then (752, 848) else if r = 3 then (1034, 1166)
  else if r = 4 then (846, 954) else if r = 5 then (1128, 1272) else if r = 6 then (1692, 1908)
  else (vccioNominal (d.rdAt R.PINBANK.BANK_STATUS_VCCIO_CODE bank 0) * 9 / 10, vccioNominal (d.rdAt R.PINBANK.BANK_STATUS_VCCIO_CODE bank 0) * 11 / 10)

/-- The key of a rail monitor. -/
def railKey (r bank : Nat) : Nat := if r < 7 then r else 7 + 16 * bank

/-- An armed rail last read outside its window. -/
def Dev.railOut (d : Dev) : Bool := d.mg.railArmed.any fun k =>
  let r := k % 16
  let bank := k / 16
  let mv := if r < 7 then d.rdAt R.SAFETY.RAIL_MV 0 r else d.rdAt R.SAFETY.VCCIO_MV 0 bank
  decide (mv < (d.railWindow r bank).1) || decide ((d.railWindow r bank).2 < mv)

/-- A temperature stands above the range of clause 2 of R485, which ends 5 °C below TJ_LIMIT (R489). -/
def Dev.hot (d : Dev) : Bool := d.mg.temps.any fun e => decide (signedOf 8 (d.rd R.SAFETY.TJ_LIMIT) - 5 < signedOf 8 e.2)

/-- The reason for which a CLEAR is refused, the lowest that holds (R485).  `outside`: a clock is outside its range at the instant of the write. -/
def Dev.clearReason (v : Envelope) (outside : Bool) (d : Dev) : Option Nat :=
  (([(1, d.on R.SAFETY.SAFE_STATUS_ESTOP_NOW), (2, outside || d.on R.CLK.CLK_STATUS_HOLDOVER || d.hot || d.railOut), (3, d.running),
    (4, !d.on R.SAFETY.SAFE_STATUS_MGMT_RUNNING), (5, !v.locked)] : List (Nat × Bool)).find? (·.2)).map (·.1)

/-- An accepted CLEAR: the latch, SAFE_N and FAULT_N, the keeper window, HALT, EV_SAFE_CLEARED; the step clock runs again. -/
def Dev.leaveSafe (d : Dev) : Dev :=
  let d1 := (d.wr R.SAFETY.SAFE_STATUS_IN_SAFE 0).wr R.ENV.ENV_STATUS_SAFE_DRIVEN 0
  let d2 := { d1 with mg := { d1.mg with faultN := false, safeN := false, thermalStop := false } }
  ((d2.pinsHalt).openWindows fun _ => true).event 0x7C1

/-- SAFE_CTRL.CLEAR is written: without effect while IN_SAFE reads 0. -/
def Dev.clearWrite (v : Envelope) (outside : Bool) (t : Nat) (d0 : Dev) : Dev :=
  let d := d0.toTime t
  if !d.on R.SAFETY.SAFE_STATUS_IN_SAFE then d
  else
    match d.clearReason v outside with
    | some r => (d.wr R.SAFETY.SAFE_STATUS_CLEAR_REFUSED 1).wr R.SAFETY.SAFE_STATUS_CLEAR_REASON r
    | none => d.leaveSafe

/-- SAFE_CTRL.TEST is written: safe state with CAUSE 0x00.  It is no fault, and no record enters the ring. -/
def Dev.testWrite (t : Nat) (d0 : Dev) : Dev :=
  let d := d0.toTime t
  d.enterSafe { d.record 0x00 4 0x5 (unitLoc 0xA) 0 1 with safety := 1 } 0x00

/-- ESTOP_N has been low for 80 envelope cycles: ESTOP_NOW, ESTOP_INPUT, EV_ESTOP. -/
def Dev.estopInput (t : Nat) (d0 : Dev) : Dev :=
  let d := d0.toTime t
  if d.on R.SAFETY.SAFE_STATUS_ESTOP_NOW then d
  else ((d.wr R.SAFETY.SAFE_STATUS_ESTOP_NOW 1).unitFault 0x87 4 0xA 0).event 0x7C2

/-- ESTOP_N has been high for 80 envelope cycles. -/
def Dev.estopDeassert (t : Nat) (d : Dev) : Dev := (d.toTime t).wr R.SAFETY.SAFE_STATUS_ESTOP_NOW 0

/-! Scrubbing (R486, R487). -/

/-- A correction of a scrubber. -/
def Dev.scrubCorrected (d : Dev) : Dev := (d.bump R.SAFETY.SCRUB_CORRECTED).event 0x7C4

/-- An error in the instruction stores that cannot be corrected: SAFETY below L, INFO otherwise. -/
def Dev.scrubBad (kind loc slot : Nat) (d : Dev) : Dev :=
  d.report (d.record 0x88 (if slot < d.tk.len then 4 else 0) kind loc slot 1) false

/-- The scrubber reads instruction word `q` (bp × 2048 + word). -/
def Dev.scrubWord (q : Nat) (d : Dev) : Dev :=
  match decodeEcc 96 (SMap.get d.arr.cols q) with
  | .clean _ => d
  | .corrected w => { d with arr := { d.arr with cols := SMap.set d.arr.cols q (encodeEcc 96 w) } }.scrubCorrected
  | .bad _ _ => d.scrubBad 0x1 (q / 2048) (q % 2048)

/-- The scrubber reads codeword `q` of a selection table (identifier × 512 + slot / 4). -/
def Dev.scrubSel (q : Nat) (d : Dev) : Dev :=
  match decodeEcc 64 (SMap.get d.arr.selTab q) with
  | .clean _ => d
  | .corrected w => { d with arr := { d.arr with selTab := SMap.set d.arr.selTab q (encodeEcc 64 w) } }.scrubCorrected
  | .bad _ _ => d.scrubBad 0x3 (q / 512) (q % 512 * 4)

/-- INSTRUCTION_STORE_SCRUB: the next word of each column, with the selection entries of its slot; after word 2,047 the pass is complete.  It does not run in BIVOUAC. -/
def Dev.storeScrub (t : Nat) (d0 : Dev) : Dev :=
  let d := d0.toTime t
  if d.rd R.POWER.PWR_STATUS_STATE = 2 then d
  else
    let n := d.mg.scrubAt
    let d1 := forAll ((d.arr.cols.filter fun e => e.1 % 2048 == n).map (·.1)) Dev.scrubWord d
    let d2 := if n % 4 = 0 then forAll ((d1.arr.selTab.filter fun e => e.1 % 512 == n / 4).map (·.1)) Dev.scrubSel d1 else d1
    let d3 := { d2 with mg := { d2.mg with scrubAt := (n + 1) % 2048 } }
    if n = 2047 then d3.wr R.SAFETY.SCRUB_PASSES_IS (d3.rd R.SAFETY.SCRUB_PASSES_IS + 1) else d3

/-- EDGE_SCRUB: a pass over the edge configuration and the tables of the envelope unit, in which `corrected` single-bit errors are corrected and the errors `bad`
(in the ENV page rather than the EDGE page, item address) cannot be. -/
def Dev.edgeScrub (corrected : Nat) (bad : List (Bool × Nat)) (t : Nat) (d0 : Dev) : Dev :=
  let d := d0.toTime t
  let d1 := forUpto corrected (fun _ => Dev.scrubCorrected) d
  let d2 := forAll bad (fun e d => d.unitFault 0x88 4 (if e.1 then 0xB else 0x300) (e.2 % 2 ^ 32)) d1
  d2.wr R.SAFETY.SCRUB_PASSES_EDGE (d2.rd R.SAFETY.SCRUB_PASSES_EDGE + 1)

/-! Rails and temperature (R488, R489). -/

/-- The reading of a rail. -/
def Dev.railRead (r bank mv : Nat) (d : Dev) : Dev := if r < 7 then d.wrAt R.SAFETY.RAIL_MV 0 r mv else d.wrAt R.SAFETY.VCCIO_MV 0 bank mv

/-- VOLTAGE_MONITOR: an armed rail has read `mv`, outside its window, for 2 µs. -/
def Dev.voltageMonitor (r bank mv t : Nat) (d0 : Dev) : Dev :=
  let d := (d0.toTime t).railRead r bank mv
  let w := d.railWindow r bank
  if d.mg.railArmed.contains (railKey r bank) && (decide (mv < w.1) || decide (w.2 < mv)) then
    d.unitFault 0x84 4 0xA (r + bit (decide (w.2 < mv)) * 2 ^ 4 + (if r < 7 then 0 else bank) * 2 ^ 8)
  else d

/-- Every rail with a window of its own has entered it. -/
def Dev.railsIn (d : Dev) : Bool := (List.range 7).all fun r => d.mg.railArmed.contains r

/-- RAIL_ENTERS_WINDOW: the monitor of the rail is armed; the 1 ms of the power sequencer counts from the last rail (spec/20 R519). -/
def Dev.railEnters (r bank mv t : Nat) (d0 : Dev) : Dev :=
  let d := (d0.toTime t).railRead r bank mv
  let w := d.railWindow r bank
  if d.mg.railArmed.contains (railKey r bank) || decide (mv < w.1) || decide (w.2 < mv) then d
  else { d with mg := { d.mg with railArmed := railKey r bank :: d.mg.railArmed, railsAt := if r < 7 then d.mono + 1 else d.mg.railsAt } }

/-- A sample of sensor `s`: its reading, and its count of samples in a row at or above TJ_LIMIT. -/
def Dev.sampleSensor (s v : Nat) (d : Dev) : Dev :=
  let n := if signedOf 8 (d.rd R.SAFETY.TJ_LIMIT) ≤ signedOf 8 v then min 5 (SMap.get d.mg.hotCounts s + 1) else 0
  let d1 := { d with mg := { d.mg with temps := SMap.set d.mg.temps s (v % 256), hotCounts := SMap.set d.mg.hotCounts s n } }
  if n = 4 then d1.unitFault 0x85 4 0xA (s + v % 256 * 2 ^ 8) else d1

/-- The highest reading and its sensor, the lowest-numbered one. -/
def hottest : List (Nat × Nat) → Nat × Nat
  | [] => (0, 0)
  | [x] => x
  | x :: xs => if signedOf 8 (hottest xs).2 ≤ signedOf 8 x.2 then x else hottest xs

/-- THERMAL_SAMPLE: every sensor is sampled, `readings` in signed °C in order of the sensors; EV_THERMAL_WARN once until the readings have fallen below TJ_WARN. -/
def Dev.thermalSample (readings : List Nat) (t : Nat) (d0 : Dev) : Dev :=
  let l := (List.range readings.length).zip readings
  let d := forAll l (fun e d => d.sampleSensor e.1 e.2) (d0.toTime t)
  let h := hottest l
  let d1 := (d.wr R.SAFETY.TJ_NOW_TEMP h.2).wr R.SAFETY.TJ_NOW_SENSOR h.1
  let warm := decide (signedOf 8 (d.rd R.SAFETY.TJ_WARN) ≤ signedOf 8 h.2)
  let d2 := { d1 with mg := { d1.mg with warned := warm } }
  if warm && !d.mg.warned then d2.event 0x7C3 else d2

/-! Clocks (R490, R491). -/

/-- A fault of an edge clock is monitored (spec/08 R217): GCT0 (code 5) from stage 1 of the staged global release on, an edge PLL (codes 6 and 7) where it also feeds a tree. -/
def Dev.edgeClockWatched (d : Dev) (code : Nat) : Bool :=
  decide (1 ≤ d.rd R.EDGE.EDGE_STATUS_RELEASE_STAGE) && (code == 5 || (List.range 8).any fun g => d.treeSource g == code - 5)

/-- Clock `code` has no edge (`kind` 0) or a wrong frequency (1).  Loss of REFCLK_100 starts the holdover; either fault of it is the loss of the time bases that need it (spec/10 R280); an
edge PLL is no longer locked. -/
def Dev.clockFails (code kind : Nat) (d : Dev) : Dev :=
  if code = 0 then (d.when (kind == 0) fun x => x.wr R.CLK.CLK_STATUS_HOLDOVER 1).refLost
  else if code = 6 then d.wr R.EDGE.EDGE_STATUS_PLL0_LOCK 0
  else if code = 7 then d.wr R.EDGE.EDGE_STATUS_PLL1_LOCK 0
  else d

/-- CLOCK_MONITOR: a clock fails, which is a fault where the clock is monitored. -/
def Dev.clockMonitor (code kind t : Nat) (d0 : Dev) : Dev :=
  let d := (d0.toTick t).clockFails code kind
  if 5 ≤ code ∧ !d.edgeClockWatched code then d else d.unitFault 0x83 4 0xA (code + kind * 2 ^ 4)

/-- STEP_MHZ is written: the step PLL relocks, or the write is dropped. -/
def Dev.stepMhzWrite (w : Nat) (d : Dev) : Dev :=
  let v := w % 2 ^ 12
  if d.running ∨ d.part.stepLimit < v ∨ v < 500 ∨ v % 10 ≠ 0 then d.wr R.CLK.CLK_STATUS_WRITE_REFUSED 1
  else ((d.wr R.CLK.STEP_MHZ v).wr R.CLK.CLK_STATUS_STEP_LOCKED 0).refreshTrained

/-- The step PLL is locked: a start that waits for it is made. -/
def Dev.stepPllLock (t : Nat) (d0 : Dev) : Dev :=
  let d := (d0.toTime t).wr R.CLK.CLK_STATUS_STEP_LOCKED 1
  if d.tk.startWait then ({ d with tk := { d.tk with startWait := false } }).tryStart else d

end Sys2Proof.Machine
end

