-- ==== Sys2Proof/Machine/Resets.lean ====
section
/-! DEFINITION. The ARRAY reset and the EDGE reset, which a load and a debug unlock make too, the end of an open load (spec/02 R41, spec/03 R89, spec/05 R143,
spec/07 R196, R198, R200, spec/18 R492, R493), and the erasing of secure content (spec/16 R440). -/

namespace Sys2Proof.Machine

/-! The array (R41, R89, R143). -/

/-- What an ARRAY reset clears: entries, shadows and flags, neighbour outputs, the port and far registers, the lanes with driven bit 1, receive buffers and mirrors.  Far requests that
wait for their responses complete in memory, and the responses are discarded (spec/02 R67). -/
def Arr.cleared (r : Arr) : Arr :=
  { r with
    stepRows := [], stateRows := [], shadowRows := [], flagRows := [], badRows := [], wrote := [], firstCommit := [], nbr := []
    portAddr := [], portWd := [], portRd := [], acc := [], coll := [], farAddr := [], farWd := [], farPend := [], farDel := []
    farReq := (r.farReq.filter fun e => !e.2.answered).map fun e => (e.1, { e.2 with discard := true })
    segs := [], segDef := 2, segsLast := [], mirror := [], rx := [], staged := [], journal := [] }

/-- The step in execution is completed (R493); what it would report is not recorded. -/
def Dev.finishStep (d : Dev) : Dev :=
  if d.tk.phase = .stepping then (forAll d.bpsToAct (fun bp d => d.runBp bp) d).applyStep else d

/-- The array comes to rest in STOPPED at belay 0 of take 0, with no fault record (R492, R493). -/
def Dev.toTakeZero (d : Dev) : Dev :=
  let d1 := d.dropInstants.discardPresent.restArray
  let d2 := (d1.wr R.RUN.RUN_STATUS_STATE 0).wr R.TAKE.TAKE_NUMBER 0
  let tk := { d2.tk with again := false, startWait := false, startHeld := false, takesLeft := 0, wdOn := false }
  let d3 := { d2 with tk := tk, dbg := { d2.dbg with firedNow := false } }
  { d3 with tk := { d3.tk with saved := d3.boundaryRecord } }

/-- A stop of the running array by a reset: pins in HALT, a snapshot that waits for a boundary due now (R67, R493). -/
def Dev.stopForReset (d : Dev) : Dev :=
  if d.running then
    let d1 := d.finishStep.pinsHalt
    { d1 with dbg := { d1.dbg with snapPend := d1.dbg.snapPend.map fun x => if x.1 = 0 then (0, true) else x } }
  else d

/-- The ARRAY reset itself.  DEDUCED: R493 names steps 3 to 5 of R67 only, but an access started in the last step makes its array cycle all the same, as R128 gives it.  Ownership
changes that wait for the array to stop take effect (spec/05 R136). -/
def Dev.clearArray (d : Dev) : Dev :=
  let d1 := d.stopForReset.when d.running Dev.bankCycles
  let d2 := forUpto d.g4s (fun g d => d.wrAt R.FAR.FAR_STATUS_ISSUED g 0 0) { d1 with arr := d1.arr.cleared }
  (d2.toTakeZero).handovers.snapNow

/-! The end of an open load (R198). -/

/-- The load ends INCOMPLETE: LOAD_INCOMPLETE with the frames written and FRAME_COUNT. -/
def Dev.loadIncomplete (d : Dev) : Dev :=
  let r := d.record 0x46 3 0x5 (unitLoc 0x14) (d.rd R.LOAD.FRAMES_WRITTEN + d.rd R.LOAD.FRAME_COUNT * 2 ^ 32) 1
  let d1 := ((d.wr R.LOAD.LOAD_STATUS_STATE 3).wr R.LOAD.LOAD_STATUS_LAST_CODE 0x46).report r false
  { d1 with ld := { d1.ld with staging := [], fullDone := false } }

/-- The CHECK registers of a reel that is gone (spec/06 R176). -/
def Dev.clearCheck (d : Dev) : Dev :=
  let d1 := ((d.wr R.CHECK.COST_TABLE 0).wr R.CHECK.TOKEN_CEIL 0).wr R.CHECK.CHECK_STATUS_COST_LOADED 0
  forUpto 64 (fun g d => d.wrAt R.CHECK.BUDGET 0 g 0) d1

/-- What an ARRAY reset that is not part of a load does to the load (R198, R200, R176). -/
def Dev.arrayResetLoad (d : Dev) : Dev :=
  if d.loadState = 2 then d.wr R.LOAD.LOAD_STATUS_STATE_CLEARED 1
  else if d.loadState = 1 then d.loadIncomplete.clearCheck.refreshTrained
  else d.clearCheck

/-- ARRAY_RESET: RESET_CTRL.ARRAY is written. -/
def Dev.arrayReset (t : Nat) (d : Dev) : Dev := (((d.toTime t).clearArray).arrayResetLoad).powerDue

/-! The edge fabric (R196 step 2). -/

/-- The entries of an edge-lane map payload, from `base` upward. -/
def laneEntries (base : Nat) (bs : Bytes) (m : SMap Nat) : SMap Nat := forUpto 1024 (fun i m => SMap.set m (base + i) (leAt bs (4 * i) 4)) m

/-- The payload of an EDGE frame of kind and item `key` = kind × 65,536 + item takes effect (spec/08 R235, R238). -/
def Dev.installEdge (key : Nat) (bs : Bytes) (d : Dev) : Dev :=
  let kind := key / 65536
  if kind = 4 then { d with edge := { d.edge with lanemap := laneEntries (key % 2 * 1024) bs d.edge.lanemap } }
  else if kind = 2 ∧ key % 65536 < 64 then { d with edge := { d.edge with bmem := SMap.store d.edge.bmem (key % 64 * 4096) bs } }
  else
    let d1 := { d with edge := { d.edge with cfg := SMap.set d.edge.cfg key bs } }
    if key = 0x30000 then
      (((d1.wr R.EDGE.PRESENT_CFG_P (leAt bs 24 1)).wr R.EDGE.PRESENT_CFG_OFF (leAt bs 26 2)).wr R.EDGE.EDGE_STATUS_PLL0_LOCK 0).wr R.EDGE.EDGE_STATUS_PLL1_LOCK 0
    else d1

/-- The word that the base configuration gives pin `p`; 0 where it gives none. -/
def Dev.basePinWord (d : Dev) (p : Nat) : Nat := leAt (SMap.get d.edge.base (0x50000 + p / 32)) (8 * (p % 32)) 8

/-- Every pin that is not locked returns to its base word (R249, R492). -/
def Dev.basePins (d : Dev) : Dev :=
  forUpto 320 (fun p d => if d.pinLocked p ∨ d.pinCommitted p = d.basePinWord p then d else d.commitPin p (d.basePinWord p)) d

/-- The edge fabric without a configuration. -/
def Edge.cleared (e : Edge) : Edge :=
  { e with
    cfg := [], lanemap := [], bmem := [], mac := [], longLines := [], memRead := [], coll := [], fifo := [], fifoWord := [], userPrev := [], ptPrev := []
    sampleNext := [], sampleHist := [], tickSamples := [], pre := [], rose := 0, acted := [], popDue := []
    pushDue := [], portWrites := [], presNext := [], probeHist := [] }

/-- The base configuration goes into the edge fabric and the pins. -/
def Dev.installBase (d : Dev) : Dev :=
  forAll d.edge.base (fun e d => if e.1 < 0x50000 then d.installEdge e.1 e.2 else d) d

/-- The EDGE reset itself: the release withdrawn, the base configuration, FIFOs empty. -/
def Dev.clearEdge (d : Dev) : Dev :=
  let d1 := (d.withdrawRelease.discardPresent).settlePins
  let d2 := ((({ d1 with edge := d1.edge.cleared }.wr R.EDGE.PRESENT_CFG_P 1).wr R.EDGE.PRESENT_CFG_OFF 3).wr R.EDGE.EDGE_STATUS_PLL0_LOCK 0).wr
    R.EDGE.EDGE_STATUS_PLL1_LOCK 0
  (d2.installBase.basePins).restEdge

/-- What an EDGE reset does to the load: OPEN or COMPLETE becomes INCOMPLETE (R492), with a record only where it was open (R198). -/
def Dev.edgeResetLoad (d : Dev) : Dev :=
  if d.loadState = 1 then d.loadIncomplete.refreshTrained
  else if d.loadState = 2 then { d.wr R.LOAD.LOAD_STATUS_STATE 3 with ld := { d.ld with fullDone := false } }
  else d

/-- EDGE_RESET: RESET_CTRL.EDGE is written; refused while the array runs (R493). -/
def Dev.edgeReset (t : Nat) (d0 : Dev) : Dev :=
  let d := d0.toTime t
  if d.running then d.wr R.RESET.RESET_STATUS_REFUSED 1 else (d.clearEdge).edgeResetLoad

/-! Erasing secure content (spec/16 R440 steps 1 to 4, spec/07 R195). -/

/-- Steps 1 to 3: the edge fabric at base with its memories cleared, the array, the instruction stores, selection tables and mirror maps, the banks. -/
def Dev.eraseDie (d : Dev) : Dev :=
  let d1 := d.clearEdge
  let d2 := { d1 with edge := { d1.edge with bmem := [] } }.clearArray
  let d3 := { d2 with arr := { d2.arr with cols := [], selTab := [], mirrorMap := [], banks := [] } }
  forUpto d.g2s (fun g d => d.wrAt R.BANK.BANK_STATUS_CLEARED g 0 1) d3

/-- A range of DDR5 is written with 0. -/
def Dev.zeroDdr (lo hi : Nat) (d : Dev) : Dev :=
  let d1 := { d with ddr := { d.ddr with mem := SMap.clear d.ddr.mem lo hi } }
  forAll (SMap.range d1.ddr.poison (lo / 64) (hi / 64)) (fun e d => d.unpoisonLine e.1) d1

/-- One table entry of eight bytes, as it stands in memory. -/
def Dev.rawEntry (host : Bool) (addr : Nat) (v : MemView) (d : Dev) : Nat :=
  if host then ((hostRead v addr 8).map leNat).getD 0 else leNat (SMap.bytes d.ddr.mem addr 8)

/-- Every line of the DDR5 pages that leaves at or below a table map with TARGET 0 is written with 0. -/
def Dev.eraseTable (host : Bool) (addr : Nat) (v : MemView) (d : Dev) : Nat → Dev
  | 0 => d
  | l + 1 =>
    let shift := 3 + 9 * (l + 1)
    forUpto 512 (fun i d =>
      let e := d.rawEntry host (addr + 8 * i) v
      if !isSet e 0 || entryMalformed (l + 1) e then d
      else if isSet e 3 then (if isSet e 4 then d else d.zeroDdr (e / 2 ^ 12 * 2 ^ 12) (e / 2 ^ 12 * 2 ^ 12 + 2 ^ shift))
      else d.eraseTable (isSet e 4) (e / 2 ^ 12 * 2 ^ 12) v l) d

/-- Step 4: the pages of the secure contexts. -/
def Dev.eraseDdr (v : MemView) (d : Dev) : Dev :=
  forAll (setBits (d.rd R.DBG.SECURE_CTX_MASK) 64) (fun c d =>
    if d.rdAt R.DMMU.CTX_ROOT_VALID 0 c = 0 then d
    else d.eraseTable (d.rdAt R.DMMU.CTX_ROOT_ROOT_TARGET 0 c == 1) (d.rdAt R.DMMU.CTX_ROOT_ADDR 0 c * 2 ^ 12) v 4) d

end Sys2Proof.Machine
end

