-- ==== Sys2Proof/Machine/Slate.lean ====
section
/-! DEFINITION. The slate of a reel: its fields, the checks of R187, and its acceptance for a full or a partial load (spec/07 R186, R187, R195, R196, R202 to R204, R206). -/

namespace Sys2Proof.Machine

/-! Fields (R186). -/

def slateFlags (s : Bytes) : Nat := leAt s 0x006 2
def slateSecure (s : Bytes) : Bool := isSet (slateFlags s) 0
def slateSigned (s : Bytes) : Bool := isSet (slateFlags s) 1
def slatePartial (s : Bytes) : Bool := isSet (slateFlags s) 2
def slateSetSize (s : Bytes) : Nat := leAt s 0x00D 1
def slateProduction (s : Bytes) : Nat := leAt s 0x010 8
def slateL (s : Bytes) : Nat := leAt s 0x018 2
def slateN (s : Bytes) : Nat := leAt s 0x01A 1
def slateStepMin (s : Bytes) : Nat := leAt s 0x01C 2
def slateStepMax (s : Bytes) : Nat := leAt s 0x01E 2
def slateFrames (s : Bytes) : Nat := leAt s 0x020 4
def slateCost (s : Bytes) (c : Nat) : Nat := leAt s (0x028 + c) 1
def slatePitch (s : Bytes) (b : Nat) : Nat := leAt s (0x080 + 8 * b) 8
def slateBudget (s : Bytes) (g : Nat) : Nat := leAt s (0x100 + 4 * g) 4
def slateDigest (s : Bytes) : Nat := leAt s 0x400 48

/-- The bytes that say where a reel may not differ from the full reel it is loaded into (R203): PRODUCTION_ID, POSITION, the SECURE flag, L, the pitch map, the cost
table, STEP_MIN and STEP_MAX. -/
def slateFixed (s : Bytes) : List Nat :=
  [slateProduction s, leAt s 0x00C 1, bit (slateSecure s), slateL s, leAt s 0x080 128, leAt s 0x028 8, slateStepMin s, slateStepMax s]

/-! The checks (R187). -/

/-- Check 1: MAGIC, FORMAT, SECURE in FORMAT 2. -/
def slateForm (s : Bytes) : Bool :=
  leAt s 0 4 == 0x4C524B4C && (leAt s 4 2 == 3 || (leAt s 4 2 == 2 && !slateSecure s))

/-- Check 2: the signature, or none where none is needed. -/
def Dev.slateAuth (s : Bytes) (d : Dev) : Bool :=
  let k := leAt s 0xF80 1
  if slateSigned s then
    decide (k < 4) && Config.ecdsaVerify ((d.ld.reelKeys.drop (96 * k)).take 96) (Config.sha384 (s.take 0xFA0)) ((s.drop 0xFA0).take 96)
  else !slateSecure s && !d.ld.requireSigned

/-- The G4s that lie wholly or partly outside the array group of a partial slate. -/
def slateOutside (s : Bytes) (g : Nat) : Bool :=
  let lo := leAt s 0x204 4
  !(leAt s 0x200 1 == 1 && decide (lo ≤ g * 4096 ∧ g * 4096 + 4096 ≤ lo + levelSize (leAt s 0x201 1)))

/-- The conditions of a partial slate (R203).  A G4 that the group of level 3 lies in is taken as inside the region. -/
def Dev.partialFits (s : Bytes) (d : Dev) : Bool :=
  let f := d.ld.fullSlate
  let group3 := leAt s 0x200 1 == 1 && leAt s 0x201 1 == 3
  decide (d.loadState = 2) && d.ld.fullDone && decide (slateFixed s = slateFixed f) &&
    (List.range 64).all fun g => !slateOutside s g || (group3 && g == leAt s 0x204 4 / 4096) || slateBudget s g == slateBudget f g

/-- Check 3: the target. -/
def Dev.slateFits (s : Bytes) (d : Dev) : Bool :=
  leAt s 8 2 == d.deviceId && leAt s 10 1 == d.part.dies && isSet (leAt s 11 1) 0 && leAt s 12 1 % 64 == d.position &&
    (decide (slateSetSize s ≤ 1) || slateProduction s == d.rd R.LOAD.PRODUCTION_ID) && (!slateSecure s || d.part.secure) &&
    decide (slateStepMin s ≤ d.part.stepLimit) && (!slatePartial s || d.partialFits s)

/-- The pitch map (spec/04 R95, R96). -/
def slatePitchesOk (s : Bytes) : Bool :=
  let n := slateN s
  let e := slatePitch s
  decide (1 ≤ n ∧ n ≤ 16) && decide (fieldAt (e 0) 0 11 = 0) &&
    (List.range 16).all fun b =>
      if b < n then
        let next := if b + 1 < n then fieldAt (e (b + 1)) 0 11 else slateL s
        isSet (e b) 63 && decide (fieldAt (e b) 0 11 + 4 ≤ next) && (b == 0 || !isSet (e b) 12) && decide (1 ≤ fieldAt (e b) 24 10) &&
          decide (fieldAt (e b) 24 10 ≤ 1000) && !isSet (e b) 11 && decide (fieldAt (e b) 18 6 = 0) && decide (fieldAt (e b) 34 29 = 0)
      else decide (e b = 0)

/-- The cost floors of the classes (spec/06 R159). -/
def costFloor (c : Nat) : Nat := fieldAt 0x0C0A080404030200 (8 * c) 8

/-- The token ceiling of a reel (spec/06 R159). -/
def slateCeiling (s : Bytes) : Nat := 14080 * 1000 / max 1 (slateStepMax s)

/-- The cost table and the budgets (spec/06 R160). -/
def Dev.slateCostsOk (s : Bytes) (d : Dev) : Bool :=
  (List.range 8).all (fun c => decide (costFloor c ≤ slateCost s c) && (c == 0 || decide (slateCost s (c - 1) ≤ slateCost s c))) &&
    (List.range 64).all fun g => decide (slateBudget s g ≤ slateCeiling s) && (decide (g < d.g4s) || slateBudget s g == 0)

/-- The REGION and BORDER fields (R202, spec/08 R237). -/
def Dev.slateRegionOk (s : Bytes) (d : Dev) : Bool :=
  let kind := leAt s 0x200 1
  let lv := leAt s 0x201 1
  let r := leAt s 0x202 1
  let g := leAt s 0x204 4
  let border := decide (1 ≤ leAt s 0x203 1 ∧ leAt s 0x203 1 ≤ 3) && zeroAt s 0x208 8
  if slatePartial s then
    border &&
      ((kind == 1 && decide (3 ≤ lv ∧ lv ≤ 5) && r == 0 && decide (g < d.bps) && decide (g % levelSize lv = 0)) ||
        (kind == 2 && lv == 0 && decide (r < 16) && g == 0 && zeroAt s 0x340 192))
  else zeroAt s 0x200 16 && zeroAt s 0x300 256

/-- Check 4: reserved fields and ranges. -/
def Dev.slateWellFormed (s : Bytes) (d : Dev) : Bool :=
  decide (slateFlags s < 8) && decide (leAt s 12 1 < 64) && decide (1 ≤ slateSetSize s ∧ slateSetSize s ≤ 64) && zeroAt s 0x00E 2 && zeroAt s 0x01B 1 &&
    zeroAt s 0x024 4 && zeroAt s 0x030 80 && zeroAt s 0x210 240 && zeroAt s 0x468 2840 && zeroAt s 0xF81 31 &&
    (leAt s 4 2 != 2 || zeroAt s 0x430 56) && decide (64 ≤ slateL s ∧ slateL s ≤ 2048) && slatePitchesOk s && d.slateCostsOk s && d.slateRegionOk s &&
    decide (500 ≤ slateStepMin s) && decide (slateStepMin s ≤ slateStepMax s) && decide (1 ≤ slateFrames s ∧ slateFrames s ≤ 0x1000000)

/-- The fault with which a slate fails, the first of R187. -/
def Dev.slateFault (s : Bytes) (d : Dev) : Option Nat :=
  if !slateForm s then some 0x41
  else if !d.slateAuth s then some 0x42
  else if !d.slateFits s then some 0x40
  else if !d.slateWellFormed s then some 0x41
  else none

/-- What a unit of the load stream comes to: written; refused with a fault code (0 where there is none); a full slate while the array runs; a wait. -/
inductive UnitResult where
  | taken
  | refused (code : Nat)
  | running
  | wait
  deriving DecidableEq, Repr

/-- A load-time fault (R187, R189, spec/06 R175): the record names the frame by INDEX, 0 for the slate. -/
def Dev.loadFault (code index detail : Nat) (d : Dev) : Dev :=
  (d.wr R.LOAD.LOAD_STATUS_LAST_CODE code).report (d.record code 3 0x6 index detail 1) false

/-! Acceptance. -/

/-- Of the digests that peers have sent, those of the schedule now loaded still serve (spec/04 R97). -/
def Dev.keepDigests (d : Dev) : Dev :=
  { d with ports := SMap.mapVal d.ports fun q => if q.peerDigest = some d.scheduleDigest then q else { q with peerDigest := none, peerStep := 0 } }

/-- The key of a secure reel, unwrapped with the device key of KEY_SLOT (R193); none where it cannot be unwrapped. -/
def slateKey (s : Bytes) : Option Nat := if slateSecure s then Config.aesUnwrap (leAt s 0x430 4) ((s.drop 0x440).take 40) else none

/-- Step 4 of R196 and what the loader keeps of the slate: MODE, the pitch map, the CHECK registers, FRAME_COUNT. -/
def Dev.takeSlate (s : Bytes) (d : Dev) : Dev :=
  let ld := { d.ld with
    slate := s, fullSlate := s, fullDone := false, setSize := slateSetSize s, members := setMembers (slateProduction s) d.position (slateSetSize s), stepMin := slateStepMin s, stepMax := slateStepMax s
    sigKey := leAt s 0xF80 1, secureKey := slateKey s, expected := 1, frames := [], targets := [], joins := [], staging := [], fencePending := false, rejoinPending := false }
  let tk := { d.tk with len := slateL s, pitches := slateN s, step := slateL s - 1 }
  let d1 := { d with ld := ld, tk := tk, arr := { d.arr with fences := [] } }
  let d2 := forUpto 16 (fun b d => d.wrAt R.TAKE.PITCH_MAP 0 b (slatePitch s b))
    ((d1.wr R.TAKE.TAKE_CTRL_MODE (bitAt (slatePitch s 0) 12)).wr R.TAKE.GLOBAL_LEAD_NS 0)
  let d3 := ((d2.wr R.CHECK.COST_TABLE (leAt s 0x028 8)).wr R.CHECK.TOKEN_CEIL (slateCeiling s)).wr R.CHECK.CHECK_STATUS_COST_LOADED 1
  let d4 := forUpto 64 (fun g d => d.wrAt R.CHECK.BUDGET 0 g (slateBudget s g)) d3
  { d4 with tk := { d4.tk with saved := d4.boundaryRecord } }.keepDigests

/-- Step 5: every G4 domain with a budget is powered up. -/
def Dev.powerBudgeted (s : Bytes) (d : Dev) : Dev :=
  forUpto d.g4s (fun g d => if slateBudget s g ≠ 0 ∧ d.domState g ≠ 2 then (d.setDomReq g 1).domRequest g true else d) d

/-- The status of a load that opens. -/
def Dev.openStatus (s : Bytes) (d : Dev) : Dev :=
  let d1 := ((d.wr R.LOAD.FRAME_COUNT (slateFrames s)).wr R.LOAD.FRAMES_WRITTEN 0).wr R.LOAD.LOAD_STATUS_PARTIAL (bit (slatePartial s))
  d1.wr R.LOAD.LOAD_STATUS_STATE 1

/-- R195: content of a secure load is erased before another full load opens. -/
def Dev.eraseSecure (v : MemView) (d : Dev) : Dev :=
  if d.on R.LOAD.LOAD_STATUS_SECURE then (((d.eraseDie).eraseDdr v).wr R.LOAD.LOAD_STATUS_SECURE 0).wr R.DBG.SECURE_CTX_MASK 0 else d

/-- The steps of R196 for a full load. -/
def Dev.acceptFull (s : Bytes) (v : MemView) (d : Dev) : Dev :=
  let d1 := (d.eraseSecure v).clearEdge
  let d2 := { d1 with edge := { d1.edge with bmem := [] } }.clearArray
  let d3 := { d2 with arr := { d2.arr with cols := [], selTab := [], mirrorMap := [], injTab := [] } }
  let d4 := ((d3.takeSlate s).powerBudgeted s).openStatus s
  let d5 := (d4.wr R.LOAD.LOAD_STATUS_SECURE (bit (slateSecure s))).wr R.DBG.DBG_STATUS_SECURE_STATE (bit (slateSecure s))
  d5.showFenced.refreshTrained.reviveShort.measureLead

/-- An edge region is fenced (R206, spec/08 R237): its border values, its FIFOs emptied, its memories cleared; its macrocells go into reset.  A region fenced again while it is
still fenced keeps a HOLD value. -/
def Dev.fenceRegion (r : Nat) (d : Dev) : Dev :=
  let value (i : Nat) : Nat :=
    let m := d.borderMode i
    if m = 1 then d.macOut (256 * r + i) % 2 else if m = 3 then 1 else 0
  let borders := forUpto 256 (fun i m => SMap.set m (256 * r + i) (value i)) d.edge.borders
  let e := { d.edge with
    fenced := r :: d.edge.fenced.filter (· != r), regionStage := SMap.set d.edge.regionStage r 0, regionE0 := SMap.set d.edge.regionE0 r 0
    borders := borders, bmem := SMap.clear d.edge.bmem (4 * r * 4096) (4 * (r + 1) * 4096)
    fifo := SMap.clear d.edge.fifo (2 * r) (2 * r + 2), fifoWord := SMap.clear d.edge.fifoWord (2 * r) (2 * r + 2) }
  ({ d with edge := e }.restEdge).showFenced

/-- A partial slate is accepted (R203, R204, R206): the rest of the device stays as it stands. -/
def Dev.acceptPartial (s : Bytes) (d : Dev) : Dev :=
  let ld := { d.ld with slate := s, secureKey := slateKey s, expected := 1, frames := [], targets := [], joins := [], staging := [] }
  let d1 := { d with ld := ld }.openStatus s
  if leAt s 0x200 1 = 1 then
    if d1.running then { d1 with ld := { d1.ld with fencePending := true } } else d1.fenceGroup
  else d1.fenceRegion (leAt s 0x202 1)

/-- A slate arrives. -/
def Dev.slateUnit (s : Bytes) (v : MemView) (d : Dev) : UnitResult × Dev :=
  match d.slateFault s with
  | some c => (.refused c, d.loadFault c 0 0)
  | none =>
    if d.dbg.erasing then (.wait, d)
    else if slatePartial s then
      if leAt s 0x200 1 = 1 ∧ d.running ∧ d.rd R.LOAD.FENCE_TAKE ≤ d.rd R.TAKE.TAKE_NUMBER then (.refused 0, d.wr R.LOAD.LOAD_STATUS_FENCE_PASSED 1)
      else (.taken, d.acceptPartial s)
    else if d.running then (.running, d.wr R.LOAD.LOAD_STATUS_RUN_REFUSED 1)
    else (.taken, (if d.loadState = 1 then d.loadIncomplete else d).acceptFull s v)

end Sys2Proof.Machine
end

