-- ==== Sys2Proof/Machine/Frames.lean ====
section
/-! DEFINITION. The frames of a reel: their header, the rules of every type, and what each writes (spec/07 R188 to R192, spec/03 R71 to R73, R86, spec/05 R141, R142,
spec/08 R213, R214, R235, R236, spec/09 R247, spec/10 R288). -/

namespace Sys2Proof.Machine

/-! The header (R188). -/

def frameAddr (f : Bytes) : Nat := leAt f 0 4
def frameType (f : Bytes) : Nat := leAt f 4 1
def frameFlags (f : Bytes) : Nat := leAt f 5 1
def frameLen (f : Bytes) : Nat := leAt f 6 2
def frameIndex (f : Bytes) : Nat := leAt f 8 4
def frameTag (f : Bytes) : Bytes := (f.drop 12).take 16
def reelPayload (f : Bytes) : Bytes := f.drop 32
def frameCrcOk (f : Bytes) : Bool := leAt f 28 4 == crc32c (f.take 28 ++ reelPayload f)

/-- The target of a frame: its TYPE and ADDRESS (R189). -/
def frameTarget (f : Bytes) : Nat := frameType f * 2 ^ 32 + frameAddr f

/-! The region of a partial load (R203). -/

/-- The load in progress is partial, of an array group. -/
def Dev.loadsGroup (d : Dev) : Bool := d.on R.LOAD.LOAD_STATUS_PARTIAL && d.slateKind == 1
/-- The load in progress is partial, of an edge region. -/
def Dev.loadsRegion (d : Dev) : Bool := d.on R.LOAD.LOAD_STATUS_PARTIAL && d.slateKind == 2

/-- The BPs `[lo, hi)` may be addressed. -/
def Dev.bpsInLoad (d : Dev) (lo hi : Nat) : Bool :=
  decide (hi ≤ d.bps) && !d.loadsRegion &&
    (!d.loadsGroup || decide (d.slateGroup ≤ lo ∧ hi ≤ d.slateGroup + levelSize d.slateLevel))

/-! INSTR, STATE, BANK. -/

def Dev.instrAddrOk (d : Dev) (a len : Nat) : Bool :=
  decide (a < 2 ^ 21) && d.bpsInLoad (a % 2 ^ 18) (a % 2 ^ 18 + 1) && decide (len % 12 = 0) && decide (12 ≤ len ∧ len ≤ 3072)

/-- An INSTR frame: words 256c to 256c + n − 1 of one column, with fresh check bits (R190, spec/02 R40). -/
def Dev.installInstr (a : Nat) (p : Bytes) (d : Dev) : Dev :=
  let q := a % 2 ^ 18 * 2048 + a / 2 ^ 18 % 8 * 256
  forUpto (p.length / 12) (fun i d => d.writeWord (q + i) (leAt p (12 * i) 12)) d

def Dev.stateAddrOk (d : Dev) (a len : Nat) : Bool := decide (a < d.g2s) && d.bpsInLoad (a * 64) (a * 64 + 64) && decide (len = 4096)

/-- A STATE frame: the state entries of one G2, with fresh parity (R190). -/
def Dev.installState (a : Nat) (p : Bytes) (d : Dev) : Dev := forUpto 4096 (fun i d => d.writeRow 1 64 (a * 4096 + i) (leAt p i 1)) d

/-- A BANK frame of kind CONFIG of this reel has set JOIN of G2 `g`. -/
def Dev.joinLoaded (d : Dev) (g : Nat) : Bool := d.ld.joins.contains g

/-- The address and length of a BANK frame (R141, R142). -/
def Dev.bankAddrOk (d : Dev) (a len : Nat) : Bool :=
  let kind := a / 2 ^ 28
  let g := a / 2 ^ 16 % 2 ^ 12
  let chunk := a % 32
  decide (kind ≤ 1) && decide (g < d.g2s) && decide (a / 32 % 2 ^ 11 = 0) && d.bpsInLoad (g * 64) (g * 64 + 64) &&
    if kind = 0 then decide (chunk = 0) && decide (len = 8) && !(g % 2 == 0 && d.joinLoaded (g + 1))
    else decide (len = 4096) && (decide (chunk < 16) || d.joinLoaded g) && !(g % 2 == 1 && d.joinLoaded (g - 1))

/-- The codes of a CONFIG payload. -/
def bankConfigOk (g : Nat) (p : Bytes) : Bool :=
  decide (leAt p 0 1 ≤ 5) && decide (leAt p 1 1 ≤ 1) && decide (leAt p 2 1 ≤ 2) && zeroAt p 3 5 && !(g % 2 == 1 && leAt p 1 1 == 1)

/-- A BANK frame: BANK_CTRL, or one chunk of the contents, whatever the owner (R141). -/
def Dev.installBank (a : Nat) (p : Bytes) (d : Dev) : Dev :=
  let g := a / 2 ^ 16 % 2 ^ 12
  if a / 2 ^ 28 = 0 then
    let joins := if leAt p 1 1 = 1 then g :: d.ld.joins else d.ld.joins
    ({ d with ld := { d.ld with joins := joins } }.setBankShape g (leAt p 0 1) (leAt p 1 1)).requestOwner g (leAt p 2 1)
  else { d with arr := { d.arr with banks := SMap.store d.arr.banks (g * 0x10000 + a % 32 * 4096) p } }

/-! LANE (spec/03 R71 to R73, R86, spec/11 R299). -/

/-- The lanes of a segment type in one group (spec/03 R69). -/
def typeLanes (ty : Nat) : Nat :=
  if ty = 1 then 8 else if ty = 2 ∨ ty = 3 then 32 else if ty = 4 ∨ ty = 5 then 128 else if ty = 6 ∨ ty = 7 then 384 else 1024

/-- SRC is listed for a segment type (R72); hub receive registers of dies that the part lacks are not (R92). -/
def srcListed (dies ty src : Nat) : Bool :=
  if ty = 1 then decide (src < 96) || (decide (2048 ≤ src) && decide (src < 4096))
  else if ty = 2 then decide (src < 64)
  else if ty = 3 then decide (src < 384)
  else if ty = 4 then decide (src < 256)
  else if ty = 5 then decide (src < 1408)
  else if ty = 6 then decide (src < 1024)
  else if ty = 7 then decide (src < 3072) || (decide (4096 ≤ src) && decide (src < 5120))
  else if ty = 8 then decide (src < 3072)
  else decide (src < dies * 1024) || (decide (8192 ≤ src) && decide (src < 9216))

/-- A selection entry is valid (R71, R72). -/
def selEntryOk (dies ty e : Nat) : Bool := if isSet e 15 then srcListed dies ty (e % 2 ^ 15) else decide (e = 0)

/-- The port may carry slots of lane `l`: it is ACTIVE and has trained it (R86). -/
def Dev.laneTrained (d : Dev) (p l : Nat) : Bool := d.portState p == 6 && decide (l < d.trained p)

/-- A belay of the loaded pitch map carries WAIT_LINK. -/
def Dev.linkBelay (d : Dev) (q : Nat) : Bool := decide (q < d.tk.pitches) && isSet (d.mapEntry q) 14

/-- The address and length of a LANE frame. -/
def Dev.laneAddrOk (d : Dev) (a len : Nat) : Bool :=
  let ty := segTy a
  let g := segGroup a
  let lane := segLane a
  if ty = 0xA then
    decide (g = 0) && !d.on R.LOAD.LOAD_STATUS_PARTIAL && d.laneTrained (lane / 128) (lane % 128) && isSet (d.mapEntry 0) 14 && decide (len = 2 * d.tk.len)
  else if ty = 0xB then
    decide (g % 4096 = 0) && decide (lane < 32) && d.linkBelay (lane / 2) && isSet (d.mapEntry 0) 14 && decide (len = 4096) && d.bpsInLoad g (g + 4096)
  else
    decide (1 ≤ ty ∧ ty ≤ 9) && decide (g % levelSize (ownerLevel ty) = 0) && decide (lane < typeLanes ty) && decide (len = 2 * d.tk.len) &&
      d.bpsInLoad g (g + levelSize (ownerLevel ty))

/-- A mirror map entry is valid (R86). -/
def Dev.mapEntryOk (d : Dev) (e : Nat) : Bool :=
  decide (e % 2 ^ 10 = 0) && (!isSet e 31 || (d.laneTrained (fieldAt e 28 3) (fieldAt e 21 7) && decide (fieldAt e 10 11 < d.tk.len)))

/-- The first entry of a LANE payload that is refused. -/
def Dev.badLaneEntry (d : Dev) (a : Nat) (p : Bytes) : Option Nat :=
  if segTy a = 0xB then (List.range 1024).find? fun i => !d.mapEntryOk (leAt p (4 * i) 4)
  else (List.range (p.length / 2)).find? fun t => !selEntryOk d.part.dies (segTy a) (leAt p (2 * t) 2)

/-- A LANE frame: the selection table of a segment, in codewords of four entries, or half of one link mirror map. -/
def Dev.installLane (a : Nat) (p : Bytes) (d : Dev) : Dev :=
  if segTy a = 0xB then
    let base := (segGroup a / 4096 * 16 + segLane a / 2) * 2048 + segLane a % 2 * 1024
    { d with arr := { d.arr with mirrorMap := forUpto 1024 (fun i m => SMap.set m (base + i) (leAt p (4 * i) 4)) d.arr.mirrorMap } }
  else
    let tab := forUpto ((p.length + 7) / 8) (fun i m => SMap.set m (a * 512 + i) (encodeEcc 64 (leAt p (8 * i) 8))) d.arr.selTab
    { d with arr := { d.arr with selTab := tab } }

/-! PITCH (R190). -/

def Dev.pitchAddrOk (d : Dev) (a len : Nat) : Bool :=
  !d.on R.LOAD.LOAD_STATUS_PARTIAL && decide (a < 16) && decide (a < d.tk.pitches) && isSet (d.mapEntry a) 15 && decide (len % 4 = 0) && decide (4 ≤ len ∧ len ≤ 4096)

/-- The entries of an injection target list: every BP populated, reserved bits 0, no target twice. -/
def Dev.targetsOk (d : Dev) (p : Bytes) : Bool :=
  let es := (List.range (p.length / 4)).map fun i => leAt p (4 * i) 4
  es.all (fun e => decide (e < 2 ^ 27) && decide (e % 2 ^ 18 < d.bps)) && distinct es

/-- A PITCH frame: the injection target list of a belay. -/
def Dev.installPitch (a : Nat) (p : Bytes) (d : Dev) : Dev :=
  { d with arr := { d.arr with injTab := SMap.set d.arr.injTab a ((List.range (p.length / 4)).map fun i => leAt p (4 * i) 4) } }

/-! EDGE (spec/08 R213, R214, R235, R236). -/

/-- A routing-signal number (spec/08 R209). -/
def signalOk (n : Nat) : Bool := decide (n < 0x1140) || (decide (0x1400 ≤ n) && decide (n ≤ 0x2CC5)) || n == 0xFFFF

/-- `n` numbers of two bytes from offset `off`. -/
def signalsOk (p : Bytes) (off n : Nat) : Bool := (List.range n).all fun i => signalOk (leAt p (off + 2 * i) 2)

/-- The region of an item and the length of its payload; none for an item that does not exist. -/
def edgeItem (kind item : Nat) : Option (Nat × Nat) :=
  if kind = 0 ∧ item < 1024 then some (item / 64, 324)
  else if kind = 1 ∧ item < 256 then some (item / 16, 96)
  else if kind = 2 ∧ item < 64 then some (item / 4, 4096)
  else if kind = 2 ∧ 0x100 ≤ item ∧ item < 0x140 then some ((item - 0x100) / 4, 208)
  else if kind = 3 ∧ item = 0 then some (0, 32)
  else if kind = 3 ∧ 0x100 ≤ item ∧ item < 0x120 then some ((item - 0x100) / 2, 72)
  else if kind = 3 ∧ item = 0x200 then some (0, 512)
  else if kind = 4 ∧ item ≤ 1 then some (0, 4096)
  else none

/-- The address and length of an EDGE frame. -/
def Dev.edgeAddrOk (d : Dev) (a len : Nat) : Bool :=
  let kind := a / 2 ^ 28
  let region := a / 2 ^ 24 % 16
  let item := a % 2 ^ 16
  match edgeItem kind item with
  | none => false
  | some (r, n) =>
    decide (a / 2 ^ 16 % 256 = 0) && decide (region = r) && decide (len = n) &&
      (!d.on R.LOAD.LOAD_STATUS_PARTIAL ||
        (d.loadsRegion && leAt d.ld.slate 0x202 1 == r && (decide (kind ≤ 2) || (kind == 3 && decide (0x100 ≤ item) && decide (item < 0x120)))))

/-- A macrocell word is valid (R211). -/
def macWordOk (w : Nat) : Bool := decide (macClk w ≤ 8) && decide (fieldAt w 38 2 ≠ 3) && decide (fieldAt w 40 24 = 0)

/-- A PLL word is within the limits of R213, in kHz. -/
def pllWordOk (w : Nat) : Bool :=
  let f := if isSet w 1 then Config.gclk0 else 100000
  let m := fieldAt w 2 7
  let dv := fieldAt w 9 3 + 1
  let o := fieldAt w 12 7
  decide (fieldAt w 19 45 = 0) &&
    (!isSet w 0 || (decide (10000 * dv ≤ f) && decide (800000 * dv ≤ f * m) && decide (f * m ≤ 1600000 * dv) && decide (o ≠ 0) && decide (f * m ≤ 400000 * dv * o)))

/-- A tree source, given which PLLs are enabled (R214). -/
def treeSourceOk (g src : Nat) (pll0 pll1 : Bool) : Bool :=
  (decide (src ≤ 2) || (decide (4 ≤ src) && decide (src ≤ 0xC))) && (g != 0 || src == 1 || src == 2 || (decide (4 ≤ src) && decide (src ≤ 7))) &&
    (src != 1 || pll0) && (src != 2 || pll1)

/-- A clock frame (R235, R236). -/
def clockFrameOk (p : Bytes) : Bool :=
  let w0 := leAt p 0 8
  let w1 := leAt p 8 8
  pllWordOk w0 && pllWordOk w1 && (List.range 8).all (fun g => treeSourceOk g (leAt p (16 + g) 1) (isSet w0 0) (isSet w1 0)) &&
    decide (1 ≤ leAt p 24 1 ∧ leAt p 24 1 ≤ 15) && zeroAt p 25 1 && decide (3 ≤ leAt p 26 2) && zeroAt p 28 4

/-- A FIFO frame (R235). -/
def fifoFrameOk (p : Bytes) : Bool :=
  let out := leAt p 0 1 == 1
  decide (leAt p 0 1 ≤ 1) && decide (leAt p 1 1 ≤ 7) && zeroAt p 2 2 && signalOk (leAt p 4 2) &&
    (if out then decide (leAt p 6 2 ≤ 991) && (List.range 32).all fun i => leAt p (8 + 2 * i) 2 == 0xFFFF
     else decide (leAt p 6 2 = 0) && signalsOk p 8 32)

/-- The payload of an EDGE frame obeys its kind. -/
def edgePayloadOk (kind item : Nat) (p : Bytes) : Bool :=
  if kind = 0 then zeroAt p 291 1 && (List.range 4).all fun i => macWordOk (leAt p (292 + 8 * i) 8)
  else if kind = 1 then signalsOk p 0 48
  else if kind = 2 then
    decide (item < 64) ||
      (decide (leAt p 0 1 ≤ 5) && decide (leAt p 1 1 ≤ 7) && decide (leAt p 2 1 ≤ 7) && zeroAt p 3 5 && signalsOk p 8 100 &&
        leAt p 106 2 == 0xFFFF && leAt p 206 2 == 0xFFFF)
  else if kind = 3 then
    if item = 0 then clockFrameOk p else if item = 0x200 then signalsOk p 0 256 else fifoFrameOk p
  else if item = 0 then (List.range 1024).all fun i => decide (fieldAt (leAt p (4 * i) 4) 16 15 = 0) && signalOk (leAt p (4 * i) 2)
  else (List.range 1024).all fun i => decide (leAt p (4 * i) 4 % 2 ^ 31 = 0)

/-! PIN (spec/09 R241, R243, R247, spec/07 R192). -/

/-- The word that stands for pin `p` once the frame of bank `b` has been taken: locked pins keep theirs. -/
def Dev.pinFrameWord (d : Dev) (b : Nat) (bs : Bytes) (p : Nat) : Nat :=
  if p / 32 = b ∧ !d.pinLocked p then leAt bs (8 * (p % 32)) 8 else d.pinCommitted p

/-- Every word of the frame for a pin that is not locked is valid, with the measured VCCIO, and no pair is left half done. -/
def Dev.pinFrameOk (d : Dev) (b : Nat) (bs : Bytes) : Bool :=
  (List.range 32).all fun k =>
    let p := b * 32 + k
    let w := d.pinFrameWord b bs p
    let mate := d.pinFrameWord b bs (pinMate p)
    d.pinLocked p ||
      (pinWordValid p w && fieldAt w 13 3 == d.vccio p && !traceClash (d.pinFrameWord b bs) p w && (!pinLvds w || pairValid w mate))

/-- A PIN frame: the words of one bank, those of locked pins skipped (R192). -/
def Dev.installPins (b : Nat) (bs : Bytes) (d0 : Dev) : Dev :=
  forUpto 32 (fun k d =>
    let p := b * 32 + k
    if d.pinLocked p then d.wr R.LOAD.LOAD_STATUS_PIN_LOCKED_SKIPPED 1 else d.commitPin p (leAt bs (8 * k) 8)) d0.settlePins

/-! TIMEBASE (spec/10 R288). -/

def timebaseAddrOk (a len : Nat) : Bool :=
  decide (a < 32) && decide (a / 4 % 4 = 0) && (if a / 16 = 0 then decide (len = 64) else decide (len % 8 = 0) && decide (8 ≤ len ∧ len ≤ 4096))

/-- The entries of a comparator list. -/
def listEntries (p : Bytes) : List Nat := (List.range (p.length / 8)).map fun i => leAt p (8 * i) 8

/-- A TIMEBASE frame: the source block or the comparator list of a time base. -/
def Dev.installTimebase (a : Nat) (p : Bytes) (d : Dev) : Dev :=
  let n := a % 4
  if a / 16 = 0 then d.setTbBlock n p true else { d with clk := { d.clk with list := SMap.set d.clk.list n (listEntries p) } }

/-! Every type. -/

/-- The address and length of a frame obey its type (R189, R190). -/
def Dev.frameAddrOk (d : Dev) (ty a len : Nat) : Bool :=
  match ty with
  | 1 => d.instrAddrOk a len
  | 2 => d.stateAddrOk a len
  | 3 => d.bankAddrOk a len
  | 4 => d.laneAddrOk a len
  | 5 => d.pitchAddrOk a len
  | 6 => d.edgeAddrOk a len
  | 7 => !d.on R.LOAD.LOAD_STATUS_PARTIAL && decide (a < 10) && decide (len = 256)
  | 8 => !d.on R.LOAD.LOAD_STATUS_PARTIAL && timebaseAddrOk a len
  | _ => false

/-- The DETAIL of a payload that is refused, none where it is accepted.  DESIGN CHOICE: of a LANE frame, the segment in [63:32] and the entry in [26:16]. -/
def Dev.payloadBad (d : Dev) (ty a : Nat) (p : Bytes) : Option Nat :=
  let no (ok : Bool) : Option Nat := if ok then none else some 0
  match ty with
  | 3 => no (a / 2 ^ 28 == 1 || bankConfigOk (a / 2 ^ 16 % 2 ^ 12) p)
  | 4 => (d.badLaneEntry a p).map fun i => a * 2 ^ 32 + i * 2 ^ 16
  | 5 => no (d.targetsOk p)
  | 6 => no (edgePayloadOk (a / 2 ^ 28) (a % 2 ^ 16) p)
  | 7 => no (d.pinFrameOk a p)
  | 8 => no (if a / 16 = 0 then blockValid p else listValid (d.rdAt R.TBASE.CPR (a % 4) 0) (d.tbSource (a % 4)) (listEntries p))
  | _ => none

/-- What a frame writes. -/
def Dev.installFrame (ty a : Nat) (p : Bytes) (d : Dev) : Dev :=
  match ty with
  | 1 => d.installInstr a p
  | 2 => d.installState a p
  | 3 => d.installBank a p
  | 4 => d.installLane a p
  | 5 => d.installPitch a p
  | 6 => d.installEdge (a / 2 ^ 28 * 65536 + a % 2 ^ 16) p
  | 7 => d.installPins a p
  | _ => d.installTimebase a p

/-! The check of the whole edge configuration (spec/08 R219, R224). -/

/-- The macrocells that may drive long line `l`, with LL_OE. -/
def Dev.mayDrive (d : Dev) (l : Nat) : List (Nat × Nat) :=
  d.macs.filterMap fun m =>
    let w := d.macWord m
    if fieldAt w 32 6 = l ∧ fieldAt w 38 2 ≠ 0 then some (m, fieldAt w 38 2) else none

/-- The lowest-numbered long line that an always-enabled driver shares: the line and the two macrocells, lower first. -/
def Dev.contention (d : Dev) : Option (Nat × Nat × Nat) :=
  (List.range 64).findSome? fun l =>
    let ds := d.mayDrive l
    match ds.find? fun x => x.2 == 1 with
    | none => none
    | some a => (ds.find? fun x => x.1 != a.1).map fun b => (l, min a.1 b.1, max a.1 b.1)

/-- The first OUT FIFO whose lanes are not all connected. -/
def Dev.looseFifo (d : Dev) : Option Nat :=
  (List.range 32).find? fun f =>
    d.fifoOut f && !(List.range 33).all fun i => d.laneOutConnected (leAt (d.fifoCfg f) 6 2 + i)

end Sys2Proof.Machine
end

