-- ==== Sys2Proof/Machine/Loader.lean ====
section
/-! DEFINITION. The loader: the checks of a frame, secure blocks, the end of a load, LOAD_FRAMES items, and the commands of LOAD_CTRL
(spec/07 R189, R193 to R200, R204, R206, R207, spec/14 R368). -/

namespace Sys2Proof.Machine

/-! The outcome of a load. -/

/-- The load ends FAILED with a fault that names a frame by INDEX (R189, R197). -/
def Dev.failLoad (code index detail : Nat) (d : Dev) : Dev :=
  let d1 := ((d.wr R.LOAD.LOAD_STATUS_STATE 4).loadFault code index detail).event 0x201
  { d1 with ld := { d1.ld with staging := [], fullDone := false } }.refreshTrained

/-- The array rests where a completed load leaves it: STOPPED, after a full load or at the take of a rejoin (R205, spec/16 R409). -/
def Dev.restsAfterLoad (d : Dev) : Bool :=
  !d.running && (!d.on R.LOAD.LOAD_STATUS_PARTIAL || (d.ld.rejoinPending && d.rd R.TAKE.TAKE_NUMBER == d.rd R.LOAD.REJOIN_TAKE))

/-- The load is COMPLETE; one that replaced a region leaves the full reel loaded. -/
def Dev.completeLoad (d : Dev) : Dev :=
  let full := !d.on R.LOAD.LOAD_STATUS_PARTIAL
  let d1 := { d.wr R.LOAD.LOAD_STATUS_STATE 2 with ld := { d.ld with fullDone := true } }
  let d2 := if full then d1.wr R.LOAD.LOAD_STATUS_STATE_CLEARED 0 else d1
  let d3 := if d2.restsAfterLoad then d2.wr R.RUN.RUN_STATUS_STATE 0 else d2
  ((d3.restEdge).event 0x200).refreshTrained

/-- The checks of R197 that follow the last tag. -/
def Dev.verifyLoad (d : Dev) : Dev :=
  if Config.sha384 d.ld.frames ≠ slateDigest d.ld.slate then d.failLoad 0x44 0 1
  else
    match d.contention with
    | some (l, a, b) => d.failLoad 0x48 0 (l + a * 2 ^ 16 + b * 2 ^ 32)
    | none =>
      match d.looseFifo with
      | some f => d.failLoad 0x45 0 (f * 2 ^ 8)
      | none => d.completeLoad

/-! One frame. -/

/-- The reserved fields of a header: TAG_PRESENT stands only on the last frame of a block of a secure reel (R188, R193). -/
def Dev.frameFieldsOk (f : Bytes) (d : Dev) : Bool :=
  let last := frameIndex f % 64 == 0 || frameIndex f == d.rd R.LOAD.FRAME_COUNT
  if slateSecure d.ld.slate && last then decide (frameFlags f = 1)
  else decide (frameFlags f = 0) && decide (leNat (frameTag f) = 0)

/-- The target of the frame has been written by an earlier one of the load, or waits in the staging. -/
def Dev.frameRepeated (f : Bytes) (d : Dev) : Bool :=
  (d.ld.targets ++ d.ld.staging.map frameTarget).contains (frameTarget f)

/-- The target of the frame obeys its type.  That of a BANK frame of a secure block, which may depend on a payload of the same block, is checked as it is written. -/
def Dev.frameTargetOk (f : Bytes) (d : Dev) : Bool :=
  (slateSecure d.ld.slate && frameType f == 3) || d.frameAddrOk (frameType f) (frameAddr f) (frameLen f)

/-- A frame is written: the reason for which it is refused, or none. -/
def Dev.writeFrame (f payload : Bytes) (d : Dev) : Option Nat × Dev :=
  if !d.frameAddrOk (frameType f) (frameAddr f) (frameLen f) then (some 0, d)
  else
    match d.payloadBad (frameType f) (frameAddr f) payload with
    | some x => (some x, d)
    | none =>
      let d1 := d.installFrame (frameType f) (frameAddr f) payload
      let d2 := { d1 with ld := { d1.ld with targets := frameTarget f :: d1.ld.targets } }
      (none, d2.wr R.LOAD.FRAMES_WRITTEN (d2.rd R.LOAD.FRAMES_WRITTEN + 1))

/-- The frames of a verified block are written in order; the fault of the first that is refused. -/
def Dev.writeBlock (plain : Bytes) (d : Dev) : List Bytes → Option (Nat × Nat) × Dev
  | [] => (none, d)
  | f :: l =>
    match d.writeFrame f (plain.take (frameLen f)) with
    | (some x, d1) => (some (frameIndex f, x), d1)
    | (none, d1) => d1.writeBlock (plain.drop (frameLen f)) l

/-- The header of a frame as additional authenticated data: TAG and CRC taken as 0. -/
def frameAad (f : Bytes) : Bytes := f.take 12 ++ List.replicate 20 0

/-- The initialisation vector of block `j` of the reel. -/
def slateIv (s : Bytes) (j : Nat) : Bytes := (s.drop 0x434).take 8 ++ leBytes (leAt s 0x43C 4 + j) 4

/-- The staged block ends with the tag of frame `f` (R193, R194). -/
def Dev.blockEnds (f : Bytes) (d : Dev) : Option (Nat × Nat × Nat) × Dev :=
  let fs := d.ld.staging
  let opened :=
    match d.ld.secureKey with
    | none => none
    | some k =>
      Config.gcmOpen k (slateIv d.ld.slate ((frameIndex f - 1) / 64)) (fs.flatMap frameAad) (fs.flatMap reelPayload) (frameTag f)
  match opened with
  | none => (some (0x44, frameIndex f, 0), d)
  | some plain =>
    match { d with ld := { d.ld with staging := [] } }.writeBlock plain fs with
    | (some x, d1) => (some (0x45, x.1, x.2), d1)
    | (none, d1) => (none, d1)

/-- An accepted frame is written, or staged until the tag of its block verifies: the fault (code, INDEX, DETAIL) that ends the load, or none. -/
def Dev.admitFrame (f : Bytes) (d : Dev) : Option (Nat × Nat × Nat) × Dev :=
  let d1 := { d with ld := { d.ld with frames := d.ld.frames ++ f, expected := d.ld.expected + 1 } }
  if slateSecure d.ld.slate then
    if d.ld.secureKey = none then (some (0x44, 1, 0), d)
    else
      let d2 := { d1 with ld := { d1.ld with staging := d1.ld.staging ++ [f] } }
      if frameFlags f = 1 then d2.blockEnds f else (none, d2)
  else
    match d1.writeFrame f (reelPayload f) with
    | (some x, _) => (some (0x45, frameIndex f, x), d)
    | (none, d2) => (none, d2)

/-- A frame faults. -/
def frameFault (f : Bytes) (d : Dev) : Option (Nat × Nat) :=
  if frameIndex f < d.ld.expected then some (0x47, 0)
  else if d.ld.expected < frameIndex f then some (0x45, 1)
  else if !d.frameFieldsOk f || !d.frameTargetOk f then some (0x45, 0)
  else if d.frameRepeated f then some (0x47, 0)
  else none

/-- What the load waits for before it takes a frame: the fence of a group (R204), the domains that step 5 of R196 powers up, and the domain that the
frame addresses (spec/15 R398). -/
def Dev.frameWaits (f : Bytes) (d : Dev) : Bool × Dev :=
  let starting := !d.on R.LOAD.LOAD_STATUS_PARTIAL && (List.range d.g4s).any fun g => decide (slateBudget d.ld.slate g ≠ 0) && decide (d.domState g ≠ 2)
  if d.ld.fencePending || starting then (true, d)
  else
    let dom : Option Nat :=
      match frameType f with
      | 1 => some (frameAddr f % 2 ^ 18 / 4096)
      | 2 => some (frameAddr f % 2 ^ 12 / 64)
      | 3 => some (frameAddr f / 2 ^ 16 % 2 ^ 12 / 64)
      | 6 => some 0x58
      | _ => none
    match dom with
    | none => (false, d)
    | some g =>
      if g ≠ 0x58 ∧ d.g4s ≤ g then (false, d)
      else
        match d.gateway g 0x14C 1 true with
        | (.pass, d1) => (false, d1)
        | (.held, d1) | (.refused, d1) => (true, d1)

/-- A frame arrives while a load is OPEN (R189). -/
def Dev.frameUnit (f : Bytes) (d0 : Dev) : UnitResult × Dev :=
  match d0.frameWaits f with
  | (true, d) => (.wait, d)
  | (false, d) =>
    if !frameCrcOk f then (.refused 0x43, (d.wr R.LOAD.LOAD_STATUS_CRC_RETRY 1).loadFault 0x43 (frameIndex f) 0)
    else
      match frameFault f d with
      | some (code, x) => (.refused code, d.failLoad code (frameIndex f) x)
      | none =>
        match d.admitFrame f with
        | (some (code, i, x), d1) => (.refused code, d1.failLoad code i x)
        | (none, d1) =>
          (.taken, if d1.rd R.LOAD.FRAMES_WRITTEN = d1.rd R.LOAD.FRAME_COUNT then d1.verifyLoad else d1)

/-! The load stream (R198, spec/14 R368). -/

/-- A unit of the load stream is a frame: a load is OPEN and it does not begin as a slate does. -/
def Dev.isFrame (bs : Bytes) (d : Dev) : Bool := d.loadState == 1 && decide (leAt bs 0 4 ≠ 0x4C524B4C)

/-- The bytes that the unit which begins with `bs` must have. -/
def Dev.unitLen (bs : Bytes) (d : Dev) : Nat := if d.isFrame bs then 32 + frameLen bs else 4096

/-- A part-unit is discarded. -/
def Dev.splitUnit (d : Dev) : Dev := d.wr R.LOAD.LOAD_STATUS_UNIT_SPLIT 1

/-- A whole unit reaches the loader. -/
def Dev.takeUnit (bs : Bytes) (v : MemView) (d : Dev) : UnitResult × Dev := if d.isFrame bs then d.frameUnit bs else d.slateUnit bs v

/-- The loader takes reels: after a boot that succeeded (R184). -/
def Dev.takesReels (d : Dev) : Bool := !d.mg.inReset && !d.mg.bootFailed

/-- The row SLATE: the 4,096 bytes of a slate reach the loader. -/
def Dev.slateArrives (bs : Bytes) (v : MemView) (t : Nat) (d0 : Dev) : Dev :=
  let d := d0.toTime t
  if !d.takesReels then d
  else if bs.length < 4096 then d.splitUnit
  else
    match d.slateUnit (bs.take 4096) v with
    | (.wait, d1) => d1.emit .wait
    | (_, d1) => d1

/-- The row of a frame type: a frame of that type reaches the loader.  Where no load is OPEN it is judged as a slate. -/
def Dev.frameArrives (ty : Nat) (bs : Bytes) (v : MemView) (t : Nat) (d0 : Dev) : Dev :=
  let d := d0.toTime t
  if !d.takesReels ∨ frameType bs ≠ ty then d
  else if bs.length < d.unitLen bs then d.splitUnit
  else
    match d.takeUnit (bs.take (d.unitLen bs)) v with
    | (.wait, d1) => d1.emit .wait
    | (_, d1) => d1

/-- `n` bytes at position `pos` of the data of a LOAD_FRAMES item. -/
def Dev.loadRead (i : Item) (pos n : Nat) (v : MemView) (d : Dev) : Move × MemView × Dev := d.itemRead i (i.src + pos) n v

/-- The unit at the position of a LOAD_FRAMES item is fetched: empty where the data end inside it. -/
def Dev.fetchUnit (i : Item) (v : MemView) (d : Dev) : Move × MemView × Dev :=
  let left := i.len - i.back
  Move.andThen (d.loadRead i i.back (min 32 left) v) fun head v d =>
    let n := d.unitLen head
    if left < 32 ∨ left < n then (.ok [], v, d)
    else Move.andThen (d.loadRead i (i.back + 32) (n - 32) v) fun body v d => (.ok (head ++ body), v, d)

/-- An engine hands the next units of a LOAD_FRAMES item to the loader (spec/14 R368); DONE counts the frames written. -/
def Dev.pumpLoad (id : Nat) (v : MemView) (d : Dev) : Nat → Dev
  | 0 => d
  | n + 1 =>
    match d.item id with
    | none => d
    | some i =>
      if i.len ≤ i.back then d.endItem id 0x00
      else
        match d.fetchUnit i v with
        | (.wait, _, d1) => d1.emit .wait
        | (.stop s x, _, d1) => d1.stopItem id s x
        | (.ok [], _, d1) => (d1.splitUnit).stopItem id 0x1B 0x45
        | (.ok bs, v1, d1) =>
          let written := d1.rd R.LOAD.FRAMES_WRITTEN
          match d1.takeUnit bs v1 with
          | (.wait, d2) => d2.emit .wait
          | (.refused code, d2) => d2.stopItem id 0x1B code
          | (.running, d2) => d2.stopItem id 0x15 0
          | (.taken, d2) =>
            let frames := if d1.isFrame bs then d2.rd R.LOAD.FRAMES_WRITTEN - written else 0
            let d3 := (d2.moved i 1 bs.length).setItem id fun x => { x with back := x.back + bs.length, done := x.done + frames }
            d3.pumpLoad id v1 n

/-- LOAD_FRAMES: up to `n` units of the running item of engine `e` reach the loader. -/
def Dev.loadMove (e n : Nat) (v : MemView) (t : Nat) (d0 : Dev) : Dev :=
  let d := d0.toTime t
  match d.runningType e 3 with
  | none => d
  | some i =>
    let d1 := d.pumpLoad i.id v n
    if (d1.item i.id).any fun x => decide (x.stand = .running ∧ x.len ≤ x.back) then d1.endItem i.id 0x00 else d1

/-! LOAD_CTRL and PRODUCTION_ID. -/

/-- LOAD_CTRL.END (R198). -/
def Dev.loadEnd (t : Nat) (d0 : Dev) : Dev :=
  let d := d0.toTime t
  if d.loadState = 1 then d.loadIncomplete.refreshTrained else d

/-- LOAD_CTRL.REGION_RELEASE (R206): the staged release of every fenced region that is not being released yet; dropped in any state but COMPLETE. -/
def Dev.regionReleaseWrite (t : Nat) (d0 : Dev) : Dev :=
  let d := d0.toTime t
  if d.loadState ≠ 2 then d
  else
    let e0 := d.edge.fenced.foldl (fun m r => if SMap.get m r = 0 then SMap.set m r (d.releaseEdge + 1) else m) d.edge.regionE0
    { d with edge := { d.edge with regionE0 := e0 } }

/-- LOAD_CTRL.STATE_ACK (R200). -/
def Dev.stateAck (d : Dev) : Dev := d.wr R.LOAD.LOAD_STATUS_STATE_CLEARED 0

/-- A write of word `hi` of PRODUCTION_ID, 0 LO or 1 HI; dropped while a load is OPEN (R207). -/
def Dev.productionIdWrite (hi w : Nat) (d : Dev) : Dev :=
  if d.loadState = 1 then d else d.wr R.LOAD.PRODUCTION_ID (putField (d.rd R.LOAD.PRODUCTION_ID) (32 * hi) 32 w)

end Sys2Proof.Machine
end

