-- ==== Sys2Proof/Machine/Secure.lean ====
section
/-! DEFINITION. Debug unlock (spec/16 R439 to R441). -/

namespace Sys2Proof.Machine

/-- The reason for which an unlock is refused, none where it is accepted (R441).  DESIGN CHOICE of the order where several hold: what needs no key first. -/
def Dev.unlockReason (d : Dev) : Option Nat :=
  let k := d.rd R.DBG.TOKEN_KEY
  let body := leBytes (d.rd R.DBG.NONCE) 32 ++ leBytes d.part.serial 8 ++ leBytes (slateProduction d.ld.slate) 8
  if d.running then some 1
  else if 3 ≤ d.rd R.DBG.DBG_STATUS_UNLOCK_FAILS then some 4
  else if !d.on R.LOAD.LOAD_STATUS_SECURE then some 5
  else if k ≠ d.ld.sigKey then some 3
  else if !Config.ecdsaVerify ((d.ld.reelKeys.drop (96 * k)).take 96) (Config.sha384 body) (leBytes (d.rd R.DBG.TOKEN) 96) then some 2
  else none

/-- An unlock attempt that reason `r` refuses. -/
def Dev.refuseUnlock (r : Nat) (d : Dev) : Dev :=
  let d1 := (d.wr R.DBG.DBG_STATUS_UNLOCK_REFUSED 1).wr R.DBG.DBG_STATUS_UNLOCK_REASON r
  if r = 2 ∨ r = 3 then d1.wr R.DBG.DBG_STATUS_UNLOCK_FAILS (d1.rd R.DBG.DBG_STATUS_UNLOCK_FAILS + 1) else d1

/-- An accepted unlock: ERASING, and steps 1 to 3 of R440. -/
def Dev.beginErase (d : Dev) : Dev :=
  let d1 := d.wr R.DBG.DBG_STATUS_SECURE_STATE 2
  { d1 with dbg := { d1.dbg with erasing := true } }.eraseDie

/-- DBG_CTRL.UNLOCK: the token is checked; a new NONCE follows every attempt.  While an erase runs the write changes nothing. -/
def Dev.unlock (t : Nat) (d0 : Dev) : Dev :=
  let d := d0.toTime t
  if d.dbg.erasing then d
  else
    match d.unlockReason with
    | some r => (d.refuseUnlock r).newNonce
    | none => d.beginErase.newNonce

/-- The erase ends: steps 4 and 5 of R440. -/
def Dev.unlockEraseDone (v : MemView) (t : Nat) (d0 : Dev) : Dev :=
  let d := d0.toTime t
  if !d.dbg.erasing then d
  else
    let d1 := (d.eraseDdr v).clearCheck
    let d2 := ((d1.wr R.LOAD.LOAD_STATUS_STATE 0).wr R.LOAD.LOAD_STATUS_SECURE 0).wr R.DBG.SECURE_CTX_MASK 0
    let d3 := { d2.wr R.DBG.DBG_STATUS_SECURE_STATE 0 with
      ld := { d2.ld with slate := [], fullSlate := [], fullDone := false, secureKey := none, staging := [], setSize := 0, members := 0 }
      dbg := { d2.dbg with erasing := false } }
    (d3.event 0x7A4).refreshTrained

end Sys2Proof.Machine
end

