-- ==== Sys2Proof/Machine/Boot.lean ====
section
/-! DEFINITION. POR, DEVICE reset, function-level resets, and the boot from the serial flash (spec/07 R179 to R185, spec/09 R249, R257, spec/12 R318, R328, R338,
spec/14 R383, spec/18 R478, R484, R492, R493, spec/19 R508). -/

namespace Sys2Proof.Machine

/-! The blank device. -/

/-- The device as a reset leaves it: every register at its reset value, every store empty, lanes at 0 with driven bit 1 (spec/03 R89), SAFE_N asserted, IDCODE selected in the TAP
(spec/16 R443). -/
def Dev.fresh (part : Part) : Dev :=
  let z : Dev := default
  let d : Dev := { z with
    part := part, now := 2 ^ 64
    clk := { z.clk with epoch := 1, lastSync := 2 ^ 64, lastHeard := 2 ^ 64 }
    arr := { z.arr with segDef := 2 }
    eng := { z.eng with nextId := 1, nextOrder := 2 ^ 40 }
    mg := { z.mg with safeN := true, inReset := true, settingsCopy := 2 }
    host := { z.host with bar2Log := 30 }
    dbg := { z.dbg with tapIr := 2 } }
  let d0 := if part.rangeC then d.wr R.SAFETY.TJ_LIMIT 0x64 else d
  let d1 := if part.dies = 4 then d0.wr R.POWER.PL_LIMIT_W 0x0BE else d0
  { d1 with tk := { d1.tk with saved := d1.boundaryRecord } }

/-- What every reset keeps: the MRAM, the serial flash, and the model's own outputs and count of free values. -/
def Dev.keepMram (old d : Dev) : Dev :=
  { d with
    out := old.out, freeCtr := old.freeCtr
    mg := { d.mg with slots := old.mg.slots, seqs := old.mg.seqs, counters := old.mg.counters, flash := old.mg.flash } }

/-- POR: VDD_AUX is applied or restored. -/
def Dev.por (d : Dev) : Dev := d.keepMram (Dev.fresh d.part)

/-- What a DEVICE reset keeps beyond it: device time with WRAPS, the monitors with their readings, and what counts from POR (R265, R484, R492). -/
def Dev.deviceReset (cause : Nat) (d : Dev) : Dev :=
  let z := d.keepMram (Dev.fresh d.part)
  let d1 : Dev := { z with
    now := d.now, mono := d.mono
    clk := { z.clk with epoch := d.clk.epoch, lastSync := d.now, lastHeard := d.now, refAt := d.mono - d.sinceRef, refNo := d.refEdges }
    mg := { z.mg with railArmed := d.mg.railArmed, railsAt := d.mg.railsAt, resetAt := d.mono, temps := d.mg.temps, logTimes := d.mg.logTimes } }
  let d2 := ((d1.wr R.TIME.WRAPS (d.rd R.TIME.WRAPS)).wr R.SAFETY.SAFE_ENTRIES (d.rd R.SAFETY.SAFE_ENTRIES)).wr R.ENV.CLAMP_COUNT (d.rd R.ENV.CLAMP_COUNT)
  let d3 := forUpto 7 (fun r x => x.wrAt R.SAFETY.RAIL_MV 0 r (d.rdAt R.SAFETY.RAIL_MV 0 r)) d2
  let d4 := forUpto 10 (fun b x => x.wrAt R.SAFETY.VCCIO_MV 0 b (d.rdAt R.SAFETY.VCCIO_MV 0 b)) d3
  d4.wr R.RESET.RESET_STATUS_LAST_CAUSE cause

/-- A DEVICE reset from outside at the stamp `t`: 1 PERST_N, 2 Hot Reset or link-down. -/
def Dev.externalReset (cause t : Nat) (d : Dev) : Dev := (d.toTime t).deviceReset cause

/-- RESET_CTRL is written with DEVICE: acts only with its KEY; the link goes down 1 ms later, and with it the device is reset. -/
def Dev.hostReset (w t : Nat) (d0 : Dev) : Dev :=
  let d := d0.toTime t
  if isSet w 2 && decide (fieldAt w 16 16 = 0xD5A7) then ((d.advance (1000 * usec)).emit .linkDown).deviceReset 3 else d

/-! Function-level resets. -/

/-- The registers of `n` pages from the page at `base` return to their reset values. -/
def Dev.clearPages (base n : Nat) (d : Dev) : Dev := { d with regs := SMap.clear d.regs (base * 8) ((base + 0x1000 * n) * 8) }

/-- The MSI-X state of a function, and MSIX in its route entries (R508). -/
def Dev.clearMsix (func : Nat) (d : Dev) : Dev :=
  let drop (m : SMap Nat) : SMap Nat := SMap.clear m (func * 4096) (func * 4096 + 4096)
  { d with
    evRoute := SMap.mapVal d.evRoute fun r => if bitAt r 11 = func then putBit r 12 0 else r
    host := { d.host with
      msixAddr := drop d.host.msixAddr, msixData := drop d.host.msixData, msixUnmask := drop d.host.msixUnmask, msixPend := drop d.host.msixPend
      msixEnable := SMap.set d.host.msixEnable func 0 } }

/-- An FLR stops the array: steps 3 to 5 of the array fault stop, without a record; state entries keep the values of the last completed take (R493). -/
def Dev.stopForFlr (d : Dev) : Dev :=
  let d1 := d.stopForReset
  let d2 := if d.running then (d1.bankCycles.deliverReads).discardRequests else d1
  let d3 := d2.discardShadows
  ({ d3 with arr := { d3.arr with acc := [], coll := [] } }.toTakeZero).handovers.snapNow

/-- The load at an FLR of PF0 (R198, spec/06 R176). -/
def Dev.flrLoad (d : Dev) : Dev :=
  if d.loadState = 2 then d else if d.loadState = 1 then d.loadIncomplete.clearCheck.refreshTrained else d.clearCheck

/-- The engines, queues and tokens (spec/14 R383): every item is abandoned without a completion entry. -/
def Dev.flrEngines (d : Dev) : Dev :=
  let e := { d.eng with tokens := [], items := [], inject := [], captures := [], tails := [], slots := [], resetting := [] }
  (({ d with eng := e }.clearPages R.ENGQ.Q_CTRL_ENABLE.base 64).clearPages R.ENG_SCHED.TOKEN_POST_ID.base 1).handovers

/-- DMMU and fences (spec/12 R338). -/
def Dev.flrHost (d : Dev) : Dev :=
  let h := { d.host with fences := [], fenceNext := none, invalidating := none, cache := [], dstate := 0, bar2Log := 30 }
  (({ d with host := h }.clearPages R.DMMU.INV_CTRL_CTX.base 1).clearPages R.FENCE.FENCE_CTRL_ENFORCE.base 1).clearMsix 0

/-- FLR of PF0. -/
def Dev.flrPf0 (t : Nat) (d0 : Dev) : Dev :=
  let d := ((((d0.toTime t).stopForFlr).flrLoad).flrEngines).flrHost
  ({ d with trc := (default : Trc) }.clearPages R.TRACE.TRACE_CTRL_ENABLE.base 1).powerDue

/-- FLR of PF1: its configuration and MSI-X state, and the mailbox messages in progress, those of the items of channel 1 too (R328). -/
def Dev.flrPf1 (t : Nat) (d0 : Dev) : Dev :=
  let d := (d0.toTime t).clearMsix 1
  let d1 := forAll d.mg.msgs (fun m d => if m.item = 0 then d else d.stopItem m.item 0x1D 0) d
  { d1.wr R.MBOX.MBOX_STATUS_BUSY 0 with mg := { d1.mg with msgs := [], reply := none } }

/-! Boot. -/

/-- The code that the LK7 finds for a VCCIO rail of `mv` (spec/09 R239): the first whose monitor window holds it, 0x7 for none. -/
def vccioCode (mv : Nat) : Nat :=
  ((List.range 5).find? fun c => decide (vccioNominal c * 9 / 10 ≤ mv ∧ mv ≤ vccioNominal c * 11 / 10)).getD 7

/-- The VCCIO rails are measured. -/
def Dev.measureVccio (mv : List Nat) (d : Dev) : Dev :=
  forUpto 10 (fun b d => (d.wrAt R.PINBANK.BANK_STATUS_VCCIO_CODE b 0 (vccioCode (mv.getD b 0))).wrAt R.SAFETY.VCCIO_MV 0 b (mv.getD b 0)) d

/-- The domains that are on after a reset: those with REQ = 1, but for DDR5 channels without DIMMs (R37, spec/15 R395). -/
def Dev.powerHub (d : Dev) : Dev :=
  forUpto 0x71 (fun i d =>
    if d.domainExists i ∧ !d.emptyChannel i ∧ d.domReq i = 1 then d.setDomState i 2 else d) d

/-- The boot starts: the count of boots, the record number in force (R478), VCCIO, the domains, DDR5 training. -/
def Dev.bootStart (mv : List Nat) (d : Dev) : Dev :=
  let d1 := { d with mg := { d.mg with counters := SMap.set d.mg.counters 1 (SMap.get d.mg.counters 1 + 1) } }
  (((d1.wr R.SAFETY.LOG_SEQ (SMap.get d.mg.seqs 1024)).measureVccio mv).powerHub).ddrStart

/-- The settings block `b` of copy `c` is taken. -/
def Dev.takeSettings (c : Nat) (b : Bytes) (d : Dev) : Dev :=
  let d1 := ((d.wr R.LOAD.POSITION (leAt b 0x0C 1)).wr R.LOAD.PRODUCTION_ID (leAt b 0x10 8)).wr R.LOAD.BOOT_STATUS_SETTINGS_COPY c
  { d1 with
    ld := { d1.ld with requireSigned := isSet (leAt b 8 4) 0, reelKeys := (b.drop 0x40).take 384 }
    mg := { d1.mg with settingsSeq := leAt b 4 4, settingsCopy := c } }

/-- One frame of the base configuration, at place `n`, is checked as a frame of a reel (R189) and put in place; only EDGE and PIN frames stand there. -/
def Dev.baseFrame (n : Nat) (f : Bytes) (d : Dev) : Option Dev :=
  let ty := frameType f
  let a := frameAddr f
  let key := if ty = 7 then 0x50000 + a else a / 2 ^ 28 * 65536 + a % 2 ^ 16
  if frameCrcOk f && frameIndex f == n && frameFlags f == 0 && decide (leNat (frameTag f) = 0) && (ty == 6 || ty == 7) &&
      d.frameAddrOk ty a (frameLen f) && (SMap.look d.edge.base key).isNone && (d.payloadBad ty a (reelPayload f)).isNone then
    let d1 := { d with edge := { d.edge with base := SMap.ins d.edge.base key (reelPayload f) } }
    some (d1.installFrame ty a (reelPayload f))
  else none

/-- The base configuration goes into the edge fabric and the pins, frame by frame; none where it is refused. -/
def Dev.loadBase (n : Nat) (bs : Bytes) (d : Dev) : Nat → Option Dev
  | 0 => some d
  | fuel + 1 =>
    if bs = [] then some d
    else if bs.length < 32 + frameLen bs then none
    else
      match d.baseFrame n (bs.take (32 + frameLen bs)) with
      | none => none
      | some d1 => d1.loadBase (n + 1) (bs.drop (32 + frameLen bs)) fuel

/-- An image is tried: the reason for which it fails, or the device with its base configuration.  `errors`: bit 2 + source, the flash does not give the image;
`runs`: bit source, its firmware reports running within 100 ms. -/
def Dev.tryImage (src errors runs : Nat) (d : Dev) : Nat × Dev :=
  if isSet errors (2 + src) then (1, d)
  else
    match d.imageReason src with
    | 0 =>
      if !isSet runs src then (7, d)
      else
        let bs := d.baseConfig src
        match d.loadBase 1 bs (bs.length + 1) with
        | none => (6, d)
        | some d1 => if d1.contention.isSome || d1.looseFifo.isSome then (6, d) else (0, d1)
    | r => (r, d)

/-- A record of a failed boot (R183, R184). -/
def Dev.bootRecord (code sev reason : Nat) (d : Dev) : Dev := (d.wr R.LOAD.LOAD_STATUS_LAST_CODE code).unitFault code sev 0x14 reason

/-- The primary image has failed. -/
def Dev.primaryFailed (reason : Nat) (d : Dev) : Dev :=
  ((d.bootRecord 0x49 0 reason).wr R.LOAD.BOOT_STATUS_REASON reason).wr R.LOAD.BOOT_STATUS_SOURCE 1

/-- Readiness, with the image of source `src` (R182): the envelope is locked, boot locks are applied, the firmware runs. -/
def Dev.bootReady (src ms : Nat) (v : Envelope) (d : Dev) : Dev :=
  let h := imageHead (d.flashBytes (imageAddr src) 4096)
  let d1 := ((d.wr R.ENV.ENV_STATUS_LOCKED 1).wr R.ENV.ENV_STATUS_ENABLED (bit v.enable)).wr R.ENV.ENV_STATUS_PAIR_COUNT v.count
  let d2 := forUpto 10 (fun b d => d.wrAt R.PINBANK.LOCK b 0 (SMap.get v.bootLock b)) d1
  let d3 := ((d2.wr R.SAFETY.SAFE_STATUS_MGMT_RUNNING 1).wr R.MBOX.MBOX_STATUS_FW_RUNNING 1).wr R.LOAD.BOOT_STATUS_READY_MS (min ms 0xFFFF)
  let d4 := { d3 with
    mg := { d3.mg with inReset := false, safeN := d3.on R.SAFETY.SAFE_STATUS_IN_SAFE, svn := h.svn, fwVersion := h.version }
    host := { d3.host with linkUp := true } }
  d4.restEdge.when (src == 1) fun d => d.event 0x203

/-- No image boots (R184): safe state, and the recovery mailbox of R475. -/
def Dev.bootDead (reason ms : Nat) (d : Dev) : Dev :=
  let d1 := ((d.bootRecord 0x4A 4 reason).wr R.MBOX.MBOX_STATUS_RECOVERY 1).wr R.LOAD.BOOT_STATUS_READY_MS (min ms 0xFFFF)
  { d1 with mg := { d1.mg with inReset := false, bootFailed := true }, host := { d1.host with linkUp := true } }

/-- The boot of a device whose settings block `b` has passed. -/
def Dev.bootImages (errors runs ms : Nat) (v : Envelope) (d : Dev) : Dev × Envelope :=
  match d.tryImage 0 errors runs with
  | (0, d1) => (d1.bootReady 0 ms v, v)
  | (r, _) =>
    match (d.primaryFailed r).tryImage 1 errors runs with
    | (0, d1) => (d1.bootReady 1 ms v, v)
    | (g, d1) => (d1.bootDead g ms, default)

/-- The whole boot, `ms` milliseconds long (R179, R181, R257). -/
def Dev.bootAll (errors runs : Nat) (mv : List Nat) (ms : Nat) (d0 : Dev) : Dev × Envelope :=
  let d := d0.bootStart mv
  match d.settingsInUse errors with
  | none => ((d.wr R.LOAD.BOOT_STATUS_REASON 8).bootDead 8 ms, default)
  | some (c, b) =>
    if envelopeOk (envelopeSection b) then (d.takeSettings c b).bootImages errors runs ms (envelopeOf (envelopeSection b))
    else (((d.takeSettings c b).wr R.LOAD.BOOT_STATUS_REASON 8).bootDead 8 ms, default)

/-- The instant on `mono` at which the boot begins, PERST_N having been released at the stamp `t0` (R182, spec/20 R519): the latest of that release, the end of the reset, and
1 ms with every rail in its window. -/
def Dev.bootBegins (d : Dev) (t0 : Nat) : Nat :=
  max (max (d.mono - (2 ^ 64 + d.stamp - t0 % 2 ^ 64) % 2 ^ 64) d.mg.resetAt) (d.mg.railsAt - 1 + 1000 * usec)

/-- BOOT: readiness falls at the stamp `t`, PERST_N having been released at `t0`. -/
def Dev.boot (errors runs : Nat) (mv : List Nat) (t0 t : Nat) (v : Envelope) (d0 : Dev) : Dev × Envelope :=
  let d := d0.toTime t
  if d.mg.inReset && d.railsIn && decide (d.bootBegins t0 ≤ d.mono) then d.bootAll errors runs mv ((d.mono - d.bootBegins t0) / 2 ^ 32 / 1000000)
  else (d0, v)

end Sys2Proof.Machine
end

