-- ==== Sys2Proof/Machine/Show.lean ====
section
/-! DEFINITION. The register pages as they are read: the page index (spec/19 R499, R500), the common header (R495 to R498), the EVT pages (R513), what each field shows, and
the read of a word with its latch (spec/00 R10, spec/16 R435). -/

namespace Sys2Proof.Machine

/-! Events of a page (R498, R509). -/

/-- The number of local events of a page. -/
def evCount (p : Nat) : Nat :=
  if p = 0x12 then 3 else if p = 0x14 then 4 else if p = 0x15 then 4 else if p = 0x16 then 3 else if p = 0xA then 7 else if p = 0xB then 1
  else if p = 0xC then 5 else if p = 0xD then 19 else if 0xE ≤ p ∧ p < 0x12 then 3 else if 0x100 ≤ p ∧ p < 0x103 then 1 else if p = 0x103 then 2
  else if p = 0x104 then 4 else if 0x108 ≤ p ∧ p < 0x148 then 2 else if p = 0x200 then 1 else if 0x201 ≤ p ∧ p < 0x211 then 2 else if p = 0x211 then 3
  else if p = 0x212 then 1 else if p = 0x300 then 5 else if 0x310 ≤ p ∧ p < 0x320 then 1 else if 0x440 ≤ p ∧ p < 0x480 then 2
  else if p = mboxPage then 1 else 0

/-- The event source of local event `j` of a page. -/
def evSource (p j : Nat) : Nat :=
  if p = 0x12 then j else if p = 0x14 then 0x200 + j else if p = 0x15 then (if j = 3 then 0x7A6 else 0x7A0 + j) else if p = 0x16 then 0x7A3 + j
  else if p = 0xA then 0x7C0 + j else if p = 0xB then 0x7C9 else if p = 0xC then (if j < 2 then 0x710 + j else 0x71E + j)
  else if p = 0xD then (if j < 3 then 0x400 + j else 0x41D + j) else if p < 0x12 then 0x408 + (p - 0xE) + 4 * j
  else if p < 0x103 then 0x500 + (p - 0x100) else if p = 0x103 then 0x700 + j else if p = 0x104 then 0x680 + j
  else if p < 0x148 then 0x600 + (p - 0x108) + 64 * j else if p = 0x200 then 0x510 else if p < 0x209 then 0x518 + (p - 0x201) + 8 * j
  else if p < 0x211 then 0x480 + (p - 0x209) + 8 * j else if p = 0x211 then 0x780 + j else if p = 0x212 then 0x790
  else if p = 0x300 then 0x240 + j else if p < 0x320 then 0x260 + (p - 0x310) else if p < 0x480 then 0x040 + (p - 0x440) + 64 * j else 0x7C8

/-- An EVT page. -/
def isEvt (p : Nat) : Bool := decide (1 ≤ p ∧ p < 5)

/-- PAGE_CAP.HAS_RWL: EV_ROUTE.SAFETY where the page has events, and the routes of an EVT page. -/
def hasRwl (p : Nat) : Bool := isEvt p || decide (evCount p ≠ 0)

/-- A word with bit `j` set where `f` holds of bit `j`, `n` bits of it. -/
def wordOf (f : Nat → Bool) (n : Nat) : Nat := (List.range n).foldl (fun w j => w + bit (f j) * 2 ^ j) 0

/-! The pages (R499). -/

/-- The counters of unit `u` (spec/17 R464). -/
def cntCount (u : Nat) : Nat :=
  if u < 0x40 then 8 else if u < 0x48 then 10 else if u < 0x50 then 12 else if u < 0x70 then 8 else if u < 0xB0 then 4 else if u = 0xB0 then 16
  else if u = 0xB2 then 16 else 8

/-- The fields and the instance of the page with number `p` (PF0 BAR0 offset / 0x1000; `mboxPage` the MBOX page of PF1); none where no page stands there. -/
def Dev.pageRows (d : Dev) (p : Nat) : Option (List Reg × Nat) :=
  if p = 0 then some (rowsId, 0) else if p < 5 then some ([], p - 1)
  else if p = 8 then some (rowsReset, 0) else if p = 9 then some (rowsClk, 0) else if p = 0xA then some (rowsSafety, 0)
  else if p = 0xB then some (rowsEnv, 0) else if p = 0xC then some (rowsPower, 0) else if p = 0xD then some (rowsTime, 0)
  else if 0xE ≤ p ∧ p < 0x12 then some (rowsTbase, p - 0xE) else if p = 0x12 then some (rowsTake, 0) else if p = 0x13 then some (rowsCheck, 0)
  else if p = 0x14 then some (rowsLoad, 0) else if p = 0x15 then some (rowsRun, 0) else if p = 0x16 then some (rowsDbg, 0) else if p = 0x17 then some (rowsWatch, 0)
  else if p = 0x100 then some (rowsPcie, 0) else if p = 0x101 then some (rowsDmmu, 0) else if p = 0x102 then some (rowsFence, 0)
  else if p = 0x103 then some (rowsNoc, 0) else if p = 0x104 then some (rowsEngSched, 0) else if 0x108 ≤ p ∧ p < 0x148 then some (rowsEngq, p - 0x108)
  else if p = 0x200 then some (rowsDdr, 0) else if 0x201 ≤ p ∧ p < 0x209 then some (rowsDdrch, p - 0x201) else if 0x209 ≤ p ∧ p < 0x211 then some (rowsKl, p - 0x209)
  else if p = 0x211 then some (rowsTrace, 0) else if p = 0x212 then some (rowsCntsnap, 0)
  else if 0x220 ≤ p ∧ p < 0x2D5 then (if d.g4s ≤ p - 0x220 ∧ p < 0x260 then none else some (rowsCnt, p - 0x220))
  else if p = 0x300 then some (rowsEdge, 0) else if 0x301 ≤ p ∧ p < 0x30B then some (rowsPinbank, p - 0x301) else if 0x310 ≤ p ∧ p < 0x320 then some (rowsMatch, p - 0x310)
  else if 0x400 ≤ p ∧ p < 0x400 + d.g4s then some (rowsFar, p - 0x400)
  else if 0x440 ≤ p ∧ p < 0x440 + d.g4s then some (rowsGroup, p - 0x440)
  else if 0x480 ≤ p ∧ p < 0x480 + d.part.dies then some (rowsGroup, p - 0x440) else if p = 0x490 then some (rowsGroup, p - 0x440)
  else if 0x1000 ≤ p ∧ p < 0x1000 + d.g2s then some (rowsBank, p - 0x1000) else if p = mboxPage then some (rowsMbox, 0) else none

/-- A page served by the register bridge (spec/01 R21). -/
def isBridge (p : Nat) : Bool := decide (8 ≤ p ∧ p ≤ 0x12) || decide (p = mboxPage)

/-- The power domain of the block behind a page, for the pages that a switched domain holds: FAR, GROUP of a G4, BANK and EDGE (spec/15 R395). -/
def pageDomain (p : Nat) : Option Nat :=
  if 0x400 ≤ p ∧ p < 0x440 then some (p - 0x400) else if 0x440 ≤ p ∧ p < 0x480 then some (p - 0x440)
  else if 0x1000 ≤ p ∧ p < 0x2000 then some ((p - 0x1000) / 64) else if p = 0x300 then some 0x58 else none

/-! What fields show. -/

/-- TAKE_STATUS (spec/04 R125). -/
def Dev.viewTake (r : Reg) (d : Dev) : Nat :=
  let waiting := decide (d.tk.phase = .waiting)
  if r = R.TAKE.TAKE_STATUS_RUNNING then bit d.running
  else if r = R.TAKE.TAKE_STATUS_PITCH ∨ r = R.TAKE.TAKE_STATUS_BELAY then d.tk.belay
  else if r = R.TAKE.TAKE_STATUS_AT_BELAY then bit d.frozen
  else if r = R.TAKE.TAKE_STATUS_WAITING_TICK then bitAt d.tk.waits 0
  else if r = R.TAKE.TAKE_STATUS_WAITING_FAR then bitAt d.tk.waits 1
  else if r = R.TAKE.TAKE_STATUS_WAITING_LINK then bit (isSet d.tk.waits 2 || (d.linked && decide (d.tk.phase = .met)))
  else if r = R.TAKE.TAKE_STATUS_WAITING_INJECT then bitAt d.tk.waits 3
  else if r = R.TAKE.TAKE_STATUS_THROTTLED then bit (waiting && decide (d.mono < d.tk.hold))
  else if r = R.TAKE.TAKE_STATUS_STEALING then bit d.stealDue
  else if r = R.TAKE.TAKE_STATUS_TICK_PENDING then bit d.tk.logTick.isSome
  else if r = R.TAKE.GLOBAL_LEAD_NS then (if d.linked then d.rd r else 0)
  else d.rd r

/-- The BANK page of G2 `n`: the upper page of a joined pair shows ASPECT, JOIN and OWNER of the lower page (spec/05 R131); the port address registers. -/
def Dev.viewBank (r : Reg) (n : Nat) (d : Dev) : Nat :=
  if r = R.BANK.BANK_CTRL_ASPECT ∨ r = R.BANK.BANK_CTRL_JOIN ∨ r = R.BANK.BANK_CTRL_OWNER then d.rdAt r (d.bankPage n) 0
  else if r = R.BANK.BANK_STATUS_OWNER_NOW then d.bankOwner n
  else if r = R.BANK.PORTA_ADDR then SMap.get d.arr.portAddr (2 * n) % 2 ^ 17
  else if r = R.BANK.PORTB_ADDR then SMap.get d.arr.portAddr (2 * n + 1) % 2 ^ 17
  else d.rdAt r n 0

/-- FAR_STATUS.OUTSTANDING: the issued requests whose responses have not arrived (spec/05 R154). -/
def Dev.viewFar (r : Reg) (n k : Nat) (d : Dev) : Nat :=
  if r = R.FAR.FAR_STATUS_OUTSTANDING then (d.arr.farReq.filter fun e => decide (e.1 / 2 ^ 32 = n) && !e.2.answered).length
  else d.rdAt r n k

/-- The step that channel `c` shows while it trains or fills (spec/13 R348): how far it has come is not stated, but steps 1 to 7 end within 400 ms. -/
def Dev.ddrStepShown (d : Dev) (c : Nat) : Nat :=
  let dt := d.mono - d.ddr.startAt
  if 400000 * usec ≤ dt then 8 else 1 + Config.ddrStep (c + 8 * dt) % 8

/-- A DDRCH page: STATE and STEP of a channel between its start and its end show where it is. -/
def Dev.viewDdrch (r : Reg) (c k : Nat) (d : Dev) : Nat :=
  let busy := d.rdAt R.DDRCH.CH_STATUS_STATE c 0 == 1
  if r = R.DDRCH.CH_STATUS_STATE ∧ busy ∧ d.ddrStepShown c = 8 then 2
  else if r = R.DDRCH.CH_STATUS_STEP ∧ busy then d.ddrStepShown c
  else d.rdAt r c k

/-- INIT_PERCENT: 100 once READY is set; before, 0 until every channel fills, and then how far the slowest has come, which is not stated. -/
def Dev.initPercent (d : Dev) : Nat :=
  if d.on R.DDR.DDR_STATUS_READY then 100
  else if (List.range 8).any fun c => d.rdAt R.DDRCH.CH_STATUS_STATE c 0 == 4 || (d.rdAt R.DDRCH.CH_STATUS_STATE c 0 == 1 && decide (d.ddrStepShown c < 8)) then 0
  else Config.zeroFill (d.mono - d.ddr.startAt) % 100

/-- A GROUP page (spec/19 R514): `n` the G4 index, 64 + die, or 80 for G6. -/
def Dev.viewGroup (r : Reg) (n : Nat) (d : Dev) : Nat :=
  let lo := if n < 64 then 4096 * n else if n < 80 then 32768 * (n - 64) else 0
  let size := if n < 64 then 4096 else if n < 80 then 32768 else d.bps
  let fenced (a b : Nat) : Bool := d.arr.fences.any fun f => decide (f.lo ≤ a ∧ b ≤ f.hi)
  if r = R.GROUP.GRP_STATUS_FENCED then bit (fenced lo (lo + size))
  else if r = R.GROUP.GRP_STATUS_FENCED_G3 then (if n < 64 then wordOf (fun k => fenced (lo + 512 * k) (lo + 512 * k + 512)) 8 else 0)
  else if r = R.GROUP.GRP_STATUS_DOMAIN then (if n < 64 then d.domState n else 0)
  else 1

/-- The event sources of range `r` of EV_SUMMARY (spec/19 R512). -/
def evRange (r : Nat) : Nat × Nat :=
  match r with
  | 0 => (0x000, 0x200) | 1 => (0x200, 0x240) | 2 => (0x240, 0x400) | 3 => (0x400, 0x480) | 4 => (0x480, 0x500)
  | 5 => (0x500, 0x600) | 6 => (0x600, 0x700) | 7 => (0x700, 0x780) | 8 => (0x780, 0x7C0) | _ => (0x7C0, 0x800)

/-- The ID page (spec/19 R511): fused values, and what the booted image and the events give. -/
def Dev.viewId (r : Reg) (d : Dev) : Nat :=
  if r = R.ID.ID_DEVICE_DEVICE_ID then d.deviceId
  else if r = R.ID.ID_PART_DIES then d.part.dies else if r = R.ID.ID_PART_STEP_LIMIT then d.part.stepLimit
  else if r = R.ID.ID_PART_RANGE then bit d.part.rangeC else if r = R.ID.ID_PART_SECURE then bit d.part.secure
  else if r = R.ID.SERIAL then d.part.serial else if r = R.ID.FW_VERSION then d.mg.fwVersion
  else if r = R.ID.EV_SUMMARY then
    wordOf (fun i => d.evRaised.any fun e => decide ((evRange i).1 ≤ e.1 ∧ e.1 < (evRange i).2) && d.enabled e.1) 10
  else d.rd r

/-- The link as PCIE_STATUS shows it in bits [9:0] (SPEED, WIDTH, FLIT, TAG14): one of those that R316 supports, in Flit mode at 64 and 128 GT/s. -/
def pcieLinkShown : Nat :=
  let speed := Config.pcieLink % 7 + 1
  speed + 2 ^ (fieldAt Config.pcieLink 3 5 % 5) * 2 ^ 3 + (if 6 ≤ speed then 1 else bitAt Config.pcieLink 8) * 2 ^ 8 + bitAt Config.pcieLink 9 * 2 ^ 9

/-- The PCIE page (spec/12 R343, R344). -/
def Dev.viewPcie (r : Reg) (d : Dev) : Nat :=
  if r = R.PCIE.INFLIGHT then d.inflight
  else if r = R.PCIE.INFLIGHT_PEAK then max (d.rd r) d.inflight
  else if r.off = 0x040 ∧ r.lo < 10 then (if d.host.linkUp then fieldAt pcieLinkShown r.lo r.width else 0)
  else d.rd r

/-- An ENGQ page (spec/14 R384): items fetched and not completed, and whether the queue is idle. -/
def Dev.viewEngq (r : Reg) (n : Nat) (d : Dev) : Nat :=
  let pending := (d.queueItems n).length
  if r = R.ENGQ.Q_STATUS_ACTIVE then bit (decide (pending ≠ 0))
  else if r = R.ENGQ.Q_STATUS_IDLE then bit (decide (pending = 0))
  else if r = R.ENGQ.PENDING then pending
  else d.rdAt r n 0

/-- The ENG_SCHED page (spec/14 R376, R384). -/
def Dev.viewSched (r : Reg) (k : Nat) (d : Dev) : Nat :=
  if r = R.ENG_SCHED.ENG_BUSY then wordOf (fun e => (d.runningOn e).isSome) 32
  else if r = R.ENG_SCHED.MATCH_USED then d.matchUsed
  else if r = R.ENG_SCHED.SCHED_STATUS_MATCH_FULL then bit (decide (8192 ≤ d.matchUsed))
  else if r = R.ENG_SCHED.DLIST_CFG_USED then (d.listItems k).length
  else d.rdAt r 0 k

/-- What field `r` of page instance `n`, register number `k`, shows. -/
def Dev.view (r : Reg) (n k : Nat) (d : Dev) : Nat :=
  if r.base = 0x12000 ∧ (r.off = 0x044 ∨ r.off = 0x0E8) then d.viewTake r
  else if r.base = 0x1000000 then d.viewBank r n
  else if r.base = 0x400000 then d.viewFar r n k
  else if r.base = 0x440000 then d.viewGroup r n
  else if r.base = 0 then d.viewId r
  else if r.base = 0x100000 then d.viewPcie r
  else if r.base = 0x108000 then d.viewEngq r n
  else if r.base = 0x104000 then d.viewSched r k
  else if r = R.CHECK.CHECK_STATUS_ACTIVE then bit (d.running && d.on R.CHECK.CHECK_CTRL_ENABLE)
  else if r = R.EDGE.EDGE_STATUS_PRESENT_FULL then bit (d.running && decide (d.tk.phase = .waiting ∧ d.tk.belay = 0 ∧ 16 ≤ d.edge.present.length))
  else if r = R.EDGE.EDGE_STATUS_LL_CONFLICT then bit (decide (d.rd R.EDGE.LL_CONFLICT_MASK ≠ 0))
  else if r = R.EDGE.EDGE_STATUS_BMEM_COLLISION then bit (decide (d.rd R.EDGE.BMEM_COLL ≠ 0))
  else if r = R.EDGE.EDGE_STATUS_FIFO_OVERFLOW then bit (decide (d.rd R.EDGE.FIFO_OVF ≠ 0))
  else if r = R.EDGE.EDGE_STATUS_FIFO_UNDERFLOW then bit (decide (d.rd R.EDGE.FIFO_UNF ≠ 0))
  else if r = R.EDGE.FIFO_LEVEL then (SMap.get d.edge.fifo k).length
  else if r.base = 0x201000 then d.viewDdrch r n k
  else if r = R.DDR.DDR_STATUS_INIT_PERCENT then d.initPercent
  else if r = R.PINBANK.PIN_IN then wordOf (fun i => SMap.get d.pins.input (32 * n + i) == 1) 32
  else if r = R.TIME.TIME_STATUS_LOCKED then bit (d.on r || (!d.linked && d.rd R.TIME.TIME_CTRL_SOURCE == 0 && !d.mg.inReset))
  else if r = R.TRACE.TRACE_STATUS_SECURE_BLOCKED then bit (d.on R.LOAD.LOAD_STATUS_SECURE)
  else if r = R.TRACE.BUFFER_LEVEL then d.trc.buf.length
  else if r = R.POWER.PWR_STATUS_THROTTLING then bit (decide (d.tk.phase = .waiting ∧ d.mono < d.tk.hold))
  else if r = R.CNT.LIVE then (if k < cntCount n then d.liveCount n k else 0)
  else if r = R.CNT.SEL then (if n < 0x40 then d.rdAt r n k else 0)
  else if r = R.MBOX.MBOX_STATUS_CH1_LEVEL then d.ch1Level
  else d.rdAt r n k

/-! Words. -/

/-- The register number and the word of it that stands at offset `o`, for a field of a page. -/
def Reg.place (r : Reg) (o : Nat) : Option (Nat × Nat) :=
  if o < r.off then none
  else
    let k := if r.stride = 0 then 0 else (o - r.off) / r.stride
    let w := (o - r.off - r.stride * k) / 4
    if k < r.count ∧ 32 * w < r.lo + r.width then some (k, w) else none

/-- What field `r` puts into the word at offset `o`; a WO field reads 0. -/
def Dev.fieldWord (r : Reg) (n o : Nat) (d : Dev) : Nat :=
  match r.place o with
  | none => 0
  | some (k, w) => if r.ty = .wo then 0 else (d.view r n k % 2 ^ r.width) * 2 ^ r.lo / 2 ^ (32 * w) % 2 ^ 32

/-- The word at offset `o` of a page with these fields. -/
def Dev.rowsWord (rows : List Reg) (n o : Nat) (d : Dev) : Nat := rows.foldl (fun a r => a + d.fieldWord r n o) 0

/-- A register that holds one value of more than 32 bits in two words (spec/00 R10): COST_FLOOR, COST_TABLE, LL_CONFLICT_MASK and BMEM_COLL hold lists of
smaller ones, and the longer registers are arrays of words. -/
def Reg.wide (r : Reg) : Bool :=
  decide (32 < r.lo + r.width ∧ r.lo + r.width ≤ 64) && r.ty != .w1c && decide (r ≠ R.CHECK.COST_FLOOR ∧ r ≠ R.CHECK.COST_TABLE)

/-- The word (0 low, 1 high) of a 64-bit register that stands at offset `o`. -/
def wideWord (rows : List Reg) (o : Nat) : Option Nat :=
  rows.findSome? fun r => if r.wide then (r.place o).map (·.2) else none

/-- The reset value of the word at offset `o`. -/
def resetWord (rows : List Reg) (o : Nat) : Nat :=
  rows.foldl (fun a r =>
    match r.place o with
    | none => a
    | some (_, w) => a + r.reset * 2 ^ r.lo / 2 ^ (32 * w) % 2 ^ 32) 0

/-! The common header (R495 to R498). -/

/-- The word at offset `o` below 0x40 of page `p`. -/
def Dev.headerWord (p o : Nat) (d : Dev) : Nat :=
  let n := evCount p
  if o = 0x00 then unitLoc p
  else if o = 0x04 then 0x0100
  else if o = 0x08 then
    (if 0x220 ≤ p ∧ p < 0x2D5 then cntCount (p - 0x220) else 0) + n * 2 ^ 8 + bit (hasRwl p) * 2 ^ 14 + bit (isBridge p) * 2 ^ 15
  else if o = 0x0C then d.rdAt R.HDR.PAGE_LOCK_OPEN p 0 * 2 ^ 16
  else if o = 0x10 then d.rdAt R.HDR.CTRL_EV_MASK p 0
  else if o = 0x14 then
    let off := match pageDomain p with
      | some i => decide (d.domState i = 0)
      | none => false
    let any := (List.range n).any fun j => d.raised (evSource p j) && d.enabled (evSource p j)
    bit off + bit any * 2 + d.rdAt R.HDR.STATUS_ROUTE_REFUSED p 0 * 4
  else if o = 0x18 then wordOf (fun j => d.raised (evSource p j)) n
  else if o = 0x1C then wordOf (fun j => d.enabled (evSource p j)) n
  else if o = 0x24 then
    let l := d.rdAt R.HDR.EV_ROUTE_LOCAL p 0
    l + (if l < n then d.route (evSource p l) % 2 ^ 15 else 0) * 2 ^ 16
  else 0

/-- The word at offset `o` of EVT page `p` (R513). -/
def Dev.evtWord (p o : Nat) (d : Dev) : Nat :=
  let base := 512 * (p - 1)
  if 0x40 ≤ o ∧ o < 0x80 then wordOf (fun i => d.raised (base + (o - 0x40) * 8 + i)) 32
  else if 0x80 ≤ o ∧ o < 0xC0 then wordOf (fun i => d.enabled (base + (o - 0x80) * 8 + i)) 32
  else if 0x800 ≤ o then d.route (base + (o - 0x800) / 4) % 2 ^ 15
  else 0

/-! Areas that are not pages (spec/12 R326, spec/14 R374, spec/19 R500). -/

/-- A word of the MSI-X table of a function, or of its pending bits, at offset `o` from 0xF_0000. -/
def Dev.msixWord (func o : Nat) (d : Dev) : Nat :=
  let vectors := if func = 0 then 2048 else 32
  let v := func * 4096 + o / 16
  if o < 0x8000 then
    if vectors ≤ o / 16 then 0
    else
      match o % 16 / 4 with
      | 0 => SMap.get d.host.msixAddr v % 2 ^ 32
      | 1 => SMap.get d.host.msixAddr v / 2 ^ 32
      | 2 => SMap.get d.host.msixData v
      | _ => 1 - SMap.get d.host.msixUnmask v
  else wordOf (fun i => decide ((o - 0x8000) * 8 + i < vectors) && SMap.get d.host.msixPend (func * 4096 + (o - 0x8000) * 8 + i) == 1) 32

/-- A word of the management areas of PF1 BAR0: the volatile ring, the safety log, the sequence array, the identity region (spec/18 R477, R479). -/
def Dev.pf1Area (off : Nat) (d : Dev) : Nat :=
  if 0x2000 ≤ off ∧ off < 0x4000 then leAt (SMap.get d.mg.ring ((off - 0x2000) / 32)).bytes (off % 32) 4
  else if 0x4000 ≤ off ∧ off < 0xC000 then leAt (SMap.get d.mg.slots ((off - 0x4000) / 32)).bytes (off % 32) 4
  else if 0xC000 ≤ off ∧ off < 0xE000 then SMap.get d.mg.seqs ((off - 0xC000) / 8) / 2 ^ (8 * (off % 8)) % 2 ^ 32
  else if off < 0xE008 then d.part.serial / 2 ^ (8 * (off % 8)) % 2 ^ 32
  else if off = 0xE008 then d.deviceId + 0xA1 * 2 ^ 16
  else if 0xE00C ≤ off ∧ off < 0xE03C then d.part.ownerHash / 2 ^ (8 * (off - 0xE00C)) % 2 ^ 32
  else 0

/-! Reads (R10, R321, R435). -/

/-- What the word at offset `o` of page `p` reads, with no regard to latches. -/
def Dev.pageWord (p o : Nat) (d : Dev) : Nat :=
  match d.pageRows p with
  | none => 0
  | some (rows, n) =>
    if o < 0x40 then d.headerWord p o
    else if isEvt p then d.evtWord p o
    else if p = 0xD ∧ o = 0x48 then d.timeShown % 2 ^ 32
    else if p = 0xD ∧ o = 0x4C then d.timeShown / 2 ^ 32
    else d.rowsWord rows n o

/-- The word that a read of the low word at offset `o` of page `p` latches: the high word of a 64-bit register. -/
def Dev.latchesHigh (p o : Nat) (d : Dev) : Bool :=
  match d.pageRows p with
  | none => false
  | some (rows, _) => decide (0x40 ≤ o) && (wideWord rows o == some 0 || (p == 0xD && o == 0x48))

/-- The reset value of a latched word at offset `o` of page `p`; none where the word there is not latched.  NOW_LO latches NOW_HI and WRAPS. -/
def Dev.latchedReset (p o : Nat) (d : Dev) : Option Nat :=
  match d.pageRows p with
  | none => none
  | some (rows, _) =>
    if o < 0x40 then none
    else if p = 0xD ∧ (o = 0x4C ∨ o = 0x50) then some 0
    else if wideWord rows o = some 1 then some (resetWord rows o)
    else none

/-- The latch of the 64-bit register whose low word stands at byte address `a`, in the given set of latches. -/
def latchedWord (m : SMap Nat) (a r : Nat) : Nat := (SMap.look m a).getD (r + 1) - 1

/-- A read of the word at offset `o` of page `p`: the value, and the device after it.  `mirror`: through the debug mirror, which has its own latches and no side effects. -/
def Dev.readPage (mirror : Bool) (p o : Nat) (d : Dev) : Nat × Dev :=
  let a := p * 0x1000 + o
  let high (m : SMap Nat) : SMap Nat := if d.latchesHigh p o then SMap.set m a (d.pageWord p (o + 4) + 1) else m
  let set (m : SMap Nat) : SMap Nat := if p = 0xD ∧ o = 0x48 then SMap.set (high m) (a + 4) (d.rd R.TIME.WRAPS + 1) else high m
  let v := match d.latchedReset p o with
    | some r => latchedWord (if mirror then d.mirrorLatch else d.latch) (a - 4) r
    | none => d.pageWord p o
  if mirror then (v, { d with mirrorLatch := set d.mirrorLatch })
  else
    let d1 := { d with latch := set d.latch }
    if p = 0x100 ∧ o = 0x54 then (v, d1.wr R.PCIE.INFLIGHT_PEAK 0)
    else if 0xE ≤ p ∧ p < 0x12 ∧ o = 0x84 then (v, d1.wrAt R.TBASE.POS_STAMP (p - 0xE) 0 d.stamp)
    else if p = 0xD ∧ 0x208 ≤ o ∧ o < 0x408 ∧ o % 0x20 = 8 then
      (v, d1.setCaps ((o - 0x208) / 0x20) ((SMap.get d.clk.caps ((o - 0x208) / 0x20)).drop 1))
    else (v, d1)

/-- What a word of PF0 BAR0 reads, without its side effects on latches: the mirror shows the lower half again. -/
def Dev.pf0Word (off : Nat) (d : Dev) : Nat :=
  let x := off % 0x2000000
  if 0xF0000 ≤ x ∧ x < 0xF8100 then d.msixWord 0 (x - 0xF0000)
  else if 0x180000 ≤ x ∧ x < 0x200000 then leNat (SMap.bytes d.eng.sram (x - 0x180000) 4)
  else d.pageWord (x / 0x1000) (x % 0x1000)

/-- What a word of PF1 BAR0 reads (R500): the MBOX page, the management areas, the bridge pages, the MSI-X table. -/
def Dev.pf1Word (off : Nat) (d : Dev) : Nat :=
  if off < 0x1000 then d.pageWord mboxPage off
  else if 0x88000 ≤ off ∧ off < 0x93000 then d.pageWord ((off - 0x80000) / 0x1000) (off % 0x1000)
  else if 0xF0000 ≤ off ∧ off < 0xF8100 then d.msixWord 1 (off - 0xF0000)
  else d.pf1Area off

/-- A read of the word at offset `off` of PF0 BAR0. -/
def Dev.readPf0 (off : Nat) (d : Dev) : Nat × Dev :=
  let x := off % 0x2000000
  if (0xF0000 ≤ x ∧ x < 0xF8100) ∨ (0x180000 ≤ x ∧ x < 0x200000) then (d.pf0Word off, d)
  else d.readPage (decide (0x2000000 ≤ off)) (x / 0x1000) (x % 0x1000)

/-- A read of the word at offset `off` of PF1 BAR0: its pages share the latches of PF0 (R10). -/
def Dev.readPf1 (off : Nat) (d : Dev) : Nat × Dev :=
  if off < 0x1000 then d.readPage false mboxPage off
  else if 0x88000 ≤ off ∧ off < 0x93000 then d.readPage false ((off - 0x80000) / 0x1000) (off % 0x1000)
  else (d.pf1Word off, d)

/-! Configuration space (spec/12 R316, R319, R320, R328). -/

/-- The function that answers at a function number, 0 PF0 or 1 PF1: with no image booted PF1 alone, at number 0 (spec/07 R184). -/
def Dev.functionAt (d : Dev) (number : Nat) : Option Nat :=
  if d.mg.bootFailed then (if number = 0 then some 1 else none) else if number < 2 then some number else none

/-- The size of a BAR as a power of two, and whether it is prefetchable; none where the function has no such BAR. -/
def Dev.barShape (d : Dev) (func n : Nat) : Option (Nat × Bool) :=
  if func = 0 then (if n = 0 then some (26, false) else if n = 2 then some (d.host.bar2Log, true) else if n = 4 then some (33, true) else none)
  else if n = 0 then some (20, false) else none

/-- What a register of configuration space of a function holds: its length in bytes and its value.  A BAR answers as after a write of all ones: 64-bit in bits [2:1], prefetchable in
bit 3, and 0 in the bits below its size.  PRESUMED: that form is the one of PCI Express.  The readiness times are in microseconds. -/
def Dev.configReg (d : Dev) (func : Nat) : CfgReg → Nat × Nat
  | .vendorId => (2, 0x1FE3)
  | .deviceId => (2, d.deviceId + func)
  | .revisionId => (1, 0xA1)
  | .classCode => (3, if func = 0 then 0x120000 else 0x088000)
  | .subsystemVendorId => (2, 0x1FE3)
  | .subsystemId => (2, d.deviceId + func)
  | .bar n =>
    match d.barShape func n with
    | some (k, prefetch) => (8, 2 ^ 64 - 2 ^ k + 8 * bit prefetch + 4)
    | none => (8, 0)
  | .msixVectors => (2, if func = 0 then 2048 else 32)
  | .serialNumber => (8, d.part.serial)
  | .resetTime => (4, 1000000)
  | .flrTime => (4, 10000)

end Sys2Proof.Machine
end

