-- ==== Sys2Proof/Machine/Pages.lean ====
section
/-! DEFINITION. Writes to the register pages (spec/00 R10, spec/01 R21, R22, spec/12 R321, R326, spec/15 R398 to R400, spec/16 R435, R444, spec/19 R496 to R507). -/

namespace Sys2Proof.Machine

/-! Fields by type (R10). -/

/-- PAGE_LOCK of page `p` is open. -/
def Dev.lockOpen (d : Dev) (p : Nat) : Bool := d.rdAt R.HDR.PAGE_LOCK_OPEN p 0 == 1

/-- The field `r` takes its part of word `w`, the 32-bit word `i` of register number `k`: RW sets, W1C clears, W1S sets bits; RO, RC and WO keep the value. -/
def Dev.writeField (r : Reg) (n k i w : Nat) (d : Dev) : Dev :=
  let old := d.rdAt r n k
  let bits := w % 2 ^ 32 * 2 ^ (32 * i) / 2 ^ r.lo % 2 ^ r.width
  match r.ty with
  | .rw => d.wrAt r n k (putField (old * 2 ^ r.lo) (32 * i) 32 w / 2 ^ r.lo)
  | .w1c => d.wrAt r n k (old - (old &&& bits))
  | .w1s => d.wrAt r n k (old ||| bits)
  | .ro | .rc | .wo | .rwl => d

/-- Every field of the word at offset `o` of a page with these fields. -/
def Dev.writeFields (rows : List Reg) (n o w : Nat) (d : Dev) : Dev :=
  forAll rows (fun r d =>
    match r.place o with
    | none => d
    | some (k, i) => d.writeField r n k i w) d

/-- A word of a register is written as its type says, whatever page holds it. -/
def Dev.plainWrite (p o w : Nat) (d : Dev) : Dev :=
  match d.pageRows p with
  | none => d
  | some (rows, n) => d.writeFields rows n o w

/-! The event controller (R497 to R507). -/

/-- PAGE_LOCK is written (R497). -/
def Dev.pageLockWrite (p w : Nat) (d : Dev) : Dev :=
  if hasRwl p then d.wrAt R.HDR.PAGE_LOCK_OPEN p 0 (bit (w % 2 ^ 16 == 0x5A3C)) else d

/-- RAISED of a source is cleared. -/
def Dev.clearRaised (src : Nat) (d : Dev) : Dev := { d with evRaised := SMap.set d.evRaised src 0 }

/-- ENABLE of a source is written; a change from 0 to 1 while RAISED is 1 sends the message (R504). -/
def Dev.writeEnable (src v : Nat) (d : Dev) : Dev :=
  let d1 := { d with evEnable := SMap.set d.evEnable src v }
  if v = 1 ∧ !d.enabled src ∧ d.raised src ∧ isSet (d.route src) 12 ∧ !d.evMasked src then d1.sendMsix (d.route src) else d1

/-- The route entry of a source is written, SAFETY only while the lock of the page is open; FUNC = 1 with a VECTOR above 31 is dropped (R503). -/
def Dev.writeRoute (p src entry safety : Nat) (d : Dev) : Dev :=
  if isSet entry 11 ∧ 31 < entry % 2 ^ 11 then d.wrAt R.HDR.STATUS_ROUTE_REFUSED p 0 1
  else
    let s := if d.lockOpen p then safety % 2 else bitAt (d.route src) 14
    { d with evRoute := SMap.set d.evRoute src (entry % 2 ^ 14 + s * 2 ^ 14) }

/-- The sources that the set bits of word `w` name: local events of page `p`, or the 32 sources from `base` of an EVT page that exist. -/
def localSources (p w : Nat) : List Nat := (setBits w 32).filterMap fun j => if j < evCount p then some (evSource p j) else none
/-- The same for a word of an EVT page. -/
def evtSources (base w : Nat) : List Nat := (setBits w 32).filterMap fun i => if evAssigned (base + i) then some (base + i) else none

/-- ENABLE of 32 sources is written. -/
def Dev.writeEnables (srcs : List (Nat × Nat)) (d : Dev) : Dev := forAll srcs (fun s d => d.writeEnable s.1 s.2) d

/-- EV_ROUTE of page `p` is written (R498). -/
def Dev.evRouteWrite (p w : Nat) (d : Dev) : Dev :=
  let l := w % 32
  if evCount p ≤ l then d.wrAt R.HDR.STATUS_ROUTE_REFUSED p 0 1
  else if isSet w 15 then d.wrAt R.HDR.EV_ROUTE_LOCAL p 0 l
  else if isSet w 27 ∧ 31 < fieldAt w 16 11 then d.wrAt R.HDR.STATUS_ROUTE_REFUSED p 0 1
  else (d.wrAt R.HDR.EV_ROUTE_LOCAL p 0 l).writeRoute p (evSource p l) (fieldAt w 16 14) (bitAt w 30)

/-- RAISED bits are cleared; a source of `same` raises its event in the same NoC cycle, which counts as a change from 0 to 1 (R502). -/
def Dev.clearEvents (srcs same : List Nat) (d : Dev) : Dev :=
  forAll same (fun s d => d.event s) (forAll srcs (fun s d => d.clearRaised s) d)

/-- EV_RAISED of page `p` is written; `same` are the local events raised in the same cycle. -/
def Dev.evRaisedWrite (p w same : Nat) (d : Dev) : Dev := d.clearEvents (localSources p w) (localSources p same)

/-- EV_ENABLE of page `p` is written. -/
def Dev.evEnableWrite (p w : Nat) (d : Dev) : Dev := d.writeEnables ((List.range (evCount p)).map fun j => (evSource p j, bitAt w j))

/-- EV_FORCE of page `p` is written: the sources raise as if by themselves (R507). -/
def Dev.evForceWrite (p w : Nat) (d : Dev) : Dev := forAll (localSources p w) (fun s d => d.event s) d

/-- A word of the header of page `p` is written. -/
def Dev.headerWrite (p o w : Nat) (d : Dev) : Dev :=
  if o = 0x0C then d.pageLockWrite p w
  else if o = 0x10 then d.wrAt R.HDR.CTRL_EV_MASK p 0 w
  else if o = 0x14 then (if isSet w 2 then d.wrAt R.HDR.STATUS_ROUTE_REFUSED p 0 0 else d)
  else if o = 0x18 then d.evRaisedWrite p w 0
  else if o = 0x1C then d.evEnableWrite p w
  else if o = 0x20 then d.evForceWrite p w
  else if o = 0x24 then d.evRouteWrite p w
  else d

/-- A word of RAISED of EVT page `p` is written (R513). -/
def Dev.evtRaisedWrite (p o w same : Nat) (d : Dev) : Dev :=
  let base := 512 * (p - 1) + (o - 0x40) * 8
  d.clearEvents (evtSources base w) (evtSources base same)

/-- A word of ENABLE of EVT page `p` is written. -/
def Dev.evtEnableWrite (p o w : Nat) (d : Dev) : Dev :=
  let base := 512 * (p - 1) + (o - 0x80) * 8
  d.writeEnables ((evtSources base (2 ^ 32 - 1)).map fun s => (s, bitAt w (s - base)))

/-- A word of FORCE of EVT page `p` is written. -/
def Dev.evtForceWrite (p o w : Nat) (d : Dev) : Dev := forAll (evtSources (512 * (p - 1) + (o - 0xC0) * 8) w) (fun s d => d.event s) d

/-- A word ROUTE_j of EVT page `p` is written; a reserved source ignores it. -/
def Dev.evtRouteWrite (p o w : Nat) (d : Dev) : Dev :=
  let src := 512 * (p - 1) + (o - 0x800) / 4
  if evAssigned src then d.writeRoute p src (w % 2 ^ 14) (bitAt w 14) else d

/-- A word of EVT page `p` beyond its header is written. -/
def Dev.evtWrite (p o w : Nat) (d : Dev) : Dev :=
  if 0x40 ≤ o ∧ o < 0x80 then d.evtRaisedWrite p o w 0
  else if 0x80 ≤ o ∧ o < 0xC0 then d.evtEnableWrite p o w
  else if 0xC0 ≤ o ∧ o < 0x100 then d.evtForceWrite p o w
  else if 0x800 ≤ o then d.evtRouteWrite p o w
  else d

/-! The blocks behind the pages. -/

/-- A write whose value a table does not allow is dropped. -/
def Dev.guarded (ok : Bool) (refuse act : Dev → Dev) (d : Dev) : Dev := if ok then act d else refuse d

/-- RESET_CTRL: the bits act in the order ARRAY, EDGE, DEVICE (spec/18 R492). -/
def Dev.resetCtrlWrite (w t : Nat) (d : Dev) : Dev :=
  ((d.when (isSet w 0) (fun d => d.arrayReset t)).when (isSet w 1) (fun d => d.edgeReset t)).hostReset w t

/-- SAFE_CTRL: CLEAR, then TEST (spec/18 R480, R485).  Whether the condition of a clock or rail still holds is not part of a register write: it is taken to be over. -/
def Dev.safeCtrlWrite (v : Envelope) (w t : Nat) (d : Dev) : Dev :=
  (d.when (isSet w 0) (fun d => d.clearWrite v false t)).when (isSet w 1) (fun d => d.testWrite t)

/-- A word of the POWER page. -/
def Dev.powerPageWrite (o w : Nat) (d : Dev) : Dev :=
  if o = 0x40 then d.targetWrite w
  else if o = 0x4C then d.guarded (decide (100 ≤ w % 2 ^ 16)) (fun d => d.wr R.POWER.PWR_STATUS_WRITE_REFUSED 1) (fun d => d.wr R.POWER.PL_WINDOW_US w)
  else if 0x100 ≤ o ∧ o < 0x488 ∧ o % 8 = 0 then d.domCtrlWrite ((o - 0x100) / 8) w
  else d.plainWrite 0xC o w

/-- A word of the TIME page; a value outside the range that its table gives is dropped. -/
def Dev.timePageWrite (o w t : Nat) (d : Dev) : Dev :=
  let refuse (d : Dev) : Dev := d.wr R.TIME.TIME_STATUS_WRITE_REFUSED 1
  if o = 0x40 then d.timeCtrlWrite w
  else if o = 0x54 then d.stageLow (R.TIME.ADDEND.key 0 0) w
  else if o = 0x58 then d.addendWrite w
  else if o = 0x5C then d.guarded (decide (16 ≤ w)) refuse (fun d => d.wr R.TIME.JUMP_LIMIT w)
  else if o = 0x74 then d.guarded (decide (10 ≤ w % 2 ^ 16)) refuse (fun d => d.wr R.TIME.PTM_INTERVAL w)
  else if 0x100 ≤ o ∧ o < 0x200 ∧ o % 0x20 = 0 then d.pulseCtrlWrite ((o - 0x100) / 0x20) w t
  else if 0x400 ≤ o ∧ o < 0x440 then d.guarded (fieldAt w 1 2 != 3 && decide (w / 2 ^ 16 % 2 ^ 16 ≠ 0)) refuse (fun d => d.plainWrite 0xD o w)
  else d.plainWrite 0xD o w

/-- A word of the TAKE page. -/
def Dev.takePageWrite (o w : Nat) (d : Dev) : Dev :=
  if o = 0x40 then d.takeCtrlWrite w
  else if o = 0x50 then d.stageLow (R.TAKE.INJECT_THROUGH.key 0 0) w
  else if o = 0x54 then d.injectThroughWrite w
  else d.plainWrite 0x12 o w

/-- A word of the LOAD page. -/
def Dev.loadPageWrite (o w t : Nat) (d : Dev) : Dev :=
  if o = 0x40 then ((d.when (isSet w 0) (fun d => d.loadEnd t)).when (isSet w 1) (fun d => d.regionReleaseWrite t)).when (isSet w 2) Dev.stateAck
  else if o = 0x50 then d.productionIdWrite 0 w
  else if o = 0x54 then d.productionIdWrite 1 w
  else if o = 0x58 then d.positionWrite w
  else d.plainWrite 0x14 o w

/-- A word of the DBG page: TOKEN keeps what is written for the next unlock; BAP_ADDR and BAP_DATA are not written under an access in progress. -/
def Dev.dbgPageWrite (o w t : Nat) (d : Dev) : Dev :=
  if o = 0x40 then ((d.attachWrite w t).when (isSet w 1) (fun d => d.unlock t)).when (isSet w 2) Dev.newNonce
  else if 0xA0 ≤ o ∧ o < 0x100 then d.wr R.DBG.TOKEN (putField (d.rd R.DBG.TOKEN) ((o - 0xA0) * 8) 32 w)
  else if o = 0x100 then d.bapCtrlWrite w t
  else if (o = 0x108 ∨ o = 0x10C ∨ (0x140 ≤ o ∧ o < 0x180)) ∧ d.on R.DBG.BAP_STATUS_BUSY then d
  else d.plainWrite 0x16 o w

/-- The pages of the global range of PF0 BAR0 (spec/19 R499). -/
def Dev.globalWrite (p o w t : Nat) (v : Envelope) (d : Dev) : Dev :=
  if p = 8 ∧ o = 0x40 then d.resetCtrlWrite w t
  else if p = 9 ∧ o = 0x40 then d.stepMhzWrite w
  else if p = 0xA ∧ o = 0x40 then d.safeCtrlWrite v w t
  else if p = 0xB then d.wr R.MBOX.MBOX_STATUS_BRIDGE_REFUSED 1
  else if p = 0xC then d.powerPageWrite o w
  else if p = 0xD then d.timePageWrite o w t
  else if 0xE ≤ p ∧ p < 0x12 ∧ o < 0x80 then d.tbCfgWrite (p - 0xE) o w
  else if p = 0x12 then d.takePageWrite o w
  else if p = 0x13 ∧ o = 0x40 then d.checkCtrlWrite w
  else if p = 0x14 then d.loadPageWrite o w t
  else if p = 0x15 ∧ o = 0x40 then d.runCtrlWrite w t
  else if p = 0x15 ∧ o = 0x48 then d.wdogWrite w
  else if p = 0x16 then d.dbgPageWrite o w t
  else if p = 0x17 ∧ o = 0x40 then d.watchCtrlWrite w t
  else if p = 0x17 ∧ 0x54 ≤ o then d.watchWrite o w
  else d.plainWrite p o w

/-- A word of an entry of the DMMU page: INV_BASE keeps the bits that its table does not reserve. -/
def Dev.dmmuWrite (o w : Nat) (d : Dev) : Dev :=
  if o = 0x40 then d.invCtrlWrite w
  else if o = 0x48 then d.plainWrite 0x101 o (w / 2 ^ 12 * 2 ^ 12)
  else if o = 0x4C then d.plainWrite 0x101 o (w % 2 ^ 16)
  else if 0x100 ≤ o ∧ o < 0x900 ∧ o % 0x20 < 8 then d.ctxRootWrite ((o - 0x100) / 0x20) (o % 0x20 / 4) w
  else d.plainWrite 0x101 o w

/-- A word of the FENCE page: the entries are read-only while LOCK is 1 (spec/12 R341). -/
def Dev.fenceWrite (o w : Nat) (d : Dev) : Dev :=
  if o = 0x40 then d.fenceCtrlWrite w
  else if 0x100 ≤ o ∧ o < 0x300 ∧ d.on R.FENCE.FENCE_CTRL_LOCK then d.wr R.FENCE.FENCE_STATUS_WRITE_REFUSED 1
  else d.plainWrite 0x102 o w

/-- A word of the ENG_SCHED page: the KEY of a delay list that holds items, and a KEY that is none, are dropped (spec/14 R384). -/
def Dev.schedWrite (o w : Nat) (d : Dev) : Dev :=
  if o = 0x48 then d.tokenPostWrite w
  else if 0x100 ≤ o ∧ o < 0x140 then
    d.guarded (decide (d.listItems ((o - 0x100) / 4) = []) && decide (w % 8 < 5)) (fun d => d.wr R.ENG_SCHED.SCHED_STATUS_WRITE_REFUSED 1)
      (fun d => d.plainWrite 0x104 o w)
  else d.plainWrite 0x104 o w

/-- A word of the ENGQ page of queue `q`: the bases are dropped while ENABLE is 1 (spec/14 R384). -/
def Dev.queueWrite (q o w : Nat) (d : Dev) : Dev :=
  if o = 0x40 then d.qCtrlWrite q w
  else if 0x48 ≤ o ∧ o < 0x58 ∧ d.rdAt R.ENGQ.Q_CTRL_ENABLE q 0 = 1 then d.wrAt R.ENGQ.Q_STATUS_WRITE_REFUSED q 0 1
  else if o = 0x58 then d.sqTailWrite q w
  else if o = 0x64 then d.cqHeadWrite q w
  else d.plainWrite (0x108 + q) o w

/-- A word of the DDR page: DDR_CTRL with or without RETRAIN; SCRUB_HOURS of 1 to 24 (spec/13 R362). -/
def Dev.ddrWriteReg (o w : Nat) (d : Dev) : Dev :=
  if o = 0x40 then (if isSet w 12 then d.ddrRetrain w else d.ddrCtrlFields w)
  else if o = 0x50 then d.guarded (decide (1 ≤ w % 32 ∧ w % 32 ≤ 24)) id (fun d => d.wr R.DDR.SCRUB_HOURS w)
  else d.plainWrite 0x200 o w

/-- A word of the TRACE page: the sink registers are dropped while ENABLE is 1 (spec/17 R462). -/
def Dev.traceWrite (o w t : Nat) (d : Dev) : Dev :=
  let sink := (decide (0x48 ≤ o) && decide (o < 0x54)) || (decide (0x68 ≤ o) && decide (o < 0x78))
  if o = 0x40 then d.traceCtrlWrite w t
  else if sink && d.on R.TRACE.TRACE_CTRL_ENABLE then d.refuseTrace
  else if o = 0x50 then d.guarded (decide (16 ≤ w % 64 ∧ w % 64 ≤ 36)) Dev.refuseTrace (fun d => d.plainWrite 0x211 o w)
  else if o = 0x60 ∨ o = 0x64 then d.rdWrite (putField (d.rd R.TRACE.RD) ((o - 0x60) * 8) 32 w)
  else if 0x100 ≤ o ∧ o < 0x300 then d.capMaskWrite ((o - 0x100) / 8) (o % 8 / 4) w
  else if 0x300 ≤ o ∧ o < 0x340 then d.fieldCfgWrite ((o - 0x300) / 4) w
  else d.plainWrite 0x211 o w

/-- The pages of the hub ranges of PF0 BAR0. -/
def Dev.hubWrite (p o w t : Nat) (d : Dev) : Dev :=
  if p = 0x100 ∧ o = 0x4C then d.bar2OffsetHiWrite w
  else if p = 0x101 then d.dmmuWrite o w
  else if p = 0x102 then d.fenceWrite o w
  else if p = 0x103 ∧ o = 0x40 then d.checkModeWrite w
  else if p = 0x103 ∧ o = 0x54 then d.guarded (decide (10 ≤ w % 2 ^ 16)) id (fun d => d.wr R.NOC.RSP_TIMEOUT_US w)
  else if p = 0x104 then d.schedWrite o w
  else if 0x108 ≤ p ∧ p < 0x148 then d.queueWrite (p - 0x108) o w
  else if p = 0x200 then d.ddrWriteReg o w
  else if 0x209 ≤ p ∧ p < 0x211 ∧ o = 0x40 then d.klCtrlWrite (p - 0x209) w
  else if 0x209 ≤ p ∧ p < 0x211 ∧ o = 0x48 then d.txEqWrite (p - 0x209) w
  else if p = 0x211 then d.traceWrite o w t
  else if p = 0x212 ∧ o = 0x40 then d.snapCtrlWrite w t
  else if 0x260 ≤ p ∧ p < 0x2D5 ∧ 0x200 ≤ o then d
  else d.plainWrite p o w

/-- A word of the PINBANK page of bank `b`: any write but to LOCKKEY and LOCK ends an arming (spec/09 R248). -/
def Dev.pinbankWrite (b o w t : Nat) (d : Dev) : Dev :=
  if o = 0x44 then d.lockKeyWrite b w t
  else if o = 0x48 then d.lockWrite b w t
  else if 0x100 ≤ o ∧ o < 0x200 ∧ o % 8 = 4 then (d.endArming b).pinCfgHiWrite b ((o - 0x100) / 8) w t
  else if 0x100 ≤ o ∧ o < 0x200 then (d.endArming b).pinCfgLoWrite b ((o - 0x100) / 8) w
  else (d.endArming b).plainWrite (0x301 + b) o w

/-- A word of the MATCH page of matcher `m`. -/
def Dev.matchPageWrite (m o w : Nat) (d : Dev) : Dev :=
  if o = 0x40 then d.matchCtrlWrite m w
  else if o = 0x44 then d.plainWrite (0x310 + m) o w
  else if o = 0x48 ∨ o = 0x4C ∨ (0x80 ≤ o ∧ o < 0x100) then d.matchWrite m fun d => d.plainWrite (0x310 + m) o w
  else d

/-- The pages of the edge fabric, the pins and the groups. -/
def Dev.fabricWrite (p o w t : Nat) (d : Dev) : Dev :=
  if p = 0x300 ∧ o = 0x40 then d.edgeCtrlWrite w t
  else if p = 0x300 ∧ o = 0x44 then d.edgeStatusWrite w
  else if p = 0x300 ∧ o = 0x48 then d.presentCfgWrite w
  else if p = 0x300 ∧ 0x180 ≤ o ∧ o < 0x200 then d.probeSelWrite ((o - 0x180) / 4) w
  else if 0x301 ≤ p ∧ p < 0x30B then d.pinbankWrite (p - 0x301) o w t
  else if 0x310 ≤ p ∧ p < 0x320 then d.matchPageWrite (p - 0x310) o w
  else if 0x400 ≤ p ∧ p < 0x440 ∧ (o = 0x40 ∨ (0x80 ≤ o ∧ o < 0x180)) then d.farCtrlWrite (p - 0x400) o w
  else if 0x1000 ≤ p ∧ o = 0x40 ∧ p < 0x2000 then d.bankCtrlWrite (p - 0x1000) w
  else d.plainWrite p o w

/-- A word of the MBOX page. -/
def Dev.mboxWrite (o w t : Nat) (d : Dev) : Dev :=
  if o = 0x40 then d.when (isSet w 0) (fun d => d.doorbell t) else d.plainWrite mboxPage o w

/-- A word beyond the header of page `p` is written. -/
def Dev.blockWrite (p o w t : Nat) (v : Envelope) (d : Dev) : Dev :=
  if isEvt p then d.evtWrite p o w
  else if p < 0x100 then d.globalWrite p o w t v
  else if p < 0x300 then d.hubWrite p o w t
  else if p = mboxPage then d.mboxWrite o w t
  else d.fabricWrite p o w t

/-! Words of the BARs. -/

/-- A word of the MSI-X table of a function (R326, R327): address, data, mask; the pending bits are read-only. -/
def Dev.msixWrite (func o w : Nat) (d : Dev) : Dev :=
  let vectors := if func = 0 then 2048 else 32
  let k := func * 4096 + o / 16
  let a := SMap.get d.host.msixAddr k
  if 0x8000 ≤ o ∨ vectors ≤ o / 16 then d
  else
    match o % 16 / 4 with
    | 0 => { d with host := { d.host with msixAddr := SMap.set d.host.msixAddr k (putField a 0 32 (w / 4 * 4)) } }
    | 1 => { d with host := { d.host with msixAddr := SMap.set d.host.msixAddr k (putField a 32 32 w) } }
    | 2 => { d with host := { d.host with msixData := SMap.set d.host.msixData k (w % 2 ^ 32) } }
    | _ => if w % 2 = 0 then d.msixUnmask func (o / 16) else { d with host := { d.host with msixUnmask := SMap.set d.host.msixUnmask k 0 } }

/-- An access to a word beyond the header of a page whose block lies in a switched domain waits at the gateway (spec/15 R398). -/
def Dev.holdAccess (h : Held) (d : Dev) : Dev := { d with net := { d.net with held := d.net.held ++ [h] } }

/-- A word of page `p` is written: the header by the event controller, the rest by the block, through the gateway of its domain (R496). -/
def Dev.pageWrite (tap : Bool) (p o w t : Nat) (v : Envelope) (d : Dev) : Dev :=
  if (d.pageRows p).isNone then d
  else if o < 0x40 then d.headerWrite p o w
  else
    match pageDomain p with
    | none => d.blockWrite p o w t v
    | some i =>
      match d.gateway i 0x14C 2 false with
      | (.pass, d1) => d1.blockWrite p o w t v
      | (.refused, d1) => d1
      | (.held, d1) => d1.holdAccess ⟨i, tap, p * 0x1000 + o, w, true⟩

/-- A word of PF0 BAR0 is written; writes into the mirror are dropped (spec/16 R435). -/
def Dev.pf0Write (tap : Bool) (off w t : Nat) (v : Envelope) (d : Dev) : Dev :=
  if 0x2000000 ≤ off then d
  else if 0xF0000 ≤ off ∧ off < 0xF8100 then d.msixWrite 0 (off - 0xF0000) w
  else if 0x180000 ≤ off ∧ off < 0x200000 then { d with eng := { d.eng with sram := SMap.store d.eng.sram (off - 0x180000) (leBytes w 4) } }
  else d.pageWrite tap (off / 0x1000) (off % 0x1000) w t v

/-- A word of PF1 BAR0 is written (R22, R500): the areas of the MRAM are refused. -/
def Dev.pf1Write (off w t : Nat) (v : Envelope) (d : Dev) : Dev :=
  if off < 0x1000 then d.pageWrite false mboxPage off w t v
  else if 0x4000 ≤ off ∧ off < 0xF000 then d.wr R.MBOX.MBOX_STATUS_BRIDGE_REFUSED 1
  else if 0x88000 ≤ off ∧ off < 0x93000 then d.pageWrite false ((off - 0x80000) / 0x1000) (off % 0x1000) w t v
  else if 0xF0000 ≤ off ∧ off < 0xF8100 then d.msixWrite 1 (off - 0xF0000) w
  else d

/-- A function answers requests: PF0 after a boot that succeeded and in D0, PF1 after any boot (spec/07 R182, R184, spec/12 R328). -/
def Dev.funcUp (d : Dev) (func : Nat) : Bool := !d.mg.inReset && (func == 1 || (func == 0 && !d.mg.bootFailed && d.pf0Awake))

/-- The configuration space of PF0 or PF1 answers: PF1's after any boot, PF0's after one that succeeded, in any D-state. -/
def Dev.functionUp (d : Dev) (func : Nat) : Bool := !d.mg.inReset && (func == 1 || (func == 0 && !d.mg.bootFailed))

/-- A word of BAR0 of a function is written. -/
def Dev.busWord (func off w t : Nat) (v : Envelope) (d : Dev) : Dev := if func = 0 then d.pf0Write false off w t v else d.pf1Write off w t v

/-- A write request to BAR0 of a function (R321): of 4 or 8 aligned bytes with every byte enabled; the low word of 8 bytes is written first. -/
def Dev.busWrite (func off size be value t : Nat) (v : Envelope) (d0 : Dev) : Dev :=
  let d1 := d0.toTime t
  if !d1.funcUp func then d1
  else
    let d := d1.count 0xB0 11 1
    if (size ≠ 4 ∧ size ≠ 8) ∨ off % size ≠ 0 then d.wr R.PCIE.PCIE_STATUS_BAR0_ABORT 1
    else if be % 2 ^ size ≠ 2 ^ size - 1 then d.wr R.PCIE.PCIE_STATUS_BAR0_PARTIAL 1
    else if size = 4 then d.busWord func off (value % 2 ^ 32) t v
    else (d.busWord func off (value % 2 ^ 32) t v).busWord func (off + 4) (value / 2 ^ 32 % 2 ^ 32) t v

/-- A register write of the host (R10); what only the LK7 sets ignores it. -/
def Dev.registerWrite (s : RegSpace) (size be value t : Nat) (v : Envelope) (d : Dev) : Dev :=
  match s with
  | .bar0 func off => d.busWrite func off size be value t v
  | .msixEnable func =>
    if d.functionUp func then { d with host := { d.host with msixEnable := SMap.set d.host.msixEnable func (value % 2) } } else d
  | .bar2Size => if d.functionUp 0 ∧ 30 ≤ value ∧ value ≤ 42 then { d with host := { d.host with bar2Log := value } } else d
  | .config _ _ => d

/-! The rows that are an access to a register (R10, spec/12 R321, spec/15 R398). -/

/-- The access to page `p` reaches its registers from the host: a function that answers gives it, and the part has the page.  The pages of the register bridge are reached
through PF1 too (spec/01 R21, spec/19 R500). -/
def Dev.rowUp (p : Nat) (d : Dev) : Bool := d.funcUp (if isBridge p then 1 else 0) && (d.pageRows p).isSome

/-- The command is the host's write of word `w` at offset `o` of page `p`, at the stamp `t`: `act` is what the register does.  Where no function answers, or the part
has no such page, nothing happens; the domain of the page takes, holds or refuses the write as for any other. -/
def Dev.rowWrite (p o w t : Nat) (act : Dev → Dev) (d0 : Dev) : Dev :=
  let d := d0.toTime t
  if !d.rowUp p then d
  else
    let d1 := d.count 0xB0 11 1
    match pageDomain p with
    | none => act d1
    | some i =>
      match d1.gateway i 0x14C 2 false with
      | (.pass, d2) => act d2
      | (.refused, d2) => d2
      | (.held, d2) => d2.holdAccess ⟨i, false, p * 0x1000 + o, w, true⟩

/-- The command is the host's read of a register of page `p`. -/
def Dev.rowRead (p t : Nat) (act : Dev → Dev) (d0 : Dev) : Dev :=
  let d := d0.toTime t
  if d.rowUp p then act (d.count 0xB0 10 1) else d

/-- The command is an access to the MSI-X table of a function. -/
def Dev.rowFunc (func t : Nat) (act : Dev → Dev) (d0 : Dev) : Dev :=
  let d := d0.toTime t
  if d.funcUp func then act (d.count 0xB0 11 1) else d

/-- PF0 is there: after a boot that succeeded (spec/07 R184). -/
def Dev.whenPf0 (act : Dev → Dev) (d : Dev) : Dev := if d.mg.inReset || d.mg.bootFailed then d else act d

/-- PF1 is there: after any boot. -/
def Dev.whenBooted (act : Dev → Dev) (d : Dev) : Dev := if d.mg.inReset then d else act d

/-! The rows of the event controller: each acts where its offset names such a register of a page, in either view. -/

/-- The page and offset that an offset of BAR0 of a function names. -/
def pageOf (func off : Nat) : Nat × Nat :=
  if func = 0 then (off / 0x1000, off % 0x1000)
  else if off < 0x1000 then (mboxPage, off)
  else if 0x88000 ≤ off ∧ off < 0x93000 then ((off - 0x80000) / 0x1000, off % 0x1000)
  else (0x1FFFFF, 0)

/-- The write acts on a page that is there, of a function that answers. -/
def Dev.eventWrite (func off t : Nat) (f : Nat → Nat → Dev → Dev) (d0 : Dev) : Dev :=
  let d := d0.toTime t
  let x := pageOf func off
  if d.funcUp func && (d.pageRows x.1).isSome then f x.1 x.2 (d.count 0xB0 11 1) else d

/-- PAGE_LOCK. -/
def Dev.pageLockRow (func off w t : Nat) (d : Dev) : Dev := d.eventWrite func off t fun p o d => if o = 0x0C then d.pageLockWrite p w else d

/-- EV_ROUTE, or ROUTE_j of an EVT page. -/
def Dev.evRouteRow (func off w t : Nat) (d : Dev) : Dev :=
  d.eventWrite func off t fun p o d =>
    if o = 0x24 then d.evRouteWrite p w else if isEvt p && decide (0x800 ≤ o) && o % 4 == 0 then d.evtRouteWrite p o w else d

/-- EV_RAISED, or RAISED_w of an EVT page; `same` are the bits of events raised in the same NoC cycle. -/
def Dev.evRaisedRow (func off w same t : Nat) (d : Dev) : Dev :=
  d.eventWrite func off t fun p o d =>
    if o = 0x18 then d.evRaisedWrite p w same
    else if isEvt p && decide (0x40 ≤ o ∧ o < 0x80) && o % 4 == 0 then d.evtRaisedWrite p o w same else d

/-- EV_ENABLE, or ENABLE_w of an EVT page. -/
def Dev.evEnableRow (func off w t : Nat) (d : Dev) : Dev :=
  d.eventWrite func off t fun p o d =>
    if o = 0x1C then d.evEnableWrite p w
    else if isEvt p && decide (0x80 ≤ o ∧ o < 0xC0) && o % 4 == 0 then d.evtEnableWrite p o w else d

/-- EV_FORCE, or FORCE_w of an EVT page. -/
def Dev.evForceRow (func off w t : Nat) (d : Dev) : Dev :=
  d.eventWrite func off t fun p o d =>
    if o = 0x20 then d.evForceWrite p w
    else if isEvt p && decide (0xC0 ≤ o ∧ o < 0x100) && o % 4 == 0 then d.evtForceWrite p o w else d

/-! Reads of the host (R10, R182, R317, R321, R343). -/

/-- A word of BAR0 of PF0 or PF1 is read, through the gateway of its domain: the value, or none while it waits there; 0 where the gateway refuses it. -/
def Dev.gatedWord (func off : Nat) (d : Dev) : Option Nat × Dev :=
  let x := off % 0x2000000
  let gate := if func ≠ 0 ∨ x % 0x1000 < 0x40 ∨ (d.pageRows (x / 0x1000)).isNone then none else pageDomain (x / 0x1000)
  let word (d : Dev) : Option Nat × Dev := if func = 0 then (some (d.readPf0 off).1, (d.readPf0 off).2) else (some (d.readPf1 off).1, (d.readPf1 off).2)
  match gate with
  | none => word d
  | some i =>
    match d.gateway i 0x14C 0 false with
    | (.pass, d1) => word d1
    | (.refused, d1) => (some 0, d1)
    | (.held, d1) => (none, d1)

/-- The value of a request of 4 or 8 bytes, the low word read first (R10). -/
def Dev.gatedRead (func off size : Nat) (d : Dev) : Option Nat × Dev :=
  match d.gatedWord func off with
  | (some lo, d1) =>
    if size = 4 then (some lo, d1)
    else
      match d1.gatedWord func (off + 4) with
      | (some hi, d2) => (some (lo + hi * 2 ^ 32), d2)
      | (none, d2) => (none, d2)
  | other => other

/-- An earlier write of the host to PF0 BAR0 has still to take effect: it waits at a gateway. -/
def Dev.writeHeld (d : Dev) : Bool := d.net.held.any fun h => h.write && !h.tap

/-- A read request of `size` bytes to BAR0 of PF0 or PF1 (R321): of another length or alignment it completes with Completer Abort; behind a write that waits, and at the gateway of a
domain that starts, it waits.  Byte enables do not matter. -/
def Dev.busRead (func off size t : Nat) (d0 : Dev) : Dev :=
  let d1 := d0.toTime t
  if !d1.funcUp func then d1
  else
    let d := d1.count 0xB0 10 1
    if (size ≠ 4 ∧ size ≠ 8) ∨ off % size ≠ 0 then (d.wr R.PCIE.PCIE_STATUS_BAR0_ABORT 1).emit (.readFailed 2)
    else if func = 0 ∧ d.writeHeld then d.emit .wait
    else
      match d.gatedRead func off size with
      | (some x, d2) => d2.emit (.readData (leBytes x size))
      | (none, d2) => d2.emit .wait

/-- A read request to configuration space (R182, R184, R319, R328): Request Retry Status until the device is ready. -/
def Dev.configRead (number : Nat) (reg : CfgReg) (d : Dev) : Dev :=
  if d.mg.inReset then d.emit .retryStatus
  else
    match d.functionAt number with
    | some func => d.emit (.readData (leBytes (d.configReg func reg).2 (d.configReg func reg).1))
    | none => d.emit (.readFailed 1)

/-- MSI-X Enable of a function, where it is there, or the size of BAR2 as a power of two, as configuration space shows them. -/
def Dev.controlRead (func value : Nat) (d : Dev) : Dev :=
  if d.mg.inReset then d.emit .retryStatus
  else if func = 0 ∧ d.mg.bootFailed then d.emit (.readFailed 1)
  else d.emit (.readData (leBytes value 1))

/-- A read of the host (R10), INFLIGHT_PEAK's among them (R343). -/
def Dev.registerRead (s : RegSpace) (size t : Nat) (d : Dev) : Dev :=
  match s with
  | .bar0 func off => d.busRead func off size t
  | .msixEnable func => (d.toTime t).controlRead func (SMap.get d.host.msixEnable func)
  | .bar2Size => (d.toTime t).controlRead 0 d.host.bar2Log
  | .config number reg => (d.toTime t).configRead number reg

/-! The TAP (spec/16 R444). -/

/-- A read through the TAP is done. -/
def Dev.tapDone (v : Nat) (d : Dev) : Dev := { d with dbg := { d.dbg with tapStatus := 0, tapData := v } }

/-- A read of a word of PF0 BAR0 through the TAP, through the gateway of a switched domain; there it waits. -/
def Dev.tapRead (off : Nat) (d : Dev) : Dev :=
  match d.gatedWord 0 off with
  | (some x, d1) => d1.tapDone x
  | (none, d1) => ({ d1 with dbg := { d1.dbg with tapStatus := 1 } }).holdAccess ⟨((pageDomain (off % 0x2000000 / 0x1000)).getD 0), true, off, 0, false⟩

/-- One scan of the DBG_ACCESS register: Capture-DR returns the status and the data of the last read; Update-DR acts on the 60 bits shifted in.  While an access
is busy, and while the registers cannot be reached, an access ends with an error. -/
def Dev.dbgAccess (v : Envelope) (bits t : Nat) (d0 : Dev) : Dev :=
  let d1 := d0.toTime t
  if d1.dbg.tapIr ≠ 0x20 then d1
  else
    let d := d1.emit (.tdo 60 (d1.dbg.tapStatus + d1.dbg.tapData * 2 ^ 26))
    let op := bits % 4
    let off := fieldAt bits 2 24 * 4
    if op = 0 ∨ d.dbg.tapStatus = 1 then d
    else if op = 3 ∨ d.mg.inReset ∨ d.mg.bootFailed then { d with dbg := { d.dbg with tapStatus := 2 } }
    else if op = 1 then d.tapRead off
    else ({ d with dbg := { d.dbg with tapStatus := 0 } }).pf0Write true off (fieldAt bits 26 32) t v

/-! Power-up of a domain (spec/15 R400). -/

/-- A held access is delivered. -/
def Dev.deliverHeld (h : Held) (v : Envelope) (t : Nat) (d : Dev) : Dev :=
  let d1 := { d with net := { d.net with held := d.net.held.erase h } }
  if h.write then d1.pf0Write h.tap h.off h.value t v else d1.tapRead h.off

/-- Domain `i`, in STARTING, reaches ON: its contents as spec/15 R395 and R400 give, then the held accesses in order of arrival, then what waits for the end of an exit
from BIVOUAC. -/
def Dev.domainOn (i : Nat) (v : Envelope) (t : Nat) (d0 : Dev) : Dev :=
  let d := d0.toTime t
  if d.domState i ≠ 1 then d
  else
    let d1 := (d.domainUp i).wrAt R.POWER.DOM_STATUS_HELD 0 i 0
    (forAll (d1.net.held.filter fun h => decide (h.dom = i)) (fun h x => x.deliverHeld h v t) d1).exitDone

end Sys2Proof.Machine
end

