-- ==== Sys2Proof/Machine/State.lean ====
section
/-! DEFINITION. The state of the block: the device, its envelope unit, and the commands that wait. -/

namespace Sys2Proof.Machine

/-- The LK7 with its commands.  `dev` holds every register, store, buffer, counter, mode and pin; `envelope` the unit of spec/09 R254 to R262, which no
command but a boot and the resets before one writes; `pending` the commands in order of arrival. -/
structure State where
  dev : Dev
  envelope : Envelope
  pending : List Instr
  deriving DecidableEq, Repr

/-- Why a command cannot be run. -/
inductive Fault where
  /-- Raised by a command that names a unit the part does not have (spec/00 R7): a Boolean processor, group, queue, engine, port or the like beyond the last one.  Safe: no
  such command exists for the hardware. -/
  | noSuchUnit
  deriving DecidableEq, Repr

/-- Why the model has no answer. -/
inductive Refusal where
  /-- Raised by an arm of `exec` whose row has no meaning in the model.  Safe: nothing follows from it. -/
  | notModelled (mnemonic : String)
  deriving DecidableEq, Repr

/-- What a command answers. -/
abbrev Answer := Host.Outcome State Fault Refusal

/-- DESIGN CHOICE (log 1): the part and board of State.reset, an LK7-8D-10E-S (spec/00 R2) with one DDR5-8000 DIMM of 32 GiB, one rank, on every
channel; serial number and owner hash 0. -/
def Part.shipped : Part :=
  { dies := 8, stepLimit := 1000, rangeC := false, secure := true, serial := 0, ownerHash := 0
    dimms := (List.range 8).map fun c =>
      (2 * c, { kind := 1, gib := 32, ranks := 1, width := 8, speed := 4, bgBits := 3, bankBits := 2, colBits := 6, rowBits := 17 }) }

/-- The machine right after POR (spec/18 R492), with a blank MRAM and serial flash and no command waiting. -/
def State.reset : State := { dev := Dev.fresh Part.shipped, envelope := default, pending := [] }

end Sys2Proof.Machine
end

