-- ==== Sys2Proof/Machine/Act.lean ====
section
/-! DEFINITION. How a command acts on the state: on the device alone, or on the device and its envelope unit.  No command touches the queue. -/

namespace Sys2Proof.Machine

/-- The command acts on the device. -/
def State.onDev (s : State) (f : Dev → Dev) : Answer := .next { s with dev := f s.dev }

/-- The command acts on a unit of the device, where the part has it. -/
def State.onUnit (s : State) (c : Bool) (f : Dev → Dev) : Answer := if c then s.onDev f else .fault .noSuchUnit

/-- The command resets the device, which unloads the envelope unit (spec/09 R254). -/
def State.onFresh (s : State) (f : Dev → Dev) : Answer := .next { s with dev := f s.dev, envelope := default }

/-- The command may reset the device: where it has, the envelope unit is unloaded. -/
def State.onEnvelope (s : State) (f : Dev → Dev) : Answer :=
  let d := f s.dev
  .next { s with dev := d, envelope := if d.mg.inReset then default else s.envelope }

/-- The command is the end of a boot, which loads the envelope unit (spec/07 R182). -/
def State.onBoot (s : State) (f : Dev → Dev × Envelope) : Answer :=
  let x := f s.dev
  .next { s with dev := x.1, envelope := x.2 }

end Sys2Proof.Machine
end

