-- ==== Sys2Proof/Machine/ExecArray.lean ====
section
/-! DEFINITION. Commands of the Boolean processors, their banks and far ports (spec/02, 03, 05). -/

namespace Sys2Proof.Machine

/-- NOP (spec/02 R53): A fetched NOP word writes nothing, leaves the neighbour output unchanged and reads no operand. -/
def execNop (bp : Nat) (s : State) : Answer := s.onUnit (bp < s.dev.bps) fun d => d.bpStep 0 bp

/-- EVAL (spec/02 R53): A BP evaluates its truth table on four operands and writes the result into step entry s. -/
def execEval (bp : Nat) (s : State) : Answer := s.onUnit (bp < s.dev.bps) fun d => d.bpStep 1 bp

/-- EVAL_DRIVE (spec/02 R53): As EVAL, and the BP also drives an out-lane of its G1 for step s. -/
def execEvalDrive (bp : Nat) (s : State) : Answer := s.onUnit (bp < s.dev.bps) fun d => d.bpStep 2 bp

/-- COMMIT (spec/02 R53): The BP writes the shadow of a state entry and sets its written flag. -/
def execCommit (bp : Nat) (s : State) : Answer := s.onUnit (bp < s.dev.bps) fun d => d.bpStep 3 bp

/-- COMMIT_DRIVE (spec/02 R53): The BP commits state entries 0 to 255 and drives an out-lane. -/
def execCommitDrive (bp : Nat) (s : State) : Answer := s.onUnit (bp < s.dev.bps) fun d => d.bpStep 4 bp

/-- MEM_ADDR (spec/02 R53): The result is shifted into the address register of a G2 bank port. -/
def execMemAddr (bp : Nat) (s : State) : Answer := s.onUnit (bp < s.dev.bps) fun d => d.bpStep 5 bp

/-- MEM_WDATA (spec/02 R53): The result is written into one bit of a bank port's write-data register. -/
def execMemWdata (bp : Nat) (s : State) : Answer := s.onUnit (bp < s.dev.bps) fun d => d.bpStep 6 bp

/-- MEM_GO (spec/05 R128): A result of 1 starts a read or write access on a G2 bank port. -/
def execMemGo (bp : Nat) (s : State) : Answer := s.onUnit (bp < s.dev.bps) fun d => d.bpStep 7 bp

/-- FAR_ADDR (spec/05 R144): The result is written into one bit of the G4 far-port address register. -/
def execFarAddr (bp : Nat) (s : State) : Answer := s.onUnit (bp < s.dev.bps) fun d => d.bpStep 8 bp

/-- FAR_DATA (spec/02 R53): The result is written into one bit of the 512-bit far-port write-data register. -/
def execFarData (bp : Nat) (s : State) : Answer := s.onUnit (bp < s.dev.bps) fun d => d.bpStep 9 bp

/-- FAR_GO (spec/05 R146): A result of 1 checks and issues a far request into the pending buffer. -/
def execFarGo (bp : Nat) (s : State) : Answer := s.onUnit (bp < s.dev.bps) fun d => d.bpStep 10 bp

/-- EDGE_OUT (spec/02 R58): The result drives an outbound edge lane. -/
def execEdgeOut (bp : Nat) (s : State) : Answer := s.onUnit (bp < s.dev.bps) fun d => d.bpStep 11 bp

/-- PROBE (spec/02 R53): The result drives a probe lane of the own G4. -/
def execProbe (bp : Nat) (s : State) : Answer := s.onUnit (bp < s.dev.bps) fun d => d.bpStep 12 bp

/-- RESERVED_MODE (spec/02 R46): A word with MODE 0xD to 0xF or reserved bits set raises RESERVED_MODE at its fetch. -/
def execReservedMode (bp : Nat) (s : State) : Answer := s.onUnit (bp < s.dev.bps) fun d => d.bpStep 13 bp

/-- BANK_ARRAY_CYCLE (spec/05 R128): The array cycle after a MEM_GO performs the read or write and later places read data in the register. -/
def execBankArrayCycle (g : Nat) (s : State) : Answer := s.onUnit (g < s.dev.g2s) fun d => d.bankCycle g

/-- FAR_RESPONSE (spec/05 R143): A far response or its DMMU report arrives and is held in the pending buffer of the port. -/
def execFarResponse (g id : Nat) (v : MemView) (s : State) : Answer := s.onUnit (g < s.dev.g4s) fun d => (d.farResponse g id v).wakeDdr 0x14C true

/-- BANK_CTRL_WRITE (spec/05 R140): A BANK_CTRL write sets aspect, join and requested owner, or is dropped. -/
def execBankCtrlWrite (g w t : Nat) (s : State) : Answer := s.onUnit (g < 4096) (Dev.rowWrite (0x1000 + g) 0x40 w t (fun d => d.bankCtrlWrite g w))

/-- FAR_CTRL_WRITE (spec/05 R154): A far-port control or window write is applied while stopped or dropped while running. -/
def execFarCtrlWrite (g off w t : Nat) (s : State) : Answer := s.onUnit (g < 64) (Dev.rowWrite (0x400 + g) off w t (fun d => d.farCtrlWrite g off w))

end Sys2Proof.Machine
end

