-- ==== Sys2Proof/Machine/ExecDdr.lean ====
section
/-! DEFINITION. Commands of the DDR5 channels (spec/13). -/

namespace Sys2Proof.Machine

/-- DDR_CHANNEL_READY (spec/13 R350): A channel completes zero-fill and, when all are done, READY is set. -/
def execDdrChannelReady (c t : Nat) (s : State) : Answer := s.onUnit (c < 8) fun d => d.ddrChannelReady c t

/-- DDR_INIT_FAILED (spec/13 R349): A channel fails a training step and enters FAILED. -/
def execDdrInitFailed (c step slot t : Nat) (s : State) : Answer := s.onUnit (c < 8) fun d => d.ddrInitFailed c step slot t

/-- DDR_RETRAIN (spec/13 R350): DDR_CTRL.RETRAIN reruns initialisation, or is dropped. -/
def execDdrRetrain (w t : Nat) (s : State) : Answer := s.onDev (Dev.rowWrite 0x200 0x40 (w ||| 0x1000) t (fun d => d.ddrRetrain (w ||| 0x1000)))

/-- PATROL_SCRUB_READ (spec/13 R357): The patrol scrubber reads and corrects the next line of a channel. -/
def execPatrolScrubRead (c : Nat) (v : MemView) (t : Nat) (s : State) : Answer := s.onUnit (c < 8) fun d => d.patrolScrub c v t

/-- DDR_REFRESH (spec/13 R358): A channel refreshes a rank as DDR5 requires. -/
def execDdrRefresh (c t : Nat) (s : State) : Answer := s.onUnit (c < 8) fun d => d.ddrRefresh c t

/-- DIMM_TEMP_READ (spec/13 R359): Every 8 ms DIMM temperatures are read, refresh doubled or HOT set. -/
def execDimmTempRead (c temp t : Nat) (s : State) : Answer := s.onUnit (c < 8) fun d => d.dimmTemp c temp t

end Sys2Proof.Machine
end

