-- ==== Sys2Proof/Machine/ExecDebug.lean ====
section
/-! DEFINITION. Commands of debug and the TAP (spec/16). -/

namespace Sys2Proof.Machine

/-- ATTACH (spec/16 R420): DBG_CTRL.ATTACH attaches or detaches the debugger. -/
def execAttach (w t : Nat) (s : State) : Answer := s.onDev (Dev.rowWrite 0x16 0x40 w t (fun d => d.dbgPageWrite 0x40 w t))

/-- WATCH_CTRL_WRITE (spec/16 R430): A watch write enables the unit at the next boundary or is dropped. -/
def execWatchCtrlWrite (w t : Nat) (s : State) : Answer := s.onDev (Dev.rowWrite 0x17 0x40 w t (fun d => d.watchCtrlWrite w t))

/-- BAP_GO (spec/16 R431): BAP_CTRL.GO starts a background access, or is dropped while busy. -/
def execBapGo (w t : Nat) (s : State) : Answer := s.onDev (Dev.rowWrite 0x16 0x100 (w ||| 1) t (fun d => d.bapCtrlWrite (w ||| 1) t))

/-- BAP_DONE (spec/16 R432): A background access takes effect and RESULT is reported. -/
def execBapDone (v : MemView) (t : Nat) (s : State) : Answer := s.onDev fun d => d.bapDone v t

/-- NEW_NONCE (spec/16 R439): A new random unlock nonce is drawn. -/
def execNewNonce (w t : Nat) (s : State) : Answer := s.onDev (Dev.rowWrite 0x16 0x40 (w ||| 4) t (fun d => d.dbgPageWrite 0x40 (w ||| 4) t))

/-- UNLOCK (spec/16 R440): An unlock token is checked and the secure-content erase starts, or is refused. -/
def execUnlock (w t : Nat) (s : State) : Answer := s.onDev (Dev.rowWrite 0x16 0x40 (w ||| 2) t (fun d => d.dbgPageWrite 0x40 (w ||| 2) t))

/-- UNLOCK_ERASE_DONE (spec/16 R440): The secure erase completes and debug is OPEN. -/
def execUnlockEraseDone (v : MemView) (t : Nat) (s : State) : Answer := s.onDev fun d => d.unlockEraseDone v t

/-- EXTEST (spec/16 R443): The TAP drives pads through the envelope, or acts as BYPASS while running. -/
def execExtest (cells levels t : Nat) (s : State) : Answer := s.onDev fun d => d.tapExtest s.envelope cells levels t

/-- SAMPLE_PRELOAD (spec/16 R443): The TAP samples or preloads the boundary-scan register. -/
def execSamplePreload (levels cells t : Nat) (s : State) : Answer := s.onDev fun d => d.tapSample levels cells t

/-- IDCODE (spec/16 R442): The TAP returns the device IDCODE. -/
def execIdcode (t : Nat) (s : State) : Answer := s.onDev fun d => d.tapIdcode t

/-- DBG_ACCESS (spec/16 R444): A TAP Update-DR performs a PF0 BAR0 read or write. -/
def execDbgAccess (bits t : Nat) (s : State) : Answer := s.onEnvelope fun d => d.dbgAccess s.envelope bits t

/-- BYPASS (spec/16 R443): The TAP passes TDI to TDO through one bit. -/
def execBypass (n bits t : Nat) (s : State) : Answer := s.onDev fun d => d.tapBypass n bits t

/-- TEST_LOGIC_RESET (spec/16 R443): The TAP resets and selects IDCODE. -/
def execTestLogicReset (t : Nat) (s : State) : Answer := s.onDev fun d => d.tapReset t

/-- TAP_HOLDS_DBG_ACCESS (spec/16 R420): The TAP loads the DBG_ACCESS instruction, the debugger counts as attached, JTAG_ATTACHED is set, and EV_DEBUG_ATTACH is raised. -/
def execTapHoldsDbgAccess (t : Nat) (s : State) : Answer := s.onDev fun d => d.tapHolds t

end Sys2Proof.Machine
end

