-- ==== Sys2Proof/Machine/ExecEdge.lean ====
section
/-! DEFINITION. Commands of the edge fabric (spec/08). -/

namespace Sys2Proof.Machine

/-- PRESENTATION (spec/08 R228): At a presentation instant the oldest due and ready take is presented on the outbound lanes. -/
def execPresentation (t : Nat) (s : State) : Answer := s.onDev fun d => d.presentation t

/-- STAGED_GLOBAL_RELEASE (spec/08 R231): Host writes EDGE_CTRL.RELEASE and the release sequencer starts, or the release is refused. -/
def execStagedGlobalRelease (w t : Nat) (s : State) : Answer := s.onDev (Dev.rowWrite 0x300 0x40 (w ||| 1) t (fun d => d.edgeCtrlWrite (w ||| 1) t))

/-- RELEASE_STAGE_1 (spec/08 R231): At e0 output enables turn on. -/
def execReleaseStage1 (s : State) : Answer := s.onDev fun d => d.reachStage 1 0

/-- RELEASE_STAGE_2 (spec/08 R231): Eight edge cycles after stage 1 memory and FIFO write enables turn on. -/
def execReleaseStage2 (s : State) : Answer := s.onDev fun d => d.reachStage 2 8

/-- RELEASE_STAGE_3 (spec/08 R231): Sixteen edge cycles after e0 the user reset is released and EV_EDGE_RELEASED raised. -/
def execReleaseStage3 (s : State) : Answer := s.onDev fun d => d.reachStage 3 16

/-- EDGE_CLOCK_CYCLE (spec/08 R218): In each GCT0 cycle long lines take their driver values and user events are raised. -/
def execEdgeClockCycle (rise fall levels t : Nat) (s : State) : Answer := s.onDev fun d => d.edgeClock t rise fall levels

/-- BLOCK_MEMORY_ACCESS (spec/08 R220): A block-memory port with EN = 1 reads and may write at its clock edge. -/
def execBlockMemoryAccess (b : Nat) (s : State) : Answer := s.onUnit (b < 64) fun d => d.blockMemory b

/-- FIFO_WRITE (spec/08 R222): An edge FIFO writes an entry, or drops it with overflow when full. -/
def execFifoWrite (f : Nat) (s : State) : Answer := s.onUnit (f < 32) fun d => d.fifoWrite f

/-- FIFO_POP (spec/08 R222): An edge FIFO pops its head, or records underflow when empty. -/
def execFifoPop (f : Nat) (s : State) : Answer := s.onUnit (f < 32) fun d => d.fifoPop f

/-- EDGE_PLL_LOCK (spec/08 R213): An edge PLL reaches lock and its LOCK bit reads 1. -/
def execEdgePllLock (n : Nat) (s : State) : Answer := s.onUnit (n < 2) fun d => d.pllLock n

/-- PROBE_SEL_WRITE (spec/08 R233): A probe selection takes effect from the third GCT0 edge after the write. -/
def execProbeSelWrite (k w t : Nat) (s : State) : Answer := s.onUnit (k < 32) (Dev.rowWrite 0x300 (0x180 + 4 * k) w t (fun d => d.probeSelWrite k w))

/-- PRESENT_CFG_WRITE (spec/08 R238): A PRESENT_CFG write is taken or dropped with WRITE_REFUSED. -/
def execPresentCfgWrite (w t : Nat) (s : State) : Answer := s.onDev (Dev.rowWrite 0x300 0x48 w t (fun d => d.presentCfgWrite w))

end Sys2Proof.Machine
end

