-- ==== Sys2Proof/Machine/ExecEngines.lean ====
section
/-! DEFINITION. Commands of the queues and service engines (spec/14). -/

namespace Sys2Proof.Machine

/-- SQ_TAIL_WRITE (spec/14 R375): Host submits descriptors by writing SQ_TAIL, or the write is dropped as overrun. -/
def execSqTailWrite (q w t : Nat) (s : State) : Answer := s.onUnit (q < 64) (Dev.rowWrite (0x108 + q) 0x58 w t (fun d => d.sqTailWrite q w))

/-- CQ_HEAD_WRITE (spec/14 R375): Host frees completion entries, or the write is dropped as HEAD_ERROR. -/
def execCqHeadWrite (q w t : Nat) (s : State) : Answer := s.onUnit (q < 64) (Dev.rowWrite (0x108 + q) 0x64 w t (fun d => d.cqHeadWrite q w))

/-- Q_CTRL_WRITE (spec/14 R384): A queue control write enables the pair or is refused. -/
def execQCtrlWrite (q w t : Nat) (s : State) : Answer := s.onUnit (q < 64) (Dev.rowWrite (0x108 + q) 0x40 w t (fun d => d.qCtrlWrite q w))

/-- QUEUE_RESET (spec/14 R383): Q_CTRL.RESET stops fetch and aborts the queue's items. -/
def execQueueReset (q w t : Nat) (s : State) : Answer := s.onUnit (q < 64) (Dev.rowWrite (0x108 + q) 0x40 (w ||| 0x2000) t (fun d => d.qCtrlWrite q (w ||| 0x2000)))

/-- DESCRIPTOR_FETCH (spec/14 R374): The LK7 fetches a descriptor from an SQ into the matching store or a ready queue. -/
def execDescriptorFetch (q : Nat) (v : MemView) (t : Nat) (s : State) : Answer := s.onUnit (q < 64) fun d => d.descriptorFetch q v t

/-- TOKEN_POST (spec/14 R379): Host writes TOKEN_POST to add counts to a token. -/
def execTokenPost (w t : Nat) (s : State) : Answer := s.onDev (Dev.rowWrite 0x104 0x48 w t (fun d => d.tokenPostWrite w))

/-- ITEM_DISPATCH (spec/14 R381): An idle engine or prefetch slot takes the head of the highest ready queue. -/
def execItemDispatch (e t : Nat) (s : State) : Answer := s.onUnit (e < 32) fun d => d.itemDispatch e t

/-- RESTART_POINT (spec/14 R382): A running item reaches 4 KiB or 64 µs and may be pre-empted. -/
def execRestartPoint (e t : Nat) (s : State) : Answer := s.onUnit (e < 32) fun d => d.restartPoint e t

/-- ITEM_COMPLETION (spec/14 R377): An item's writes have landed, the completion entry is written and DONE_TOKEN posted. -/
def execItemCompletion (q : Nat) (v : MemView) (t : Nat) (s : State) : Answer := s.onUnit (q < 64) fun d => d.itemCompletion q v t

/-- COPY (spec/14 R365): The engine copies LENGTH bytes from SRC to DST in ascending order. -/
def execCopy (e n : Nat) (v : MemView) (t : Nat) (s : State) : Answer := s.onUnit (e < 32) fun d => d.copyMove e n v t

/-- FILL (spec/14 R365): The engine fills DST with the 8-byte pattern of ARG. -/
def execFill (e n : Nat) (v : MemView) (t : Nat) (s : State) : Answer := s.onUnit (e < 32) fun d => d.fillMove e n v t

/-- LOAD_FRAMES (spec/14 R368): The engine delivers slate and frames to the loader. -/
def execLoadFrames (e n : Nat) (v : MemView) (t : Nat) (s : State) : Answer := s.onUnit (e < 32) fun d => d.loadMove e n v t

/-- READBACK (spec/14 R365): The engine copies array state to a DVA. -/
def execReadback (e n : Nat) (v : MemView) (t : Nat) (s : State) : Answer := s.onUnit (e < 32) fun d => d.readbackMove e n v t

/-- VERIFY (spec/14 R369): The engine compares array state with memory and ends with MISMATCH on a difference. -/
def execVerify (e n : Nat) (v : MemView) (t : Nat) (s : State) : Answer := s.onUnit (e < 32) fun d => d.verifyMove e n v t

/-- INJECT (spec/14 R370): The engine stages stimulus bits for a named take and belay. -/
def execInject (e : Nat) (v : MemView) (t : Nat) (s : State) : Answer := s.onUnit (e < 32) fun d => d.injectMove e v t

/-- CAPTURE (spec/14 R373): The engine writes inbound edge-lane samples of a run of takes to memory. -/
def execCapture (e : Nat) (v : MemView) (t : Nat) (s : State) : Answer := s.onUnit (e < 32) fun d => d.captureMove e v t

/-- RESTORE (spec/14 R365): The engine writes memory into array state. -/
def execRestore (e n : Nat) (v : MemView) (t : Nat) (s : State) : Answer := s.onUnit (e < 32) fun d => d.restoreMove e n v t

/-- CHECKSUM (spec/14 R365): The engine computes CRC-32C or SHA-384 of SRC. -/
def execChecksum (e n : Nat) (v : MemView) (t : Nat) (s : State) : Answer := s.onUnit (e < 32) fun d => d.checksumMove e n v t

/-- TRACE_DRAIN (spec/17 R459): The engine copies trace ring bytes to DST and advances RD. -/
def execTraceDrain (e n : Nat) (v : MemView) (t : Nat) (s : State) : Answer := s.onUnit (e < 32) fun d => d.drainMove e n v t

/-- ERASE (spec/14 R369): The engine writes zeros to DST and reads the range back. -/
def execErase (e n : Nat) (v : MemView) (t : Nat) (s : State) : Answer := s.onUnit (e < 32) fun d => d.eraseMove e n v t

/-- FENCE (spec/14 R374): A queue barrier holds later descriptors until earlier items complete. -/
def execFence (q t : Nat) (s : State) : Answer := s.onUnit (q < 64) fun d => d.fenceItem q t

/-- TOKEN (spec/14 R365): A TOKEN item posts counts of a token. -/
def execToken (q t : Nat) (s : State) : Answer := s.onUnit (q < 64) fun d => d.tokenItem q t

/-- TIMER (spec/14 R380): A TIMER item enters a delay list sorted by key. -/
def execTimer (q t : Nat) (s : State) : Answer := s.onUnit (q < 64) fun d => d.timerItem q t

/-- TIMER_DUE (spec/14 R380): A delay-list key is reached and the TIMER item completes. -/
def execTimerDue (l t : Nat) (s : State) : Answer := s.onUnit (l < 16) fun d => d.timerDue l t

/-- MAILBOX (spec/18 R471): A MAILBOX item sends a message on mailbox channel 1. -/
def execMailbox (q : Nat) (v : MemView) (t : Nat) (s : State) : Answer := s.onUnit (q < 64) fun d => d.mailboxItem q v t

end Sys2Proof.Machine
end

