-- ==== Sys2Proof/Machine/ExecHost.lean ====
section
/-! DEFINITION. Commands of the host interface and of the register pages (spec/00, 12, 19). -/

namespace Sys2Proof.Machine

/-- REGISTER_WRITE (spec/00 R10): A write to a register with no row of its own sets its fields by type. -/
def execRegisterWrite (place : RegSpace) (size be value t : Nat) (s : State) : Answer := s.onEnvelope fun d => d.registerWrite place size be value t s.envelope

/-- INFLIGHT_PEAK_READ (spec/12 R343): Reading INFLIGHT_PEAK returns and clears the peak. -/
def execInflightPeakRead (place : RegSpace) (size t : Nat) (s : State) : Answer := s.onDev fun d => d.registerRead place size t

/-- BAR2_READ (spec/12 R322): A BAR2 read returns DDR5 data at BAR2_OFFSET plus the offset. -/
def execBar2Read (off n : Nat) (v : MemView) (s : State) : Answer := s.onDev (Dev.whenPf0 (fun d => d.bar2Read off n v))

/-- BAR2_WRITE (spec/12 R322): A BAR2 write stores into DDR5, or is dropped beyond capacity. -/
def execBar2Write (off : Nat) (bs : Bytes) (s : State) : Answer := s.onDev (Dev.whenPf0 (fun d => d.bar2Write off bs))

/-- BAR2_OFFSET_HI_WRITE (spec/12 R322): Writing BAR2_OFFSET_HI commits the new DDR5 offset. -/
def execBar2OffsetHiWrite (w t : Nat) (s : State) : Answer := s.onDev (Dev.rowWrite 0x100 0x4C w t (fun d => d.bar2OffsetHiWrite w))

/-- BAR4_READ (spec/12 R324): A BAR4 read returns array state while stopped, or all ones while running. -/
def execBar4Read (off n : Nat) (s : State) : Answer := s.onDev (Dev.whenPf0 (fun d => d.bar4Read off n))

/-- BAR4_WRITE (spec/12 R325): A BAR4 write replaces or merges array state while stopped, or is refused. -/
def execBar4Write (off : Nat) (bs : Bytes) (s : State) : Answer := s.onDev (Dev.whenPf0 (fun d => d.bar4Write off bs))

/-- GO (spec/12 R333): DMMU.INV_CTRL.GO starts an invalidation, or is dropped while busy. -/
def execGo (w t : Nat) (s : State) : Answer := s.onDev (Dev.rowWrite 0x101 0x40 (w ||| 0x100) t (fun d => d.invCtrlWrite (w ||| 0x100)))

/-- INVALIDATION_DONE (spec/12 R333): An invalidation completes and DONE is set. -/
def execInvalidationDone (s : State) : Answer := s.onDev Dev.invalidationDone

/-- CTX_ROOT_WRITE (spec/12 R334): A context root write is taken or dropped while the root is valid. -/
def execCtxRootWrite (c hi w t : Nat) (s : State) : Answer := s.onUnit (c < 64) (Dev.rowWrite 0x101 (0x100 + 0x20 * c + 4 * hi) w t (fun d => d.ctxRootWrite c hi w))

/-- COMMIT_FENCES (spec/12 R339): FENCE_CTRL.COMMIT starts activating the staged fence set. -/
def execCommitFences (w t : Nat) (s : State) : Answer := s.onDev (Dev.rowWrite 0x102 0x40 (w ||| 4) t (fun d => d.fenceCtrlWrite (w ||| 4)))

/-- FENCE_COMMITTED (spec/12 R339): The new fence set is in effect and COMMITTED reads 1. -/
def execFenceCommitted (s : State) : Answer := s.onDev Dev.fenceCommitted

/-- FENCE_LOCK (spec/12 R341): FENCE_CTRL.LOCK makes fence control and entries read-only. -/
def execFenceLock (w t : Nat) (s : State) : Answer := s.onDev (Dev.rowWrite 0x102 0x40 (w ||| 2) t (fun d => d.fenceCtrlWrite (w ||| 2)))

/-- PAGE_LOCK_WRITE (spec/19 R497): A PAGE_LOCK write opens or closes the page's RWL fields. -/
def execPageLockWrite (func off w t : Nat) (s : State) : Answer := s.onUnit (func < 2) fun d => d.pageLockRow func off w t

/-- EV_ROUTE_WRITE (spec/19 R503): An EV_ROUTE or ROUTE write sets a route entry, or is dropped. -/
def execEvRouteWrite (func off w t : Nat) (s : State) : Answer := s.onUnit (func < 2) fun d => d.evRouteRow func off w t

/-- EV_RAISED_CLEAR (spec/19 R502): A W1C write clears raised event bits, a same-cycle raise winning. -/
def execEvRaisedClear (func off w same t : Nat) (s : State) : Answer := s.onUnit (func < 2) fun d => d.evRaisedRow func off w same t

/-- EV_ENABLE_WRITE (spec/19 R504): Enabling a raised event sends its MSI-X message. -/
def execEvEnableWrite (func off w t : Nat) (s : State) : Answer := s.onUnit (func < 2) fun d => d.evEnableRow func off w t

/-- EV_FORCE_WRITE (spec/19 R507): A write to EV_FORCE raises events as if by their sources. -/
def execEvForceWrite (func off w t : Nat) (s : State) : Answer := s.onUnit (func < 2) fun d => d.evForceRow func off w t

/-- MSIX_VECTOR_UNMASK (spec/12 R327): Host software clears the mask of an MSI-X vector, and the LK7 sends the pending message. -/
def execMsixVectorUnmask (func vector t : Nat) (s : State) : Answer := s.onUnit (func < 2) (Dev.rowFunc func t (fun d => d.msixUnmask func vector))

end Sys2Proof.Machine
end

