-- ==== Sys2Proof/Machine/ExecLink.lean ====
section
/-! DEFINITION. Commands of the KermaLink ports (spec/11). -/

namespace Sys2Proof.Machine

/-- ENABLE (spec/11 R304): KL_CTRL.ENABLE or its clearing starts port training or takes the port DOWN. -/
def execEnable (p w t : Nat) (s : State) : Answer := s.onUnit (p < 8) (Dev.rowWrite (0x209 + p) 0x40 w t (fun d => d.klCtrlWrite p w))

/-- RETRAIN (spec/11 R304): A RETRAIN write puts the port into DETECT and clears V2_FAILED. -/
def execRetrain (p w t : Nat) (s : State) : Answer := s.onUnit (p < 8) (Dev.rowWrite (0x209 + p) 0x40 (w ||| 4) t (fun d => d.klCtrlWrite p (w ||| 4)))

/-- PEER_CLOCK_ACTIVITY (spec/11 R304): In DETECT the peer's forwarded clock is active for 10 µs and the port enters CLOCK_LOCK. -/
def execPeerClockActivity (p t : Nat) (s : State) : Answer := s.onUnit (p < 8) fun d => d.peerClockActivity p t

/-- RECEIVE_PLL_LOCK (spec/11 R304): The receive PLL locks and the port enters BIT_LOCK. -/
def execReceivePllLock (p t : Nat) (s : State) : Answer := s.onUnit (p < 8) fun d => d.receivePllLock p t

/-- BIT_LOCK_DONE (spec/11 R304): Lane training ends with enough lanes locked and the port enters SYMBOL_LOCK. -/
def execBitLockDone (p lanes t : Nat) (s : State) : Answer := s.onUnit (p < 8) fun d => d.bitLockDone p lanes t

/-- SYMBOL_LOCK_DONE (spec/11 R304): Every lane is aligned and deskewed and the port enters EXCHANGE. -/
def execSymbolLockDone (p t : Nat) (s : State) : Answer := s.onUnit (p < 8) fun d => d.symbolLockDone p t

/-- LINK_STATE_TIMEOUT (spec/11 R307): A bring-up state times out, counting a failed attempt or falling back to v1. -/
def execLinkStateTimeout (p t : Nat) (s : State) : Answer := s.onUnit (p < 8) fun d => d.linkStateTimeout p t

/-- EXCHANGE_A (spec/11 R305): An EXCHANGE_A message is checked against the wiring and version. -/
def execExchangeA (p highest selected lanes position peerPort mhz device : Nat) (s : State) : Answer :=
  s.onUnit (p < 8) fun d => d.exchangeA p highest selected lanes position peerPort mhz device

/-- EXCHANGE_B (spec/11 R305): An EXCHANGE_B message is checked for PRODUCTION_ID and SET_SIZE. -/
def execExchangeB (p production size : Nat) (s : State) : Answer := s.onUnit (p < 8) fun d => d.exchangeB p production size

/-- EXCHANGE_C (spec/11 R301): An EXCHANGE_C message records the peer serial number. -/
def execExchangeC (p serial : Nat) (s : State) : Answer := s.onUnit (p < 8) fun d => d.exchangeC p serial

/-- LINK_FRAME_SEND (spec/11 R298): In every frame period the port sends a frame and enters it into the replay buffer. -/
def execLinkFrameSend (p t : Nat) (s : State) : Answer := s.onUnit (p < 8) fun d => d.linkFrameSend p t

/-- LINK_FRAME_RECEIVE (spec/11 R310): A received frame is accepted or discarded and its acknowledgement processed. -/
def execLinkFrameReceive (p : Nat) (lanes : List (List Nat)) (t : Nat) (s : State) : Answer := s.onUnit (p < 8) fun d => (d.linkFrameReceive p lanes t).heldStart

/-- REPLAY_TIMEOUT (spec/11 R310): No acknowledgement for REPLAY_TIMEOUT_NS starts a replay. -/
def execReplayTimeout (p t : Nat) (s : State) : Answer := s.onUnit (p < 8) fun d => d.replayTimeout p t

/-- LINK_LOS (spec/11 R309): Loss of signal on a data lane sends the port to BIT_LOCK without the lane. -/
def execLinkLos (p lane t : Nat) (s : State) : Answer := s.onUnit (p < 8) fun d => d.linkLos p lane t

/-- LINK_LOL (spec/11 R309): Loss of lock on a lane or forwarded clock sends the port back to BIT_LOCK or CLOCK_LOCK. -/
def execLinkLol (p lane t : Nat) (s : State) : Answer := s.onUnit (p < 8) fun d => d.linkLol p lane t

/-- ANNOUNCE (spec/10 R271): An ANNOUNCE message advertises eligibility and is relayed. -/
def execAnnounce (p eligible priority origin hops : Nat) (s : State) : Answer := s.onUnit (p < 8) fun d => d.recvAnnounce p eligible priority origin hops

/-- SYNC (spec/10 R272): A SYNC message carries the master's ADDEND and starts a time measurement. -/
def execSync (p addend t : Nat) (s : State) : Answer := s.onUnit (p < 8) fun d => d.recvSync p addend t

/-- FOLLOW_UP (spec/11 R302): A FOLLOW_UP message carries t1 or voids the measurement. -/
def execFollowUp (p t1 void : Nat) (s : State) : Answer := s.onUnit (p < 8) fun d => d.recvFollowUp p t1 void

/-- DELAY_REQ (spec/10 R272): A DELAY_REQ message is stamped and answered. -/
def execDelayReq (p again t : Nat) (s : State) : Answer := s.onUnit (p < 8) fun d => d.recvDelayReq p again t

/-- DELAY_RESP (spec/10 R272): A DELAY_RESP message completes t1 to t4 and the follower computes its offset. -/
def execDelayResp (p t4 void : Nat) (s : State) : Answer := s.onUnit (p < 8) fun d => d.recvDelayResp p t4 void

/-- TICK (spec/10 R282): A TICK message makes a KERMALINK time base issue a tick with the master's stamp. -/
def execTick (p n stamp pos : Nat) (s : State) : Answer := s.onUnit (decide (p < 8) && decide (n < 4)) fun d => d.recvTick p n stamp pos

/-- READY (spec/04 R118): A READY message is relayed toward or collected by the belay master. -/
def execReady (p belay take origin : Nat) (s : State) : Answer := s.onUnit (p < 8) fun d => d.recvReady p belay take origin

/-- RELEASE (spec/04 R118): A RELEASE message names the global release instant and deadline response. -/
def execRelease (p belay instant resp take : Nat) (s : State) : Answer := s.onUnit (p < 8) fun d => d.recvRelease p belay instant resp take

/-- STOP (spec/04 R121): A STOP message makes a device stop at its next belay, or is a halt request with code 0. -/
def execStop (p origin take code : Nat) (s : State) : Answer := s.onUnit (p < 8) fun d => d.recvStop p origin take code

/-- START_CHECK (spec/11 R303): A START_CHECK message compares schedule digest and step clock with the peer. -/
def execStartCheck (p digest mhz : Nat) (s : State) : Answer := s.onUnit (p < 8) fun d => (d.recvStartCheck p digest mhz).heldStart

/-- LOWRATE_REQ (spec/11 R314): A LOWRATE_REQ message asks the peer to move the port to LOWRATE. -/
def execLowrateReq (p : Nat) (s : State) : Answer := s.onUnit (p < 8) fun d => d.recvLowrateReq p

/-- LOWRATE_ACK (spec/11 R314): A LOWRATE_ACK message lets both sides retrain at 1.25 Gb/s. -/
def execLowrateAck (p : Nat) (s : State) : Answer := s.onUnit (p < 8) fun d => d.recvLowrateAck p

/-- FULLRATE_REQ (spec/11 R314): A FULLRATE_REQ message returns the port to full-rate training. -/
def execFullrateReq (p : Nat) (s : State) : Answer := s.onUnit (p < 8) fun d => d.recvFullrateReq p

/-- TX_EQ_WRITE (spec/11 R315): A TX_EQ write is taken for the next CLOCK_LOCK or dropped while running. -/
def execTxEqWrite (p w t : Nat) (s : State) : Answer := s.onUnit (p < 8) (Dev.rowWrite (0x209 + p) 0x48 w t (fun d => d.txEqWrite p w))

end Sys2Proof.Machine
end

