-- ==== Sys2Proof/Machine/ExecLoad.lean ====
section
/-! DEFINITION. Commands of the loader (spec/07). -/

namespace Sys2Proof.Machine

/-- SLATE (spec/07 R187): A slate is checked in order and, for a full load, the acceptance steps of R196 open the load. -/
def execSlate (bs : Bytes) (v : MemView) (t : Nat) (s : State) : Answer := s.onDev fun d => d.slateArrives bs v t

/-- INSTR (spec/07 R190): An INSTR frame writes up to 256 instruction words of one column with fresh check bits. -/
def execInstrFrame (bs : Bytes) (v : MemView) (t : Nat) (s : State) : Answer := s.onDev fun d => d.frameArrives 1 bs v t

/-- STATE (spec/07 R190): A STATE frame writes the state entries of one G2. -/
def execStateFrame (bs : Bytes) (v : MemView) (t : Nat) (s : State) : Answer := s.onDev fun d => d.frameArrives 2 bs v t

/-- BANK (spec/05 R141): A BANK frame sets a bank's configuration or one 4 KiB chunk of its contents. -/
def execBankFrame (bs : Bytes) (v : MemView) (t : Nat) (s : State) : Answer := s.onDev fun d => d.frameArrives 3 bs v t

/-- LANE (spec/03 R73): A LANE frame loads the selection table of one segment or half of a mirror map. -/
def execLaneFrame (bs : Bytes) (v : MemView) (t : Nat) (s : State) : Answer := s.onDev fun d => d.frameArrives 4 bs v t

/-- PITCH (spec/07 R190): A PITCH frame loads the injection target list of one belay. -/
def execPitchFrame (bs : Bytes) (v : MemView) (t : Nat) (s : State) : Answer := s.onDev fun d => d.frameArrives 5 bs v t

/-- EDGE (spec/08 R235): An EDGE frame loads ELB, routing, memory, clock, FIFO, user-event or lane-map configuration. -/
def execEdgeFrame (bs : Bytes) (v : MemView) (t : Nat) (s : State) : Answer := s.onDev fun d => d.frameArrives 6 bs v t

/-- PIN (spec/07 R192): A PIN frame loads the configuration words of one bank, skipping locked pins. -/
def execPinFrame (bs : Bytes) (v : MemView) (t : Nat) (s : State) : Answer := s.onDev fun d => d.frameArrives 7 bs v t

/-- TIMEBASE (spec/10 R288): A TIMEBASE frame loads a time base's source block or comparator list. -/
def execTimebaseFrame (bs : Bytes) (v : MemView) (t : Nat) (s : State) : Answer := s.onDev fun d => d.frameArrives 8 bs v t

/-- END (spec/07 R198): Host writes LOAD_CTRL.END and an OPEN load becomes INCOMPLETE. -/
def execLoadEnd (t : Nat) (s : State) : Answer := s.onDev (Dev.rowWrite 0x14 0x40 1 t (fun d => d.loadEnd t))

/-- REGION_RELEASE (spec/07 R206): Host releases a reloaded edge region, which runs the staged release alone. -/
def execRegionRelease (t : Nat) (s : State) : Answer := s.onDev (Dev.rowWrite 0x14 0x40 2 t (fun d => d.regionReleaseWrite t))

/-- STATE_ACK (spec/07 R200): Host acknowledges cleared state entries and STATE_CLEARED is cleared. -/
def execStateAck (t : Nat) (s : State) : Answer := s.onDev (Dev.rowWrite 0x14 0x40 4 t Dev.stateAck)

/-- PRODUCTION_ID_WRITE (spec/07 R207): A write of LOAD.PRODUCTION_ID is taken or dropped while a load is OPEN. -/
def execProductionIdWrite (hi w t : Nat) (s : State) : Answer := s.onDev (Dev.rowWrite 0x14 (0x50 + 4 * hi) w t (fun d => d.productionIdWrite hi w))

end Sys2Proof.Machine
end

