-- ==== Sys2Proof/Machine/ExecMgmt.lean ====
section
/-! DEFINITION. Commands of the management controller (spec/18). -/

namespace Sys2Proof.Machine

/-- MGMT_WATCHDOG (spec/18 R470): The firmware watchdog expires, resetting the controller and entering safe state. -/
def execMgmtWatchdog (t : Nat) (s : State) : Answer := s.onDev fun d => d.mgmtWatchdog t

/-- MGMT_RESTART (spec/18 R470): The restarted firmware runs again and EV_MGMT_RESTART is raised. -/
def execMgmtRestart (t : Nat) (s : State) : Answer := s.onDev fun d => d.mgmtRestart t

/-- DOORBELL (spec/18 R471): Host rings the channel 0 doorbell to send a mailbox message. -/
def execDoorbell (t : Nat) (s : State) : Answer := s.onDev (Dev.rowWrite mboxPage 0x40 1 t (fun d => d.doorbell t))

/-- MBOX_REPLY (spec/18 R471): The firmware places a reply and REPLY_READY is set. -/
def execMboxReply (v : MemView) (t : Nat) (s : State) : Answer := s.onDev fun d => d.mboxReply v t

/-- GET_INFO (spec/18 R472): The firmware returns version, SVN, boot source, serial and owner-key hash. -/
def execGetInfo (t : Nat) (s : State) : Answer := s.onDev fun d => d.getInfo t

/-- LOG_READ (spec/18 R472): The firmware returns MRAM log slots. -/
def execLogRead (t : Nat) (s : State) : Answer := s.onDev fun d => d.logRead t

/-- COUNTER_READ (spec/18 R472): The firmware returns a monotonic counter. -/
def execCounterRead (t : Nat) (s : State) : Answer := s.onDev fun d => d.counterRead t

/-- COUNTER_RAISE (spec/18 R474): A monotonic counter is raised, or the value is refused. -/
def execCounterRaise (t : Nat) (s : State) : Answer := s.onDev fun d => d.counterRaise t

/-- UPDATE_BEGIN (spec/18 R473): The update area is erased for a new image or settings block. -/
def execUpdateBegin (err : Bool) (t : Nat) (s : State) : Answer := s.onDev fun d => d.updateBegin err t

/-- UPDATE_DATA (spec/18 R473): Bytes are written into the update area. -/
def execUpdateData (err : Bool) (t : Nat) (s : State) : Answer := s.onDev fun d => d.updateData err t

/-- UPDATE_COMMIT (spec/18 R473): The update is verified and written into its slot or copy. -/
def execUpdateCommit (err : Bool) (t : Nat) (s : State) : Answer := s.onDev fun d => d.updateCommit err t

/-- SENSOR_READ (spec/18 R472): The firmware returns temperatures and rail readings. -/
def execSensorRead (t : Nat) (s : State) : Answer := s.onDev fun d => d.sensorRead t

/-- I2C_XFER (spec/18 R476): The firmware performs a board I²C transfer. -/
def execI2cXfer (ack : Bool) (data : Bytes) (t : Nat) (s : State) : Answer := s.onDev fun d => d.i2cXfer ack data t

end Sys2Proof.Machine
end

