-- ==== Sys2Proof/Machine/ExecNoc.lean ====
section
/-! DEFINITION. Commands of the network and of power (spec/15). -/

namespace Sys2Proof.Machine

/-- NOC_PACKET_ARRIVAL (spec/15 R389): A NoC packet arrives at a router, gateway or endpoint and is routed, held or refused. -/
def execNocPacketArrival (node input header err t : Nat) (s : State) : Answer := s.onUnit (s.dev.nodeExists node) fun d => d.packetArrival node input header err t

/-- RSP_TIMEOUT (spec/15 R393): A request without response for RSP_TIMEOUT_US completes as a timeout. -/
def execRspTimeout (kind id t : Nat) (s : State) : Answer := s.onDev fun d => d.rspTimeout kind id t

/-- CHECK_MODE_WRITE (spec/15 R394): A CHECK_MODE write starts draining routers one by one, or is dropped. -/
def execCheckModeWrite (w t : Nat) (s : State) : Answer := s.onDev (Dev.rowWrite 0x103 0x40 w t (fun d => d.checkModeWrite w))

/-- ROUTER_DRAINED (spec/15 R394): A draining router is empty, applies its configuration and resumes. -/
def execRouterDrained (t : Nat) (s : State) : Answer := s.onDev fun d => d.routerDrained t

/-- DOM_CTRL_WRITE (spec/15 R397): A REQ write asks a domain on or off, or the request is refused. -/
def execDomCtrlWrite (dom w t : Nat) (s : State) : Answer := s.onUnit (dom < 113) (Dev.rowWrite 0xC (0x100 + 8 * dom) w t (fun d => d.domCtrlWrite dom w))

/-- POINT_OF_NO_RETURN (spec/15 R398): Isolation is asserted and the gateway stops passing packets. -/
def execPointOfNoReturn (dom t : Nat) (s : State) : Answer := s.onUnit (s.dev.domainExists dom) fun d => d.pointOfNoReturn dom t

/-- DOMAIN_OFF (spec/15 R398): A domain's power switches open and STATE becomes OFF. -/
def execDomainOff (dom t : Nat) (s : State) : Answer := s.onUnit (s.dev.domainExists dom) fun d => d.domainOff dom t

/-- DOMAIN_ON (spec/15 R400): A starting domain reaches ON after clearing and relock, delivering held packets. -/
def execDomainOn (dom t : Nat) (s : State) : Answer := if s.dev.domainExists dom then s.onEnvelope (fun d => d.domainOn dom s.envelope t) else .fault .noSuchUnit

/-- TARGET_WRITE (spec/15 R402): PWR_CTRL.TARGET requests RUN, PARK or BIVOUAC. -/
def execTargetWrite (w t : Nat) (s : State) : Answer := s.onDev (Dev.rowWrite 0xC 0x40 w t (fun d => d.targetWrite w))

/-- BIVOUAC_ENTRY (spec/15 R404): After the array halts and peers answer, domains go off and DDR5 self-refreshes. -/
def execBivouacEntry (t : Nat) (s : State) : Answer := s.onDev fun d => d.bivouacEntry t

/-- PCIE_D_STATE_CHANGE (spec/15 R402): A PF0 transition to D3hot or D0 writes TARGET. -/
def execPcieDStateChange (state : Nat) (s : State) : Answer := s.onDev (Dev.whenPf0 (fun d => d.dStateChange state))

/-- LIMITER_SAMPLE (spec/15 R406): Every 1 µs the limiter measures power and scales engines. -/
def execLimiterSample (power t : Nat) (s : State) : Answer := s.onDev fun d => d.limiterSample power t

end Sys2Proof.Machine
end

