-- ==== Sys2Proof/Machine/ExecPins.lean ====
section
/-! DEFINITION. Commands of the pins and the output envelope (spec/09). -/

namespace Sys2Proof.Machine

/-- PIN_CFG_HI_WRITE (spec/09 R245): Writing PIN_CFG_k_HI commits a pin word at the change edge, or is dropped. -/
def execPinCfgHiWrite (b k hi t : Nat) (s : State) : Answer :=
  s.onUnit (decide (b < 10) && decide (k < 32)) (Dev.rowWrite (0x301 + b) (0x104 + 8 * k) hi t (fun d => ((d.endArming b).pinCfgHiWrite b k hi t).watchTbPins))

/-- KEEPER_WINDOW_END (spec/09 R245): 20 ns after a function change the new function drives the pad. -/
def execKeeperWindowEnd (p ext t : Nat) (s : State) : Answer := s.onUnit (p < 320) fun d => (d.windowEnd s.envelope p ext t).watchTbPins

/-- LOCKKEY (spec/09 R248): A write to LOCKKEY opens, advances or fails the pin lock sequence. -/
def execLockKey (b w t : Nat) (s : State) : Answer := s.onUnit (b < 10) (Dev.rowWrite (0x301 + b) 0x44 w t (fun d => d.lockKeyWrite b w t))

/-- LOCK (spec/09 R248): A LOCK write while armed locks the masked pins, otherwise it is dropped. -/
def execLock (b w t : Nat) (s : State) : Answer := s.onUnit (b < 10) (Dev.rowWrite (0x301 + b) 0x48 w t (fun d => d.lockWrite b w t))

/-- LOCK_SEQ_TIMEOUT (spec/09 R248): 64 aux cycles pass without the second key or a LOCK write and the sequence is dropped. -/
def execLockSeqTimeout (b t : Nat) (s : State) : Answer := s.onUnit (b < 10) fun d => d.lockTimeout b t

/-- MATCH_CTRL_WRITE (spec/09 R251): A matcher write is taken while disabled, or enables it with the filtered match preset. -/
def execMatchCtrlWrite (m w t : Nat) (s : State) : Answer := s.onUnit (m < 16) (Dev.rowWrite (0x310 + m) 0x40 w t (fun d => d.matchCtrlWrite m w))

/-- PIN_MATCH (spec/09 R251): A matcher's debounced match changes or holds and EV_PIN_MATCH_m is raised by MODE. -/
def execPinMatch (m levels cycles t : Nat) (s : State) : Answer := s.onUnit (m < 16) fun d => (d.pinMatch m levels cycles t).watchTbPins

/-- PIN_LEVEL_REQUEST (spec/09 R258): A pin's requested level changes and the envelope decides the permitted pad level. -/
def execPinLevelRequest (p ext t : Nat) (s : State) : Answer := s.onUnit (p < 320) fun d => (d.pinRequest s.envelope p ext t).watchTbPins

/-- MIN_PULSE_ELAPSED (spec/09 R259): A delayed level change reaches the pad once MIN_PULSE has elapsed. -/
def execMinPulseElapsed (p ext t : Nat) (s : State) : Answer := s.onUnit (p < 320) fun d => (d.minPulseElapsed s.envelope p ext t).watchTbPins

/-- RATE_WINDOW_END (spec/09 R260): A rate window ends and a held pin takes its requested level. -/
def execRateWindowEnd (p ext t : Nat) (s : State) : Answer := s.onUnit (p < 320) fun d => (d.rateWindowEnd s.envelope p ext t).watchTbPins

/-- OUTPUT_READBACK (spec/09 R261): A pad mismatch lasting 100 ns plus the filter raises OUTPUT_READBACK. -/
def execOutputReadback (p level since t : Nat) (s : State) : Answer := s.onUnit (p < 320) fun d => (d.outputReadback s.envelope p level since t).watchTbPins

end Sys2Proof.Machine
end

