-- ==== Sys2Proof/Machine/ExecReset.lean ====
section
/-! DEFINITION. Resets and the boot (spec/07, 18). -/

namespace Sys2Proof.Machine

/-- POR (spec/18 R492): VDD_AUX applied or restored resets everything and starts power sequencing. -/
def execPor (s : State) : Answer := s.onFresh Dev.por

/-- DEVICE_RESET (spec/18 R492): PERST_N, Hot Reset or link-down resets the device and reboots from flash. -/
def execDeviceReset (cause t : Nat) (s : State) : Answer := s.onFresh fun d => d.externalReset cause t

/-- RESET_CTRL_DEVICE (spec/18 R492): A keyed RESET_CTRL.DEVICE write takes the link down 1 ms later. -/
def execResetCtrlDevice (w t : Nat) (s : State) : Answer := s.onEnvelope fun d => d.rowWrite 8 0x40 (w ||| 4) t (fun d => d.resetCtrlWrite (w ||| 4) t)

/-- ARRAY_RESET (spec/02 R41): RESET_CTRL.ARRAY clears array state and returns the array to take 0. -/
def execArrayReset (t : Nat) (s : State) : Answer := s.onDev (Dev.rowWrite 8 0x40 1 t (fun d => d.arrayReset t))

/-- EDGE_RESET (spec/18 R492): RESET_CTRL.EDGE restores base edge configuration, or is refused while running. -/
def execEdgeReset (t : Nat) (s : State) : Answer := s.onDev (Dev.rowWrite 8 0x40 2 t (fun d => d.edgeReset t))

/-- FLR_PF0 (spec/18 R492): An FLR of PF0 stops the array and clears DMMU, fences, queues, tokens and trace. -/
def execFlrPf0 (t : Nat) (s : State) : Answer := s.onDev (Dev.whenPf0 (fun d => d.flrPf0 t))

/-- FLR_PF1 (spec/12 R328): An FLR of PF1 clears PF1 configuration and mailbox messages in progress. -/
def execFlrPf1 (t : Nat) (s : State) : Answer := s.onDev (Dev.whenBooted (fun d => d.flrPf1 t))

/-- BOOT (spec/07 R182): The management controller reads settings and images, verifies, applies base configuration and becomes ready. -/
def execBoot (errors runs : Nat) (mv : List Nat) (t0 t : Nat) (s : State) : Answer := s.onBoot fun d => d.boot errors runs mv t0 t s.envelope

end Sys2Proof.Machine
end

