-- ==== Sys2Proof/Machine/ExecSafety.lean ====
section
/-! DEFINITION. Commands of safety, the monitors and the clocks (spec/18). -/

namespace Sys2Proof.Machine

/-- CLEAR (spec/18 R485): SAFE_CTRL.CLEAR ends safe state, or is refused with CLEAR_REASON. -/
def execClear (outside : Bool) (t : Nat) (s : State) : Answer := s.onDev (Dev.rowWrite 0xA 0x40 1 t (fun d => d.clearWrite s.envelope outside t))

/-- TEST (spec/18 R480): SAFE_CTRL.TEST enters safe state with cause 0. -/
def execTest (t : Nat) (s : State) : Answer := s.onDev (Dev.rowWrite 0xA 0x40 2 t (fun d => d.testWrite t))

/-- ESTOP_INPUT (spec/18 R483): ESTOP_N qualified low enters safe state within 1 µs. -/
def execEstopInput (t : Nat) (s : State) : Answer := s.onDev fun d => d.estopInput t

/-- ESTOP_DEASSERT (spec/18 R483): ESTOP_N qualified high clears ESTOP_NOW without ending safe state. -/
def execEstopDeassert (t : Nat) (s : State) : Answer := s.onDev fun d => d.estopDeassert t

/-- INSTRUCTION_STORE_SCRUB (spec/18 R486): The scrubber reads the next word of each column and corrects or reports it. -/
def execInstructionStoreScrub (t : Nat) (s : State) : Answer := s.onDev fun d => d.storeScrub t

/-- EDGE_SCRUB (spec/18 R487): The edge scrubber reads configuration and envelope tables and corrects or reports them. -/
def execEdgeScrub (corrected : Nat) (bad : List (Bool × Nat)) (t : Nat) (s : State) : Answer := s.onDev fun d => d.edgeScrub corrected bad t

/-- VOLTAGE_MONITOR (spec/18 R488): A rail outside its window for 2 µs raises VOLTAGE_MONITOR. -/
def execVoltageMonitor (r bank mv t : Nat) (s : State) : Answer :=
  if r = 6 ∧ mv < 1550 then s.onFresh Dev.por else s.onUnit (decide (r < 8) && decide (bank < 10)) fun d => d.voltageMonitor r bank mv t

/-- THERMAL_SAMPLE (spec/18 R489): Every 20 µs each sensor is sampled for warning and limit. -/
def execThermalSample (readings : List Nat) (t : Nat) (s : State) : Answer := s.onDev fun d => d.thermalSample readings t

/-- CLOCK_MONITOR (spec/18 R490): A clock lost or out of frequency raises CLOCK_MONITOR. -/
def execClockMonitor (code kind t : Nat) (s : State) : Answer := s.onUnit (code < 8) fun d => d.clockMonitor code kind t

/-- STEP_MHZ_WRITE (spec/18 R491): A step-clock write relocks the step PLL, or is dropped. -/
def execStepMhzWrite (w t : Nat) (s : State) : Answer := s.onDev (Dev.rowWrite 9 0x40 w t (fun d => d.stepMhzWrite w))

/-- STEP_PLL_LOCK (spec/18 R491): The step PLL relocks and STEP_LOCKED reads 1. -/
def execStepPllLock (t : Nat) (s : State) : Answer := s.onDev fun d => d.stepPllLock t

/-- RAIL_ENTERS_WINDOW (spec/18 R488): A supply rail first enters its monitor window, its voltage monitor is armed, and the power sequencer starts its 1 ms count toward opening the domain switches. -/
def execRailEntersWindow (r bank mv t : Nat) (s : State) : Answer := s.onUnit (decide (r < 8) && decide (bank < 10)) fun d => d.railEnters r bank mv t

end Sys2Proof.Machine
end

