-- ==== Sys2Proof/Machine/ExecTakes.lean ====
section
/-! DEFINITION. Commands of takes, belays and the run state (spec/04, 06, 16). -/

namespace Sys2Proof.Machine

/-- BELAY_ENTRY (spec/04 R105): After the last step of a pitch the step counter freezes and the belay starts evaluating its conditions. -/
def execBelayEntry (s : State) : Answer := s.onDev Dev.belayEntry

/-- BELAY_CONDITIONS_MET (spec/04 R104): All wait conditions are met and holds ended, and a linked device sends READY or STOP. -/
def execBelayConditionsMet (t : Nat) (s : State) : Answer := s.onDev fun d => d.conditionsMet t

/-- BELAY_RELEASE (spec/04 R105): Cycle k of a belay: first-take and time-base flags latch, then far delivery, link commit, mirror update and injection follow. -/
def execBelayRelease (t : Nat) (s : State) : Answer := s.onDev fun d => d.belayRelease t

/-- BELAY_TIMEOUT (spec/04 R116): The belay timer reaches TIMEOUT while a wait condition is unmet and the array fault-stops. -/
def execBelayTimeout (t : Nat) (s : State) : Answer := s.onDev fun d => d.belayTimeout t

/-- TICK_EDGE (spec/04 R109): The tick edge of a tick is reached and belay 0 in locked mode may end. -/
def execTickEdge (t : Nat) (s : State) : Answer := s.onDev fun d => d.tickEdge t

/-- START (spec/16 R410): Host writes RUN_CTRL.START and the array leaves belay 0 of its resting take, or the start is refused. -/
def execStart (w t : Nat) (s : State) : Answer := s.onDev (Dev.rowWrite 0x15 0x40 (w ||| 1) t (fun d => d.runCtrlWrite (w ||| 1) t))

/-- HALT (spec/16 R412): Host writes RUN_CTRL.HALT to request a hard halt. -/
def execHalt (w t : Nat) (s : State) : Answer := s.onDev (Dev.rowWrite 0x15 0x40 (w ||| 2) t (fun d => d.runCtrlWrite (w ||| 2) t))

/-- TAKE_WATCHDOG (spec/16 R419): The take watchdog count expires, raising TAKE_WATCHDOG and entering safe state. -/
def execTakeWatchdog (t : Nat) (s : State) : Answer := s.onDev fun d => d.takeWatchdog t

/-- WDOG_PERIOD_US_WRITE (spec/16 R419): A write of the watchdog period is dropped while the array runs. -/
def execWdogPeriodUsWrite (w t : Nat) (s : State) : Answer := s.onDev (Dev.rowWrite 0x15 0x48 w t (fun d => d.wdogWrite w))

/-- TAKE_CTRL_WRITE (spec/04 R125): A write to TAKE_CTRL is applied while stopped or dropped with WRITE_REFUSED while running. -/
def execTakeCtrlWrite (w t : Nat) (s : State) : Answer := s.onDev (Dev.rowWrite 0x12 0x40 w t (fun d => d.takeCtrlWrite w))

/-- INJECT_THROUGH_WRITE (spec/14 R371): Writing INJECT_THROUGH_HI commits the value and records each SQ tail. -/
def execInjectThroughWrite (w t : Nat) (s : State) : Answer := s.onDev (Dev.rowWrite 0x12 0x54 w t (fun d => d.injectThroughWrite w))

/-- CHECK_CTRL_WRITE (spec/06 R171): A write enabling check mode is taken while stopped and dropped while running. -/
def execCheckCtrlWrite (w t : Nat) (s : State) : Answer := s.onDev (Dev.rowWrite 0x13 0x40 w t (fun d => d.checkCtrlWrite w))

end Sys2Proof.Machine
end

