-- ==== Sys2Proof/Machine/ExecTime.lean ====
section
/-! DEFINITION. Commands of device time and the time bases (spec/10). -/

namespace Sys2Proof.Machine

/-- TIME_WRAP (spec/10 R268): The nanosecond count wraps, WRAPS increments and a WRAP packet is written. -/
def execTimeWrap (t : Nat) (s : State) : Answer := s.onDev fun d => d.timeWrap t

/-- ADDEND_WRITE (spec/10 R273): Writing ADDEND_HI commits the addend, or is dropped. -/
def execAddendWrite (hi t : Nat) (s : State) : Answer := s.onDev (Dev.rowWrite 0xD 0x58 hi t (fun d => d.addendWrite hi))

/-- JUMP_ACCEPT (spec/10 R275): Device time steps by the latest measured offset and discipline resumes. -/
def execJumpAccept (w t : Nat) (s : State) : Answer := s.onDev (Dev.rowWrite 0xD 0x40 (w ||| 0x400) t (fun d => d.timeCtrlWrite (w ||| 0x400)))

/-- JUMP_REJECT (spec/10 R275): The refused offset is discarded and the device enters holdover. -/
def execJumpReject (w t : Nat) (s : State) : Answer := s.onDev (Dev.rowWrite 0xD 0x40 (w ||| 0x800) t (fun d => d.timeCtrlWrite (w ||| 0x800)))

/-- RESUME (spec/10 R275): The device leaves holdover and discipline restarts. -/
def execResume (w t : Nat) (s : State) : Answer := s.onDev (Dev.rowWrite 0xD 0x40 (w ||| 0x1000) t (fun d => d.timeCtrlWrite (w ||| 0x1000)))

/-- SYNC_INTERVAL (spec/10 R272): Every 2^SYNC_LOG2 µs the master sends SYNC on every ACTIVE port. -/
def execSyncInterval (t : Nat) (s : State) : Answer := s.onDev fun d => d.syncInterval t

/-- PTM_EXCHANGE (spec/10 R273): At each PTM interval the PTM requester runs and device time is disciplined. -/
def execPtmExchange (m t : Nat) (s : State) : Answer := s.onDev fun d => d.ptmExchange m t

/-- SYNC_LOSS (spec/10 R271): A follower receives no SYNC for four sync intervals and the election repeats. -/
def execSyncLoss (t : Nat) (s : State) : Answer := s.onDev fun d => d.syncLoss t

/-- DIVIDER_COUNT (spec/10 R276): A DIVIDER time base counts every DIV reference edges. -/
def execDividerCount (n t : Nat) (s : State) : Answer := s.onUnit (n < 4) fun d => d.dividerCount n t

/-- PERIODIC_INSTANT (spec/10 R277): A PERIODIC time base reaches START + k × PERIOD. -/
def execPeriodicInstant (n t : Nat) (s : State) : Answer := s.onUnit (n < 4) fun d => d.periodicInstant n t

/-- TRIGGER_EDGE (spec/10 R276): A qualified edge of a chassis line counts for a TRIGGER time base. -/
def execTriggerEdge (line level since t : Nat) (s : State) : Answer := s.onUnit (line < 16) fun d => d.triggerEdge line level since t

/-- ZERO_CROSS_EDGE (spec/10 R276): A qualified zero-cross edge counts for a ZERO_CROSS time base. -/
def execZeroCrossEdge (n level since t : Nat) (s : State) : Answer := s.onUnit (n < 4) fun d => d.inputEdge 4 n level since t

/-- LINE_SYNC_EDGE (spec/10 R276): A qualified line-sync edge counts for a LINE_SYNC time base. -/
def execLineSyncEdge (n level since t : Nat) (s : State) : Answer := s.onUnit (n < 4) fun d => d.inputEdge 5 n level since t

/-- ENCODER_COUNT (spec/10 R278): A qualified A/B change counts up or down, or is an illegal transition. -/
def execEncoderCount (n a b since t : Nat) (s : State) : Answer := s.onUnit (n < 4) fun d => d.encoderCount n a b since t

/-- INDEX (spec/10 R279): An applied index sets POSITION to INDEX_POS and may count an index error. -/
def execIndex (n since t : Nat) (s : State) : Answer := s.onUnit (n < 4) fun d => d.index n since t

/-- LOST_TIMEOUT (spec/10 R280): No tick for LOST_TIMEOUT µs makes the time base lost. -/
def execLostTimeout (n t : Nat) (s : State) : Answer := s.onUnit (n < 4) fun d => d.lostTimeout n t

/-- SUBSTITUTE_TICK (spec/10 R281): Under SUBSTITUTE a substitute tick is issued every MEAN_PERIOD. -/
def execSubstituteTick (n t : Nat) (s : State) : Answer := s.onUnit (n < 4) fun d => d.substituteTick n t

/-- TB_CFG_WRITE (spec/10 R290): A TBASE source-block write is taken, or dropped with WRITE_REFUSED. -/
def execTbCfgWrite (n off w t : Nat) (s : State) : Answer := s.onUnit (n < 4) (Dev.rowWrite (0xE + n) off w t (fun d => d.tbCfgWrite n off w))

/-- PULSE_CTRL_WRITE (spec/10 R285): A PULSE_CTRL write arms a pulse output or is dropped. -/
def execPulseCtrlWrite (k w t : Nat) (s : State) : Answer := s.onUnit (k < 8) (Dev.rowWrite 0xD (0x100 + 0x20 * k) w t (fun d => d.pulseCtrlWrite k w t))

/-- PULSE_BOUNDARY (spec/10 R285): A pulse output reaches a start or end boundary and changes level. -/
def execPulseBoundary (k t : Nat) (s : State) : Answer := s.onUnit (k < 8) fun d => d.pulseBoundary k t

/-- CAPTURE_EDGE (spec/10 R286): A qualified capture edge is stamped into the FIFO or dropped on overflow. -/
def execCaptureEdge (k level since t : Nat) (s : State) : Answer := s.onUnit (k < 16) fun d => d.captureEdge k level since t

/-- STAMP_LO_READ (spec/10 R286): Reading STAMP_LO returns and pops the oldest capture stamp. -/
def execStampLoRead (k t : Nat) (s : State) : Answer := s.onUnit (k < 16) (Dev.rowRead 0xD t (fun d => d.stampLoRead k))

/-- TRIG_PULSE_END (spec/10 R287): A trigger-line pulse reaches its WIDTH and the line returns to idle. -/
def execTrigPulseEnd (k t : Nat) (s : State) : Answer := s.onUnit (k < 16) fun d => d.trigPulseEnd k t

/-- REFERENCE_RETURN (spec/10 R276): REFCLK_100 returns after a loss: holdover ends, DIVIDER time bases restart at edge 0, PERIODIC time bases resume at the next instant, and loss cause 0x5 ends. -/
def execReferenceReturn (t : Nat) (s : State) : Answer := s.onDev fun d => d.referenceReturn t

/-- OFFSET_ABSORBED (spec/10 R274): A negative offset that is absorbed by adding ADDEND / 2 per reference edge is used up, SLEWING clears, and normal advance resumes. -/
def execOffsetAbsorbed (t : Nat) (s : State) : Answer := s.onDev fun d => d.offsetAbsorbed t

end Sys2Proof.Machine
end

