-- ==== Sys2Proof/Machine/ExecTrace.lean ====
section
/-! DEFINITION. Commands of trace, counters and snapshots (spec/17). -/

namespace Sys2Proof.Machine

/-- SNAPSHOT (spec/17 R467): At the snapshot instant every counter is copied into its SNAP register and EV_SNAP_DONE is raised. -/
def execSnapshot (t : Nat) (s : State) : Answer := s.onDev fun d => d.snapshot t

/-- TRACE_ENABLE_WRITE (spec/17 R462): TRACE_CTRL.ENABLE starts the unit with a cairn, or disables it with a flush. -/
def execTraceEnableWrite (w t : Nat) (s : State) : Answer := s.onDev (Dev.rowWrite 0x211 0x40 w t (fun d => d.traceCtrlWrite w t))

/-- FLUSH (spec/17 R459): The current trace line is padded and sent to the sink. -/
def execFlush (w t : Nat) (s : State) : Answer := s.onDev (Dev.rowWrite 0x211 0x40 (w ||| 0x200) t (fun d => d.traceCtrlWrite (w ||| 0x200) t))

/-- SINK_RESTART (spec/17 R461): A stopped sink resumes with OVERFLOW and a cairn. -/
def execSinkRestart (w t : Nat) (s : State) : Answer := s.onDev (Dev.rowWrite 0x211 0x40 (w ||| 0x400) t (fun d => d.traceCtrlWrite (w ||| 0x400) t))

/-- SINK_LINE_WRITE (spec/17 R459): The sink takes a 64-byte line from the trace buffer. -/
def execSinkLineWrite (v : MemView) (t : Nat) (s : State) : Answer := s.onDev fun d => d.sinkLine v t

/-- TRACE_OVERFLOW (spec/17 R457): Once a quarter of the buffer is free, OVERFLOW and a cairn are written. -/
def execTraceOverflow (t : Nat) (s : State) : Answer := s.onDev fun d => d.traceOverflow t

/-- TS_PERIOD (spec/17 R455): With the array stopped a TS packet is written when the period elapses. -/
def execTsPeriod (t : Nat) (s : State) : Answer := s.onDev fun d => d.tsPeriod t

/-- SNAP_REQ (spec/17 R466): A snapshot is requested for an instant chosen by SNAP_MODE. -/
def execSnapReq (w t : Nat) (s : State) : Answer := s.onDev (Dev.rowWrite 0x212 0x40 (w ||| 1) t (fun d => d.snapCtrlWrite (w ||| 1) t))

end Sys2Proof.Machine
end

