-- ==== Sys2Proof/Machine/Dispatch.lean ====
section
/-! DEFINITION. The meaning of every command: one arm per constructor of Instr. -/

namespace Sys2Proof.Machine

def exec (i : Instr) (s : State) : Host.Outcome State Fault Refusal :=
  match i with
  | .nop bp => Sys2Proof.Machine.execNop bp s
  | .eval bp => Sys2Proof.Machine.execEval bp s
  | .evalDrive bp => Sys2Proof.Machine.execEvalDrive bp s
  | .commit bp => Sys2Proof.Machine.execCommit bp s
  | .commitDrive bp => Sys2Proof.Machine.execCommitDrive bp s
  | .memAddr bp => Sys2Proof.Machine.execMemAddr bp s
  | .memWdata bp => Sys2Proof.Machine.execMemWdata bp s
  | .memGo bp => Sys2Proof.Machine.execMemGo bp s
  | .farAddr bp => Sys2Proof.Machine.execFarAddr bp s
  | .farData bp => Sys2Proof.Machine.execFarData bp s
  | .farGo bp => Sys2Proof.Machine.execFarGo bp s
  | .edgeOut bp => Sys2Proof.Machine.execEdgeOut bp s
  | .probe bp => Sys2Proof.Machine.execProbe bp s
  | .reservedMode bp => Sys2Proof.Machine.execReservedMode bp s
  | .bankArrayCycle g => Sys2Proof.Machine.execBankArrayCycle g s
  | .farResponse g id v => Sys2Proof.Machine.execFarResponse g id v s
  | .belayEntry => Sys2Proof.Machine.execBelayEntry s
  | .snapshot t => Sys2Proof.Machine.execSnapshot t s
  | .belayConditionsMet t => Sys2Proof.Machine.execBelayConditionsMet t s
  | .belayRelease t => Sys2Proof.Machine.execBelayRelease t s
  | .belayTimeout t => Sys2Proof.Machine.execBelayTimeout t s
  | .tickEdge t => Sys2Proof.Machine.execTickEdge t s
  | .presentation t => Sys2Proof.Machine.execPresentation t s
  | .start w t => Sys2Proof.Machine.execStart w t s
  | .halt w t => Sys2Proof.Machine.execHalt w t s
  | .takeWatchdog t => Sys2Proof.Machine.execTakeWatchdog t s
  | .wdogPeriodUsWrite w t => Sys2Proof.Machine.execWdogPeriodUsWrite w t s
  | .takeCtrlWrite w t => Sys2Proof.Machine.execTakeCtrlWrite w t s
  | .injectThroughWrite w t => Sys2Proof.Machine.execInjectThroughWrite w t s
  | .checkCtrlWrite w t => Sys2Proof.Machine.execCheckCtrlWrite w t s
  | .bankCtrlWrite g w t => Sys2Proof.Machine.execBankCtrlWrite g w t s
  | .farCtrlWrite g off w t => Sys2Proof.Machine.execFarCtrlWrite g off w t s
  | .slate bs v t => Sys2Proof.Machine.execSlate bs v t s
  | .instrFrame bs v t => Sys2Proof.Machine.execInstrFrame bs v t s
  | .stateFrame bs v t => Sys2Proof.Machine.execStateFrame bs v t s
  | .bankFrame bs v t => Sys2Proof.Machine.execBankFrame bs v t s
  | .laneFrame bs v t => Sys2Proof.Machine.execLaneFrame bs v t s
  | .pitchFrame bs v t => Sys2Proof.Machine.execPitchFrame bs v t s
  | .edgeFrame bs v t => Sys2Proof.Machine.execEdgeFrame bs v t s
  | .pinFrame bs v t => Sys2Proof.Machine.execPinFrame bs v t s
  | .timebaseFrame bs v t => Sys2Proof.Machine.execTimebaseFrame bs v t s
  | .loadEnd t => Sys2Proof.Machine.execLoadEnd t s
  | .regionRelease t => Sys2Proof.Machine.execRegionRelease t s
  | .stateAck t => Sys2Proof.Machine.execStateAck t s
  | .productionIdWrite hi w t => Sys2Proof.Machine.execProductionIdWrite hi w t s
  | .stagedGlobalRelease w t => Sys2Proof.Machine.execStagedGlobalRelease w t s
  | .releaseStage1 => Sys2Proof.Machine.execReleaseStage1 s
  | .releaseStage2 => Sys2Proof.Machine.execReleaseStage2 s
  | .releaseStage3 => Sys2Proof.Machine.execReleaseStage3 s
  | .edgeClockCycle rise fall levels t => Sys2Proof.Machine.execEdgeClockCycle rise fall levels t s
  | .blockMemoryAccess b => Sys2Proof.Machine.execBlockMemoryAccess b s
  | .fifoWrite f => Sys2Proof.Machine.execFifoWrite f s
  | .fifoPop f => Sys2Proof.Machine.execFifoPop f s
  | .edgePllLock n => Sys2Proof.Machine.execEdgePllLock n s
  | .probeSelWrite k w t => Sys2Proof.Machine.execProbeSelWrite k w t s
  | .presentCfgWrite w t => Sys2Proof.Machine.execPresentCfgWrite w t s
  | .pinCfgHiWrite b k hi t => Sys2Proof.Machine.execPinCfgHiWrite b k hi t s
  | .keeperWindowEnd p ext t => Sys2Proof.Machine.execKeeperWindowEnd p ext t s
  | .lockKey b w t => Sys2Proof.Machine.execLockKey b w t s
  | .lock b w t => Sys2Proof.Machine.execLock b w t s
  | .lockSeqTimeout b t => Sys2Proof.Machine.execLockSeqTimeout b t s
  | .matchCtrlWrite m w t => Sys2Proof.Machine.execMatchCtrlWrite m w t s
  | .pinMatch m levels cycles t => Sys2Proof.Machine.execPinMatch m levels cycles t s
  | .pinLevelRequest p ext t => Sys2Proof.Machine.execPinLevelRequest p ext t s
  | .minPulseElapsed p ext t => Sys2Proof.Machine.execMinPulseElapsed p ext t s
  | .rateWindowEnd p ext t => Sys2Proof.Machine.execRateWindowEnd p ext t s
  | .outputReadback p level since t => Sys2Proof.Machine.execOutputReadback p level since t s
  | .timeWrap t => Sys2Proof.Machine.execTimeWrap t s
  | .addendWrite hi t => Sys2Proof.Machine.execAddendWrite hi t s
  | .jumpAccept w t => Sys2Proof.Machine.execJumpAccept w t s
  | .jumpReject w t => Sys2Proof.Machine.execJumpReject w t s
  | .resume w t => Sys2Proof.Machine.execResume w t s
  | .syncInterval t => Sys2Proof.Machine.execSyncInterval t s
  | .ptmExchange m t => Sys2Proof.Machine.execPtmExchange m t s
  | .syncLoss t => Sys2Proof.Machine.execSyncLoss t s
  | .dividerCount n t => Sys2Proof.Machine.execDividerCount n t s
  | .periodicInstant n t => Sys2Proof.Machine.execPeriodicInstant n t s
  | .triggerEdge line level since t => Sys2Proof.Machine.execTriggerEdge line level since t s
  | .zeroCrossEdge n level since t => Sys2Proof.Machine.execZeroCrossEdge n level since t s
  | .lineSyncEdge n level since t => Sys2Proof.Machine.execLineSyncEdge n level since t s
  | .encoderCount n a b since t => Sys2Proof.Machine.execEncoderCount n a b since t s
  | .index n since t => Sys2Proof.Machine.execIndex n since t s
  | .lostTimeout n t => Sys2Proof.Machine.execLostTimeout n t s
  | .substituteTick n t => Sys2Proof.Machine.execSubstituteTick n t s
  | .tbCfgWrite n off w t => Sys2Proof.Machine.execTbCfgWrite n off w t s
  | .pulseCtrlWrite k w t => Sys2Proof.Machine.execPulseCtrlWrite k w t s
  | .pulseBoundary k t => Sys2Proof.Machine.execPulseBoundary k t s
  | .captureEdge k level since t => Sys2Proof.Machine.execCaptureEdge k level since t s
  | .stampLoRead k t => Sys2Proof.Machine.execStampLoRead k t s
  | .trigPulseEnd k t => Sys2Proof.Machine.execTrigPulseEnd k t s
  | .enable p w t => Sys2Proof.Machine.execEnable p w t s
  | .retrain p w t => Sys2Proof.Machine.execRetrain p w t s
  | .peerClockActivity p t => Sys2Proof.Machine.execPeerClockActivity p t s
  | .receivePllLock p t => Sys2Proof.Machine.execReceivePllLock p t s
  | .bitLockDone p lanes t => Sys2Proof.Machine.execBitLockDone p lanes t s
  | .symbolLockDone p t => Sys2Proof.Machine.execSymbolLockDone p t s
  | .linkStateTimeout p t => Sys2Proof.Machine.execLinkStateTimeout p t s
  | .exchangeA p highest selected lanes position peerPort mhz device => Sys2Proof.Machine.execExchangeA p highest selected lanes position peerPort mhz device s
  | .exchangeB p production size => Sys2Proof.Machine.execExchangeB p production size s
  | .exchangeC p serial => Sys2Proof.Machine.execExchangeC p serial s
  | .linkFrameSend p t => Sys2Proof.Machine.execLinkFrameSend p t s
  | .linkFrameReceive p lanes t => Sys2Proof.Machine.execLinkFrameReceive p lanes t s
  | .replayTimeout p t => Sys2Proof.Machine.execReplayTimeout p t s
  | .linkLos p lane t => Sys2Proof.Machine.execLinkLos p lane t s
  | .linkLol p lane t => Sys2Proof.Machine.execLinkLol p lane t s
  | .announce p eligible priority origin hops => Sys2Proof.Machine.execAnnounce p eligible priority origin hops s
  | .sync p addend t => Sys2Proof.Machine.execSync p addend t s
  | .followUp p t1 void => Sys2Proof.Machine.execFollowUp p t1 void s
  | .delayReq p again t => Sys2Proof.Machine.execDelayReq p again t s
  | .delayResp p t4 void => Sys2Proof.Machine.execDelayResp p t4 void s
  | .tick p n stamp pos => Sys2Proof.Machine.execTick p n stamp pos s
  | .ready p belay take origin => Sys2Proof.Machine.execReady p belay take origin s
  | .release p belay instant resp take => Sys2Proof.Machine.execRelease p belay instant resp take s
  | .stop p origin take code => Sys2Proof.Machine.execStop p origin take code s
  | .startCheck p digest mhz => Sys2Proof.Machine.execStartCheck p digest mhz s
  | .lowrateReq p => Sys2Proof.Machine.execLowrateReq p s
  | .lowrateAck p => Sys2Proof.Machine.execLowrateAck p s
  | .fullrateReq p => Sys2Proof.Machine.execFullrateReq p s
  | .txEqWrite p w t => Sys2Proof.Machine.execTxEqWrite p w t s
  | .registerWrite place size be value t => Sys2Proof.Machine.execRegisterWrite place size be value t s
  | .inflightPeakRead place size t => Sys2Proof.Machine.execInflightPeakRead place size t s
  | .bar2Read off n v => Sys2Proof.Machine.execBar2Read off n v s
  | .bar2Write off bs => Sys2Proof.Machine.execBar2Write off bs s
  | .bar2OffsetHiWrite w t => Sys2Proof.Machine.execBar2OffsetHiWrite w t s
  | .bar4Read off n => Sys2Proof.Machine.execBar4Read off n s
  | .bar4Write off bs => Sys2Proof.Machine.execBar4Write off bs s
  | .go w t => Sys2Proof.Machine.execGo w t s
  | .invalidationDone => Sys2Proof.Machine.execInvalidationDone s
  | .ctxRootWrite c hi w t => Sys2Proof.Machine.execCtxRootWrite c hi w t s
  | .commitFences w t => Sys2Proof.Machine.execCommitFences w t s
  | .fenceCommitted => Sys2Proof.Machine.execFenceCommitted s
  | .fenceLock w t => Sys2Proof.Machine.execFenceLock w t s
  | .ddrChannelReady c t => Sys2Proof.Machine.execDdrChannelReady c t s
  | .ddrInitFailed c step slot t => Sys2Proof.Machine.execDdrInitFailed c step slot t s
  | .ddrRetrain w t => Sys2Proof.Machine.execDdrRetrain w t s
  | .patrolScrubRead c v t => Sys2Proof.Machine.execPatrolScrubRead c v t s
  | .ddrRefresh c t => Sys2Proof.Machine.execDdrRefresh c t s
  | .dimmTempRead c temp t => Sys2Proof.Machine.execDimmTempRead c temp t s
  | .sqTailWrite q w t => Sys2Proof.Machine.execSqTailWrite q w t s
  | .cqHeadWrite q w t => Sys2Proof.Machine.execCqHeadWrite q w t s
  | .qCtrlWrite q w t => Sys2Proof.Machine.execQCtrlWrite q w t s
  | .queueReset q w t => Sys2Proof.Machine.execQueueReset q w t s
  | .descriptorFetch q v t => Sys2Proof.Machine.execDescriptorFetch q v t s
  | .tokenPost w t => Sys2Proof.Machine.execTokenPost w t s
  | .itemDispatch e t => Sys2Proof.Machine.execItemDispatch e t s
  | .restartPoint e t => Sys2Proof.Machine.execRestartPoint e t s
  | .itemCompletion q v t => Sys2Proof.Machine.execItemCompletion q v t s
  | .copy e n v t => Sys2Proof.Machine.execCopy e n v t s
  | .fill e n v t => Sys2Proof.Machine.execFill e n v t s
  | .loadFrames e n v t => Sys2Proof.Machine.execLoadFrames e n v t s
  | .readback e n v t => Sys2Proof.Machine.execReadback e n v t s
  | .verify e n v t => Sys2Proof.Machine.execVerify e n v t s
  | .inject e v t => Sys2Proof.Machine.execInject e v t s
  | .capture e v t => Sys2Proof.Machine.execCapture e v t s
  | .restore e n v t => Sys2Proof.Machine.execRestore e n v t s
  | .checksum e n v t => Sys2Proof.Machine.execChecksum e n v t s
  | .traceDrain e n v t => Sys2Proof.Machine.execTraceDrain e n v t s
  | .erase e n v t => Sys2Proof.Machine.execErase e n v t s
  | .fence q t => Sys2Proof.Machine.execFence q t s
  | .token q t => Sys2Proof.Machine.execToken q t s
  | .timer q t => Sys2Proof.Machine.execTimer q t s
  | .timerDue l t => Sys2Proof.Machine.execTimerDue l t s
  | .mailbox q v t => Sys2Proof.Machine.execMailbox q v t s
  | .nocPacketArrival node input header err t => Sys2Proof.Machine.execNocPacketArrival node input header err t s
  | .rspTimeout kind id t => Sys2Proof.Machine.execRspTimeout kind id t s
  | .checkModeWrite w t => Sys2Proof.Machine.execCheckModeWrite w t s
  | .routerDrained t => Sys2Proof.Machine.execRouterDrained t s
  | .domCtrlWrite dom w t => Sys2Proof.Machine.execDomCtrlWrite dom w t s
  | .pointOfNoReturn dom t => Sys2Proof.Machine.execPointOfNoReturn dom t s
  | .domainOff dom t => Sys2Proof.Machine.execDomainOff dom t s
  | .domainOn dom t => Sys2Proof.Machine.execDomainOn dom t s
  | .targetWrite w t => Sys2Proof.Machine.execTargetWrite w t s
  | .bivouacEntry t => Sys2Proof.Machine.execBivouacEntry t s
  | .pcieDStateChange state => Sys2Proof.Machine.execPcieDStateChange state s
  | .limiterSample power t => Sys2Proof.Machine.execLimiterSample power t s
  | .attach w t => Sys2Proof.Machine.execAttach w t s
  | .watchCtrlWrite w t => Sys2Proof.Machine.execWatchCtrlWrite w t s
  | .bapGo w t => Sys2Proof.Machine.execBapGo w t s
  | .bapDone v t => Sys2Proof.Machine.execBapDone v t s
  | .newNonce w t => Sys2Proof.Machine.execNewNonce w t s
  | .unlock w t => Sys2Proof.Machine.execUnlock w t s
  | .unlockEraseDone v t => Sys2Proof.Machine.execUnlockEraseDone v t s
  | .extest cells levels t => Sys2Proof.Machine.execExtest cells levels t s
  | .samplePreload levels cells t => Sys2Proof.Machine.execSamplePreload levels cells t s
  | .idcode t => Sys2Proof.Machine.execIdcode t s
  | .dbgAccess bits t => Sys2Proof.Machine.execDbgAccess bits t s
  | .bypass n bits t => Sys2Proof.Machine.execBypass n bits t s
  | .testLogicReset t => Sys2Proof.Machine.execTestLogicReset t s
  | .traceEnableWrite w t => Sys2Proof.Machine.execTraceEnableWrite w t s
  | .flush w t => Sys2Proof.Machine.execFlush w t s
  | .sinkRestart w t => Sys2Proof.Machine.execSinkRestart w t s
  | .sinkLineWrite v t => Sys2Proof.Machine.execSinkLineWrite v t s
  | .traceOverflow t => Sys2Proof.Machine.execTraceOverflow t s
  | .tsPeriod t => Sys2Proof.Machine.execTsPeriod t s
  | .snapReq w t => Sys2Proof.Machine.execSnapReq w t s
  | .mgmtWatchdog t => Sys2Proof.Machine.execMgmtWatchdog t s
  | .mgmtRestart t => Sys2Proof.Machine.execMgmtRestart t s
  | .doorbell t => Sys2Proof.Machine.execDoorbell t s
  | .mboxReply v t => Sys2Proof.Machine.execMboxReply v t s
  | .getInfo t => Sys2Proof.Machine.execGetInfo t s
  | .logRead t => Sys2Proof.Machine.execLogRead t s
  | .counterRead t => Sys2Proof.Machine.execCounterRead t s
  | .counterRaise t => Sys2Proof.Machine.execCounterRaise t s
  | .updateBegin err t => Sys2Proof.Machine.execUpdateBegin err t s
  | .updateData err t => Sys2Proof.Machine.execUpdateData err t s
  | .updateCommit err t => Sys2Proof.Machine.execUpdateCommit err t s
  | .sensorRead t => Sys2Proof.Machine.execSensorRead t s
  | .i2cXfer ack data t => Sys2Proof.Machine.execI2cXfer ack data t s
  | .clear outside t => Sys2Proof.Machine.execClear outside t s
  | .test t => Sys2Proof.Machine.execTest t s
  | .estopInput t => Sys2Proof.Machine.execEstopInput t s
  | .estopDeassert t => Sys2Proof.Machine.execEstopDeassert t s
  | .instructionStoreScrub t => Sys2Proof.Machine.execInstructionStoreScrub t s
  | .edgeScrub corrected bad t => Sys2Proof.Machine.execEdgeScrub corrected bad t s
  | .voltageMonitor r bank mv t => Sys2Proof.Machine.execVoltageMonitor r bank mv t s
  | .thermalSample readings t => Sys2Proof.Machine.execThermalSample readings t s
  | .clockMonitor code kind t => Sys2Proof.Machine.execClockMonitor code kind t s
  | .stepMhzWrite w t => Sys2Proof.Machine.execStepMhzWrite w t s
  | .stepPllLock t => Sys2Proof.Machine.execStepPllLock t s
  | .por => Sys2Proof.Machine.execPor s
  | .deviceReset cause t => Sys2Proof.Machine.execDeviceReset cause t s
  | .resetCtrlDevice w t => Sys2Proof.Machine.execResetCtrlDevice w t s
  | .arrayReset t => Sys2Proof.Machine.execArrayReset t s
  | .edgeReset t => Sys2Proof.Machine.execEdgeReset t s
  | .flrPf0 t => Sys2Proof.Machine.execFlrPf0 t s
  | .flrPf1 t => Sys2Proof.Machine.execFlrPf1 t s
  | .boot errors runs mv t0 t => Sys2Proof.Machine.execBoot errors runs mv t0 t s
  | .pageLockWrite func off w t => Sys2Proof.Machine.execPageLockWrite func off w t s
  | .evRouteWrite func off w t => Sys2Proof.Machine.execEvRouteWrite func off w t s
  | .evRaisedClear func off w same t => Sys2Proof.Machine.execEvRaisedClear func off w same t s
  | .evEnableWrite func off w t => Sys2Proof.Machine.execEvEnableWrite func off w t s
  | .evForceWrite func off w t => Sys2Proof.Machine.execEvForceWrite func off w t s
  | .referenceReturn t => Sys2Proof.Machine.execReferenceReturn t s
  | .offsetAbsorbed t => Sys2Proof.Machine.execOffsetAbsorbed t s
  | .msixVectorUnmask func vector t => Sys2Proof.Machine.execMsixVectorUnmask func vector t s
  | .tapHoldsDbgAccess t => Sys2Proof.Machine.execTapHoldsDbgAccess t s
  | .railEntersWindow r bank mv t => Sys2Proof.Machine.execRailEntersWindow r bank mv t s

end Sys2Proof.Machine
end

