-- ==== Sys2Proof/Machine/Idle.lean ====
section
/-! DEFINITION. What happens while no command waits: a cycle of the step clock. -/

namespace Sys2Proof.Machine

/-- A cycle of the step clock (spec/02 R42): in a pitch it is the step in execution, which ends; a power state that waits for the array to rest is entered where it now does
(spec/15 R403).  THERMAL_LIMIT stops the step clock (spec/18 R484). -/
def Dev.idleCycle (d : Dev) : Dev :=
  (if decide (d.tk.phase = .stepping) && !d.mg.thermalStop then d.endStep.powerDue else d).cycle.settleJump.settlePins.watchTbPins

end Sys2Proof.Machine
end

