-- ==== Sys2Proof/Safety.lean ====
section
/-! DEFINITION. What counts as a safe run, in the terms the statements use. -/

namespace Sys2Proof.Machine

/-- The canonical form of a byte memory: addresses strictly rising, no entry equal to what an unlisted address reads as. -/
abbrev Memory.wf (m : SMap Byte) : Bool := SMap.wf m

/-- The addressed memories of the block: DDR5, the banks, the edge block memories, the queue SRAM and the serial flash. -/
def State.memories (s : State) : List (SMap Byte) := [s.dev.ddr.mem, s.dev.arr.banks, s.dev.edge.bmem, s.dev.eng.sram, s.dev.mg.flash]

/-- Every addressed memory is in canonical form. -/
def State.memoriesWf (s : State) : Bool := s.memories.all Memory.wf

/-- The envelope unit is either loaded and locked, or blank (spec/09 R254, R257). -/
def State.envelopeSealed (s : State) : Bool := s.envelope.locked || decide (s.envelope = default)

/-! The words of the statements. -/

/-- The device when the write of a register command of the stamp `t` arrives: device time has reached `t`, and the write is counted (spec/17 R464: writes to BAR0). -/
def Dev.atWrite (d : Dev) (t : Nat) : Dev := (d.toTime t).count 0xB0 11 1

/-- The device when the read of a register command of the stamp `t` arrives. -/
def Dev.atRead (d : Dev) (t : Nat) : Dev := (d.toTime t).count 0xB0 10 1

/-- The host reaches the registers of page `p`: a function that serves it answers, the part has the page, and its switched domain, where it has one, is ON. -/
def Dev.reaches (d : Dev) (p : Nat) : Bool :=
  d.rowUp p &&
    match pageDomain p with
    | none => true
    | some i => d.domState i == 2

/-- The state in which the device has become `f` of what it was, and nothing else has changed: neither the envelope unit nor the queue. -/
def State.after (s : State) (f : Dev → Dev) : State := { s with dev := f s.dev }

/-! A Boolean processor in a step (spec/02 R43 to R67). -/

/-- The result of a word: TT[i] with i = D·8 + C·4 + B·2 + A (spec/02 R47). -/
def wordResult (w a b c e : Nat) : Nat := bitAt (wordTt w) (e * 8 + c * 4 + b * 2 + a)

/-- The array is in a step in which BP `bp` takes part and is yet to act. -/
def Dev.toAct (d : Dev) (bp : Nat) : Bool := decide (d.tk.phase = .stepping) && d.bpLive bp && !d.tk.acted.contains bp

/-- BP `bp` is yet to act and the word that it fetches, `w`, stands with fitting check bits. -/
def Dev.fetches (d : Dev) (bp w : Nat) : Bool := d.toAct bp && decide (d.fetch bp d.tk.step = .clean w)

/-- The word passes the checks of its fetch, its operands A to D read `a`, `b`, `c` and `e` without a fault, its G4 keeps its power budget in the step, and its own action
raises no fault. -/
def Dev.evaluates (d : Dev) (bp w a b c e : Nat) : Bool :=
  d.fetches bp w && decide (d.fetchFaults bp (.clean w) = []) &&
    decide (d.readOperand bp d.tk.step 0 (wordOp w 0) = (a, [])) && decide (d.readOperand bp d.tk.step 1 (wordOp w 1) = (b, [])) &&
    decide (d.readOperand bp d.tk.step 2 (wordOp w 2) = (c, [])) && decide (d.readOperand bp d.tk.step 3 (wordOp w 3) = (e, [])) &&
    !d.overBudget (bp / 4096) d.tk.step && decide (d.actFaults bp w (wordResult w a b c e) = [])

/-- BP `bp` has acted in the step. -/
def Dev.actedBy (bp : Nat) (d : Dev) : Dev := { d with tk := { d.tk with acted := bp :: d.tk.acted } }

/-- BP `bp` has acted: its step entry of the step holds `r` and counts as written in the take, and its neighbour output, with the shared actions `as`, stands among what
takes effect at the end of the step (spec/02 R43, R53). -/
def Dev.entered (bp r : Nat) (as : List Act) (d : Dev) : Dev :=
  { d with
    arr := { d.arr with stepRows := SMap.bitSet d.arr.stepRows (bp * 2048 + d.tk.step) r, wrote := SMap.bitSet d.arr.wrote (bp * 2048 + d.tk.step) 1 }
    tk := { d.tk with acted := bp :: d.tk.acted, stage := d.tk.stage ++ ⟨.nbr, bp, bp, r, true⟩ :: as } }

/-- The shadow of state entry `k` holds `r`, its written flag is set, and the step of its first commit is kept (spec/02 R53, R62, R63). -/
def Dev.shadowed (bp k r : Nat) (d : Dev) : Dev :=
  { d with arr := { d.arr with
      shadowRows := SMap.bitSet d.arr.shadowRows (bp * 512 + k) r, flagRows := SMap.bitSet d.arr.flagRows (bp * 512 + k) 1
      firstCommit := SMap.set d.arr.firstCommit (bp * 512 + k) (d.tk.step + 1) } }

/-- The command of a row of the word table: MODE 0x0 to 0xC, and 0xD for a word that raises RESERVED_MODE (spec/02 R46, R53). -/
def wordCommand (row bp : Nat) : Instr :=
  match row with
  | 0 => .nop bp
  | 1 => .eval bp
  | 2 => .evalDrive bp
  | 3 => .commit bp
  | 4 => .commitDrive bp
  | 5 => .memAddr bp
  | 6 => .memWdata bp
  | 7 => .memGo bp
  | 8 => .farAddr bp
  | 9 => .farData bp
  | 10 => .farGo bp
  | 11 => .edgeOut bp
  | 12 => .probe bp
  | _ => .reservedMode bp

/-- The device at a write of word `w` to RUN_CTRL: the mode and step fields hold what is written (spec/16 R410). -/
def Dev.atRunCtrl (d : Dev) (w t : Nat) : Dev := ((d.atWrite t).wr R.RUN.RUN_CTRL_DEBUG_MODE (w / 4)).wr R.RUN.RUN_CTRL_STEP_TAKES (w / 2 ^ 16)

/-- The device at a start: START_CHECK has been sent, and every peer that disagrees has been reported (spec/04 R97, spec/11 R303). -/
def Dev.checkedStart (d : Dev) : Dev :=
  let d1 := d.sendStartCheck.reportPeers
  { d1 with tk := { d1.tk with startHeld := false } }

/-! The load stream (spec/07 R187 to R198). -/

/-- The command of a frame TYPE (spec/07 R190). -/
def frameCommand (ty : Nat) (bs : Bytes) (v : MemView) (t : Nat) : Instr :=
  match ty with
  | 1 => .instrFrame bs v t
  | 2 => .stateFrame bs v t
  | 3 => .bankFrame bs v t
  | 4 => .laneFrame bs v t
  | 5 => .pitchFrame bs v t
  | 6 => .edgeFrame bs v t
  | 7 => .pinFrame bs v t
  | _ => .timebaseFrame bs v t

/-- `bs` is a whole frame of TYPE `ty` that an OPEN load takes without waiting: 32 bytes of header and the payload that LEN gives, with a fitting CRC. -/
def Dev.wholeFrame (d : Dev) (ty : Nat) (bs : Bytes) : Bool :=
  d.loadState == 1 && decide (leAt bs 0 4 ≠ 0x4C524B4C) && frameType bs == ty && decide (bs.length = 32 + frameLen bs) && frameCrcOk bs

/-- The frame comes next, obeys its type, and repeats no target (spec/07 R189). -/
def Dev.frameFits (d : Dev) (bs : Bytes) : Bool :=
  frameIndex bs == d.ld.expected && d.frameFieldsOk bs && d.frameTargetOk bs && !d.frameRepeated bs

/-! KermaLink (spec/11 R315). -/

/-- The fields of KL_CTRL of port `p` hold what word `w` gives them: MIN_LANES of 2 to 8, TRAIN_RETRIES from 1. -/
def Dev.klFields (d : Dev) (p w : Nat) : Dev :=
  let d1 := (d.wrAt R.KL.KL_CTRL_ENABLE p 0 w).wrAt R.KL.KL_CTRL_V2_ALLOW p 0 (w / 2)
  let d2 := if 2 ≤ fieldAt w 4 4 ∧ fieldAt w 4 4 ≤ 8 then d1.wrAt R.KL.KL_CTRL_MIN_LANES p 0 (fieldAt w 4 4) else d1
  if 1 ≤ fieldAt w 8 4 then d2.wrAt R.KL.KL_CTRL_TRAIN_RETRIES p 0 (fieldAt w 8 4) else d2

/-! The service engines (spec/14). -/

/-- The numbers of the fetched items rise in order of fetch, and the next one is higher than all: no two items have one number. -/
def Dev.itemsWf (d : Dev) : Bool := decide ((d.eng.items.map Item.id).Pairwise (· < ·)) && d.eng.items.all fun i => decide (i.id < d.eng.nextId)

/-- Engine `e` runs item `i` of type `ty`, the item of its number, and no restart point of it is due (spec/14 R382). -/
def Dev.runs (d : Dev) (e ty : Nat) (i : Item) : Bool :=
  decide (d.runningType e ty = some i) && decide (d.item i.id = some i) && !(i.restartable && decide (i.lastPoint + 4096 ≤ i.progress))

/-- `c` more bytes of item `i` are done; at `total` it ends with OK. -/
def Dev.onward (i : Item) (c total : Nat) (d : Dev) : Dev :=
  let d1 := d.setItem i.id fun x => x.advance c
  if total ≤ i.done + c then d1.endItem i.id 0x00 else d1

/-- The command that moves an item of type `ty` on (spec/14 R365). -/
def moveCommand (ty e n : Nat) (v : MemView) (t : Nat) : Instr :=
  match ty with
  | 1 => .copy e n v t
  | 2 => .fill e n v t
  | 3 => .loadFrames e n v t
  | 4 => .readback e n v t
  | 5 => .verify e n v t
  | 6 => .inject e v t
  | 7 => .capture e v t
  | 8 => .restore e n v t
  | 9 => .checksum e n v t
  | 10 => .traceDrain e n v t
  | _ => .erase e n v t

/-! The mailbox (spec/18 R471 to R475). -/

/-- Message `m`, of command `c`, is the first one; no restart has met it, it has no reply yet, and the firmware, or the recovery mailbox, serves that command. -/
def Dev.serving (d : Dev) (m : Msg) (c : Nat) : Bool :=
  decide (d.mg.msgs.head? = some m) && !m.restarted && d.mg.reply.isNone && m.command == c && d.mailboxServed m && (!d.mg.bootFailed || recoveryCommands.contains c)

/-- The first message `m` has its reply: STATUS and payload. -/
def Dev.replied (m : Msg) (status : Nat) (payload : Bytes) (d : Dev) : Dev := { d with mg := { d.mg with reply := some (m.answer status payload) } }

/-- The row of a COMMAND of R472, where the flash and the board report no error. -/
def mailboxRow (c t : Nat) : Instr :=
  match c with
  | 0x0001 => .getInfo t
  | 0x0002 => .logRead t
  | 0x0003 => .counterRead t
  | 0x0004 => .counterRaise t
  | 0x0010 => .updateBegin false t
  | 0x0011 => .updateData false t
  | 0x0012 => .updateCommit false t
  | 0x0020 => .sensorRead t
  | _ => .i2cXfer true [] t

/-- The LENGTH of the payload that the table of R472 gives a COMMAND. -/
def lengthFits (c n : Nat) : Bool :=
  match c with
  | 0x0002 => n == 4
  | 0x0003 => n == 1
  | 0x0004 => n == 9
  | 0x0010 => n == 5
  | 0x0011 => decide (5 ≤ n ∧ n ≤ 244)
  | 0x0030 => decide (3 ≤ n ∧ n ≤ 67)
  | _ => n == 0

/-- A run of `n` steps completes: no step of it faults or is refused. -/
def State.completes (s : State) (n : Nat) : Bool :=
  match Host.Core.run { State := State, Fault := Fault, Refusal := Refusal, step := step, reset := State.reset } n s with
  | .next _ => true
  | .fault _ | .refused _ => false

end Sys2Proof.Machine
end

