-- ==== Sys2Proof/Certificates/Slice0/Obligations.lean ====
section
/-! DEFINITION. The statements. -/

open Sys2Proof Sys2Proof.Machine

/-- The command at the front of the queue is the one that runs, on the state with the rest of the queue. -/
def Obligations.StepRunsFront : Prop :=
  ∀ (s : State) (c : Instr) (rest : List Instr), s.pending = c :: rest → step s = exec c { s with pending := rest }

/-- spec/02 R43, R47, R53: what NOP, EVAL, COMMIT and COMMIT_DRIVE do, and that they do nothing else. -/
def Obligations.WordWritesItsEntries : Prop :=
  (∀ (s : State) (bp w : Nat), s.dev.fetches bp w = true → s.dev.fetchFaults bp (.clean w) = [] → wordMode w = 0 →
    exec (.nop bp) s = .next (s.after (Dev.actedBy bp))) ∧
  (∀ (s : State) (bp w a b c e : Nat), s.dev.evaluates bp w a b c e = true → wordMode w = 1 →
    exec (.eval bp) s = .next (s.after (Dev.entered bp (wordResult w a b c e) []))) ∧
  (∀ (s : State) (bp w a b c e : Nat), s.dev.evaluates bp w a b c e = true → wordMode w = 3 →
    exec (.commit bp) s = .next (s.after fun d => (d.shadowed bp (fieldAt (wordAux w) 0 9) (wordResult w a b c e)).entered bp (wordResult w a b c e) [])) ∧
  (∀ (s : State) (bp w a b c e : Nat), s.dev.evaluates bp w a b c e = true → wordMode w = 4 →
    exec (.commitDrive bp) s = .next (s.after fun d =>
      (d.shadowed bp (fieldAt (wordAux w) 0 8) (wordResult w a b c e)).entered bp (wordResult w a b c e)
        [⟨.lane, bp / 8 * 8 + fieldAt (wordAux w) 8 3, bp, wordResult w a b c e, true⟩]))

/-- spec/02 R53: the shared action of every MODE that has one. -/
def Obligations.WordStagesSharedAction : Prop :=
  (∀ (s : State) (bp w a b c e : Nat), s.dev.evaluates bp w a b c e = true → wordMode w = 2 →
    exec (.evalDrive bp) s = .next (s.after (Dev.entered bp (wordResult w a b c e) [⟨.lane, bp / 8 * 8 + fieldAt (wordAux w) 0 3, bp, wordResult w a b c e, true⟩]))) ∧
  (∀ (s : State) (bp w a b c e : Nat), s.dev.evaluates bp w a b c e = true → wordMode w = 5 →
    exec (.memAddr bp) s = .next (s.after (Dev.entered bp (wordResult w a b c e) [⟨.memAddr, bp / 64 * 2 + wordAux w % 2, bp, wordResult w a b c e, true⟩]))) ∧
  (∀ (s : State) (bp w a b c e : Nat), s.dev.evaluates bp w a b c e = true → wordMode w = 6 →
    exec (.memWdata bp) s = .next (s.after (Dev.entered bp (wordResult w a b c e)
      [⟨.memWdata, (bp / 64 * 2 + wordAux w % 2) * 256 + fieldAt (wordAux w) 1 8, bp, wordResult w a b c e, true⟩]))) ∧
  (∀ (s : State) (bp w a b c e : Nat), s.dev.evaluates bp w a b c e = true → wordMode w = 7 →
    exec (.memGo bp) s = .next (s.after (Dev.entered bp (wordResult w a b c e)
      (if wordResult w a b c e = 1 then [⟨.memGo, bp / 64 * 2 + wordAux w % 2, bp, bitAt (wordAux w) 1, true⟩] else [])))) ∧
  (∀ (s : State) (bp w a b c e : Nat), s.dev.evaluates bp w a b c e = true → wordMode w = 8 →
    exec (.farAddr bp) s = .next (s.after (Dev.entered bp (wordResult w a b c e) [⟨.farAddr, bp / 4096 * 64 + wordAux w % 64, bp, wordResult w a b c e, true⟩]))) ∧
  (∀ (s : State) (bp w a b c e : Nat), s.dev.evaluates bp w a b c e = true → wordMode w = 9 →
    exec (.farData bp) s = .next (s.after (Dev.entered bp (wordResult w a b c e) [⟨.farData, bp / 4096 * 512 + wordAux w % 512, bp, wordResult w a b c e, true⟩]))) ∧
  (∀ (s : State) (bp w a b c e : Nat), s.dev.evaluates bp w a b c e = true → wordMode w = 10 →
    exec (.farGo bp) s = .next (s.after (Dev.entered bp (wordResult w a b c e)
      (if wordResult w a b c e = 1 then [⟨.farGo, bp / 4096, bp, wordAux w % 2, true⟩] else [])))) ∧
  (∀ (s : State) (bp w a b c e : Nat), s.dev.evaluates bp w a b c e = true → wordMode w = 11 →
    exec (.edgeOut bp) s = .next (s.after (Dev.entered bp (wordResult w a b c e) [⟨.edge, wordAux w % 1024, bp, wordResult w a b c e, true⟩]))) ∧
  (∀ (s : State) (bp w a b c e : Nat), s.dev.evaluates bp w a b c e = true → wordMode w = 12 →
    exec (.probe bp) s = .next (s.after (Dev.entered bp (wordResult w a b c e) [⟨.probe, bp / 4096 * 64 + wordAux w % 64, bp, wordResult w a b c e, true⟩])))

/-- spec/02 R46, R65, R67, R533, spec/06 R161: the words that do not have their effect. -/
def Obligations.WordFaults : Prop :=
  (∀ (s : State) (bp w z : Nat), s.dev.toAct bp = true → s.dev.fetch bp s.dev.tk.step = .bad w z →
    exec (wordCommand (min (wordMode w) 0xD) bp) s = .next (s.after fun d => (d.actedBy bp).addFaults [{ d.bpFault 0x1C bp z with sev := 4 }])) ∧
  (∀ (s : State) (bp w : Nat), s.dev.fetches bp w = true → 0xD ≤ wordMode w → wordRsvd w = 0 → wordAux w = 0 →
    exec (.reservedMode bp) s = .next (s.after fun d => (d.actedBy bp).addFaults [d.bpFault 0x20 bp (wordMode w)])) ∧
  (∀ (s : State) (bp w : Nat), s.dev.fetches bp w = true → s.dev.fetchFaults bp (.clean w) ≠ [] →
    exec (wordCommand (if wordReserved w then 0xD else wordMode w) bp) s = .next (s.after fun d => (d.actedBy bp).addFaults (d.fetchFaults bp (.clean w)))) ∧
  (∀ (s : State) (bp w : Nat), s.dev.toAct bp = true → s.dev.fetch bp s.dev.tk.step = .corrected w → s.dev.fetchFaults bp (.clean w) = [] →
    exec (wordCommand (wordMode w) bp) s = .next (s.after fun d =>
      (((d.actedBy bp).count (bp / 4096) 6 1).event (0x040 + bp / 4096)).runWord bp d.tk.step w)) ∧
  (∀ (s : State) (bp w : Nat), s.dev.toAct bp = true → s.dev.fetch bp s.dev.tk.step = .corrected w → s.dev.fetchFaults bp (.clean w) ≠ [] →
    exec (wordCommand (if wordReserved w then 0xD else wordMode w) bp) s = .next (s.after fun d =>
      (((d.actedBy bp).count (bp / 4096) 6 1).event (0x040 + bp / 4096)).addFaults (d.fetchFaults bp (.clean w)))) ∧
  (∀ (s : State) (bp w : Nat), s.dev.fetches bp w = true → s.dev.fetchFaults bp (.clean w) = [] → wordMode w ≠ 0 → (s.dev.result bp s.dev.tk.step w).2 ≠ [] →
    exec (wordCommand (wordMode w) bp) s = .next (s.after fun d => (d.actedBy bp).addFaults (d.result bp d.tk.step w).2)) ∧
  (∀ (s : State) (bp w : Nat), s.dev.fetches bp w = true → s.dev.fetchFaults bp (.clean w) = [] → wordMode w ≠ 0 → (s.dev.result bp s.dev.tk.step w).2 = [] →
    s.dev.overBudget (bp / 4096) s.dev.tk.step = true → exec (wordCommand (wordMode w) bp) s = .next (s.after (Dev.actedBy bp))) ∧
  (∀ (s : State) (bp w r : Nat), s.dev.fetches bp w = true → s.dev.fetchFaults bp (.clean w) = [] → wordMode w ≠ 0 → s.dev.result bp s.dev.tk.step w = (r, []) →
    s.dev.overBudget (bp / 4096) s.dev.tk.step = false → s.dev.actFaults bp w r ≠ [] →
    exec (wordCommand (wordMode w) bp) s = .next (s.after fun d => ((d.actedBy bp).addFaults (d.actFaults bp w r)).addActs (wordAct bp w r false))) ∧
  (∀ (s : State) (row bp : Nat), row ≤ 0xD → bp < s.dev.bps → (s.dev.toAct bp = false ∨ (s.dev.fetch bp s.dev.tk.step).row ≠ row) →
    exec (wordCommand row bp) s = .next s) ∧
  (∀ (s : State) (row bp : Nat), s.dev.bps ≤ bp → exec (wordCommand row bp) s = .fault .noSuchUnit)

/-- spec/02 R47 whole: the LK7 evaluates TT for every MODE other than NOP. -/
def Obligations.ResultIsTruthTable : Prop :=
  ∀ (s : State) (bp w a b c e : Nat), s.dev.evaluates bp w a b c e = true → wordMode w ≠ 0 →
    ∃ t, exec (wordCommand (wordMode w) bp) s = .next t ∧
      t.dev.stepEntry bp s.dev.tk.step = wordTt w / 2 ^ (e * 8 + c * 4 + b * 2 + a) % 2 ∧
      ∀ i j, i * 2048 + j ≠ bp * 2048 + s.dev.tk.step → t.dev.stepEntry i j = s.dev.stepEntry i j

/-- spec/02 R40, R65, spec/03 R74: the extended Hamming code of instruction words and selection entries. -/
def Obligations.SecdedCode : Prop :=
  ∀ (w data : Nat), (w = 96 ∨ w = 64) → data < 2 ^ w →
    decodeEcc w (encodeEcc w data) = .clean data ∧
    (∀ k, k < w + 8 → decodeEcc w (encodeEcc w data ^^^ 2 ^ k) = .corrected data) ∧
    (∀ j k, j < w + 8 → k < w + 8 → j ≠ k → ∃ x z, decodeEcc w (encodeEcc w data ^^^ 2 ^ j ^^^ 2 ^ k) = .bad x z)

/-- spec/05 R126 to R128 and R132: BANK_ARRAY_CYCLE. -/
def Obligations.BankArrayCycle : Prop :=
  (∀ (s : State) (g p : Nat) (a b : Acc), g < s.dev.g2s → p < 2 → s.dev.joined g = false →
    SMap.look s.dev.arr.acc (g * 2 + p) = some a → a.write = 0 → a.done = false → SMap.look s.dev.arr.acc (g * 2 + (1 - p)) = some b → b.write = 1 → b.done = false →
    exec (.bankArrayCycle g) s = .next (s.after fun d =>
      { d with arr := { d.arr with acc := SMap.ins (SMap.ins d.arr.acc (g * 2 + p) { a with done := true, word := some (d.bankRead g a.addr) }) (g * 2 + (1 - p)) { b with done := true } } }.bankWrite g b.addr b.wdata)) ∧
  (∀ (s : State) (g p : Nat) (a : Acc), g < s.dev.g2s → p < 2 → s.dev.joined g = false →
    SMap.look s.dev.arr.acc (g * 2 + p) = some a → a.write = 0 → a.done = false → SMap.look s.dev.arr.acc (g * 2 + (1 - p)) = none →
    exec (.bankArrayCycle g) s = .next (s.after fun d =>
      { d with arr := { d.arr with acc := SMap.ins d.arr.acc (g * 2 + p) { a with done := true, word := some (d.bankRead g a.addr) } } })) ∧
  (∀ (s : State) (g p : Nat) (b : Acc), g < s.dev.g2s → p < 2 → s.dev.joined g = false →
    SMap.look s.dev.arr.acc (g * 2 + p) = some b → b.write = 1 → b.done = false → SMap.look s.dev.arr.acc (g * 2 + (1 - p)) = none →
    exec (.bankArrayCycle g) s = .next (s.after fun d => { d with arr := { d.arr with acc := SMap.ins d.arr.acc (g * 2 + p) { b with done := true } } }.bankWrite g b.addr b.wdata)) ∧
  (∀ (s : State) (l g : Nat) (a b : Acc), l + 1 < s.dev.g2s → l % 2 = 0 → (g = l ∨ g = l + 1) → s.dev.rdAt R.BANK.BANK_CTRL_JOIN l 0 = 1 →
    SMap.look s.dev.arr.acc (l * 2) = some a → a.write = 1 → a.done = false → SMap.look s.dev.arr.acc (l * 2 + 3) = some b → b.write = 1 → b.done = false →
    SMap.look s.dev.arr.acc (l * 2 + 1) = none → SMap.look s.dev.arr.acc (l * 2 + 2) = none →
    a.seq = b.seq → s.dev.bankWord l a.addr = s.dev.bankWord l b.addr →
    ∃ t, exec (.bankArrayCycle g) s = .next t ∧ t.dev.arr.banks = (s.dev.bankWrite l a.addr a.wdata).arr.banks ∧
      t.dev.rdAt R.BANK.DROP_COUNT l 0 = min (s.dev.rdAt R.BANK.DROP_COUNT l 0 + 1) (2 ^ 32 - 1) ∧
      SMap.get t.dev.arr.coll (l * 2 + 3) = b.seq + 3) ∧
  (∀ (d : Dev) (g addr v : Nat), d.rdAt R.BANK.BANK_CTRL_ASPECT (d.bankPage g) 0 < 6 →
    (d.bankWrite g addr v).bankRead g addr = v % 2 ^ aspectBits (d.rdAt R.BANK.BANK_CTRL_ASPECT (d.bankPage g) 0)) ∧
  (∀ (s : State) (g : Nat), s.dev.g2s ≤ g → exec (.bankArrayCycle g) s = .fault .noSuchUnit)

/-- spec/05 R143, R147, R150, R153: FAR_RESPONSE. -/
def Obligations.FarResponseIsHeld : Prop :=
  (∀ (s : State) (g id : Nat) (v : MemView) (q : FarReq), g < s.dev.g4s → SMap.look s.dev.arr.farReq (g * 2 ^ 32 + id) = some q → q.answered = false →
    s.dev.farBehind g id q = false →
    match (if q.write = 1 then s.dev.dmaWrite (s.dev.rdAt R.FAR.FAR_CTRL_CTX g 0) (s.dev.farDva g q) (leBytes q.data 64) v
      else s.dev.dmaRead 0 (s.dev.rdAt R.FAR.FAR_CTRL_CTX g 0) (s.dev.farDva g q) 64 v) with
    | (.done bs, _, d1) => exec (.farResponse g id v) s = .next (s.after fun _ => (d1.holdResponse (g * 2 ^ 32 + id) g q (if q.write = 1 then ⟨2, 0⟩ else ⟨1, leNat bs⟩)).wakeDdr 0x14C true)
    | (.fence f, _, d1) => exec (.farResponse g id v) s = .next (s.after fun _ => ((((d1.fenceStatus f).dropRequest (g * 2 ^ 32 + id)).farTranslation g q).rewait).wakeDdr 0x14C true)
    | (.xlate _ _, _, d1) | (.hostError, _, d1) =>
      exec (.farResponse g id v) s = .next (s.after fun _ => (((d1.dropRequest (g * 2 ^ 32 + id)).farTranslation g q).rewait).wakeDdr 0x14C true)
    | (.poison pa, _, d1) => exec (.farResponse g id v) s = .next (s.after fun _ => (((d1.dropRequest (g * 2 ^ 32 + id)).farStop (d1.uncorrectable 0 pa)).rewait).wakeDdr 0x14C true)
    | (.wait, _, d1) => exec (.farResponse g id v) s = .next (s.after fun _ => d1.wakeDdr 0x14C true)) ∧
  (∀ (d : Dev) (g id : Nat) (q : FarReq) (e : FarEntry),
    (q.discard = true → d.holdResponse (g * 2 ^ 32 + id) g q e = { d with arr := { d.arr with farReq := SMap.del d.arr.farReq (g * 2 ^ 32 + id) } }) ∧
    (q.discard = false → SMap.get (d.holdResponse (g * 2 ^ 32 + id) g q e).arr.farPend (g * 16 + q.entry) = e ∧
      SMap.look (d.holdResponse (g * 2 ^ 32 + id) g q e).arr.farReq (g * 2 ^ 32 + id) = some { q with answered := true } ∧
      (d.holdResponse (g * 2 ^ 32 + id) g q e).regs = d.regs ∧ (d.holdResponse (g * 2 ^ 32 + id) g q e).arr.banks = d.arr.banks)) ∧
  (∀ (d : Dev) (g : Nat) (q : FarReq) (d1 : Dev) (r : FRec), d1 = (d.wrAt R.FAR.FAR_STATUS_XLATE_FAULT g 0 1).wrAt R.FAR.FAULT_DVA g 0 (d.farDva g q) →
    r = d.groupFault 0x18 3 4 (g * 4096) (d.farDva g q % 2 ^ 48 + q.window * 2 ^ 48 + q.step * 2 ^ 52 + q.write * 2 ^ 63) →
    d.farTranslation g q = (if d1.running = false then d1.report r true else if d1.frozen = true then d1.faultStop [r] else d1.addFaults [r])) ∧
  (∀ (s : State) (g id : Nat) (v : MemView), g < s.dev.g4s →
    (SMap.look s.dev.arr.farReq (g * 2 ^ 32 + id) = none ∨ ∃ q, SMap.look s.dev.arr.farReq (g * 2 ^ 32 + id) = some q ∧ (q.answered = true ∨ s.dev.farBehind g id q = true)) →
    exec (.farResponse g id v) s = .next (s.after (Dev.wakeDdr 0x14C true))) ∧
  (∀ (s : State) (g id : Nat) (v : MemView), s.dev.g4s ≤ g → exec (.farResponse g id v) s = .fault .noSuchUnit)

/-- spec/05 R136, R140, R154: BANK_CTRL_WRITE and FAR_CTRL_WRITE. The refusal of a SIZE_LOG2 outside 16 to 40 is a choice of the model (assumption log). -/
def Obligations.BankAndFarControl : Prop :=
  (∀ (s : State) (g w t : Nat), g < 4096 → s.dev.reaches (0x1000 + g) = true →
    (s.dev.bankPage g ≠ g ∨ 6 ≤ fieldAt w 0 3 ∨ fieldAt w 4 2 = 3 ∨
      s.dev.running = true ∧ (fieldAt w 0 3 ≠ s.dev.rdAt R.BANK.BANK_CTRL_ASPECT g 0 ∨ g % 2 = 0 ∧ bitAt w 3 ≠ s.dev.rdAt R.BANK.BANK_CTRL_JOIN g 0)) →
    exec (.bankCtrlWrite g w t) s = .next (s.after fun d => (d.atWrite t).wrAt R.BANK.BANK_STATUS_WRITE_REFUSED g 0 1)) ∧
  (∀ (s : State) (g w t : Nat), g < 4096 → s.dev.reaches (0x1000 + g) = true → s.dev.bankPage g = g → fieldAt w 0 3 < 6 → fieldAt w 4 2 ≠ 3 → s.dev.running = true →
    fieldAt w 0 3 = s.dev.rdAt R.BANK.BANK_CTRL_ASPECT g 0 → (g % 2 = 0 → bitAt w 3 = s.dev.rdAt R.BANK.BANK_CTRL_JOIN g 0) →
    ∃ u, exec (.bankCtrlWrite g w t) s = .next u ∧ u.envelope = s.envelope ∧ u.pending = s.pending ∧ u.dev.arr = s.dev.arr ∧
      u.dev.rdAt R.BANK.BANK_CTRL_OWNER g 0 = fieldAt w 4 2 ∧ u.dev.bankOwner g = s.dev.bankOwner g ∧
      u.dev.rdAt R.BANK.BANK_STATUS_HANDOVER_PENDING g 0 = bit (decide (s.dev.bankOwner g ≠ fieldAt w 4 2))) ∧
  (∀ (s : State) (g w t : Nat), g < 4096 → s.dev.reaches (0x1000 + g) = true → s.dev.bankPage g = g → fieldAt w 0 3 < 6 → fieldAt w 4 2 ≠ 3 → s.dev.running = false →
    exec (.bankCtrlWrite g w t) s = .next (s.after fun d =>
      ((((d.atWrite t).setBankShape g (fieldAt w 0 3) (bitAt w 3)).wrAt R.BANK.BANK_CTRL_OWNER g 0 (fieldAt w 4 2)).wrAt R.BANK.BANK_STATUS_HANDOVER_PENDING g 0
        (bit (((d.atWrite t).setBankShape g (fieldAt w 0 3) (bitAt w 3)).bankOwner g != fieldAt w 4 2))).handovers)) ∧
  (∀ (s : State) (g off w t : Nat), g < 64 → s.dev.reaches (0x400 + g) = true →
    (s.dev.running = true ∨ 0x80 ≤ off ∧ off % 16 = 8 ∧ (fieldAt w 8 6 < 16 ∨ 40 < fieldAt w 8 6)) →
    exec (.farCtrlWrite g off w t) s = .next (s.after fun d => (d.atWrite t).wrAt R.FAR.FAR_STATUS_WRITE_REFUSED g 0 1)) ∧
  (∀ (s : State) (g w t : Nat), g < 64 → s.dev.reaches (0x400 + g) = true → s.dev.running = false →
    exec (.farCtrlWrite g 0x40 w t) s = .next (s.after fun d => ((d.atWrite t).wrAt R.FAR.FAR_CTRL_ENABLE g 0 w).wrAt R.FAR.FAR_CTRL_CTX g 0 (w / 2))) ∧
  (∀ (s : State) (g k w t : Nat), g < 64 → k < 16 → s.dev.reaches (0x400 + g) = true → s.dev.running = false →
    exec (.farCtrlWrite g (0x80 + 16 * k) w t) s = .next (s.after fun d => (d.atWrite t).wrAt R.FAR.WIN_BASE g k (putField (d.rdAt R.FAR.WIN_BASE g k) 0 16 (w / 2 ^ 16))) ∧
    exec (.farCtrlWrite g (0x84 + 16 * k) w t) s = .next (s.after fun d => (d.atWrite t).wrAt R.FAR.WIN_BASE g k (putField (d.rdAt R.FAR.WIN_BASE g k) 16 16 w)) ∧
    (16 ≤ fieldAt w 8 6 ∧ fieldAt w 8 6 ≤ 40 → exec (.farCtrlWrite g (0x88 + 16 * k) w t) s = .next (s.after fun d =>
      (((d.atWrite t).wrAt R.FAR.WIN_CFG_VALID g k w).wrAt R.FAR.WIN_CFG_WRITABLE g k (w / 2)).wrAt R.FAR.WIN_CFG_SIZE_LOG2 g k (w / 2 ^ 8))))

/-- spec/04 R94, R104, R105, R121, spec/02 R66: BELAY_ENTRY and BELAY_CONDITIONS_MET. -/
def Obligations.BelayEntryAndConditions : Prop :=
  (∀ (s : State) (b : Nat), s.dev.tk.phase = .ended → s.dev.tk.peerStop = none → s.dev.tk.linkStop = false → s.dev.running = true →
    b = (s.dev.tk.belay + 1) % max 1 s.dev.tk.pitches → b ≠ 0 →
    exec .belayEntry s = .next (s.after fun d =>
      let d0 := d.bankCycles.deliverReads
      { d0 with tk := { d0.tk with belay := b, phase := .waiting, waits := 0 } }.openBelay)) ∧
  (∀ (s : State), s.dev.tk.phase = .ended → s.dev.tk.peerStop = none → s.dev.tk.linkStop = false → (s.dev.tk.belay + 1) % max 1 s.dev.tk.pitches = 0 →
    exec .belayEntry s = .next (s.after fun d =>
      let d0 := d.bankCycles.deliverReads
      let d1 := { d0 with tk := { d0.tk with belay := 0, phase := .waiting, waits := 0 } }
      let d2 := if d1.badShadows = [] then d1.closeTake else d1.faultStop (orderFaults d1.badShadows)
      if d2.running then d2.openBelay else d2)) ∧
  (∀ (s : State) (p : Nat), s.dev.tk.phase = .ended → s.dev.tk.peerStop = some p →
    exec .belayEntry s = .next (s.after fun d => d.bankCycles.deliverReads.peerStopped p)) ∧
  (∀ (s : State), s.dev.tk.phase = .ended → s.dev.tk.peerStop = none → s.dev.tk.linkStop = true →
    exec .belayEntry s = .next (s.after fun d => d.bankCycles.deliverReads.linkStopped)) ∧
  (∀ (s : State), s.dev.tk.phase ≠ .ended → exec .belayEntry s = .next s) ∧
  (∀ (s : State) (t : Nat), s.dev.tk.phase = .waiting → (s.dev.toTime t).unmet = 0 → s.dev.tk.hold ≤ (s.dev.toTime t).mono →
    (s.dev.toTime t).rewait.stealDue = false → (s.dev.tk.belay = 0 → s.dev.edge.present.length < 16) →
    exec (.belayConditionsMet t) s = .next (s.after fun d =>
      let d1 := d.toTime t
      let d2 := { d1 with tk := { d1.tk with waits := 0, phase := .met } }
      if d2.linked then d2.sendReady else d2)) ∧
  (∀ (s : State) (t : Nat), (s.dev.tk.phase ≠ .waiting ∨ (s.dev.toTime t).unmet ≠ 0 ∨ (s.dev.toTime t).mono < s.dev.tk.hold ∨ (s.dev.toTime t).rewait.stealDue = true ∨
      s.dev.tk.belay = 0 ∧ 16 ≤ s.dev.edge.present.length) →
    exec (.belayConditionsMet t) s = .next s)

/-- spec/04 R105, R109 to R112, R116 to R118: BELAY_RELEASE, BELAY_TIMEOUT and TICK_EDGE. -/
def Obligations.BelayReleaseTimeoutTick : Prop :=
  (∀ (s : State) (t : Nat), s.dev.tk.phase = .met → (s.dev.linked = false ∨ ∃ r, s.dev.tk.release = some r ∧ r ≤ (s.dev.toTime t).now) →
    ∃ u, exec (.belayRelease t) s = .next u ∧ u = s.after (fun d => (d.toTime t).runRelease) ∧ u.dev.tk.phase = .stepping ∧
      u.dev.tk.step = fieldAt ((s.dev.toTime t).mapEntry s.dev.tk.belay) 0 11 ∧ u.dev.tk.acted = [] ∧ u.dev.tk.stage = [] ∧ u.dev.tk.waits = 0) ∧
  (∀ (s : State) (t : Nat), (s.dev.tk.phase ≠ .met ∨ s.dev.linked = true ∧ (s.dev.tk.release = none ∨ ∃ r, s.dev.tk.release = some r ∧ (s.dev.toTime t).now < r)) → exec (.belayRelease t) s = .next s) ∧
  (∀ (s : State) (t : Nat), (s.dev.toTime t).timerCounts = true → fieldAt ((s.dev.toTime t).mapEntry s.dev.tk.belay) 24 10 * usec ≤ (s.dev.toTime t).tk.waited →
    (s.dev.tk.belay ≠ 0 ∨ s.dev.rd R.TAKE.TAKE_NUMBER ≠ 0) →
    exec (.belayTimeout t) s = .next (s.after fun d => (d.toTime t).faultStop [(d.toTime t).timeoutRecord])) ∧
  (∀ (s : State) (t : Nat), ((s.dev.toTime t).timerCounts = false ∨ (s.dev.toTime t).tk.waited < fieldAt ((s.dev.toTime t).mapEntry s.dev.tk.belay) 24 10 * usec ∨
      s.dev.tk.belay = 0 ∧ s.dev.rd R.TAKE.TAKE_NUMBER = 0) → exec (.belayTimeout t) s = .next s) ∧
  (∀ (s : State) (t u : Nat) (f : Fate) (rest : List (Nat × Fate)), s.dev.tk.ticks = (u, f) :: rest → (s.dev.toTime t).edgeReached u = true → s.dev.isMaster = true →
    exec (.tickEdge t) s = .next (s.after fun d =>
      let d1 := d.toTime t
      let d2 := { d1 with tk := { d1.tk with ticks := rest } }
      (if f = .starts then { d2 with tk := { d2.tk with tick := some u } } else d2.missTick u f).rewait)) ∧
  (∀ (s : State) (t : Nat), (s.dev.tk.ticks = [] ∨ ∃ u f rest, s.dev.tk.ticks = (u, f) :: rest ∧ ((s.dev.toTime t).edgeReached u = false ∨ s.dev.isMaster = false)) →
    exec (.tickEdge t) s = .next s)

/-- spec/16 R410 to R412, R418, R419, spec/18 R491, spec/04 R124, R125, spec/06 R171, spec/14 R371: START, HALT, TAKE_WATCHDOG, WDOG_PERIOD_US_WRITE, TAKE_CTRL_WRITE, CHECK_CTRL_WRITE and INJECT_THROUGH_WRITE. -/
def Obligations.RunControl : Prop :=
  (∀ (s : State) (w t : Nat) (d1 : Dev), s.dev.reaches 0x15 = true → bitAt w 1 = 0 → s.dev.running = false → d1 = (s.dev.atRunCtrl (w ||| 1) t).checkedStart → d1.startReason = none →
    (d1.checkPorts.all fun p => (d1.port p).peerDigest.isSome) = true → s.dev.on R.CLK.CLK_STATUS_STEP_LOCKED = true → exec (.start w t) s = .next (s.after fun _ => d1.beginRun)) ∧
  (∀ (s : State) (w t : Nat) (d1 : Dev), s.dev.reaches 0x15 = true → bitAt w 1 = 0 → s.dev.running = false → d1 = (s.dev.atRunCtrl (w ||| 1) t).checkedStart → d1.startReason = none →
    (d1.checkPorts.all fun p => (d1.port p).peerDigest.isSome) = true → s.dev.on R.CLK.CLK_STATUS_STEP_LOCKED = false →
    exec (.start w t) s = .next (s.after fun _ => { d1 with tk := { d1.tk with startWait := true } })) ∧
  (∀ (s : State) (w t : Nat) (d1 : Dev), s.dev.reaches 0x15 = true → bitAt w 1 = 0 → s.dev.running = false → d1 = (s.dev.atRunCtrl (w ||| 1) t).checkedStart → d1.startReason = none →
    (d1.checkPorts.all fun p => (d1.port p).peerDigest.isSome) = false → exec (.start w t) s = .next (s.after fun _ => { d1 with tk := { d1.tk with startHeld := true } })) ∧
  (∀ (s : State) (w t code : Nat) (d1 : Dev), s.dev.reaches 0x15 = true → bitAt w 1 = 0 → s.dev.running = false → d1 = (s.dev.atRunCtrl (w ||| 1) t).checkedStart →
    d1.startReason = some code → exec (.start w t) s = .next (s.after fun _ => d1.refuseStart code)) ∧
  (∀ (s : State) (w t : Nat), s.dev.reaches 0x15 = true → bitAt w 1 = 0 → s.dev.running = true → exec (.start w t) s = .next (s.after fun d => d.atRunCtrl (w ||| 1) t)) ∧
  (∀ (s : State) (w t : Nat), s.dev.reaches 0x15 = true → bitAt w 0 = 0 →
    exec (.halt w t) s = .next (s.after fun d =>
      let d1 := d.atRunCtrl (w ||| 2) t
      ({ d1 with tk := { d1.tk with startWait := false, startHeld := false } }.requestHalt 1 d1.position).powerDue)) ∧
  (∀ (s : State) (t : Nat), s.dev.running = true → s.dev.tk.wdOn = true → s.dev.rd R.RUN.WDOG_PERIOD_US ≠ 0 → (s.dev.toTime t).tk.wdLeft = 0 →
    exec (.takeWatchdog t) s = .next (s.after fun d =>
      let d1 := d.toTime t
      ((({ d1 with tk := { d1.tk with wdOn := false } }.wr R.RUN.RUN_STATUS_HALT_CAUSE 6).report d1.watchdogRecord false).event 0x7A2).stopForSafe 0x23)) ∧
  (∀ (s : State) (t : Nat), (s.dev.running = false ∨ s.dev.tk.wdOn = false ∨ s.dev.rd R.RUN.WDOG_PERIOD_US = 0 ∨ (s.dev.toTime t).tk.wdLeft ≠ 0) →
    exec (.takeWatchdog t) s = .next s) ∧
  (∀ (s : State) (w t : Nat), s.dev.reaches 0x15 = true →
    exec (.wdogPeriodUsWrite w t) s = .next (s.after fun d => if d.running then (d.atWrite t).wr R.RUN.RUN_STATUS_WRITE_REFUSED 1 else (d.atWrite t).wr R.RUN.WDOG_PERIOD_US w)) ∧
  (∀ (s : State) (w t : Nat), s.dev.reaches 0x12 = true →
    exec (.takeCtrlWrite w t) s = .next (s.after fun d =>
      if d.running then (d.atWrite t).wr R.TAKE.TAKE_STATUS_WRITE_REFUSED 1
      else (((((d.atWrite t).wr R.TAKE.TAKE_CTRL_MODE w).wr R.TAKE.TAKE_CTRL_TB_SEL (w / 2)).wr R.TAKE.TAKE_CTRL_DEADLINE_RESP (w / 2 ^ 4)).wr R.TAKE.TAKE_CTRL_LOST_RESP (w / 2 ^ 6)).wr
        R.TAKE.TAKE_CTRL_STEAL_LIMIT (w / 2 ^ 8))) ∧
  (∀ (s : State) (w t : Nat), s.dev.reaches 0x13 = true →
    exec (.checkCtrlWrite w t) s = .next (s.after fun d => if d.running then (d.atWrite t).wr R.CHECK.CHECK_STATUS_WRITE_REFUSED 1 else (d.atWrite t).wr R.CHECK.CHECK_CTRL_ENABLE w)) ∧
  (∀ (s : State) (w t : Nat), s.dev.reaches 0x12 = true →
    ∃ u, exec (.injectThroughWrite w t) s = .next u ∧ u.envelope = s.envelope ∧ u.pending = s.pending ∧ u.dev.arr = s.dev.arr ∧
      u.dev.rd R.TAKE.INJECT_THROUGH =
        (s.dev.stagedLow (R.TAKE.INJECT_THROUGH.key 0 0) (s.dev.rd R.TAKE.INJECT_THROUGH) + w % 2 ^ 16 * 2 ^ 32) % 2 ^ 48 ∧
      ∀ q, q < 64 → SMap.get u.dev.eng.tails q = s.dev.rdAt R.ENGQ.SQ_TAIL q 0 + 1)

/-- spec/07 R187, R196, R198, R203 to R206: SLATE. -/
def Obligations.SlateIsJudged : Prop :=
  (∀ (s : State) (bs : Bytes) (v : MemView) (t : Nat), s.dev.takesReels = true → bs.length = 4096 → (s.dev.toTime t).slateFault bs = none → s.dev.dbg.erasing = false → slatePartial bs = false →
    s.dev.running = false →
    exec (.slate bs v t) s = .next (s.after fun d => if d.loadState = 1 then (d.toTime t).loadIncomplete.acceptFull bs v else (d.toTime t).acceptFull bs v)) ∧
  (∀ (s : State) (bs : Bytes) (v : MemView) (t : Nat), s.dev.takesReels = true → bs.length = 4096 → (s.dev.toTime t).slateFault bs = none → s.dev.dbg.erasing = false → slatePartial bs = false →
    s.dev.running = true → exec (.slate bs v t) s = .next (s.after fun d => (d.toTime t).wr R.LOAD.LOAD_STATUS_RUN_REFUSED 1)) ∧
  (∀ (s : State) (bs : Bytes) (v : MemView) (t : Nat), s.dev.takesReels = true → bs.length = 4096 → (s.dev.toTime t).slateFault bs = none → s.dev.dbg.erasing = false → slatePartial bs = true →
    exec (.slate bs v t) s = .next (s.after fun d =>
      if leAt bs 0x200 1 = 1 ∧ d.running ∧ d.rd R.LOAD.FENCE_TAKE ≤ d.rd R.TAKE.TAKE_NUMBER then (d.toTime t).wr R.LOAD.LOAD_STATUS_FENCE_PASSED 1
      else (d.toTime t).acceptPartial bs)) ∧
  (∀ (s : State) (bs : Bytes) (v : MemView) (t code : Nat), s.dev.takesReels = true → bs.length = 4096 → (s.dev.toTime t).slateFault bs = some code →
    exec (.slate bs v t) s = .next (s.after fun d => (d.toTime t).loadFault code 0 0)) ∧
  (∀ (s : State) (bs : Bytes) (v : MemView) (t : Nat), s.dev.takesReels = true → bs.length = 4096 → (s.dev.toTime t).slateFault bs = none → s.dev.dbg.erasing = true →
    exec (.slate bs v t) s = .next (s.after fun d => (d.toTime t).emit .wait)) ∧
  (∀ (s : State) (bs : Bytes) (v : MemView) (t : Nat), s.dev.takesReels = true → bs.length < 4096 → exec (.slate bs v t) s = .next (s.after fun d => (d.toTime t).wr R.LOAD.LOAD_STATUS_UNIT_SPLIT 1)) ∧
  (∀ (s : State) (bs : Bytes) (v : MemView) (t : Nat), s.dev.takesReels = false → exec (.slate bs v t) s = .next (s.after (Dev.toTime · t)))

/-- spec/07 R188 to R190, R197, R198: INSTR, STATE, BANK, LANE, PITCH, EDGE, PIN and TIMEBASE. -/
def Obligations.FrameIsWritten : Prop :=
  (∀ (s : State) (ty : Nat) (bs : Bytes) (v : MemView) (t : Nat), 1 ≤ ty → ty ≤ 8 → s.dev.takesReels = true →
    (∀ d1, s.dev.wholeFrame ty bs = true → (s.dev.toTime t).frameWaits bs = (false, d1) → d1.frameFits bs = true → slateSecure d1.ld.slate = false →
      d1.frameAddrOk ty (frameAddr bs) (frameLen bs) = true → d1.payloadBad ty (frameAddr bs) (bs.drop 32) = none →
      ∃ d3, exec (frameCommand ty bs v t) s = .next { s with dev := d3 } ∧
        let d2 := { d1 with ld := { d1.ld with frames := d1.ld.frames ++ bs, expected := d1.ld.expected + 1 } }.installFrame ty (frameAddr bs) (bs.drop 32)
        let d4 := { d2 with ld := { d2.ld with targets := frameTarget bs :: d2.ld.targets } }.wr R.LOAD.FRAMES_WRITTEN (d2.rd R.LOAD.FRAMES_WRITTEN + 1)
        d3 = if d4.rd R.LOAD.FRAMES_WRITTEN = d4.rd R.LOAD.FRAME_COUNT then d4.verifyLoad else d4) ∧
    (∀ d1, s.dev.wholeFrame ty bs = true → (s.dev.toTime t).frameWaits bs = (false, d1) → d1.frameFits bs = true → slateSecure d1.ld.slate = true → d1.ld.secureKey ≠ none →
      frameFlags bs ≠ 1 → exec (frameCommand ty bs v t) s = .next (s.after fun _ =>
        let d2 := { d1 with ld := { d1.ld with frames := d1.ld.frames ++ bs, expected := d1.ld.expected + 1, staging := d1.ld.staging ++ [bs] } }
        if d2.rd R.LOAD.FRAMES_WRITTEN = d2.rd R.LOAD.FRAME_COUNT then d2.verifyLoad else d2)) ∧
    (∀ d1 code x, s.dev.wholeFrame ty bs = true → (s.dev.toTime t).frameWaits bs = (false, d1) → frameFault bs d1 = some (code, x) →
      exec (frameCommand ty bs v t) s = .next (s.after fun _ => d1.failLoad code (frameIndex bs) x)) ∧
    (∀ d1, s.dev.loadState = 1 → leAt bs 0 4 ≠ 0x4C524B4C → frameType bs = ty → bs.length = 32 + frameLen bs → (s.dev.toTime t).frameWaits bs = (false, d1) → frameCrcOk bs = false →
      exec (frameCommand ty bs v t) s = .next (s.after fun _ => (d1.wr R.LOAD.LOAD_STATUS_CRC_RETRY 1).loadFault 0x43 (frameIndex bs) 0)) ∧
    (∀ d1, s.dev.loadState = 1 → leAt bs 0 4 ≠ 0x4C524B4C → frameType bs = ty → bs.length = 32 + frameLen bs → (s.dev.toTime t).frameWaits bs = (true, d1) →
      exec (frameCommand ty bs v t) s = .next (s.after fun _ => d1.emit .wait)) ∧
    (s.dev.loadState = 1 → leAt bs 0 4 ≠ 0x4C524B4C → frameType bs = ty → bs.length < 32 + frameLen bs →
      exec (frameCommand ty bs v t) s = .next (s.after fun d => (d.toTime t).wr R.LOAD.LOAD_STATUS_UNIT_SPLIT 1)) ∧
    (frameType bs ≠ ty → exec (frameCommand ty bs v t) s = .next (s.after (Dev.toTime · t)))) ∧
  (∀ (s : State) (ty : Nat) (bs : Bytes) (v : MemView) (t : Nat), 1 ≤ ty → ty ≤ 8 → s.dev.takesReels = false →
    exec (frameCommand ty bs v t) s = .next (s.after (Dev.toTime · t)))

/-- spec/07 R190, spec/05 R141, spec/03 R73, spec/02 R40: the payloads of INSTR, STATE, BANK, LANE and PITCH frames. -/
def Obligations.FramePayloads : Prop :=
  (∀ (d : Dev) (a : Nat) (p : Bytes) (q : Nat),
    SMap.get (d.installInstr a p).arr.cols q =
      let base := a % 2 ^ 18 * 2048 + a / 2 ^ 18 % 8 * 256
      if base ≤ q ∧ q < base + p.length / 12 then encodeEcc 96 (leAt p (12 * (q - base)) 12) else SMap.get d.arr.cols q) ∧
  (∀ (d : Dev) (a : Nat) (p : Bytes) (r : Nat),
    SMap.get (d.installState a p).arr.stateRows r = if a * 4096 ≤ r ∧ r < (a + 1) * 4096 then leAt p (r - a * 4096) 1 else SMap.get d.arr.stateRows r) ∧
  (∀ (d : Dev) (a : Nat) (p : Bytes) (x : Nat), a / 2 ^ 28 ≠ 0 →
    SMap.get (d.installBank a p).arr.banks x =
      let base := a / 2 ^ 16 % 2 ^ 12 * 0x10000 + a % 32 * 4096
      if base ≤ x ∧ x < base + p.length then p.getD (x - base) 0 else SMap.get d.arr.banks x) ∧
  (∀ (d : Dev) (a : Nat) (p : Bytes) (q : Nat), segTy a ≠ 0xB →
    SMap.get (d.installLane a p).arr.selTab q =
      if a * 512 ≤ q ∧ q < a * 512 + (p.length + 7) / 8 then encodeEcc 64 (leAt p (8 * (q - a * 512)) 8) else SMap.get d.arr.selTab q) ∧
  (∀ (d : Dev) (a b : Nat) (p : Bytes),
    SMap.get (d.installPitch a p).arr.injTab b = if b = a then (List.range (p.length / 4)).map (fun i => leAt p (4 * i) 4) else SMap.get d.arr.injTab b)

/-- spec/07 R198, R200, R206, R207: END, STATE_ACK, REGION_RELEASE and PRODUCTION_ID_WRITE. -/
def Obligations.LoadControl : Prop :=
  (∀ (s : State) (t : Nat), s.dev.reaches 0x14 = true →
    exec (.loadEnd t) s = .next (s.after fun d => if d.loadState = 1 then (d.atWrite t).loadIncomplete.refreshTrained else d.atWrite t)) ∧
  (∀ (s : State) (t : Nat), s.dev.reaches 0x14 = true → exec (.stateAck t) s = .next (s.after fun d => (d.atWrite t).wr R.LOAD.LOAD_STATUS_STATE_CLEARED 0)) ∧
  (∀ (s : State) (t : Nat), s.dev.reaches 0x14 = true → s.dev.loadState = 2 →
    ∃ e0 : SMap Nat, exec (.regionRelease t) s = .next (s.after fun d => { d.atWrite t with edge := { d.edge with regionE0 := e0 } }) ∧
      ∀ r, SMap.get e0 r = if r ∈ s.dev.edge.fenced ∧ SMap.get s.dev.edge.regionE0 r = 0 then (s.dev.atWrite t).releaseEdge + 1 else SMap.get s.dev.edge.regionE0 r) ∧
  (∀ (s : State) (t : Nat), s.dev.reaches 0x14 = true → s.dev.loadState ≠ 2 → exec (.regionRelease t) s = .next (s.after (Dev.atWrite · t))) ∧
  (∀ (s : State) (hi w t : Nat), s.dev.reaches 0x14 = true →
    exec (.productionIdWrite hi w t) s = .next (s.after fun d =>
      if d.loadState = 1 then d.atWrite t else (d.atWrite t).wr R.LOAD.PRODUCTION_ID (putField (d.rd R.LOAD.PRODUCTION_ID) (32 * hi) 32 w)))

/-- spec/08 R227, R228, R230, spec/04 R113: PRESENTATION. -/
def Obligations.PresentationShowsTheTake : Prop :=
  (∀ (s : State) (t e m n b : Nat) (rest : List (Nat × Nat)) (lanes : SMap Nat) (ps : List (Nat × SMap Nat × Nat)),
    s.dev.edge.instants = (e, m) :: rest → e ≤ s.dev.edge.edges → s.dev.runState ≠ 3 → m ≥ s.dev.edge.nextTake →
    s.dev.edge.present = (n, lanes, b) :: ps → n = s.dev.edge.nextTake → b + 2 * s.dev.edge.gctPeriod ≤ (s.dev.toTime t).now →
    ∃ u, exec (.presentation t) s = .next u ∧ u = s.after (fun d => { d.toTime t with edge := { d.edge with instants := rest } }.showTake n lanes) ∧
      u.dev.edge.shown = lanes ∧ u.dev.edge.nextTake = n + 1 ∧ u.dev.edge.present = ps) ∧
  (∀ (s : State) (t e m : Nat) (rest : List (Nat × Nat)), s.dev.edge.instants = (e, m) :: rest → e ≤ s.dev.edge.edges → s.dev.runState ≠ 3 → m ≥ s.dev.edge.nextTake →
    (s.dev.toTime t).readyTake = none →
    exec (.presentation t) s = .next (s.after fun d =>
      ((({ d.toTime t with edge := { d.edge with instants := rest } } : Dev).bump R.EDGE.HELD_COUNT).count 0xB2 9 1).event 0x002)) ∧
  (∀ (s : State) (t e m : Nat) (rest : List (Nat × Nat)), s.dev.edge.instants = (e, m) :: rest → e ≤ s.dev.edge.edges → (s.dev.runState = 3 ∨ m < s.dev.edge.nextTake) →
    exec (.presentation t) s = .next (s.after fun d => { d.toTime t with edge := { d.edge with instants := rest } })) ∧
  (∀ (s : State) (t : Nat), (s.dev.edge.instants = [] ∨ ∃ e m rest, s.dev.edge.instants = (e, m) :: rest ∧ s.dev.edge.edges < e) → exec (.presentation t) s = .next s)

/-- spec/08 R231, R232, spec/07 R206: STAGED_GLOBAL_RELEASE, RELEASE_STAGE_1, RELEASE_STAGE_2 and RELEASE_STAGE_3. -/
def Obligations.StagedRelease : Prop :=
  (∀ (s : State) (w t : Nat), s.dev.reaches 0x300 = true → s.dev.loadState = 2 → s.dev.treePllUnlocked = false → s.dev.rd R.EDGE.EDGE_STATUS_RELEASE_STAGE = 0 → s.dev.edge.e0 = none →
    exec (.stagedGlobalRelease w t) s = .next (s.after fun d =>
      let d1 := (d.atWrite t).wr R.EDGE.EDGE_CTRL_HALT_GATE ((w ||| 1) / 2 ^ 8)
      { d1 with edge := { d1.edge with e0 := some (if d1.edge.lastEdge = d1.mono then d1.edge.edges + 2 else d1.edge.edges + 3) } })) ∧
  (∀ (s : State) (w t : Nat), s.dev.reaches 0x300 = true → (s.dev.loadState ≠ 2 ∨ s.dev.treePllUnlocked = true) → s.dev.rd R.EDGE.EDGE_STATUS_RELEASE_STAGE = 0 → s.dev.edge.e0 = none →
    exec (.stagedGlobalRelease w t) s = .next (s.after fun d =>
      ((((d.atWrite t).wr R.EDGE.EDGE_CTRL_HALT_GATE ((w ||| 1) / 2 ^ 8)).wr R.EDGE.EDGE_STATUS_RELEASE_REFUSED 1).wr R.RUN.RUN_STATUS_REFUSED 1).wr R.RUN.RUN_STATUS_REFUSE_REASON 0x10)) ∧
  (∀ (s : State) (w t : Nat), s.dev.reaches 0x300 = true → (1 ≤ s.dev.rd R.EDGE.EDGE_STATUS_RELEASE_STAGE ∨ s.dev.edge.e0.isSome = true) →
    exec (.stagedGlobalRelease w t) s = .next (s.after fun d => (d.atWrite t).wr R.EDGE.EDGE_CTRL_HALT_GATE ((w ||| 1) / 2 ^ 8))) ∧
  (∀ (s : State) (e : Nat), s.dev.edge.e0 = some e → s.dev.rd R.EDGE.EDGE_STATUS_RELEASE_STAGE = 0 → e ≤ s.dev.edge.edges → s.dev.edge.fenced.filter (s.dev.regionDue 1 0) = [] →
    exec .releaseStage1 s = .next (s.after fun d => (d.wr R.EDGE.EDGE_STATUS_RELEASE_STAGE 1).restEdge)) ∧
  (∀ (s : State) (e : Nat), s.dev.edge.e0 = some e → s.dev.rd R.EDGE.EDGE_STATUS_RELEASE_STAGE = 1 → e + 8 ≤ s.dev.edge.edges → s.dev.edge.fenced.filter (s.dev.regionDue 2 8) = [] →
    exec .releaseStage2 s = .next (s.after fun d => (d.wr R.EDGE.EDGE_STATUS_RELEASE_STAGE 2).restEdge)) ∧
  (∀ (s : State) (e : Nat), s.dev.edge.e0 = some e → s.dev.rd R.EDGE.EDGE_STATUS_RELEASE_STAGE = 2 → e + 16 ≤ s.dev.edge.edges → s.dev.edge.fenced.filter (s.dev.regionDue 3 16) = [] →
    exec .releaseStage3 s = .next (s.after fun d =>
      let d1 := d.wr R.EDGE.EDGE_STATUS_RELEASE_STAGE 3
      { d1 with edge := { d1.edge with e0 := none, shown := [] } }.restEdge.event 0x240)) ∧
  (∀ (s : State) (r : Nat), s.dev.edge.e0 = none →
    (s.dev.edge.fenced.filter (s.dev.regionDue 1 0) = [r] →
      exec .releaseStage1 s = .next (s.after fun d => ({ d with edge := { d.edge with regionStage := SMap.set d.edge.regionStage r 1 } } : Dev).restEdge)) ∧
    (s.dev.edge.fenced.filter (s.dev.regionDue 2 8) = [r] →
      exec .releaseStage2 s = .next (s.after fun d => ({ d with edge := { d.edge with regionStage := SMap.set d.edge.regionStage r 2 } } : Dev).restEdge)) ∧
    (s.dev.edge.fenced.filter (s.dev.regionDue 3 16) = [r] →
      exec .releaseStage3 s = .next (s.after fun d =>
        (({ d with edge := { d.edge with
          fenced := d.edge.fenced.filter (· != r), borders := SMap.clear d.edge.borders (256 * r) (256 * (r + 1))
          regionStage := SMap.set d.edge.regionStage r 0, regionE0 := SMap.set d.edge.regionE0 r 0 } } : Dev).showFenced).restEdge.event 0x240))) ∧
  (∀ (d : Dev) (n after r e : Nat), SMap.get d.edge.regionE0 r = e + 1 → SMap.get d.edge.regionStage r + 1 = n → d.regionDue n after r = decide (e + after ≤ d.edge.edges)) ∧
  (∀ (s : State),
    ((s.dev.edge.e0 = none ∨ s.dev.rd R.EDGE.EDGE_STATUS_RELEASE_STAGE ≠ 0 ∨ ∃ e, s.dev.edge.e0 = some e ∧ s.dev.edge.edges < e) →
      s.dev.edge.fenced.filter (s.dev.regionDue 1 0) = [] → exec .releaseStage1 s = .next s) ∧
    ((s.dev.edge.e0 = none ∨ s.dev.rd R.EDGE.EDGE_STATUS_RELEASE_STAGE ≠ 1 ∨ ∃ e, s.dev.edge.e0 = some e ∧ s.dev.edge.edges < e + 8) →
      s.dev.edge.fenced.filter (s.dev.regionDue 2 8) = [] → exec .releaseStage2 s = .next s) ∧
    ((s.dev.edge.e0 = none ∨ s.dev.rd R.EDGE.EDGE_STATUS_RELEASE_STAGE ≠ 2 ∨ ∃ e, s.dev.edge.e0 = some e ∧ s.dev.edge.edges < e + 16) →
      s.dev.edge.fenced.filter (s.dev.regionDue 3 16) = [] → exec .releaseStage3 s = .next s))

/-- spec/08 R219 to R221, R230: BLOCK_MEMORY_ACCESS. -/
def Obligations.BlockMemoryPorts : Prop :=
  (∀ (s : State) (b a : Nat) (x : Option Nat), b < 64 → s.dev.edge.acted.contains b = false → leAt (s.dev.memCfg b) 0 1 ≤ 5 → s.dev.memPort b 0 = some (a, x) → s.dev.memPort b 1 = none →
    s.dev.writtenNow b 1 a = none →
    ∃ u, exec (.blockMemoryAccess b) s = .next u ∧ u = s.after (fun _ => { s.dev with edge := u.dev.edge }) ∧
      SMap.get u.dev.edge.memRead (b * 2) = s.dev.memWord b a ∧
      (∀ c, SMap.get u.dev.edge.memRead c = if c = b * 2 then s.dev.memWord b a else SMap.get s.dev.edge.memRead c) ∧
      (∀ c i, c < 64 → i < 2 ^ (15 - leAt (s.dev.memCfg c) 0 1) → leAt (s.dev.memCfg c) 0 1 ≤ 5 →
        u.dev.memWord c i = match x with
          | some v => if c = b ∧ i = a then v % 2 ^ 2 ^ leAt (s.dev.memCfg b) 0 1 else s.dev.memWord c i
          | none => s.dev.memWord c i)) ∧
  (∀ (s : State) (b a v w : Nat), b < 64 → s.dev.edge.acted.contains b = false → s.dev.memPort b 0 = some (a, some v) → s.dev.memPort b 1 = some (a, some w) →
    s.dev.writtenNow b 1 a = none → exec (.blockMemoryAccess b) s = .next (s.after fun d =>
      let o := d.memWord b a
      let d1 := { d with edge := { d.edge with acted := b :: d.edge.acted, memRead := SMap.set d.edge.memRead (b * 2) o } }
      let d2 := d1.memStore b a v
      ({ d2 with edge := { d2.edge with
        portWrites := SMap.set d.edge.portWrites (b * 2) (d.edge.eventAt + 1, a, o), memRead := SMap.set d2.edge.memRead (b * 2 + 1) o } } : Dev).collide b)) ∧
  (∀ (s : State) (b a v o : Nat), b < 64 → s.dev.edge.acted.contains b = false → s.dev.memPort b 0 = some (a, some v) → s.dev.memPort b 1 = none → s.dev.writtenNow b 1 a = some o →
    exec (.blockMemoryAccess b) s = .next (s.after fun d =>
      let d1 := { d with edge := { d.edge with acted := b :: d.edge.acted, memRead := SMap.set d.edge.memRead (b * 2) o } }
      let d2 := d1.memStore b a v
      ({ d2 with edge := { d2.edge with portWrites := SMap.set d.edge.portWrites (b * 2) (d.edge.eventAt + 1, a, o) } } : Dev).collide b)) ∧
  (∀ (s : State) (b a v o : Nat), b < 64 → s.dev.edge.acted.contains b = false → s.dev.memPort b 0 = none → s.dev.memPort b 1 = some (a, some v) → s.dev.writtenNow b 0 a = some o →
    exec (.blockMemoryAccess b) s = .next (s.after fun d =>
      ({ d with edge := { d.edge with acted := b :: d.edge.acted, memRead := SMap.set d.edge.memRead (b * 2 + 1) o } } : Dev).collide b)) ∧
  (∀ (d : Dev) (b : Nat), b < 64 →
    d.collide b = (((({ d with edge := { d.edge with coll := SMap.set d.edge.coll b 1 } } : Dev).wr R.EDGE.BMEM_COLL (d.rd R.EDGE.BMEM_COLL ||| 2 ^ b)).count 0xB3 3 1).event 0x242)) ∧
  (∀ (s : State) (b : Nat), b < 64 → s.dev.edge.acted.contains b = true → exec (.blockMemoryAccess b) s = .next s) ∧
  (∀ (s : State) (b : Nat), 64 ≤ b → exec (.blockMemoryAccess b) s = .fault .noSuchUnit)

/-- spec/08 R222, R223, R230: FIFO_WRITE and FIFO_POP. -/
def Obligations.EdgeFifos : Prop :=
  (∀ (s : State) (f : Nat), f < 32 → s.dev.edge.acted.contains (64 + 2 * f) = false → s.dev.fifoUsed f = true → 2 ≤ s.dev.stageOf (f / 2) → s.dev.fifoOut f = false →
    isSet s.dev.edge.rose (leAt (s.dev.fifoCfg f) 1 1) = true → s.dev.sideGated (leAt (s.dev.fifoCfg f) 1 1) = false → s.dev.preSig (leAt (s.dev.fifoCfg f) 4 2) = 1 →
    ((SMap.get s.dev.edge.fifo f).length < 64 →
      exec (.fifoWrite f) s = .next (s.after fun d => (d.actSide (64 + 2 * f)).setFifo f (SMap.get d.edge.fifo f ++ [(d.preNum (d.fifoCfg f) 8 32 % 2 ^ 32, 3)]))) ∧
    (64 ≤ (SMap.get s.dev.edge.fifo f).length →
      exec (.fifoWrite f) s = .next (s.after fun d =>
        (((d.actSide (64 + 2 * f)).wr R.EDGE.FIFO_OVF (d.rd R.EDGE.FIFO_OVF ||| 2 ^ f)).count 0xB3 4 1).event 0x243))) ∧
  (∀ (s : State) (f : Nat), f < 32 → s.dev.edge.acted.contains (64 + 2 * f) = false → s.dev.fifoUsed f = true → 2 ≤ s.dev.stageOf (f / 2) → s.dev.fifoOut f = true →
    s.dev.edge.pushDue.contains f = true → SMap.get s.dev.edge.shown (leAt (s.dev.fifoCfg f) 6 2 + 32) % 2 = 1 →
    exec (.fifoWrite f) s = .next (s.after fun d => ({ d with edge := { d.edge with pushDue := d.edge.pushDue.filter (· != f) } } : Dev).pushFifo f
      ((List.range 32).foldl (fun v i => v + SMap.get d.edge.shown (leAt (d.fifoCfg f) 6 2 + i) % 2 * 2 ^ i) 0))) ∧
  (∀ (s : State) (f : Nat), f < 32 → (s.dev.edge.acted.contains (64 + 2 * f) = true ∨ s.dev.fifoUsed f = false ∨ s.dev.stageOf (f / 2) < 2 ∨
      s.dev.fifoOut f = true ∧ (s.dev.edge.pushDue.contains f = false ∨ SMap.get s.dev.edge.shown (leAt (s.dev.fifoCfg f) 6 2 + 32) % 2 = 0) ∨
      s.dev.fifoOut f = false ∧ (isSet s.dev.edge.rose (leAt (s.dev.fifoCfg f) 1 1) = false ∨ s.dev.sideGated (leAt (s.dev.fifoCfg f) 1 1) = true ∨ s.dev.preSig (leAt (s.dev.fifoCfg f) 4 2) ≠ 1)) →
    exec (.fifoWrite f) s = .next s) ∧
  (∀ (s : State) (f : Nat), f < 32 → s.dev.fifoUsed f = true → s.dev.fifoOut f = true → s.dev.edge.acted.contains (65 + 2 * f) = false →
    isSet s.dev.edge.rose (leAt (s.dev.fifoCfg f) 1 1) = true → s.dev.sideGated (leAt (s.dev.fifoCfg f) 1 1) = false → s.dev.preSig (leAt (s.dev.fifoCfg f) 4 2) = 1 →
    (s.dev.preSig (0x2C00 + 2 * f) = 0 →
      exec (.fifoPop f) s = .next (s.after fun d =>
        let d1 := (d.actSide (65 + 2 * f)).setFifo f ((SMap.get d.edge.fifo f).drop 1)
        { d1 with edge := { d1.edge with fifoWord := SMap.set d.edge.fifoWord f (((d.fifoSeen f).head?.map (·.1)).getD 0) } })) ∧
    (s.dev.preSig (0x2C00 + 2 * f) = 1 →
      exec (.fifoPop f) s = .next (s.after fun d =>
        (((d.actSide (65 + 2 * f)).wr R.EDGE.FIFO_UNF (d.rd R.EDGE.FIFO_UNF ||| 2 ^ f)).count 0xB3 5 1).event 0x244))) ∧
  (∀ (s : State) (f : Nat), f < 32 → s.dev.fifoUsed f = true → s.dev.fifoOut f = false → SMap.get s.dev.edge.popDue f = 1 → s.dev.fifoSeen f ≠ [] →
    exec (.fifoPop f) s = .next (s.after fun d => ({ d with edge := { d.edge with popDue := SMap.set d.edge.popDue f 0 } } : Dev).popHead f)) ∧
  (∀ (s : State) (f : Nat), f < 32 → s.dev.fifoUsed f = true → s.dev.fifoOut f = false → SMap.get s.dev.edge.popDue f = 1 → s.dev.fifoSeen f = [] →
    exec (.fifoPop f) s = .next (s.after fun d => { d with edge := { d.edge with popDue := SMap.set d.edge.popDue f 0 } })) ∧
  (∀ (s : State) (f : Nat), f < 32 → (s.dev.fifoUsed f = false ∨ s.dev.fifoOut f = false ∧ SMap.get s.dev.edge.popDue f ≠ 1 ∨
      s.dev.fifoOut f = true ∧ (s.dev.edge.acted.contains (65 + 2 * f) = true ∨ isSet s.dev.edge.rose (leAt (s.dev.fifoCfg f) 1 1) = false ∨
        s.dev.sideGated (leAt (s.dev.fifoCfg f) 1 1) = true ∨ s.dev.preSig (leAt (s.dev.fifoCfg f) 4 2) = 0)) →
    exec (.fifoPop f) s = .next s) ∧
  (∀ (s : State) (f : Nat), 32 ≤ f → exec (.fifoWrite f) s = .fault .noSuchUnit ∧ exec (.fifoPop f) s = .fault .noSuchUnit)

/-- spec/08 R213, R215, R218, R226, R233, R238: EDGE_CLOCK_CYCLE, EDGE_PLL_LOCK, PROBE_SEL_WRITE and PRESENT_CFG_WRITE. -/
def Obligations.EdgeClockAndRegisters : Prop :=
  (∀ (s : State) (fall levels t : Nat), s.dev.edge.cfg = [] → isSet fall 0 = false →
    ∃ u, exec (.edgeClockCycle 1 fall levels t) s = .next u ∧ u.dev.edge.edges = s.dev.edge.edges + 1 ∧ u.dev.edge.lastEdge = (s.dev.toTime t).mono ∧
      u.dev.edge.gctPeriod = (s.dev.toTime t).mono - s.dev.edge.lastEdge ∧ u.dev.arr = s.dev.arr ∧ u.dev.edge.bmem = s.dev.edge.bmem ∧ u.dev.edge.mac = s.dev.edge.mac ∧
      u.envelope = s.envelope ∧ u.pending = s.pending) ∧
  (∀ (s : State) (rise fall levels t : Nat), exec (.edgeClockCycle rise fall levels t) s = .next (s.after (Dev.edgeClock t rise fall levels))) ∧
  (∀ (s : State) (n : Nat), n < 2 → (if SMap.get s.dev.edge.cfg 0x30000 = [] then n = 0 else isSet (leAt (SMap.get s.dev.edge.cfg 0x30000) (8 * n) 8) 0 = true) →
    exec (.edgePllLock n) s = .next (s.after fun d => if n = 0 then d.wr R.EDGE.EDGE_STATUS_PLL0_LOCK 1 else d.wr R.EDGE.EDGE_STATUS_PLL1_LOCK 1)) ∧
  (∀ (s : State) (n : Nat), n < 2 → ¬ (if SMap.get s.dev.edge.cfg 0x30000 = [] then n = 0 else isSet (leAt (SMap.get s.dev.edge.cfg 0x30000) (8 * n) 8) 0 = true) →
    exec (.edgePllLock n) s = .next s) ∧
  (∀ (s : State) (k w t : Nat), k < 32 → s.dev.reaches 0x300 = true →
    exec (.probeSelWrite k w t) s = .next (s.after fun d =>
      (((d.atWrite t).wrAt R.EDGE.PROBE_SEL_INDEX 0 k w).wrAt R.EDGE.PROBE_SEL_KIND 0 k (w / 2 ^ 16)).wrAt R.EDGE.PROBE_SEL_ENABLE 0 k (w / 2 ^ 17))) ∧
  (∀ (s : State) (w t : Nat), s.dev.reaches 0x300 = true → s.dev.running = false → fieldAt w 0 4 ≠ 0 → 3 ≤ fieldAt w 4 16 →
    exec (.presentCfgWrite w t) s = .next (s.after fun d => ((d.atWrite t).wr R.EDGE.PRESENT_CFG_P w).wr R.EDGE.PRESENT_CFG_OFF (w / 16))) ∧
  (∀ (s : State) (w t : Nat), s.dev.reaches 0x300 = true → (s.dev.running = true ∨ fieldAt w 0 4 = 0 ∨ fieldAt w 4 16 < 3) →
    exec (.presentCfgWrite w t) s = .next (s.after fun d => (d.atWrite t).wr R.EDGE.EDGE_STATUS_WRITE_REFUSED 1)) ∧
  (∀ (s : State) (n k w t : Nat), (2 ≤ n → exec (.edgePllLock n) s = .fault .noSuchUnit) ∧ (32 ≤ k → exec (.probeSelWrite k w t) s = .fault .noSuchUnit))

/-- spec/09 R245, R247 to R249: PIN_CFG_HI_WRITE, LOCKKEY, LOCK and LOCK_SEQ_TIMEOUT. That a key of an armed bank ends the arming is the model's reading (assumption log). -/
def Obligations.PinWords : Prop :=
  (∀ (s : State) (b k hi t w : Nat), b < 10 → k < 32 → s.dev.reaches (0x301 + b) = true → SMap.get s.dev.pins.lockStep b ≠ 2 →
    w = (s.dev.atWrite t).settlePins.stagedLow (R.PINBANK.PIN_CFG.key b k) ((s.dev.atWrite t).settlePins.rdAt R.PINBANK.PIN_CFG b k) + hi % 2 ^ 32 * 2 ^ 32 →
    (s.dev.atWrite t).settlePins.pinLocked (b * 32 + k) = false → (s.dev.atWrite t).settlePins.pinWordTaken (b * 32 + k) w = true →
    exec (.pinCfgHiWrite b k hi t) s = .next (s.after fun d =>
      let d1 := (d.atWrite t).settlePins.unstage (R.PINBANK.PIN_CFG.key b k)
      let e := d1.refEdgeAt (d1.mono + 2 * d1.auxCycle)
      ({ d1.wrAt R.PINBANK.PIN_CFG b k w with pins := { d1.pins with
          next := SMap.set d1.pins.next (b * 32 + k) ((SMap.get d1.pins.next (b * 32 + k)).filter (fun x => decide (x.2 ≠ e)) ++ [(w, e)]) } } : Dev).watchTbPins)) ∧
  (∀ (s : State) (b k hi t w : Nat), b < 10 → k < 32 → s.dev.reaches (0x301 + b) = true → SMap.get s.dev.pins.lockStep b ≠ 2 →
    w = (s.dev.atWrite t).settlePins.stagedLow (R.PINBANK.PIN_CFG.key b k) ((s.dev.atWrite t).settlePins.rdAt R.PINBANK.PIN_CFG b k) + hi % 2 ^ 32 * 2 ^ 32 →
    ((s.dev.atWrite t).settlePins.pinLocked (b * 32 + k) = true ∨ (s.dev.atWrite t).settlePins.pinWordTaken (b * 32 + k) w = false) →
    exec (.pinCfgHiWrite b k hi t) s = .next (s.after fun d => (((d.atWrite t).settlePins.unstage (R.PINBANK.PIN_CFG.key b k)).wrAt R.PINBANK.BANK_STATUS_WRITE_REFUSED b 0 1).watchTbPins)) ∧
  (∀ (s : State) (b w t : Nat), b < 10 → s.dev.reaches (0x301 + b) = true → SMap.get s.dev.pins.lockStep b = 0 →
    exec (.lockKey b w t) s = .next (s.after fun d =>
      if w % 2 ^ 16 = 0x6B1D then (d.atWrite t).setLock b 1 else (d.atWrite t).wrAt R.PINBANK.BANK_STATUS_LOCK_SEQ_FAILED b 0 1)) ∧
  (∀ (s : State) (b w t : Nat), b < 10 → s.dev.reaches (0x301 + b) = true → SMap.get s.dev.pins.lockStep b = 1 → (s.dev.atWrite t).lockExpired b = false →
    exec (.lockKey b w t) s = .next (s.after fun d =>
      if w % 2 ^ 16 = 0x94E2 then ((d.atWrite t).setLock b 2).wrAt R.PINBANK.BANK_STATUS_LOCK_ARMED b 0 1 else (d.atWrite t).endLock b true)) ∧
  (∀ (s : State) (b w t : Nat), b < 10 → s.dev.reaches (0x301 + b) = true → SMap.get s.dev.pins.lockStep b = 2 → (s.dev.atWrite t).lockExpired b = false →
    exec (.lockKey b w t) s = .next (s.after fun d => (d.atWrite t).endLock b true)) ∧
  (∀ (s : State) (b w t : Nat), b < 10 → s.dev.reaches (0x301 + b) = true → SMap.get s.dev.pins.lockStep b = 2 → (s.dev.atWrite t).lockExpired b = false →
    exec (.lock b w t) s = .next (s.after fun d => ((d.atWrite t).wrAt R.PINBANK.LOCK b 0 (d.rdAt R.PINBANK.LOCK b 0 ||| (w % 2 ^ 32))).endLock b false)) ∧
  (∀ (s : State) (b w t : Nat), b < 10 → s.dev.reaches (0x301 + b) = true → SMap.get s.dev.pins.lockStep b ≠ 2 → (s.dev.atWrite t).lockExpired b = false →
    exec (.lock b w t) s = .next (s.after (Dev.atWrite · t))) ∧
  (∀ (s : State) (b t : Nat), b < 10 → (s.dev.toTime t).lockExpired b = true → exec (.lockSeqTimeout b t) s = .next (s.after fun d => (d.toTime t).endLock b true)) ∧
  (∀ (s : State) (b t : Nat), b < 10 → (s.dev.toTime t).lockExpired b = false → exec (.lockSeqTimeout b t) s = .next s) ∧
  (∀ (s : State) (b k w t : Nat), 10 ≤ b → exec (.pinCfgHiWrite b k w t) s = .fault .noSuchUnit ∧ exec (.lockKey b w t) s = .fault .noSuchUnit ∧
    exec (.lock b w t) s = .fault .noSuchUnit ∧ exec (.lockSeqTimeout b t) s = .fault .noSuchUnit) ∧
  (∀ (s : State) (b k w t : Nat), 32 ≤ k → exec (.pinCfgHiWrite b k w t) s = .fault .noSuchUnit)

/-- spec/09 R254, R256, R258 to R260: the permitted level of a pad. -/
def Obligations.EnvelopePermits : Prop :=
  (∀ (d : Dev) (v : Envelope) (p lv q : Nat) (r : List Nat), v.acts = false → (d.permit v p lv r).pad q = if q = p then lv else d.pad q) ∧
  (∀ (d : Dev) (v : Envelope) (p lv q : Nat), v.acts = true → (SMap.get d.pins.clamp p ≠ lv ∨ lv = 0) → d.pulseHolds v p = false → d.rateHolds v p = false → d.interlocks v p lv = [] →
    (d.permit v p lv []).pad q = if q = p then lv else d.pad q) ∧
  (∀ (d : Dev) (v : Envelope) (p lv c : Nat) (r : List Nat), v.acts = true → (SMap.get d.pins.clamp p ≠ lv ∨ lv = 0) → d.pad p ≠ lv →
    (r = [] → d.pulseHolds v p = false ∧ d.rateHolds v p = false) → lowest (r ++ d.interlocks v p lv) = some c →
    d.permit v p lv r =
      ((({ d with pins := { d.pins with request := SMap.set d.pins.request p lv, clamp := SMap.set d.pins.clamp p lv, delay := SMap.set d.pins.delay p 0 } } : Dev).setClamped p true).envFault
        0x80 (p + c * 2 ^ 16)).event 0x7C9 ∧
    (d.permit v p lv r).pins.pads = d.pins.pads) ∧
  (∀ (d : Dev) (v : Envelope) (p lv : Nat), v.acts = true → (SMap.get d.pins.clamp p ≠ lv ∨ lv = 0) → d.pad p ≠ lv → (d.pulseHolds v p = true ∨ d.rateHolds v p = true) →
    (d.permit v p lv []).pins.pads = d.pins.pads) ∧
  (∀ (d : Dev) (v : Envelope) (p lv : Nat) (r : List Nat), v.acts = true → (SMap.get d.pins.clamp p ≠ lv ∨ lv = 0) → d.pad p = lv →
    d.permit v p lv r = ({ d with pins := { d.pins with request := SMap.set d.pins.request p lv } } : Dev).unclamp p) ∧
  (∀ (d : Dev) (p : Nat), (d.setClamped p true).rdAt R.ENV.CLAMPED 0 (p / 32) = putBit (d.rdAt R.ENV.CLAMPED 0 (p / 32)) (p % 32) 1 % 2 ^ 32) ∧
  (∀ (d : Dev) (v : Envelope) (p ext q : Nat), d.on R.SAFETY.SAFE_STATUS_IN_SAFE = true →
    (d.drivePin v p ext).pad q = if q = p then (if v.acts = false then 0 else if v.safeMode p = 4 then 1 else if v.safeMode p = 5 then 2 else 0) else d.pad q)

/-- spec/09 R245, R258 to R262: PIN_LEVEL_REQUEST, KEEPER_WINDOW_END, MIN_PULSE_ELAPSED, RATE_WINDOW_END and OUTPUT_READBACK. -/
def Obligations.PadCommands : Prop :=
  (∀ (s : State) (p ext t : Nat), p < 320 → ((s.dev.toTime t).settlePins.inWindow p = false ∨ (s.dev.toTime t).settlePins.on R.SAFETY.SAFE_STATUS_IN_SAFE = true) →
    exec (.pinLevelRequest p ext t) s = .next (s.after fun d => ((d.toTime t).settlePins.drivePin s.envelope p ext).watchTbPins)) ∧
  (∀ (s : State) (p ext t : Nat), p < 320 → (s.dev.toTime t).settlePins.inWindow p = true → (s.dev.toTime t).settlePins.on R.SAFETY.SAFE_STATUS_IN_SAFE = false →
    exec (.pinLevelRequest p ext t) s = .next (s.after Dev.watchTbPins)) ∧
  (∀ (s : State) (p ext t : Nat), p < 320 → SMap.get (s.dev.toTime t).settlePins.pins.window p ≠ 0 → (s.dev.toTime t).settlePins.inWindow p = false →
    exec (.keeperWindowEnd p ext t) s = .next (s.after fun d =>
      let d1 := (d.toTime t).settlePins
      (({ d1 with pins := { d1.pins with window := SMap.set d1.pins.window p 0, windowEnd := SMap.set d1.pins.windowEnd p (SMap.get d1.pins.window p) } } : Dev).drivePin s.envelope p ext).watchTbPins)) ∧
  (∀ (s : State) (p ext t : Nat), p < 320 → (SMap.get (s.dev.toTime t).settlePins.pins.window p = 0 ∨ (s.dev.toTime t).settlePins.inWindow p = true) →
    exec (.keeperWindowEnd p ext t) s = .next (s.after Dev.watchTbPins)) ∧
  (∀ (s : State) (p ext t : Nat), p < 320 → (s.dev.toTime t).settlePins.inWindow p = false → SMap.get (s.dev.toTime t).settlePins.pins.delay p = 1 →
    (s.dev.toTime t).settlePins.pulseHolds s.envelope p = false →
    exec (.minPulseElapsed p ext t) s = .next (s.after fun d => ((d.toTime t).settlePins.drivePin s.envelope p ext).watchTbPins)) ∧
  (∀ (s : State) (p ext t : Nat), p < 320 → (s.dev.toTime t).settlePins.inWindow p = false → SMap.get (s.dev.toTime t).settlePins.pins.delay p = 2 →
    (s.dev.toTime t).settlePins.rateHolds s.envelope p = false →
    exec (.rateWindowEnd p ext t) s = .next (s.after fun d => ((d.toTime t).settlePins.drivePin s.envelope p ext).watchTbPins)) ∧
  (∀ (s : State) (p ext t : Nat), p < 320 →
    (SMap.get (s.dev.toTime t).settlePins.pins.delay p ≠ 1 ∨ (s.dev.toTime t).settlePins.pulseHolds s.envelope p = true ∨ (s.dev.toTime t).settlePins.inWindow p = true →
      exec (.minPulseElapsed p ext t) s = .next (s.after Dev.watchTbPins)) ∧
    (SMap.get (s.dev.toTime t).settlePins.pins.delay p ≠ 2 ∨ (s.dev.toTime t).settlePins.rateHolds s.envelope p = true ∨ (s.dev.toTime t).settlePins.inWindow p = true →
      exec (.rateWindowEnd p ext t) s = .next (s.after Dev.watchTbPins))) ∧
  (∀ (s : State) (p level since t m : Nat) (d1 : Dev), p < 320 → d1 = (s.dev.toTime t).settlePins →
    m = max (d1.mono + d1.instantOf since - d1.now)
      (max (if SMap.get d1.pins.changed p = 0 then 0 else SMap.get d1.pins.changed p - 1 + 100 * 2 ^ 32) (max (SMap.get d1.pins.window p) (SMap.get d1.pins.windowEnd p) - 1)) →
    exec (.outputReadback p level since t) s = .next (s.after fun d =>
      if s.envelope.acts = true ∧ s.envelope.readback p = true ∧ d1.pad p ≠ 0 ∧ d1.pad p ≠ 1 + level % 2 ∧ d1.inWindow p = false ∧
          m + 100 * 2 ^ 32 + s.envelope.rbFilter p * envCycle ≤ d1.mono then
        (d1.envFault 0x82 (p + (d1.pad p - 1) * 2 ^ 24 + level % 2 * 2 ^ 25)).watchTbPins
      else d.watchTbPins)) ∧
  (∀ (s : State) (p a b t : Nat), 320 ≤ p → exec (.pinLevelRequest p a t) s = .fault .noSuchUnit ∧ exec (.keeperWindowEnd p a t) s = .fault .noSuchUnit ∧
    exec (.minPulseElapsed p a t) s = .fault .noSuchUnit ∧ exec (.rateWindowEnd p a t) s = .fault .noSuchUnit ∧ exec (.outputReadback p a b t) s = .fault .noSuchUnit)

/-- spec/09 R250, R251: MATCH_CTRL_WRITE and PIN_MATCH. -/
def Obligations.PatternMatchers : Prop :=
  (∀ (s : State) (m w t : Nat), m < 16 → s.dev.reaches (0x310 + m) = true → (w / 2 % 4 = 3 ∨ s.dev.rdAt R.MATCH.MATCH_CTRL_ENABLE m 0 = 1 ∧ w % 2 = 1) →
    exec (.matchCtrlWrite m w t) s = .next (s.after fun d => (d.atWrite t).wrAt R.MATCH.MATCH_STATUS_WRITE_REFUSED m 0 1)) ∧
  (∀ (s : State) (m w t : Nat), m < 16 → s.dev.reaches (0x310 + m) = true → w / 2 % 4 ≠ 3 → (s.dev.rdAt R.MATCH.MATCH_CTRL_ENABLE m 0 ≠ 1 ∨ w % 2 = 0) →
    ∃ u, exec (.matchCtrlWrite m w t) s = .next u ∧ (u = s.after fun d =>
        let d1 := (((d.atWrite t).wrAt R.MATCH.MATCH_CTRL_ENABLE m 0 w).wrAt R.MATCH.MATCH_CTRL_MODE m 0 (w / 2)).wrAt R.MATCH.MATCH_CTRL_DEBOUNCE m 0 (w / 2 ^ 16)
        if w % 2 = 1 then (d1.setRaw m (d1.rawMatch m) d1.mono).setFiltered m (d1.rawMatch m) else d1) ∧
      u.dev.rdAt R.MATCH.MATCH_CTRL_ENABLE m 0 = w % 2 ∧ u.dev.rdAt R.MATCH.MATCH_CTRL_MODE m 0 = w / 2 % 4 ∧
      u.dev.rdAt R.MATCH.MATCH_CTRL_DEBOUNCE m 0 = w / 2 ^ 16 % 2 ^ 16 ∧
      u.dev.rdAt R.MATCH.MATCH_STATUS_FILTERED m 0 = if w % 2 = 1 then (s.dev.atWrite t).rawMatch m else s.dev.rdAt R.MATCH.MATCH_STATUS_FILTERED m 0) ∧
  (∀ (s : State) (m levels cycles t : Nat) (d1 : Dev), m < 16 → s.dev.rdAt R.MATCH.MATCH_CTRL_ENABLE m 0 = 1 → d1 = (s.dev.toTime t).settlePins.samplePins levels →
    exec (.pinMatch m levels cycles t) s = .next (s.after fun _ =>
      let raw := bit ((d1.matchWord m ^^^ d1.rdAt R.MATCH.VALUE m 0) &&& d1.rdAt R.MATCH.MASK m 0 == 0)
      let old := d1.rdAt R.MATCH.MATCH_STATUS_FILTERED m 0
      let d2 := d1.setRaw m raw (d1.mono - (cycles - 1) * d1.rd R.TIME.ADDEND)
      let new := if SMap.get d2.pins.rawSince m - 1 + d1.rdAt R.MATCH.MATCH_CTRL_DEBOUNCE m 0 * d1.rd R.TIME.ADDEND ≤ d1.mono then raw else old
      let d3 := if new ≠ old then d2.setFiltered m new else d2
      let mode := d1.rdAt R.MATCH.MATCH_CTRL_MODE m 0
      (if mode = 0 ∧ new = 1 ∨ mode = 1 ∧ old = 0 ∧ new = 1 ∨ mode = 2 ∧ old = 1 ∧ new = 0 then (d3.wrAt R.MATCH.STAMP m 0 (SMap.get d3.pins.filterAt m)).event (0x260 + m)
        else d3).watchTbPins)) ∧
  (∀ (d : Dev) (m raw since : Nat), raw < 2 → (d.setRaw m raw since).rdAt R.MATCH.MATCH_STATUS_RAW m 0 = raw ∧
    SMap.get (d.setRaw m raw since).pins.rawSince m =
      if SMap.get d.pins.rawSince m ≠ 0 ∧ d.rdAt R.MATCH.MATCH_STATUS_RAW m 0 = raw then SMap.get d.pins.rawSince m else since + 1) ∧
  (∀ (d : Dev) (m v : Nat), v < 2 → (d.setFiltered m v).rdAt R.MATCH.MATCH_STATUS_FILTERED m 0 = v ∧ SMap.get (d.setFiltered m v).pins.filterAt m = d.stamp) ∧
  (∀ (s : State) (m levels cycles t : Nat), m < 16 → s.dev.rdAt R.MATCH.MATCH_CTRL_ENABLE m 0 = 0 →
    exec (.pinMatch m levels cycles t) s = .next (s.after fun d => ((d.toTime t).settlePins.samplePins levels).watchTbPins)) ∧
  (∀ (s : State) (m w c t : Nat), 16 ≤ m → exec (.matchCtrlWrite m w t) s = .fault .noSuchUnit ∧ exec (.pinMatch m w c t) s = .fault .noSuchUnit)

/-- spec/10 R268, R273 to R276: TIME_WRAP, ADDEND_WRITE, JUMP_ACCEPT, JUMP_REJECT, RESUME, OFFSET_ABSORBED and REFERENCE_RETURN. -/
def Obligations.DeviceTime : Prop :=
  (∀ (s : State) (t : Nat), (s.dev.toTime t).clk.epoch < (s.dev.toTime t).now / 2 ^ 64 →
    exec (.timeWrap t) s = .next (s.after fun d =>
      let d1 := d.toTime t
      ((({ d1 with clk := { d1.clk with epoch := d1.clk.epoch + 1 } } : Dev).wr R.TIME.WRAPS (d.rd R.TIME.WRAPS + 1)).event 0x400).traceWrap)) ∧
  (∀ (s : State) (t : Nat), (s.dev.toTime t).now / 2 ^ 64 ≤ (s.dev.toTime t).clk.epoch → exec (.timeWrap t) s = .next s) ∧
  (∀ (s : State) (hi t v : Nat), s.dev.reaches 0xD = true → v = s.dev.stagedLow (R.TIME.ADDEND.key 0 0) (s.dev.rd R.TIME.ADDEND) + hi % 2 ^ 8 * 2 ^ 32 →
    s.dev.rd R.TIME.TIME_CTRL_SOURCE = 0 → s.dev.leadsTime = true → 9990 * 2 ^ 32 ≤ v * 1000 → v * 1000 ≤ 10010 * 2 ^ 32 →
    ∃ u, exec (.addendWrite hi t) s = .next u ∧ u = s.after (fun d => ((d.atWrite t).unstage (R.TIME.ADDEND.key 0 0)).setAddend v) ∧ u.dev.rd R.TIME.ADDEND = v) ∧
  (∀ (s : State) (hi t v : Nat), s.dev.reaches 0xD = true → v = s.dev.stagedLow (R.TIME.ADDEND.key 0 0) (s.dev.rd R.TIME.ADDEND) + hi % 2 ^ 8 * 2 ^ 32 →
    (s.dev.rd R.TIME.TIME_CTRL_SOURCE ≠ 0 ∨ s.dev.leadsTime = false ∨ v * 1000 < 9990 * 2 ^ 32 ∨ 10010 * 2 ^ 32 < v * 1000) →
    exec (.addendWrite hi t) s = .next (s.after fun d => ((d.atWrite t).unstage (R.TIME.ADDEND.key 0 0)).wr R.TIME.TIME_STATUS_WRITE_REFUSED 1)) ∧
  (∀ (s : State) (w t : Nat) (x : Int) (d1 : Dev), s.dev.reaches 0xD = true → bitAt w 11 = 0 → bitAt w 12 = 0 → d1 = (s.dev.atWrite t).timeCtrlFields (w ||| 0x400) →
    d1.running = false → d1.on R.TIME.TIME_STATUS_FROZEN = true → x = signedOf 64 (d1.rd R.TIME.OFFSET) →
    exec (.jumpAccept w t) s = .next (s.after fun _ =>
      (d1.wr R.TIME.TIME_STATUS_FROZEN 0).setJump (if 0 ≤ x then .forward else .backward) x.natAbs true)) ∧
  (∀ (d : Dev) (k : JumpKind) (x : Nat) (ts : Bool), (d.setJump k x ts).clk.jump = some ⟨d.spanOf (d.rd R.TIME.ADDEND - d.sinceRef), x, k, ts⟩) ∧
  (∀ (d : Dev) (j : Jump) (t : Nat), d.clk.jump = some j → j.wait ≤ d.timeTo t →
    (d.passJump (d.timeTo t)).now = (match j.kind with | .forward => d.now + j.wait + j.size | .backward => d.now + j.wait - j.size | .slew => d.now + j.wait) ∧
    (d.toTime t).clk.jump = none ∧ ∃ m, (d.toTime t).clk.jumped = some (m, d.now + j.wait, j)) ∧
  (∀ (d : Dev) (m a : Nat) (j : Jump), d.clk.jumped = some (m, a, j) → j.kind = .backward → j.ts = true →
    d.settleJump = (({ d with clk := { d.clk with jumped := none } } : Dev).event 0x402).traceTs) ∧
  (∀ (s : State) (w t : Nat) (d1 : Dev), s.dev.reaches 0xD = true → bitAt w 11 = 0 → bitAt w 12 = 0 → d1 = (s.dev.atWrite t).timeCtrlFields (w ||| 0x400) →
    d1.running = true → exec (.jumpAccept w t) s = .next (s.after fun _ => d1.wr R.TIME.TIME_STATUS_WRITE_REFUSED 1)) ∧
  (∀ (s : State) (w t : Nat) (d1 : Dev), s.dev.reaches 0xD = true → bitAt w 10 = 0 → bitAt w 12 = 0 → d1 = (s.dev.atWrite t).timeCtrlFields (w ||| 0x800) →
    exec (.jumpReject w t) s = .next (s.after fun _ =>
      if d1.rd R.TIME.TIME_STATUS_FROZEN = 1 then ((d1.wr R.TIME.TIME_STATUS_FROZEN 0).wr R.TIME.PENDING 0).wr R.TIME.TIME_STATUS_HOLDOVER 1 else d1)) ∧
  (∀ (s : State) (w t : Nat), s.dev.reaches 0xD = true → bitAt w 10 = 0 → bitAt w 11 = 0 →
    exec (.resume w t) s = .next (s.after fun d => ((d.atWrite t).timeCtrlFields (w ||| 0x1000)).wr R.TIME.TIME_STATUS_HOLDOVER 0)) ∧
  (∀ (s : State) (t : Nat) (d1 : Dev), d1 = s.dev.toTick t →
    exec (.offsetAbsorbed t) s = .next (s.after fun _ => if d1.on R.TIME.TIME_STATUS_SLEWING = true ∧ d1.clk.slewLeft = 0 then d1.wr R.TIME.TIME_STATUS_SLEWING 0 else d1)) ∧
  (∀ (s : State) (t : Nat) (d1 : Dev), d1 = s.dev.toTick t → d1.on R.CLK.CLK_STATUS_HOLDOVER = true →
    exec (.referenceReturn t) s = .next (s.after fun _ =>
      forUpto 4 (fun n d =>
        let d2 := if isSet (SMap.get d.clk.lost n) 5 = true then d.endCause n 5 else d
        if d.tbSource n = 1 ∨ d.tbSource n = 6 then d2.tbTakesEffect n else d2) (d1.wr R.CLK.CLK_STATUS_HOLDOVER 0))) ∧
  (∀ (s : State) (t : Nat) (d1 : Dev), d1 = s.dev.toTick t → d1.on R.CLK.CLK_STATUS_HOLDOVER = false →
    exec (.referenceReturn t) s = .next (s.after fun _ =>
      forUpto 4 (fun n d =>
        if isSet (SMap.get d.clk.lost n) 5 = true then (if d.tbSource n = 1 ∨ d.tbSource n = 6 then (d.endCause n 5).tbTakesEffect n else d.endCause n 5) else d)
        (d1.wr R.CLK.CLK_STATUS_HOLDOVER 0)))

/-- spec/10 R271 to R273, R280: SYNC_INTERVAL, PTM_EXCHANGE and SYNC_LOSS. -/
def Obligations.TimeMaster : Prop :=
  (∀ (s : State) (t : Nat) (d1 : Dev) (a : Nat), d1 = s.dev.toTick t →
    a = (if d1.rd R.TIME.TIME_STATUS_MASTER = 1 ∨ d1.clk.masterAddend = 0 then d1.rd R.TIME.ADDEND else d1.clk.masterAddend) →
    exec (.syncInterval t) s = .next (s.after fun _ =>
      if d1.rd R.TIME.TIME_STATUS_MASTER = 1 then d1.sendAll 0x11 (leBytes a 5) else d1.sendAllBut (d1.rd R.TIME.TIME_STATUS_UPSTREAM_PORT) 0x11 (leBytes a 5))) ∧
  (∀ (s : State) (m t : Nat) (d1 : Dev), d1 = s.dev.toTick t → s.dev.rd R.TIME.TIME_CTRL_SOURCE ≠ 0 → s.dev.leadsTime = true →
    exec (.ptmExchange m t) s = .next (s.after fun _ =>
      ((d1.emit .ptmRequest).wr R.TIME.PTM_LAST m).applyOffset (signedOf 64 ((m + d1.rd R.TIME.PTM_OFFSET) % 2 ^ 32 * 2 ^ 32 + 2 ^ 64 - d1.stamp)) (10 * 2 ^ 32))) ∧
  (∀ (s : State) (m t : Nat), s.dev.rd R.TIME.TIME_CTRL_SOURCE = 0 → s.dev.leadsTime = true → exec (.ptmExchange m t) s = .next (s.after (Dev.toTick · t))) ∧
  (∀ (s : State) (m t : Nat), s.dev.leadsTime = false →
    exec (.ptmExchange m t) s = .next (s.after fun d => ((d.toTick t).emit .ptmRequest).wr R.TIME.PTM_LAST m)) ∧
  (∀ (s : State) (t : Nat) (d1 d2 : Dev), d1 = s.dev.toTick t → d1.on R.TIME.TIME_STATUS_MASTER = false →
    d2 = (if d1.clk.lastHeard + 4 * 2 ^ d1.rd R.TIME.TIME_CTRL_SYNC_LOG2 * usec ≤ d1.now then
      forUpto 4 (fun n (d : Dev) => if d.tbSource n = 7 then d.loseTb n 4 else d) { d1 with clk := { d1.clk with lastHeard := d1.now } } else d1) →
    exec (.syncLoss t) s = .next (s.after fun _ =>
      if d2.clk.lastSync + 4 * 2 ^ d2.rd R.TIME.TIME_CTRL_SYNC_LOG2 * usec ≤ d2.now then ({ d2 with clk := { d2.clk with lastSync := d2.now } } : Dev).forgetMaster else d2)) ∧
  (∀ (s : State) (t : Nat), (s.dev.toTick t).on R.TIME.TIME_STATUS_MASTER = true → exec (.syncLoss t) s = .next (s.after (Dev.toTick · t))) ∧
  (∀ (d : Dev), d.forgetMaster = ({ d with clk := { d.clk with masterSeen := SMap.del d.clk.masterSeen (d.rd R.TIME.TIME_STATUS_MASTER_POS) } } : Dev).announce ∧
    d.announce = (d.sendAll 0x10 (leBytes (d.rd R.TIME.TIME_CTRL_ELIGIBLE) 1 ++ leBytes (d.rd R.TIME.TIME_CTRL_PRIORITY) 1 ++ leBytes d.position 1 ++ leBytes 0 1)).elect)

/-- spec/10 R276 to R278: DIVIDER_COUNT, PERIODIC_INSTANT, TRIGGER_EDGE, ZERO_CROSS_EDGE, LINE_SYNC_EDGE and ENCODER_COUNT. -/
def Obligations.TimeBasesCount : Prop :=
  (∀ (d : Dev) (n m : Nat) (up : Bool) (p c r : Nat), n < 4 → p = d.rdAt R.TBASE.POSITION n 0 → r = d.rdAt R.TBASE.REVOLUTIONS n 0 →
    c = (if d.rdAt R.TBASE.CPR n 0 = 0 then 2 ^ 32 else d.rdAt R.TBASE.CPR n 0) → p < c → c ≤ 2 ^ 32 → r < 2 ^ 32 →
    ∃ d1 : Dev, d.countTb n up m = d1.crossed n (if up then d1.rdAt R.TBASE.POSITION n 0 else p) up m ∧
      d1.rdAt R.TBASE.POSITION n 0 = (if up then (p + 1) % c else (p + c - 1) % c) ∧
      d1.rdAt R.TBASE.REVOLUTIONS n 0 = (if up = true ∧ p + 1 = c then (r + 1) % 2 ^ 32 else if up = false ∧ p = 0 then (r + 2 ^ 32 - 1) % 2 ^ 32 else r) ∧
      d1 = { d with regs := d1.regs }) ∧
  (∀ (s : State) (n t : Nat) (d1 : Dev), n < 4 → d1 = s.dev.toTick t →
    exec (.dividerCount n t) s = .next (s.after fun _ =>
      if d1.tbCounts n 1 = true ∧ SMap.get d1.clk.divNext n ≤ d1.refEdges then
        ({ d1 with clk := { d1.clk with divNext := SMap.set d1.clk.divNext n (SMap.get d1.clk.divNext n + d1.rdAt R.TBASE.DIV n 0) } } : Dev).countTb n true
          (d1.refInstant (SMap.get d1.clk.divNext n))
      else d1)) ∧
  (∀ (s : State) (n t m : Nat) (d1 : Dev), n < 4 → d1 = s.dev.toTick t → m = d1.tbEdge (d1.monoAt (SMap.get d1.clk.perNext n)) 0 →
    exec (.periodicInstant n t) s = .next (s.after fun _ =>
      if d1.tbCounts n 6 = true ∧ m ≤ d1.mono then
        ({ d1 with clk := { d1.clk with perNext := SMap.set d1.clk.perNext n (SMap.get d1.clk.perNext n + d1.rdAt R.TBASE.PERIOD n 0) } } : Dev).countTb n true m
      else d1)) ∧
  (∀ (s : State) (n level since t m : Nat) (d1 : Dev), n < 4 → d1 = (s.dev.toTick t).settlePins.watchTbPins → m = d1.qualified (d1.rdAt R.TBASE.TB_CFG_FILTER n 0) since →
    exec (.zeroCrossEdge n level since t) s = .next (s.after fun _ =>
      if m ≤ d1.mono ∧ d1.tbCounts n 4 = true ∧ edgeSelected (d1.rdAt R.TBASE.TB_CFG_EDGE n 0) level = true then d1.countTb n true m else d1) ∧
    exec (.lineSyncEdge n level since t) s = .next (s.after fun _ =>
      if m ≤ d1.mono ∧ d1.tbCounts n 5 = true ∧ edgeSelected (d1.rdAt R.TBASE.TB_CFG_EDGE n 0) level = true then d1.countTb n true m else d1)) ∧
  (∀ (s : State) (line level since t : Nat), line < 16 → s.dev.rdAt R.TIME.TRIG_CFG_OUT 0 line = 1 → exec (.triggerEdge line level since t) s = .next s) ∧
  (∀ (s : State) (line level since t : Nat), line < 16 → s.dev.rdAt R.TIME.TRIG_CFG_OUT 0 line ≠ 1 →
    exec (.triggerEdge line level since t) s = .next (s.after fun d =>
      forUpto 4 (fun n d => if d.rdAt R.TBASE.TB_CFG_TRIG_LINE n 0 = line then d.inputEdge 2 n level since t else d) d)) ∧
  (∀ (s : State) (n a b since t q m : Nat) (d1 : Dev), n < 4 → q = (if b % 2 = 0 then a % 2 else 3 - a % 2) → d1 = (s.dev.toTick t).settlePins.watchTbPins →
    SMap.get d1.clk.lastAB n < 4 → m = d1.qualified (d1.rdAt R.TBASE.TB_CFG_FILTER n 0) since →
    exec (.encoderCount n a b since t) s = .next (s.after fun _ =>
      let d2 := { d1 with clk := { d1.clk with lastAB := SMap.set d1.clk.lastAB n q } }
      if d1.mono < m then d1
      else if d1.tbCounts n 3 = false ∨ q = SMap.get d1.clk.lastAB n then d2
      else if q = (SMap.get d1.clk.lastAB n + 2) % 4 then ((d2.bumpAt R.TBASE.ENC_ERRORS n 0).event (0x408 + n)).loseTb n 3
      else if (q = (SMap.get d1.clk.lastAB n + 1) % 4) ↔ d1.rdAt R.TBASE.TB_CFG_DIR_INV n 0 ≠ 1 then (d2.endCause n 3).countTb n true m
      else (d2.endCause n 3).countTb n false m)) ∧
  (∀ (s : State) (n a b t : Nat), 4 ≤ n → exec (.dividerCount n t) s = .fault .noSuchUnit ∧ exec (.periodicInstant n t) s = .fault .noSuchUnit ∧
    exec (.zeroCrossEdge n a b t) s = .fault .noSuchUnit ∧ exec (.lineSyncEdge n a b t) s = .fault .noSuchUnit ∧ exec (.encoderCount n a b t t) s = .fault .noSuchUnit) ∧
  (∀ (s : State) (n a b t : Nat), 16 ≤ n → exec (.triggerEdge n a b t) s = .fault .noSuchUnit)

/-- spec/10 R279 to R281, R288, R290: INDEX, LOST_TIMEOUT, SUBSTITUTE_TICK and TB_CFG_WRITE. -/
def Obligations.TimeBaseControl : Prop :=
  (∀ (s : State) (n since t : Nat) (d1 : Dev), n < 4 → d1 = (s.dev.toTick t).settlePins.watchTbPins → d1.qualified (d1.rdAt R.TBASE.TB_CFG_FILTER n 0) since ≤ d1.mono →
    (d1.tbCounts n 3 = true ∨ d1.tbCounts n 5 = true) →
    (d1.rdAt R.TBASE.TB_CFG_INDEX_MODE n 0 = 1 ∨ d1.rdAt R.TBASE.TB_CFG_INDEX_MODE n 0 = 2 ∧ SMap.get d1.clk.indexed n = 0) →
    exec (.index n since t) s = .next (s.after fun _ =>
      let d2 := { d1 with clk := { d1.clk with indexed := SMap.set d1.clk.indexed n 1 } }
      let d3 := (d2.wrAt R.TBASE.POSITION n 0 (d1.rdAt R.TBASE.INDEX_POS n 0)).wrAt R.TBASE.TB_STATUS_INDEX_SEEN n 0 1
      if d1.rdAt R.TBASE.POSITION n 0 = d1.rdAt R.TBASE.INDEX_POS n 0 then d3 else (d3.bumpAt R.TBASE.INDEX_ERRORS n 0).event (0x40C + n))) ∧
  (∀ (s : State) (n since t : Nat) (d1 : Dev), n < 4 → d1 = (s.dev.toTick t).settlePins.watchTbPins →
    (d1.mono < d1.qualified (d1.rdAt R.TBASE.TB_CFG_FILTER n 0) since ∨ d1.tbCounts n 3 = false ∧ d1.tbCounts n 5 = false ∨ d1.rdAt R.TBASE.TB_CFG_INDEX_MODE n 0 = 0 ∨
      d1.rdAt R.TBASE.TB_CFG_INDEX_MODE n 0 = 2 ∧ SMap.get d1.clk.indexed n ≠ 0) →
    exec (.index n since t) s = .next (s.after fun _ => d1)) ∧
  (∀ (s : State) (n t : Nat) (d1 : Dev), n < 4 → d1 = s.dev.toTick t →
    exec (.lostTimeout n t) s = .next (s.after fun _ =>
      if 2 ≤ d1.tbSource n ∧ d1.tbSource n ≤ 5 ∧ d1.rdAt R.TBASE.LOST_TIMEOUT n 0 ≠ 0 ∧
          SMap.get d1.clk.lostSince n + d1.rdAt R.TBASE.LOST_TIMEOUT n 0 * usec ≤ d1.now ∧ isSet (SMap.get d1.clk.lost n) 1 = false then d1.loseTb n 1
      else d1)) ∧
  (∀ (s : State) (n t m : Nat) (d1 : Dev), n < 4 → d1 = s.dev.toTick t → m = d1.tbEdge (d1.monoAt (SMap.get d1.clk.subNext n)) 0 →
    SMap.get d1.clk.subNext n ≠ 0 → m ≤ d1.mono → SMap.get d1.clk.lostNow n = 1 → d1.rd R.TAKE.TAKE_CTRL_TB_SEL = n → d1.rd R.TAKE.TAKE_CTRL_LOST_RESP = 2 →
    ∃ subs, exec (.substituteTick n t) s = .next (s.after fun _ =>
      let d2 := { d1 with
        clk := { d1.clk with subNext := SMap.set d1.clk.subNext n (SMap.get d1.clk.subNext n + d1.rdAt R.TBASE.MEAN_PERIOD n 0 * 2 ^ 32) }
        tk := { d1.tk with subs := subs } }
      ((d2.wrAt R.TBASE.TB_STATUS_SUBSTITUTING n 0 1).wrAt R.TBASE.LAST_TICK n 0 (d1.stampAt m)).spreadTick n (d1.stampAt m) m) ∧
      subs = (if d1.running = true ∧ d1.locked = true then d1.stampAt m :: d1.tk.subs else d1.tk.subs)) ∧
  (∀ (s : State) (n t : Nat) (d1 : Dev), n < 4 → d1 = s.dev.toTick t → (SMap.get d1.clk.subNext n = 0 ∨ d1.mono < d1.tbEdge (d1.monoAt (SMap.get d1.clk.subNext n)) 0 ∨
      SMap.get d1.clk.lostNow n ≠ 1 ∨ d1.rd R.TAKE.TAKE_CTRL_TB_SEL ≠ n ∨ d1.rd R.TAKE.TAKE_CTRL_LOST_RESP ≠ 2) → exec (.substituteTick n t) s = .next (s.after fun _ => d1)) ∧
  (∀ (s : State) (n off w t : Nat), n < 4 → s.dev.reaches (0xE + n) = true → s.dev.running = true → s.dev.rd R.TAKE.TAKE_CTRL_TB_SEL = n →
    exec (.tbCfgWrite n off w t) s = .next (s.after fun d => (d.atWrite t).wrAt R.TBASE.TB_STATUS_WRITE_REFUSED n 0 1)) ∧
  (∀ (s : State) (n off w t : Nat) (bs : Bytes), n < 4 → s.dev.reaches (0xE + n) = true → (s.dev.running = false ∨ s.dev.rd R.TAKE.TAKE_CTRL_TB_SEL ≠ n) →
    off ≠ 0x50 → off ≠ 0x54 → off ≠ 0x58 → off ≠ 0x5C → bs = (s.dev.tbBlock n).take (off - 0x40) ++ leBytes w 4 ++ (s.dev.tbBlock n).drop (off - 0x40 + 4) →
    exec (.tbCfgWrite n off w t) s = .next (s.after fun d => if blockValid bs then (d.atWrite t).setTbBlock n bs false else (d.atWrite t).wrAt R.TBASE.TB_STATUS_WRITE_REFUSED n 0 1)) ∧
  (∀ (s : State) (n off w t : Nat), n < 4 → s.dev.reaches (0xE + n) = true → (s.dev.running = false ∨ s.dev.rd R.TAKE.TAKE_CTRL_TB_SEL ≠ n) → (off = 0x50 ∨ off = 0x58) →
    exec (.tbCfgWrite n off w t) s = .next (s.after fun d => (d.atWrite t).stageLow ((0xE000 + 0x1000 * n + off) * 8) w)) ∧
  (∀ (s : State) (n off w t key : Nat) (bs : Bytes), n < 4 → s.dev.reaches (0xE + n) = true → (s.dev.running = false ∨ s.dev.rd R.TAKE.TAKE_CTRL_TB_SEL ≠ n) → (off = 0x54 ∨ off = 0x5C) →
    key = (0xE000 + 0x1000 * n + off) * 8 - 32 →
    bs = (s.dev.tbBlock n).take (off - 0x44) ++ leBytes (s.dev.stagedLow key (leAt (s.dev.tbBlock n) (off - 0x44) 4)) 4 ++ leBytes w 4 ++ (s.dev.tbBlock n).drop (off - 0x44 + 8) →
    exec (.tbCfgWrite n off w t) s = .next (s.after fun d =>
      if blockValid bs then ((d.atWrite t).unstage key).setTbBlock n bs false else (d.atWrite t).wrAt R.TBASE.TB_STATUS_WRITE_REFUSED n 0 1)) ∧
  (∀ (s : State) (n o w t : Nat), 4 ≤ n → exec (.index n o t) s = .fault .noSuchUnit ∧ exec (.lostTimeout n t) s = .fault .noSuchUnit ∧
    exec (.substituteTick n t) s = .fault .noSuchUnit ∧ exec (.tbCfgWrite n o w t) s = .fault .noSuchUnit)

/-- spec/10 R285 to R287: PULSE_CTRL_WRITE, PULSE_BOUNDARY, CAPTURE_EDGE, STAMP_LO_READ and TRIG_PULSE_END. -/
def Obligations.PulsesAndCaptures : Prop :=
  (∀ (s : State) (k w t : Nat) (d0 : Dev), k < 8 → s.dev.reaches 0xD = true → d0 = (s.dev.atWrite t).settleJump →
    (w % 4 ≠ 2 ∨ d0.rdAt R.TIME.WIDTH 0 k * 2 ^ 32 < d0.rdAt R.TIME.PERIOD 0 k ∧ 5 * 2 ^ 32 ≤ d0.rdAt R.TIME.PERIOD 0 k) →
    ∃ u, exec (.pulseCtrlWrite k w t) s = .next u ∧ u.envelope = s.envelope ∧ u.pending = s.pending ∧ u.dev.arr = d0.arr ∧ u.dev.pins = d0.pins ∧
      u.dev.rdAt R.TIME.PULSE_CTRL_MODE 0 k = w % 4 ∧ u.dev.rdAt R.TIME.PULSE_CTRL_IDLE 0 k = w / 4 % 2 ∧ u.dev.rdAt R.TIME.PULSE_CTRL_ARMED 0 k = bit (w % 4 = 1 ∨ w % 4 = 2) ∧
      SMap.get u.dev.clk.pulse k = 0 ∧
      ((w % 4 = 1 ∨ w % 4 = 2) → SMap.get u.dev.clk.pulseNext k = d0.instantOf (d0.rdAt R.TIME.START 0 k) ∧
        u.dev.rdAt R.TIME.PULSE_CTRL_LATE 0 k = if d0.instantOf (d0.rdAt R.TIME.START 0 k) ≤ d0.now then 1 else if bitAt w 9 = 1 then 0 else d0.rdAt R.TIME.PULSE_CTRL_LATE 0 k)) ∧
  (∀ (s : State) (k w t : Nat) (d0 : Dev), k < 8 → s.dev.reaches 0xD = true → d0 = (s.dev.atWrite t).settleJump → w % 4 = 2 →
    (d0.rdAt R.TIME.PERIOD 0 k ≤ d0.rdAt R.TIME.WIDTH 0 k * 2 ^ 32 ∨ d0.rdAt R.TIME.PERIOD 0 k < 5 * 2 ^ 32) →
    exec (.pulseCtrlWrite k w t) s = .next (s.after fun _ => d0.wr R.TIME.TIME_STATUS_WRITE_REFUSED 1)) ∧
  (∀ (s : State) (k t m : Nat) (d1 : Dev), k < 8 → d1 = s.dev.toTick t → m = d1.pulseEdge k → d1.rdAt R.TIME.PULSE_CTRL_ARMED 0 k = 1 → m ≤ d1.mono → SMap.get d1.clk.pulseEnd k = 0 →
    exec (.pulseBoundary k t) s = .next (s.after fun _ =>
      let d2 := ({ d1 with clk := { d1.clk with
          pulseEnd := SMap.set d1.clk.pulseEnd k 1, pulseNext := SMap.set d1.clk.pulseNext k (SMap.get d1.clk.pulseNext k + SMap.get d1.clk.pulseWid k) } } : Dev).setPulse k
        (bit (decide (0 < SMap.get d1.clk.pulseWid k))) m
      if d2.pulseEdge k = m then d2.pulseStep k m else d2)) ∧
  (∀ (s : State) (k t m : Nat) (d1 : Dev), k < 8 → d1 = s.dev.toTick t → m = d1.pulseEdge k → d1.rdAt R.TIME.PULSE_CTRL_ARMED 0 k = 1 → m ≤ d1.mono → SMap.get d1.clk.pulseEnd k ≠ 0 →
    exec (.pulseBoundary k t) s = .next (s.after fun _ =>
      let d2 := ({ d1 with clk := { d1.clk with
          pulseEnd := SMap.set d1.clk.pulseEnd k 0
          pulseNext := SMap.set d1.clk.pulseNext k (SMap.get d1.clk.pulseNext k - SMap.get d1.clk.pulseWid k + SMap.get d1.clk.pulsePer k) } } : Dev).setPulse k 0 m
      if d1.rdAt R.TIME.PULSE_CTRL_MODE 0 k = 2 then d2 else d2.wrAt R.TIME.PULSE_CTRL_ARMED 0 k 0)) ∧
  (∀ (d : Dev) (k v m : Nat), SMap.get (d.setPulse k v m).clk.pulse k = v ∧ ((SMap.get (d.setPulse k v m).clk.outs k).head? = some (d.tbEdge m 2, v))) ∧
  (∀ (s : State) (k t : Nat), k < 8 → ((s.dev.toTick t).rdAt R.TIME.PULSE_CTRL_ARMED 0 k ≠ 1 ∨ (s.dev.toTick t).mono < (s.dev.toTick t).pulseEdge k) →
    exec (.pulseBoundary k t) s = .next (s.after (Dev.toTick · t))) ∧
  (∀ (s : State) (k level since t m u : Nat) (d1 : Dev), k < 16 → d1 = (s.dev.toTick t).settlePins → m = d1.qualified (d1.rdAt R.TIME.CAP_CTRL_FILTER 0 k) since → u = d1.stampAt m % 2 ^ 64 →
    m ≤ d1.mono → d1.rdAt R.TIME.CAP_CTRL_ENABLE 0 k = 1 → edgeSelected (d1.rdAt R.TIME.CAP_CTRL_EDGE 0 k) (level % 2) = true →
    (d1.rdAt R.TIME.CAP_CTRL_GATE_EN 0 k = 0 ∨ stampGe u (d1.rdAt R.TIME.GATE_START 0 k) = true ∧ stampGe u (d1.rdAt R.TIME.GATE_END 0 k) = false) →
    d1.pinServes (264 + k) 3 (0x10 + k) = true →
    exec (.captureEdge k level since t) s = .next (s.after fun _ =>
      if 16 ≤ (SMap.get d1.clk.caps k).length then (d1.wrAt R.TIME.CAP_STATUS_OVERFLOW 0 k 1).event (0x430 + k)
      else (d1.setCaps k (SMap.get d1.clk.caps k ++ [putBit u 0 level])).event (0x420 + k))) ∧
  (∀ (s : State) (k level since t m u : Nat) (d1 : Dev), k < 16 → d1 = (s.dev.toTick t).settlePins → m = d1.qualified (d1.rdAt R.TIME.CAP_CTRL_FILTER 0 k) since → u = d1.stampAt m % 2 ^ 64 →
    (d1.mono < m ∨ d1.rdAt R.TIME.CAP_CTRL_ENABLE 0 k ≠ 1 ∨ edgeSelected (d1.rdAt R.TIME.CAP_CTRL_EDGE 0 k) (level % 2) = false ∨ d1.pinServes (264 + k) 3 (0x10 + k) = false ∨
      d1.rdAt R.TIME.CAP_CTRL_GATE_EN 0 k ≠ 0 ∧ (stampGe u (d1.rdAt R.TIME.GATE_START 0 k) = false ∨ stampGe u (d1.rdAt R.TIME.GATE_END 0 k) = true)) →
    exec (.captureEdge k level since t) s = .next (s.after fun _ => d1)) ∧
  (∀ (s : State) (k t : Nat), k < 16 → s.dev.rowUp 0xD = true →
    exec (.stampLoRead k t) s = .next (s.after fun d =>
      let d1 := d.atRead t
      (({ d1 with latch := SMap.set d1.latch (R.TIME.STAMP.key 0 k / 8) (d.rdAt R.TIME.STAMP 0 k / 2 ^ 32 + 1) } : Dev).emit (.readData (leBytes (d.rdAt R.TIME.STAMP 0 k) 4))).setCaps k
        ((SMap.get d.clk.caps k).drop 1))) ∧
  (∀ (s : State) (k t : Nat) (d1 : Dev), k < 16 → d1 = s.dev.toTick t →
    exec (.trigPulseEnd k t) s = .next (s.after fun _ =>
      if SMap.get d1.clk.trig k = 1 ∧ SMap.get d1.clk.trigEnd k ≤ d1.mono then
        ({ d1 with clk := { d1.clk with trig := SMap.set d1.clk.trig k 0, trigEnd := SMap.set d1.clk.trigEnd k 0 } } : Dev).setOut (8 + k) 0 (SMap.get d1.clk.trigEnd k)
      else d1)) ∧
  (∀ (s : State) (k w t : Nat), 8 ≤ k → exec (.pulseCtrlWrite k w t) s = .fault .noSuchUnit ∧ exec (.pulseBoundary k t) s = .fault .noSuchUnit) ∧
  (∀ (s : State) (k v t : Nat), 16 ≤ k → exec (.captureEdge k v v t) s = .fault .noSuchUnit ∧ exec (.stampLoRead k t) s = .fault .noSuchUnit ∧ exec (.trigPulseEnd k t) s = .fault .noSuchUnit)

/-- spec/11 R293, R304, R307, R309, R315: ENABLE, RETRAIN, PEER_CLOCK_ACTIVITY, RECEIVE_PLL_LOCK, BIT_LOCK_DONE, SYMBOL_LOCK_DONE, LINK_STATE_TIMEOUT, LINK_LOS, LINK_LOL and TX_EQ_WRITE. -/
def Obligations.PortTraining : Prop :=
  (∀ (s : State) (p w t : Nat), p < 8 → s.dev.reaches (0x209 + p) = true → s.dev.running = true →
    exec (.enable p w t) s = .next (s.after fun d => (d.atWrite t).wrAt R.KL.KL_STATUS_WRITE_REFUSED p 0 1) ∧
    exec (.retrain p w t) s = .next (s.after fun d => (d.atWrite t).wrAt R.KL.KL_STATUS_WRITE_REFUSED p 0 1) ∧
    exec (.txEqWrite p w t) s = .next (s.after fun d => (d.atWrite t).wrAt R.KL.KL_STATUS_WRITE_REFUSED p 0 1)) ∧
  (∀ (s : State) (p w t : Nat), p < 8 → s.dev.reaches (0x209 + p) = true → s.dev.running = false →
    exec (.txEqWrite p w t) s = .next (s.after fun d =>
      (((d.atWrite t).wrAt R.KL.TX_EQ_PRE p 0 w).wrAt R.KL.TX_EQ_POST p 0 (w / 16)).wrAt R.KL.TX_EQ_SWING p 0 (w / 512))) ∧
  (∀ (s : State) (p w t : Nat), p < 8 → s.dev.reaches (0x209 + p) = true → s.dev.running = false → w % 2 = 1 →
    exec (.enable p w t) s = .next (s.after fun d =>
      if d.rdAt R.KL.KL_CTRL_ENABLE p 0 = 0 ∨ bitAt w 2 = 1 then
        ((((d.atWrite t).klFields p w).wrAt R.KL.KL_STATUS_V2_FAILED p 0 0).setPort p fun q => { q with fails := 0 }).enterDetect p
      else (d.atWrite t).klFields p w) ∧
    exec (.retrain p w t) s = .next (s.after fun d =>
      ((((d.atWrite t).klFields p w).wrAt R.KL.KL_STATUS_V2_FAILED p 0 0).setPort p fun q => { q with fails := 0 }).enterDetect p)) ∧
  (∀ (s : State) (p w t : Nat), p < 8 → s.dev.reaches (0x209 + p) = true → s.dev.running = false → w % 2 = 0 →
    exec (.enable p w t) s = .next (s.after fun d =>
      if d.rdAt R.KL.KL_CTRL_ENABLE p 0 = 1 then (((d.atWrite t).klFields p w).wrAt R.KL.KL_STATUS_V2_FAILED p 0 0).portDown p 1 else (d.atWrite t).klFields p w) ∧
    exec (.retrain p w t) s = .next (s.after fun d =>
      if d.rdAt R.KL.KL_CTRL_ENABLE p 0 = 1 then (((d.atWrite t).klFields p w).wrAt R.KL.KL_STATUS_V2_FAILED p 0 0).portDown p 1 else (d.atWrite t).klFields p w)) ∧
  (∀ (s : State) (p t : Nat), p < 8 →
    exec (.peerClockActivity p t) s = .next (if s.dev.portState p = 1 then s.after fun d => (d.toTime t).enterClockLock p 1 false else s)) ∧
  (∀ (s : State) (p t : Nat), p < 8 → s.dev.portState p = 2 →
    exec (.receivePllLock p t) s = .next (s.after fun d =>
      let d1 := (d.toTime t).wrAt R.KL.CLK_LOL_NOW p 0 0
      if (d.port p).low then d1.enterSymbolLock p 1 else d1.enterBitLock p)) ∧
  (∀ (s : State) (p t : Nat), p < 8 → s.dev.portState p ≠ 2 → exec (.receivePllLock p t) s = .next s) ∧
  (∀ (s : State) (p lanes t : Nat), p < 8 → s.dev.portState p = 3 →
    exec (.bitLockDone p lanes t) s = .next (s.after fun d =>
      let d1 := (d.toTime t).setPort p fun q => { q with locked := lanes &&& q.wanted }
      if lanes &&& (d.port p).wanted = (d.port p).wanted ∧ d1.minLanes p ≤ popCount (d.port p).wanted 8 then d1.enterSymbolLock p (d.port p).wanted else d1)) ∧
  (∀ (s : State) (p lanes t : Nat), p < 8 → s.dev.portState p ≠ 3 → exec (.bitLockDone p lanes t) s = .next s) ∧
  (∀ (s : State) (p t : Nat), p < 8 → s.dev.portState p = 4 →
    exec (.symbolLockDone p t) s = .next (s.after fun d =>
      let d1 := d.toTime t
      if (d.port p).low then (d1.setPort p fun q => { q.requeue with fails := 0, fromLow := true }).setPortState p 7 else d1.enterExchange p)) ∧
  (∀ (s : State) (p t : Nat), p < 8 → s.dev.portState p ≠ 4 → exec (.symbolLockDone p t) s = .next s) ∧
  (∀ (s : State) (p t : Nat), p < 8 → linkTimeout (s.dev.portState p) ≠ 0 → (s.dev.port p).since + linkTimeout (s.dev.portState p) ≤ (s.dev.toTime t).mono →
    exec (.linkStateTimeout p t) s = .next (s.after fun d =>
      if d.portState p ≠ 3 then (d.toTime t).attemptFailed p 2
      else if d.minLanes p ≤ popCount (d.port p).locked 8 then (d.toTime t).enterSymbolLock p (d.port p).locked else (d.toTime t).attemptFailed p 3)) ∧
  (∀ (s : State) (p t : Nat), p < 8 → (linkTimeout (s.dev.portState p) = 0 ∨ (s.dev.toTime t).mono < (s.dev.port p).since + linkTimeout (s.dev.portState p)) →
    exec (.linkStateTimeout p t) s = .next s) ∧
  (∀ (s : State) (p lane t : Nat), p < 8 → lane < 8 → 3 ≤ s.dev.portState p → isSet (s.dev.port p).wanted lane = true →
    exec (.linkLos p lane t) s = .next (s.after fun d =>
      let d1 := (d.toTime t).wrAt R.KL.LOS_NOW p 0 (putBit (d.rdAt R.KL.LOS_NOW p 0) lane 1)
      let d2 := (d1.report (d1.linkFault 0x60 0 p lane 0) false).setPort p fun q => { q with excl := putBit q.excl lane 1 }
      if d.portState p = 3 then d2 else d2.enterBitLock p) ∧
    exec (.linkLol p lane t) s = .next (s.after fun d =>
      let d1 := (d.toTime t).wrAt R.KL.LOL_NOW p 0 (putBit (d.rdAt R.KL.LOL_NOW p 0) lane 1)
      let d2 := d1.report (d1.linkFault 0x61 0 p lane 0) false
      if d.portState p = 3 then d2 else d2.enterBitLock p)) ∧
  (∀ (s : State) (p t : Nat), p < 8 → 3 ≤ s.dev.portState p →
    exec (.linkLol p 0x7F t) s = .next (s.after fun d =>
      let d1 := (d.toTime t).wrAt R.KL.CLK_LOL_NOW p 0 1
      (d1.report (d1.linkFault 0x61 0 p 0x7F 0) false).enterClockLock p (d.port p).version (d.port p).low)) ∧
  (∀ (s : State) (p lane t : Nat), p < 8 → (s.dev.portState p < 3 ∨ lane < 8 ∧ isSet (s.dev.port p).wanted lane = false) →
    exec (.linkLos p lane t) s = .next s ∧ exec (.linkLol p lane t) s = .next s) ∧
  (∀ (s : State) (p lane t : Nat), p < 8 → 8 ≤ lane → exec (.linkLos p lane t) s = .next s) ∧
  (∀ (s : State) (p lane t : Nat), p < 8 → 8 ≤ lane → lane ≠ 0x7F → exec (.linkLol p lane t) s = .next s) ∧
  (∀ (s : State) (p a t : Nat), 8 ≤ p → exec (.enable p a t) s = .fault .noSuchUnit ∧ exec (.retrain p a t) s = .fault .noSuchUnit ∧ exec (.txEqWrite p a t) s = .fault .noSuchUnit ∧
    exec (.peerClockActivity p t) s = .fault .noSuchUnit ∧ exec (.receivePllLock p t) s = .fault .noSuchUnit ∧ exec (.bitLockDone p a t) s = .fault .noSuchUnit ∧
    exec (.symbolLockDone p t) s = .fault .noSuchUnit ∧ exec (.linkStateTimeout p t) s = .fault .noSuchUnit ∧ exec (.linkLos p a t) s = .fault .noSuchUnit ∧
    exec (.linkLol p a t) s = .fault .noSuchUnit)

/-- spec/11 R301, R305, R306, spec/01 R32: EXCHANGE_A, EXCHANGE_B and EXCHANGE_C. -/
def Obligations.PortExchange : Prop :=
  (∀ (s : State) (p highest selected lanes position port mhz device : Nat), p < 8 → s.dev.portState p = 5 →
    exec (.exchangeA p highest selected lanes position port mhz device) s = .next (s.after fun d =>
      let d1 := (((d.wrAt R.KL.PEER_POSITION p 0 position).wrAt R.KL.PEER_PORT p 0 port).wrAt R.KL.PEER_VERSION p 0 highest).wrAt R.KL.PEER_DEVICE_ID p 0 device
      if facing d.position p = some (position, port) ∧ device = (if d.part.dies = 4 then 0x7040 else 0x7080) ∧ mhz = d.rd R.CLK.STEP_MHZ then
        let d2 := (d1.wrAt R.KL.KL_STATUS_USABLE p 0 (d.rdAt R.KL.KL_STATUS_USABLE p 0 &&& lanes)).setPort p fun q =>
          { q with excl := 255 - (d.rdAt R.KL.KL_STATUS_USABLE p 0 &&& lanes) }
        if popCount (d.rdAt R.KL.KL_STATUS_USABLE p 0 &&& lanes) 8 < d2.minLanes p then d2.attemptFailed p 3
        else
          let d3 := d2.setPort p fun q => { q with gotA := true, peerSel := selected + 1, sel := min (d.highestVersion p) highest }
          (if min (d.highestVersion p) highest = (d.port p).sel then d3 else d3.sendExchangeA p).exchangeDone p
      else (d1.report (d1.linkFault 0x64 3 p 0 (d1.rdAt R.KL.PEER_POSITION p 0)) false).portDown p 4)) ∧
  (∀ (s : State) (p production size : Nat), p < 8 → s.dev.portState p = 5 → production = s.dev.rd R.LOAD.PRODUCTION_ID → size = s.dev.ld.setSize →
    exec (.exchangeB p production size) s = .next (s.after fun d => ((d.wrAt R.KL.PEER_PRODUCTION_ID p 0 production).setPort p fun q => { q with gotB := true }).exchangeDone p)) ∧
  (∀ (s : State) (p production size : Nat), p < 8 → s.dev.portState p = 5 → (production ≠ s.dev.rd R.LOAD.PRODUCTION_ID ∨ size ≠ s.dev.ld.setSize) →
    exec (.exchangeB p production size) s = .next (s.after fun d =>
      let d1 := d.wrAt R.KL.PEER_PRODUCTION_ID p 0 production
      (d1.report (d1.linkFault 0x64 3 p 0 (d1.rdAt R.KL.PEER_POSITION p 0)) false).portDown p 4)) ∧
  (∀ (s : State) (p serial : Nat), p < 8 → s.dev.portState p = 5 →
    exec (.exchangeC p serial) s = .next (s.after fun d => ((d.wrAt R.KL.PEER_SERIAL p 0 serial).setPort p fun q => { q with gotC := true }).exchangeDone p)) ∧
  (∀ (d : Dev) (p : Nat), d.exchangeDone p =
    if (d.port p).gotA = true ∧ (d.port p).gotB = true ∧ (d.port p).gotC = true ∧ (d.port p).peerSel = (d.port p).sel + 1 then
      (if (d.port p).sel = (d.port p).version then d.enterActive p else d.enterClockLock p (d.port p).sel false)
    else d) ∧
  (∀ (s : State) (p a b c e f g h : Nat), p < 8 → s.dev.portState p ≠ 5 →
    exec (.exchangeA p a b c e f g h) s = .next s ∧ exec (.exchangeB p a b) s = .next s ∧ exec (.exchangeC p a) s = .next s) ∧
  (∀ (s : State) (p a b c e f g h : Nat), 8 ≤ p →
    exec (.exchangeA p a b c e f g h) s = .fault .noSuchUnit ∧ exec (.exchangeB p a b) s = .fault .noSuchUnit ∧ exec (.exchangeC p a) s = .fault .noSuchUnit)

/-- spec/11 R294, R298, R300, R310, R311: LINK_FRAME_SEND, LINK_FRAME_RECEIVE and REPLAY_TIMEOUT. -/
def Obligations.PortFrames : Prop :=
  (∀ (s : State) (p t : Nat) (f : LinkFrame), p < 8 → (s.dev.portState p = 6 ∨ s.dev.portState p = 7) → 0 < (s.dev.port p).resend →
    (s.dev.port p).replay[(s.dev.port p).replay.length - (s.dev.port p).resend]? = some f →
    exec (.linkFrameSend p t) s = .next (s.after fun d =>
      let d1 := d.toTime t
      (d1.emitFrame p (d1.frameNow p f) f.data.isSome).setPort p fun q => { q with resend := q.resend - 1 })) ∧
  (∀ (s : State) (p t : Nat), p < 8 → (s.dev.portState p = 6 ∨ s.dev.portState p = 7) → (s.dev.port p).resend = 0 → 64 ≤ (s.dev.port p).replay.length →
    exec (.linkFrameSend p t) s = .next (s.after (Dev.toTime · t))) ∧
  (∀ (s : State) (p t need : Nat) (bytes : Bytes) (msgs : List (Nat × Bytes)) (q : Port) (f : LinkFrame), p < 8 → (s.dev.portState p = 6 ∨ s.dev.portState p = 7) → (s.dev.port p).resend = 0 →
    (s.dev.port p).replay.length < 64 → need = (if s.dev.portState p = 7 then 14 else 2 * (s.dev.usedLanes p - 1)) →
    (s.dev.port p).streamBytes need (need + 2) = (bytes, msgs, q) → f = ⟨(s.dev.port p).txSeq, (s.dev.toTime t).filledFrame p, bytes, msgs⟩ →
    exec (.linkFrameSend p t) s = .next (s.after fun d =>
      let d1 := d.toTime t
      let d2 := d1.setPort p fun _ =>
        { q with
          txSeq := (f.seq + 1) % 128, replay := q.replay ++ [f], ackSince := if q.replay = [] then d1.mono else q.ackSince
          txTotal := q.txTotal + bit f.data.isSome }
      forAll msgs (fun m d => d.messageSent p f.seq m.1) ((d2.emitFrame p (d1.frameNow p f) f.data.isSome).count (0x48 + p) 6 msgs.length))) ∧
  (∀ (s : State) (p t : Nat), p < 8 → s.dev.portState p ≠ 6 → s.dev.portState p ≠ 7 → exec (.linkFrameSend p t) s = .next s) ∧
  (∀ (need fuel : Nat) (bytes : Bytes) (msgs : List (Nat × Bytes)) (q q1 : Port), q.streamBytes need fuel = (bytes, msgs, q1) → q1.txSeq = q.txSeq ∧ q1.replay = q.replay) ∧
  (∀ (bs : Bytes) (plus : Bool), bs.length = 30 → laneGood bs = true →
    (laneIn (laneSymbols bs plus).1 (1 + bit plus)).data = some bs ∧ (laneIn (laneSymbols bs plus).1 (1 + bit plus)).comma = true ∧
    (laneIn (laneSymbols bs plus).1 (1 + bit plus)).errors = 0 ∧ (laneIn (laneSymbols bs plus).1 (1 + bit plus)).plus = (laneSymbols bs plus).2) ∧
  (∀ (s : State) (p t : Nat) (lanes : List (List Nat)), p < 8 → 4 ≤ s.dev.portState p →
    exec (.linkFrameReceive p lanes t) s = .next (s.after fun d =>
      let ins := (lanes.zip (d.frameLaneNos p)).map fun l => (laneIn l.1 (SMap.get (d.port p).rxPlus l.2), l.2)
      let d1 := ((d.toTime t).setPort p fun q => { q with rxPlus := ins.foldl (fun m l => SMap.set m l.2 (1 + bit l.1.plus)) q.rxPlus }).disparity p (ins.map fun l => (l.2, l.1.errors))
      let d2 := if d.portState p = 4 then d1 else d1.commaChecks p (ins.foldl (fun m l => putBit m l.2 (bit (!l.1.comma))) 0) t
      (if d2.portTalks p then d2.judgeFrame p t (ins.map (·.1)) else d2).heldStart)) ∧
  (∀ (s : State) (p t : Nat) (lanes : List (List Nat)), p < 8 → s.dev.portState p < 4 → exec (.linkFrameReceive p lanes t) s = .next (s.after Dev.heldStart)) ∧
  (∀ (d : Dev) (p t u : Nat) (ins : List LaneIn), u = (if d.portState p = 7 then 1 else d.usedLanes p) →
    (ins.length ≠ u ∨ (ins.filterMap LaneIn.data).length ≠ u ∨ (∃ l, l ∈ ins ∧ (l.comma = false ∨ l.errors ≠ 0)) ∨ ∃ l, l ∈ ins.filterMap LaneIn.data ∧ (laneGood l = false ∨ l.headD 0 ≠ ((ins.filterMap LaneIn.data).headD []).headD 0)) →
    d.judgeFrame p t ins = (((d.setPort p fun q => { q with nak := true, ahead := q.ahead + 1, again := max q.again (q.ahead + 1) }).bumpAt R.KL.CRC_ERRORS p 0).count (0x48 + p) 3 1)) ∧
  (∀ (d : Dev) (p t n : Nat) (head : Byte) (ins : List LaneIn) (lanes : List Bytes), ins.map LaneIn.data = lanes.map some → ins.length = (if d.portState p = 7 then 1 else d.usedLanes p) → 0 < ins.length →
    (∀ l ∈ ins, l.comma = true ∧ l.errors = 0) → (∀ l ∈ lanes, laneGood l = true ∧ l.headD 0 = head) → n = (head.toNat % 128 + 128 - (d.port p).expect % 128) % 128 →
    (0 < n → ∃ m, d.judgeFrame p t ins = d.setPort p fun q => { q with nak := true, ahead := m, again := max q.again m }) ∧
    (n = 0 → d.judgeFrame p t ins =
      (let ack := leAt (lanes.headD []) 26 1
      let stream := if d.portState p = 7 then ((lanes.headD []).drop 1).take 14 else (lanes.drop 1).flatMap fun l => (l.drop 26).take 2
      let x := splitMessages 4 ((d.port p).rxMsg ++ stream)
      let d1 := ((d.count (0x48 + p) 1 1).setPort p fun q => { q with nak := false, ahead := 0, again := q.again - 1, expect := (q.expect + 1) % 128, rxMsg := x.2 }).ackFrames p (ack % 128)
      let d2 := if 128 ≤ ack then d1.startReplay p else d1
      let d3 := if 128 ≤ head.toNat ∧ d.portState p ≠ 7 ∧ d2.portTalks p = true then d2.takeData p ins.length lanes else d2
      forAll (x.1.filter fun m => m.1 ≠ 0) (fun m d' => (d'.count (0x48 + p) 7 1).takeMessage p (bit (decide (0 < (d.port p).again))) t m) d3))) ∧
  (∀ (d : Dev) (p ack : Nat) (f : LinkFrame) (fs : List LinkFrame), (d.port p).replay = f :: fs → f.seq < 128 → ack < 128 → (d.port p).sync = none →
    0 < (ack + 128 - f.seq) % 128 → (ack + 128 - f.seq) % 128 ≤ fs.length + 1 →
    ((d.ackFrames p ack).port p).replay = (f :: fs).drop ((ack + 128 - f.seq) % 128)) ∧
  (∀ (s : State) (p t : Nat) (f : LinkFrame) (fs : List LinkFrame) (n : Nat), p < 8 → (s.dev.portState p = 6 ∨ s.dev.portState p = 7) → (s.dev.port p).replay = f :: fs → (s.dev.port p).resend = 0 →
    (s.dev.port p).ackSince + s.dev.rdAt R.KL.REPLAY_TIMEOUT_NS p 0 * 2 ^ 32 ≤ (s.dev.toTime t).mono → n = (if (s.dev.port p).nakSeq = some f.seq then (s.dev.port p).nakCount + 1 else 1) →
    exec (.replayTimeout p t) s = .next (s.after fun d =>
      let d1 := d.toTime t
      if 9 ≤ n then d1.replayExhausted p
      else
        ((d1.setPort p fun q =>
          { q with
            resend := q.replay.length, nakSeq := some f.seq, nakCount := n, ackSince := d1.mono
            sync := q.sync.map fun s => (s.1, s.2.1, true) }).bumpAt R.KL.REPLAYS p 0).count (0x48 + p) 4 1)) ∧
  (∀ (d : Dev) (p : Nat), d.running = false → d.replayExhausted p = (d.report (d.linkFault 0x63 0 p 0 0) false).portDown p 5) ∧
  (∀ (d d1 : Dev) (p : Nat), d.running = true → d1 = (d.report (d.linkFault 0x63 2 p 0 0) true).portDown p 5 → d1.running = true →
    d.replayExhausted p = (let d2 := d1.sendStop 0x63
      if d2.frozen then d2.linkStopped else { d2 with tk := { d2.tk with linkStop := true } })) ∧
  (∀ (s : State) (p t : Nat), p < 8 → (s.dev.portState p = 6 ∨ s.dev.portState p = 7) → (s.dev.port p).replay ≠ [] → (s.dev.port p).resend ≠ 0 →
    (s.dev.port p).ackSince + s.dev.rdAt R.KL.REPLAY_TIMEOUT_NS p 0 * 2 ^ 32 ≤ (s.dev.toTime t).mono → exec (.replayTimeout p t) s = .next (s.after (Dev.toTime · t))) ∧
  (∀ (s : State) (p t : Nat), p < 8 → (s.dev.portState p ≠ 6 ∧ s.dev.portState p ≠ 7 ∨ (s.dev.port p).replay = [] ∨
      (s.dev.toTime t).mono < (s.dev.port p).ackSince + s.dev.rdAt R.KL.REPLAY_TIMEOUT_NS p 0 * 2 ^ 32) →
    exec (.replayTimeout p t) s = .next s) ∧
  (∀ (s : State) (p t : Nat) (lanes : List (List Nat)), 8 ≤ p → exec (.linkFrameSend p t) s = .fault .noSuchUnit ∧ exec (.replayTimeout p t) s = .fault .noSuchUnit ∧
    exec (.linkFrameReceive p lanes t) s = .fault .noSuchUnit)

/-- spec/10 R271, R272, R282, spec/11 R302: ANNOUNCE, SYNC, FOLLOW_UP, DELAY_REQ, DELAY_RESP and TICK. -/
def Obligations.TimeMessages : Prop :=
  (∀ (s : State) (p eligible priority origin hops : Nat), p < 8 → s.dev.portTalks p = true →
    exec (.announce p eligible priority origin hops) s = .next (s.after fun d =>
      let d1 := if hops < 3 then d.sendAllBut p 0x10 (leBytes eligible 1 ++ leBytes priority 1 ++ leBytes origin 1 ++ leBytes (hops + 1) 1) else d
      if origin = d.position then d1
      else { d1 with clk := { d1.clk with masterSeen := SMap.set d1.clk.masterSeen origin (1 + eligible % 2 + 2 * (priority % 16)) } }.elect)) ∧
  (∀ (s : State) (p addend t : Nat), p < 8 → s.dev.portTalks p = true → s.dev.isUpstream p = true →
    exec (.sync p addend t) s = .next (s.after fun d =>
      let d2 := (d.toTime t).voidMeasure p
      let d3 := { d2 with clk := { d2.clk with
          lastSync := d2.now, lastHeard := d2.now, masterAddend := addend, t2 := SMap.set d2.clk.t2 p (d2.stamp / 2 ^ 28 * 2 ^ 28 + 1) } }
      let d4 := if d.rd R.TIME.TIME_STATUS_FROZEN = 1 ∨ d.rd R.TIME.TIME_STATUS_HOLDOVER = 1 then d3 else d3.setAddend addend
      (forUpto 4 (fun n (d : Dev) => if d.tbSource n = 7 then d.endCause n 4 else d) d4).queueMessage p 0x13 [])) ∧
  (∀ (s : State) (p stamp void : Nat), p < 8 → s.dev.portTalks p = true → s.dev.isUpstream p = true →
    exec (.followUp p stamp void) s = .next (s.after fun d =>
      if void = 1 then d.voidMeasure p else if SMap.get d.clk.t2 p = 0 then d
      else ({ d with clk := { d.clk with t1 := SMap.set d.clk.t1 p (stamp + 1) } } : Dev).tryMeasure p) ∧
    exec (.delayResp p stamp void) s = .next (s.after fun d =>
      if void = 1 then d.voidMeasure p else if SMap.get d.clk.t3 p = 0 then d
      else ({ d with clk := { d.clk with t4 := SMap.set d.clk.t4 p (stamp + 1) } } : Dev).tryMeasure p)) ∧
  (∀ (s : State) (p again t : Nat), p < 8 → s.dev.portTalks p = true →
    exec (.delayReq p again t) s = .next (s.after fun d => (d.toTime t).queueMessage p 0x14 (leBytes ((d.toTime t).stamp / 2 ^ 28 * 2 ^ 28) 8 ++ leBytes again 1))) ∧
  (∀ (s : State) (p n stamp pos : Nat) (d2 : Dev), p < 8 → n < 4 → s.dev.portTalks p = true → s.dev.isUpstream p = true →
    d2 = { s.dev.sendAllBut p 0x15 (leBytes n 1 ++ leBytes stamp 8 ++ leBytes pos 4) with clk := { s.dev.clk with lastHeard := s.dev.now } } →
    exec (.tick p n stamp pos) s = .next (s.after fun _ =>
      if d2.tbSource n = 7 then
        let d3 := (d2.endCause n 4).followPosition n pos
        d3.issueTick n (d3.instantOf (d3.fromMaster stamp)) d3.tbNow
      else d2)) ∧
  (∀ (s : State) (p n a b t : Nat), p < 8 → n < 4 → (s.dev.portTalks p = false ∨ s.dev.isUpstream p = false) →
    exec (.sync p a t) s = .next s ∧ exec (.followUp p a b) s = .next s ∧ exec (.delayResp p a b) s = .next s ∧ exec (.tick p n a b) s = .next s) ∧
  (∀ (s : State) (p a b c e t : Nat), p < 8 → s.dev.portTalks p = false → exec (.announce p a b c e) s = .next s ∧ exec (.delayReq p a t) s = .next s) ∧
  (∀ (s : State) (p n a b c e t : Nat), 8 ≤ p ∨ 4 ≤ n → exec (.tick p n a b) s = .fault .noSuchUnit ∧ (8 ≤ p → exec (.announce p a b c e) s = .fault .noSuchUnit) ∧
    (8 ≤ p → exec (.sync p a t) s = .fault .noSuchUnit) ∧ (8 ≤ p → exec (.followUp p a b) s = .fault .noSuchUnit) ∧ (8 ≤ p → exec (.delayReq p a t) s = .fault .noSuchUnit) ∧
    (8 ≤ p → exec (.delayResp p a b) s = .fault .noSuchUnit))

/-- spec/04 R118 to R121, spec/11 R303, R314, spec/16 R412: READY, RELEASE, STOP, START_CHECK, LOWRATE_REQ, LOWRATE_ACK and FULLRATE_REQ. -/
def Obligations.RunMessages : Prop :=
  (∀ (s : State) (p belay take origin : Nat), p < 8 → s.dev.portTalks p = true → s.dev.tk.passed.contains (0x20, belay, take, origin) = false →
    exec (.ready p belay take origin) s = .next (s.after fun d =>
      let d1 := d.passOnce (0x20, belay, take, origin)
      if d.isMaster then { d1 with tk := { d1.tk with ready := readyKey origin belay take :: d1.tk.ready } }.masterRelease
      else d1.queueMessage (d.rd R.TIME.TIME_STATUS_UPSTREAM_PORT) 0x20 (leBytes belay 1 ++ leBytes take 4 ++ leBytes origin 1))) ∧
  (∀ (s : State) (p belay instant resp take : Nat) (d1 : Dev), p < 8 → s.dev.portTalks p = true → s.dev.isMaster = false → s.dev.tk.passed.contains (0x21, belay, take, 0) = false →
    d1 = (s.dev.passOnce (0x21, belay, take, 0)).sendAllBut p 0x21 (leBytes belay 1 ++ leBytes instant 8 ++ leBytes resp 1 ++ leBytes take 2) →
    exec (.release p belay instant resp take) s = .next (s.after fun _ =>
      if d1.running = true ∧ d1.tk.belay = belay ∧ d1.rd R.TAKE.TAKE_NUMBER % 65536 = take ∧ (d1.tk.phase = .waiting ∨ d1.tk.phase = .met) then
        if resp = 1 ∧ belay = 0 then d1.requestHalt 7 (d1.rd R.TIME.TIME_STATUS_MASTER_POS)
        else { d1 with tk := { d1.tk with release := some (d1.instantOf (d1.fromMaster instant)), closingResp := resp } }
      else d1)) ∧
  (∀ (s : State) (p origin take code : Nat) (d1 : Dev), p < 8 → s.dev.portTalks p = true → s.dev.tk.passed.contains (0x22, code, take, origin) = false →
    d1 = (let d0 := s.dev.passOnce (0x22, code, take, origin)
      if s.dev.isMaster = true ∨ s.dev.isUpstream p = true then d0.sendAllBut p 0x22 (leBytes origin 1 ++ leBytes take 6 ++ leBytes code 1)
      else d0.queueMessage (s.dev.rd R.TIME.TIME_STATUS_UPSTREAM_PORT) 0x22 (leBytes origin 1 ++ leBytes take 6 ++ leBytes code 1)) →
    exec (.stop p origin take code) s = .next (s.after fun _ =>
      if d1.running = false then d1 else if code = 0 then d1.requestHalt 5 origin
      else if d1.tk.phase = .stepping then { d1 with tk := { d1.tk with peerStop := some origin } }
      else if d1.tk.belay = 0 ∧ take + 1 = d1.rd R.TAKE.TAKE_NUMBER then d1.undoBoundary.peerStopped origin else d1.peerStopped origin)) ∧
  (∀ (s : State) (p digest mhz : Nat), p < 8 → s.dev.portTalks p = true →
    exec (.startCheck p digest mhz) s = .next (s.after fun d =>
      let d1 := d.setPort p fun q => { q with peerDigest := some digest, peerStep := mhz }
      (if d.linked = false ∨ digest = d.scheduleDigest ∧ mhz = d.rd R.CLK.STEP_MHZ then d1 else d1.report (d1.linkFault 0x64 3 p 0 0) false).heldStart)) ∧
  (∀ (d : Dev), d.heldStart = if d.tk.startHeld = true ∧ (∀ p ∈ d.checkPorts, (d.port p).peerDigest.isSome = true) then d.tryStart else d) ∧
  (∀ (s : State) (p : Nat), p < 8 → s.dev.portTalks p = true →
    exec (.lowrateReq p) s = .next (s.after fun d =>
      if d.running = true ∨ d.portState p ≠ 6 then d.setPort p fun q => { q with peerLow := true }
      else ((d.setPort p fun q => { q with peerLow := true }).setPort p fun q => { q with lowAck := true }).queueMessage p 0x31 []) ∧
    exec (.lowrateAck p) s = .next (if (s.dev.port p).lowReq then s.after fun d => d.enterClockLock p (d.port p).version true else s) ∧
    exec (.fullrateReq p) s = .next (s.after fun d =>
      if d.portState p ≠ 7 then d
      else if d.rd R.POWER.PWR_STATUS_STATE = 2 then d.setPort p fun q => { q with peerLow := false }
      else (d.setPort p fun q => { q with peerLow := false }).enterClockLock p (d.port p).version false)) ∧
  (∀ (s : State) (p a b c e : Nat), p < 8 → s.dev.portTalks p = false →
    exec (.ready p a b c) s = .next s ∧ exec (.release p a b c e) s = .next s ∧ exec (.stop p a b c) s = .next s ∧ exec (.startCheck p a b) s = .next (s.after Dev.heldStart) ∧
    exec (.lowrateReq p) s = .next s ∧ exec (.lowrateAck p) s = .next s ∧ exec (.fullrateReq p) s = .next s) ∧
  (∀ (s : State) (p a b c e : Nat), p < 8 →
    (s.dev.tk.passed.contains (0x20, a, b, c) = true → exec (.ready p a b c) s = .next s) ∧ (s.dev.tk.passed.contains (0x21, a, e, 0) = true → exec (.release p a b c e) s = .next s) ∧
    (s.dev.isMaster = true → exec (.release p a b c e) s = .next s) ∧ (s.dev.tk.passed.contains (0x22, c, b, a) = true → exec (.stop p a b c) s = .next s)) ∧
  (∀ (s : State) (p a b c e : Nat), 8 ≤ p →
    exec (.ready p a b c) s = .fault .noSuchUnit ∧ exec (.release p a b c e) s = .fault .noSuchUnit ∧ exec (.stop p a b c) s = .fault .noSuchUnit ∧
    exec (.startCheck p a b) s = .fault .noSuchUnit ∧ exec (.lowrateReq p) s = .fault .noSuchUnit ∧ exec (.lowrateAck p) s = .fault .noSuchUnit ∧ exec (.fullrateReq p) s = .fault .noSuchUnit)

/-- spec/00 R10, spec/12 R320, R321: REGISTER_WRITE. -/
def Obligations.RegisterWrites : Prop :=
  (∀ (d : Dev) (r : Reg) (n k w : Nat), r.lo + r.width ≤ 32 → r.ty = .rw → (d.writeField r n k 0 w).rdAt r n k = w / 2 ^ r.lo % 2 ^ r.width) ∧
  (∀ (d : Dev) (r : Reg) (n k w j : Nat), r.lo + r.width ≤ 32 → r.ty = .w1c →
    Nat.testBit ((d.writeField r n k 0 w).rdAt r n k) j = (decide (j < r.width) && Nat.testBit (d.rdAt r n k) j && !Nat.testBit w (r.lo + j))) ∧
  (∀ (d : Dev) (r : Reg) (n k i w : Nat), (r.ty = .ro ∨ r.ty = .rc ∨ r.ty = .wo ∨ r.ty = .rwl) → d.writeField r n k i w = d) ∧
  (∀ (d : Dev) (r q : Reg) (n k i w m j : Nat), q.key m j ≠ r.key n k → (d.writeField r n k i w).rdAt q m j = d.rdAt q m j) ∧
  (∀ (s : State) (func off value t be : Nat), s.dev.funcUp func = true → off % 4 = 0 → be % 16 = 15 →
    exec (.registerWrite (.bar0 func off) 4 be value t) s =
      .next { s with dev := (s.dev.atWrite t).busWord func off (value % 2 ^ 32) t s.envelope,
                     envelope := if ((s.dev.atWrite t).busWord func off (value % 2 ^ 32) t s.envelope).mg.inReset then default else s.envelope }) ∧
  (∀ (s : State) (func off value t be : Nat) (d1 : Dev), s.dev.funcUp func = true → off % 8 = 0 → be % 256 = 255 →
    d1 = ((s.dev.atWrite t).busWord func off (value % 2 ^ 32) t s.envelope).busWord func (off + 4) (value / 2 ^ 32 % 2 ^ 32) t s.envelope →
    exec (.registerWrite (.bar0 func off) 8 be value t) s = .next { s with dev := d1, envelope := if d1.mg.inReset then default else s.envelope }) ∧
  (∀ (s : State) (func off size value t be : Nat), s.dev.funcUp func = true → (size ≠ 4 ∧ size ≠ 8 ∨ off % size ≠ 0) →
    exec (.registerWrite (.bar0 func off) size be value t) s = .next (s.after fun d => (d.atWrite t).wr R.PCIE.PCIE_STATUS_BAR0_ABORT 1)) ∧
  (∀ (s : State) (func off size value t be : Nat), s.dev.funcUp func = true → (size = 4 ∨ size = 8) → off % size = 0 → be % 2 ^ size ≠ 2 ^ size - 1 →
    exec (.registerWrite (.bar0 func off) size be value t) s = .next (s.after fun d => (d.atWrite t).wr R.PCIE.PCIE_STATUS_BAR0_PARTIAL 1)) ∧
  (∀ (s : State) (func off size value t be : Nat), s.dev.funcUp func = false → s.dev.mg.inReset = false →
    exec (.registerWrite (.bar0 func off) size be value t) s = .next (s.after (Dev.toTime · t))) ∧
  (∀ (s : State) (func size value t be : Nat), s.dev.functionUp func = true →
    exec (.registerWrite (.msixEnable func) size be value t) s = .next (s.after fun d => { d with host := { d.host with msixEnable := SMap.set d.host.msixEnable func (value % 2) } })) ∧
  (∀ (s : State) (size value t be : Nat), s.dev.functionUp 0 = true →
    exec (.registerWrite .bar2Size size be value t) s = .next (s.after fun d => if 30 ≤ value ∧ value ≤ 42 then { d with host := { d.host with bar2Log := value } } else d)) ∧
  (∀ (s : State) (func n size value t be : Nat) (reg : CfgReg), s.dev.mg.inReset = false →
    exec (.registerWrite (.config n reg) size be value t) s = .next s ∧
    (s.dev.functionUp func = false → exec (.registerWrite (.msixEnable func) size be value t) s = .next s) ∧
    (s.dev.functionUp 0 = false → exec (.registerWrite .bar2Size size be value t) s = .next s)) ∧
  (∀ (s : State) (place : RegSpace) (size value t be : Nat), s.dev.mg.inReset = true →
    exec (.registerWrite place size be value t) s =
      .next { s with dev := (match place with | .bar0 _ _ => s.dev.toTime t | _ => s.dev), envelope := default })

/-- spec/12 R316, R322 to R325, R343, spec/13 R350: BAR2_READ, BAR2_WRITE, BAR2_OFFSET_HI_WRITE, BAR4_READ, BAR4_WRITE and INFLIGHT_PEAK_READ. -/
def Obligations.BarAccesses : Prop :=
  (∀ (s : State) (off n : Nat) (bs : Bytes) (v : MemView), (s.dev.mg.inReset = true ∨ s.dev.mg.bootFailed = true) →
    exec (.bar2Read off n v) s = .next s ∧ exec (.bar2Write off bs) s = .next s ∧ exec (.bar4Read off n) s = .next s ∧ exec (.bar4Write off bs) s = .next s) ∧
  (∀ (s : State) (off n : Nat) (bs : Bytes) (v : MemView), s.dev.mg.inReset = false → s.dev.mg.bootFailed = false → s.dev.host.dstate ≠ 0 →
    exec (.bar2Read off n v) s = .next (s.after fun d => (d.count 0xB0 12 1).emit (.readFailed 1)) ∧ exec (.bar2Write off bs) s = .next (s.after fun d => d.count 0xB0 13 1) ∧
    exec (.bar4Read off n) s = .next (s.after fun d => (d.count 0xB0 14 1).emit (.readFailed 1)) ∧ exec (.bar4Write off bs) s = .next (s.after fun d => d.count 0xB0 14 1)) ∧
  (∀ (s : State) (off n : Nat) (bs : Bytes) (v : MemView), s.dev.mg.inReset = false → s.dev.mg.bootFailed = false → s.dev.host.dstate = 0 → s.dev.on R.DDR.DDR_STATUS_READY = false →
    exec (.bar2Read off n v) s = .next (s.after fun d => (((d.count 0xB0 12 1).wr R.PCIE.PCIE_STATUS_BAR2_RANGE 1).emit (.readFailed 1)).count 0xB0 4 1) ∧
    exec (.bar2Write off bs) s = .next (s.after fun d => (d.count 0xB0 13 1).wr R.PCIE.PCIE_STATUS_BAR2_RANGE 1)) ∧
  (∀ (s : State) (off n : Nat) (v : MemView), s.dev.mg.inReset = false → s.dev.mg.bootFailed = false → s.dev.host.dstate = 0 → s.dev.on R.DDR.DDR_STATUS_READY = true →
    s.dev.rd R.DDR.CAPACITY < s.dev.bar2Address off + n →
    exec (.bar2Read off n v) s = .next (s.after fun d => (((d.count 0xB0 12 1).wr R.PCIE.PCIE_STATUS_BAR2_RANGE 1).emit (.readFailed 1)).count 0xB0 4 1)) ∧
  (∀ (s : State) (off n : Nat) (v : MemView) (bs : Bytes) (d1 : Dev) (bad : Bool), s.dev.mg.inReset = false → s.dev.mg.bootFailed = false → s.dev.host.dstate = 0 → s.dev.on R.DDR.DDR_STATUS_READY = true →
    s.dev.bar2Address off + n ≤ s.dev.rd R.DDR.CAPACITY → s.dev.bar2Serves (s.dev.bar2Address off) n = true → (s.dev.count 0xB0 12 1).bar2Lines (s.dev.bar2Address off) n v = (bs, bad, d1) →
    exec (.bar2Read off n v) s = .next (s.after fun _ => d1.emit (if bad then .poisonData bs else .readData bs))) ∧
  (∀ (s : State) (off n : Nat) (v : MemView), s.dev.mg.inReset = false → s.dev.mg.bootFailed = false → s.dev.host.dstate = 0 → s.dev.on R.DDR.DDR_STATUS_READY = true →
    s.dev.bar2Address off + n ≤ s.dev.rd R.DDR.CAPACITY → s.dev.bar2Serves (s.dev.bar2Address off) n = false →
    exec (.bar2Read off n v) s = .next (s.after fun d => ((d.count 0xB0 12 1).bar2Asks (d.bar2Address off) n).emit .wait)) ∧
  (∀ (s : State) (off : Nat) (bs : Bytes), s.dev.mg.inReset = false → s.dev.mg.bootFailed = false → s.dev.host.dstate = 0 → s.dev.on R.DDR.DDR_STATUS_READY = true →
    s.dev.bar2Address off + bs.length ≤ s.dev.rd R.DDR.CAPACITY →
    exec (.bar2Write off bs) s = .next (s.after fun d =>
      let d1 := d.count 0xB0 13 1
      if d.bar2Serves (d.bar2Address off) bs.length then
        forAll (lineChunks (d.bar2Address off) bs.length (bs.length / 64 + 2)) (fun c d => d.ddrWrite c.1 ((bs.drop (c.1 - s.dev.bar2Address off)).take c.2)) d1
      else (d1.bar2Asks (d.bar2Address off) bs.length).emit .wait)) ∧
  (∀ (s : State) (off : Nat) (bs : Bytes), s.dev.mg.inReset = false → s.dev.mg.bootFailed = false → s.dev.host.dstate = 0 → s.dev.ddrServes (s.dev.bar2Address off) = true → bs.length = 64 →
    s.dev.bar2Address off % 64 = 0 → s.dev.bar2Address off + 64 ≤ s.dev.rd R.DDR.CAPACITY →
    ∃ u, exec (.bar2Write off bs) s = .next u ∧ u.envelope = s.envelope ∧ u.pending = s.pending ∧ u.dev.arr = s.dev.arr ∧
      (∀ a, SMap.get u.dev.ddr.mem a = if s.dev.bar2Address off ≤ a ∧ a < s.dev.bar2Address off + 64 then bs.getD (a - s.dev.bar2Address off) 0 else SMap.get s.dev.ddr.mem a)) ∧
  (∀ (s : State) (off n : Nat) (bs : Bytes), s.dev.mg.inReset = false → s.dev.mg.bootFailed = false → s.dev.host.dstate = 0 → s.dev.apertureRefused = true →
    exec (.bar4Read off n) s = .next (s.after fun d => (((d.count 0xB0 14 1).wr R.PCIE.PCIE_STATUS_APERTURE_REFUSED 1).event 0x500).emit (.readData (List.replicate n 0xFF))) ∧
    exec (.bar4Write off bs) s = .next (s.after fun d => ((d.count 0xB0 14 1).wr R.PCIE.PCIE_STATUS_APERTURE_REFUSED 1).event 0x500)) ∧
  (∀ (s : State) (off n : Nat), s.dev.mg.inReset = false → s.dev.mg.bootFailed = false → s.dev.host.dstate = 0 → s.dev.apertureRefused = false →
    (s.dev.region off = .reserved ∨ s.dev.region off = .bank) → exec (.bar4Read off n) s = .next (s.after fun d => (d.count 0xB0 14 1).emit (.readData (List.replicate n 0)))) ∧
  (∀ (s : State) (off : Nat) (bs : Bytes), s.dev.mg.inReset = false → s.dev.mg.bootFailed = false → s.dev.host.dstate = 0 → s.dev.apertureRefused = false →
    (s.dev.region off = .reserved ∨ s.dev.region off = .bank ∨ s.dev.region off = .shadow) → exec (.bar4Write off bs) s = .next (s.after fun d => d.count 0xB0 14 1)) ∧
  (∀ (s : State) (off n i : Nat) (x : Bytes × Bool), s.dev.mg.inReset = false → s.dev.mg.bootFailed = false → s.dev.host.dstate = 0 → s.dev.apertureRefused = false →
    s.dev.region off ≠ .reserved → s.dev.region off ≠ .bank → s.dev.offsetDomain off = some i → s.dev.domState i = 2 → x = (s.dev.count 0xB0 14 1).arrRead off n →
    exec (.bar4Read off n) s = .next (s.after fun d => (d.count 0xB0 14 1).emit (if x.2 then .poisonData x.1 else .readData x.1))) ∧
  (∀ (s : State) (off i : Nat) (bs : Bytes), s.dev.mg.inReset = false → s.dev.mg.bootFailed = false → s.dev.host.dstate = 0 → s.dev.apertureRefused = false →
    (s.dev.region off = .instr ∨ s.dev.region off = .step ∨ s.dev.region off = .state) → s.dev.offsetDomain off = some i → s.dev.domState i = 2 →
    exec (.bar4Write off bs) s = .next (s.after fun d => (d.count 0xB0 14 1).arrWrite off bs)) ∧
  (∀ (s : State) (w t : Nat), s.dev.reaches 0x100 = true →
    ∃ u, exec (.bar2OffsetHiWrite w t) s = .next u ∧ u.dev.host.bar2Offset = (s.dev.rd R.PCIE.BAR2_OFFSET % 4 + w % 2 ^ 10 * 4) * 2 ^ 30 ∧
      u.dev.rd R.PCIE.BAR2_OFFSET = s.dev.rd R.PCIE.BAR2_OFFSET % 4 + w % 2 ^ 10 * 4 ∧ u.envelope = s.envelope ∧ u.pending = s.pending ∧ u.dev.ddr = s.dev.ddr) ∧
  (∀ (s : State) (t : Nat), s.dev.funcUp 0 = true → s.dev.writeHeld = false →
    exec (.inflightPeakRead (.bar0 0 0x100054) 4 t) s = .next (s.after fun d =>
      ((d.atRead t).wr R.PCIE.INFLIGHT_PEAK 0).emit (.readData (leBytes (max (d.rd R.PCIE.INFLIGHT_PEAK) d.inflight) 4)))) ∧
  (∀ (s : State) (t : Nat), s.dev.funcUp 0 = true → s.dev.writeHeld = false →
    exec (.inflightPeakRead (.bar0 0 0x100050) 8 t) s = .next (s.after fun d =>
      ((d.atRead t).wr R.PCIE.INFLIGHT_PEAK 0).emit (.readData (leBytes d.inflight 4 ++ leBytes (max (d.rd R.PCIE.INFLIGHT_PEAK) d.inflight) 4)))) ∧
  (∀ (s : State) (func off size t : Nat), s.dev.funcUp func = true → (size ≠ 4 ∧ size ≠ 8 ∨ off % size ≠ 0) →
    exec (.inflightPeakRead (.bar0 func off) size t) s = .next (s.after fun d => ((d.atRead t).wr R.PCIE.PCIE_STATUS_BAR0_ABORT 1).emit (.readFailed 2))) ∧
  (∀ (s : State) (off size t : Nat), s.dev.funcUp 0 = true → (size = 4 ∨ size = 8) → off % size = 0 → s.dev.writeHeld = true →
    exec (.inflightPeakRead (.bar0 0 off) size t) s = .next (s.after fun d => (d.atRead t).emit .wait)) ∧
  (∀ (s : State) (func off size t : Nat), s.dev.funcUp func = true → (size = 4 ∨ size = 8) → off % size = 0 → func ≠ 0 ∨ s.dev.writeHeld = false →
    exec (.inflightPeakRead (.bar0 func off) size t) s = .next (s.after fun d =>
      match (d.atRead t).gatedRead func off size with
      | (some x, d1) => d1.emit (.readData (leBytes x size))
      | (none, d1) => d1.emit .wait)) ∧
  (∀ (s : State) (func off size t : Nat), s.dev.funcUp func = false → exec (.inflightPeakRead (.bar0 func off) size t) s = .next (s.after (Dev.toTime · t)))

/-- spec/12 R333, R334, R337 to R341: GO, INVALIDATION_DONE, CTX_ROOT_WRITE, COMMIT_FENCES, FENCE_COMMITTED and FENCE_LOCK. That SCOPE 3 sets WRITE_REFUSED is a choice of the model (assumption log). -/
def Obligations.MmuAndFences : Prop :=
  (∀ (s : State) (w t : Nat), s.dev.reaches 0x101 = true → s.dev.on R.DMMU.INV_STATUS_BUSY = false → w / 64 % 4 ≠ 3 →
    ∃ u, exec (.go w t) s = .next u ∧ u.envelope = s.envelope ∧ u.pending = s.pending ∧ u.dev.rd R.DMMU.INV_STATUS_BUSY = 1 ∧ u.dev.rd R.DMMU.INV_CTRL_CTX = w % 64 ∧
      u.dev.rd R.DMMU.INV_CTRL_SCOPE = w / 64 % 4 ∧ u.dev.host.cache = s.dev.host.cache ∧
      u.dev.host.invalidating = some (w / 64 % 4, w % 64, s.dev.rd R.DMMU.INV_BASE / 2 ^ 12 % 2 ^ 36, s.dev.rd R.DMMU.INV_PAGES)) ∧
  (∀ (s : State) (w t : Nat), s.dev.reaches 0x101 = true → s.dev.on R.DMMU.INV_STATUS_BUSY = true →
    exec (.go w t) s = .next (s.after fun d => (d.atWrite t).wr R.DMMU.DMMU_STATUS_WRITE_REFUSED 1)) ∧
  (∀ (s : State) (w t : Nat), s.dev.reaches 0x101 = true → s.dev.on R.DMMU.INV_STATUS_BUSY = false → w / 64 % 4 = 3 →
    exec (.go w t) s = .next (s.after fun d => (((d.atWrite t).wr R.DMMU.INV_CTRL_CTX w).wr R.DMMU.INV_CTRL_SCOPE 3).wr R.DMMU.DMMU_STATUS_WRITE_REFUSED 1)) ∧
  (∀ (s : State) (x : Nat × Nat × Nat × Nat), s.dev.host.invalidating = some x →
    exec .invalidationDone s = .next (s.after fun d =>
      (({ d with host := { d.host with invalidating := none, cache := d.host.cache.filter fun e => !inScope x e.1 } } : Dev).wr R.DMMU.INV_STATUS_BUSY 0).wr R.DMMU.INV_STATUS_DONE 1)) ∧
  (∀ (s : State), s.dev.host.invalidating = none → exec .invalidationDone s = .next s) ∧
  (∀ (s : State) (c hi w t : Nat), c < 64 → s.dev.reaches 0x101 = true → s.dev.rdAt R.DMMU.CTX_ROOT_VALID 0 c = 1 → (hi = 1 ∨ w % 2 = 1) →
    exec (.ctxRootWrite c hi w t) s = .next (s.after fun d => (d.atWrite t).wr R.DMMU.DMMU_STATUS_WRITE_REFUSED 1)) ∧
  (∀ (s : State) (c w t : Nat), c < 64 → s.dev.reaches 0x101 = true → (s.dev.rdAt R.DMMU.CTX_ROOT_VALID 0 c ≠ 1 ∨ w % 2 = 0) →
    exec (.ctxRootWrite c 0 w t) s = .next (s.after fun d =>
      (((d.atWrite t).wrAt R.DMMU.CTX_ROOT_VALID 0 c w).wrAt R.DMMU.CTX_ROOT_ROOT_TARGET 0 c (w / 2)).wrAt R.DMMU.CTX_ROOT_ADDR 0 c
        (putField (d.rdAt R.DMMU.CTX_ROOT_ADDR 0 c) 0 20 (w / 2 ^ 12)))) ∧
  (∀ (s : State) (c w t : Nat), c < 64 → s.dev.reaches 0x101 = true → s.dev.rdAt R.DMMU.CTX_ROOT_VALID 0 c ≠ 1 →
    exec (.ctxRootWrite c 1 w t) s = .next (s.after fun d => (d.atWrite t).wrAt R.DMMU.CTX_ROOT_ADDR 0 c (putField (d.rdAt R.DMMU.CTX_ROOT_ADDR 0 c) 20 32 w))) ∧
  (∀ (s : State) (w t : Nat), s.dev.reaches 0x102 = true → s.dev.on R.FENCE.FENCE_CTRL_LOCK = true →
    exec (.commitFences w t) s = .next (s.after fun d => (d.atWrite t).wr R.FENCE.FENCE_STATUS_WRITE_REFUSED 1) ∧
    exec (.fenceLock w t) s = .next (s.after fun d => (d.atWrite t).wr R.FENCE.FENCE_STATUS_WRITE_REFUSED 1)) ∧
  (∀ (s : State) (w t : Nat), s.dev.reaches 0x102 = true → s.dev.on R.FENCE.FENCE_CTRL_LOCK = false →
    ∃ u, exec (.commitFences w t) s = .next u ∧ u.envelope = s.envelope ∧ u.pending = s.pending ∧ u.dev.host.fences = s.dev.host.fences ∧ u.dev.rd R.FENCE.FENCE_CTRL_ENFORCE = w % 2 ∧
      u.dev.rd R.FENCE.FENCE_STATUS_COMMITTED = 0 ∧ u.dev.host.fenceNext = some s.dev.stagedFences ∧ (u.dev.rd R.FENCE.FENCE_CTRL_LOCK = 1 ↔ bitAt w 1 = 1)) ∧
  (∀ (s : State) (w t : Nat), s.dev.reaches 0x102 = true → s.dev.on R.FENCE.FENCE_CTRL_LOCK = false → bitAt w 2 = 0 →
    exec (.fenceLock w t) s = .next (s.after fun d => ((d.atWrite t).wr R.FENCE.FENCE_CTRL_ENFORCE w).wr R.FENCE.FENCE_CTRL_LOCK 1)) ∧
  (∀ (s : State) (x : List (Nat × Nat)), s.dev.host.fenceNext = some x →
    exec .fenceCommitted s = .next (s.after fun d => ({ d with host := { d.host with fences := x, fenceNext := none } } : Dev).wr R.FENCE.FENCE_STATUS_COMMITTED 1)) ∧
  (∀ (s : State), s.dev.host.fenceNext = none → exec .fenceCommitted s = .next s) ∧
  (∀ (s : State) (c hi w t : Nat), 64 ≤ c → exec (.ctxRootWrite c hi w t) s = .fault .noSuchUnit)

/-- spec/12 R326, R327, spec/19 R497, R498, R502 to R504, R507: PAGE_LOCK_WRITE, EV_ROUTE_WRITE, EV_RAISED_CLEAR, EV_ENABLE_WRITE, EV_FORCE_WRITE and MSIX_VECTOR_UNMASK. -/
def Obligations.EventRegisters : Prop :=
  (∀ (s : State) (func off p w t : Nat), func < 2 → s.dev.funcUp func = true → pageOf func off = (p, 0x0C) → (s.dev.pageRows p).isSome = true → hasRwl p = true →
    ∃ u, exec (.pageLockWrite func off w t) s = .next u ∧ u = s.after (fun d => (d.atWrite t).wrAt R.HDR.PAGE_LOCK_OPEN p 0 (bit (w % 2 ^ 16 == 0x5A3C))) ∧
      u.dev.lockOpen p = (w % 2 ^ 16 == 0x5A3C)) ∧
  (∀ (s : State) (func off p w t : Nat), func < 2 → s.dev.funcUp func = true → pageOf func off = (p, 0x18) → (s.dev.pageRows p).isSome = true →
    ∃ u, exec (.evRaisedClear func off w 0 t) s = .next u ∧ u.envelope = s.envelope ∧ u.pending = s.pending ∧ u.dev.evEnable = s.dev.evEnable ∧ u.dev.evRoute = s.dev.evRoute ∧
      u.dev.regs = (s.dev.atWrite t).regs ∧
      (∀ src, u.dev.raised src = (s.dev.raised src && !decide (src ∈ (List.range (min 32 (evCount p))).filterMap fun j => if bitAt w j = 1 then some (evSource p j) else none)))) ∧
  (∀ (s : State) (func off p w same t : Nat), func < 2 → s.dev.funcUp func = true → pageOf func off = (p, 0x18) → (s.dev.pageRows p).isSome = true →
    exec (.evRaisedClear func off w same t) s = .next (s.after fun d =>
      forAll (localSources p same) (fun x d => d.event x) (forAll (localSources p w) (fun x d => d.clearRaised x) (d.atWrite t)))) ∧
  (∀ (s : State) (func off p w t : Nat), func < 2 → s.dev.funcUp func = true → pageOf func off = (p, 0x1C) → (s.dev.pageRows p).isSome = true →
    (∀ j, j < evCount p → s.dev.raised (evSource p j) = false) →
    ∃ u, exec (.evEnableWrite func off w t) s = .next u ∧ u.dev.evRaised = s.dev.evRaised ∧ u.dev.out = s.dev.out ∧
      (∀ j, j < evCount p → SMap.get u.dev.evEnable (evSource p j) = bitAt w j)) ∧
  (∀ (s : State) (func off p w t : Nat), func < 2 → s.dev.funcUp func = true → pageOf func off = (p, 0x20) → (s.dev.pageRows p).isSome = true →
    exec (.evForceWrite func off w t) s = .next (s.after fun d => forAll (localSources p w) (fun x d => d.event x) (d.atWrite t))) ∧
  (∀ (s : State) (func off p w t : Nat), func < 2 → s.dev.funcUp func = true → pageOf func off = (p, 0x24) → (s.dev.pageRows p).isSome = true →
    (evCount p ≤ w % 32 ∨ bitAt w 15 = 0 ∧ bitAt w 27 = 1 ∧ 31 < fieldAt w 16 11) →
    exec (.evRouteWrite func off w t) s = .next (s.after fun d => (d.atWrite t).wrAt R.HDR.STATUS_ROUTE_REFUSED p 0 1)) ∧
  (∀ (s : State) (func off p w t : Nat), func < 2 → s.dev.funcUp func = true → pageOf func off = (p, 0x24) → (s.dev.pageRows p).isSome = true → w % 32 < evCount p → bitAt w 15 = 1 →
    exec (.evRouteWrite func off w t) s = .next (s.after fun d => (d.atWrite t).wrAt R.HDR.EV_ROUTE_LOCAL p 0 (w % 32))) ∧
  (∀ (s : State) (func off p w t : Nat), func < 2 → s.dev.funcUp func = true → pageOf func off = (p, 0x24) → (s.dev.pageRows p).isSome = true → w % 32 < evCount p → bitAt w 15 = 0 →
    (bitAt w 27 = 0 ∨ fieldAt w 16 11 ≤ 31) →
    ∃ u, exec (.evRouteWrite func off w t) s = .next u ∧ u.dev.evRaised = s.dev.evRaised ∧
      u.dev.route (evSource p (w % 32)) = fieldAt w 16 14 + (if s.dev.lockOpen p then bitAt w 30 else bitAt (s.dev.route (evSource p (w % 32))) 14) * 2 ^ 14 ∧
      ∀ x, x ≠ evSource p (w % 32) → u.dev.route x = s.dev.route x) ∧
  (∀ (s : State) (func vector t : Nat), func < 2 → s.dev.funcUp func = true → vector < (if func = 0 then 2048 else 32) → SMap.get s.dev.host.msixPend (func * 4096 + vector) = 1 →
    SMap.get s.dev.host.msixEnable func = 1 →
    ∃ u, exec (.msixVectorUnmask func vector t) s = .next u ∧ SMap.get u.dev.host.msixPend (func * 4096 + vector) = 0 ∧ SMap.get u.dev.host.msixUnmask (func * 4096 + vector) = 1 ∧
      u.dev.out = s.dev.out ++ [.msix func vector (SMap.get s.dev.host.msixAddr (func * 4096 + vector)) (SMap.get s.dev.host.msixData (func * 4096 + vector))]) ∧
  (∀ (s : State) (func vector t : Nat), func < 2 → s.dev.funcUp func = true → vector < (if func = 0 then 2048 else 32) →
    (SMap.get s.dev.host.msixPend (func * 4096 + vector) ≠ 1 ∨ SMap.get s.dev.host.msixEnable func ≠ 1) →
    exec (.msixVectorUnmask func vector t) s = .next (s.after fun d =>
      { d.atWrite t with host := { d.host with msixUnmask := SMap.set d.host.msixUnmask (func * 4096 + vector) 1 } })) ∧
  (∀ (d : Dev) (src : Nat), d.enabled src = false → d.raised src = true → isSet (d.route src) 12 = true → d.evMasked src = false →
    d.writeEnable src 1 = ({ d with evEnable := SMap.set d.evEnable src 1 } : Dev).sendMsix (d.route src)) ∧
  (∀ (s : State) (func off p o w same b t : Nat), func < 2 → s.dev.funcUp func = true → pageOf func off = (p, o) → 1 ≤ p → p < 5 → 0x40 ≤ o → o < 0x80 → o % 4 = 0 → b = 512 * (p - 1) + (o - 0x40) * 8 →
    exec (.evRaisedClear func off w same t) s = .next (s.after fun d =>
      forAll (evtSources b same) (fun x d => d.event x) (forAll (evtSources b w) (fun x d => d.clearRaised x) (d.atWrite t)))) ∧
  (∀ (s : State) (func off p o w b t : Nat), func < 2 → s.dev.funcUp func = true → pageOf func off = (p, o) → 1 ≤ p → p < 5 → 0x80 ≤ o → o < 0xC0 → o % 4 = 0 → b = 512 * (p - 1) + (o - 0x80) * 8 →
    (List.range 32).all (fun j => !s.dev.raised (b + j)) = true →
    ∃ u, exec (.evEnableWrite func off w t) s = .next u ∧ u.dev.evRaised = s.dev.evRaised ∧ u.dev.out = s.dev.out ∧
      (∀ j, j < 32 → SMap.get u.dev.evEnable (b + j) = if evAssigned (b + j) then bitAt w j else SMap.get s.dev.evEnable (b + j))) ∧
  (∀ (s : State) (func off p o w b t : Nat), func < 2 → s.dev.funcUp func = true → pageOf func off = (p, o) → 1 ≤ p → p < 5 → 0xC0 ≤ o → o < 0x100 → o % 4 = 0 → b = 512 * (p - 1) + (o - 0xC0) * 8 →
    exec (.evForceWrite func off w t) s = .next (s.after fun d => forAll (evtSources b w) (fun x d => d.event x) (d.atWrite t))) ∧
  (∀ (s : State) (func off p o w x t : Nat), func < 2 → s.dev.funcUp func = true → pageOf func off = (p, o) → 1 ≤ p → p < 5 → 0x800 ≤ o → o % 4 = 0 → x = 512 * (p - 1) + (o - 0x800) / 4 →
    evAssigned x = false → exec (.evRouteWrite func off w t) s = .next (s.after (Dev.atWrite · t))) ∧
  (∀ (s : State) (func off p o w x t : Nat), func < 2 → s.dev.funcUp func = true → pageOf func off = (p, o) → 1 ≤ p → p < 5 → 0x800 ≤ o → o % 4 = 0 → x = 512 * (p - 1) + (o - 0x800) / 4 →
    evAssigned x = true → bitAt w 11 = 1 → 31 < w % 2 ^ 11 → exec (.evRouteWrite func off w t) s = .next (s.after fun d => (d.atWrite t).wrAt R.HDR.STATUS_ROUTE_REFUSED p 0 1)) ∧
  (∀ (s : State) (func off p o w x t : Nat), func < 2 → s.dev.funcUp func = true → pageOf func off = (p, o) → 1 ≤ p → p < 5 → 0x800 ≤ o → o % 4 = 0 → x = 512 * (p - 1) + (o - 0x800) / 4 →
    evAssigned x = true → (bitAt w 11 = 0 ∨ w % 2 ^ 11 ≤ 31) →
    ∃ u, exec (.evRouteWrite func off w t) s = .next u ∧ u.dev.evRaised = s.dev.evRaised ∧
      u.dev.route x = w % 2 ^ 14 + (if s.dev.lockOpen p then bitAt w 14 else bitAt (s.dev.route x) 14) * 2 ^ 14 ∧ (∀ y, y ≠ x → u.dev.route y = s.dev.route y)) ∧
  (∀ (s : State) (func off w t : Nat), func < 2 → s.dev.funcUp func = false →
    exec (.pageLockWrite func off w t) s = .next (s.after (Dev.toTime · t)) ∧ exec (.evRaisedClear func off w w t) s = .next (s.after (Dev.toTime · t)) ∧
    exec (.evEnableWrite func off w t) s = .next (s.after (Dev.toTime · t)) ∧ exec (.evForceWrite func off w t) s = .next (s.after (Dev.toTime · t)) ∧
    exec (.evRouteWrite func off w t) s = .next (s.after (Dev.toTime · t)) ∧ exec (.msixVectorUnmask func w t) s = .next (s.after (Dev.toTime · t)))

/-- spec/13 R346, R349, R350, R357 to R359: DDR_CHANNEL_READY, DDR_INIT_FAILED, DDR_RETRAIN, PATROL_SCRUB_READ, DDR_REFRESH and DIMM_TEMP_READ. -/
def Obligations.DdrChannels : Prop :=
  (∀ (s : State) (c t : Nat), c < 8 → (s.dev.rdAt R.DDRCH.CH_STATUS_STATE c 0 = 1 ∨ s.dev.rdAt R.DDRCH.CH_STATUS_STATE c 0 = 2) →
    ∃ d2 : Dev, d2 = (((s.dev.toTime t).wrAt R.DDRCH.CH_STATUS_STATE c 0 3).wrAt R.DDRCH.CH_STATUS_STEP c 0 8).showGeometry c ∧
      ((d2.ddrWanted.length ∈ [2, 4, 8] ∧ ∀ i, i ∈ d2.ddrWanted → d2.rdAt R.DDRCH.CH_STATUS_STATE i 0 = 3) →
        exec (.ddrChannelReady c t) s = .next (s.after fun _ =>
          ((((((d2.wr R.DDR.DDR_STATUS_ACTIVE (d2.ddrWanted.foldl (fun m i => m + 2 ^ i) 0)).wr R.DDR.DDR_STATUS_SPEED d2.ddrSpeed).wr R.DDR.DDR_STATUS_DPC d2.ddrDpc).wr
            R.DDR.DDR_STATUS_INIT_PERCENT 100).wr R.DDR.CAPACITY d2.ddrBytes).wr R.DDR.DDR_STATUS_READY 1).event 0x510)) ∧
      (¬ (d2.ddrWanted.length ∈ [2, 4, 8] ∧ ∀ i, i ∈ d2.ddrWanted → d2.rdAt R.DDRCH.CH_STATUS_STATE i 0 = 3) → exec (.ddrChannelReady c t) s = .next (s.after fun _ => d2))) ∧
  (∀ (s : State) (c step slot t : Nat), c < 8 → (s.dev.rdAt R.DDRCH.CH_STATUS_STATE c 0 = 1 ∨ s.dev.rdAt R.DDRCH.CH_STATUS_STATE c 0 = 2) →
    exec (.ddrInitFailed c step slot t) s = .next (s.after fun d =>
      ((((d.toTime t).wrAt R.DDRCH.CH_STATUS_STATE c 0 4).wrAt R.DDRCH.CH_STATUS_STEP c 0 step).wr R.DDR.DDR_STATUS_INIT_FAILED 1).unitFault 0xA6 3 (0x201 + c) (step % 16 + slot % 2 * 16))) ∧
  (∀ (s : State) (c step slot t : Nat), c < 8 → s.dev.rdAt R.DDRCH.CH_STATUS_STATE c 0 ≠ 1 → s.dev.rdAt R.DDRCH.CH_STATUS_STATE c 0 ≠ 2 →
    exec (.ddrChannelReady c t) s = .next s ∧ exec (.ddrInitFailed c step slot t) s = .next s) ∧
  (∀ (s : State) (w t : Nat), s.dev.reaches 0x200 = true → (s.dev.running = true ∨ s.dev.inflight ≠ 0) →
    exec (.ddrRetrain w t) s = .next (s.after fun d => (d.atWrite t).wr R.DDR.DDR_STATUS_WRITE_REFUSED 1)) ∧
  (∀ (s : State) (w t : Nat), s.dev.reaches 0x200 = true → s.dev.running = false → s.dev.inflight = 0 →
    exec (.ddrRetrain w t) s = .next (s.after fun d =>
      let d1 := (d.atWrite t).ddrCtrlFields (w ||| 0x1000)
      let all := (setBits d.part.dimmMask 8).filter fun c => !isSet (d1.rd R.DDR.DDR_CTRL_EXCLUDE) c
      if all.length ∈ [2, 4, 8] ∧ ∀ c ∈ all, d.part.spdFault all c = none then d1.ddrStart else d1)) ∧
  (∀ (s : State) (c t n : Nat) (v : MemView), c < 8 → s.dev.ddr.scrubOn = true → s.dev.ddrReady = true → s.dev.rdAt R.DDRCH.CH_STATUS_STATE c 0 = 3 →
    n = SMap.get s.dev.ddr.scrubAt c →
    exec (.patrolScrubRead c v t) s = .next (s.after fun d =>
      let d2 := ((d.toTime t).ddrRead 5 ((d.toTime t).physical c (n * 64) / 64) v).2.2
      if d2.rd R.DDR.CAPACITY / 64 / max 1 d2.activeChannels.length ≤ n + 1 then
        ({ d2 with ddr := { d2.ddr with scrubAt := SMap.set d2.ddr.scrubAt c 0 } } : Dev).wrAt R.DDRCH.SCRUB_PASSES c 0 (d2.rdAt R.DDRCH.SCRUB_PASSES c 0 + 1)
      else { d2 with ddr := { d2.ddr with scrubAt := SMap.set d2.ddr.scrubAt c (n + 1) } })) ∧
  (∀ (s : State) (c t : Nat) (v : MemView), c < 8 → (s.dev.ddr.scrubOn = false ∨ s.dev.ddrReady = false ∨ s.dev.rdAt R.DDRCH.CH_STATUS_STATE c 0 ≠ 3) →
    exec (.patrolScrubRead c v t) s = .next s) ∧
  (∀ (s : State) (c t : Nat), c < 8 → exec (.ddrRefresh c t) s = .next (if s.dev.rdAt R.DDRCH.CH_STATUS_STATE c 0 = 3 then s.after fun d => (d.toTime t).count (0x40 + c) 3 1 else s)) ∧
  (∀ (s : State) (c temp t : Nat), c < 8 → s.dev.rdAt R.DDRCH.CH_STATUS_STATE c 0 ≠ 0 → s.dev.rdAt R.DDRCH.CH_STATUS_STATE c 0 ≠ 5 →
    exec (.dimmTempRead c temp t) s = .next (s.after fun d =>
      let d2 := { (d.toTime t).wrAt R.DDRCH.CH_STATUS_TEMP c 0 temp with ddr := { d.ddr with doubled := SMap.set d.ddr.doubled c (if 85 < temp then 1 else 0) } }
      if d.rd R.DDR.THERM_LIMIT ≤ temp then (if d.rdAt R.DDRCH.CH_STATUS_HOT c 0 = 1 then d2 else (d2.wrAt R.DDRCH.CH_STATUS_HOT c 0 1).event (0x520 + c))
      else if temp + 5 ≤ d.rd R.DDR.THERM_LIMIT then d2.wrAt R.DDRCH.CH_STATUS_HOT c 0 0 else d2)) ∧
  (∀ (s : State) (c temp t : Nat), c < 8 → (s.dev.rdAt R.DDRCH.CH_STATUS_STATE c 0 = 0 ∨ s.dev.rdAt R.DDRCH.CH_STATUS_STATE c 0 = 5) → exec (.dimmTempRead c temp t) s = .next s) ∧
  (∀ (s : State) (c a b t : Nat) (v : MemView), 8 ≤ c → exec (.ddrChannelReady c t) s = .fault .noSuchUnit ∧ exec (.ddrInitFailed c a b t) s = .fault .noSuchUnit ∧
    exec (.patrolScrubRead c v t) s = .fault .noSuchUnit ∧ exec (.ddrRefresh c t) s = .fault .noSuchUnit ∧ exec (.dimmTempRead c a t) s = .fault .noSuchUnit)

/-- spec/14 R366, R374 to R376, R383, R384: SQ_TAIL_WRITE, CQ_HEAD_WRITE, Q_CTRL_WRITE, QUEUE_RESET and DESCRIPTOR_FETCH. What makes a pair fit beside R374, and that writes during a reset are refused, are choices of the model (assumption log). -/
def Obligations.EngineQueues : Prop :=
  (∀ (s : State) (q w t : Nat), q < 64 → s.dev.reaches (0x108 + q) = true → (2 ^ 32 + w % 2 ^ 32 - s.dev.rdAt R.ENGQ.SQ_TAIL q 0) % 2 ^ 32 ≤ s.dev.qSize q →
    (2 ^ 32 + w % 2 ^ 32 - s.dev.rdAt R.ENGQ.SQ_HEAD q 0) % 2 ^ 32 ≤ s.dev.qSize q →
    exec (.sqTailWrite q w t) s = .next (s.after fun d => (d.atWrite t).wrAt R.ENGQ.SQ_TAIL q 0 (w % 2 ^ 32))) ∧
  (∀ (s : State) (q w t : Nat), q < 64 → s.dev.reaches (0x108 + q) = true →
    (s.dev.qSize q < (2 ^ 32 + w % 2 ^ 32 - s.dev.rdAt R.ENGQ.SQ_TAIL q 0) % 2 ^ 32 ∨ s.dev.qSize q < (2 ^ 32 + w % 2 ^ 32 - s.dev.rdAt R.ENGQ.SQ_HEAD q 0) % 2 ^ 32) →
    exec (.sqTailWrite q w t) s = .next (s.after fun d => (((d.atWrite t).wrAt R.ENGQ.Q_STATUS_OVERRUN q 0 1).event (0x640 + q)).unitFault 0xA5 0 (0x108 + q) (q + 0x100))) ∧
  (∀ (s : State) (q w t : Nat), q < 64 → s.dev.reaches (0x108 + q) = true →
    (2 ^ 32 + s.dev.rdAt R.ENGQ.CQ_TAIL q 0 - s.dev.rdAt R.ENGQ.CQ_HEAD q 0) % 2 ^ 32 < (2 ^ 32 + w % 2 ^ 32 - s.dev.rdAt R.ENGQ.CQ_HEAD q 0) % 2 ^ 32 →
    exec (.cqHeadWrite q w t) s = .next (s.after fun d => ((d.atWrite t).wrAt R.ENGQ.Q_STATUS_HEAD_ERROR q 0 1).unitFault 0xA5 0 (0x108 + q) (q + 0x200))) ∧
  (∀ (s : State) (q w t : Nat), q < 64 → s.dev.reaches (0x108 + q) = true →
    (2 ^ 32 + w % 2 ^ 32 - s.dev.rdAt R.ENGQ.CQ_HEAD q 0) % 2 ^ 32 ≤ (2 ^ 32 + s.dev.rdAt R.ENGQ.CQ_TAIL q 0 - s.dev.rdAt R.ENGQ.CQ_HEAD q 0) % 2 ^ 32 →
    exec (.cqHeadWrite q w t) s = .next (s.after fun d =>
      let d1 := (d.atWrite t).wrAt R.ENGQ.CQ_HEAD q 0 w
      if (2 ^ 32 + d.rdAt R.ENGQ.CQ_TAIL q 0 - w % 2 ^ 32) % 2 ^ 32 < d.qSize q then d1.wrAt R.ENGQ.Q_STATUS_CQ_FULL q 0 0 else d1)) ∧
  (∀ (s : State) (q w t : Nat), q < 64 → s.dev.reaches (0x108 + q) = true → bitAt w 13 = 0 → s.dev.rdAt R.ENGQ.Q_CTRL_ENABLE q 0 = 1 →
    exec (.qCtrlWrite q w t) s = .next (s.after fun d => if w % 2 = 0 then (d.atWrite t).wrAt R.ENGQ.Q_CTRL_ENABLE q 0 0 else (d.atWrite t).wrAt R.ENGQ.Q_STATUS_WRITE_REFUSED q 0 1)) ∧
  (∀ (s : State) (q w t : Nat), q < 64 → s.dev.reaches (0x108 + q) = true → bitAt w 13 = 0 → s.dev.rdAt R.ENGQ.Q_CTRL_ENABLE q 0 ≠ 1 → q ∈ s.dev.eng.resetting →
    exec (.qCtrlWrite q w t) s = .next (s.after fun d => (d.atWrite t).wrAt R.ENGQ.Q_STATUS_WRITE_REFUSED q 0 1)) ∧
  (∀ (s : State) (q w t : Nat), q < 64 → s.dev.reaches (0x108 + q) = true → bitAt w 13 = 0 → s.dev.rdAt R.ENGQ.Q_CTRL_ENABLE q 0 ≠ 1 → q ∉ s.dev.eng.resetting →
    exec (.qCtrlWrite q w t) s = .next (s.after fun d =>
      let d1 := (((d.atWrite t).wrAt R.ENGQ.Q_CTRL_LOC q 0 (w / 2)).wrAt R.ENGQ.Q_CTRL_SIZE_LOG2 q 0 (w / 4)).wrAt R.ENGQ.Q_CTRL_CTX q 0 (w / 2 ^ 7)
      if w % 2 = 0 then d1
      else if d1.queueFits q then (d1.wrAt R.ENGQ.Q_CTRL_ENABLE q 0 1).wrAt R.ENGQ.Q_STATUS_CFG_ERROR q 0 0 else d1.wrAt R.ENGQ.Q_STATUS_CFG_ERROR q 0 1)) ∧
  (∀ (d : Dev) (q : Nat), d.queueFits q = true → 4 ≤ d.rdAt R.ENGQ.Q_CTRL_SIZE_LOG2 q 0 ∧ d.rdAt R.ENGQ.Q_CTRL_SIZE_LOG2 q 0 ≤ 16 ∧
    d.rdAt R.ENGQ.SQ_BASE q 0 % (64 * d.qSize q) = 0 ∧ d.rdAt R.ENGQ.CQ_BASE q 0 % (64 * d.qSize q) = 0) ∧
  (∀ (s : State) (q w t : Nat), q < 64 → s.dev.reaches (0x108 + q) = true → s.dev.queueItems q ≠ [] →
    ∃ e : Eng, (∀ w2 : Nat, bitAt w2 13 = 1 → exec (.qCtrlWrite q w2 t) s = exec (.queueReset q w t) s) ∧
      exec (.queueReset q w t) s = .next (s.after fun d => ({ d.atWrite t with eng := e } : Dev).rewait) ∧ q ∈ e.resetting ∧ e.tokens = s.dev.eng.tokens ∧
      (∀ i, i ∈ s.dev.eng.items → (i.queue ≠ q ∨ i.stand = .running ∨ i.stand = .finished) → i ∈ e.items) ∧
      (∀ i, i ∈ s.dev.eng.items → i.queue = q → i.stand ≠ .running → i.stand ≠ .finished →
        ∃ j, j ∈ e.items ∧ j.id = i.id ∧ j.desc = i.desc ∧ j.done = i.done ∧ j.stand = .finished ∧ j.status = 0x1E) ∧
      e.items.length = s.dev.eng.items.length) ∧
  (∀ (s : State) (q w t : Nat), q < 64 → s.dev.reaches (0x108 + q) = true → s.dev.queueItems q = [] →
    ∃ u, u = s.after (fun d => ((d.atWrite t).queueReset q)) ∧ exec (.queueReset q w t) s = .next u ∧ u.dev.eng.items = s.dev.eng.items ∧ u.dev.rdAt R.ENGQ.SQ_HEAD q 0 = 0 ∧
      u.dev.rdAt R.ENGQ.SQ_TAIL q 0 = 0 ∧ u.dev.rdAt R.ENGQ.CQ_HEAD q 0 = 0 ∧ u.dev.rdAt R.ENGQ.CQ_TAIL q 0 = 0 ∧ u.dev.rdAt R.ENGQ.Q_STATUS_HALTED q 0 = 0 ∧
      u.dev.rdAt R.ENGQ.Q_STATUS_CQ_FULL q 0 = 0 ∧ u.dev.rdAt R.ENGQ.Q_CTRL_ENABLE q 0 = 0 ∧ q ∉ u.dev.eng.resetting) ∧
  (∀ (s : State) (q t : Nat) (v : MemView), q < 64 → s.dev.mayFetch q = false → exec (.descriptorFetch q v t) s = .next (s.after (Dev.toTime · t))) ∧
  (∀ (s : State) (q t : Nat) (v : MemView) (bs : Bytes) (d1 : Dev), q < 64 → s.dev.mayFetch q = true →
    (s.dev.toTime t).queueRead q (64 * (s.dev.rdAt R.ENGQ.SQ_HEAD q 0 % s.dev.qSize q)) v = (.done bs, d1) → leAt bs 4 1 % 8 ≠ 0 → 8192 ≤ s.dev.matchUsed →
    exec (.descriptorFetch q v t) s = .next (s.after fun _ => d1.event 0x681)) ∧
  (∀ (s : State) (q t : Nat) (v : MemView) (bs : Bytes) (d1 : Dev) (i : Item), q < 64 → s.dev.mayFetch q = true →
    (s.dev.toTime t).queueRead q (64 * (s.dev.rdAt R.ENGQ.SQ_HEAD q 0 % s.dev.qSize q)) v = (.done bs, d1) → leAt bs 4 1 % 8 = 0 ∨ s.dev.matchUsed < 8192 →
    i = { (default : Item) with id := s.dev.eng.nextId, queue := q, desc := bs, stand := .matching, engine := 32 } →
    ∃ u, u = s.after (fun _ => (d1.acceptItem q bs).rewait) ∧ exec (.descriptorFetch q v t) s = .next u ∧ u.dev.eng.nextId = s.dev.eng.nextId + 1 ∧
      u.dev.rdAt R.ENGQ.SQ_HEAD q 0 = (s.dev.rdAt R.ENGQ.SQ_HEAD q 0 + 1) % 2 ^ 32 ∧
      (s.dev.descriptorOk i = false → { i with stand := .finished, status := 0x10 } ∈ u.dev.eng.items) ∧
      (s.dev.descriptorOk i = true → leAt bs 4 1 % 8 = 0 → { i with stand := .ready, order := s.dev.eng.nextOrder } ∈ u.dev.eng.items) ∧
      (s.dev.descriptorOk i = true → leAt bs 4 1 % 8 ≠ 0 → (∃ x, x ∈ i.tokens ∧ SMap.get s.dev.eng.tokens x = 0) → i ∈ u.dev.eng.items)) ∧
  (∀ (s : State) (q t : Nat) (v : MemView) (r : Dma) (d1 : Dev), q < 64 → s.dev.mayFetch q = true →
    (s.dev.toTime t).queueRead q (64 * (s.dev.rdAt R.ENGQ.SQ_HEAD q 0 % s.dev.qSize q)) v = (r, d1) → (∀ bs, r ≠ .done bs) →
    exec (.descriptorFetch q v t) s = .next (s.after fun _ =>
      if r = .wait then (d1.emit .wait).wakeDdr 0x14C true else (d1.unitFault 0xA5 0 (0x108 + q) (q + 0x300)).wrAt R.ENGQ.Q_STATUS_HALTED q 0 1)) ∧
  (∀ (d : Dev) (q off : Nat) (v : MemView), d.rdAt R.ENGQ.Q_CTRL_LOC q 0 = 1 → d.queueRead q off v = (.done (SMap.bytes d.eng.sram (d.rdAt R.ENGQ.SQ_BASE q 0 + off) 64), d)) ∧
  (∀ (s : State) (q w t : Nat) (v : MemView), 64 ≤ q → exec (.sqTailWrite q w t) s = .fault .noSuchUnit ∧ exec (.cqHeadWrite q w t) s = .fault .noSuchUnit ∧
    exec (.qCtrlWrite q w t) s = .fault .noSuchUnit ∧ exec (.queueReset q w t) s = .fault .noSuchUnit ∧ exec (.descriptorFetch q v t) s = .fault .noSuchUnit)

/-- spec/14 R363, R374, R376, R377, R379 to R382, spec/18 R471: TOKEN_POST, ITEM_DISPATCH, RESTART_POINT, ITEM_COMPLETION, FENCE, TOKEN, TIMER, TIMER_DUE and MAILBOX. -/
def Obligations.EngineItems : Prop :=
  (∀ (s : State) (w t : Nat), s.dev.reaches 0x104 = true → fieldAt w 0 16 = 0 → exec (.tokenPost w t) s = .next (s.after fun d => (d.atWrite t).rewait)) ∧
  (∀ (s : State) (w t : Nat), s.dev.reaches 0x104 = true → fieldAt w 0 16 ≠ 0 → SMap.get s.dev.eng.tokens (fieldAt w 0 16) + fieldAt w 16 8 ≤ 255 →
    exec (.tokenPost w t) s = .next (s.after fun d =>
      (({ d.atWrite t with eng := { d.eng with tokens := SMap.set d.eng.tokens (fieldAt w 0 16) (SMap.get d.eng.tokens (fieldAt w 0 16) + fieldAt w 16 8) } } : Dev).matchItems).rewait)) ∧
  (∀ (s : State) (w t : Nat), s.dev.reaches 0x104 = true → fieldAt w 0 16 ≠ 0 → 255 < SMap.get s.dev.eng.tokens (fieldAt w 0 16) + fieldAt w 16 8 →
    exec (.tokenPost w t) s = .next (s.after fun d =>
      ((((({ d.atWrite t with eng := { d.eng with tokens := SMap.set d.eng.tokens (fieldAt w 0 16) 255 } } : Dev).wr R.ENG_SCHED.SCHED_STATUS_TOKEN_OVF 1).wr
        R.ENG_SCHED.SCHED_STATUS_LAST_OVF_ID (fieldAt w 0 16)).event 0x680).matchItems).rewait)) ∧
  (∀ (d : Dev) (i : Item), d.itemsWf = true → (d.eng.items.filter fun x => decide (x.stand = .matching)) = [i] → distinct i.tokens = true →
    (∀ x, x ∈ i.tokens → 1 ≤ SMap.get d.eng.tokens x) → d.matchItems.item i.id = some { i with stand := .ready, order := d.eng.nextOrder } ∧
      ∀ x, SMap.get d.matchItems.eng.tokens x = SMap.get d.eng.tokens x - if x ∈ i.tokens then 1 else 0) ∧
  (∀ (d : Dev), (∀ i, i ∈ d.eng.items → i.stand = .matching → ∃ x, x ∈ i.tokens ∧ SMap.get d.eng.tokens x = 0) → d.matchItems = d) ∧
  (∀ (d : Dev) (i : Item), d.readyHead = some i → (i ∈ d.dispatchable ∧ (∀ j, j ∈ d.dispatchable → j.prio < i.prio ∨ (j.prio = i.prio ∧ i.order ≤ j.order)))) ∧
  (∀ (s : State) (e t : Nat), e < 32 → (s.dev.readyHead = none ∨ s.dev.enginesHeld = true) → exec (.itemDispatch e t) s = .next (s.after (Dev.toTime · t))) ∧
  (∀ (s : State) (e t : Nat) (i : Item) (g : Gate) (d1 : Dev), e < 32 → s.dev.readyHead = some i → s.dev.enginesHeld = false → (s.dev.toTime t).gateway 0x59 0x14C 0 true = (g, d1) → g ≠ .pass →
    exec (.itemDispatch e t) s = .next (s.after fun _ => d1.emit .wait)) ∧
  (∀ (s : State) (e t : Nat) (i : Item), e < 32 → s.dev.readyHead = some i → s.dev.enginesHeld = false → s.dev.domState 0x59 = 2 → s.dev.engineIdle e = true → s.dev.itemsWf = true →
    ∃ u j, u = s.after (fun d => (d.toTime t).startItem i.id e) ∧ exec (.itemDispatch e t) s = .next u ∧ u.dev.item i.id = some j ∧ j.engine = e ∧ j.desc = i.desc ∧ j.done = i.done ∧
      (i.ty ≠ 7 → j.stand = .running) ∧ (i.ty = 7 → s.dev.takeBegun (fieldAt i.arg 0 48) = true → j.stand = .finished ∧ j.status = 0x19) ∧
      (i.ty = 7 → s.dev.takeBegun (fieldAt i.arg 0 48) = false → j.stand = .running) ∧
      ∀ x, x ≠ i.id → u.dev.item x = s.dev.item x) ∧
  (∀ (s : State) (e t : Nat) (i : Item), e < 32 → s.dev.readyHead = some i → s.dev.enginesHeld = false → s.dev.domState 0x59 = 2 → s.dev.engineIdle e = false →
    (List.range 32).any s.dev.engineIdle = true → exec (.itemDispatch e t) s = .next (s.after (Dev.toTime · t))) ∧
  (∀ (s : State) (e t : Nat) (i : Item), e < 32 → s.dev.readyHead = some i → s.dev.enginesHeld = false → s.dev.domState 0x59 = 2 → (List.range 32).any s.dev.engineIdle = false →
    s.dev.victim i.prio = some e → s.dev.itemsWf = true →
    ∃ u, u = s.after (fun d => (d.toTime t).prefetchItem i e) ∧ exec (.itemDispatch e t) s = .next u ∧ u.dev.item i.id = some { i with stand := .prefetch, engine := e }) ∧
  (∀ (s : State) (e t : Nat), e < 32 → s.dev.runningOn e = none → exec (.restartPoint e t) s = .next (s.after (Dev.toTime · t))) ∧
  (∀ (s : State) (e t : Nat) (i : Item), e < 32 → s.dev.runningOn e = some i → (s.dev.toTime t).pointReached i = false → exec (.restartPoint e t) s = .next (s.after (Dev.toTime · t))) ∧
  (∀ (s : State) (e t : Nat) (i : Item), e < 32 → s.dev.runningOn e = some i → (s.dev.toTime t).pointReached i = true → i.queue ∈ s.dev.eng.resetting → s.dev.itemsWf = true →
    ∃ u, u = s.after (fun d => ((d.toTime t).setItem i.id fun x => { x with restart := true }).endItem i.id 0x1E) ∧ exec (.restartPoint e t) s = .next u ∧
      u.dev.item i.id = some { i with restart := true, stand := .finished, status := 0x1E }) ∧
  (∀ (s : State) (e t : Nat) (i : Item), e < 32 → s.dev.runningOn e = some i → (s.dev.toTime t).pointReached i = true → i.queue ∉ s.dev.eng.resetting → s.dev.enginesHeld = true →
    exec (.restartPoint e t) s = .next (s.after fun d => (((d.toTime t).headReady i.id).setItem i.id fun x => { x with restart := true }).idleHandovers)) ∧
  (∀ (s : State) (e t : Nat) (i : Item), e < 32 → s.dev.runningOn e = some i → (s.dev.toTime t).pointReached i = true → i.queue ∉ s.dev.eng.resetting → s.dev.enginesHeld = false →
    (∀ p, s.dev.prefetched e = some p → p.prio ≤ i.prio) →
    exec (.restartPoint e t) s = .next (s.after fun d => (d.toTime t).setItem i.id fun x => { x with lastPoint := x.progress, pointTime := (d.toTime t).mono })) ∧
  (∀ (s : State) (e t : Nat) (i p : Item), e < 32 → s.dev.runningOn e = some i → (s.dev.toTime t).pointReached i = true → i.queue ∉ s.dev.eng.resetting → s.dev.enginesHeld = false → s.dev.prefetched e = some p →
    i.prio < p.prio → s.dev.itemsWf = true → p.ty ≠ 7 → (∀ x, x ∈ s.dev.eng.items → x.holds e = true → x = i) →
    ∃ u j k, u = s.after (fun d => (((((d.toTime t).headReady i.id).setItem i.id fun x => { x with restart := true }).count (0x50 + e) 3 1).startPrefetched e).idleHandovers) ∧
      exec (.restartPoint e t) s = .next u ∧ u.dev.item i.id = some j ∧ j.stand = .ready ∧ j.restart = true ∧ j.done = i.done ∧ u.dev.item p.id = some k ∧ k.stand = .running ∧ k.engine = e) ∧
  (∀ (s : State) (q t : Nat) (v : MemView), q < 64 → s.dev.dueItem q = none → exec (.itemCompletion q v t) s = .next (s.after (Dev.toTime · t))) ∧
  (∀ (s : State) (q t : Nat) (v : MemView) (i : Item), q < 64 → s.dev.dueItem q = some i → s.dev.powerState = 2 → s.dev.on R.POWER.PWR_STATUS_EMULATED = false →
    exec (.itemCompletion q v t) s = .next (s.after (Dev.toTime · t))) ∧
  (∀ (s : State) (q t : Nat) (v : MemView) (i : Item), q < 64 → s.dev.dueItem q = some i → s.dev.bivouacked = false → bitAt i.flags 0 = 1 → i.status < 0x10 →
    exec (.itemCompletion q v t) s = .next (s.after fun d => (((d.toTime t).retireItem i).postToken i.doneToken 1).rewait)) ∧
  (∀ (s : State) (q t : Nat) (v : MemView) (i : Item), q < 64 → s.dev.dueItem q = some i → s.dev.bivouacked = false → (bitAt i.flags 0 = 0 ∨ 0x10 ≤ i.status) → s.dev.qSize q ≤ s.dev.cqUsed q →
    exec (.itemCompletion q v t) s = .next (s.after fun d =>
      if d.rdAt R.ENGQ.Q_STATUS_CQ_FULL q 0 = 1 then d.toTime t else ((d.toTime t).wrAt R.ENGQ.Q_STATUS_CQ_FULL q 0 1).event 0x683)) ∧
  (∀ (s : State) (q t : Nat) (v : MemView) (i : Item) (bs : Bytes) (d1 : Dev), q < 64 → s.dev.dueItem q = some i → s.dev.bivouacked = false → (bitAt i.flags 0 = 0 ∨ 0x10 ≤ i.status) →
    s.dev.cqUsed q < s.dev.qSize q → (s.dev.toTime t).writeEntry i v = (.done bs, d1) →
    exec (.itemCompletion q v t) s = .next (s.after fun _ =>
      let d2 := (d1.wrAt R.ENGQ.CQ_TAIL q 0 (d1.rdAt R.ENGQ.CQ_TAIL q 0 + 1)).count (0x70 + q) 1 1
      let d3 := if 0x10 ≤ i.status then d2.count (0x70 + q) 2 1 else d2
      let d4 := if i.restartValid = true ∧ i.engine ≠ 32 then d3.count (0x50 + i.engine % 32) 4 1 else d3
      let d5 := if i.restartValid = true ∧ i.ty = 9 ∧ i.arg % 256 = 1 then { d4 with eng := { d4.eng with slots := SMap.set d4.eng.slots q i.acc } } else d4
      let d6 := d5.retireItem i
      (if i.status < 0x10 ∨ isSet i.flags 1 then (d6.postToken i.doneToken 1).rewait else d6).event (0x600 + q))) ∧
  (∀ (d : Dev) (i : Item) (v : MemView) (x : Bytes × Dev), d.rdAt R.ENGQ.Q_CTRL_LOC i.queue 0 = 1 → x = d.completionEntry i (d.rdAt R.ENGQ.CQ_TAIL i.queue 0) →
    d.writeEntry i v = (.done [], { x.2 with eng := { d.eng with sram := SMap.store d.eng.sram (d.rdAt R.ENGQ.CQ_BASE i.queue 0 + 64 * (d.rdAt R.ENGQ.CQ_TAIL i.queue 0 % d.qSize i.queue)) x.1 } })) ∧
  (∀ (s : State) (q t : Nat) (v : MemView) (i : Item) (r : Dma) (d1 : Dev), q < 64 → s.dev.dueItem q = some i → s.dev.bivouacked = false → (bitAt i.flags 0 = 0 ∨ 0x10 ≤ i.status) →
    s.dev.cqUsed q < s.dev.qSize q → (s.dev.toTime t).writeEntry i v = (r, d1) → (∀ bs, r ≠ .done bs) →
    exec (.itemCompletion q v t) s = .next (s.after fun _ =>
      if r = .wait then (d1.emit .wait).wakeDdr 0x14C true else ((d1.unitFault 0xA5 0 (0x108 + q) (q + 0x400)).wrAt R.ENGQ.Q_STATUS_HALTED q 0 1).retireItem i)) ∧
  (∀ (d : Dev) (i : Item) (x : Item), x ∈ (d.retireItem i).eng.items → x.id ≠ i.id) ∧
  (∀ (d : Dev) (i : Item) (c : Nat) (b : Bytes), b = (d.completionEntry i c).1 → i.queue < 64 → i.detail < 256 → i.status < 256 → i.done < 2 ^ 64 →
    b.length = 64 ∧ leAt b 0 8 = i.tag ∧ leAt b 8 1 = i.status ∧ leAt b 9 1 = i.ty ∧ leAt b 10 1 % 2 = 1 - bitAt c (d.rdAt R.ENGQ.Q_CTRL_SIZE_LOG2 i.queue 0) ∧ leAt b 12 1 = i.queue ∧
      leAt b 13 1 = i.detail ∧ leAt b 16 8 = i.done ∧ leAt b 24 8 = d.stamp ∧ leAt b 10 1 / 2 = bit i.restartValid ∧ leAt b 11 1 = (if i.engine = 32 then 0x80 else i.engine % 32) ∧
      (i.restartValid = true → leAt b 32 8 = i.nextSrc % 2 ^ 64 ∧ leAt b 40 8 = i.nextDst % 2 ^ 64 ∧ leAt b 48 8 = (i.len - i.done) % 2 ^ 64 ∧ leAt b 56 8 = i.stateOut % 2 ^ 64)) ∧
  (∀ (s : State) (q t : Nat), q < 64 → s.dev.readyOf q 0xE = none → exec (.timer q t) s = .next (s.after (Dev.toTime · t))) ∧
  (∀ (s : State) (q t : Nat) (i : Item), q < 64 → s.dev.readyOf q 0xE = some i → (s.dev.toTime t).keyReached i.list i.arg = true →
    exec (.timer q t) s = .next (s.after fun d => (d.toTime t).setItem i.id fun x => { x with stand := .finished, status := 0x01 })) ∧
  (∀ (s : State) (q t : Nat) (i : Item), q < 64 → s.dev.readyOf q 0xE = some i → (s.dev.toTime t).keyReached i.list i.arg = false → 4096 ≤ (s.dev.listItems i.list).length →
    exec (.timer q t) s = .next (s.after fun d => (d.toTime t).event 0x682)) ∧
  (∀ (s : State) (q t : Nat) (i : Item), q < 64 → s.dev.readyOf q 0xE = some i → (s.dev.toTime t).keyReached i.list i.arg = false → (s.dev.listItems i.list).length < 4096 → s.dev.itemsWf = true →
    ∃ u, u = s.after (fun d =>
        let d1 := (d.toTime t).setItem i.id fun x => { x with stand := .delayed, order := d.eng.nextOrder }
        { d1 with eng := { d1.eng with nextOrder := d.eng.nextOrder + 1 } }) ∧
      exec (.timer q t) s = .next u ∧ u.dev.item i.id = some { i with stand := .delayed, order := s.dev.eng.nextOrder } ∧ u.dev.eng.nextOrder = s.dev.eng.nextOrder + 1) ∧
  (∀ (s : State) (l t : Nat), l < 16 → s.dev.itemsWf = true →
    ∃ u, u = s.after (fun d => forAll ((d.listItems l).filter fun i => (d.toTime t).keyReached l i.arg) (fun i d => d.endItem i.id 0) (d.toTime t)) ∧
      exec (.timerDue l t) s = .next u ∧ ∀ x, u.dev.item x = (s.dev.item x).map fun i =>
      if i.stand = .delayed ∧ i.list = l ∧ (s.dev.toTime t).keyReached l i.arg = true then { i with stand := .finished, status := 0 } else i) ∧
  (∀ (d : Dev) (l key : Nat), d.rdAt R.ENG_SCHED.DLIST_CFG_KEY 0 l = 0 → key < 2 ^ 64 → (d.keyReached l key = true ↔ (2 ^ 64 + d.stamp - key) % 2 ^ 64 < 2 ^ 63)) ∧
  (∀ (d : Dev) (l key n : Nat), d.rdAt R.ENG_SCHED.DLIST_CFG_KEY 0 l = n + 1 → n < 4 → (d.keyReached l key = true ↔ (2 ^ 32 + d.rdAt R.TBASE.TICK_COUNT n 0 - key % 2 ^ 32) % 2 ^ 32 < 2 ^ 31)) ∧
  (∀ (s : State) (q t : Nat) (i : Item), q < 64 → s.dev.readyOf q 0xC = some i →
    exec (.fence q t) s = .next (s.after fun d => if (d.queueItems q).any (fun x => decide (x.id < i.id)) then d.toTime t else (d.toTime t).endItem i.id 0)) ∧
  (∀ (s : State) (q t : Nat) (i : Item), q < 64 → s.dev.readyOf q 0xD = some i →
    exec (.token q t) s = .next (s.after fun d => (((d.toTime t).endItem i.id 0).postToken (fieldAt i.arg 0 16) (fieldAt i.arg 16 8)).rewait)) ∧
  (∀ (s : State) (q t : Nat) (v : MemView) (i : Item), q < 64 → s.dev.readyOf q 0xF = some i → 8 ≤ s.dev.ch1Level → exec (.mailbox q v t) s = .next (s.after fun d => (d.toTime t).emit .wait)) ∧
  (∀ (s : State) (q t : Nat) (v v1 : MemView) (i : Item) (bs : Bytes) (d1 : Dev), q < 64 → s.dev.readyOf q 0xF = some i → s.dev.ch1Level < 8 →
    (s.dev.toTime t).itemRead i i.src i.len v = (.ok bs, v1, d1) →
    exec (.mailbox q v t) s = .next (s.after fun _ =>
      let d2 := d1.setItem i.id fun x => { x with stand := .running, started := d1.mono }
      { d2 with mg := { d2.mg with msgs := d1.mg.msgs ++ [{ item := i.id, body := bs, restarted := false }] } })) ∧
  (∀ (s : State) (q t : Nat) (v v1 : MemView) (i : Item) (d1 : Dev), q < 64 → s.dev.readyOf q 0xF = some i → s.dev.ch1Level < 8 → (s.dev.toTime t).itemRead i i.src i.len v = (.wait, v1, d1) →
    exec (.mailbox q v t) s = .next (s.after fun _ => d1.emit .wait)) ∧
  (∀ (s : State) (q t a b : Nat) (v v1 : MemView) (i : Item) (d1 : Dev), q < 64 → s.dev.readyOf q 0xF = some i → s.dev.ch1Level < 8 → (s.dev.toTime t).itemRead i i.src i.len v = (.stop a b, v1, d1) →
    exec (.mailbox q v t) s = .next (s.after fun _ => d1.setItem i.id fun x => { x with detail := b, stand := .finished, status := a })) ∧
  (∀ (s : State) (q t : Nat) (v : MemView), q < 64 →
    (s.dev.readyOf q 0xC = none → exec (.fence q t) s = .next (s.after (Dev.toTime · t))) ∧ (s.dev.readyOf q 0xD = none → exec (.token q t) s = .next (s.after (Dev.toTime · t))) ∧
    (s.dev.readyOf q 0xF = none → exec (.mailbox q v t) s = .next (s.after (Dev.toTime · t)))) ∧
  (∀ (s : State) (n t : Nat), 32 ≤ n → exec (.itemDispatch n t) s = .fault .noSuchUnit ∧ exec (.restartPoint n t) s = .fault .noSuchUnit) ∧
  (∀ (s : State) (n t : Nat) (v : MemView), 64 ≤ n → exec (.itemCompletion n v t) s = .fault .noSuchUnit ∧ exec (.fence n t) s = .fault .noSuchUnit ∧ exec (.token n t) s = .fault .noSuchUnit ∧
    exec (.timer n t) s = .fault .noSuchUnit ∧ exec (.mailbox n v t) s = .fault .noSuchUnit) ∧
  (∀ (s : State) (n t : Nat), 16 ≤ n → exec (.timerDue n t) s = .fault .noSuchUnit)

/-- spec/14 R365, R367, R369, R377, R378, R382, spec/16 R438, spec/17 R459: COPY, FILL, READBACK, VERIFY, RESTORE, CHECKSUM, TRACE_DRAIN and ERASE. -/
def Obligations.EngineMoves : Prop :=
  (∀ (d : Dev) (i : Item) (off n : Nat), d.on R.LOAD.LOAD_STATUS_SECURE = true → (i.ty = 4 ∨ i.ty = 5 ∨ i.ty = 9) → d.arraySource i off n = (.stop 0x1F 0, d)) ∧
  (∀ (d : Dev) (i : Item) (off n : Nat), i.ty = 1 → d.region off = .bank → d.bankOwner (d.bankAt off) ≠ 1 →
    d.arraySource i off n = (.stop 0x14 0, d.wrAt R.BANK.BANK_STATUS_REFUSED_ACCESS (d.bankAt off) 0 1)) ∧
  (∀ (d : Dev) (i : Item) (off n : Nat), (d.on R.LOAD.LOAD_STATUS_SECURE = false ∨ i.ty = 1 ∨ i.ty = 8) → d.region off ≠ .bank → d.running = true → d.arraySource i off n = (.stop 0x15 0, d)) ∧
  (∀ (d : Dev) (i : Item) (off : Nat) (bs : Bytes), d.region off = .bank → d.bankOwner (d.bankAt off) ≠ 1 → (d.bankOwner (d.bankAt off) ≠ 0 ∨ i.ty ≠ 8 ∨ d.running = true) →
    d.arrayTarget i off bs = (.stop 0x14 0, d.wrAt R.BANK.BANK_STATUS_REFUSED_ACCESS (d.bankAt off) 0 1)) ∧
  (∀ (d : Dev) (i : Item) (off : Nat) (bs : Bytes), d.region off ≠ .bank → d.running = true → d.arrayTarget i off bs = (.stop 0x15 0, d)) ∧
  (∀ (d : Dev) (i : Item) (off g : Nat) (bs : Bytes), d.offsetDomain off = some g → d.domState g = 2 → (d.region off = .bank ∧ d.bankOwner (d.bankAt off) = 1 ∨ d.running = false ∧ (d.region off ≠ .bank ∨ d.bankOwner (d.bankAt off) = 0 ∧ i.ty = 8)) →
    d.arrayTarget i off bs = (.ok [], d.arrWrite off bs)) ∧
  (∀ (s : State) (ty e n t : Nat) (v : MemView), ty ∈ [1, 2, 3, 4, 5, 6, 7, 8, 9, 10, 11] → e < 32 → s.dev.runningType e ty = none →
    exec (moveCommand ty e n v t) s = .next (s.after (Dev.toTime · t))) ∧
  (∀ (s u : State) (ty e c t : Nat) (v v1 v2 : MemView) (i : Item) (bs : Bytes) (d1 d2 : Dev), ty ∈ [1, 4, 8] → e < 32 → s.dev.runs e ty i = true → 0 < c →
    c = min (bothSizes i s.dev) (i.len - i.done) → (s.dev.toTime t).itemRead i (i.src + i.done) c v = (.ok bs, v1, d1) →
    (d1.count (0x50 + i.engine) 1 c).itemWrite i (i.dst + i.done) bs v1 = (.ok [], v2, d2) → u = s.after (fun _ => (d2.count (0x50 + i.engine) 2 c).onward i c i.len) →
    (ty = 1 → exec (.copy e c v t) s = .next u) ∧ (ty = 4 → exec (.readback e c v t) s = .next u) ∧ (ty = 8 → exec (.restore e c v t) s = .next u)) ∧
  (∀ (s : State) (ty e c t : Nat) (v v1 : MemView) (i : Item) (d1 : Dev), ty ∈ [1, 4, 5, 8] → e < 32 → s.dev.runs e ty i = true → 0 < c →
    c = min (bothSizes i s.dev) (i.len - i.done) → (s.dev.toTime t).itemRead i (i.src + i.done) c v = (.wait, v1, d1) →
    exec (moveCommand ty e c v t) s = .next (s.after fun _ => d1.emit .wait)) ∧
  (∀ (s : State) (ty e c t a b : Nat) (v v1 : MemView) (i : Item) (bs : Bytes) (d1 : Dev), ty ∈ [2, 11] → e < 32 → s.dev.runs e ty i = true → 0 < c → c = min (s.dev.requestLen true (i.dst + i.done)) (i.len - i.done) →
    bs = (if ty = 11 then List.replicate c 0 else (List.range c).map fun j => BitVec.ofNat 8 (i.arg / 256 ^ ((i.state + i.done + j) % 8))) →
    (s.dev.toTime t).itemWrite i (i.dst + i.done) bs v = (.stop a b, v1, d1) → d1.item i.id = some i → exec (moveCommand ty e c v t) s = .next (s.after fun _ => d1.stopItem i.id a b)) ∧
  (∀ (s : State) (ty e c t a b : Nat) (v v1 : MemView) (i : Item) (d1 : Dev), ty ∈ [1, 4, 5, 8] → e < 32 → s.dev.runs e ty i = true → 0 < c →
    c = min (bothSizes i s.dev) (i.len - i.done) → (s.dev.toTime t).itemRead i (i.src + i.done) c v = (.stop a b, v1, d1) → d1.item i.id = some i →
    exec (moveCommand ty e c v t) s = .next (s.after fun _ => d1.stopItem i.id a b)) ∧
  (∀ (s : State) (e c t a b : Nat) (v v1 v2 : MemView) (i : Item) (bs : Bytes) (ty : Nat) (d1 d2 : Dev), ty ∈ [1, 4, 8] → e < 32 → s.dev.runs e ty i = true → 0 < c →
    c = min (bothSizes i s.dev) (i.len - i.done) → (s.dev.toTime t).itemRead i (i.src + i.done) c v = (.ok bs, v1, d1) →
    (d1.count (0x50 + i.engine) 1 c).itemWrite i (i.dst + i.done) bs v1 = (.stop a b, v2, d2) → d2.item i.id = some i →
    exec (moveCommand ty e c v t) s = .next (s.after fun _ => d2.stopItem i.id a b)) ∧
  (∀ (s : State) (e c t : Nat) (v v1 : MemView) (i : Item) (d1 : Dev), e < 32 → s.dev.runs e 2 i = true → 0 < c → c = min (s.dev.requestLen true (i.dst + i.done)) (i.len - i.done) →
    (s.dev.toTime t).itemWrite i (i.dst + i.done) ((List.range c).map fun j => BitVec.ofNat 8 (i.arg / 256 ^ ((i.state + i.done + j) % 8))) v = (.ok [], v1, d1) →
    exec (.fill e c v t) s = .next (s.after fun _ => (d1.count (0x50 + i.engine) 2 c).onward i c i.len)) ∧
  (∀ (s : State) (e c k t : Nat) (v v1 v2 : MemView) (i : Item) (a b : Bytes) (d1 d2 : Dev), e < 32 → s.dev.runs e 5 i = true → 0 < c → c = min (bothSizes i s.dev) (i.len - i.done) →
    (s.dev.toTime t).itemRead i (i.src + i.done) c v = (.ok a, v1, d1) → d1.itemRead i (i.dst + i.done) c v1 = (.ok b, v2, d2) → k = agreeLen a b →
    exec (.verify e c v t) s = .next (s.after fun _ => if k < c then ((d2.count (0x50 + i.engine) 1 (2 * c)).setItem i.id fun x => x.advance k).stopItem i.id 0x1A 0
      else (d2.count (0x50 + i.engine) 1 (2 * c)).onward i c i.len)) ∧
  (∀ (s : State) (e c t : Nat) (v v1 : MemView) (i : Item) (bs : Bytes) (d1 : Dev), e < 32 → s.dev.runs e 9 i = true → 0 < c → c = min (s.dev.requestLen false (i.src + i.done)) (i.len - i.done) →
    i.done + c < i.len → (s.dev.toTime t).itemRead i (i.src + i.done) c v = (.ok bs, v1, d1) →
    exec (.checksum e c v t) s = .next (s.after fun _ => ((d1.count (0x50 + i.engine) 1 c).setItem i.id fun x =>
      if x.arg % 256 = 0 then { x with state := (bs.foldl (crcByte 0x82F63B78) (x.state ^^^ 0xFFFFFFFF)) ^^^ 0xFFFFFFFF } else { x with acc := x.acc ++ bs }).setItem i.id fun x => x.advance c)) ∧
  (∀ (s : State) (e n t : Nat) (v v1 : MemView) (i : Item) (result : Bytes) (d1 : Dev), e < 32 → s.dev.runs e 9 i = true → i.len = i.done →
    result = (if i.arg % 256 = 0 then leBytes i.state 4 else leBytes (Config.sha384 i.acc) 48) → (s.dev.toTime t).itemWrite i i.dst result v = (.ok [], v1, d1) →
    exec (.checksum e n v t) s = .next (s.after fun _ => (d1.count (0x50 + i.engine) 2 result.length).endItem i.id 0)) ∧
  (∀ (s : State) (e c a t : Nat) (v v1 v2 : MemView) (i : Item) (bs : Bytes) (d1 d2 : Dev), e < 32 → s.dev.runs e 10 i = true → 0 < c → c = min (drainSize i s.dev) (i.back - i.done) →
    a = s.dev.rd R.TRACE.RING_BASE + s.dev.rd R.TRACE.RD % 2 ^ s.dev.rd R.TRACE.RING_CFG_SIZE_LOG2 →
    (s.dev.toTime t).dmaRead 1 (s.dev.rd R.TRACE.RING_CFG_RING_CTX) a c v = (.done bs, v1, d1) → (d1.count (0x50 + i.engine) 1 c).itemWrite i (i.dst + i.done) bs v1 = (.ok [], v2, d2) →
    exec (.traceDrain e c v t) s = .next (s.after fun _ => ((d2.count (0x50 + i.engine) 2 c).wr R.TRACE.RD (s.dev.rd R.TRACE.RD + c)).onward i c i.back)) ∧
  (∀ (s : State) (e c t : Nat) (v v1 : MemView) (i : Item) (d1 : Dev), e < 32 → s.dev.runs e 11 i = true → 0 < c → c = min (s.dev.requestLen true (i.dst + i.done)) (i.len - i.done) →
    (s.dev.toTime t).itemWrite i (i.dst + i.done) (List.replicate c 0) v = (.ok [], v1, d1) →
    exec (.erase e c v t) s = .next (s.after fun _ => (d1.count (0x50 + i.engine) 2 c).setItem i.id fun x => x.advance c)) ∧
  (∀ (s : State) (e c k t : Nat) (v v1 : MemView) (i : Item) (bs : Bytes) (d1 : Dev), e < 32 → s.dev.runs e 11 i = true → i.len ≤ i.done → 0 < c →
    c = min (s.dev.requestLen false i.backAddr) (i.state + i.len - i.back) → (s.dev.toTime t).itemRead i i.backAddr c v = (.ok bs, v1, d1) → k = agreeLen bs (List.replicate c 0) →
    exec (.erase e c v t) s = .next (s.after fun _ =>
      let d2 := d1.count (0x50 + i.engine) 1 c
      if k < c then (d2.setItem i.id fun x => { x with done := x.back + k }).stopItem i.id 0x1A 0
      else if i.state + i.len ≤ i.back + c then (d2.setItem i.id fun x => { x with back := x.back + c }).endItem i.id 0
      else d2.setItem i.id fun x => { x with back := x.back + c })) ∧
  (∀ (s : State) (ty e n t : Nat) (v : MemView) (i : Item), ty ∈ [1, 2, 4, 5, 8] → e < 32 → s.dev.runs e ty i = true → i.len = i.done →
    exec (moveCommand ty e n v t) s = .next (s.after fun d => (d.toTime t).endItem i.id 0)) ∧
  (∀ (s : State) (ty e n t : Nat) (v : MemView), ty ∈ [1, 2, 3, 4, 5, 6, 7, 8, 9, 10, 11] → 32 ≤ e → exec (moveCommand ty e n v t) s = .fault .noSuchUnit)

/-- spec/14 R368, R370, R373: INJECT, CAPTURE and LOAD_FRAMES. -/
def Obligations.InjectCaptureLoad : Prop :=
  (∀ (s : State) (e t : Nat) (v : MemView) (i : Item), e < 32 → s.dev.runningType e 6 = some i → bitAt (s.dev.mapEntry i.injectBelay) 15 = 1 →
    i.len ≠ ((s.dev.injectList i.injectBelay).length + 7) / 8 → exec (.inject e v t) s = .next (s.after fun d => (d.toTime t).stopItem i.id 0x10 0)) ∧
  (∀ (s : State) (e t : Nat) (v : MemView) (i : Item), e < 32 → s.dev.runningType e 6 = some i →
    (bitAt (s.dev.mapEntry i.injectBelay) 15 = 0 ∨ i.len = ((s.dev.injectList i.injectBelay).length + 7) / 8) → 256 ≤ s.dev.eng.inject.length →
    exec (.inject e v t) s = .next (s.after fun d => (d.toTime t).emit .wait)) ∧
  (∀ (s : State) (e t : Nat) (v v1 : MemView) (i : Item) (bs : Bytes) (d1 : Dev), e < 32 → s.dev.runningType e 6 = some i → bitAt (s.dev.mapEntry i.injectBelay) 15 = 0 → s.dev.eng.inject.length < 256 →
    (s.dev.toTime t).itemRead i i.src i.len v = (.ok bs, v1, d1) → exec (.inject e v t) s = .next (s.after fun _ => (d1.count (0x50 + i.engine) 1 i.len).stopItem i.id 0x16 0)) ∧
  (∀ (s : State) (e t : Nat) (v v1 : MemView) (i : Item) (bs : Bytes) (d1 : Dev), e < 32 → s.dev.runningType e 6 = some i → bitAt (s.dev.mapEntry i.injectBelay) 15 = 1 →
    i.len = ((s.dev.injectList i.injectBelay).length + 7) / 8 → s.dev.eng.inject.length < 256 → (s.dev.toTime t).itemRead i i.src i.len v = (.ok bs, v1, d1) →
    (i.injectTake < s.dev.rd R.TAKE.TAKE_NUMBER ∨ i.injectTake = s.dev.rd R.TAKE.TAKE_NUMBER ∧
      (i.injectBelay < s.dev.tk.belay ∨ i.injectBelay = s.dev.tk.belay ∧ (s.dev.tk.phase = .stepping ∨ s.dev.tk.phase = .ended))) →
    exec (.inject e v t) s = .next (s.after fun _ => (d1.count (0x50 + i.engine) 1 i.len).stopItem i.id 0x17 0)) ∧
  (∀ (s : State) (e t : Nat) (v v1 : MemView) (i : Item) (bs : Bytes) (d1 : Dev), e < 32 → s.dev.runningType e 6 = some i → s.dev.itemsWf = true → bitAt (s.dev.mapEntry i.injectBelay) 15 = 1 →
    i.len = ((s.dev.injectList i.injectBelay).length + 7) / 8 → s.dev.eng.inject.length < 256 → (s.dev.toTime t).itemRead i i.src i.len v = (.ok bs, v1, d1) →
    ¬ (i.injectTake < s.dev.rd R.TAKE.TAKE_NUMBER ∨ i.injectTake = s.dev.rd R.TAKE.TAKE_NUMBER ∧
      (i.injectBelay < s.dev.tk.belay ∨ i.injectBelay = s.dev.tk.belay ∧ (s.dev.tk.phase = .stepping ∨ s.dev.tk.phase = .ended))) →
    ∃ u j, u = s.after (fun _ =>
        let d2 := (d1.count (0x50 + i.engine) 1 i.len).setItem i.id fun x => { x with stand := .staged, engine := 64 + e, done := x.len }
        (({ d2 with eng := { d2.eng with inject := d2.eng.inject ++ [⟨i.id, i.injectTake, i.injectBelay, leNat bs, false, false⟩] } } : Dev).startPrefetched e).rewait) ∧
      exec (.inject e v t) s = .next u ∧ u.dev.eng.inject = s.dev.eng.inject ++ [⟨i.id, i.injectTake, i.injectBelay, leNat bs, false, false⟩] ∧ u.dev.item i.id = some j ∧ j.stand = .staged ∧ j.done = i.len) ∧
  (∀ (s : State) (e t : Nat) (v : MemView) (i : Item), e < 32 → s.dev.runningType e 7 = some i → i.len ≤ i.done → exec (.capture e v t) s = .next (s.after fun d => (d.toTime t).endItem i.id 0)) ∧
  (∀ (s : State) (e t : Nat) (v : MemView) (i : Item), e < 32 → s.dev.runningType e 7 = some i → i.done < i.len → s.dev.dueRecord i.id = none →
    exec (.capture e v t) s = .next (s.after (Dev.toTime · t))) ∧
  (∀ (s : State) (e t : Nat) (v v1 : MemView) (i : Item) (c : Nat × Nat × Nat) (d1 : Dev), e < 32 → s.dev.runningType e 7 = some i → i.done < i.len → s.dev.dueRecord i.id = some c →
    (s.dev.toTime t).itemWrite i (i.dst + i.done) (leBytes c.2.2 128) v = (.ok [], v1, d1) →
    exec (.capture e v t) s = .next (s.after fun _ =>
      let d2 := (({ d1 with eng := { d1.eng with captures := d1.eng.captures.erase c } } : Dev).count (0x50 + i.engine) 2 128).setItem i.id fun x => x.advance 128
      if i.len ≤ i.done + 128 then d2.endItem i.id 0 else d2)) ∧
  (∀ (d : Dev) (x : Nat), d.dueRecord x = d.eng.captures.find? fun c => decide (c.1 = x ∧ c.2.1 < d.rd R.TAKE.TAKE_NUMBER)) ∧
  (∀ (s : State) (e n t : Nat) (v : MemView) (i : Item), e < 32 → s.dev.runningType e 3 = some i → s.dev.item i.id = some i → i.len ≤ i.back →
    exec (.loadFrames e n v t) s = .next (s.after fun d => (d.toTime t).endItem i.id 0)) ∧
  (∀ (s : State) (e t : Nat) (v v1 : MemView) (i : Item) (bs : Bytes) (r : UnitResult) (d1 d2 : Dev), e < 32 → s.dev.runningType e 3 = some i → s.dev.item i.id = some i → i.back < i.len → bs ≠ [] →
    (s.dev.toTime t).fetchUnit i v = (.ok bs, v1, d1) → d1.takeUnit bs v1 = (r, d2) → d2.item i.id = some i →
    exec (.loadFrames e 1 v t) s = .next (s.after fun _ =>
      match r with
      | .refused code => d2.stopItem i.id 0x1B code
      | .running => d2.stopItem i.id 0x15 0
      | .wait => d2.emit .wait
      | .taken =>
        let d3 := (d2.count (0x50 + i.engine) 1 bs.length).setItem i.id fun x =>
          { x with back := x.back + bs.length, done := x.done + if d1.isFrame bs then d2.rd R.LOAD.FRAMES_WRITTEN - d1.rd R.LOAD.FRAMES_WRITTEN else 0 }
        if i.len ≤ i.back + bs.length then d3.endItem i.id 0 else d3)) ∧
  (∀ (s : State) (e t : Nat) (v v1 : MemView) (i : Item) (d1 : Dev), e < 32 → s.dev.runningType e 3 = some i → s.dev.item i.id = some i → i.back < i.len →
    (s.dev.toTime t).fetchUnit i v = (.ok [], v1, d1) → exec (.loadFrames e 1 v t) s = .next (s.after fun _ => (d1.wr R.LOAD.LOAD_STATUS_UNIT_SPLIT 1).stopItem i.id 0x1B 0x45)) ∧
  (∀ (s : State) (e t a b : Nat) (v v1 : MemView) (i : Item) (d1 : Dev), e < 32 → s.dev.runningType e 3 = some i → s.dev.item i.id = some i → i.back < i.len →
    (s.dev.toTime t).fetchUnit i v = (.stop a b, v1, d1) → exec (.loadFrames e 1 v t) s = .next (s.after fun _ => d1.stopItem i.id a b))

/-- spec/15 R386 to R394: NOC_PACKET_ARRIVAL, RSP_TIMEOUT, CHECK_MODE_WRITE and ROUTER_DRAINED. That the oldest place in the order of grants is taken where two overdue packets meet, and where the round robin starts, are choices of the model (assumption log). -/
def Obligations.NocPackets : Prop :=
  (∀ (s : State) (node input h err t : Nat), s.dev.nodeExists node = false → exec (.nocPacketArrival node input h err t) s = .fault .noSuchUnit) ∧
  (∀ (s : State) (node input h err t : Nat), s.dev.nodeExists node = true → (s.dev.toTime t).mustWait node (input % 8) h = true →
    exec (.nocPacketArrival node input h err t) s = .next (s.after fun d => (d.toTime t).emit .wait)) ∧
  (∀ (d : Dev) (node input h : Nat), d.mustWait node input h = true ↔ d.net.drainLeft.head? = some node ∨
    8 ≤ ((d.net.queued.filter fun p => decide (p.node = node ∧ p.input = input ∧ fieldAt p.header 20 2 = fieldAt h 20 2)).map (·.flits)).sum ∨ d.sourceOf node input h = .waits) ∧
  (∀ (s : State) (node input h t : Nat), s.dev.nodeExists node = true → (s.dev.toTime t).mustWait node (input % 8) h = false →
    exec (.nocPacketArrival node input h 2 t) s = .next (s.after fun d =>
      (((d.toTime t).dropPacket ((d.toTime t).sourceOf node (input % 8) h)).unitFault 0xA0 4 0x103 (node + input % 8 * 2 ^ 8)).count 0xB1 2 1)) ∧
  (∀ (s : State) (node input h err t : Nat) (src : Source) (d1 : Dev), s.dev.nodeExists node = true → (s.dev.toTime t).mustWait node (input % 8) h = false → err ≠ 2 → (s.dev.endpointDomain (fieldAt h 0 10) = none ∨ 8 ≤ fieldAt h 22 4) →
    src = (s.dev.toTime t).sourceOf node (input % 8) h → d1 = (s.dev.toTime t).when ((err == 1 || src.err) && s.dev.corrects node) Dev.correctFlit →
    exec (.nocPacketArrival node input h err t) s = .next (s.after fun _ =>
      let d2 := ((d1.dropPacket src).bump R.NOC.DECODE_COUNT).count 0xB1 4 1
      if fieldAt h 20 2 = 0 ∧ bitAt h 30 = 0 then d2.emit (.flit node node (errRsp h 2)) else d2)) ∧
  (∀ (s : State) (node input h err t i : Nat) (src : Source) (d1 : Dev), s.dev.nodeExists node = true → (s.dev.toTime t).mustWait node (input % 8) h = false → err ≠ 2 → s.dev.endpointDomain (fieldAt h 0 10) = some i → fieldAt h 22 4 < 8 →
    src = (s.dev.toTime t).sourceOf node (input % 8) h → d1 = (s.dev.toTime t).when ((err == 1 || src.err) && s.dev.corrects node) Dev.correctFlit →
    exec (.nocPacketArrival node input h err t) s = .next (s.after fun _ => d1.enqueue node (input % 8) h ((err == 1 || src.err) && !s.dev.corrects node) src)) ∧
  (∀ (d : Dev) (node input h : Nat) (err : Bool) (p : Queued), d.enqueue node input h err (.router p) =
    ({ (d.grantOut p).emit (.flit p.node node h) with net := { (d.grantOut p).net with
      queued := (d.grantOut p).net.queued ++ [⟨node, input, p.id, h, 1, fieldAt h 26 3, d.mono, false, err⟩] } } : Dev).settled) ∧
  (∀ (d : Dev) (node out : Nat) (ready : Queued → Bool) (p : Queued), d.grant node out ready = some p →
    (∀ q, q ∈ d.net.queued → q.node = node → q.output = out → q.gone = false) ∧ p ∈ d.net.queued ∧ p.node = node ∧ p.output = out ∧ d.atHead p = true ∧ ready p = true ∧
      ∀ q, q ∈ d.net.queued → q.node = node → q.output = out → 0 < q.flits → d.atHead q = true → ready q = true →
        (d.overdue q = true → d.overdue p = true) ∧ (d.overdue q = d.overdue p → d.grantRank p ≤ d.grantRank q)) ∧
  (∀ (s : State) (node input h err t i : Nat) (d1 : Dev), s.dev.nodeExists node = true → err < 2 → s.dev.endpointDomain (fieldAt h 0 10) = some i → fieldAt h 22 4 < 8 → fieldAt h 26 3 = 0 →
    s.dev.net.drainLeft.head? ≠ some node → s.dev.net.queued = [] → fieldAt h 0 10 / 4 ≠ node →
    d1 = (s.dev.toTime t).when (err == 1 && s.dev.corrects node) Dev.correctFlit →
    exec (.nocPacketArrival node input h err t) s = .next (s.after fun _ =>
      { d1 with net := { d1.net with nextPacket := s.dev.net.nextPacket + 1, queued := [⟨node, input % 8, s.dev.net.nextPacket, h, 1, 0, d1.mono, false, err == 1 && !s.dev.corrects node⟩] } })) ∧
  (∀ (s : State) (node input h err t i : Nat) (d1 : Dev), s.dev.nodeExists node = true → err < 2 → s.dev.endpointDomain (fieldAt h 0 10) = some i → fieldAt h 22 4 < 8 → fieldAt h 26 3 = 0 →
    s.dev.net.drainLeft.head? ≠ some node → s.dev.net.queued = [] → fieldAt h 0 10 / 4 = node → s.dev.gateFull i (fieldAt h 20 2) = false →
    d1 = (s.dev.toTime t).when (err == 1 && s.dev.corrects node) Dev.correctFlit →
    exec (.nocPacketArrival node input h err t) s = .next (s.after fun _ =>
      let d2 := ({ d1 with net := { d1.net with
          nextPacket := s.dev.net.nextPacket + 1
          granted := SMap.set s.dev.net.granted (grantKey node (fieldAt h 0 10 % 4) (fieldAt h 20 2)) (input % 8 + 1) } } : Dev).count 0xB1 0 1
      let d3 := d2.when (err == 1 && !s.dev.corrects node) Dev.correctFlit
      match d3.gateway i (fieldAt h 10 10) (fieldAt h 22 4) (isSet h 29) with
      | (.pass, d4) => d4.emit (.flit node node h)
      | (.held, d4) => { d4 with net := { d4.net with gated := d4.net.gated ++ [(i, node, h)] } }
      | (.refused, d4) => if fieldAt h 20 2 = 0 ∧ bitAt h 30 = 0 then d4.emit (.flit node node (errRsp h 1)) else d4)) ∧
  (∀ (h status : Nat), status < 2 ^ 8 → fieldAt (errRsp h status) 0 10 = fieldAt h 10 10 ∧ fieldAt (errRsp h status) 10 10 = fieldAt h 0 10 ∧ fieldAt (errRsp h status) 20 2 = 1 ∧
    fieldAt (errRsp h status) 22 4 = 6 ∧ fieldAt (errRsp h status) 32 16 = fieldAt h 32 16 ∧ fieldAt (errRsp h status) 48 8 = status) ∧
  (∀ (x y tx ty p : Nat), x < 16 → y < 16 → tx < 16 → p < 4 →
    nextHop (y * 16 + x) (ty * 64 + tx * 4 + p) =
      if x < tx then y * 16 + (x + 1) else if tx < x then y * 16 + (x - 1) else if y < ty then (y + 1) * 16 + x else if ty < y then (y - 1) * 16 + x else y * 16 + x) ∧
  (∀ (s : State) (id t : Nat) (q : FarReq), SMap.look s.dev.arr.farReq id = some q →
    exec (.rspTimeout 0 id t) s = .next (s.after fun d => if q.answered then d.toTime t else (((d.toTime t).dropRequest id).farTranslation (id / 2 ^ 32) q).rewait)) ∧
  (∀ (s : State) (id t : Nat), SMap.look s.dev.arr.farReq id = none → exec (.rspTimeout 0 id t) s = .next (s.after (Dev.toTime · t))) ∧
  (∀ (s : State) (k e t : Nat) (i : Item), s.dev.runningOn e = some i → exec (.rspTimeout (k + 1) e t) s = .next (s.after fun d => (d.toTime t).stopItem i.id 0x1C 0)) ∧
  (∀ (s : State) (k e t : Nat), s.dev.runningOn e = none → exec (.rspTimeout (k + 1) e t) s = .next (s.after (Dev.toTime · t))) ∧
  (∀ (s : State) (w t : Nat), s.dev.reaches 0x103 = true → s.dev.on R.NOC.NOC_STATUS_RECONFIG = true →
    exec (.checkModeWrite w t) s = .next (s.after fun d => (d.atWrite t).wr R.NOC.NOC_STATUS_WRITE_REFUSED 1)) ∧
  (∀ (s : State) (w t : Nat), s.dev.reaches 0x103 = true → s.dev.on R.NOC.NOC_STATUS_RECONFIG = false → w % 2 = s.dev.rd R.NOC.NOC_CTRL_CHECK_MODE →
    exec (.checkModeWrite w t) s = .next (s.after (Dev.atWrite · t))) ∧
  (∀ (s : State) (w t : Nat), s.dev.reaches 0x103 = true → s.dev.on R.NOC.NOC_STATUS_RECONFIG = false → w % 2 ≠ s.dev.rd R.NOC.NOC_CTRL_CHECK_MODE →
    s.dev.net.drainLeft = [] →
    exec (.checkModeWrite w t) s = .next (s.after fun d =>
      let d1 := (d.atWrite t).wr R.NOC.NOC_CTRL_CHECK_MODE (w % 2)
      (({ d1 with net := { d1.net with drainLeft := (List.range 256).filter d.nodeExists, newMode := w % 2 } } : Dev).wr R.NOC.NOC_STATUS_RECONFIG 1).wr R.NOC.NOC_STATUS_DRAIN_NODE 0)) ∧
  (∀ (s : State) (t n : Nat) (rest : List Nat), s.dev.net.drainLeft = n :: rest → (∃ p, p ∈ s.dev.net.queued ∧ p.node = n) → exec (.routerDrained t) s = .next (s.after (Dev.toTime · t))) ∧
  (∀ (s : State) (t : Nat), s.dev.net.drainLeft = [] → exec (.routerDrained t) s = .next s) ∧
  (∀ (s : State) (t n m : Nat) (rest : List Nat), s.dev.net.drainLeft = n :: m :: rest → (∀ p ∈ s.dev.net.queued, p.node ≠ n) →
    exec (.routerDrained t) s = .next (s.after fun d =>
      (({ d.toTime t with net := { d.net with drainLeft := m :: rest, mode := SMap.set d.net.mode n d.net.newMode } } : Dev).count 0xB1 5 1).wr R.NOC.NOC_STATUS_DRAIN_NODE m)) ∧
  (∀ (s : State) (t n : Nat), s.dev.net.drainLeft = [n] → (∀ p ∈ s.dev.net.queued, p.node ≠ n) →
    exec (.routerDrained t) s = .next (s.after fun d =>
      (((({ d.toTime t with net := { d.net with drainLeft := [], mode := SMap.set d.net.mode n d.net.newMode } } : Dev).count 0xB1 5 1).wr R.NOC.NOC_STATUS_RECONFIG 0).wr
        R.NOC.NOC_STATUS_DRAIN_NODE 0).event 0x701))

/-- spec/15 R395 to R400: DOM_CTRL_WRITE, POINT_OF_NO_RETURN, DOMAIN_OFF and DOMAIN_ON. That the lowest of several reasons to refuse is shown is a choice of the model (assumption log). -/
def Obligations.PowerDomains : Prop :=
  (∀ (s : State) (i w t : Nat) (e : Dev), i < 113 → s.dev.domainExists i = true → s.dev.reaches 0xC = true → e = ((s.dev.atWrite t).wrAt R.POWER.DOM_CTRL_WAKE_EN 0 i (w / 2)).setDomReq i w →
    s.dev.domState i = 0 → exec (.domCtrlWrite i w t) s = .next (s.after fun _ =>
      if w % 2 = 1 ∧ s.dev.emptyChannel i = false then (e.wrAt R.POWER.DOM_STATUS_STATE 0 i 1).wrAt R.POWER.DOM_STATUS_PENDING 0 i 0 else e)) ∧
  (∀ (d : Dev) (i : Nat), d.emptyChannel i = true ↔ 0x48 ≤ i ∧ i < 0x50 ∧ bitAt d.part.dimmMask (i - 0x48) = 0) ∧
  (∀ (s : State) (i w t : Nat) (e : Dev), i < 113 → s.dev.domainExists i = true → s.dev.reaches 0xC = true → e = ((s.dev.atWrite t).wrAt R.POWER.DOM_CTRL_WAKE_EN 0 i (w / 2)).setDomReq i w →
    s.dev.domState i = 1 → exec (.domCtrlWrite i w t) s = .next (s.after fun _ => e.wrAt R.POWER.DOM_STATUS_PENDING 0 i (if w % 2 = 1 then 0 else 2))) ∧
  (∀ (s : State) (i w t : Nat) (e : Dev), i < 113 → s.dev.domainExists i = true → s.dev.reaches 0xC = true → e = ((s.dev.atWrite t).wrAt R.POWER.DOM_CTRL_WAKE_EN 0 i (w / 2)).setDomReq i w →
    s.dev.domState i = 3 → exec (.domCtrlWrite i w t) s = .next (s.after fun _ => e.wrAt R.POWER.DOM_STATUS_PENDING 0 i (if w % 2 = 1 then 1 else 0))) ∧
  (∀ (s : State) (i w t : Nat) (e : Dev), i < 113 → s.dev.domainExists i = true → s.dev.reaches 0xC = true → e = ((s.dev.atWrite t).wrAt R.POWER.DOM_CTRL_WAKE_EN 0 i (w / 2)).setDomReq i w →
    s.dev.domState i = 2 → w % 2 = 1 → exec (.domCtrlWrite i w t) s = .next (s.after fun _ => e)) ∧
  (∀ (s : State) (i w t : Nat) (e : Dev), i < 113 → s.dev.domainExists i = true → s.dev.reaches 0xC = true → e = ((s.dev.atWrite t).wrAt R.POWER.DOM_CTRL_WAKE_EN 0 i (w / 2)).setDomReq i w →
    s.dev.domState i = 2 → w % 2 = 0 → s.dev.downRefused i ≠ 0 →
    exec (.domCtrlWrite i w t) s = .next (s.after fun _ => (e.wrAt R.POWER.DOM_STATUS_REFUSED 0 i 1).wrAt R.POWER.DOM_STATUS_REFUSE_REASON 0 i (s.dev.downRefused i))) ∧
  (∀ (s : State) (i w t : Nat), i < 113 → s.dev.domainExists i = true → s.dev.reaches 0xC = true → s.dev.domState i = 2 → w % 2 = 0 → s.dev.downRefused i = 0 →
    exec (.domCtrlWrite i w t) s = .next (s.after fun d =>
      let d1 := ((d.atWrite t).wrAt R.POWER.DOM_CTRL_WAKE_EN 0 i (w / 2)).setDomReq i w
      ({ d1 with net := { d1.net with offAt := SMap.set d1.net.offAt i (d1.mono + 1), ponr := SMap.set d1.net.ponr i 0 } } : Dev).wrAt R.POWER.DOM_STATUS_STATE 0 i 3)) ∧
  (∀ (d : Dev) (i : Nat), (d.domBusy i = true → d.downRefused i = 1) ∧ (d.domBusy i = false → i < 64 → d.rdAt R.CHECK.BUDGET 0 i ≠ 0 → d.running = true → d.downRefused i = 2) ∧
    (i = 0x58 → 1 ≤ d.rd R.EDGE.EDGE_STATUS_RELEASE_STAGE → d.downRefused i = 3) ∧ (i = 0x40 ∨ 0x5A ≤ i → d.downRefused i = 4)) ∧
  (∀ (s : State) (i w t : Nat), i < 113 → s.dev.domainExists i = false → s.dev.reaches 0xC = true → exec (.domCtrlWrite i w t) s = .next (s.after (Dev.atWrite · t))) ∧
  (∀ (s : State) (i w t : Nat), 113 ≤ i → exec (.domCtrlWrite i w t) s = .fault .noSuchUnit) ∧
  (∀ (s : State) (i t : Nat), s.dev.domainExists i = false → exec (.pointOfNoReturn i t) s = .fault .noSuchUnit ∧ exec (.domainOff i t) s = .fault .noSuchUnit ∧ exec (.domainOn i t) s = .fault .noSuchUnit) ∧
  (∀ (s : State) (i t : Nat), s.dev.domainExists i = true →
    exec (.pointOfNoReturn i t) s = .next (if s.dev.domState i = 3 ∧ SMap.get s.dev.net.ponr i = 0 ∧ SMap.get s.dev.net.offAt i + 2 * usec ≤ (s.dev.toTime t).mono + 1 then
      s.after fun d => { d.toTime t with net := { d.net with ponr := SMap.set d.net.ponr i 1 } } else s)) ∧
  (∀ (s : State) (i t : Nat), s.dev.domainExists i = true → (s.dev.domState i ≠ 3 ∨ SMap.get s.dev.net.ponr i ≠ 1) → exec (.domainOff i t) s = .next s) ∧
  (∀ (s : State) (i t : Nat), s.dev.domainExists i = true → s.dev.domState i = 3 → SMap.get s.dev.net.ponr i = 1 → (∀ h, h ∈ s.dev.net.held → h.dom ≠ i) → (∀ g, g ∈ s.dev.net.gated → g.1 ≠ i) →
    s.dev.net.queued = [] → s.dev.rdAt R.POWER.DOM_STATUS_PENDING 0 i ≠ 1 →
    exec (.domainOff i t) s = .next (s.after fun d =>
      (((({ d.toTime t with net := { d.net with ponr := SMap.set d.net.ponr i 0, offAt := SMap.set d.net.offAt i 0 } } : Dev).wrAt R.POWER.DOM_STATUS_STATE 0 i 0).domainLoses i).event 0x710).wrAt
        R.POWER.DOM_STATUS_HELD 0 i 0)) ∧
  (∀ (d : Dev) (g k : Nat), g < 64 → (d.domainLoses g).arr.cols = d.arr.cols ∧ (d.domainLoses g).arr.banks = d.arr.banks ∧
    SMap.get (d.domainLoses g).arr.stateRows k = (if g * 0x40000 ≤ k ∧ k < (g + 1) * 0x40000 then 0 else SMap.get d.arr.stateRows k) ∧
    SMap.get (d.domainLoses g).arr.stepRows k = (if g * 0x100000 ≤ k ∧ k < (g + 1) * 0x100000 then 0 else SMap.get d.arr.stepRows k)) ∧
  (∀ (d : Dev) (c : Nat), c < 8 → d.rdAt R.DDRCH.CH_STATUS_STATE c 0 = 3 → (d.domainLoses (0x48 + c)).rdAt R.DDRCH.CH_STATUS_STATE c 0 = 6 ∧ (d.domainLoses (0x48 + c)).ddr.mem = d.ddr.mem) ∧
  (∀ (s : State) (i t : Nat), s.dev.domainExists i = true → s.dev.domState i ≠ 1 → exec (.domainOn i t) s = .next { s with dev := s.dev.toTime t, envelope := if s.dev.mg.inReset then default else s.envelope }) ∧
  (∀ (s : State) (i t : Nat) (d1 : Dev), s.dev.domainExists i = true → s.dev.domState i = 1 → s.dev.mg.inReset = false → s.dev.on R.POWER.PWR_STATUS_TRANSITION = false →
    s.dev.rdAt R.POWER.DOM_STATUS_PENDING 0 i ≠ 2 → (∀ h, h ∈ s.dev.net.held → h.dom ≠ i) → (∀ g, g ∈ s.dev.net.gated → g.1 ≠ i) → s.dev.net.queued = [] → 64 ≤ i →
    (i < 0x48 ∨ 0x50 ≤ i) → (i < 0x60 ∨ 0x68 ≤ i) →
    d1 = (s.dev.toTime t).wrAt R.POWER.DOM_STATUS_STATE 0 i 2 →
    exec (.domainOn i t) s = .next (s.after fun _ => ({ d1 with net := { d1.net with back := d1.net.back.filter fun j => decide (j ≠ i) } } : Dev).wrAt R.POWER.DOM_STATUS_HELD 0 i 0)) ∧
  (∀ (s : State) (i t : Nat), s.dev.domainExists i = true → s.dev.domState i = 1 →
    exec (.domainOn i t) s = .next { s with
      dev := (let d1 := ((s.dev.toTime t).domainUp i).wrAt R.POWER.DOM_STATUS_HELD 0 i 0
        (forAll (d1.net.held.filter fun h => decide (h.dom = i)) (fun h x => x.deliverHeld h s.envelope t) d1).exitDone)
      envelope := (let d1 := ((s.dev.toTime t).domainUp i).wrAt R.POWER.DOM_STATUS_HELD 0 i 0
        if ((forAll (d1.net.held.filter fun h => decide (h.dom = i)) (fun h x => x.deliverHeld h s.envelope t) d1).exitDone).mg.inReset then default else s.envelope) }) ∧
  (∀ (d : Dev) (g a : Nat), g < 64 → isSet (d.route (0x080 + g)) 14 = false → d.net.queued = [] → d.net.gated = [] → SMap.get (d.domainUp g).arr.banks a = if g * 64 * 0x10000 ≤ a ∧ a < (g + 1) * 64 * 0x10000 then 0 else SMap.get d.arr.banks a) ∧
  (∀ (d : Dev) (i src op : Nat) (wake : Bool), d.domState i = 2 → d.gateway i src op wake = (.pass, d)) ∧
  (∀ (d : Dev) (i src op : Nat) (wake : Bool), d.domState i = 1 → d.gateway i src op wake = (.held, d.wrAt R.POWER.DOM_STATUS_HELD 0 i 1)) ∧
  (∀ (d : Dev) (i src op : Nat) (wake : Bool), d.domState i = 3 → SMap.get d.net.ponr i = 1 → d.gateway i src op wake = (.held, d.wrAt R.POWER.DOM_STATUS_HELD 0 i 1)) ∧
  (∀ (d : Dev) (i src op : Nat) (wake : Bool), d.domState i = 3 → SMap.get d.net.ponr i ≠ 1 →
    d.gateway i src op wake = (.pass, ((((((d.wrAt R.POWER.DOM_STATUS_STATE 0 i 2).wrAt R.POWER.DOM_STATUS_PENDING 0 i 0).setDomReq i 1).wrAt R.POWER.DOM_STATUS_DOWN_ABORTED 0 i 1).event 0x711).count 0xB1 7 1))) ∧
  (∀ (d : Dev) (i src op : Nat) (wake : Bool), d.domState i = 0 → (wake = true ∨ d.rdAt R.POWER.DOM_CTRL_WAKE_EN 0 i = 1) → d.emptyChannel i = false →
    d.gateway i src op wake = (.held, ((((((d.wrAt R.POWER.DOM_STATUS_STATE 0 i 1).wrAt R.POWER.DOM_STATUS_PENDING 0 i 0).setDomReq i 1).wrAt R.POWER.DOM_STATUS_WOKEN 0 i 1).wrAt
      R.POWER.DOM_STATUS_HELD 0 i 1).count 0xB1 6 1))) ∧
  (∀ (d : Dev) (i src op : Nat) (wake : Bool), d.domState i = 0 → (wake = false ∧ d.rdAt R.POWER.DOM_CTRL_WAKE_EN 0 i ≠ 1 ∨ d.emptyChannel i = true) → (d.gateway i src op wake).1 = .refused ∧
    (SMap.get d.net.offRec i ≠ 0 → d.mono + 1 < SMap.get d.net.offRec i + 1000 * usec → (d.gateway i src op wake).2 = (d.bump R.NOC.DOMAIN_OFF_COUNT).count 0xB1 3 1))

/-- spec/15 R401 to R407: TARGET_WRITE, BIVOUAC_ENTRY, PCIE_D_STATE_CHANGE and LIMITER_SAMPLE. -/
def Obligations.PowerStates : Prop :=
  (∀ (s : State) (w t : Nat), s.dev.reaches 0xC = true → w % 4 = 3 → exec (.targetWrite w t) s = .next (s.after fun d => (d.atWrite t).wr R.POWER.PWR_STATUS_WRITE_REFUSED 1)) ∧
  (∀ (s : State) (w t : Nat), s.dev.reaches 0xC = true → w % 4 ≠ 3 → s.dev.on R.POWER.PWR_STATUS_TRANSITION = false → w % 4 = s.dev.powerState →
    exec (.targetWrite w t) s = .next (s.after fun d => (d.atWrite t).wr R.POWER.PWR_CTRL_TARGET (w % 4))) ∧
  (∀ (s : State) (w t : Nat), s.dev.reaches 0xC = true → w % 4 ≠ 3 → s.dev.on R.POWER.PWR_STATUS_TRANSITION = true →
    (w % 4 ≠ 0 ∨ s.dev.bivouacked = true ∨ s.dev.net.entryStep = 3) →
    exec (.targetWrite w t) s = .next (s.after fun d => (d.atWrite t).wr R.POWER.PWR_CTRL_TARGET (w % 4))) ∧
  (∀ (s : State) (w t : Nat), s.dev.reaches 0xC = true → w % 4 = 0 → s.dev.on R.POWER.PWR_STATUS_TRANSITION = true → s.dev.bivouacked = false → s.dev.net.entryStep ≠ 3 →
    exec (.targetWrite w t) s = .next (s.after fun d =>
      let d1 := (((d.atWrite t).wr R.POWER.PWR_CTRL_TARGET 0).wr R.POWER.PWR_STATUS_TRANSITION 0).wr R.POWER.PWR_STATUS_WAIT_PEER 0
      let d2 := { d1 with net := { d1.net with entryStep := 0 } }
      if d.powerState = 0 then d2 else d2.leaveLight)) ∧
  (∀ (d : Dev), d.leaveLight = ((((d.traceWake.pinsSleep false).wr R.POWER.PWR_STATUS_STATE 0).wr R.POWER.PWR_STATUS_EMULATED 0).wr R.POWER.PWR_STATUS_TRANSITION 0).event 0x720) ∧
  (∀ (s : State) (w t v : Nat) (d1 : Dev), s.dev.reaches 0xC = true → w % 4 ≠ 3 → w % 4 ≠ 0 → s.dev.on R.POWER.PWR_STATUS_TRANSITION = false → s.dev.bivouacked = false → w % 4 ≠ s.dev.powerState → s.dev.running = true → v = w % 4 →
    d1 = ({ (s.dev.atWrite t).wr R.POWER.PWR_CTRL_TARGET v with net := { s.dev.net with attachNow := s.dev.on R.DBG.DBG_STATUS_ATTACHED } } : Dev).wr R.POWER.PWR_STATUS_TRANSITION 1 →
    exec (.targetWrite w t) s = .next (s.after fun _ => ((d1.wr R.POWER.PWR_STATUS_HALTED_FOR_POWER 1).requestHalt 4 d1.position).powerDue)) ∧
  (∀ (s : State) (w t : Nat) (d1 : Dev), s.dev.reaches 0xC = true → w % 4 = 1 → s.dev.powerState = 0 → s.dev.running = false → s.dev.net.back = [] → s.dev.net.entryStep ≠ 3 → s.dev.on R.POWER.PWR_STATUS_TRANSITION = false →
    d1 = ({ (s.dev.atWrite t).wr R.POWER.PWR_CTRL_TARGET 1 with net := { s.dev.net with attachNow := s.dev.on R.DBG.DBG_STATUS_ATTACHED } } : Dev).wr R.POWER.PWR_STATUS_TRANSITION 1 →
    exec (.targetWrite w t) s = .next (s.after fun d => ((d1.traceSleep 1 (d.on R.DBG.DBG_STATUS_ATTACHED)).pinsSleep true).powerEntered 1 (d.on R.DBG.DBG_STATUS_ATTACHED))) ∧
  (∀ (s : State) (w t : Nat), s.dev.reaches 0xC = true → w % 4 = 0 → s.dev.powerState = 1 → s.dev.on R.POWER.PWR_STATUS_TRANSITION = false →
    exec (.targetWrite w t) s = .next (s.after fun d =>
      ((((((d.atWrite t).wr R.POWER.PWR_CTRL_TARGET 0).traceWake.pinsSleep false).wr R.POWER.PWR_STATUS_STATE 0).wr R.POWER.PWR_STATUS_EMULATED 0).wr R.POWER.PWR_STATUS_TRANSITION 0).event 0x720)) ∧
  (∀ (s : State) (w t : Nat), s.dev.reaches 0xC = true → (w % 4 = 0 ∨ w % 4 = 1) → s.dev.bivouacked = true → s.dev.on R.POWER.PWR_STATUS_TRANSITION = false →
    exec (.targetWrite w t) s = .next (s.after fun d => ((d.atWrite t).wr R.POWER.PWR_CTRL_TARGET (w % 4)).leaveBivouac)) ∧
  (∀ (d : Dev) (s : Nat) (emulated : Bool), s < 4 → ∃ d1 : Dev, d.powerEntered s emulated = d1.event 0x720 ∧ d1.rd R.POWER.PWR_STATUS_STATE = s ∧ d1.rd R.POWER.PWR_STATUS_TRANSITION = 0 ∧
    d1.rd R.POWER.PWR_STATUS_WAIT_PEER = 0 ∧ d1.rd R.POWER.PWR_STATUS_EMULATED = bit emulated) ∧
  (∀ (s : State) (v : Nat), (s.dev.mg.inReset = true ∨ s.dev.mg.bootFailed = true) → exec (.pcieDStateChange v) s = .next s) ∧
  (∀ (s : State) (v : Nat), s.dev.mg.inReset = false → s.dev.mg.bootFailed = false → v ≠ 0 → v ≠ 3 → exec (.pcieDStateChange v) s = .next s) ∧
  (∀ (s : State) (v : Nat), s.dev.mg.inReset = false → s.dev.mg.bootFailed = false → (v = 0 ∨ v = 3) →
    exec (.pcieDStateChange v) s = .next (s.after fun d => ({ d with host := { d.host with dstate := v } } : Dev).setTarget (if v = 3 then 2 else 0))) ∧
  (∀ (s : State) (t : Nat), s.dev.on R.POWER.PWR_STATUS_TRANSITION = false → exec (.bivouacEntry t) s = .next (s.after (Dev.toTime · t))) ∧
  (∀ (s : State) (t : Nat), s.dev.on R.POWER.PWR_STATUS_TRANSITION = true → s.dev.rd R.POWER.PWR_CTRL_TARGET = 2 → s.dev.net.attachNow = false → s.dev.bivouacked = false →
    s.dev.running = true → s.dev.net.entryStep = 0 → exec (.bivouacEntry t) s = .next (s.after (Dev.toTime · t))) ∧
  (∀ (s : State) (t : Nat), s.dev.on R.POWER.PWR_STATUS_TRANSITION = true → s.dev.bivouacked = true → s.dev.net.attachNow = false → s.dev.rd R.POWER.PWR_CTRL_TARGET ≠ 1 →
    exec (.bivouacEntry t) s = .next (s.after (Dev.toTime · t))) ∧
  (∀ (s : State) (t : Nat) (d1 d2 d3 : Dev), s.dev.on R.POWER.PWR_STATUS_TRANSITION = true → s.dev.net.attachNow = false → s.dev.bivouacked = false →
    (s.dev.rd R.POWER.PWR_CTRL_TARGET = 2 ∨ s.dev.net.entryStep = 3) → s.dev.running = false →
    d1 = (if s.dev.net.entryStep = 0 then (s.dev.toTime t).stopTrace else s.dev.toTime t) →
    d2 = (if d1.net.entryStep = 1 ∧ d1.itemsRest = true ∧ d1.inflight = 0 then d1.askPeers else d1) →
    d3 = (if d2.net.entryStep = 2 then (if (List.range 8).any (fun p => d2.portState p == 6) = true then d2.wr R.POWER.PWR_STATUS_WAIT_PEER 1 else d2.drainDies) else d2) →
    exec (.bivouacEntry t) s = .next (s.after fun _ => if d3.net.entryStep = 3 ∧ d3.net.drainLeft = [] then d3.finishBivouac else d3)) ∧
  (∀ (d : Dev), d.itemsRest = true ↔ ∀ i, i ∈ d.eng.items → i.stand ≠ .running ∧
    (i.stand = .finished → 2 ^ d.rdAt R.ENGQ.Q_CTRL_SIZE_LOG2 i.queue 0 ≤ (2 ^ 32 + d.rdAt R.ENGQ.CQ_TAIL i.queue 0 - d.rdAt R.ENGQ.CQ_HEAD i.queue 0) % 2 ^ 32)) ∧
  (∀ (s : State) (power t : Nat) (x : List Nat), x = (power :: s.dev.net.samples).take (max 1 (s.dev.rd R.POWER.PL_WINDOW_US)) →
    s.dev.net.above + 1 < max 1 (s.dev.rd R.POWER.PL_WINDOW_US) ∨ s.dev.net.windowBelay = true ∨ x.sum ≤ s.dev.rd R.POWER.PL_LIMIT_W * 10 * x.length →
    exec (.limiterSample power t) s = .next (s.after fun d =>
      ({ d.toTime t with net := { d.net with
          samples := x, windowBelay := false
          above := if s.dev.rd R.POWER.PL_LIMIT_W * 10 * x.length < x.sum ∧ s.dev.net.windowBelay = false then d.net.above + 1 else 0 } } : Dev).wr R.POWER.POWER_NOW (x.sum / x.length))) ∧
  (∀ (s : State) (power t : Nat) (x : List Nat), x = (power :: s.dev.net.samples).take (max 1 (s.dev.rd R.POWER.PL_WINDOW_US)) →
    max 1 (s.dev.rd R.POWER.PL_WINDOW_US) ≤ s.dev.net.above + 1 → s.dev.net.windowBelay = false → s.dev.rd R.POWER.PL_LIMIT_W * 10 * x.length < x.sum →
    exec (.limiterSample power t) s = .next (s.after fun d =>
      ((({ d.toTime t with net := { d.net with samples := x, windowBelay := false, above := 0 } } : Dev).wr R.POWER.POWER_NOW (x.sum / x.length)).wr R.POWER.PWR_STATUS_LIMIT_UNMET 1).event 0x722))

/-- spec/16 R420, R422, R427, R430 to R433, R437 to R441: ATTACH, NEW_NONCE, UNLOCK, UNLOCK_ERASE_DONE, BAP_GO, BAP_DONE and WATCH_CTRL_WRITE. The value of a nonce is a free value; the order of the reasons is a choice of the model (assumption log). -/
def Obligations.DebugPort : Prop :=
  (∀ (s : State) (w t : Nat), s.dev.reaches 0x16 = true → bitAt w 1 = 0 → bitAt w 2 = 0 → s.dev.on R.DBG.DBG_STATUS_JTAG_ATTACHED = false → s.dev.on R.DBG.DBG_STATUS_ATTACHED = (w % 2 == 1) →
    exec (.attach w t) s = .next (s.after fun d => (d.atWrite t).wr R.DBG.DBG_CTRL_ATTACH w)) ∧
  (∀ (s : State) (w t : Nat), s.dev.reaches 0x16 = true → bitAt w 1 = 0 → bitAt w 2 = 0 → s.dev.on R.DBG.DBG_STATUS_JTAG_ATTACHED = true → s.dev.on R.DBG.DBG_STATUS_ATTACHED = true →
    exec (.attach w t) s = .next (s.after fun d => (d.atWrite t).wr R.DBG.DBG_CTRL_ATTACH w)) ∧
  (∀ (s : State) (w t : Nat), s.dev.reaches 0x16 = true → bitAt w 1 = 0 → bitAt w 2 = 0 → s.dev.on R.DBG.DBG_STATUS_JTAG_ATTACHED = false → s.dev.on R.DBG.DBG_STATUS_ATTACHED = (w % 2 == 0) →
    (w % 2 = 1 ∨ s.dev.on R.POWER.PWR_STATUS_EMULATED = false) →
    exec (.attach w t) s = .next (s.after fun d => (((d.atWrite t).wr R.DBG.DBG_CTRL_ATTACH w).wr R.DBG.DBG_STATUS_ATTACHED (w % 2)).event 0x7A5)) ∧
  (∀ (s : State) (w t : Nat) (d1 : Dev), s.dev.reaches 0x16 = true → bitAt w 0 = 0 → bitAt w 1 = 0 → bitAt w 2 = 0 → s.dev.on R.DBG.DBG_STATUS_JTAG_ATTACHED = false →
    s.dev.on R.DBG.DBG_STATUS_ATTACHED = true → s.dev.on R.POWER.PWR_STATUS_EMULATED = true →
    d1 = ((((s.dev.atWrite t).wr R.DBG.DBG_CTRL_ATTACH w).wr R.DBG.DBG_STATUS_ATTACHED 0).event 0x7A5) →
    exec (.attach w t) s = .next (s.after fun _ =>
      let d2 : Dev := { d1 with net := { d1.net with attachNow := false } }
      if s.dev.powerState = 1 then (d2.traceSleep 1 false).wr R.POWER.PWR_STATUS_EMULATED 0 else d2.wr R.POWER.PWR_STATUS_TRANSITION 1)) ∧
  (∀ (s : State) (w t : Nat), s.dev.reaches 0x16 = true → bitAt w 1 = 0 → s.dev.on R.DBG.DBG_STATUS_JTAG_ATTACHED = false → s.dev.on R.DBG.DBG_STATUS_ATTACHED = (w % 2 == 1) →
    exec (.newNonce w t) s = .next (s.after fun d => ((d.atWrite t).wr R.DBG.DBG_CTRL_ATTACH w).newNonce)) ∧
  (∀ (d : Dev), d.newNonce.rd R.DBG.NONCE = Config.freeValue d.freeCtr % 2 ^ 256 ∧ d.newNonce.freeCtr = d.freeCtr + 1) ∧
  (∀ (s : State) (w t : Nat) (d1 : Dev), s.dev.reaches 0x16 = true → bitAt w 2 = 0 → s.dev.on R.DBG.DBG_STATUS_JTAG_ATTACHED = false → s.dev.on R.DBG.DBG_STATUS_ATTACHED = (w % 2 == 1) →
    d1 = (s.dev.atWrite t).wr R.DBG.DBG_CTRL_ATTACH w →
    exec (.unlock w t) s = .next (s.after fun _ =>
      if d1.dbg.erasing then d1
      else
        match d1.unlockReason with
        | some r => (d1.refuseUnlock r).newNonce
        | none => d1.beginErase.newNonce)) ∧
  (∀ (d : Dev), d.running = true → d.unlockReason = some 1) ∧
  (∀ (d : Dev), d.running = false → 3 ≤ d.rd R.DBG.DBG_STATUS_UNLOCK_FAILS → d.unlockReason = some 4) ∧
  (∀ (d : Dev), d.running = false → d.rd R.DBG.DBG_STATUS_UNLOCK_FAILS < 3 → d.on R.LOAD.LOAD_STATUS_SECURE = false → d.unlockReason = some 5) ∧
  (∀ (d : Dev), d.running = false → d.rd R.DBG.DBG_STATUS_UNLOCK_FAILS < 3 → d.on R.LOAD.LOAD_STATUS_SECURE = true → d.rd R.DBG.TOKEN_KEY ≠ d.ld.sigKey → d.unlockReason = some 3) ∧
  (∀ (d : Dev), d.running = false → d.rd R.DBG.DBG_STATUS_UNLOCK_FAILS < 3 → d.on R.LOAD.LOAD_STATUS_SECURE = true → d.rd R.DBG.TOKEN_KEY = d.ld.sigKey →
    d.unlockReason = if Config.ecdsaVerify ((d.ld.reelKeys.drop (96 * d.ld.sigKey)).take 96)
      (Config.sha384 (leBytes (d.rd R.DBG.NONCE) 32 ++ leBytes d.part.serial 8 ++ leBytes (slateProduction d.ld.slate) 8)) (leBytes (d.rd R.DBG.TOKEN) 96) then none else some 2) ∧
  (∀ (d : Dev) (r : Nat), 1 ≤ r → r ≤ 5 → (d.refuseUnlock r).rd R.DBG.DBG_STATUS_UNLOCK_REASON = r ∧ (d.refuseUnlock r).rd R.DBG.DBG_STATUS_UNLOCK_REFUSED = 1 ∧
    (d.refuseUnlock r).rd R.DBG.DBG_STATUS_UNLOCK_FAILS = (if r = 2 ∨ r = 3 then (d.rd R.DBG.DBG_STATUS_UNLOCK_FAILS + 1) % 2 ^ R.DBG.DBG_STATUS_UNLOCK_FAILS.width else d.rd R.DBG.DBG_STATUS_UNLOCK_FAILS)) ∧
  (∀ (s : State) (t : Nat) (v : MemView), s.dev.dbg.erasing = false → exec (.unlockEraseDone v t) s = .next (s.after (Dev.toTime · t))) ∧
  (∀ (s : State) (t : Nat) (v : MemView) (d1 : Dev), s.dev.dbg.erasing = true →
    d1 = ((((((s.dev.toTime t).eraseDdr v).clearCheck).wr R.LOAD.LOAD_STATUS_STATE 0).wr R.LOAD.LOAD_STATUS_SECURE 0).wr R.DBG.SECURE_CTX_MASK 0).wr R.DBG.DBG_STATUS_SECURE_STATE 0 →
    exec (.unlockEraseDone v t) s = .next (s.after fun _ =>
      ((({ d1 with
          ld := { d1.ld with slate := [], fullSlate := [], fullDone := false, secureKey := none, staging := [], setSize := 0, members := 0 }
          dbg := { d1.dbg with erasing := false } } : Dev).event 0x7A4).refreshTrained))) ∧
  (∀ (s : State) (w t : Nat), s.dev.reaches 0x16 = true → s.dev.on R.DBG.BAP_STATUS_BUSY = true → exec (.bapGo w t) s = .next (s.after (Dev.atWrite · t))) ∧
  (∀ (s : State) (w t : Nat) (d1 d2 : Dev), s.dev.reaches 0x16 = true → s.dev.on R.DBG.BAP_STATUS_BUSY = false → d1 = (s.dev.atWrite t).bapCtrlFields w →
    d2 = ({ d1 with dbg := { d1.dbg with bap := if bitAt w 2 = 1 then .now else d1.bapWhen, onBank := if bitAt w 2 = 0 ∧ d1.bapBank = true then some (d1.bankAt d1.bapOff) else none } } : Dev).wr
      R.DBG.BAP_STATUS_BUSY 1 →
    exec (.bapGo w t) s = .next (s.after fun _ =>
      if s.dev.running = true ∧ bitAt w 2 = 0 ∧ bitAt w 3 = 0 ∧ s.dev.tk.pitches ≤ fieldAt w 5 5 ∧ fieldAt w 5 5 ≠ 0x1F then (d1.wr R.DBG.BAP_STATUS_RESULT 5).bapReport
      else if bitAt w 2 = 0 then (d2.offsetGate (d1.rd R.DBG.BAP_ADDR % 2 ^ 36) 0x14C (2 * bitAt w 1) true).2 else d2)) ∧
  (∀ (d : Dev), d.bapReport = ((({ d with dbg := { d.dbg with bap := .idle, onBank := none } } : Dev).wr R.DBG.BAP_STATUS_BUSY 0).event 0x7A3).idleHandovers) ∧
  (∀ (d : Dev) (w : Nat) (d1 : Dev), d1 = d.bapCtrlFields w → d1.rd R.DBG.BAP_CTRL_WRITE = bitAt w 1 ∧ d1.rd R.DBG.BAP_CTRL_SPACE = bitAt w 2 ∧ d1.rd R.DBG.BAP_CTRL_MODE = bitAt w 3 ∧
    d1.rd R.DBG.BAP_CTRL_RESPECT_LOCK = bitAt w 4 ∧ d1.rd R.DBG.BAP_CTRL_BELAY = fieldAt w 5 5 ∧ d1.rd R.DBG.BAP_CTRL_CTX = fieldAt w 10 6 ∧ d1.rd R.DBG.BAP_CTRL_LEN = fieldAt w 16 7) ∧
  (∀ (s : State) (t : Nat) (v : MemView), s.dev.dbg.bap = .idle → exec (.bapDone v t) s = .next (s.after (Dev.toTime · t))) ∧
  (∀ (s : State) (t : Nat) (v : MemView), (s.dev.dbg.bap = .now ∨ s.dev.dbg.bap = .service ∧ s.dev.running = false ∨ s.dev.dbg.bap = .steal ∧ s.dev.running = false) →
    (s.dev.dbg.bap = .now → s.dev.on R.DBG.BAP_CTRL_SPACE = false) → (s.dev.on R.DBG.BAP_CTRL_SPACE = true ∨ s.dev.bapPowered = true) →
    exec (.bapDone v t) s = .next (s.after fun d => (d.toTime t).bapEffect.bapReport)) ∧
  (∀ (s : State) (t : Nat) (v : MemView), (s.dev.dbg.bap = .service ∨ s.dev.dbg.bap = .steal ∧ s.dev.stealDue = false) → s.dev.running = true → (s.dev.on R.DBG.BAP_CTRL_SPACE = true ∨ s.dev.bapPowered = true) →
    exec (.bapDone v t) s = .next (s.after (Dev.toTime · t))) ∧
  (∀ (s : State) (t : Nat) (v : MemView) (d1 : Dev), s.dev.dbg.bap = .steal → s.dev.running = true → s.dev.tk.phase = .waiting → bitAt (s.dev.mapEntry s.dev.tk.belay) 17 = 1 →
    s.dev.tk.stolen < s.dev.rd R.TAKE.TAKE_CTRL_STEAL_LIMIT → s.dev.bapPowered = true → d1 = s.dev.toTime t →
    exec (.bapDone v t) s = .next (s.after fun _ => (((({ d1 with tk := { d1.tk with stolen := d1.tk.stolen + 1 } } : Dev).count 0xB2 4 1).bapEffect).cycle).bapReport)) ∧
  (∀ (s : State) (t : Nat) (v : MemView), s.dev.dbg.bap ≠ .idle → s.dev.dbg.bap ≠ .report → s.dev.on R.DBG.BAP_CTRL_SPACE = false → s.dev.bapPowered = false →
    exec (.bapDone v t) s = .next (s.after fun d => (d.toTime t).emit .wait)) ∧
  (∀ (s : State) (t g : Nat) (v : MemView), s.dev.dbg.bap = .bankIdle g → (s.dev.on R.DBG.BAP_CTRL_SPACE = true ∨ s.dev.bapPowered = true) → exec (.bapDone v t) s = .next (s.after fun d => if d.bankFree g then (d.toTime t).bapEffect.bapReport else d.toTime t)) ∧
  (∀ (s : State) (t : Nat) (v : MemView), s.dev.dbg.bap = .report → exec (.bapDone v t) s = .next (s.after fun d => (d.toTime t).bapReport)) ∧
  (∀ (s : State) (t r : Nat) (v : MemView), s.dev.dbg.bap = .now → s.dev.on R.DBG.BAP_CTRL_SPACE = true → s.dev.bapDvaCheck = r → r ≠ 0 →
    exec (.bapDone v t) s = .next (s.after fun d => (((if r = 1 then (d.toTime t).wr R.DBG.DBG_STATUS_LOCKED_ACCESS 1 else d.toTime t)).wr R.DBG.BAP_STATUS_RESULT r).bapReport)) ∧
  (∀ (s : State) (t a : Nat) (v v1 : MemView) (bs : Bytes) (d1 : Dev), s.dev.dbg.bap = .now → s.dev.on R.DBG.BAP_CTRL_SPACE = true → s.dev.bapDvaCheck = 0 → s.dev.on R.DBG.BAP_CTRL_WRITE = false →
    a = s.dev.rd R.DBG.BAP_ADDR → (s.dev.toTime t).dmaRead 1 (s.dev.rd R.DBG.BAP_CTRL_CTX) a s.dev.bapLen v = (.done bs, v1, d1) →
    exec (.bapDone v t) s = .next (s.after fun _ => ((d1.wr R.DBG.BAP_DATA (leNat bs)).wr R.DBG.BAP_STATUS_RESULT 0).bapReport)) ∧
  (∀ (s : State) (t a : Nat) (v v1 : MemView) (bs : Bytes) (d1 : Dev), s.dev.dbg.bap = .now → s.dev.on R.DBG.BAP_CTRL_SPACE = true → s.dev.bapDvaCheck = 0 → s.dev.on R.DBG.BAP_CTRL_WRITE = true →
    a = s.dev.rd R.DBG.BAP_ADDR → (s.dev.toTime t).dmaWrite (s.dev.rd R.DBG.BAP_CTRL_CTX) a (leBytes (s.dev.rd R.DBG.BAP_DATA) s.dev.bapLen) v = (.done bs, v1, d1) →
    exec (.bapDone v t) s = .next (s.after fun _ => (d1.wr R.DBG.BAP_STATUS_RESULT 0).bapReport)) ∧
  (∀ (s : State) (t x y : Nat) (v v1 : MemView) (r : Dma) (d1 : Dev), s.dev.dbg.bap = .now → s.dev.on R.DBG.BAP_CTRL_SPACE = true → s.dev.bapDvaCheck = 0 →
    (r = .xlate x y ∨ r = .fence x ∨ r = .poison x ∨ r = .hostError) →
    (if s.dev.on R.DBG.BAP_CTRL_WRITE then (s.dev.toTime t).dmaWrite (s.dev.rd R.DBG.BAP_CTRL_CTX) (s.dev.rd R.DBG.BAP_ADDR) (leBytes (s.dev.rd R.DBG.BAP_DATA) s.dev.bapLen) v
      else (s.dev.toTime t).dmaRead 1 (s.dev.rd R.DBG.BAP_CTRL_CTX) (s.dev.rd R.DBG.BAP_ADDR) s.dev.bapLen v) = (r, v1, d1) →
    exec (.bapDone v t) s = .next (s.after fun _ =>
      ((d1.reportDma (s.dev.rd R.DBG.BAP_CTRL_CTX) (bit (s.dev.on R.DBG.BAP_CTRL_WRITE)) 2 r).wr R.DBG.BAP_STATUS_RESULT 4).bapReport)) ∧
  (∀ (s : State) (t : Nat) (v v1 : MemView) (d1 : Dev), s.dev.dbg.bap = .now → s.dev.on R.DBG.BAP_CTRL_SPACE = true → s.dev.bapDvaCheck = 0 →
    (if s.dev.on R.DBG.BAP_CTRL_WRITE then (s.dev.toTime t).dmaWrite (s.dev.rd R.DBG.BAP_CTRL_CTX) (s.dev.rd R.DBG.BAP_ADDR) (leBytes (s.dev.rd R.DBG.BAP_DATA) s.dev.bapLen) v
      else (s.dev.toTime t).dmaRead 1 (s.dev.rd R.DBG.BAP_CTRL_CTX) (s.dev.rd R.DBG.BAP_ADDR) s.dev.bapLen v) = (.wait, v1, d1) →
    exec (.bapDone v t) s = .next (s.after fun _ => (d1.emit .wait).wakeDdr 0x14C true)) ∧
  (∀ (d : Dev), d.on R.LOAD.LOAD_STATUS_SECURE = true → d.bapCheck = 3 ∧ d.bapDvaCheck = 3) ∧
  (∀ (d : Dev) (i : Nat), d.on R.LOAD.LOAD_STATUS_SECURE = false → 1 ≤ d.bapLen → d.bapLen ≤ 64 → d.rd R.DBG.BAP_ADDR + d.bapLen ≤ 2 ^ 48 → d.on R.DBG.BAP_CTRL_RESPECT_LOCK = true → i < 16 →
    d.rdAt R.DBG.LOCK_PROBE_ENABLE 0 i = 1 → SMap.get d.dbg.lockLanes (d.rdAt R.DBG.LOCK_PROBE_LANE 0 i) % 2 = 1 → d.rdAt R.DBG.LOCK_PROBE_CTX 0 i = d.rd R.DBG.BAP_CTRL_CTX →
    d.rd R.DBG.BAP_ADDR < d.rdAt R.DBG.LOCK_LIMIT 0 i → d.rdAt R.DBG.LOCK_BASE 0 i < d.rd R.DBG.BAP_ADDR + d.bapLen → d.bapDvaCheck = 1) ∧
  (∀ (d : Dev), d.on R.LOAD.LOAD_STATUS_SECURE = false → (d.bapLen = 0 ∨ 64 < d.bapLen) → d.bapCheck = 5 ∧ d.bapDvaCheck = 5) ∧
  (∀ (d : Dev), d.on R.LOAD.LOAD_STATUS_SECURE = false → 1 ≤ d.bapLen → d.bapLen ≤ 64 → d.arrFits d.bapOff d.bapLen = true → d.rd R.DBG.BAP_ADDR / 2 ^ 36 = 2 ^ 27 → d.on R.DBG.BAP_CTRL_WRITE = true →
    d.region d.bapOff = .bank → (d.bankOwner (d.bankAt d.bapOff) = 1 ∨ d.bankOwner (d.bankAt d.bapOff) = 0 ∧ d.running = true ∧ d.on R.DBG.BAP_CTRL_MODE = false) → d.bapCheck = 2) ∧
  (∀ (d : Dev), d.on R.LOAD.LOAD_STATUS_SECURE = false → 1 ≤ d.bapLen → d.bapLen ≤ 64 → d.arrFits d.bapOff d.bapLen = true → d.rd R.DBG.BAP_ADDR / 2 ^ 36 = 2 ^ 27 →
    (d.on R.DBG.BAP_CTRL_WRITE = false → d.bapCheck = 0) ∧ (d.on R.DBG.BAP_CTRL_WRITE = true → d.region d.bapOff = .shadow → d.bapCheck = 5)) ∧
  (∀ (d : Dev), d.bapPowered = (d.offsetDomain d.bapOff).all fun i => d.domState i == 2) ∧
  (∀ (d : Dev) (r : Nat), d.bapCheck = r → r < 8 → d.bapEffect.rd R.DBG.BAP_STATUS_RESULT = r ∧ d.bapEffect.dbg.bap = .report ∧
    (r = 0 → d.on R.DBG.BAP_CTRL_WRITE = false → d.bapEffect.rd R.DBG.BAP_DATA = leNat (d.arrRead d.bapOff d.bapLen).1 % 2 ^ 512) ∧
    (r = 0 → d.on R.DBG.BAP_CTRL_WRITE = true → d.bapEffect.arr = (d.arrWrite d.bapOff (leBytes (d.rd R.DBG.BAP_DATA) d.bapLen)).arr) ∧ (r ≠ 0 → d.bapEffect.arr = d.arr)) ∧
  (∀ (s : State) (w t : Nat), s.dev.reaches 0x17 = true → fieldAt w 1 2 = 3 → exec (.watchCtrlWrite w t) s = .next (s.after (Dev.atWrite · t))) ∧
  (∀ (s : State) (w t : Nat), s.dev.reaches 0x17 = true → fieldAt w 1 2 ≠ 3 → w % 2 = 1 → s.dev.on R.WATCH.WATCH_CTRL_ENABLE = false → s.dev.on R.LOAD.LOAD_STATUS_SECURE = true →
    exec (.watchCtrlWrite w t) s = .next (s.after fun d => (d.atWrite t).wr R.WATCH.WATCH_STATUS_WRITE_REFUSED 1)) ∧
  (∀ (s : State) (w t : Nat) (d1 : Dev), s.dev.reaches 0x17 = true → fieldAt w 1 2 ≠ 3 → (w % 2 = 0 ∨ s.dev.on R.WATCH.WATCH_CTRL_ENABLE = true ∨ s.dev.on R.LOAD.LOAD_STATUS_SECURE = false) →
    d1 = (((s.dev.atWrite t).wr R.WATCH.WATCH_CTRL_ENABLE w).wr R.WATCH.WATCH_CTRL_ACTION (w / 2)).wr R.WATCH.WATCH_CTRL_REARM (w / 8) →
    exec (.watchCtrlWrite w t) s = .next (s.after fun d =>
      if w % 2 = 0 then { d1 with dbg := { d1.dbg with watchOn := false, watchPend := false } }
      else if d.on R.WATCH.WATCH_CTRL_ENABLE then d1
      else if d.running then { d1 with dbg := { d1.dbg with watchPend := true } }
      else ({ d1 with dbg := { d1.dbg with watchOn := true, watchPend := false, counts := [], prevCond := 0, fired := false, firedNow := false } } : Dev).wr R.WATCH.WATCH_STATUS_LEVEL 0))

/-- spec/16 R420, R442 to R444: EXTEST, SAMPLE_PRELOAD, IDCODE, DBG_ACCESS, BYPASS, TEST_LOGIC_RESET and TAP_HOLDS_DBG_ACCESS. The order of the cells is a choice of the model (assumption log). -/
def Obligations.TapInstructions : Prop :=
  (∀ (d : Dev) (ir : Nat), d.on R.DBG.DBG_STATUS_ATTACHED = (d.on R.DBG.DBG_CTRL_ATTACH || ir == 0x20) →
    d.tapInstruction ir = ({ d with dbg := { d.dbg with tapIr := ir }, pins := { d.pins with extest := ir == 0 } } : Dev).wr R.DBG.DBG_STATUS_JTAG_ATTACHED (bit (ir == 0x20))) ∧
  (∀ (d : Dev) (ir : Nat), d.on R.DBG.DBG_STATUS_ATTACHED ≠ (d.on R.DBG.DBG_CTRL_ATTACH || ir == 0x20) → (ir = 0x20 ∨ d.on R.POWER.PWR_STATUS_EMULATED = false) →
    d.tapInstruction ir = ((({ d with dbg := { d.dbg with tapIr := ir }, pins := { d.pins with extest := ir == 0 } } : Dev).wr R.DBG.DBG_STATUS_JTAG_ATTACHED (bit (ir == 0x20))).wr
      R.DBG.DBG_STATUS_ATTACHED (bit (!d.on R.DBG.DBG_STATUS_ATTACHED))).event 0x7A5) ∧
  (∀ (s : State) (t : Nat), exec (.tapHoldsDbgAccess t) s = .next (s.after fun d => (d.toTime t).tapInstruction 0x20)) ∧
  (∀ (s : State) (t : Nat), exec (.testLogicReset t) s = .next (s.after fun d => (d.toTime t).tapInstruction 2)) ∧
  (∀ (s : State) (t : Nat), exec (.idcode t) s = .next (s.after fun d => ((d.toTime t).tapInstruction 2).emit (.tdo 32 (if d.part.dies = 8 then 0x17080DCB else 0x17040DCB)))) ∧
  (∀ (s : State) (n bits t : Nat), exec (.bypass n bits t) s = .next (s.after fun d => ((d.toTime t).tapInstruction 0xFF).emit (.tdo n (bits * 2 % 2 ^ n)))) ∧
  (∀ (s : State) (levels cells t : Nat) (d1 : Dev), d1 = (s.dev.toTime t).tapInstruction 1 →
    exec (.samplePreload levels cells t) s = .next (s.after fun _ => ({ d1 with pins := { d1.pins with bsr := cells % 2 ^ 644 } } : Dev).emit (.tdo 644 (captureCells levels)))) ∧
  (∀ (levels p g : Nat), p < 320 → g < 4 → bitAt (captureCells levels) (2 * p + 1) = bitAt levels p ∧ bitAt (captureCells levels) (2 * p) = 0 ∧
    bitAt (captureCells levels) (640 + g) = bitAt levels (320 + g)) ∧
  (∀ (s : State) (cells levels t : Nat), s.dev.running = true →
    exec (.extest cells levels t) s = .next (s.after fun d => ((d.toTime t).tapInstruction 0xFF).emit (.tdo 644 (cells * 2 % 2 ^ 644)))) ∧
  (∀ (s : State) (cells levels t : Nat) (d1 : Dev), s.dev.running = false → d1 = (s.dev.toTime t).tapInstruction 0 →
    exec (.extest cells levels t) s = .next (s.after fun _ => (({ d1 with pins := { d1.pins with bsr := cells % 2 ^ 644 } } : Dev).driveAll s.envelope).emit (.tdo 644 (captureCells levels)))) ∧
  (∀ (s : State) (bits t : Nat), s.dev.dbg.tapIr ≠ 0x20 →
    exec (.dbgAccess bits t) s = .next { s with dev := s.dev.toTime t, envelope := if s.dev.mg.inReset then default else s.envelope }) ∧
  (∀ (s : State) (bits t : Nat) (d1 : Dev), s.dev.dbg.tapIr = 0x20 → (bits % 4 = 0 ∨ s.dev.dbg.tapStatus = 1) → d1 = (s.dev.toTime t).emit (.tdo 60 (s.dev.dbg.tapStatus + s.dev.dbg.tapData * 2 ^ 26)) →
    exec (.dbgAccess bits t) s = .next { s with dev := d1, envelope := if s.dev.mg.inReset then default else s.envelope }) ∧
  (∀ (s : State) (bits t : Nat) (d1 : Dev), s.dev.dbg.tapIr = 0x20 → bits % 4 ≠ 0 → s.dev.dbg.tapStatus ≠ 1 → (bits % 4 = 3 ∨ s.dev.mg.inReset = true ∨ s.dev.mg.bootFailed = true) →
    d1 = (s.dev.toTime t).emit (.tdo 60 (s.dev.dbg.tapStatus + s.dev.dbg.tapData * 2 ^ 26)) →
    exec (.dbgAccess bits t) s = .next { s with dev := { d1 with dbg := { d1.dbg with tapStatus := 2 } }, envelope := if s.dev.mg.inReset then default else s.envelope }) ∧
  (∀ (s : State) (bits t : Nat) (d1 d2 : Dev), s.dev.dbg.tapIr = 0x20 → bits % 4 = 1 → s.dev.dbg.tapStatus ≠ 1 → s.dev.mg.inReset = false → s.dev.mg.bootFailed = false →
    d1 = (s.dev.toTime t).emit (.tdo 60 (s.dev.dbg.tapStatus + s.dev.dbg.tapData * 2 ^ 26)) → d2 = d1.tapRead (fieldAt bits 2 24 * 4) →
    exec (.dbgAccess bits t) s = .next { s with dev := d2, envelope := if d2.mg.inReset then default else s.envelope }) ∧
  (∀ (d : Dev) (off : Nat), (d.pageRows (off % 0x2000000 / 0x1000)).isSome = true → pageDomain (off % 0x2000000 / 0x1000) = none →
    d.tapRead off = { (d.readPf0 off).2 with dbg := { (d.readPf0 off).2.dbg with tapStatus := 0, tapData := (d.readPf0 off).1 } }) ∧
  (∀ (d : Dev) (off i : Nat), (d.pageRows (off % 0x2000000 / 0x1000)).isSome = true → 0x40 ≤ off % 0x2000000 % 0x1000 → pageDomain (off % 0x2000000 / 0x1000) = some i →
    d.tapRead off = match d.gateway i 0x14C 0 false with
      | (.pass, d1) => { (d1.readPf0 off).2 with dbg := { (d1.readPf0 off).2.dbg with tapStatus := 0, tapData := (d1.readPf0 off).1 } }
      | (.refused, d1) => { d1 with dbg := { d1.dbg with tapStatus := 0, tapData := 0 } }
      | (.held, d1) => ({ d1 with dbg := { d1.dbg with tapStatus := 1 } } : Dev).holdAccess ⟨i, true, off, 0, false⟩) ∧
  (∀ (s : State) (bits t : Nat) (d1 d2 : Dev), s.dev.dbg.tapIr = 0x20 → bits % 4 = 2 → s.dev.dbg.tapStatus ≠ 1 → s.dev.mg.inReset = false → s.dev.mg.bootFailed = false →
    d1 = (s.dev.toTime t).emit (.tdo 60 (s.dev.dbg.tapStatus + s.dev.dbg.tapData * 2 ^ 26)) →
    d2 = ({ d1 with dbg := { d1.dbg with tapStatus := 0 } } : Dev).pf0Write true (fieldAt bits 2 24 * 4) (fieldAt bits 26 32) t s.envelope →
    exec (.dbgAccess bits t) s = .next { s with dev := d2, envelope := if d2.mg.inReset then default else s.envelope })

/-- spec/17 R455, R457, R459 to R462, R466, R467: TRACE_ENABLE_WRITE, FLUSH, SINK_RESTART, SINK_LINE_WRITE, TRACE_OVERFLOW, TS_PERIOD, SNAP_REQ and SNAPSHOT. That a word with a reserved value is dropped whole is a choice of the model (assumption log). -/
def Obligations.TraceUnit : Prop :=
  (∀ (s : State) (w t : Nat), exec (.flush w t) s = exec (.traceEnableWrite (w ||| 0x200) t) s ∧ exec (.sinkRestart w t) s = exec (.traceEnableWrite (w ||| 0x400) t) s) ∧
  (∀ (s : State) (w t : Nat) (d1 : Dev), s.dev.reaches 0x211 = true → s.dev.on R.TRACE.TRACE_CTRL_ENABLE = true → w % 2 = 0 → s.dev.trc.machine = 2 →
    d1 = (((s.dev.atWrite t).traceFlush).wr R.TRACE.TRACE_CTRL_ENABLE 0).wr R.TRACE.TRACE_STATUS_RUNNING 0 → d1.trc.buf ≠ [] →
    exec (.traceEnableWrite w t) s = .next (s.after fun _ => { d1 with trc := { d1.trc with machine := 3 } })) ∧
  (∀ (s : State) (w t : Nat) (d1 : Dev), s.dev.reaches 0x211 = true → s.dev.on R.TRACE.TRACE_CTRL_ENABLE = true → w % 2 = 0 → s.dev.trc.machine = 2 → s.dev.trc.pendingReq = 0 →
    d1 = (((s.dev.atWrite t).traceFlush).wr R.TRACE.TRACE_CTRL_ENABLE 0).wr R.TRACE.TRACE_STATUS_RUNNING 0 → d1.trc.buf = [] →
    exec (.traceEnableWrite w t) s = .next (s.after fun _ => { d1 with trc := { d1.trc with machine := 0 } })) ∧
  (∀ (s : State) (w t : Nat) (d1 : Dev), s.dev.reaches 0x211 = true → s.dev.on R.TRACE.TRACE_CTRL_ENABLE = true → w % 2 = 0 → s.dev.trc.machine ≠ 2 →
    d1 = (((s.dev.atWrite t).traceFlush).wr R.TRACE.TRACE_CTRL_ENABLE 0).wr R.TRACE.TRACE_STATUS_RUNNING 0 →
    exec (.traceEnableWrite w t) s = .next (s.after fun _ => { d1 with trc := { d1.trc with pendingReq := 0 } })) ∧
  (∀ (d : Dev), d.traceFlush = { d.tracePad with trc := { d.tracePad.trc with wbDue := true } }) ∧
  (∀ (s : State) (w t : Nat), s.dev.reaches 0x211 = true → s.dev.on R.TRACE.TRACE_CTRL_ENABLE = true → w % 2 = 1 → bitAt w 9 = 0 → bitAt w 10 = 0 →
    exec (.traceEnableWrite w t) s = .next (s.after fun d => (d.atWrite t).wr R.TRACE.TRACE_STATUS_WRITE_REFUSED 1)) ∧
  (∀ (s : State) (w t : Nat), s.dev.reaches 0x211 = true → s.dev.on R.TRACE.TRACE_CTRL_ENABLE = true → w % 2 = 1 → bitAt w 10 = 0 →
    exec (.flush w t) s = .next (s.after fun d => (d.atWrite t).traceFlush)) ∧
  (∀ (s : State) (w t : Nat), s.dev.reaches 0x211 = true → s.dev.on R.TRACE.TRACE_CTRL_ENABLE = true → w % 2 = 1 → bitAt w 9 = 0 → s.dev.on R.TRACE.TRACE_STATUS_SINK_STOPPED = false →
    exec (.sinkRestart w t) s = .next (s.after (Dev.atWrite · t))) ∧
  (∀ (s : State) (w t : Nat) (d1 : Dev), s.dev.reaches 0x211 = true → s.dev.on R.TRACE.TRACE_CTRL_ENABLE = true → w % 2 = 1 → bitAt w 9 = 0 → s.dev.on R.TRACE.TRACE_STATUS_SINK_STOPPED = true →
    d1 = (((s.dev.atWrite t).wr R.TRACE.TRACE_STATUS_SINK_STOPPED 0).wr R.TRACE.TRACE_STATUS_STOP_REASON 0).startSink →
    exec (.sinkRestart w t) s = .next (s.after fun _ =>
      if d1.tracing = false then d1 else if d1.trc.buf.length + 256 ≤ 0x100000 then d1.overflowOut else d1.wr R.TRACE.TRACE_STATUS_OVERFLOWING 1)) ∧
  (∀ (s : State) (w t : Nat), s.dev.reaches 0x211 = true → s.dev.on R.TRACE.TRACE_CTRL_ENABLE = false → (fieldAt w 4 2 = 3 ∨ fieldAt w 11 2 = 3 ∨ fieldAt w 16 16 = 0) →
    exec (.traceEnableWrite w t) s = .next (s.after (Dev.atWrite · t))) ∧
  (∀ (s : State) (w t : Nat), s.dev.reaches 0x211 = true → s.dev.on R.TRACE.TRACE_CTRL_ENABLE = false → fieldAt w 4 2 ≠ 3 → fieldAt w 11 2 ≠ 3 → fieldAt w 16 16 ≠ 0 → w % 2 = 0 → bitAt w 9 = 0 →
    bitAt w 10 = 0 → exec (.traceEnableWrite w t) s = .next (s.after fun d => (d.atWrite t).traceCtrlFields w)) ∧
  (∀ (s : State) (w t : Nat) (d1 : Dev), s.dev.reaches 0x211 = true → s.dev.on R.TRACE.TRACE_CTRL_ENABLE = false → fieldAt w 4 2 ≠ 3 → fieldAt w 11 2 ≠ 3 → fieldAt w 16 16 ≠ 0 → w % 2 = 0 →
    d1 = (if bitAt w 9 = 1 then ((s.dev.atWrite t).traceCtrlFields w).traceFlush else (s.dev.atWrite t).traceCtrlFields w) →
    exec (.traceEnableWrite w t) s = .next (s.after fun _ => if bitAt w 10 = 1 then d1.sinkRestart else d1)) ∧
  (∀ (s : State) (w t : Nat) (d1 d2 : Dev), s.dev.reaches 0x211 = true → s.dev.on R.TRACE.TRACE_CTRL_ENABLE = false → fieldAt w 4 2 ≠ 3 → fieldAt w 11 2 ≠ 3 → fieldAt w 16 16 ≠ 0 → w % 2 = 1 →
    bitAt w 9 = 0 → bitAt w 10 = 0 → d1 = ((s.dev.atWrite t).traceCtrlFields w).wr R.TRACE.TRACE_CTRL_ENABLE 1 →
    d2 = (({ d1 with trc := { d1.trc with machine := 2, pendingReq := 0 } } : Dev).wr R.TRACE.TRACE_STATUS_RUNNING 1).wr R.TRACE.TRACE_STATUS_POWER_STOPPED 0 →
    exec (.traceEnableWrite w t) s = .next (s.after fun _ =>
      if s.dev.trc.machine = 3 then { d1 with trc := { d1.trc with pendingReq := 1 } } else ((d2.startSink).traceCairn (s.dev.rd R.TAKE.TAKE_NUMBER)).traceTs)) ∧
  (∀ (d : Dev), d.startSink = if d.rd R.TRACE.TRACE_CTRL_SINK = 2 ∧ d.tracePinsOk = false then
    ((d.wr R.TRACE.TRACE_STATUS_SINK_STOPPED 1).wr R.TRACE.TRACE_STATUS_STOP_REASON 5).event 0x781 else d) ∧
  (∀ (s : State) (t : Nat) (v : MemView), (s.dev.trc.buf.length < 64 ∧ s.dev.trc.wbWaits = false ∨ s.dev.on R.TRACE.TRACE_STATUS_SINK_STOPPED = true) →
    exec (.sinkLineWrite v t) s = .next (s.after (Dev.toTime · t))) ∧
  (∀ (s : State) (t : Nat) (v : MemView), s.dev.on R.TRACE.TRACE_STATUS_SINK_STOPPED = false → s.dev.trc.wbWaits = true → exec (.sinkLineWrite v t) s = .next (s.after fun d => (d.toTime t).writeWr v)) ∧
  (∀ (s : State) (t n : Nat) (v : MemView) (d1 : Dev), 64 ≤ s.dev.trc.buf.length → s.dev.on R.TRACE.TRACE_STATUS_SINK_STOPPED = false → s.dev.trc.wbWaits = false → s.dev.rd R.TRACE.TRACE_CTRL_SINK = 2 →
    n = 4 * 2 ^ s.dev.rd R.TRACE.TRACE_CTRL_PIN_WIDTH →
    d1 = (s.dev.toTime t).emit (.tracePins n (s.dev.on R.TRACE.TRACE_CTRL_PIN_LVDS) (s.dev.rd R.TRACE.TRACE_CTRL_PIN_DIV)
      ((List.range (8 * (s.dev.trc.buf.take 64).length / n)).map fun i => fieldAt (leNat (s.dev.trc.buf.take 64)) (n * i) n)) →
    exec (.sinkLineWrite v t) s = .next (s.after fun d => if d.pins.sleep then d.toTime t
      else (({ d1 with trc := { d1.trc with buf := d1.trc.buf.drop 64 } } : Dev).count 0xB4 6 1).traceOff)) ∧
  (∀ (s : State) (t : Nat) (v : MemView), 64 ≤ s.dev.trc.buf.length → s.dev.on R.TRACE.TRACE_STATUS_SINK_STOPPED = false → s.dev.trc.wbWaits = false → s.dev.rd R.TRACE.TRACE_CTRL_SINK ≠ 1 → s.dev.rd R.TRACE.TRACE_CTRL_SINK ≠ 2 → s.dev.ringFull = true →
    exec (.sinkLineWrite v t) s = .next (s.after (Dev.toTime · t))) ∧
  (∀ (s : State) (t a c : Nat) (v v1 : MemView) (bs : Bytes) (d1 d2 : Dev), 64 ≤ s.dev.trc.buf.length → s.dev.on R.TRACE.TRACE_STATUS_SINK_STOPPED = false → s.dev.trc.wbWaits = false → s.dev.rd R.TRACE.TRACE_CTRL_SINK = 1 → s.dev.ringFull = true →
    c = s.dev.rd R.TRACE.RING_CFG_RING_CTX → a = s.dev.rd R.TRACE.RD_ADDR → (s.dev.toTime t).dmaRead 4 c a 8 v = (.done bs, v1, d1) → d2 = d1.wr R.TRACE.RD (leNat bs) →
    exec (.sinkLineWrite v t) s = .next (s.after fun _ => if d2.ringFull then d2 else d2.ringLine v1)) ∧
  (∀ (s : State) (t a c : Nat) (v v1 : MemView) (bs : Bytes) (d1 : Dev), 64 ≤ s.dev.trc.buf.length → s.dev.on R.TRACE.TRACE_STATUS_SINK_STOPPED = false → s.dev.trc.wbWaits = false → s.dev.rd R.TRACE.TRACE_CTRL_SINK ≠ 2 →
    s.dev.ringFull = false → c = s.dev.rd R.TRACE.RING_CFG_RING_CTX → a = s.dev.rd R.TRACE.RING_BASE + s.dev.rd R.TRACE.WR % 2 ^ s.dev.rd R.TRACE.RING_CFG_SIZE_LOG2 →
    (s.dev.toTime t).dmaWrite c a (s.dev.trc.buf.take 64) v = (.done bs, v1, d1) →
    exec (.sinkLineWrite v t) s = .next (s.after fun _ => (((({ d1 with trc := { d1.trc with buf := d1.trc.buf.drop 64 } } : Dev).count 0xB4 6 1).advanceWr).writeBack v1).traceOff)) ∧
  (∀ (s : State) (t a c : Nat) (v v1 : MemView) (d1 : Dev), 64 ≤ s.dev.trc.buf.length → s.dev.on R.TRACE.TRACE_STATUS_SINK_STOPPED = false → s.dev.trc.wbWaits = false → s.dev.rd R.TRACE.TRACE_CTRL_SINK ≠ 2 →
    s.dev.ringFull = false → c = s.dev.rd R.TRACE.RING_CFG_RING_CTX → a = s.dev.rd R.TRACE.RING_BASE + s.dev.rd R.TRACE.WR % 2 ^ s.dev.rd R.TRACE.RING_CFG_SIZE_LOG2 →
    (s.dev.toTime t).dmaWrite c a (s.dev.trc.buf.take 64) v = (.wait, v1, d1) → exec (.sinkLineWrite v t) s = .next (s.after fun _ => (d1.emit .wait).wakeDdr 0x14C true)) ∧
  (∀ (s : State) (t a c reason x y : Nat) (v v1 : MemView) (r : Dma) (d1 : Dev), 64 ≤ s.dev.trc.buf.length → s.dev.on R.TRACE.TRACE_STATUS_SINK_STOPPED = false → s.dev.trc.wbWaits = false → s.dev.rd R.TRACE.TRACE_CTRL_SINK ≠ 2 →
    s.dev.ringFull = false → c = s.dev.rd R.TRACE.RING_CFG_RING_CTX → a = s.dev.rd R.TRACE.RING_BASE + s.dev.rd R.TRACE.WR % 2 ^ s.dev.rd R.TRACE.RING_CFG_SIZE_LOG2 →
    (s.dev.toTime t).dmaWrite c a (s.dev.trc.buf.take 64) v = (r, v1, d1) → (r = .xlate x y ∧ reason = 1 ∨ r = .fence x ∧ reason = 2 ∨ r = .poison x ∧ reason = 3 ∨ r = .hostError ∧ reason = 4) →
    exec (.sinkLineWrite v t) s = .next (s.after fun _ =>
      (((d1.reportDma c 1 1 r).wr R.TRACE.TRACE_STATUS_SINK_STOPPED 1).wr R.TRACE.TRACE_STATUS_STOP_REASON reason).event 0x781)) ∧
  (∀ (d : Dev), d.ringFull = (!d.on R.TRACE.TRACE_CTRL_OVERWRITE && decide (2 ^ d.rd R.TRACE.RING_CFG_SIZE_LOG2 < (2 ^ 64 + d.rd R.TRACE.WR - d.rd R.TRACE.RD) % 2 ^ 64 + 64))) ∧
  (∀ (d : Dev) (v v1 : MemView) (bs : Bytes) (d1 : Dev), d.dmaWrite (d.rd R.TRACE.RING_CFG_RING_CTX) (d.rd R.TRACE.WB_ADDR) (leBytes (d.rd R.TRACE.WR) 8) v = (.done bs, v1, d1) →
    d.writeWr v = ({ d1 with trc := { d1.trc with wbWaits := false } } : Dev).reportDma (d.rd R.TRACE.RING_CFG_RING_CTX) 1 1 (.done bs)) ∧
  (∀ (d : Dev) (v v1 : MemView) (d1 : Dev), d.dmaWrite (d.rd R.TRACE.RING_CFG_RING_CTX) (d.rd R.TRACE.WB_ADDR) (leBytes (d.rd R.TRACE.WR) 8) v = (.wait, v1, d1) →
    d.writeWr v = (({ d1 with trc := { d1.trc with wbWaits := true } } : Dev).emit .wait).wakeDdr 0x14C true) ∧
  (∀ (d : Dev) (v : MemView) (flushed : Bool) (d1 : Dev), flushed = (d.trc.wbDue && decide (d.trc.buf.length < 64)) → d1 = (if flushed then { d with trc := { d.trc with wbDue := false } } else d) →
    d.writeBack v = if d.rd R.TRACE.TRACE_CTRL_SINK = 1 ∧ (d.rd R.TRACE.WR % 4096 = 0 ∨ flushed = true) then d1.writeWr v else d1) ∧
  (∀ (d d1 : Dev) (n : Nat), n = d.rd R.TRACE.RING_THRESH → d1 = d.wr R.TRACE.WR (d.rd R.TRACE.WR + 64) → d.advanceWr = if n ≠ 0 ∧ (2 ^ 64 + d.rd R.TRACE.WR - d.rd R.TRACE.RD) % 2 ^ 64 < n ∧
    n ≤ (2 ^ 64 + d1.rd R.TRACE.WR - d1.rd R.TRACE.RD) % 2 ^ 64 then d1.event 0x782 else d1) ∧
  (∀ (s : State) (t : Nat), exec (.traceOverflow t) s = .next (s.after fun d =>
    if d.tracing = true ∧ d.on R.TRACE.TRACE_STATUS_OVERFLOWING = true ∧ d.on R.TRACE.TRACE_STATUS_SINK_STOPPED = false ∧ 4 * d.trc.buf.length ≤ 3 * 0x100000 then (d.toTime t).overflowOut else d.toTime t)) ∧
  (∀ (s : State) (t : Nat), exec (.tsPeriod t) s = .next (s.after fun d =>
    if d.tracing = true ∧ d.running = false ∧ (d.toTime t).tsDue = true then (d.toTime t).traceTs else d.toTime t)) ∧
  (∀ (d : Dev), d.tsDue = (d.on R.TRACE.TRACE_CTRL_TS_EN && decide ((2 ^ 64 + d.stamp - (d.trc.lastTs + d.rd R.TRACE.TS_PERIOD_US * usec) % 2 ^ 64) % 2 ^ 64 < 2 ^ 63))) ∧
  (∀ (s : State) (w t : Nat), s.dev.reaches 0x212 = true → fieldAt w 1 2 = 3 → exec (.snapReq w t) s = .next (s.after (Dev.atWrite · t))) ∧
  (∀ (s : State) (w t : Nat), s.dev.reaches 0x212 = true → fieldAt w 1 2 ≠ 3 → s.dev.on R.CNTSNAP.SNAP_STATUS_PENDING = true →
    exec (.snapReq w t) s = .next (s.after fun d => (d.atWrite t).wr R.CNTSNAP.SNAP_STATUS_MERGED 1)) ∧
  (∀ (s : State) (w t m : Nat) (d1 : Dev), s.dev.reaches 0x212 = true → m = fieldAt w 1 2 → m ≠ 3 → s.dev.on R.CNTSNAP.SNAP_STATUS_PENDING = false → d1 = (s.dev.atWrite t).wr R.CNTSNAP.SNAP_CTRL_SNAP_MODE m →
    exec (.snapReq w t) s = .next (s.after fun d =>
      if m = 1 ∧ d.rd R.CNTSNAP.SNAP_AT_TAKE < d.rd R.TAKE.TAKE_NUMBER then d1.wr R.CNTSNAP.SNAP_STATUS_LATE 1
      else ({ d1 with dbg := { d1.dbg with snapPend := some (if m = 0 ∧ d.running = false then 2 else m, false) } } : Dev).wr R.CNTSNAP.SNAP_STATUS_PENDING 1)) ∧
  (∀ (s : State) (t : Nat), s.dev.dbg.snapPend = none → exec (.snapshot t) s = .next (s.after (Dev.toTime · t))) ∧
  (∀ (s : State) (t m edge : Nat) (due : Bool) (d1 d2 : Dev), s.dev.dbg.snapPend = some (m, due) → edge = (s.dev.toTime t).stampAt (s.dev.toTime t).tbNow % 2 ^ 64 →
    (due = true ∨ m = 2 ∧ (2 ^ 64 + edge - s.dev.rd R.CNTSNAP.SNAP_AT_TIME) % 2 ^ 64 < 2 ^ 63) →
    d1 = ((((s.dev.toTime t).copyCounters.wr R.CNTSNAP.SNAP_TIME (if due then (s.dev.toTime t).stamp else edge)).wr R.CNTSNAP.SNAP_TAKE (s.dev.rd R.TAKE.TAKE_NUMBER - 1)).wr
      R.CNTSNAP.SNAP_STATUS_MID_TAKE 1) → d2 = (d1.wr R.CNTSNAP.SNAP_SEQ (s.dev.rd R.CNTSNAP.SNAP_SEQ + 1)).wr R.CNTSNAP.SNAP_STATUS_PENDING 0 →
    exec (.snapshot t) s = .next (s.after fun _ => ({ d2 with dbg := { d2.dbg with snapPend := none } } : Dev).event 0x790)) ∧
  (∀ (s : State) (t m edge : Nat), s.dev.dbg.snapPend = some (m, false) → edge = (s.dev.toTime t).stampAt (s.dev.toTime t).tbNow % 2 ^ 64 →
    (m ≠ 2 ∨ 2 ^ 63 ≤ (2 ^ 64 + edge - s.dev.rd R.CNTSNAP.SNAP_AT_TIME) % 2 ^ 64) → exec (.snapshot t) s = .next (s.after (Dev.toTime · t))) ∧
  (∀ (d : Dev) (u k : Nat), (d.regs.map Prod.fst).Pairwise (· < ·) → u < 0xB5 → k < 16 →
    d.copyCounters.rdAt R.CNT.SNAP u k = if (u, k) ∈ runningCounters then d.liveCount u k else d.rdAt R.CNT.LIVE u k)

/-- spec/18 R471 to R476: DOORBELL, GET_INFO, LOG_READ, COUNTER_READ, COUNTER_RAISE, UPDATE_BEGIN, UPDATE_DATA, UPDATE_COMMIT, SENSOR_READ and I2C_XFER. Which values of a payload are refused, the order of the sensors and rails, and what the flash and the board answer are choices of the model (assumption log). -/
def Obligations.MailboxCommands : Prop :=
  (∀ (s : State) (t : Nat), s.dev.reaches mboxPage = true → s.dev.on R.MBOX.MBOX_STATUS_BUSY = false →
    exec (.doorbell t) s = .next (s.after fun d =>
      let d1 := d.atWrite t
      ({ d1 with mg := { d1.mg with msgs := d.mg.msgs ++ [{ item := 0, body := leBytes (d.rd R.MBOX.REQ) 256, restarted := false }] } } : Dev).wr R.MBOX.MBOX_STATUS_BUSY 1)) ∧
  (∀ (s : State) (t : Nat), s.dev.reaches mboxPage = true → s.dev.on R.MBOX.MBOX_STATUS_BUSY = true → exec (.doorbell t) s = .next (s.after (Dev.atWrite · t))) ∧
  (∀ (s : State) (t c : Nat) (m : Msg), c ∈ mailboxCommands → s.dev.serving m c = true → (m.whole = false ∨ lengthFits c m.length = false) →
    exec (mailboxRow c t) s = .next (s.after fun d => (d.toTime t).replied m 2 [])) ∧
  (∀ (s : State) (t c : Nat) (m : Msg), c ∈ mailboxCommands → recoveryCommands.contains c = false → s.dev.mg.bootFailed = true → s.dev.mg.msgs.head? = some m → m.restarted = false →
    s.dev.mg.reply = none → m.command = c → s.dev.mailboxServed m = true → exec (mailboxRow c t) s = .next (s.after fun d => (d.toTime t).replied m 3 [])) ∧
  (∀ (s : State) (t c : Nat), c ∈ mailboxCommands → (s.dev.mg.reply.isSome = true ∨ (s.dev.mg.msgs.head?.all fun m => m.restarted || m.command != c || !s.dev.mailboxServed m) = true) →
    exec (mailboxRow c t) s = .next (s.after (Dev.toTime · t))) ∧
  (∀ (s : State) (t : Nat) (m : Msg), s.dev.serving m 0x0001 = true → m.whole = true → m.length = 0 →
    exec (.getInfo t) s = .next (s.after fun d => (d.toTime t).replied m 0
      (leBytes d.mg.fwVersion 4 ++ leBytes d.mg.svn 4 ++ leBytes (d.rd R.LOAD.BOOT_STATUS_SOURCE) 1 ++ leBytes d.part.serial 8 ++ leBytes d.part.ownerHash 48))) ∧
  (∀ (s : State) (t k n : Nat) (m : Msg), s.dev.serving m 0x0002 = true → m.whole = true → m.length = 4 → m.payload = leBytes k 2 ++ leBytes n 2 → k < 2 ^ 16 → n < 2 ^ 16 →
    exec (.logRead t) s = .next (s.after fun d => (d.toTime t).replied m (if n = 0 ∨ 12 < n ∨ 1024 < k + n then 3 else 0)
      (if n = 0 ∨ 12 < n ∨ 1024 < k + n then [] else
        ((List.range n).map fun j => (SMap.get d.mg.slots (k + j)).bytes ++ leBytes (SMap.get d.mg.seqs (k + j)) 8).flatten))) ∧
  (∀ (s : State) (t c : Nat) (m : Msg), s.dev.serving m 0x0003 = true → m.whole = true → m.length = 1 → c = leAt m.payload 0 1 →
    exec (.counterRead t) s = .next (s.after fun d => if c < 16 then (d.toTime t).replied m 0 (leBytes (SMap.get d.mg.counters c) 8) else (d.toTime t).replied m 3 [])) ∧
  (∀ (s : State) (t c x : Nat) (m : Msg), s.dev.serving m 0x0004 = true → m.whole = true → m.length = 9 → c = leAt m.payload 0 1 → x = leAt m.payload 1 8 →
    c < 16 → SMap.get s.dev.mg.counters c < x → (c = 0 → x ≤ s.dev.mg.svn) →
    exec (.counterRaise t) s = .next (s.after fun d =>
      let d1 := d.toTime t
      ({ d1 with mg := { d1.mg with counters := SMap.set d1.mg.counters c x } } : Dev).replied m 0 [])) ∧
  (∀ (s : State) (t c x : Nat) (m : Msg), s.dev.serving m 0x0004 = true → m.whole = true → m.length = 9 → c = leAt m.payload 0 1 → x = leAt m.payload 1 8 →
    (16 ≤ c ∨ x ≤ SMap.get s.dev.mg.counters c ∨ c = 0 ∧ s.dev.mg.svn < x) → exec (.counterRaise t) s = .next (s.after fun d => (d.toTime t).replied m 3 [])) ∧
  (∀ (s : State) (err : Bool) (t g len : Nat) (m : Msg), s.dev.serving m 0x0010 = true → m.whole = true → m.length = 5 → g = leAt m.payload 0 1 → len = leAt m.payload 1 4 → g ≤ 1 →
    (g = 0 → 4096 ≤ len ∧ len ≤ 0x800000) → (g = 1 → len = 0x10000) →
    exec (.updateBegin err t) s = .next (s.after fun d =>
      let d1 := d.toTime t
      if err then d1.replied m 5 [] else ({ d1 with mg := { d1.mg with update := some (g, len), area := [] } } : Dev).replied m 0 [])) ∧
  (∀ (s : State) (err : Bool) (t g len : Nat) (m : Msg), s.dev.serving m 0x0010 = true → m.whole = true → m.length = 5 → g = leAt m.payload 0 1 → len = leAt m.payload 1 4 →
    (1 < g ∨ g = 0 ∧ (len < 4096 ∨ 0x800000 < len) ∨ g = 1 ∧ len ≠ 0x10000) →
    exec (.updateBegin err t) s = .next (s.after fun d => (d.toTime t).replied m (if 1 < g then 3 else 2) [])) ∧
  (∀ (s : State) (err : Bool) (t o len g : Nat) (m : Msg), s.dev.serving m 0x0011 = true → m.whole = true → 5 ≤ m.length → m.length ≤ 244 → o = leAt m.payload 0 4 →
    s.dev.mg.update = some (g, len) → len < o + (m.length - 4) → exec (.updateData err t) s = .next (s.after fun d => (d.toTime t).replied m 2 [])) ∧
  (∀ (s : State) (err : Bool) (t o len g : Nat) (m : Msg), s.dev.serving m 0x0011 = true → m.whole = true → 5 ≤ m.length → m.length ≤ 244 → o = leAt m.payload 0 4 →
    s.dev.mg.update = some (g, len) → o + (m.length - 4) ≤ len →
    ∃ u, exec (.updateData err t) s = .next u ∧ u.dev.mg.reply = some (m.answer (if err then 5 else 0) []) ∧ u.dev.mg.update = s.dev.mg.update ∧ u.dev.mg.flash = s.dev.mg.flash ∧
      (err = true → u.dev.mg.area = s.dev.mg.area) ∧
      (err = false → (∀ j, j < m.length - 4 → SMap.get u.dev.mg.area (o + j) = (m.payload.getD (4 + j) 0).toNat + 1) ∧
        ∀ a, (a < o ∨ o + (m.length - 4) ≤ a) → SMap.get u.dev.mg.area a = SMap.get s.dev.mg.area a)) ∧
  (∀ (s : State) (err : Bool) (t : Nat) (m : Msg), s.dev.serving m 0x0011 = true → m.whole = true → 5 ≤ m.length → m.length ≤ 244 → s.dev.mg.update = none →
    exec (.updateData err t) s = .next (s.after fun d => (d.toTime t).replied m 3 [])) ∧
  (∀ (s : State) (err : Bool) (t : Nat) (m : Msg), s.dev.serving m 0x0012 = true → m.whole = true → m.length = 0 → s.dev.mg.update = none →
    exec (.updateCommit err t) s = .next (s.after fun d => (d.toTime t).replied m 3 [])) ∧
  (∀ (s : State) (err : Bool) (t g len : Nat) (m : Msg) (x : Bool × Nat), s.dev.serving m 0x0012 = true → m.whole = true → m.length = 0 → s.dev.mg.update = some (g, len) →
    x = s.dev.updateCheck g →
    ∃ u, exec (.updateCommit err t) s = .next u ∧ u.dev.mg.reply = some (m.answer (if x.1 = false then 4 else if err then 5 else 0) []) ∧
      u.dev.mg.flash = if x.1 = true ∧ err = false then SMap.store s.dev.mg.flash x.2 (s.dev.areaBytes 0 len) else s.dev.mg.flash) ∧
  (∀ (s : State) (t : Nat) (m : Msg), s.dev.serving m 0x0020 = true → m.whole = true → m.length = 0 →
    exec (.sensorRead t) s = .next (s.after fun d => (d.toTime t).replied m 0
      (((List.range d.sensors).map fun k => BitVec.ofNat 8 (SMap.get d.mg.temps k)) ++ ((List.range 7).map fun r => leBytes (d.rdAt R.SAFETY.RAIL_MV 0 r) 2).flatten ++
        ((List.range 10).map fun b => leBytes (d.rdAt R.SAFETY.VCCIO_MV 0 b) 2).flatten))) ∧
  (∀ (s : State) (ack : Bool) (data : Bytes) (t n : Nat) (m : Msg), s.dev.serving m 0x0030 = true → m.whole = true → 3 ≤ m.length → m.length ≤ 67 → n = leAt m.payload 1 1 →
    exec (.i2cXfer ack data t) s = .next (s.after fun d =>
      if n ≠ m.length - 3 then (d.toTime t).replied m 2 []
      else ((d.toTime t).emit (.i2c (leAt m.payload 0 1) (m.payload.drop 3))).replied m (if ack then 0 else 6) (if ack then data.take (leAt m.payload 2 1) else [])))

/-- spec/18 R470 to R472: MBOX_REPLY, MGMT_WATCHDOG and MGMT_RESTART. That all waiting messages count as in progress at a restart is a choice of the model (assumption log). -/
def Obligations.RepliesAndRestart : Prop :=
  (∀ (s : State) (t : Nat) (v : MemView) (m : Msg) (r : Bytes), s.dev.mg.msgs.head? = some m → m.item = 0 → (s.dev.toTime t).replyDue m = some r →
    exec (.mboxReply v t) s = .next (s.after fun d =>
      let d1 := { d.toTime t with mg := { (d.toTime t).mg with msgs := d.mg.msgs.drop 1, reply := none } }
      (((d1.wr R.MBOX.REPLY (putField (d1.rd R.MBOX.REPLY) 0 (8 * r.length) (leNat r))).wr R.MBOX.MBOX_STATUS_BUSY 0).wr R.MBOX.MBOX_STATUS_REPLY_READY 1).event 0x7C8)) ∧
  (∀ (d : Dev) (m : Msg), m.restarted = true → d.replyDue m = some (m.answer 7 [])) ∧
  (∀ (d : Dev) (m : Msg) (r : Bytes), m.restarted = false → d.mg.reply = some r → d.replyDue m = some r) ∧
  (∀ (d : Dev) (m : Msg), m.restarted = false → d.mg.reply = none → d.mailboxServed m = true → mailboxCommands.contains m.command = false → d.replyDue m = some (m.answer 1 [])) ∧
  (∀ (d : Dev) (m : Msg), m.restarted = false → d.mg.reply = none → (d.mailboxServed m = false ∨ m.command ∈ mailboxCommands) → d.replyDue m = none) ∧
  (∀ (s : State) (t n : Nat) (v v1 : MemView) (m : Msg) (r z : Bytes) (i : Item) (d1 : Dev), s.dev.mg.msgs.head? = some m → m.item ≠ 0 → (s.dev.toTime t).replyDue m = some r →
    s.dev.item m.item = some i → i.stand = .running → (s.dev.toTime t).itemWrite i i.dst (r.take (i.arg % 512)) v = (.ok z, v1, d1) → n = min r.length (i.arg % 512) →
    exec (.mboxReply v t) s = .next (s.after fun _ =>
      ((d1.setItem i.id fun x => { x with done := n }).endItem i.id (if leAt r 0 2 ≠ 0 ∨ n < r.length then 0x1D else 0)).messageServed)) ∧
  (∀ (s : State) (t st x : Nat) (v v1 : MemView) (m : Msg) (r : Bytes) (i : Item) (d1 : Dev), s.dev.mg.msgs.head? = some m → m.item ≠ 0 → (s.dev.toTime t).replyDue m = some r →
    s.dev.item m.item = some i → i.stand = .running → (s.dev.toTime t).itemWrite i i.dst (r.take (i.arg % 512)) v = (.stop st x, v1, d1) →
    exec (.mboxReply v t) s = .next (s.after fun _ => ((d1.setItem i.id fun y => { y with detail := x }).endItem i.id st).messageServed)) ∧
  (∀ (s : State) (t : Nat) (v v1 : MemView) (m : Msg) (r : Bytes) (i : Item) (d1 : Dev), s.dev.mg.msgs.head? = some m → m.item ≠ 0 → (s.dev.toTime t).replyDue m = some r →
    s.dev.item m.item = some i → i.stand = .running → (s.dev.toTime t).itemWrite i i.dst (r.take (i.arg % 512)) v = (.wait, v1, d1) →
    exec (.mboxReply v t) s = .next (s.after fun _ => (d1.emit .wait).wakeDdr 0x14C true)) ∧
  (∀ (s : State) (t : Nat) (v : MemView) (m : Msg) (r : Bytes), s.dev.mg.msgs.head? = some m → m.item ≠ 0 → (s.dev.toTime t).replyDue m = some r →
    (s.dev.item m.item = none ∨ (s.dev.item m.item).any (fun i => decide (i.stand ≠ .running)) = true) →
    exec (.mboxReply v t) s = .next (s.after fun d => (d.toTime t).messageServed)) ∧
  (∀ (s : State) (t : Nat) (v : MemView), (s.dev.mg.msgs = [] ∨ (s.dev.mg.msgs.head?).any (fun m => decide ((s.dev.toTime t).replyDue m = none)) = true) →
    exec (.mboxReply v t) s = .next (s.after (Dev.toTime · t))) ∧
  (∀ (s : State) (t : Nat), s.dev.on R.SAFETY.SAFE_STATUS_MGMT_RUNNING = true →
    exec (.mgmtWatchdog t) s = .next (s.after fun d =>
      let d1 := ((d.toTime t).wr R.SAFETY.SAFE_STATUS_MGMT_RUNNING 0).wr R.MBOX.MBOX_STATUS_FW_RUNNING 0
      (d1.wr R.SAFETY.SAFE_STATUS_MGMT_HELD (if d.mg.restartAt ≠ 0 ∧ (d.toTime t).mono < d.mg.restartAt - 1 + 1000000 * usec then 1 else 0)).unitFault 0x86 4 0xA 0)) ∧
  (∀ (s : State) (t : Nat), s.dev.on R.SAFETY.SAFE_STATUS_MGMT_RUNNING = false → exec (.mgmtWatchdog t) s = .next (s.after (Dev.toTime · t))) ∧
  (∀ (s : State) (t : Nat), s.dev.on R.SAFETY.SAFE_STATUS_MGMT_RUNNING = false → s.dev.on R.SAFETY.SAFE_STATUS_MGMT_HELD = false → s.dev.mg.bootFailed = false → s.dev.mg.inReset = false →
    exec (.mgmtRestart t) s = .next (s.after fun d =>
      let d1 := ((d.toTime t).wr R.SAFETY.SAFE_STATUS_MGMT_RUNNING 1).wr R.MBOX.MBOX_STATUS_FW_RUNNING 1
      let reason := d.imageReason (d.rd R.LOAD.BOOT_STATUS_SOURCE)
      if 2 ≤ reason ∧ reason ≤ 4 then d.toTime t else ({ d1 with mg := { d1.mg with restartAt := d1.mono + 1, reply := none, msgs := d.mg.msgs.map fun m => { m with restarted := true } } } : Dev).event 0x7C5)) ∧
  (∀ (s : State) (t : Nat), (s.dev.on R.SAFETY.SAFE_STATUS_MGMT_RUNNING = true ∨ s.dev.on R.SAFETY.SAFE_STATUS_MGMT_HELD = true ∨ s.dev.mg.bootFailed = true ∨ s.dev.mg.inReset = true) →
    exec (.mgmtRestart t) s = .next (s.after (Dev.toTime · t)))

/-- spec/18 R480, R482 to R485: safe state, CLEAR, TEST, ESTOP_INPUT and ESTOP_DEASSERT. How clause 2 of R485 finds its conditions is a choice of the model (assumption log). -/
def Obligations.SafeState : Prop :=
  (∀ (d e : Dev) (code page detail : Nat), code < 256 → d.on R.SAFETY.SAFE_STATUS_IN_SAFE = false → isSet (d.route 0x7C6) 14 = false → e = d.unitFault code 4 page detail →
    e.rd R.SAFETY.SAFE_STATUS_IN_SAFE = 1 ∧ e.rd R.SAFETY.SAFE_STATUS_CAUSE = code ∧ e.rd R.SAFETY.SAFE_STAMP = d.stamp ∧ e.rd R.ENV.ENV_STATUS_SAFE_DRIVEN = 1 ∧
      e.mg.safeN = true ∧ e.mg.faultN = true ∧ SMap.get e.mg.counters 2 = SMap.get d.mg.counters 2 + 1 ∧
      e.rd R.SAFETY.SAFE_ENTRIES = min (d.rd R.SAFETY.SAFE_ENTRIES + 1) (2 ^ 32 - 1)) ∧
  (∀ (d e : Dev) (code page detail : Nat), d.on R.SAFETY.SAFE_STATUS_IN_SAFE = true → e = d.unitFault code 4 page detail →
    e.on R.SAFETY.SAFE_STATUS_IN_SAFE = true ∧ e.rd R.SAFETY.SAFE_STATUS_CAUSE = d.rd R.SAFETY.SAFE_STATUS_CAUSE ∧ e.rd R.SAFETY.SAFE_STAMP = d.rd R.SAFETY.SAFE_STAMP ∧
      e.mg.safeN = d.mg.safeN ∧ e.mg.faultN = d.mg.faultN ∧ SMap.get e.mg.counters 2 = SMap.get d.mg.counters 2 ∧ e.rd R.SAFETY.SAFE_ENTRIES = d.rd R.SAFETY.SAFE_ENTRIES) ∧
  (∀ (s : State) (t : Nat), s.dev.reaches 0xA = true → s.dev.on R.SAFETY.SAFE_STATUS_IN_SAFE = false →
    ∃ u, exec (.test t) s = .next u ∧ u.envelope = s.envelope ∧ u.dev.rd R.SAFETY.SAFE_STATUS_IN_SAFE = 1 ∧ u.dev.rd R.SAFETY.SAFE_STATUS_CAUSE = 0 ∧
      u.dev.rd R.SAFETY.SAFE_STAMP = (s.dev.toTime t).stamp ∧ u.dev.mg.safeN = true ∧ u.dev.mg.faultN = true ∧
      SMap.get u.dev.mg.counters 2 = SMap.get s.dev.mg.counters 2 + 1) ∧
  (∀ (s : State) (t : Nat), s.dev.reaches 0xA = true → s.dev.on R.SAFETY.SAFE_STATUS_IN_SAFE = true → exec (.test t) s = .next (s.after (Dev.atWrite · t))) ∧
  (∀ (s : State) (t : Nat), s.dev.on R.SAFETY.SAFE_STATUS_ESTOP_NOW = false →
    exec (.estopInput t) s = .next (s.after fun d => ((((d.toTime t).wr R.SAFETY.SAFE_STATUS_ESTOP_NOW 1).unitFault 0x87 4 0xA 0).event 0x7C2))) ∧
  (∀ (s : State) (t : Nat), s.dev.on R.SAFETY.SAFE_STATUS_ESTOP_NOW = true → exec (.estopInput t) s = .next (s.after (Dev.toTime · t))) ∧
  (∀ (s : State) (t : Nat), exec (.estopDeassert t) s = .next (s.after fun d => (d.toTime t).wr R.SAFETY.SAFE_STATUS_ESTOP_NOW 0)) ∧
  (∀ (s : State) (o : Bool) (t : Nat), s.dev.reaches 0xA = true → s.dev.on R.SAFETY.SAFE_STATUS_IN_SAFE = false → exec (.clear o t) s = .next (s.after (Dev.atWrite · t))) ∧
  (∀ (s : State) (o : Bool) (t r : Nat), s.dev.reaches 0xA = true → s.dev.on R.SAFETY.SAFE_STATUS_IN_SAFE = true → s.dev.clearReason s.envelope o = some r →
    exec (.clear o t) s = .next (s.after fun d => ((d.atWrite t).wr R.SAFETY.SAFE_STATUS_CLEAR_REFUSED 1).wr R.SAFETY.SAFE_STATUS_CLEAR_REASON r)) ∧
  (∀ (s : State) (o : Bool) (t : Nat), s.dev.reaches 0xA = true → s.dev.on R.SAFETY.SAFE_STATUS_IN_SAFE = true → s.dev.clearReason s.envelope o = none →
    exec (.clear o t) s = .next (s.after fun d =>
      let d1 := ((d.atWrite t).wr R.SAFETY.SAFE_STATUS_IN_SAFE 0).wr R.ENV.ENV_STATUS_SAFE_DRIVEN 0
      ((({ d1 with mg := { d1.mg with faultN := false, safeN := false, thermalStop := false } } : Dev).pinsHalt).openWindows fun _ => true).event 0x7C1)) ∧
  (∀ (d : Dev) (v : Envelope) (o : Bool), d.on R.SAFETY.SAFE_STATUS_ESTOP_NOW = true → d.clearReason v o = some 1) ∧
  (∀ (d : Dev) (v : Envelope) (o : Bool), d.on R.SAFETY.SAFE_STATUS_ESTOP_NOW = false → (o = true ∨ d.on R.CLK.CLK_STATUS_HOLDOVER = true ∨ d.hot = true ∨ d.railOut = true) →
    d.clearReason v o = some 2) ∧
  (∀ (d : Dev) (v : Envelope), d.on R.SAFETY.SAFE_STATUS_ESTOP_NOW = false → d.on R.CLK.CLK_STATUS_HOLDOVER = false → d.hot = false → d.railOut = false →
    d.clearReason v false = if d.running then some 3 else if d.on R.SAFETY.SAFE_STATUS_MGMT_RUNNING = false then some 4 else if v.locked = false then some 5 else none)

/-- spec/18 R486 to R491, R532: INSTRUCTION_STORE_SCRUB, EDGE_SCRUB, VOLTAGE_MONITOR, RAIL_ENTERS_WINDOW, THERMAL_SAMPLE, CLOCK_MONITOR, STEP_MHZ_WRITE and STEP_PLL_LOCK. That a pass has 2,048 commands is a choice of the model (assumption log). -/
def Obligations.ScrubbersAndMonitors : Prop :=
  (∀ (s : State) (t : Nat), s.dev.rd R.POWER.PWR_STATUS_STATE = 2 → exec (.instructionStoreScrub t) s = .next (s.after (Dev.toTime · t))) ∧
  (∀ (s : State) (t n : Nat), s.dev.rd R.POWER.PWR_STATUS_STATE ≠ 2 → n = s.dev.mg.scrubAt →
    ∃ u, exec (.instructionStoreScrub t) s = .next u ∧ u.dev.mg.scrubAt = (n + 1) % 2048 ∧
      u.dev.rd R.SAFETY.SCRUB_PASSES_IS = (if n = 2047 then (s.dev.rd R.SAFETY.SCRUB_PASSES_IS + 1) % 2 ^ 32 else s.dev.rd R.SAFETY.SCRUB_PASSES_IS) ∧
      (∀ q w, q % 2048 = n → decodeEcc 96 (SMap.get s.dev.arr.cols q) = .corrected w → SMap.get u.dev.arr.cols q = encodeEcc 96 w) ∧
      (∀ q, (q % 2048 ≠ n ∨ ∀ w, decodeEcc 96 (SMap.get s.dev.arr.cols q) ≠ .corrected w) → SMap.get u.dev.arr.cols q = SMap.get s.dev.arr.cols q)) ∧
  (∀ (d : Dev) (q w z : Nat), decodeEcc 96 (SMap.get d.arr.cols q) = .bad w z →
    d.scrubWord q = d.report (d.record 0x88 (if q % 2048 < d.tk.len then 4 else 0) 0x1 (q / 2048) (q % 2048) 1) false) ∧
  (∀ (d : Dev) (q w z : Nat), decodeEcc 64 (SMap.get d.arr.selTab q) = .bad w z →
    d.scrubSel q = d.report (d.record 0x88 (if q % 512 * 4 < d.tk.len then 4 else 0) 0x3 (q / 512) (q % 512 * 4) 1) false) ∧
  (∀ (s : State) (t n : Nat), ∃ u, exec (.edgeScrub n [] t) s = .next u ∧ u.dev.edge.cfg = s.dev.edge.cfg ∧ u.envelope = s.envelope ∧
    u.dev.rd R.SAFETY.SCRUB_PASSES_EDGE = (s.dev.rd R.SAFETY.SCRUB_PASSES_EDGE + 1) % 2 ^ 32 ∧ u.dev.rd R.SAFETY.SCRUB_CORRECTED = if n = 0 then s.dev.rd R.SAFETY.SCRUB_CORRECTED else min (s.dev.rd R.SAFETY.SCRUB_CORRECTED + n) (2 ^ 32 - 1)) ∧
  (∀ (s : State) (e : Bool) (a t : Nat), exec (.edgeScrub 0 [(e, a)] t) s = .next (s.after fun d =>
    let d1 := (d.toTime t).unitFault 0x88 4 (if e then 0xB else 0x300) (a % 2 ^ 32)
    d1.wr R.SAFETY.SCRUB_PASSES_EDGE (d1.rd R.SAFETY.SCRUB_PASSES_EDGE + 1))) ∧
  (∀ (s : State) (bank mv t : Nat), mv < 1550 → exec (.voltageMonitor 6 bank mv t) s = .next { s with dev := s.dev.por, envelope := default }) ∧
  (∀ (s : State) (r bank mv t : Nat) (d1 : Dev), r < 8 → bank < 10 → (r = 6 → 1550 ≤ mv) →
    d1 = (if r < 7 then (s.dev.toTime t).wrAt R.SAFETY.RAIL_MV 0 r mv else (s.dev.toTime t).wrAt R.SAFETY.VCCIO_MV 0 bank mv) →
    exec (.voltageMonitor r bank mv t) s = .next (s.after fun _ =>
      if d1.mg.railArmed.contains (railKey r bank) = true ∧ (mv < (d1.railWindow r bank).1 ∨ (d1.railWindow r bank).2 < mv) then
        d1.unitFault 0x84 4 0xA (r + (if (d1.railWindow r bank).2 < mv then 2 ^ 4 else 0) + (if r < 7 then 0 else bank) * 2 ^ 8)
      else d1)) ∧
  (∀ (s : State) (r bank mv t : Nat) (d1 : Dev), r < 8 → bank < 10 →
    d1 = (if r < 7 then (s.dev.toTime t).wrAt R.SAFETY.RAIL_MV 0 r mv else (s.dev.toTime t).wrAt R.SAFETY.VCCIO_MV 0 bank mv) →
    exec (.railEntersWindow r bank mv t) s = .next (s.after fun _ =>
      if d1.mg.railArmed.contains (railKey r bank) = false ∧ (d1.railWindow r bank).1 ≤ mv ∧ mv ≤ (d1.railWindow r bank).2 then
        { d1 with mg := { d1.mg with railArmed := railKey r bank :: d1.mg.railArmed, railsAt := if r < 7 then d1.mono + 1 else d1.mg.railsAt } }
      else d1)) ∧
  (∀ (d : Dev) (bank : Nat), d.railWindow 0 bank = (658, 742) ∧ d.railWindow 1 bank = (705, 795) ∧ d.railWindow 2 bank = (752, 848) ∧ d.railWindow 3 bank = (1034, 1166) ∧
    d.railWindow 4 bank = (846, 954) ∧ d.railWindow 5 bank = (1128, 1272) ∧ d.railWindow 6 bank = (1692, 1908)) ∧
  (∀ (s : State) (r bank mv t : Nat), (8 ≤ r ∨ 10 ≤ bank) → (r = 6 → 1550 ≤ mv) →
    exec (.voltageMonitor r bank mv t) s = .fault .noSuchUnit ∧ exec (.railEntersWindow r bank mv t) s = .fault .noSuchUnit) ∧
  (∀ (d : Dev) (k x : Nat), signedOf 8 x < signedOf 8 (d.rd R.SAFETY.TJ_LIMIT) →
    d.sampleSensor k x = { d with mg := { d.mg with temps := SMap.set d.mg.temps k (x % 256), hotCounts := SMap.set d.mg.hotCounts k 0 } }) ∧
  (∀ (d d1 : Dev) (k x n : Nat), signedOf 8 (d.rd R.SAFETY.TJ_LIMIT) ≤ signedOf 8 x → n = min 5 (SMap.get d.mg.hotCounts k + 1) →
    d1 = { d with mg := { d.mg with temps := SMap.set d.mg.temps k (x % 256), hotCounts := SMap.set d.mg.hotCounts k n } } →
    d.sampleSensor k x = if n = 4 then d1.unitFault 0x85 4 0xA (k + x % 256 * 2 ^ 8) else d1) ∧
  (∀ (s : State) (t k x : Nat) (l : List Nat) (d1 : Dev), (k, x) = hottest ((List.range l.length).zip l) →
    d1 = forAll ((List.range l.length).zip l) (fun e (d : Dev) => d.sampleSensor e.1 e.2) (s.dev.toTime t) →
    ∃ u, exec (.thermalSample l t) s = .next u ∧ u.dev.rd R.SAFETY.TJ_NOW_TEMP = x % 2 ^ 8 ∧ u.dev.rd R.SAFETY.TJ_NOW_SENSOR = k % 2 ^ 6 ∧ u.dev.mg.temps = d1.mg.temps ∧ u.dev.mg.hotCounts = d1.mg.hotCounts ∧
      (u.dev.mg.warned = true ↔ signedOf 8 (s.dev.rd R.SAFETY.TJ_WARN) ≤ signedOf 8 x) ∧
      (s.dev.mg.warned = false → signedOf 8 (s.dev.rd R.SAFETY.TJ_WARN) ≤ signedOf 8 x → u.dev.raised 0x7C3 = true)) ∧
  (∀ (l : List (Nat × Nat)), l ≠ [] → hottest l ∈ l ∧ (l.all fun e => decide (signedOf 8 e.2 ≤ signedOf 8 (hottest l).2)) = true) ∧
  (∀ (s : State) (code kind t : Nat) (d : Dev), code < 8 →
    d = (s.dev.toTick t).clockFails code kind →
    exec (.clockMonitor code kind t) s = .next (s.after fun _ =>
      if 5 ≤ code ∧ (d.rd R.EDGE.EDGE_STATUS_RELEASE_STAGE = 0 ∨ code ≠ 5 ∧ (List.range 8).all (fun g => d.treeSource g != code - 5) = true) then d
      else d.unitFault 0x83 4 0xA (code + kind * 2 ^ 4))) ∧
  (∀ (d : Dev) (code kind : Nat), d.clockFails 0 kind = (if kind = 0 then (d.wr R.CLK.CLK_STATUS_HOLDOVER 1).refLost else d.refLost) ∧
    d.clockFails 6 kind = d.wr R.EDGE.EDGE_STATUS_PLL0_LOCK 0 ∧ d.clockFails 7 kind = d.wr R.EDGE.EDGE_STATUS_PLL1_LOCK 0 ∧ (1 ≤ code → code ≤ 5 → d.clockFails code kind = d)) ∧
  (∀ (s : State) (code kind t : Nat), 8 ≤ code → exec (.clockMonitor code kind t) s = .fault .noSuchUnit) ∧
  (∀ (s : State) (w t x : Nat), s.dev.reaches 9 = true → x = w % 2 ^ 12 → (s.dev.running = true ∨ s.dev.part.stepLimit < x ∨ x < 500 ∨ x % 10 ≠ 0) →
    exec (.stepMhzWrite w t) s = .next (s.after fun d => (d.atWrite t).wr R.CLK.CLK_STATUS_WRITE_REFUSED 1)) ∧
  (∀ (s : State) (w t x : Nat), s.dev.reaches 9 = true → x = w % 2 ^ 12 → s.dev.running = false → x ≤ s.dev.part.stepLimit → 500 ≤ x → x % 10 = 0 →
    exec (.stepMhzWrite w t) s = .next (s.after fun d => ((((d.atWrite t).wr R.CLK.STEP_MHZ x).wr R.CLK.CLK_STATUS_STEP_LOCKED 0)).refreshTrained)) ∧
  (∀ (s : State) (t : Nat), s.dev.tk.startWait = false → exec (.stepPllLock t) s = .next (s.after fun d => (d.toTime t).wr R.CLK.CLK_STATUS_STEP_LOCKED 1)) ∧
  (∀ (s : State) (t : Nat) (d1 : Dev), s.dev.tk.startWait = true → d1 = (s.dev.toTime t).wr R.CLK.CLK_STATUS_STEP_LOCKED 1 →
    exec (.stepPllLock t) s = .next (s.after fun _ => ({ d1 with tk := { d1.tk with startWait := false } } : Dev).tryStart))

/-- spec/18 R492, R493, spec/02 R41, spec/07 R198, spec/12 R328, R338: POR, DEVICE_RESET, RESET_CTRL_DEVICE, ARRAY_RESET, EDGE_RESET, FLR_PF0 and FLR_PF1. What a DEVICE reset keeps beyond the table is a choice of the model (assumption log). -/
def Obligations.Resets : Prop :=
  (∀ (s : State), exec .por s = .next { s with dev := s.dev.por, envelope := default }) ∧
  (∀ (d e : Dev), (e = d.por ∨ ∃ cause, e = d.deviceReset cause) →
    e.mg.slots = d.mg.slots ∧ e.mg.seqs = d.mg.seqs ∧ e.mg.counters = d.mg.counters ∧ e.mg.flash = d.mg.flash ∧ e.part = d.part ∧ e.mg.inReset = true ∧ e.mg.safeN = true ∧ e.mg.msgs = [] ∧
      e.arr = (Dev.fresh d.part).arr ∧ e.tk = (Dev.fresh d.part).tk ∧ e.edge = (Dev.fresh d.part).edge ∧ e.pins = (Dev.fresh d.part).pins ∧ e.ld = (Dev.fresh d.part).ld ∧
      e.eng = (Dev.fresh d.part).eng ∧ e.ddr = (Dev.fresh d.part).ddr ∧ e.host = (Dev.fresh d.part).host ∧ e.dbg = (Dev.fresh d.part).dbg ∧ e.trc = (Dev.fresh d.part).trc ∧
      e.evRaised = [] ∧ e.evRoute = []) ∧
  (∀ (p : Part) (r : Reg) (n k : Nat), (Dev.fresh p).rdAt r n k =
    if p.dies = 4 ∧ r.key n k = R.POWER.PL_LIMIT_W.key 0 0 then 0x0BE else if p.rangeC = true ∧ r.key n k = R.SAFETY.TJ_LIMIT.key 0 0 then 0x64 else r.reset) ∧
  (∀ (p : Part), (Dev.fresh p).arr = { (default : Arr) with segDef := 2 } ∧ (Dev.fresh p).ddr = default ∧ (Dev.fresh p).pins = default ∧ (Dev.fresh p).edge = default ∧
    (Dev.fresh p).stamp = 0 ∧ (Dev.fresh p).mono = 0) ∧
  (∀ (d : Dev), d.por.regs = (Dev.fresh d.part).regs ∧ d.por.stamp = 0 ∧ d.por.mono = 0 ∧ d.por.mg.railArmed = []) ∧
  (∀ (s : State) (cause t : Nat), exec (.deviceReset cause t) s = .next { s with dev := (s.dev.toTime t).deviceReset cause, envelope := default }) ∧
  (∀ (d e : Dev) (cause : Nat), e = d.deviceReset cause → e.now = d.now ∧ e.mono = d.mono ∧ e.mg.resetAt = d.mono ∧ e.mg.railArmed = d.mg.railArmed ∧ e.mg.temps = d.mg.temps ∧ e.mg.logTimes = d.mg.logTimes ∧
    e.rd R.TIME.WRAPS = d.rd R.TIME.WRAPS % 2 ^ R.TIME.WRAPS.width ∧ e.rd R.SAFETY.SAFE_ENTRIES = d.rd R.SAFETY.SAFE_ENTRIES % 2 ^ 32 ∧ e.rd R.RESET.RESET_STATUS_LAST_CAUSE = cause % 8 ∧
    e.rd R.SAFETY.SAFE_STATUS_IN_SAFE = 0 ∧ e.rd R.LOAD.LOAD_STATUS_STATE = 0 ∧ e.rd R.RUN.RUN_STATUS_STATE = 0 ∧ e.rd R.TAKE.TAKE_NUMBER = 0 ∧ e.rd R.CLK.STEP_MHZ = 1000 ∧
    e.rd R.SAFETY.RING_WR = 0 ∧ (∀ b, e.rdAt R.PINBANK.LOCK b 0 = 0) ∧ ∀ u k, e.rdAt R.CNT.LIVE u k = 0) ∧
  (∀ (s : State) (w t : Nat) (d1 : Dev), s.dev.reaches 8 = true → d1 = ((s.dev.atWrite t).when (isSet w 0) (fun d => d.arrayReset t)).when (isSet w 1) (fun d => d.edgeReset t) →
    exec (.resetCtrlDevice w t) s = .next (if fieldAt w 16 16 = 0xD5A7 then
        { s with dev := (((d1.toTime t).advance (1000 * usec)).emit .linkDown).deviceReset 3, envelope := default }
      else { s with dev := d1.toTime t })) ∧
  (∀ (s : State) (t : Nat), s.dev.reaches 8 = true →
    ∃ d1 : Dev, exec (.arrayReset t) s = .next { s with dev := d1.powerDue } ∧ d1.arr.stepRows = [] ∧ d1.arr.stateRows = [] ∧ d1.arr.shadowRows = [] ∧ d1.arr.flagRows = [] ∧ d1.arr.nbr = [] ∧
      d1.arr.portAddr = [] ∧ d1.arr.portWd = [] ∧ d1.arr.portRd = [] ∧ d1.arr.farAddr = [] ∧ d1.arr.farWd = [] ∧ d1.arr.segs = [] ∧ d1.arr.segDef = 2 ∧ d1.arr.mirror = [] ∧ d1.arr.rx = [] ∧
      d1.arr.cols = s.dev.arr.cols ∧ d1.arr.selTab = s.dev.arr.selTab ∧ (s.dev.running = false → d1.arr.banks = s.dev.arr.banks) ∧
      d1.rd R.RUN.RUN_STATUS_STATE = 0 ∧ d1.rd R.TAKE.TAKE_NUMBER = 0 ∧ d1.rd R.CLK.STEP_MHZ = s.dev.rd R.CLK.STEP_MHZ ∧
      d1.rd R.LOAD.LOAD_STATUS_STATE = (if s.dev.loadState = 1 then 3 else s.dev.loadState) ∧ (s.dev.loadState = 2 → d1.rd R.LOAD.LOAD_STATUS_STATE_CLEARED = 1) ∧
      (s.dev.loadState ≠ 2 → ∀ g, g < 64 → d1.rdAt R.CHECK.BUDGET 0 g = 0)) ∧
  (∀ (s : State) (t : Nat), s.dev.reaches 8 = true → s.dev.running = true → exec (.edgeReset t) s = .next (s.after fun d => (d.atWrite t).wr R.RESET.RESET_STATUS_REFUSED 1)) ∧
  (∀ (s : State) (t : Nat), s.dev.reaches 8 = true → s.dev.running = false →
    ∃ u, exec (.edgeReset t) s = .next u ∧ u.envelope = s.envelope ∧ u.dev.rd R.EDGE.EDGE_STATUS_RELEASE_STAGE = 0 ∧ u.dev.edge.present = [] ∧ u.dev.edge.fenced = [] ∧
      u.dev.arr = s.dev.arr ∧ u.dev.rd R.LOAD.LOAD_STATUS_STATE = (if s.dev.loadState = 1 ∨ s.dev.loadState = 2 then 3 else s.dev.loadState) ∧
      ∀ p, p < 320 → u.dev.pinCommitted p = if s.dev.pinLocked p then s.dev.pinCommitted p else s.dev.basePinWord p) ∧
  (∀ (s : State) (t : Nat), s.dev.mg.inReset = false → s.dev.mg.bootFailed = false →
    ∃ d1 : Dev, exec (.flrPf0 t) s = .next { s with dev := d1.powerDue } ∧ d1.rd R.RUN.RUN_STATUS_STATE = 0 ∧ d1.rd R.TAKE.TAKE_NUMBER = 0 ∧ d1.arr.shadowRows = [] ∧ d1.arr.flagRows = [] ∧
      d1.arr.cols = s.dev.arr.cols ∧ (s.dev.running = false → d1.arr.banks = s.dev.arr.banks) ∧ d1.rd R.LOAD.LOAD_STATUS_STATE = (if s.dev.loadState = 1 then 3 else s.dev.loadState) ∧
      d1.eng.items = [] ∧ d1.eng.tokens = [] ∧ d1.eng.inject = [] ∧ d1.eng.captures = [] ∧ d1.host.fences = [] ∧ d1.host.cache = [] ∧ d1.host.bar2Log = 30 ∧ d1.trc = default ∧ SMap.get d1.host.msixEnable 0 = 0 ∧
      (∀ q, q < 64 → d1.rdAt R.ENGQ.Q_CTRL_ENABLE q 0 = 0 ∧ d1.rdAt R.DMMU.CTX_ROOT_VALID 0 q = 0) ∧ d1.rd R.CLK.STEP_MHZ = s.dev.rd R.CLK.STEP_MHZ ∧ d1.mg.flash = s.dev.mg.flash ∧
      d1.eng.sram = s.dev.eng.sram ∧ d1.ddr.mem = s.dev.ddr.mem) ∧
  (∀ (s : State) (t : Nat), (s.dev.mg.inReset = true ∨ s.dev.mg.bootFailed = true) → exec (.flrPf0 t) s = .next s) ∧
  (∀ (s : State) (t : Nat), s.dev.mg.inReset = false →
    ∃ u, exec (.flrPf1 t) s = .next u ∧ u.dev.rd R.MBOX.MBOX_STATUS_BUSY = 0 ∧ u.dev.mg.msgs = [] ∧ u.dev.mg.reply = none ∧ SMap.get u.dev.host.msixEnable 1 = 0 ∧
      SMap.get u.dev.host.msixEnable 0 = SMap.get s.dev.host.msixEnable 0 ∧ u.dev.arr = s.dev.arr ∧ u.envelope = s.envelope) ∧
  (∀ (s : State) (t : Nat), s.dev.mg.inReset = true → exec (.flrPf1 t) s = .next s) ∧
  (State.reset.dev = Dev.fresh Part.shipped ∧ State.reset.envelope = default ∧ State.reset.pending = [] ∧ State.reset.memoriesWf = true ∧ State.reset.dev.itemsWf = true ∧
    State.reset.envelopeSealed = true)

/-- spec/07 R179 to R184, spec/09 R249, R257, spec/18 R475, R484, spec/20 R519: BOOT. The order in which the reasons are found, and that a dead device has no envelope, are choices of the model (assumption log). -/
def Obligations.BootAndReadiness : Prop :=
  (∀ (s : State) (errors runs t0 t : Nat) (mv : List Nat), (s.dev.mg.inReset = false ∨ s.dev.railsIn = false ∨ (s.dev.toTime t).mono < (s.dev.toTime t).bootBegins t0) →
    exec (.boot errors runs mv t0 t) s = .next s) ∧
  (∀ (d : Dev) (t0 : Nat), d.bootBegins t0 = max (max (d.mono - (2 ^ 64 + d.stamp - t0 % 2 ^ 64) % 2 ^ 64) d.mg.resetAt) (d.mg.railsAt - 1 + 1000 * usec)) ∧
  (∀ (s : State) (errors runs t0 t ms : Nat) (mv : List Nat) (d : Dev), s.dev.mg.inReset = true → s.dev.railsIn = true → (s.dev.toTime t).bootBegins t0 ≤ (s.dev.toTime t).mono →
    d = (s.dev.toTime t).bootStart mv → ms = ((s.dev.toTime t).mono - (s.dev.toTime t).bootBegins t0) / 2 ^ 32 / 1000000 →
    exec (.boot errors runs mv t0 t) s = .next (match d.settingsInUse errors with
      | none => { s with dev := (d.wr R.LOAD.BOOT_STATUS_REASON 8).bootDead 8 ms, envelope := default }
      | some (c, b) =>
        let d1 := d.takeSettings c b
        let v := envelopeOf (envelopeSection b)
        let x := d1.tryImage 0 errors runs
        let y := (d1.primaryFailed x.1).tryImage 1 errors runs
        if envelopeOk (envelopeSection b) = false then { s with dev := (d1.wr R.LOAD.BOOT_STATUS_REASON 8).bootDead 8 ms, envelope := default }
        else if x.1 = 0 then { s with dev := x.2.bootReady 0 ms v, envelope := v }
        else if y.1 = 0 then { s with dev := y.2.bootReady 1 ms v, envelope := v }
        else { s with dev := y.2.bootDead y.1 ms, envelope := default })) ∧
  (∀ (d : Dev) (src errors runs : Nat), isSet errors (2 + src) = true → d.tryImage src errors runs = (1, d)) ∧
  (∀ (d : Dev) (src errors runs : Nat), isSet errors (2 + src) = false → d.tryImage src errors runs =
    if d.imageReason src ≠ 0 then (d.imageReason src, d) else if isSet runs src = false then (7, d)
    else match d.loadBase 1 (d.baseConfig src) ((d.baseConfig src).length + 1) with
      | none => (6, d)
      | some d1 => if d1.contention.isSome = true ∨ d1.looseFifo.isSome = true then (6, d) else (0, d1)) ∧
  (∀ (d e : Dev) (src ms : Nat) (v : Envelope), e = d.bootReady src ms v → e.rd R.ENV.ENV_STATUS_LOCKED = 1 ∧ e.rd R.ENV.ENV_STATUS_ENABLED = (if v.enable then 1 else 0) ∧
    e.rd R.SAFETY.SAFE_STATUS_MGMT_RUNNING = 1 ∧ e.rd R.MBOX.MBOX_STATUS_FW_RUNNING = 1 ∧ e.rd R.LOAD.BOOT_STATUS_READY_MS = min ms 0xFFFF ∧ e.mg.inReset = false ∧ e.host.linkUp = true ∧
    (∀ b, b < 10 → e.rdAt R.PINBANK.LOCK b 0 = SMap.get v.bootLock b % 2 ^ 32) ∧ (src = 0 → e.mg.safeN = d.on R.SAFETY.SAFE_STATUS_IN_SAFE) ∧ (src = 1 → e.raised 0x203 = true)) ∧
  (∀ (d e : Dev) (reason ms : Nat), e = d.bootDead reason ms → e.rd R.MBOX.MBOX_STATUS_RECOVERY = 1 ∧ e.rd R.LOAD.LOAD_STATUS_LAST_CODE = 0x4A ∧ e.rd R.LOAD.BOOT_STATUS_READY_MS = min ms 0xFFFF ∧
    e.mg.inReset = false ∧ e.mg.bootFailed = true ∧ e.host.linkUp = true ∧ e.on R.SAFETY.SAFE_STATUS_IN_SAFE = true) ∧
  (∀ (d : Dev) (reason : Nat), reason < 16 → (d.primaryFailed reason).rd R.LOAD.BOOT_STATUS_REASON = reason ∧ (d.primaryFailed reason).rd R.LOAD.BOOT_STATUS_SOURCE = 1 ∧
    (d.primaryFailed reason).rd R.LOAD.LOAD_STATUS_LAST_CODE = 0x49) ∧
  (∀ (d e : Dev) (mv : List Nat), e = d.bootStart mv → SMap.get e.mg.counters 1 = SMap.get d.mg.counters 1 + 1 ∧ e.rd R.SAFETY.LOG_SEQ = SMap.get d.mg.seqs 1024 % 2 ^ 32 ∧
    (∀ b, b < 10 → e.rdAt R.PINBANK.BANK_STATUS_VCCIO_CODE b 0 = vccioCode (mv.getD b 0) ∧ e.rdAt R.SAFETY.VCCIO_MV 0 b = mv.getD b 0 % 2 ^ 16)) ∧
  (∀ (k : Nat), vccioCode 1200 = 0 ∧ vccioCode 1500 = 1 ∧ vccioCode 1800 = 2 ∧ vccioCode 2500 = 3 ∧ vccioCode 3300 = 4 ∧ (k < 1080 → vccioCode k = 7) ∧ (3630 < k → vccioCode k = 7))

/-- spec/02 R62 whole. -/
def Obligations.PromotionAtBoundary : Prop :=
  ∀ (s : State), s.dev.tk.phase = .ended → s.dev.tk.peerStop = none → s.dev.tk.linkStop = false → (s.dev.tk.belay + 1) % max 1 s.dev.tk.pitches = 0 → s.dev.badShadows = [] →
    ∃ u, exec .belayEntry s = .next u ∧
      (∀ bp k, u.dev.stateEntry bp k =
        if SMap.bitGet s.dev.arr.flagRows (bp * 512 + k) = 1 then SMap.bitGet s.dev.arr.shadowRows (bp * 512 + k) else s.dev.stateEntry bp k) ∧
      ∀ bp k, SMap.bitGet u.dev.arr.flagRows (bp * 512 + k) = 0

/-- spec/09 R254, R257, spec/18 R469, R492: no write path leads into the envelope unit. What a step on an empty queue does is a choice of the model (log 2). -/
def Obligations.EnvelopeIsSealed : Prop :=
  (∀ (s u : State) (c : Instr) (rest : List Instr), s.pending = c :: rest → step s = .next u → u.pending = rest ∧
    (u.envelope = s.envelope ∨ (u.envelope = default ∧ u.dev.mg.inReset = true) ∨
      ((∃ errors runs mv t0 t, c = .boot errors runs mv t0 t) ∧ s.dev.mg.inReset = true))) ∧
  (∀ (s u : State), s.envelopeSealed = true → step s = .next u → u.envelopeSealed = true) ∧
  (∀ (s : State), s.pending = [] → ∃ u, step s = .next u ∧ u.envelope = s.envelope ∧ u.pending = [])

/-- The memories of spec/05 R126, spec/07 R177, spec/08 R220, spec/13 R353 and spec/14 R374 as the model holds them: equal contents are equal data. -/
def Obligations.MemoriesKeepForm : Prop :=
  ∀ (s u : State), s.memoriesWf = true → step s = .next u → u.memoriesWf = true

/-- The work items of spec/14 R363 to R375 as the model holds them; the numbers are the model's own. -/
def Obligations.ItemNumbersRise : Prop :=
  ∀ (s u : State), s.dev.itemsWf = true → step s = .next u → u.dev.itemsWf = true
end

