-- ==== Sys2Proof/Laws/State.lean ====
section
/-! SUPPORT. The fields of the device and of the state after each of the basic updates: what an update does not write stays as it is. -/

namespace Sys2Proof.Machine

/-! A register field is stored. -/

@[simp] theorem Dev.wrAt_part (d : Dev) (r : Reg) (n k v : Nat) : (d.wrAt r n k v).part = d.part := by unfold Dev.wrAt; rfl
@[simp] theorem Dev.wrAt_now (d : Dev) (r : Reg) (n k v : Nat) : (d.wrAt r n k v).now = d.now := by unfold Dev.wrAt; rfl
@[simp] theorem Dev.wrAt_mono (d : Dev) (r : Reg) (n k v : Nat) : (d.wrAt r n k v).mono = d.mono := by unfold Dev.wrAt; rfl
@[simp] theorem Dev.wrAt_latch (d : Dev) (r : Reg) (n k v : Nat) : (d.wrAt r n k v).latch = d.latch := by unfold Dev.wrAt; rfl
@[simp] theorem Dev.wrAt_mirrorLatch (d : Dev) (r : Reg) (n k v : Nat) : (d.wrAt r n k v).mirrorLatch = d.mirrorLatch := by unfold Dev.wrAt; rfl
@[simp] theorem Dev.wrAt_evRaised (d : Dev) (r : Reg) (n k v : Nat) : (d.wrAt r n k v).evRaised = d.evRaised := by unfold Dev.wrAt; rfl
@[simp] theorem Dev.wrAt_evEnable (d : Dev) (r : Reg) (n k v : Nat) : (d.wrAt r n k v).evEnable = d.evEnable := by unfold Dev.wrAt; rfl
@[simp] theorem Dev.wrAt_evRoute (d : Dev) (r : Reg) (n k v : Nat) : (d.wrAt r n k v).evRoute = d.evRoute := by unfold Dev.wrAt; rfl
@[simp] theorem Dev.wrAt_arr (d : Dev) (r : Reg) (n k v : Nat) : (d.wrAt r n k v).arr = d.arr := by unfold Dev.wrAt; rfl
@[simp] theorem Dev.wrAt_tk (d : Dev) (r : Reg) (n k v : Nat) : (d.wrAt r n k v).tk = d.tk := by unfold Dev.wrAt; rfl
@[simp] theorem Dev.wrAt_trc (d : Dev) (r : Reg) (n k v : Nat) : (d.wrAt r n k v).trc = d.trc := by unfold Dev.wrAt; rfl
@[simp] theorem Dev.wrAt_mg (d : Dev) (r : Reg) (n k v : Nat) : (d.wrAt r n k v).mg = d.mg := by unfold Dev.wrAt; rfl
@[simp] theorem Dev.wrAt_ld (d : Dev) (r : Reg) (n k v : Nat) : (d.wrAt r n k v).ld = d.ld := by unfold Dev.wrAt; rfl
@[simp] theorem Dev.wrAt_edge (d : Dev) (r : Reg) (n k v : Nat) : (d.wrAt r n k v).edge = d.edge := by unfold Dev.wrAt; rfl
@[simp] theorem Dev.wrAt_pins (d : Dev) (r : Reg) (n k v : Nat) : (d.wrAt r n k v).pins = d.pins := by unfold Dev.wrAt; rfl
@[simp] theorem Dev.wrAt_clk (d : Dev) (r : Reg) (n k v : Nat) : (d.wrAt r n k v).clk = d.clk := by unfold Dev.wrAt; rfl
@[simp] theorem Dev.wrAt_ports (d : Dev) (r : Reg) (n k v : Nat) : (d.wrAt r n k v).ports = d.ports := by unfold Dev.wrAt; rfl
@[simp] theorem Dev.wrAt_host (d : Dev) (r : Reg) (n k v : Nat) : (d.wrAt r n k v).host = d.host := by unfold Dev.wrAt; rfl
@[simp] theorem Dev.wrAt_ddr (d : Dev) (r : Reg) (n k v : Nat) : (d.wrAt r n k v).ddr = d.ddr := by unfold Dev.wrAt; rfl
@[simp] theorem Dev.wrAt_eng (d : Dev) (r : Reg) (n k v : Nat) : (d.wrAt r n k v).eng = d.eng := by unfold Dev.wrAt; rfl
@[simp] theorem Dev.wrAt_net (d : Dev) (r : Reg) (n k v : Nat) : (d.wrAt r n k v).net = d.net := by unfold Dev.wrAt; rfl
@[simp] theorem Dev.wrAt_dbg (d : Dev) (r : Reg) (n k v : Nat) : (d.wrAt r n k v).dbg = d.dbg := by unfold Dev.wrAt; rfl
@[simp] theorem Dev.wrAt_out (d : Dev) (r : Reg) (n k v : Nat) : (d.wrAt r n k v).out = d.out := by unfold Dev.wrAt; rfl
@[simp] theorem Dev.wrAt_freeCtr (d : Dev) (r : Reg) (n k v : Nat) : (d.wrAt r n k v).freeCtr = d.freeCtr := by unfold Dev.wrAt; rfl

/-! The same for a page of which there is one. -/

@[simp] theorem Dev.wr_part (d : Dev) (r : Reg) (v : Nat) : (d.wr r v).part = d.part := by unfold Dev.wr; rw [Dev.wrAt_part]
@[simp] theorem Dev.wr_now (d : Dev) (r : Reg) (v : Nat) : (d.wr r v).now = d.now := by unfold Dev.wr; rw [Dev.wrAt_now]
@[simp] theorem Dev.wr_mono (d : Dev) (r : Reg) (v : Nat) : (d.wr r v).mono = d.mono := by unfold Dev.wr; rw [Dev.wrAt_mono]
@[simp] theorem Dev.wr_latch (d : Dev) (r : Reg) (v : Nat) : (d.wr r v).latch = d.latch := by unfold Dev.wr; rw [Dev.wrAt_latch]
@[simp] theorem Dev.wr_mirrorLatch (d : Dev) (r : Reg) (v : Nat) : (d.wr r v).mirrorLatch = d.mirrorLatch := by unfold Dev.wr; rw [Dev.wrAt_mirrorLatch]
@[simp] theorem Dev.wr_evRaised (d : Dev) (r : Reg) (v : Nat) : (d.wr r v).evRaised = d.evRaised := by unfold Dev.wr; rw [Dev.wrAt_evRaised]
@[simp] theorem Dev.wr_evEnable (d : Dev) (r : Reg) (v : Nat) : (d.wr r v).evEnable = d.evEnable := by unfold Dev.wr; rw [Dev.wrAt_evEnable]
@[simp] theorem Dev.wr_evRoute (d : Dev) (r : Reg) (v : Nat) : (d.wr r v).evRoute = d.evRoute := by unfold Dev.wr; rw [Dev.wrAt_evRoute]
@[simp] theorem Dev.wr_arr (d : Dev) (r : Reg) (v : Nat) : (d.wr r v).arr = d.arr := by unfold Dev.wr; rw [Dev.wrAt_arr]
@[simp] theorem Dev.wr_tk (d : Dev) (r : Reg) (v : Nat) : (d.wr r v).tk = d.tk := by unfold Dev.wr; rw [Dev.wrAt_tk]
@[simp] theorem Dev.wr_trc (d : Dev) (r : Reg) (v : Nat) : (d.wr r v).trc = d.trc := by unfold Dev.wr; rw [Dev.wrAt_trc]
@[simp] theorem Dev.wr_mg (d : Dev) (r : Reg) (v : Nat) : (d.wr r v).mg = d.mg := by unfold Dev.wr; rw [Dev.wrAt_mg]
@[simp] theorem Dev.wr_ld (d : Dev) (r : Reg) (v : Nat) : (d.wr r v).ld = d.ld := by unfold Dev.wr; rw [Dev.wrAt_ld]
@[simp] theorem Dev.wr_edge (d : Dev) (r : Reg) (v : Nat) : (d.wr r v).edge = d.edge := by unfold Dev.wr; rw [Dev.wrAt_edge]
@[simp] theorem Dev.wr_pins (d : Dev) (r : Reg) (v : Nat) : (d.wr r v).pins = d.pins := by unfold Dev.wr; rw [Dev.wrAt_pins]
@[simp] theorem Dev.wr_clk (d : Dev) (r : Reg) (v : Nat) : (d.wr r v).clk = d.clk := by unfold Dev.wr; rw [Dev.wrAt_clk]
@[simp] theorem Dev.wr_ports (d : Dev) (r : Reg) (v : Nat) : (d.wr r v).ports = d.ports := by unfold Dev.wr; rw [Dev.wrAt_ports]
@[simp] theorem Dev.wr_host (d : Dev) (r : Reg) (v : Nat) : (d.wr r v).host = d.host := by unfold Dev.wr; rw [Dev.wrAt_host]
@[simp] theorem Dev.wr_ddr (d : Dev) (r : Reg) (v : Nat) : (d.wr r v).ddr = d.ddr := by unfold Dev.wr; rw [Dev.wrAt_ddr]
@[simp] theorem Dev.wr_eng (d : Dev) (r : Reg) (v : Nat) : (d.wr r v).eng = d.eng := by unfold Dev.wr; rw [Dev.wrAt_eng]
@[simp] theorem Dev.wr_net (d : Dev) (r : Reg) (v : Nat) : (d.wr r v).net = d.net := by unfold Dev.wr; rw [Dev.wrAt_net]
@[simp] theorem Dev.wr_dbg (d : Dev) (r : Reg) (v : Nat) : (d.wr r v).dbg = d.dbg := by unfold Dev.wr; rw [Dev.wrAt_dbg]
@[simp] theorem Dev.wr_out (d : Dev) (r : Reg) (v : Nat) : (d.wr r v).out = d.out := by unfold Dev.wr; rw [Dev.wrAt_out]
@[simp] theorem Dev.wr_freeCtr (d : Dev) (r : Reg) (v : Nat) : (d.wr r v).freeCtr = d.freeCtr := by unfold Dev.wr; rw [Dev.wrAt_freeCtr]

/-! A counter register goes on. -/

@[simp] theorem Dev.bumpAt_part (d : Dev) (r : Reg) (n k : Nat) : (d.bumpAt r n k).part = d.part := by unfold Dev.bumpAt; rw [Dev.wrAt_part]
@[simp] theorem Dev.bumpAt_now (d : Dev) (r : Reg) (n k : Nat) : (d.bumpAt r n k).now = d.now := by unfold Dev.bumpAt; rw [Dev.wrAt_now]
@[simp] theorem Dev.bumpAt_mono (d : Dev) (r : Reg) (n k : Nat) : (d.bumpAt r n k).mono = d.mono := by unfold Dev.bumpAt; rw [Dev.wrAt_mono]
@[simp] theorem Dev.bumpAt_latch (d : Dev) (r : Reg) (n k : Nat) : (d.bumpAt r n k).latch = d.latch := by unfold Dev.bumpAt; rw [Dev.wrAt_latch]
@[simp] theorem Dev.bumpAt_mirrorLatch (d : Dev) (r : Reg) (n k : Nat) : (d.bumpAt r n k).mirrorLatch = d.mirrorLatch := by unfold Dev.bumpAt; rw [Dev.wrAt_mirrorLatch]
@[simp] theorem Dev.bumpAt_evRaised (d : Dev) (r : Reg) (n k : Nat) : (d.bumpAt r n k).evRaised = d.evRaised := by unfold Dev.bumpAt; rw [Dev.wrAt_evRaised]
@[simp] theorem Dev.bumpAt_evEnable (d : Dev) (r : Reg) (n k : Nat) : (d.bumpAt r n k).evEnable = d.evEnable := by unfold Dev.bumpAt; rw [Dev.wrAt_evEnable]
@[simp] theorem Dev.bumpAt_evRoute (d : Dev) (r : Reg) (n k : Nat) : (d.bumpAt r n k).evRoute = d.evRoute := by unfold Dev.bumpAt; rw [Dev.wrAt_evRoute]
@[simp] theorem Dev.bumpAt_arr (d : Dev) (r : Reg) (n k : Nat) : (d.bumpAt r n k).arr = d.arr := by unfold Dev.bumpAt; rw [Dev.wrAt_arr]
@[simp] theorem Dev.bumpAt_tk (d : Dev) (r : Reg) (n k : Nat) : (d.bumpAt r n k).tk = d.tk := by unfold Dev.bumpAt; rw [Dev.wrAt_tk]
@[simp] theorem Dev.bumpAt_trc (d : Dev) (r : Reg) (n k : Nat) : (d.bumpAt r n k).trc = d.trc := by unfold Dev.bumpAt; rw [Dev.wrAt_trc]
@[simp] theorem Dev.bumpAt_mg (d : Dev) (r : Reg) (n k : Nat) : (d.bumpAt r n k).mg = d.mg := by unfold Dev.bumpAt; rw [Dev.wrAt_mg]
@[simp] theorem Dev.bumpAt_ld (d : Dev) (r : Reg) (n k : Nat) : (d.bumpAt r n k).ld = d.ld := by unfold Dev.bumpAt; rw [Dev.wrAt_ld]
@[simp] theorem Dev.bumpAt_edge (d : Dev) (r : Reg) (n k : Nat) : (d.bumpAt r n k).edge = d.edge := by unfold Dev.bumpAt; rw [Dev.wrAt_edge]
@[simp] theorem Dev.bumpAt_pins (d : Dev) (r : Reg) (n k : Nat) : (d.bumpAt r n k).pins = d.pins := by unfold Dev.bumpAt; rw [Dev.wrAt_pins]
@[simp] theorem Dev.bumpAt_clk (d : Dev) (r : Reg) (n k : Nat) : (d.bumpAt r n k).clk = d.clk := by unfold Dev.bumpAt; rw [Dev.wrAt_clk]
@[simp] theorem Dev.bumpAt_ports (d : Dev) (r : Reg) (n k : Nat) : (d.bumpAt r n k).ports = d.ports := by unfold Dev.bumpAt; rw [Dev.wrAt_ports]
@[simp] theorem Dev.bumpAt_host (d : Dev) (r : Reg) (n k : Nat) : (d.bumpAt r n k).host = d.host := by unfold Dev.bumpAt; rw [Dev.wrAt_host]
@[simp] theorem Dev.bumpAt_ddr (d : Dev) (r : Reg) (n k : Nat) : (d.bumpAt r n k).ddr = d.ddr := by unfold Dev.bumpAt; rw [Dev.wrAt_ddr]
@[simp] theorem Dev.bumpAt_eng (d : Dev) (r : Reg) (n k : Nat) : (d.bumpAt r n k).eng = d.eng := by unfold Dev.bumpAt; rw [Dev.wrAt_eng]
@[simp] theorem Dev.bumpAt_net (d : Dev) (r : Reg) (n k : Nat) : (d.bumpAt r n k).net = d.net := by unfold Dev.bumpAt; rw [Dev.wrAt_net]
@[simp] theorem Dev.bumpAt_dbg (d : Dev) (r : Reg) (n k : Nat) : (d.bumpAt r n k).dbg = d.dbg := by unfold Dev.bumpAt; rw [Dev.wrAt_dbg]
@[simp] theorem Dev.bumpAt_out (d : Dev) (r : Reg) (n k : Nat) : (d.bumpAt r n k).out = d.out := by unfold Dev.bumpAt; rw [Dev.wrAt_out]
@[simp] theorem Dev.bumpAt_freeCtr (d : Dev) (r : Reg) (n k : Nat) : (d.bumpAt r n k).freeCtr = d.freeCtr := by unfold Dev.bumpAt; rw [Dev.wrAt_freeCtr]

/-! The same for a page of which there is one. -/

@[simp] theorem Dev.bump_part (d : Dev) (r : Reg) : (d.bump r).part = d.part := by unfold Dev.bump; rw [Dev.bumpAt_part]
@[simp] theorem Dev.bump_now (d : Dev) (r : Reg) : (d.bump r).now = d.now := by unfold Dev.bump; rw [Dev.bumpAt_now]
@[simp] theorem Dev.bump_mono (d : Dev) (r : Reg) : (d.bump r).mono = d.mono := by unfold Dev.bump; rw [Dev.bumpAt_mono]
@[simp] theorem Dev.bump_latch (d : Dev) (r : Reg) : (d.bump r).latch = d.latch := by unfold Dev.bump; rw [Dev.bumpAt_latch]
@[simp] theorem Dev.bump_mirrorLatch (d : Dev) (r : Reg) : (d.bump r).mirrorLatch = d.mirrorLatch := by unfold Dev.bump; rw [Dev.bumpAt_mirrorLatch]
@[simp] theorem Dev.bump_evRaised (d : Dev) (r : Reg) : (d.bump r).evRaised = d.evRaised := by unfold Dev.bump; rw [Dev.bumpAt_evRaised]
@[simp] theorem Dev.bump_evEnable (d : Dev) (r : Reg) : (d.bump r).evEnable = d.evEnable := by unfold Dev.bump; rw [Dev.bumpAt_evEnable]
@[simp] theorem Dev.bump_evRoute (d : Dev) (r : Reg) : (d.bump r).evRoute = d.evRoute := by unfold Dev.bump; rw [Dev.bumpAt_evRoute]
@[simp] theorem Dev.bump_arr (d : Dev) (r : Reg) : (d.bump r).arr = d.arr := by unfold Dev.bump; rw [Dev.bumpAt_arr]
@[simp] theorem Dev.bump_tk (d : Dev) (r : Reg) : (d.bump r).tk = d.tk := by unfold Dev.bump; rw [Dev.bumpAt_tk]
@[simp] theorem Dev.bump_trc (d : Dev) (r : Reg) : (d.bump r).trc = d.trc := by unfold Dev.bump; rw [Dev.bumpAt_trc]
@[simp] theorem Dev.bump_mg (d : Dev) (r : Reg) : (d.bump r).mg = d.mg := by unfold Dev.bump; rw [Dev.bumpAt_mg]
@[simp] theorem Dev.bump_ld (d : Dev) (r : Reg) : (d.bump r).ld = d.ld := by unfold Dev.bump; rw [Dev.bumpAt_ld]
@[simp] theorem Dev.bump_edge (d : Dev) (r : Reg) : (d.bump r).edge = d.edge := by unfold Dev.bump; rw [Dev.bumpAt_edge]
@[simp] theorem Dev.bump_pins (d : Dev) (r : Reg) : (d.bump r).pins = d.pins := by unfold Dev.bump; rw [Dev.bumpAt_pins]
@[simp] theorem Dev.bump_clk (d : Dev) (r : Reg) : (d.bump r).clk = d.clk := by unfold Dev.bump; rw [Dev.bumpAt_clk]
@[simp] theorem Dev.bump_ports (d : Dev) (r : Reg) : (d.bump r).ports = d.ports := by unfold Dev.bump; rw [Dev.bumpAt_ports]
@[simp] theorem Dev.bump_host (d : Dev) (r : Reg) : (d.bump r).host = d.host := by unfold Dev.bump; rw [Dev.bumpAt_host]
@[simp] theorem Dev.bump_ddr (d : Dev) (r : Reg) : (d.bump r).ddr = d.ddr := by unfold Dev.bump; rw [Dev.bumpAt_ddr]
@[simp] theorem Dev.bump_eng (d : Dev) (r : Reg) : (d.bump r).eng = d.eng := by unfold Dev.bump; rw [Dev.bumpAt_eng]
@[simp] theorem Dev.bump_net (d : Dev) (r : Reg) : (d.bump r).net = d.net := by unfold Dev.bump; rw [Dev.bumpAt_net]
@[simp] theorem Dev.bump_dbg (d : Dev) (r : Reg) : (d.bump r).dbg = d.dbg := by unfold Dev.bump; rw [Dev.bumpAt_dbg]
@[simp] theorem Dev.bump_out (d : Dev) (r : Reg) : (d.bump r).out = d.out := by unfold Dev.bump; rw [Dev.bumpAt_out]
@[simp] theorem Dev.bump_freeCtr (d : Dev) (r : Reg) : (d.bump r).freeCtr = d.freeCtr := by unfold Dev.bump; rw [Dev.bumpAt_freeCtr]

/-! A counter of the counter pages goes on. -/

@[simp] theorem Dev.count_part (d : Dev) (u k n : Nat) : (d.count u k n).part = d.part := by unfold Dev.count; rw [Dev.wrAt_part]
@[simp] theorem Dev.count_now (d : Dev) (u k n : Nat) : (d.count u k n).now = d.now := by unfold Dev.count; rw [Dev.wrAt_now]
@[simp] theorem Dev.count_mono (d : Dev) (u k n : Nat) : (d.count u k n).mono = d.mono := by unfold Dev.count; rw [Dev.wrAt_mono]
@[simp] theorem Dev.count_latch (d : Dev) (u k n : Nat) : (d.count u k n).latch = d.latch := by unfold Dev.count; rw [Dev.wrAt_latch]
@[simp] theorem Dev.count_mirrorLatch (d : Dev) (u k n : Nat) : (d.count u k n).mirrorLatch = d.mirrorLatch := by unfold Dev.count; rw [Dev.wrAt_mirrorLatch]
@[simp] theorem Dev.count_evRaised (d : Dev) (u k n : Nat) : (d.count u k n).evRaised = d.evRaised := by unfold Dev.count; rw [Dev.wrAt_evRaised]
@[simp] theorem Dev.count_evEnable (d : Dev) (u k n : Nat) : (d.count u k n).evEnable = d.evEnable := by unfold Dev.count; rw [Dev.wrAt_evEnable]
@[simp] theorem Dev.count_evRoute (d : Dev) (u k n : Nat) : (d.count u k n).evRoute = d.evRoute := by unfold Dev.count; rw [Dev.wrAt_evRoute]
@[simp] theorem Dev.count_arr (d : Dev) (u k n : Nat) : (d.count u k n).arr = d.arr := by unfold Dev.count; rw [Dev.wrAt_arr]
@[simp] theorem Dev.count_tk (d : Dev) (u k n : Nat) : (d.count u k n).tk = d.tk := by unfold Dev.count; rw [Dev.wrAt_tk]
@[simp] theorem Dev.count_trc (d : Dev) (u k n : Nat) : (d.count u k n).trc = d.trc := by unfold Dev.count; rw [Dev.wrAt_trc]
@[simp] theorem Dev.count_mg (d : Dev) (u k n : Nat) : (d.count u k n).mg = d.mg := by unfold Dev.count; rw [Dev.wrAt_mg]
@[simp] theorem Dev.count_ld (d : Dev) (u k n : Nat) : (d.count u k n).ld = d.ld := by unfold Dev.count; rw [Dev.wrAt_ld]
@[simp] theorem Dev.count_edge (d : Dev) (u k n : Nat) : (d.count u k n).edge = d.edge := by unfold Dev.count; rw [Dev.wrAt_edge]
@[simp] theorem Dev.count_pins (d : Dev) (u k n : Nat) : (d.count u k n).pins = d.pins := by unfold Dev.count; rw [Dev.wrAt_pins]
@[simp] theorem Dev.count_clk (d : Dev) (u k n : Nat) : (d.count u k n).clk = d.clk := by unfold Dev.count; rw [Dev.wrAt_clk]
@[simp] theorem Dev.count_ports (d : Dev) (u k n : Nat) : (d.count u k n).ports = d.ports := by unfold Dev.count; rw [Dev.wrAt_ports]
@[simp] theorem Dev.count_host (d : Dev) (u k n : Nat) : (d.count u k n).host = d.host := by unfold Dev.count; rw [Dev.wrAt_host]
@[simp] theorem Dev.count_ddr (d : Dev) (u k n : Nat) : (d.count u k n).ddr = d.ddr := by unfold Dev.count; rw [Dev.wrAt_ddr]
@[simp] theorem Dev.count_eng (d : Dev) (u k n : Nat) : (d.count u k n).eng = d.eng := by unfold Dev.count; rw [Dev.wrAt_eng]
@[simp] theorem Dev.count_net (d : Dev) (u k n : Nat) : (d.count u k n).net = d.net := by unfold Dev.count; rw [Dev.wrAt_net]
@[simp] theorem Dev.count_dbg (d : Dev) (u k n : Nat) : (d.count u k n).dbg = d.dbg := by unfold Dev.count; rw [Dev.wrAt_dbg]
@[simp] theorem Dev.count_out (d : Dev) (u k n : Nat) : (d.count u k n).out = d.out := by unfold Dev.count; rw [Dev.wrAt_out]
@[simp] theorem Dev.count_freeCtr (d : Dev) (u k n : Nat) : (d.count u k n).freeCtr = d.freeCtr := by unfold Dev.count; rw [Dev.wrAt_freeCtr]

/-! Something leaves the block. -/

@[simp] theorem Dev.emit_part (d : Dev) (o : Out) : (d.emit o).part = d.part := by unfold Dev.emit; rfl
@[simp] theorem Dev.emit_now (d : Dev) (o : Out) : (d.emit o).now = d.now := by unfold Dev.emit; rfl
@[simp] theorem Dev.emit_mono (d : Dev) (o : Out) : (d.emit o).mono = d.mono := by unfold Dev.emit; rfl
@[simp] theorem Dev.emit_regs (d : Dev) (o : Out) : (d.emit o).regs = d.regs := by unfold Dev.emit; rfl
@[simp] theorem Dev.emit_latch (d : Dev) (o : Out) : (d.emit o).latch = d.latch := by unfold Dev.emit; rfl
@[simp] theorem Dev.emit_mirrorLatch (d : Dev) (o : Out) : (d.emit o).mirrorLatch = d.mirrorLatch := by unfold Dev.emit; rfl
@[simp] theorem Dev.emit_evRaised (d : Dev) (o : Out) : (d.emit o).evRaised = d.evRaised := by unfold Dev.emit; rfl
@[simp] theorem Dev.emit_evEnable (d : Dev) (o : Out) : (d.emit o).evEnable = d.evEnable := by unfold Dev.emit; rfl
@[simp] theorem Dev.emit_evRoute (d : Dev) (o : Out) : (d.emit o).evRoute = d.evRoute := by unfold Dev.emit; rfl
@[simp] theorem Dev.emit_arr (d : Dev) (o : Out) : (d.emit o).arr = d.arr := by unfold Dev.emit; rfl
@[simp] theorem Dev.emit_tk (d : Dev) (o : Out) : (d.emit o).tk = d.tk := by unfold Dev.emit; rfl
@[simp] theorem Dev.emit_trc (d : Dev) (o : Out) : (d.emit o).trc = d.trc := by unfold Dev.emit; rfl
@[simp] theorem Dev.emit_mg (d : Dev) (o : Out) : (d.emit o).mg = d.mg := by unfold Dev.emit; rfl
@[simp] theorem Dev.emit_ld (d : Dev) (o : Out) : (d.emit o).ld = d.ld := by unfold Dev.emit; rfl
@[simp] theorem Dev.emit_edge (d : Dev) (o : Out) : (d.emit o).edge = d.edge := by unfold Dev.emit; rfl
@[simp] theorem Dev.emit_pins (d : Dev) (o : Out) : (d.emit o).pins = d.pins := by unfold Dev.emit; rfl
@[simp] theorem Dev.emit_clk (d : Dev) (o : Out) : (d.emit o).clk = d.clk := by unfold Dev.emit; rfl
@[simp] theorem Dev.emit_ports (d : Dev) (o : Out) : (d.emit o).ports = d.ports := by unfold Dev.emit; rfl
@[simp] theorem Dev.emit_host (d : Dev) (o : Out) : (d.emit o).host = d.host := by unfold Dev.emit; rfl
@[simp] theorem Dev.emit_ddr (d : Dev) (o : Out) : (d.emit o).ddr = d.ddr := by unfold Dev.emit; rfl
@[simp] theorem Dev.emit_eng (d : Dev) (o : Out) : (d.emit o).eng = d.eng := by unfold Dev.emit; rfl
@[simp] theorem Dev.emit_net (d : Dev) (o : Out) : (d.emit o).net = d.net := by unfold Dev.emit; rfl
@[simp] theorem Dev.emit_dbg (d : Dev) (o : Out) : (d.emit o).dbg = d.dbg := by unfold Dev.emit; rfl
@[simp] theorem Dev.emit_freeCtr (d : Dev) (o : Out) : (d.emit o).freeCtr = d.freeCtr := by unfold Dev.emit; rfl

/-! Time passes, no correction of device time falling due. -/

@[simp] theorem Dev.elapse_part (d : Dev) (dt : Nat) : (d.elapse dt).part = d.part := by unfold Dev.elapse; rfl
@[simp] theorem Dev.elapse_regs (d : Dev) (dt : Nat) : (d.elapse dt).regs = d.regs := by unfold Dev.elapse; rfl
@[simp] theorem Dev.elapse_latch (d : Dev) (dt : Nat) : (d.elapse dt).latch = d.latch := by unfold Dev.elapse; rfl
@[simp] theorem Dev.elapse_mirrorLatch (d : Dev) (dt : Nat) : (d.elapse dt).mirrorLatch = d.mirrorLatch := by unfold Dev.elapse; rfl
@[simp] theorem Dev.elapse_evRaised (d : Dev) (dt : Nat) : (d.elapse dt).evRaised = d.evRaised := by unfold Dev.elapse; rfl
@[simp] theorem Dev.elapse_evEnable (d : Dev) (dt : Nat) : (d.elapse dt).evEnable = d.evEnable := by unfold Dev.elapse; rfl
@[simp] theorem Dev.elapse_evRoute (d : Dev) (dt : Nat) : (d.elapse dt).evRoute = d.evRoute := by unfold Dev.elapse; rfl
@[simp] theorem Dev.elapse_arr (d : Dev) (dt : Nat) : (d.elapse dt).arr = d.arr := by unfold Dev.elapse; rfl
@[simp] theorem Dev.elapse_trc (d : Dev) (dt : Nat) : (d.elapse dt).trc = d.trc := by unfold Dev.elapse; rfl
@[simp] theorem Dev.elapse_mg (d : Dev) (dt : Nat) : (d.elapse dt).mg = d.mg := by unfold Dev.elapse; rfl
@[simp] theorem Dev.elapse_ld (d : Dev) (dt : Nat) : (d.elapse dt).ld = d.ld := by unfold Dev.elapse; rfl
@[simp] theorem Dev.elapse_edge (d : Dev) (dt : Nat) : (d.elapse dt).edge = d.edge := by unfold Dev.elapse; rfl
@[simp] theorem Dev.elapse_pins (d : Dev) (dt : Nat) : (d.elapse dt).pins = d.pins := by unfold Dev.elapse; rfl
@[simp] theorem Dev.elapse_ports (d : Dev) (dt : Nat) : (d.elapse dt).ports = d.ports := by unfold Dev.elapse; rfl
@[simp] theorem Dev.elapse_host (d : Dev) (dt : Nat) : (d.elapse dt).host = d.host := by unfold Dev.elapse; rfl
@[simp] theorem Dev.elapse_ddr (d : Dev) (dt : Nat) : (d.elapse dt).ddr = d.ddr := by unfold Dev.elapse; rfl
@[simp] theorem Dev.elapse_eng (d : Dev) (dt : Nat) : (d.elapse dt).eng = d.eng := by unfold Dev.elapse; rfl
@[simp] theorem Dev.elapse_net (d : Dev) (dt : Nat) : (d.elapse dt).net = d.net := by unfold Dev.elapse; rfl
@[simp] theorem Dev.elapse_dbg (d : Dev) (dt : Nat) : (d.elapse dt).dbg = d.dbg := by unfold Dev.elapse; rfl
@[simp] theorem Dev.elapse_out (d : Dev) (dt : Nat) : (d.elapse dt).out = d.out := by unfold Dev.elapse; rfl
@[simp] theorem Dev.elapse_freeCtr (d : Dev) (dt : Nat) : (d.elapse dt).freeCtr = d.freeCtr := by unfold Dev.elapse; rfl

/-! A correction of device time is made. -/

@[simp] theorem Dev.makeJump_part (d : Dev) (j : Jump) : (d.makeJump j).part = d.part := by unfold Dev.makeJump; rfl
@[simp] theorem Dev.makeJump_mono (d : Dev) (j : Jump) : (d.makeJump j).mono = d.mono := by unfold Dev.makeJump; rfl
@[simp] theorem Dev.makeJump_regs (d : Dev) (j : Jump) : (d.makeJump j).regs = d.regs := by unfold Dev.makeJump; rfl
@[simp] theorem Dev.makeJump_latch (d : Dev) (j : Jump) : (d.makeJump j).latch = d.latch := by unfold Dev.makeJump; rfl
@[simp] theorem Dev.makeJump_mirrorLatch (d : Dev) (j : Jump) : (d.makeJump j).mirrorLatch = d.mirrorLatch := by unfold Dev.makeJump; rfl
@[simp] theorem Dev.makeJump_evRaised (d : Dev) (j : Jump) : (d.makeJump j).evRaised = d.evRaised := by unfold Dev.makeJump; rfl
@[simp] theorem Dev.makeJump_evEnable (d : Dev) (j : Jump) : (d.makeJump j).evEnable = d.evEnable := by unfold Dev.makeJump; rfl
@[simp] theorem Dev.makeJump_evRoute (d : Dev) (j : Jump) : (d.makeJump j).evRoute = d.evRoute := by unfold Dev.makeJump; rfl
@[simp] theorem Dev.makeJump_arr (d : Dev) (j : Jump) : (d.makeJump j).arr = d.arr := by unfold Dev.makeJump; rfl
@[simp] theorem Dev.makeJump_tk (d : Dev) (j : Jump) : (d.makeJump j).tk = d.tk := by unfold Dev.makeJump; rfl
@[simp] theorem Dev.makeJump_trc (d : Dev) (j : Jump) : (d.makeJump j).trc = d.trc := by unfold Dev.makeJump; rfl
@[simp] theorem Dev.makeJump_mg (d : Dev) (j : Jump) : (d.makeJump j).mg = d.mg := by unfold Dev.makeJump; rfl
@[simp] theorem Dev.makeJump_ld (d : Dev) (j : Jump) : (d.makeJump j).ld = d.ld := by unfold Dev.makeJump; rfl
@[simp] theorem Dev.makeJump_edge (d : Dev) (j : Jump) : (d.makeJump j).edge = d.edge := by unfold Dev.makeJump; rfl
@[simp] theorem Dev.makeJump_pins (d : Dev) (j : Jump) : (d.makeJump j).pins = d.pins := by unfold Dev.makeJump; rfl
@[simp] theorem Dev.makeJump_ports (d : Dev) (j : Jump) : (d.makeJump j).ports = d.ports := by unfold Dev.makeJump; rfl
@[simp] theorem Dev.makeJump_host (d : Dev) (j : Jump) : (d.makeJump j).host = d.host := by unfold Dev.makeJump; rfl
@[simp] theorem Dev.makeJump_ddr (d : Dev) (j : Jump) : (d.makeJump j).ddr = d.ddr := by unfold Dev.makeJump; rfl
@[simp] theorem Dev.makeJump_eng (d : Dev) (j : Jump) : (d.makeJump j).eng = d.eng := by unfold Dev.makeJump; rfl
@[simp] theorem Dev.makeJump_net (d : Dev) (j : Jump) : (d.makeJump j).net = d.net := by unfold Dev.makeJump; rfl
@[simp] theorem Dev.makeJump_dbg (d : Dev) (j : Jump) : (d.makeJump j).dbg = d.dbg := by unfold Dev.makeJump; rfl
@[simp] theorem Dev.makeJump_out (d : Dev) (j : Jump) : (d.makeJump j).out = d.out := by unfold Dev.makeJump; rfl
@[simp] theorem Dev.makeJump_freeCtr (d : Dev) (j : Jump) : (d.makeJump j).freeCtr = d.freeCtr := by unfold Dev.makeJump; rfl

/-! Device time reaches a correction that falls due. -/

@[simp] theorem Dev.passJump_part (d : Dev) (dt : Nat) : (d.passJump dt).part = d.part := by unfold Dev.passJump; split <;> (try split) <;> simp only [Dev.makeJump_part, Dev.elapse_part]
@[simp] theorem Dev.passJump_regs (d : Dev) (dt : Nat) : (d.passJump dt).regs = d.regs := by unfold Dev.passJump; split <;> (try split) <;> simp only [Dev.makeJump_regs, Dev.elapse_regs]
@[simp] theorem Dev.passJump_latch (d : Dev) (dt : Nat) : (d.passJump dt).latch = d.latch := by unfold Dev.passJump; split <;> (try split) <;> simp only [Dev.makeJump_latch, Dev.elapse_latch]
@[simp] theorem Dev.passJump_mirrorLatch (d : Dev) (dt : Nat) : (d.passJump dt).mirrorLatch = d.mirrorLatch := by unfold Dev.passJump; split <;> (try split) <;> simp only [Dev.makeJump_mirrorLatch, Dev.elapse_mirrorLatch]
@[simp] theorem Dev.passJump_evRaised (d : Dev) (dt : Nat) : (d.passJump dt).evRaised = d.evRaised := by unfold Dev.passJump; split <;> (try split) <;> simp only [Dev.makeJump_evRaised, Dev.elapse_evRaised]
@[simp] theorem Dev.passJump_evEnable (d : Dev) (dt : Nat) : (d.passJump dt).evEnable = d.evEnable := by unfold Dev.passJump; split <;> (try split) <;> simp only [Dev.makeJump_evEnable, Dev.elapse_evEnable]
@[simp] theorem Dev.passJump_evRoute (d : Dev) (dt : Nat) : (d.passJump dt).evRoute = d.evRoute := by unfold Dev.passJump; split <;> (try split) <;> simp only [Dev.makeJump_evRoute, Dev.elapse_evRoute]
@[simp] theorem Dev.passJump_arr (d : Dev) (dt : Nat) : (d.passJump dt).arr = d.arr := by unfold Dev.passJump; split <;> (try split) <;> simp only [Dev.makeJump_arr, Dev.elapse_arr]
@[simp] theorem Dev.passJump_trc (d : Dev) (dt : Nat) : (d.passJump dt).trc = d.trc := by unfold Dev.passJump; split <;> (try split) <;> simp only [Dev.makeJump_trc, Dev.elapse_trc]
@[simp] theorem Dev.passJump_mg (d : Dev) (dt : Nat) : (d.passJump dt).mg = d.mg := by unfold Dev.passJump; split <;> (try split) <;> simp only [Dev.makeJump_mg, Dev.elapse_mg]
@[simp] theorem Dev.passJump_ld (d : Dev) (dt : Nat) : (d.passJump dt).ld = d.ld := by unfold Dev.passJump; split <;> (try split) <;> simp only [Dev.makeJump_ld, Dev.elapse_ld]
@[simp] theorem Dev.passJump_edge (d : Dev) (dt : Nat) : (d.passJump dt).edge = d.edge := by unfold Dev.passJump; split <;> (try split) <;> simp only [Dev.makeJump_edge, Dev.elapse_edge]
@[simp] theorem Dev.passJump_pins (d : Dev) (dt : Nat) : (d.passJump dt).pins = d.pins := by unfold Dev.passJump; split <;> (try split) <;> simp only [Dev.makeJump_pins, Dev.elapse_pins]
@[simp] theorem Dev.passJump_ports (d : Dev) (dt : Nat) : (d.passJump dt).ports = d.ports := by unfold Dev.passJump; split <;> (try split) <;> simp only [Dev.makeJump_ports, Dev.elapse_ports]
@[simp] theorem Dev.passJump_host (d : Dev) (dt : Nat) : (d.passJump dt).host = d.host := by unfold Dev.passJump; split <;> (try split) <;> simp only [Dev.makeJump_host, Dev.elapse_host]
@[simp] theorem Dev.passJump_ddr (d : Dev) (dt : Nat) : (d.passJump dt).ddr = d.ddr := by unfold Dev.passJump; split <;> (try split) <;> simp only [Dev.makeJump_ddr, Dev.elapse_ddr]
@[simp] theorem Dev.passJump_eng (d : Dev) (dt : Nat) : (d.passJump dt).eng = d.eng := by unfold Dev.passJump; split <;> (try split) <;> simp only [Dev.makeJump_eng, Dev.elapse_eng]
@[simp] theorem Dev.passJump_net (d : Dev) (dt : Nat) : (d.passJump dt).net = d.net := by unfold Dev.passJump; split <;> (try split) <;> simp only [Dev.makeJump_net, Dev.elapse_net]
@[simp] theorem Dev.passJump_dbg (d : Dev) (dt : Nat) : (d.passJump dt).dbg = d.dbg := by unfold Dev.passJump; split <;> (try split) <;> simp only [Dev.makeJump_dbg, Dev.elapse_dbg]
@[simp] theorem Dev.passJump_out (d : Dev) (dt : Nat) : (d.passJump dt).out = d.out := by unfold Dev.passJump; split <;> (try split) <;> simp only [Dev.makeJump_out, Dev.elapse_out]
@[simp] theorem Dev.passJump_freeCtr (d : Dev) (dt : Nat) : (d.passJump dt).freeCtr = d.freeCtr := by unfold Dev.passJump; split <;> (try split) <;> simp only [Dev.makeJump_freeCtr, Dev.elapse_freeCtr]

/-! Device time goes on. -/

@[simp] theorem Dev.advance_part (d : Dev) (dt : Nat) : (d.advance dt).part = d.part := by unfold Dev.advance; rw [Dev.elapse_part, Dev.passJump_part]
@[simp] theorem Dev.advance_regs (d : Dev) (dt : Nat) : (d.advance dt).regs = d.regs := by unfold Dev.advance; rw [Dev.elapse_regs, Dev.passJump_regs]
@[simp] theorem Dev.advance_latch (d : Dev) (dt : Nat) : (d.advance dt).latch = d.latch := by unfold Dev.advance; rw [Dev.elapse_latch, Dev.passJump_latch]
@[simp] theorem Dev.advance_mirrorLatch (d : Dev) (dt : Nat) : (d.advance dt).mirrorLatch = d.mirrorLatch := by unfold Dev.advance; rw [Dev.elapse_mirrorLatch, Dev.passJump_mirrorLatch]
@[simp] theorem Dev.advance_evRaised (d : Dev) (dt : Nat) : (d.advance dt).evRaised = d.evRaised := by unfold Dev.advance; rw [Dev.elapse_evRaised, Dev.passJump_evRaised]
@[simp] theorem Dev.advance_evEnable (d : Dev) (dt : Nat) : (d.advance dt).evEnable = d.evEnable := by unfold Dev.advance; rw [Dev.elapse_evEnable, Dev.passJump_evEnable]
@[simp] theorem Dev.advance_evRoute (d : Dev) (dt : Nat) : (d.advance dt).evRoute = d.evRoute := by unfold Dev.advance; rw [Dev.elapse_evRoute, Dev.passJump_evRoute]
@[simp] theorem Dev.advance_arr (d : Dev) (dt : Nat) : (d.advance dt).arr = d.arr := by unfold Dev.advance; rw [Dev.elapse_arr, Dev.passJump_arr]
@[simp] theorem Dev.advance_trc (d : Dev) (dt : Nat) : (d.advance dt).trc = d.trc := by unfold Dev.advance; rw [Dev.elapse_trc, Dev.passJump_trc]
@[simp] theorem Dev.advance_mg (d : Dev) (dt : Nat) : (d.advance dt).mg = d.mg := by unfold Dev.advance; rw [Dev.elapse_mg, Dev.passJump_mg]
@[simp] theorem Dev.advance_ld (d : Dev) (dt : Nat) : (d.advance dt).ld = d.ld := by unfold Dev.advance; rw [Dev.elapse_ld, Dev.passJump_ld]
@[simp] theorem Dev.advance_edge (d : Dev) (dt : Nat) : (d.advance dt).edge = d.edge := by unfold Dev.advance; rw [Dev.elapse_edge, Dev.passJump_edge]
@[simp] theorem Dev.advance_pins (d : Dev) (dt : Nat) : (d.advance dt).pins = d.pins := by unfold Dev.advance; rw [Dev.elapse_pins, Dev.passJump_pins]
@[simp] theorem Dev.advance_ports (d : Dev) (dt : Nat) : (d.advance dt).ports = d.ports := by unfold Dev.advance; rw [Dev.elapse_ports, Dev.passJump_ports]
@[simp] theorem Dev.advance_host (d : Dev) (dt : Nat) : (d.advance dt).host = d.host := by unfold Dev.advance; rw [Dev.elapse_host, Dev.passJump_host]
@[simp] theorem Dev.advance_ddr (d : Dev) (dt : Nat) : (d.advance dt).ddr = d.ddr := by unfold Dev.advance; rw [Dev.elapse_ddr, Dev.passJump_ddr]
@[simp] theorem Dev.advance_eng (d : Dev) (dt : Nat) : (d.advance dt).eng = d.eng := by unfold Dev.advance; rw [Dev.elapse_eng, Dev.passJump_eng]
@[simp] theorem Dev.advance_net (d : Dev) (dt : Nat) : (d.advance dt).net = d.net := by unfold Dev.advance; rw [Dev.elapse_net, Dev.passJump_net]
@[simp] theorem Dev.advance_dbg (d : Dev) (dt : Nat) : (d.advance dt).dbg = d.dbg := by unfold Dev.advance; rw [Dev.elapse_dbg, Dev.passJump_dbg]
@[simp] theorem Dev.advance_out (d : Dev) (dt : Nat) : (d.advance dt).out = d.out := by unfold Dev.advance; rw [Dev.elapse_out, Dev.passJump_out]
@[simp] theorem Dev.advance_freeCtr (d : Dev) (dt : Nat) : (d.advance dt).freeCtr = d.freeCtr := by unfold Dev.advance; rw [Dev.elapse_freeCtr, Dev.passJump_freeCtr]

/-! Device time reaches a stamp. -/

@[simp] theorem Dev.toTime_part (d : Dev) (t : Nat) : (d.toTime t).part = d.part := by unfold Dev.toTime; simp only [Dev.elapse_part, Dev.passJump_part]
@[simp] theorem Dev.toTime_regs (d : Dev) (t : Nat) : (d.toTime t).regs = d.regs := by unfold Dev.toTime; simp only [Dev.elapse_regs, Dev.passJump_regs]
@[simp] theorem Dev.toTime_latch (d : Dev) (t : Nat) : (d.toTime t).latch = d.latch := by unfold Dev.toTime; simp only [Dev.elapse_latch, Dev.passJump_latch]
@[simp] theorem Dev.toTime_mirrorLatch (d : Dev) (t : Nat) : (d.toTime t).mirrorLatch = d.mirrorLatch := by unfold Dev.toTime; simp only [Dev.elapse_mirrorLatch, Dev.passJump_mirrorLatch]
@[simp] theorem Dev.toTime_evRaised (d : Dev) (t : Nat) : (d.toTime t).evRaised = d.evRaised := by unfold Dev.toTime; simp only [Dev.elapse_evRaised, Dev.passJump_evRaised]
@[simp] theorem Dev.toTime_evEnable (d : Dev) (t : Nat) : (d.toTime t).evEnable = d.evEnable := by unfold Dev.toTime; simp only [Dev.elapse_evEnable, Dev.passJump_evEnable]
@[simp] theorem Dev.toTime_evRoute (d : Dev) (t : Nat) : (d.toTime t).evRoute = d.evRoute := by unfold Dev.toTime; simp only [Dev.elapse_evRoute, Dev.passJump_evRoute]
@[simp] theorem Dev.toTime_arr (d : Dev) (t : Nat) : (d.toTime t).arr = d.arr := by unfold Dev.toTime; simp only [Dev.elapse_arr, Dev.passJump_arr]
@[simp] theorem Dev.toTime_trc (d : Dev) (t : Nat) : (d.toTime t).trc = d.trc := by unfold Dev.toTime; simp only [Dev.elapse_trc, Dev.passJump_trc]
@[simp] theorem Dev.toTime_mg (d : Dev) (t : Nat) : (d.toTime t).mg = d.mg := by unfold Dev.toTime; simp only [Dev.elapse_mg, Dev.passJump_mg]
@[simp] theorem Dev.toTime_ld (d : Dev) (t : Nat) : (d.toTime t).ld = d.ld := by unfold Dev.toTime; simp only [Dev.elapse_ld, Dev.passJump_ld]
@[simp] theorem Dev.toTime_edge (d : Dev) (t : Nat) : (d.toTime t).edge = d.edge := by unfold Dev.toTime; simp only [Dev.elapse_edge, Dev.passJump_edge]
@[simp] theorem Dev.toTime_pins (d : Dev) (t : Nat) : (d.toTime t).pins = d.pins := by unfold Dev.toTime; simp only [Dev.elapse_pins, Dev.passJump_pins]
@[simp] theorem Dev.toTime_ports (d : Dev) (t : Nat) : (d.toTime t).ports = d.ports := by unfold Dev.toTime; simp only [Dev.elapse_ports, Dev.passJump_ports]
@[simp] theorem Dev.toTime_host (d : Dev) (t : Nat) : (d.toTime t).host = d.host := by unfold Dev.toTime; simp only [Dev.elapse_host, Dev.passJump_host]
@[simp] theorem Dev.toTime_ddr (d : Dev) (t : Nat) : (d.toTime t).ddr = d.ddr := by unfold Dev.toTime; simp only [Dev.elapse_ddr, Dev.passJump_ddr]
@[simp] theorem Dev.toTime_eng (d : Dev) (t : Nat) : (d.toTime t).eng = d.eng := by unfold Dev.toTime; simp only [Dev.elapse_eng, Dev.passJump_eng]
@[simp] theorem Dev.toTime_net (d : Dev) (t : Nat) : (d.toTime t).net = d.net := by unfold Dev.toTime; simp only [Dev.elapse_net, Dev.passJump_net]
@[simp] theorem Dev.toTime_dbg (d : Dev) (t : Nat) : (d.toTime t).dbg = d.dbg := by unfold Dev.toTime; simp only [Dev.elapse_dbg, Dev.passJump_dbg]
@[simp] theorem Dev.toTime_out (d : Dev) (t : Nat) : (d.toTime t).out = d.out := by unfold Dev.toTime; simp only [Dev.elapse_out, Dev.passJump_out]
@[simp] theorem Dev.toTime_freeCtr (d : Dev) (t : Nat) : (d.toTime t).freeCtr = d.freeCtr := by unfold Dev.toTime; simp only [Dev.elapse_freeCtr, Dev.passJump_freeCtr]

/-! A step-clock cycle. -/

@[simp] theorem Dev.cycle_part (d : Dev) : (d.cycle).part = d.part := by unfold Dev.cycle; rw [Dev.advance_part]
@[simp] theorem Dev.cycle_regs (d : Dev) : (d.cycle).regs = d.regs := by unfold Dev.cycle; rw [Dev.advance_regs]
@[simp] theorem Dev.cycle_latch (d : Dev) : (d.cycle).latch = d.latch := by unfold Dev.cycle; rw [Dev.advance_latch]
@[simp] theorem Dev.cycle_mirrorLatch (d : Dev) : (d.cycle).mirrorLatch = d.mirrorLatch := by unfold Dev.cycle; rw [Dev.advance_mirrorLatch]
@[simp] theorem Dev.cycle_evRaised (d : Dev) : (d.cycle).evRaised = d.evRaised := by unfold Dev.cycle; rw [Dev.advance_evRaised]
@[simp] theorem Dev.cycle_evEnable (d : Dev) : (d.cycle).evEnable = d.evEnable := by unfold Dev.cycle; rw [Dev.advance_evEnable]
@[simp] theorem Dev.cycle_evRoute (d : Dev) : (d.cycle).evRoute = d.evRoute := by unfold Dev.cycle; rw [Dev.advance_evRoute]
@[simp] theorem Dev.cycle_arr (d : Dev) : (d.cycle).arr = d.arr := by unfold Dev.cycle; rw [Dev.advance_arr]
@[simp] theorem Dev.cycle_trc (d : Dev) : (d.cycle).trc = d.trc := by unfold Dev.cycle; rw [Dev.advance_trc]
@[simp] theorem Dev.cycle_mg (d : Dev) : (d.cycle).mg = d.mg := by unfold Dev.cycle; rw [Dev.advance_mg]
@[simp] theorem Dev.cycle_ld (d : Dev) : (d.cycle).ld = d.ld := by unfold Dev.cycle; rw [Dev.advance_ld]
@[simp] theorem Dev.cycle_edge (d : Dev) : (d.cycle).edge = d.edge := by unfold Dev.cycle; rw [Dev.advance_edge]
@[simp] theorem Dev.cycle_pins (d : Dev) : (d.cycle).pins = d.pins := by unfold Dev.cycle; rw [Dev.advance_pins]
@[simp] theorem Dev.cycle_ports (d : Dev) : (d.cycle).ports = d.ports := by unfold Dev.cycle; rw [Dev.advance_ports]
@[simp] theorem Dev.cycle_host (d : Dev) : (d.cycle).host = d.host := by unfold Dev.cycle; rw [Dev.advance_host]
@[simp] theorem Dev.cycle_ddr (d : Dev) : (d.cycle).ddr = d.ddr := by unfold Dev.cycle; rw [Dev.advance_ddr]
@[simp] theorem Dev.cycle_eng (d : Dev) : (d.cycle).eng = d.eng := by unfold Dev.cycle; rw [Dev.advance_eng]
@[simp] theorem Dev.cycle_net (d : Dev) : (d.cycle).net = d.net := by unfold Dev.cycle; rw [Dev.advance_net]
@[simp] theorem Dev.cycle_dbg (d : Dev) : (d.cycle).dbg = d.dbg := by unfold Dev.cycle; rw [Dev.advance_dbg]
@[simp] theorem Dev.cycle_out (d : Dev) : (d.cycle).out = d.out := by unfold Dev.cycle; rw [Dev.advance_out]
@[simp] theorem Dev.cycle_freeCtr (d : Dev) : (d.cycle).freeCtr = d.freeCtr := by unfold Dev.cycle; rw [Dev.advance_freeCtr]

/-! A port changes. -/

@[simp] theorem Dev.setPort_part (d : Dev) (p : Nat) (f : Port → Port) : (d.setPort p f).part = d.part := by unfold Dev.setPort; rfl
@[simp] theorem Dev.setPort_now (d : Dev) (p : Nat) (f : Port → Port) : (d.setPort p f).now = d.now := by unfold Dev.setPort; rfl
@[simp] theorem Dev.setPort_mono (d : Dev) (p : Nat) (f : Port → Port) : (d.setPort p f).mono = d.mono := by unfold Dev.setPort; rfl
@[simp] theorem Dev.setPort_regs (d : Dev) (p : Nat) (f : Port → Port) : (d.setPort p f).regs = d.regs := by unfold Dev.setPort; rfl
@[simp] theorem Dev.setPort_latch (d : Dev) (p : Nat) (f : Port → Port) : (d.setPort p f).latch = d.latch := by unfold Dev.setPort; rfl
@[simp] theorem Dev.setPort_mirrorLatch (d : Dev) (p : Nat) (f : Port → Port) : (d.setPort p f).mirrorLatch = d.mirrorLatch := by unfold Dev.setPort; rfl
@[simp] theorem Dev.setPort_evRaised (d : Dev) (p : Nat) (f : Port → Port) : (d.setPort p f).evRaised = d.evRaised := by unfold Dev.setPort; rfl
@[simp] theorem Dev.setPort_evEnable (d : Dev) (p : Nat) (f : Port → Port) : (d.setPort p f).evEnable = d.evEnable := by unfold Dev.setPort; rfl
@[simp] theorem Dev.setPort_evRoute (d : Dev) (p : Nat) (f : Port → Port) : (d.setPort p f).evRoute = d.evRoute := by unfold Dev.setPort; rfl
@[simp] theorem Dev.setPort_arr (d : Dev) (p : Nat) (f : Port → Port) : (d.setPort p f).arr = d.arr := by unfold Dev.setPort; rfl
@[simp] theorem Dev.setPort_tk (d : Dev) (p : Nat) (f : Port → Port) : (d.setPort p f).tk = d.tk := by unfold Dev.setPort; rfl
@[simp] theorem Dev.setPort_trc (d : Dev) (p : Nat) (f : Port → Port) : (d.setPort p f).trc = d.trc := by unfold Dev.setPort; rfl
@[simp] theorem Dev.setPort_mg (d : Dev) (p : Nat) (f : Port → Port) : (d.setPort p f).mg = d.mg := by unfold Dev.setPort; rfl
@[simp] theorem Dev.setPort_ld (d : Dev) (p : Nat) (f : Port → Port) : (d.setPort p f).ld = d.ld := by unfold Dev.setPort; rfl
@[simp] theorem Dev.setPort_edge (d : Dev) (p : Nat) (f : Port → Port) : (d.setPort p f).edge = d.edge := by unfold Dev.setPort; rfl
@[simp] theorem Dev.setPort_pins (d : Dev) (p : Nat) (f : Port → Port) : (d.setPort p f).pins = d.pins := by unfold Dev.setPort; rfl
@[simp] theorem Dev.setPort_clk (d : Dev) (p : Nat) (f : Port → Port) : (d.setPort p f).clk = d.clk := by unfold Dev.setPort; rfl
@[simp] theorem Dev.setPort_host (d : Dev) (p : Nat) (f : Port → Port) : (d.setPort p f).host = d.host := by unfold Dev.setPort; rfl
@[simp] theorem Dev.setPort_ddr (d : Dev) (p : Nat) (f : Port → Port) : (d.setPort p f).ddr = d.ddr := by unfold Dev.setPort; rfl
@[simp] theorem Dev.setPort_eng (d : Dev) (p : Nat) (f : Port → Port) : (d.setPort p f).eng = d.eng := by unfold Dev.setPort; rfl
@[simp] theorem Dev.setPort_net (d : Dev) (p : Nat) (f : Port → Port) : (d.setPort p f).net = d.net := by unfold Dev.setPort; rfl
@[simp] theorem Dev.setPort_dbg (d : Dev) (p : Nat) (f : Port → Port) : (d.setPort p f).dbg = d.dbg := by unfold Dev.setPort; rfl
@[simp] theorem Dev.setPort_out (d : Dev) (p : Nat) (f : Port → Port) : (d.setPort p f).out = d.out := by unfold Dev.setPort; rfl
@[simp] theorem Dev.setPort_freeCtr (d : Dev) (p : Nat) (f : Port → Port) : (d.setPort p f).freeCtr = d.freeCtr := by unfold Dev.setPort; rfl

/-! Faults of a step are gathered. -/

@[simp] theorem Dev.addFaults_part (d : Dev) (fs : List FRec) : (d.addFaults fs).part = d.part := by unfold Dev.addFaults; rfl
@[simp] theorem Dev.addFaults_now (d : Dev) (fs : List FRec) : (d.addFaults fs).now = d.now := by unfold Dev.addFaults; rfl
@[simp] theorem Dev.addFaults_mono (d : Dev) (fs : List FRec) : (d.addFaults fs).mono = d.mono := by unfold Dev.addFaults; rfl
@[simp] theorem Dev.addFaults_regs (d : Dev) (fs : List FRec) : (d.addFaults fs).regs = d.regs := by unfold Dev.addFaults; rfl
@[simp] theorem Dev.addFaults_latch (d : Dev) (fs : List FRec) : (d.addFaults fs).latch = d.latch := by unfold Dev.addFaults; rfl
@[simp] theorem Dev.addFaults_mirrorLatch (d : Dev) (fs : List FRec) : (d.addFaults fs).mirrorLatch = d.mirrorLatch := by unfold Dev.addFaults; rfl
@[simp] theorem Dev.addFaults_evRaised (d : Dev) (fs : List FRec) : (d.addFaults fs).evRaised = d.evRaised := by unfold Dev.addFaults; rfl
@[simp] theorem Dev.addFaults_evEnable (d : Dev) (fs : List FRec) : (d.addFaults fs).evEnable = d.evEnable := by unfold Dev.addFaults; rfl
@[simp] theorem Dev.addFaults_evRoute (d : Dev) (fs : List FRec) : (d.addFaults fs).evRoute = d.evRoute := by unfold Dev.addFaults; rfl
@[simp] theorem Dev.addFaults_arr (d : Dev) (fs : List FRec) : (d.addFaults fs).arr = d.arr := by unfold Dev.addFaults; rfl
@[simp] theorem Dev.addFaults_trc (d : Dev) (fs : List FRec) : (d.addFaults fs).trc = d.trc := by unfold Dev.addFaults; rfl
@[simp] theorem Dev.addFaults_mg (d : Dev) (fs : List FRec) : (d.addFaults fs).mg = d.mg := by unfold Dev.addFaults; rfl
@[simp] theorem Dev.addFaults_ld (d : Dev) (fs : List FRec) : (d.addFaults fs).ld = d.ld := by unfold Dev.addFaults; rfl
@[simp] theorem Dev.addFaults_edge (d : Dev) (fs : List FRec) : (d.addFaults fs).edge = d.edge := by unfold Dev.addFaults; rfl
@[simp] theorem Dev.addFaults_pins (d : Dev) (fs : List FRec) : (d.addFaults fs).pins = d.pins := by unfold Dev.addFaults; rfl
@[simp] theorem Dev.addFaults_clk (d : Dev) (fs : List FRec) : (d.addFaults fs).clk = d.clk := by unfold Dev.addFaults; rfl
@[simp] theorem Dev.addFaults_ports (d : Dev) (fs : List FRec) : (d.addFaults fs).ports = d.ports := by unfold Dev.addFaults; rfl
@[simp] theorem Dev.addFaults_host (d : Dev) (fs : List FRec) : (d.addFaults fs).host = d.host := by unfold Dev.addFaults; rfl
@[simp] theorem Dev.addFaults_ddr (d : Dev) (fs : List FRec) : (d.addFaults fs).ddr = d.ddr := by unfold Dev.addFaults; rfl
@[simp] theorem Dev.addFaults_eng (d : Dev) (fs : List FRec) : (d.addFaults fs).eng = d.eng := by unfold Dev.addFaults; rfl
@[simp] theorem Dev.addFaults_net (d : Dev) (fs : List FRec) : (d.addFaults fs).net = d.net := by unfold Dev.addFaults; rfl
@[simp] theorem Dev.addFaults_dbg (d : Dev) (fs : List FRec) : (d.addFaults fs).dbg = d.dbg := by unfold Dev.addFaults; rfl
@[simp] theorem Dev.addFaults_out (d : Dev) (fs : List FRec) : (d.addFaults fs).out = d.out := by unfold Dev.addFaults; rfl
@[simp] theorem Dev.addFaults_freeCtr (d : Dev) (fs : List FRec) : (d.addFaults fs).freeCtr = d.freeCtr := by unfold Dev.addFaults; rfl

/-! Actions of a step are gathered. -/

@[simp] theorem Dev.addActs_part (d : Dev) (as : List Act) : (d.addActs as).part = d.part := by unfold Dev.addActs; rfl
@[simp] theorem Dev.addActs_now (d : Dev) (as : List Act) : (d.addActs as).now = d.now := by unfold Dev.addActs; rfl
@[simp] theorem Dev.addActs_mono (d : Dev) (as : List Act) : (d.addActs as).mono = d.mono := by unfold Dev.addActs; rfl
@[simp] theorem Dev.addActs_regs (d : Dev) (as : List Act) : (d.addActs as).regs = d.regs := by unfold Dev.addActs; rfl
@[simp] theorem Dev.addActs_latch (d : Dev) (as : List Act) : (d.addActs as).latch = d.latch := by unfold Dev.addActs; rfl
@[simp] theorem Dev.addActs_mirrorLatch (d : Dev) (as : List Act) : (d.addActs as).mirrorLatch = d.mirrorLatch := by unfold Dev.addActs; rfl
@[simp] theorem Dev.addActs_evRaised (d : Dev) (as : List Act) : (d.addActs as).evRaised = d.evRaised := by unfold Dev.addActs; rfl
@[simp] theorem Dev.addActs_evEnable (d : Dev) (as : List Act) : (d.addActs as).evEnable = d.evEnable := by unfold Dev.addActs; rfl
@[simp] theorem Dev.addActs_evRoute (d : Dev) (as : List Act) : (d.addActs as).evRoute = d.evRoute := by unfold Dev.addActs; rfl
@[simp] theorem Dev.addActs_arr (d : Dev) (as : List Act) : (d.addActs as).arr = d.arr := by unfold Dev.addActs; rfl
@[simp] theorem Dev.addActs_trc (d : Dev) (as : List Act) : (d.addActs as).trc = d.trc := by unfold Dev.addActs; rfl
@[simp] theorem Dev.addActs_mg (d : Dev) (as : List Act) : (d.addActs as).mg = d.mg := by unfold Dev.addActs; rfl
@[simp] theorem Dev.addActs_ld (d : Dev) (as : List Act) : (d.addActs as).ld = d.ld := by unfold Dev.addActs; rfl
@[simp] theorem Dev.addActs_edge (d : Dev) (as : List Act) : (d.addActs as).edge = d.edge := by unfold Dev.addActs; rfl
@[simp] theorem Dev.addActs_pins (d : Dev) (as : List Act) : (d.addActs as).pins = d.pins := by unfold Dev.addActs; rfl
@[simp] theorem Dev.addActs_clk (d : Dev) (as : List Act) : (d.addActs as).clk = d.clk := by unfold Dev.addActs; rfl
@[simp] theorem Dev.addActs_ports (d : Dev) (as : List Act) : (d.addActs as).ports = d.ports := by unfold Dev.addActs; rfl
@[simp] theorem Dev.addActs_host (d : Dev) (as : List Act) : (d.addActs as).host = d.host := by unfold Dev.addActs; rfl
@[simp] theorem Dev.addActs_ddr (d : Dev) (as : List Act) : (d.addActs as).ddr = d.ddr := by unfold Dev.addActs; rfl
@[simp] theorem Dev.addActs_eng (d : Dev) (as : List Act) : (d.addActs as).eng = d.eng := by unfold Dev.addActs; rfl
@[simp] theorem Dev.addActs_net (d : Dev) (as : List Act) : (d.addActs as).net = d.net := by unfold Dev.addActs; rfl
@[simp] theorem Dev.addActs_dbg (d : Dev) (as : List Act) : (d.addActs as).dbg = d.dbg := by unfold Dev.addActs; rfl
@[simp] theorem Dev.addActs_out (d : Dev) (as : List Act) : (d.addActs as).out = d.out := by unfold Dev.addActs; rfl
@[simp] theorem Dev.addActs_freeCtr (d : Dev) (as : List Act) : (d.addActs as).freeCtr = d.freeCtr := by unfold Dev.addActs; rfl

@[simp] theorem Dev.emit_out (d : Dev) (o : Out) : (d.emit o).out = d.out ++ [o] := by unfold Dev.emit; rfl

/-! Device time, while no correction of it is due. -/

@[simp] theorem Dev.elapse_now (d : Dev) (dt : Nat) : (d.elapse dt).now = d.now + dt := by unfold Dev.elapse; rfl
theorem Dev.advance_elapse {d : Dev} (dt : Nat) (h : d.clk.jump = none) : d.advance dt = d.elapse dt := by
  unfold Dev.advance Dev.passJump Dev.afterJump; rw [h]
theorem Dev.advance_now {d : Dev} (dt : Nat) (h : d.clk.jump = none) : (d.advance dt).now = d.now + dt := by
  rw [Dev.advance_elapse dt h, Dev.elapse_now]
theorem Dev.toTime_elapse {d : Dev} (t : Nat) (h : d.clk.jump = none) : d.toTime t = d.elapse (d.timeTo t) := by
  unfold Dev.toTime Dev.passJump; rw [h]
theorem Dev.toTime_now {d : Dev} (t : Nat) (h : d.clk.jump = none) : (d.toTime t).now = d.now + d.timeTo t := by
  rw [Dev.toTime_elapse t h, Dev.elapse_now]

/-! The sequencer while time goes on: only its timers count. -/

@[simp] theorem Dev.elapse_phase (d : Dev) (dt : Nat) : (d.elapse dt).tk.phase = d.tk.phase := by unfold Dev.elapse; rfl
@[simp] theorem Dev.passJump_phase (d : Dev) (dt : Nat) : (d.passJump dt).tk.phase = d.tk.phase := by unfold Dev.passJump; split <;> (try split) <;> simp only [Dev.makeJump_tk, Dev.elapse_phase]
@[simp] theorem Dev.advance_phase (d : Dev) (dt : Nat) : (d.advance dt).tk.phase = d.tk.phase := by unfold Dev.advance; rw [Dev.elapse_phase, Dev.passJump_phase]
@[simp] theorem Dev.toTime_phase (d : Dev) (t : Nat) : (d.toTime t).tk.phase = d.tk.phase := by unfold Dev.toTime; simp only [Dev.elapse_phase, Dev.passJump_phase]
@[simp] theorem Dev.elapse_step (d : Dev) (dt : Nat) : (d.elapse dt).tk.step = d.tk.step := by unfold Dev.elapse; rfl
@[simp] theorem Dev.passJump_step (d : Dev) (dt : Nat) : (d.passJump dt).tk.step = d.tk.step := by unfold Dev.passJump; split <;> (try split) <;> simp only [Dev.makeJump_tk, Dev.elapse_step]
@[simp] theorem Dev.advance_step (d : Dev) (dt : Nat) : (d.advance dt).tk.step = d.tk.step := by unfold Dev.advance; rw [Dev.elapse_step, Dev.passJump_step]
@[simp] theorem Dev.toTime_step (d : Dev) (t : Nat) : (d.toTime t).tk.step = d.tk.step := by unfold Dev.toTime; simp only [Dev.elapse_step, Dev.passJump_step]
@[simp] theorem Dev.elapse_seq (d : Dev) (dt : Nat) : (d.elapse dt).tk.seq = d.tk.seq := by unfold Dev.elapse; rfl
@[simp] theorem Dev.passJump_seq (d : Dev) (dt : Nat) : (d.passJump dt).tk.seq = d.tk.seq := by unfold Dev.passJump; split <;> (try split) <;> simp only [Dev.makeJump_tk, Dev.elapse_seq]
@[simp] theorem Dev.advance_seq (d : Dev) (dt : Nat) : (d.advance dt).tk.seq = d.tk.seq := by unfold Dev.advance; rw [Dev.elapse_seq, Dev.passJump_seq]
@[simp] theorem Dev.toTime_seq (d : Dev) (t : Nat) : (d.toTime t).tk.seq = d.tk.seq := by unfold Dev.toTime; simp only [Dev.elapse_seq, Dev.passJump_seq]
@[simp] theorem Dev.elapse_len (d : Dev) (dt : Nat) : (d.elapse dt).tk.len = d.tk.len := by unfold Dev.elapse; rfl
@[simp] theorem Dev.passJump_len (d : Dev) (dt : Nat) : (d.passJump dt).tk.len = d.tk.len := by unfold Dev.passJump; split <;> (try split) <;> simp only [Dev.makeJump_tk, Dev.elapse_len]
@[simp] theorem Dev.advance_len (d : Dev) (dt : Nat) : (d.advance dt).tk.len = d.tk.len := by unfold Dev.advance; rw [Dev.elapse_len, Dev.passJump_len]
@[simp] theorem Dev.toTime_len (d : Dev) (t : Nat) : (d.toTime t).tk.len = d.tk.len := by unfold Dev.toTime; simp only [Dev.elapse_len, Dev.passJump_len]
@[simp] theorem Dev.elapse_belay (d : Dev) (dt : Nat) : (d.elapse dt).tk.belay = d.tk.belay := by unfold Dev.elapse; rfl
@[simp] theorem Dev.passJump_belay (d : Dev) (dt : Nat) : (d.passJump dt).tk.belay = d.tk.belay := by unfold Dev.passJump; split <;> (try split) <;> simp only [Dev.makeJump_tk, Dev.elapse_belay]
@[simp] theorem Dev.advance_belay (d : Dev) (dt : Nat) : (d.advance dt).tk.belay = d.tk.belay := by unfold Dev.advance; rw [Dev.elapse_belay, Dev.passJump_belay]
@[simp] theorem Dev.toTime_belay (d : Dev) (t : Nat) : (d.toTime t).tk.belay = d.tk.belay := by unfold Dev.toTime; simp only [Dev.elapse_belay, Dev.passJump_belay]
@[simp] theorem Dev.elapse_faults (d : Dev) (dt : Nat) : (d.elapse dt).tk.faults = d.tk.faults := by unfold Dev.elapse; rfl
@[simp] theorem Dev.passJump_faults (d : Dev) (dt : Nat) : (d.passJump dt).tk.faults = d.tk.faults := by unfold Dev.passJump; split <;> (try split) <;> simp only [Dev.makeJump_tk, Dev.elapse_faults]
@[simp] theorem Dev.advance_faults (d : Dev) (dt : Nat) : (d.advance dt).tk.faults = d.tk.faults := by unfold Dev.advance; rw [Dev.elapse_faults, Dev.passJump_faults]
@[simp] theorem Dev.toTime_faults (d : Dev) (t : Nat) : (d.toTime t).tk.faults = d.tk.faults := by unfold Dev.toTime; simp only [Dev.elapse_faults, Dev.passJump_faults]
@[simp] theorem Dev.elapse_stage (d : Dev) (dt : Nat) : (d.elapse dt).tk.stage = d.tk.stage := by unfold Dev.elapse; rfl
@[simp] theorem Dev.passJump_stage (d : Dev) (dt : Nat) : (d.passJump dt).tk.stage = d.tk.stage := by unfold Dev.passJump; split <;> (try split) <;> simp only [Dev.makeJump_tk, Dev.elapse_stage]
@[simp] theorem Dev.advance_stage (d : Dev) (dt : Nat) : (d.advance dt).tk.stage = d.tk.stage := by unfold Dev.advance; rw [Dev.elapse_stage, Dev.passJump_stage]
@[simp] theorem Dev.toTime_stage (d : Dev) (t : Nat) : (d.toTime t).tk.stage = d.tk.stage := by unfold Dev.toTime; simp only [Dev.elapse_stage, Dev.passJump_stage]
@[simp] theorem Dev.elapse_acted (d : Dev) (dt : Nat) : (d.elapse dt).tk.acted = d.tk.acted := by unfold Dev.elapse; rfl
@[simp] theorem Dev.passJump_acted (d : Dev) (dt : Nat) : (d.passJump dt).tk.acted = d.tk.acted := by unfold Dev.passJump; split <;> (try split) <;> simp only [Dev.makeJump_tk, Dev.elapse_acted]
@[simp] theorem Dev.advance_acted (d : Dev) (dt : Nat) : (d.advance dt).tk.acted = d.tk.acted := by unfold Dev.advance; rw [Dev.elapse_acted, Dev.passJump_acted]
@[simp] theorem Dev.toTime_acted (d : Dev) (t : Nat) : (d.toTime t).tk.acted = d.tk.acted := by unfold Dev.toTime; simp only [Dev.elapse_acted, Dev.passJump_acted]

/-! The state under the forms in which a command acts: the queue stays, and the envelope unit stays but where the device is reset or booted. -/

theorem State.onDev_next (s : State) (f : Dev → Dev) : s.onDev f = .next { s with dev := f s.dev } := rfl

theorem State.onUnit_next (s : State) {c : Bool} (f : Dev → Dev) (h : c = true) : s.onUnit c f = .next { s with dev := f s.dev } := by simp [State.onUnit, h, State.onDev]

theorem State.onUnit_fault (s : State) {c : Bool} (f : Dev → Dev) (h : c = false) : s.onUnit c f = .fault .noSuchUnit := by simp [State.onUnit, h]

theorem State.onDev_pending {s u : State} {f : Dev → Dev} (h : s.onDev f = .next u) : u.pending = s.pending ∧ u.envelope = s.envelope := by
  cases h; exact ⟨rfl, rfl⟩

theorem State.onUnit_pending {s u : State} {c : Bool} {f : Dev → Dev} (h : s.onUnit c f = .next u) : u.pending = s.pending ∧ u.envelope = s.envelope := by
  unfold State.onUnit at h
  split at h
  · exact State.onDev_pending h
  · cases h

theorem State.onFresh_pending {s u : State} {f : Dev → Dev} (h : s.onFresh f = .next u) : u.pending = s.pending ∧ u.envelope = default := by
  cases h; exact ⟨rfl, rfl⟩

theorem State.onEnvelope_pending {s u : State} {f : Dev → Dev} (h : s.onEnvelope f = .next u) :
    u.pending = s.pending ∧ (u.envelope = s.envelope ∨ u.dev.mg.inReset = true ∧ u.envelope = default) := by
  cases h
  refine ⟨rfl, ?_⟩
  by_cases hr : (f s.dev).mg.inReset = true
  · right; simp [hr]
  · left; simp [hr]

theorem State.onBoot_pending {s u : State} {f : Dev → Dev × Envelope} (h : s.onBoot f = .next u) : u.pending = s.pending := by
  cases h; rfl

end Sys2Proof.Machine
end

