-- ==== Sys2Proof/Laws/Store.lean ====
section
/-! SUPPORT. The laws of sparse stores: read after write for every list, and the canonical form that every operation keeps. -/

namespace Sys2Proof.Machine

variable {α : Type}

/-! Read after write. -/

theorem SMap.look_ins_same (m : SMap α) (k : Nat) (v : α) : SMap.look (SMap.ins m k v) k = some v := by
  induction m with
  | nil => simp [SMap.ins, SMap.look]
  | cons e r ih =>
    obtain ⟨i, w⟩ := e
    unfold SMap.ins
    split_ifs with h1 h2
    · simp [SMap.look]
    · simp [SMap.look]
    · simp [SMap.look, h2, ih]

theorem SMap.look_ins_ne (m : SMap α) {k j : Nat} (v : α) (h : j ≠ k) : SMap.look (SMap.ins m k v) j = SMap.look m j := by
  induction m with
  | nil => simp [SMap.ins, SMap.look, Ne.symm h]
  | cons e r ih =>
    obtain ⟨i, w⟩ := e
    unfold SMap.ins
    split_ifs with h1 h2
    · simp [SMap.look, Ne.symm h]
    · subst h2; simp [SMap.look, Ne.symm h]
    · simp [SMap.look, ih]

theorem SMap.look_del_same (m : SMap α) (k : Nat) : SMap.look (SMap.del m k) k = none := by
  induction m with
  | nil => rfl
  | cons e r ih =>
    obtain ⟨i, w⟩ := e
    unfold SMap.del
    split_ifs with h
    · exact ih
    · simp [SMap.look, h, ih]

theorem SMap.look_del_ne (m : SMap α) {k j : Nat} (h : j ≠ k) : SMap.look (SMap.del m k) j = SMap.look m j := by
  induction m with
  | nil => rfl
  | cons e r ih =>
    obtain ⟨i, w⟩ := e
    unfold SMap.del
    split_ifs with h2
    · subst h2; simp [SMap.look, Ne.symm h, ih]
    · simp [SMap.look, ih]

section
variable [Inhabited α] [DecidableEq α]

@[simp] theorem SMap.get_set_same (m : SMap α) (k : Nat) (v : α) : SMap.get (SMap.set m k v) k = v := by
  unfold SMap.get SMap.set
  split_ifs with h
  · simp [SMap.look_del_same, h]
  · simp [SMap.look_ins_same]

theorem SMap.get_set_ne (m : SMap α) {k j : Nat} (v : α) (h : j ≠ k) : SMap.get (SMap.set m k v) j = SMap.get m j := by
  unfold SMap.get SMap.set
  split_ifs
  · rw [SMap.look_del_ne m h]
  · rw [SMap.look_ins_ne m v h]

theorem SMap.get_set (m : SMap α) (k j : Nat) (v : α) : SMap.get (SMap.set m k v) j = if j = k then v else SMap.get m j := by
  split_ifs with h
  · subst h; exact SMap.get_set_same m j v
  · exact SMap.get_set_ne m v h

/-! The canonical form. -/

theorem SMap.wfFrom_mono {b c : Nat} (m : SMap α) (h : SMap.wfFrom c m = true) (hb : b ≤ c) : SMap.wfFrom b m = true := by
  cases m with
  | nil => rfl
  | cons e r =>
    obtain ⟨i, w⟩ := e
    simp only [SMap.wfFrom, Bool.and_eq_true, decide_eq_true_eq] at h ⊢
    exact ⟨⟨by omega, h.1.2⟩, h.2⟩

theorem SMap.wfFrom_ins {b k : Nat} (m : SMap α) {v : α} (h : SMap.wfFrom b m = true) (hk : b ≤ k) (hv : v ≠ default) :
    SMap.wfFrom b (SMap.ins m k v) = true := by
  induction m generalizing b with
  | nil => simp [SMap.ins, SMap.wfFrom, hk, hv]
  | cons e r ih =>
    obtain ⟨i, w⟩ := e
    simp only [SMap.wfFrom, Bool.and_eq_true, decide_eq_true_eq] at h
    unfold SMap.ins
    split_ifs with h1 h2
    · simp only [SMap.wfFrom, Bool.and_eq_true, decide_eq_true_eq]
      exact ⟨⟨hk, hv⟩, ⟨by omega, h.1.2⟩, h.2⟩
    · subst h2
      simp only [SMap.wfFrom, Bool.and_eq_true, decide_eq_true_eq]
      exact ⟨⟨hk, hv⟩, h.2⟩
    · simp only [SMap.wfFrom, Bool.and_eq_true, decide_eq_true_eq]
      exact ⟨h.1, ih h.2 (by omega)⟩

theorem SMap.wfFrom_del {b : Nat} (m : SMap α) (k : Nat) (h : SMap.wfFrom b m = true) : SMap.wfFrom b (SMap.del m k) = true := by
  induction m generalizing b with
  | nil => rfl
  | cons e r ih =>
    obtain ⟨i, w⟩ := e
    simp only [SMap.wfFrom, Bool.and_eq_true, decide_eq_true_eq] at h
    unfold SMap.del
    split_ifs with h1
    · exact ih (SMap.wfFrom_mono r h.2 (by omega))
    · simp only [SMap.wfFrom, Bool.and_eq_true, decide_eq_true_eq]
      exact ⟨h.1, ih h.2⟩

theorem SMap.wf_set (m : SMap α) (k : Nat) (v : α) (h : SMap.wf m = true) : SMap.wf (SMap.set m k v) = true := by
  unfold SMap.wf SMap.set at *
  split_ifs with hv
  · exact SMap.wfFrom_del m k h
  · exact SMap.wfFrom_ins m h (Nat.zero_le k) hv

theorem SMap.wfFrom_filter {b : Nat} (m : SMap α) (p : Nat × α → Bool) (h : SMap.wfFrom b m = true) : SMap.wfFrom b (m.filter p) = true := by
  induction m generalizing b with
  | nil => rfl
  | cons e r ih =>
    obtain ⟨i, w⟩ := e
    simp only [SMap.wfFrom, Bool.and_eq_true, decide_eq_true_eq] at h
    rw [List.filter_cons]
    split_ifs
    · simp only [SMap.wfFrom, Bool.and_eq_true, decide_eq_true_eq]
      exact ⟨h.1, ih h.2⟩
    · exact ih (SMap.wfFrom_mono r h.2 (by omega))

theorem SMap.wf_clear (m : SMap α) (lo hi : Nat) (h : SMap.wf m = true) : SMap.wf (SMap.clear m lo hi) = true := SMap.wfFrom_filter m _ h

theorem SMap.wf_range (m : SMap α) (lo hi : Nat) (h : SMap.wf m = true) : SMap.wf (SMap.range m lo hi) = true := SMap.wfFrom_filter m _ h

theorem SMap.wf_graft (m src : SMap α) (lo hi : Nat) (h : SMap.wf m = true) : SMap.wf (SMap.graft m src lo hi) = true := by
  unfold SMap.graft
  generalize SMap.range src lo hi = l
  have : ∀ (l : SMap α) (a : SMap α), SMap.wf a = true → SMap.wf (l.foldl (fun acc e => SMap.set acc e.1 e.2) a) = true := by
    intro l
    induction l with
    | nil => intro a ha; exact ha
    | cons e r ih => intro a ha; exact ih _ (SMap.wf_set a e.1 e.2 ha)
  exact this l _ (SMap.wf_clear m lo hi h)

theorem SMap.wfFrom_mapVal {b : Nat} (m : SMap α) (f : α → α) (h : SMap.wfFrom b m = true) : SMap.wfFrom b (SMap.mapVal m f) = true := by
  induction m generalizing b with
  | nil => rfl
  | cons e r ih =>
    obtain ⟨i, w⟩ := e
    simp only [SMap.wfFrom, Bool.and_eq_true, decide_eq_true_eq] at h
    unfold SMap.mapVal at ih ⊢
    rw [List.map_cons, List.filter_cons]
    split_ifs with hv
    · simp only [SMap.wfFrom, Bool.and_eq_true, decide_eq_true_eq]
      exact ⟨⟨h.1.1, by simpa using hv⟩, ih h.2⟩
    · exact ih (SMap.wfFrom_mono r h.2 (by omega))

theorem SMap.wf_mapVal (m : SMap α) (f : α → α) (h : SMap.wf m = true) : SMap.wf (SMap.mapVal m f) = true := SMap.wfFrom_mapVal m f h

end

/-! Byte memories. -/

theorem SMap.wf_store (m : SMap Byte) (a : Nat) (bs : Bytes) (h : SMap.wf m = true) : SMap.wf (SMap.store m a bs) = true := by
  induction bs generalizing m a with
  | nil => exact h
  | cons b bs ih => exact ih _ _ (SMap.wf_set m a b h)

/-- A byte outside the stored range reads as before. -/
theorem SMap.get_store_outside (m : SMap Byte) (a j : Nat) (bs : Bytes) (h : j < a ∨ a + bs.length ≤ j) :
    SMap.get (SMap.store m a bs) j = SMap.get m j := by
  induction bs generalizing m a with
  | nil => rfl
  | cons b bs ih =>
    simp only [List.length_cons] at h
    rw [SMap.store, ih _ _ (by omega), SMap.get_set_ne _ _ (by omega)]

/-- A stored byte reads as stored. -/
theorem SMap.get_store_inside (m : SMap Byte) (a i : Nat) (bs : Bytes) (h : i < bs.length) :
    SMap.get (SMap.store m a bs) (a + i) = bs[i] := by
  induction bs generalizing m a i with
  | nil => simp at h
  | cons b bs ih =>
    cases i with
    | zero => rw [SMap.store, SMap.get_store_outside _ _ _ _ (by omega)]; simp
    | succ i =>
      have := ih (SMap.set m a b) (a + 1) i (by simpa using h)
      rw [SMap.store, show a + (i + 1) = a + 1 + i by omega, this]
      rfl

theorem SMap.length_bytes (m : SMap Byte) (a n : Nat) : (SMap.bytes m a n).length = n := by
  induction n generalizing a with
  | zero => rfl
  | succ n ih => simp [SMap.bytes, ih]

theorem SMap.bytes_getElem (m : SMap Byte) (a n i : Nat) (h : i < (SMap.bytes m a n).length) : (SMap.bytes m a n)[i] = SMap.get m (a + i) := by
  induction n generalizing a i with
  | zero => simp [SMap.bytes] at h
  | succ n ih =>
    cases i with
    | zero => simp [SMap.bytes]
    | succ i =>
      have h' : i < (SMap.bytes m (a + 1) n).length := by simpa [SMap.length_bytes] using h
      simp only [SMap.bytes, List.getElem_cons_succ]
      rw [ih (a + 1) i h', show a + 1 + i = a + (i + 1) by omega]

/-- Stored bytes read back whole. -/
theorem SMap.bytes_store (m : SMap Byte) (a : Nat) (bs : Bytes) : SMap.bytes (SMap.store m a bs) a bs.length = bs := by
  apply List.ext_getElem
  · exact SMap.length_bytes _ _ _
  · intro i h1 h2
    rw [SMap.bytes_getElem, SMap.get_store_inside m a i bs h2]

/-- A range of bytes apart from the stored one reads as before. -/
theorem SMap.bytes_store_outside (m : SMap Byte) (a b n : Nat) (bs : Bytes) (h : b + n ≤ a ∨ a + bs.length ≤ b) :
    SMap.bytes (SMap.store m a bs) b n = SMap.bytes m b n := by
  apply List.ext_getElem
  · rw [SMap.length_bytes, SMap.length_bytes]
  · intro i h1 h2
    rw [SMap.length_bytes] at h1
    rw [SMap.bytes_getElem, SMap.bytes_getElem, SMap.get_store_outside _ _ _ _ (by omega)]

end Sys2Proof.Machine
end

