-- ==== Sys2Proof/Laws/Regs.lean ====
section
/-! SUPPORT. The laws of the register store: a field reads as it was last stored, cut to its width, and every other field reads as before. -/

namespace Sys2Proof.Machine

/-- Reading a field back. -/
@[simp] theorem Dev.rdAt_wrAt_same (d : Dev) (r : Reg) (n k v : Nat) : (d.wrAt r n k v).rdAt r n k = v % 2 ^ r.width := by
  unfold Dev.rdAt Dev.wrAt
  dsimp only
  split_ifs with h
  · rw [SMap.look_del_same]; simp [h]
  · rw [SMap.look_ins_same]; simp

/-- A field with another key reads as before. -/
theorem Dev.rdAt_wrAt_ne (d : Dev) {r q : Reg} {n k m j : Nat} (v : Nat) (h : q.key m j ≠ r.key n k) : (d.wrAt r n k v).rdAt q m j = d.rdAt q m j := by
  unfold Dev.rdAt Dev.wrAt
  dsimp only
  split_ifs
  · rw [SMap.look_del_ne _ h]
  · rw [SMap.look_ins_ne _ _ h]

@[simp] theorem Dev.rd_wr_same (d : Dev) (r : Reg) (v : Nat) : (d.wr r v).rd r = v % 2 ^ r.width := Dev.rdAt_wrAt_same d r 0 0 v

theorem Dev.rd_wr_ne (d : Dev) {r q : Reg} (v : Nat) (h : q.key 0 0 ≠ r.key 0 0) : (d.wr r v).rd q = d.rd q := Dev.rdAt_wrAt_ne d v h

theorem Dev.rdAt_wr_ne (d : Dev) {r q : Reg} {m j : Nat} (v : Nat) (h : q.key m j ≠ r.key 0 0) : (d.wr r v).rdAt q m j = d.rdAt q m j := Dev.rdAt_wrAt_ne d v h

theorem Dev.rdAt_count_ne (d : Dev) {q : Reg} {m j u k : Nat} (n : Nat) (h : q.key m j ≠ R.CNT.LIVE.key u k) : (d.count u k n).rdAt q m j = d.rdAt q m j :=
  Dev.rdAt_wrAt_ne d _ h

theorem Dev.rdAt_bumpAt_ne (d : Dev) {r q : Reg} {n k m j : Nat} (h : q.key m j ≠ r.key n k) : (d.bumpAt r n k).rdAt q m j = d.rdAt q m j := Dev.rdAt_wrAt_ne d _ h

/-! Registers do not change with time, with outputs or in a port. -/

/-- A state that differs in other fields than the registers reads alike. -/
theorem Dev.rdAt_congr {d e : Dev} (h : d.regs = e.regs) (r : Reg) (n k : Nat) : d.rdAt r n k = e.rdAt r n k := by unfold Dev.rdAt; rw [h]

@[simp] theorem Dev.rdAt_toTime (d : Dev) (t : Nat) (r : Reg) (n k : Nat) : (d.toTime t).rdAt r n k = d.rdAt r n k := Dev.rdAt_congr (Dev.toTime_regs d t) r n k
@[simp] theorem Dev.rd_toTime (d : Dev) (t : Nat) (r : Reg) : (d.toTime t).rd r = d.rd r := Dev.rdAt_toTime d t r 0 0
@[simp] theorem Dev.on_toTime (d : Dev) (t : Nat) (r : Reg) : (d.toTime t).on r = d.on r := by unfold Dev.on; rw [Dev.rd_toTime]
@[simp] theorem Dev.rdAt_advance (d : Dev) (dt : Nat) (r : Reg) (n k : Nat) : (d.advance dt).rdAt r n k = d.rdAt r n k := Dev.rdAt_congr (Dev.advance_regs d dt) r n k
@[simp] theorem Dev.rdAt_emit (d : Dev) (o : Out) (r : Reg) (n k : Nat) : (d.emit o).rdAt r n k = d.rdAt r n k := Dev.rdAt_congr (Dev.emit_regs d o) r n k
@[simp] theorem Dev.rdAt_setPort (d : Dev) (p : Nat) (f : Port → Port) (r : Reg) (n k : Nat) : (d.setPort p f).rdAt r n k = d.rdAt r n k :=
  Dev.rdAt_congr (Dev.setPort_regs d p f) r n k

/-! Time that has come does not come again. -/

theorem Dev.elapse_zero (d : Dev) : d.elapse 0 = d := by
  have hj : (d.clk.jump.map fun j => { j with wait := j.wait - 0 }) = d.clk.jump := by cases d.clk.jump <;> rfl
  unfold Dev.elapse
  rw [hj]
  simp only [Nat.add_zero, Nat.sub_zero, Nat.zero_min, ite_self]

theorem Dev.timeTo_elapse (d : Dev) (t : Nat) : (d.elapse (d.timeTo t)).timeTo t = 0 := by
  have h : (d.elapse (d.timeTo t)).now = d.now + d.timeTo t := Dev.elapse_now d _
  unfold Dev.timeTo Dev.stamp at *
  rw [h]
  dsimp only
  split_ifs <;> omega

theorem Dev.timeTo_toTime (d : Dev) (t : Nat) : (d.toTime t).timeTo t = 0 := Dev.timeTo_elapse _ t

/-- A correction that device time has come to is made: what is left to make lies ahead. -/
theorem Dev.passJump_ahead (d : Dev) (dt : Nat) : ∀ j ∈ (d.passJump dt).clk.jump, dt < j.wait := by
  unfold Dev.passJump
  split
  · split
    · unfold Dev.makeJump; simp
    · intro j hj; simp_all
  · simp_all

theorem Dev.elapse_jump (d : Dev) (dt : Nat) : (d.elapse dt).clk.jump = d.clk.jump.map fun j => { j with wait := j.wait - dt } := by
  unfold Dev.elapse; rfl

/-- Where no correction falls due, device time passes it by. -/
theorem Dev.passJump_none {d : Dev} {dt : Nat} (h : ∀ j ∈ d.clk.jump, dt < j.wait) : d.passJump dt = d := by
  unfold Dev.passJump
  split
  · rename_i j hj
    rw [if_neg (by have := h j hj; omega)]
  · rfl

theorem Dev.passJump_makes {d : Dev} {dt : Nat} (h : (d.passJump dt).clk.jump ≠ none) : d.passJump dt = d := by
  unfold Dev.passJump at *
  split at h
  · split at h
    · exact absurd rfl h
    · rename_i j _ _
      split <;> simp_all
  · simp_all

theorem Dev.toTime_ahead (d : Dev) (t : Nat) : ∀ j ∈ (d.toTime t).clk.jump, 0 < j.wait := by
  intro j hj
  have hp := Dev.passJump_ahead d (d.timeTo t)
  unfold Dev.toTime at hj
  dsimp only at hj
  rw [Dev.elapse_jump] at hj
  by_cases hn : (d.passJump (d.timeTo t)).clk.jump = none
  · rw [hn] at hj; simp at hj
  · rw [Dev.passJump_makes hn] at hj hp
    cases hc : d.clk.jump with
    | none => rw [hc] at hj; simp at hj
    | some i =>
      rw [hc] at hj
      have := hp i hc
      simp at hj
      subst hj
      simp; omega

/-- Device time stands still where `t` has been reached. -/
theorem Dev.toTime_of_now {d e : Dev} (t : Nat) (h : d.now = (e.toTime t).now) (hc : d.clk.jump = (e.toTime t).clk.jump) : d.toTime t = d := by
  have h0 : d.timeTo t = 0 := by
    have := Dev.timeTo_toTime e t
    unfold Dev.timeTo Dev.stamp at *
    rw [h]
    exact this
  have hj : ∀ j ∈ d.clk.jump, 0 < j.wait := by rw [hc]; exact Dev.toTime_ahead e t
  unfold Dev.toTime
  dsimp only
  rw [h0, Dev.passJump_none hj, h0, Dev.elapse_zero]

@[simp] theorem Dev.toTime_toTime (d : Dev) (t : Nat) : (d.toTime t).toTime t = d.toTime t := Dev.toTime_of_now t rfl rfl

/-- The register store keeps its keys in order. -/
theorem Dev.regs_wf_wrAt (d : Dev) (r : Reg) (n k v : Nat) (i : Nat) (h : i ≠ r.key n k) : SMap.look (d.wrAt r n k v).regs i = SMap.look d.regs i := by
  unfold Dev.wrAt
  dsimp only
  split_ifs
  · exact SMap.look_del_ne _ h
  · exact SMap.look_ins_ne _ _ h

end Sys2Proof.Machine
end

