-- ==== Sys2Proof/Laws/Row.lean ====
section
/-! SUPPORT. What a command that is an access to a register page does: one lemma for each of its ends. -/

namespace Sys2Proof.Machine

/-- The counters of BAR0 accesses are none of the registers of the POWER page. -/
theorem Dev.domState_count (d : Dev) (i k n : Nat) : (d.count 0xB0 k n).domState i = d.domState i := by
  unfold Dev.domState
  apply Dev.rdAt_count_ne
  simp only [Reg.key, R.POWER.DOM_STATUS_STATE, R.CNT.LIVE]
  omega

@[simp] theorem Dev.domState_toTime (d : Dev) (t i : Nat) : (d.toTime t).domState i = d.domState i := Dev.rdAt_toTime d t _ _ _

@[simp] theorem Dev.funcUp_toTime (d : Dev) (t f : Nat) : (d.toTime t).funcUp f = d.funcUp f := by
  unfold Dev.funcUp Dev.pf0Awake
  rw [Dev.toTime_mg, Dev.toTime_host]

theorem Dev.pageRows_part {d e : Dev} (h : d.part = e.part) (p : Nat) : d.pageRows p = e.pageRows p := by
  unfold Dev.pageRows Dev.g4s Dev.g2s
  rw [h]

@[simp] theorem Dev.rowUp_toTime (d : Dev) (t p : Nat) : (d.toTime t).rowUp p = d.rowUp p := by
  unfold Dev.rowUp
  rw [Dev.funcUp_toTime, Dev.pageRows_part (Dev.toTime_part d t)]

theorem Dev.gateway_on (d : Dev) (i src op : Nat) (wake : Bool) (h : d.domState i = 2) : d.gateway i src op wake = (.pass, d) := by
  simp [Dev.gateway, h]

/-- A write that reaches its page acts on the device at the write. -/
theorem Dev.rowWrite_reaches (d : Dev) (p o w t : Nat) (act : Dev → Dev) (h : d.reaches p = true) : d.rowWrite p o w t act = act (d.atWrite t) := by
  unfold Dev.reaches at h
  rw [Bool.and_eq_true] at h
  unfold Dev.rowWrite
  dsimp only
  rw [Dev.rowUp_toTime, h.1]
  simp only [Bool.not_true, Bool.false_eq_true, if_false]
  cases hp : pageDomain p with
  | none => rfl
  | some i =>
    have h2 := h.2
    rw [hp] at h2
    have hd : ((d.toTime t).count 0xB0 11 1).domState i = 2 := by
      rw [Dev.domState_count, Dev.domState_toTime]
      simpa using h2
    dsimp only
    rw [Dev.gateway_on _ _ _ _ _ hd]
    rfl

/-- Where no function answers, or the part has no such page, time goes on and nothing else happens. -/
theorem Dev.rowWrite_down (d : Dev) (p o w t : Nat) (act : Dev → Dev) (h : d.rowUp p = false) : d.rowWrite p o w t act = d.toTime t := by
  unfold Dev.rowWrite
  dsimp only
  rw [Dev.rowUp_toTime, h]
  simp

/-- A read that reaches its page acts on the device at the read. -/
theorem Dev.rowRead_up (d : Dev) (p t : Nat) (act : Dev → Dev) (h : d.rowUp p = true) : d.rowRead p t act = act (d.atRead t) := by
  unfold Dev.rowRead
  dsimp only
  rw [Dev.rowUp_toTime, h]
  rfl

/-! What a command does to the state. -/

theorem State.after_congr {s : State} {f g : Dev → Dev} (h : f s.dev = g s.dev) : s.after f = s.after g := by unfold State.after; rw [h]

theorem State.onDev_after {s : State} {f g : Dev → Dev} (h : f s.dev = g s.dev) : s.onDev f = .next (s.after g) := by
  unfold State.onDev State.after
  rw [h]

theorem State.onUnit_after {s : State} {c : Bool} {f g : Dev → Dev} (hc : c = true) (h : f s.dev = g s.dev) : s.onUnit c f = .next (s.after g) := by
  rw [State.onUnit_next s f hc]
  unfold State.after
  rw [h]

/-- A register-write command of a unit that the part has, whose page the host reaches. -/
theorem State.onUnit_row {s : State} {c : Bool} {p o w t : Nat} {act g : Dev → Dev} (hc : c = true) (h : s.dev.reaches p = true) (hg : act (s.dev.atWrite t) = g s.dev) :
    s.onUnit c (Dev.rowWrite p o w t act) = .next (s.after g) :=
  State.onUnit_after hc (by rw [Dev.rowWrite_reaches _ _ _ _ _ _ h]; exact hg)

/-- The same for a command of no numbered unit. -/
theorem State.onDev_row {s : State} {p o w t : Nat} {act g : Dev → Dev} (h : s.dev.reaches p = true) (hg : act (s.dev.atWrite t) = g s.dev) :
    s.onDev (Dev.rowWrite p o w t act) = .next (s.after g) :=
  State.onDev_after (by rw [Dev.rowWrite_reaches _ _ _ _ _ _ h]; exact hg)

/-! What the device at a write shows: every register but the counter of writes as before, every part of the device but its clocks and timers as before. -/

theorem Dev.rdAt_atWrite (d : Dev) (t : Nat) {q : Reg} {m j : Nat} (h : q.key m j ≠ R.CNT.LIVE.key 0xB0 11) : (d.atWrite t).rdAt q m j = d.rdAt q m j := by
  unfold Dev.atWrite
  rw [Dev.rdAt_count_ne _ _ h, Dev.rdAt_toTime]

theorem Dev.rdAt_atRead (d : Dev) (t : Nat) {q : Reg} {m j : Nat} (h : q.key m j ≠ R.CNT.LIVE.key 0xB0 10) : (d.atRead t).rdAt q m j = d.rdAt q m j := by
  unfold Dev.atRead
  rw [Dev.rdAt_count_ne _ _ h, Dev.rdAt_toTime]

@[simp] theorem Dev.toTime_atWrite (d : Dev) (t : Nat) : (d.atWrite t).toTime t = d.atWrite t := by
  apply Dev.toTime_of_now (e := d) <;> unfold Dev.atWrite
  · rw [Dev.count_now]
  · rw [Dev.count_clk]

@[simp] theorem Dev.toTime_atRead (d : Dev) (t : Nat) : (d.atRead t).toTime t = d.atRead t := by
  apply Dev.toTime_of_now (e := d) <;> unfold Dev.atRead
  · rw [Dev.count_now]
  · rw [Dev.count_clk]

theorem Dev.rd_atWrite (d : Dev) (t : Nat) {q : Reg} (h : q.key 0 0 ≠ R.CNT.LIVE.key 0xB0 11) : (d.atWrite t).rd q = d.rd q := Dev.rdAt_atWrite d t h

theorem Dev.running_atWrite (d : Dev) (t : Nat) : (d.atWrite t).running = d.running := by
  unfold Dev.running Dev.runState
  rw [Dev.rd_atWrite _ _ (by decide)]

@[simp] theorem Dev.atWrite_arr (d : Dev) (t : Nat) : (d.atWrite t).arr = d.arr := by unfold Dev.atWrite; simp
@[simp] theorem Dev.atWrite_part (d : Dev) (t : Nat) : (d.atWrite t).part = d.part := by unfold Dev.atWrite; simp
@[simp] theorem Dev.atWrite_latch (d : Dev) (t : Nat) : (d.atWrite t).latch = d.latch := by unfold Dev.atWrite; simp
@[simp] theorem Dev.atWrite_evRaised (d : Dev) (t : Nat) : (d.atWrite t).evRaised = d.evRaised := by unfold Dev.atWrite; simp
@[simp] theorem Dev.atWrite_evEnable (d : Dev) (t : Nat) : (d.atWrite t).evEnable = d.evEnable := by unfold Dev.atWrite; simp
@[simp] theorem Dev.atWrite_evRoute (d : Dev) (t : Nat) : (d.atWrite t).evRoute = d.evRoute := by unfold Dev.atWrite; simp
@[simp] theorem Dev.atWrite_trc (d : Dev) (t : Nat) : (d.atWrite t).trc = d.trc := by unfold Dev.atWrite; simp
@[simp] theorem Dev.atWrite_mg (d : Dev) (t : Nat) : (d.atWrite t).mg = d.mg := by unfold Dev.atWrite; simp
@[simp] theorem Dev.atWrite_ld (d : Dev) (t : Nat) : (d.atWrite t).ld = d.ld := by unfold Dev.atWrite; simp
@[simp] theorem Dev.atWrite_edge (d : Dev) (t : Nat) : (d.atWrite t).edge = d.edge := by unfold Dev.atWrite; simp
@[simp] theorem Dev.atWrite_pins (d : Dev) (t : Nat) : (d.atWrite t).pins = d.pins := by unfold Dev.atWrite; simp
@[simp] theorem Dev.atWrite_ports (d : Dev) (t : Nat) : (d.atWrite t).ports = d.ports := by unfold Dev.atWrite; simp
@[simp] theorem Dev.atWrite_host (d : Dev) (t : Nat) : (d.atWrite t).host = d.host := by unfold Dev.atWrite; simp
@[simp] theorem Dev.atWrite_ddr (d : Dev) (t : Nat) : (d.atWrite t).ddr = d.ddr := by unfold Dev.atWrite; simp
@[simp] theorem Dev.atWrite_eng (d : Dev) (t : Nat) : (d.atWrite t).eng = d.eng := by unfold Dev.atWrite; simp
@[simp] theorem Dev.atWrite_net (d : Dev) (t : Nat) : (d.atWrite t).net = d.net := by unfold Dev.atWrite; simp
@[simp] theorem Dev.atWrite_dbg (d : Dev) (t : Nat) : (d.atWrite t).dbg = d.dbg := by unfold Dev.atWrite; simp
@[simp] theorem Dev.atWrite_out (d : Dev) (t : Nat) : (d.atWrite t).out = d.out := by unfold Dev.atWrite; simp
@[simp] theorem Dev.atWrite_phase (d : Dev) (t : Nat) : (d.atWrite t).tk.phase = d.tk.phase := by unfold Dev.atWrite; simp

theorem Dev.domState_atWrite (d : Dev) (t i : Nat) : (d.atWrite t).domState i = d.domState i := by
  unfold Dev.atWrite
  rw [Dev.domState_count, Dev.domState_toTime]

end Sys2Proof.Machine
end

