-- ==== Sys2Proof/Laws/Array.lean ====
section
/-! SUPPORT. What a Boolean processor reads in a step depends on the stores, the registers and the sequencer alone; a command of a word runs its processor or nothing. -/

namespace Sys2Proof.Machine

/-! What a read depends on. -/

theorem Dev.cost_congr {d e : Dev} (hr : d.regs = e.regs) (c : Nat) : d.cost c = e.cost c := by
  unfold Dev.cost Dev.rd
  rw [Dev.rdAt_congr hr]

theorem Dev.tokenSum_congr {d e : Dev} (ha : d.arr = e.arr) (hr : d.regs = e.regs) (g s : Nat) : d.tokenSum g s = e.tokenSum g s := by
  have hc : d.cost = e.cost := funext (Dev.cost_congr hr)
  unfold Dev.tokenSum Dev.fencedBp
  rw [ha, hc]

theorem Dev.overBudget_congr {d e : Dev} (ha : d.arr = e.arr) (hr : d.regs = e.regs) (g s : Nat) : d.overBudget g s = e.overBudget g s := by
  unfold Dev.overBudget
  rw [Dev.tokenSum_congr ha hr, Dev.rdAt_congr hr]

theorem Dev.bpFault_congr {d e : Dev} (hr : d.regs = e.regs) (hs : d.tk.step = e.tk.step) (hb : d.tk.belay = e.tk.belay) (hp : d.tk.phase = e.tk.phase) (hn : d.now = e.now)
    (code bp detail : Nat) : d.bpFault code bp detail = e.bpFault code bp detail := by
  unfold Dev.bpFault Dev.record Dev.position Dev.rd Dev.stamp Dev.frozen
  rw [Dev.rdAt_congr hr, Dev.rdAt_congr hr R.TAKE.TAKE_NUMBER, hs, hb, hp, hn]

/-- BP `bp` has acted: the stores, the registers and the place in the take are as before. -/
@[simp] theorem Dev.actedBy_arr (d : Dev) (bp : Nat) : (d.actedBy bp).arr = d.arr := by unfold Dev.actedBy; rfl
@[simp] theorem Dev.actedBy_regs (d : Dev) (bp : Nat) : (d.actedBy bp).regs = d.regs := by unfold Dev.actedBy; rfl
@[simp] theorem Dev.actedBy_rdAt (d : Dev) (bp : Nat) (r : Reg) (n k : Nat) : (d.actedBy bp).rdAt r n k = d.rdAt r n k := Dev.rdAt_congr rfl r n k
theorem Dev.actedBy_overBudget (d : Dev) (bp g s : Nat) : (d.actedBy bp).overBudget g s = d.overBudget g s := Dev.overBudget_congr rfl rfl g s
theorem Dev.actedBy_bpFault (d : Dev) (bp c b x : Nat) : (d.actedBy bp).bpFault c b x = d.bpFault c b x := Dev.bpFault_congr rfl rfl rfl rfl rfl c b x

theorem Dev.inboundLane_congr {d e : Dev} (ha : d.arr = e.arr) (g k t : Nat) : d.inboundLane g k t = e.inboundLane g k t := by
  unfold Dev.inboundLane Dev.selEntry Dev.selCode Dev.segHeld
  rw [ha]

theorem Dev.actedBy_readOperand (d : Dev) (bp b s f op : Nat) : (d.actedBy bp).readOperand b s f op = d.readOperand b s f op := by
  have h1 : ∀ c x y, (d.actedBy bp).bpFault c x y = d.bpFault c x y := fun c x y => Dev.actedBy_bpFault d bp c x y
  have h2 : ∀ g k t, (d.actedBy bp).inboundLane g k t = d.inboundLane g k t := fun g k t => Dev.inboundLane_congr rfl g k t
  have h3 : (d.actedBy bp).checkMode = d.checkMode := by unfold Dev.checkMode Dev.on Dev.rd; rw [Dev.actedBy_rdAt]
  have h4 : ∀ j, (d.actedBy bp).wrote b j = d.wrote b j := fun _ => rfl
  have h5 : ∀ i j, (d.actedBy bp).rowBad b i j = d.rowBad b i j := fun _ _ => rfl
  have h6 : ∀ j, (d.actedBy bp).stepEntry b j = d.stepEntry b j := fun _ => rfl
  have h7 : ∀ j, (d.actedBy bp).stateEntry b j = d.stateEntry b j := fun _ => rfl
  have h8 : ∀ g, (d.actedBy bp).farEntry g = d.farEntry g := fun _ => rfl
  have h9 : ∀ g, (d.actedBy bp).farSel g = d.farSel g := fun _ => rfl
  have h10 : (d.actedBy bp).tk.first = d.tk.first ∧ (d.actedBy bp).tk.seq = d.tk.seq ∧ (d.actedBy bp).tk.tbSkip = d.tk.tbSkip ∧ (d.actedBy bp).tk.tbValid = d.tk.tbValid :=
    ⟨rfl, rfl, rfl, rfl⟩
  unfold Dev.readOperand
  simp only [h1, h2, h3, h4, h5, h6, h7, h8, h9, h10.1, h10.2.1, h10.2.2.1, h10.2.2.2, Dev.actedBy_arr, Dev.actedBy_rdAt]

theorem Dev.actedBy_result (d : Dev) (bp b s w : Nat) : (d.actedBy bp).result b s w = d.result b s w := by
  unfold Dev.result
  simp only [Dev.actedBy_readOperand]

theorem Dev.groupFault_congr {d e : Dev} (hr : d.regs = e.regs) (hs : d.tk.step = e.tk.step) (hb : d.tk.belay = e.tk.belay) (hp : d.tk.phase = e.tk.phase) (hn : d.now = e.now)
    (code sev level first detail : Nat) : d.groupFault code sev level first detail = e.groupFault code sev level first detail := by
  unfold Dev.groupFault Dev.record Dev.position Dev.rd Dev.stamp Dev.frozen
  rw [Dev.rdAt_congr hr, Dev.rdAt_congr hr R.TAKE.TAKE_NUMBER, hs, hb, hp, hn]

theorem Dev.actedBy_actFaults (d : Dev) (bp b w r : Nat) : (d.actedBy bp).actFaults b w r = d.actFaults b w r := by
  have h1 : ∀ c x y, (d.actedBy bp).bpFault c x y = d.bpFault c x y := fun c x y => Dev.actedBy_bpFault d bp c x y
  have h2 : ∀ c v l x y, (d.actedBy bp).groupFault c v l x y = d.groupFault c v l x y := fun c v l x y => Dev.groupFault_congr rfl rfl rfl rfl rfl c v l x y
  have h3 : (d.actedBy bp).tk.seq = d.tk.seq := rfl
  unfold Dev.actFaults Dev.memGoFaults Dev.farGoFaults Dev.laneOutConnected Dev.farWindowReason Dev.farWindow Dev.farLine Dev.joined Dev.bankPage Dev.bankOwner Dev.bankPage
  have h4 : (d.actedBy bp).edge = d.edge := rfl
  simp only [h1, h2, h3, h4, Dev.actedBy_arr, Dev.actedBy_rdAt]

/-! The command of a word. -/

theorem Dev.bpStep_hit (d : Dev) (bp row : Nat) (h : d.toAct bp = true) (hr : (d.fetch bp d.tk.step).row = row) : d.bpStep row bp = d.runBp bp := by
  unfold Dev.bpStep
  unfold Dev.toAct at h
  simp only [Bool.and_eq_true, beq_iff_eq] at h ⊢
  rw [if_pos ⟨h, hr⟩]

theorem Dev.bpStep_miss (d : Dev) (bp row : Nat) (h : d.toAct bp = false ∨ (d.fetch bp d.tk.step).row ≠ row) : d.bpStep row bp = d := by
  unfold Dev.bpStep
  rw [if_neg]
  intro hc
  rw [Bool.and_eq_true, beq_iff_eq] at hc
  rcases h with h | h
  · unfold Dev.toAct at h
    rw [h] at hc
    simp at hc
  · exact h hc.2

theorem Dev.toAct_bps (d : Dev) (bp : Nat) (h : d.toAct bp = true) : bp < d.bps := by
  unfold Dev.toAct Dev.bpLive at h
  simp only [Bool.and_eq_true, decide_eq_true_eq] at h
  exact h.1.2.1.1

/-- A word that passes the checks of its fetch raises no RESERVED_MODE. -/
theorem Dev.fetchFaults_reserved (d : Dev) (bp w : Nat) (h : d.fetchFaults bp (.clean w) = []) : wordReserved w = false := by
  unfold Dev.fetchFaults at h
  simp only [List.append_eq_nil_iff] at h
  by_contra hc
  have := h.2
  simp [hc] at this

end Sys2Proof.Machine
end

