-- ==== Sys2Proof/Tests/Slice0.lean ====
section
/-! SUPPORT. The model's own tests: terms that the checks of WellFormed refuse, and for every statement of Obligations.lean states and operands that meet its
hypotheses. -/

namespace Sys2Proof.Tests
open Sys2Proof Sys2Proof.Machine

set_option Elab.async false

/-- A pair whose first component is known. -/
theorem split_1_2 {α β : Type} {x : α × β} {a : α} (h : x.1 = a) : x = (a, x.2) := h ▸ rfl

/-- A triple whose first component is known. -/
theorem split_1_3 {α β γ : Type} {x : α × β × γ} {a : α} (h : x.1 = a) : x = (a, x.2.1, x.2.2) := h ▸ rfl

/-- A triple whose first two components are known. -/
theorem split_2_3 {α β γ : Type} {x : α × β × γ} {a : α} {b : β} (h : x.1 = a) (k : x.2.1 = b) : x = (a, b, x.2.2) := h ▸ k ▸ rfl

/-- A device that has booted: both functions answer, and the power domains that the tests use are ON. -/
def up : Dev := forAll [0, 63, 0x58] (fun i d => d.wrAt R.POWER.DOM_STATUS_STATE 0 i 2) { State.reset.dev with mg := { State.reset.dev.mg with inReset := false } }

/-- The state of that device with no command waiting. -/
def st (d : Dev) : State := { State.reset with dev := d }

/-- A device in step 3 of a take of 64 steps in which BP 0 alone has a word, `w`. -/
def stepping (w : Nat) : Dev :=
  let d := (up.wrAt R.POWER.DOM_STATUS_STATE 0 0 2).wrAt R.CHECK.BUDGET 0 0 0xFFFFF
  { d with arr := { d.arr with cols := [(3, encodeEcc 96 w)] }, tk := { d.tk with phase := .stepping, step := 3, len := 64, pitches := 1 } }

/-- The array runs: RUN_STATUS.STATE reads 1. -/
def running : Dev := up.wr R.RUN.RUN_STATUS_STATE 1

/-- The array runs and stands in belay `b` of a take of two pitches, in a phase. -/
def inBelay (p : Phase) (b : Nat) : Dev := { running with tk := { running.tk with phase := p, belay := b, pitches := 2, len := 64 } }

/-- A reel set of two devices is loaded. -/
def linked (d : Dev) : Dev := { d with ld := { d.ld with setSize := 2, members := 3 } }

/-- A device with a complete load, released edge fabric and ready DDR5: a start is not refused. -/
def ready : Dev :=
  let d := (((up.wr R.CLK.CLK_STATUS_STEP_LOCKED 1).wr R.LOAD.LOAD_STATUS_STATE 2).wr R.EDGE.EDGE_STATUS_RELEASE_STAGE 3).wr R.DDR.DDR_STATUS_READY 1
  { d with ld := { d.ld with stepMin := 0, stepMax := 1000, setSize := 1 } }

/-- A device whose edge fabric stands so. -/
def edged (d : Dev) (e : Edge) : Dev := { d with edge := e }

/-- Bytes of a sequence replaced from an offset on. -/
def put (off : Nat) (xs bs : Bytes) : Bytes := bs.take off ++ xs ++ bs.drop (off + xs.length)

/-- A slate with the flags given that passes every check: one pitch of 64 steps, one frame, the floors of the cost classes. -/
def slateOf (flags : Nat) : Bytes :=
  let s := put 0 (leBytes 0x4C524B4C 4 ++ leBytes 3 2 ++ leBytes flags 2 ++ leBytes up.deviceId 2 ++ [8, 1, 0, 1]) (List.replicate 4096 0)
  let s1 := put 0x18 (leBytes 64 2 ++ [1, 0] ++ leBytes 1000 2 ++ leBytes 1000 2 ++ leBytes 1 4) s
  put 0x80 (leBytes (2 ^ 63 + 2 ^ 24) 8) (put 0x28 (leBytes 0x0C0A080404030200 8) s1)

/-- The slate of a partial load of edge region 0. -/
def regionSlate : Bytes := put 0x200 [2, 0, 0, 1] (slateOf 4)

/-- A device with a complete load of the slate that `regionSlate` fits. -/
def loaded : Dev := { up.wr R.LOAD.LOAD_STATUS_STATE 2 with ld := { up.ld with fullSlate := slateOf 0, fullDone := true } }

/-- A device with an OPEN load of two frames, the first yet to come. -/
def opened : Dev := { (up.wr R.LOAD.LOAD_STATUS_STATE 1).wr R.LOAD.FRAME_COUNT 2 with ld := { up.ld with expected := 1 } }

/-- A frame with a fitting CRC. -/
def frame (ty addr index : Nat) (p : Bytes) : Bytes :=
  let h := leBytes addr 4 ++ [BitVec.ofNat 8 ty, 0] ++ leBytes p.length 2 ++ leBytes index 4 ++ List.replicate 16 0
  h ++ leBytes (crc32c (h ++ p)) 4 ++ p

/-- A 64-byte descriptor: type, flags, priority, length, and other bytes put over it. -/
def desc (ty flags prio len : Nat) : Bytes := put 40 (leBytes len 8) ([BitVec.ofNat 8 ty, BitVec.ofNat 8 flags, BitVec.ofNat 8 prio] ++ List.replicate 61 0)

/-- An item of queue 63. -/
def item (id e : Nat) (stand : Stand) (bs : Bytes) : Item := { (default : Item) with id := id, queue := 63, engine := e, stand := stand, desc := bs }

/-- The device with these items fetched, its engines ON, bank 0 owned by ENGINE, and the first 2^30 bytes of context 0 mapped to host memory by cached translations. -/
def holding (is : List Item) : Dev :=
  let d := ((up.wrAt R.POWER.DOM_STATUS_STATE 0 0x59 2).wrAt R.BANK.BANK_STATUS_OWNER_NOW (up.bankPage 0) 0 1).wrAt R.DMMU.CTX_ROOT_VALID 0 0 1 |>.wr R.FENCE.FENCE_CTRL_ENFORCE 0
  { d with
    eng := { d.eng with items := is, nextId := 100 }
    host := { d.host with cache := [(cacheKey 0 3 0, 32), (cacheKey 0 4 0, 24)] } }

/-- What host memory holds from address 0 on, under those translations. -/
def view (bs : Bytes) : MemView := { host := (List.range bs.length).zip bs, ecc := [], old := [cacheKey 0 3 0, cacheKey 0 4 0] }

/-- An array address. -/
def arrayAt (off : Nat) : Nat := 2 ^ 63 + off

/-- An item with its source and destination. -/
def fromTo (src dst : Nat) (i : Item) : Item := { i with desc := put 24 (leBytes src 8 ++ leBytes dst 8) i.desc }

theorem witness_NocPackets_7 : ∃ (d : Dev) (p : Queued), d.grant 0 6 (fun _ => true) = some p := ⟨{ up with net := { up.net with queued := [⟨0, 5, 7, 1 * 4 + 341 * 2 ^ 10 + 0 * 2 ^ 22 + 0, 1, 0, 0, false, false⟩, ⟨0, 4, 8, 1 * 4 + 341 * 2 ^ 10 + 0 * 2 ^ 22 + 0 + 2 ^ 20, 1, 0, 0, false, false⟩], nextPacket := 9 } }, ⟨0, 4, 8, 1 * 4 + 341 * 2 ^ 10 + 0 * 2 ^ 22 + 0 + 2 ^ 20, 1, 0, 0, false, false⟩, by decide +kernel⟩

theorem test_wellFormed_accepts_0 : ([.nop 0, .eval 0, .evalDrive 0, .commit 0, .commitDrive 0, .memAddr 0, .memWdata 0, .memGo 0, .farAddr 0, .farData 0, .farGo 0, .edgeOut 0, .probe 0, .reservedMode 0, .bankArrayCycle 0, .farResponse 0 0 default, .snapshot 0, .belayConditionsMet 0, .belayRelease 0, .belayTimeout 0, .tickEdge 0, .presentation 0, .start 0 0, .halt 0 0, .takeWatchdog 0, .wdogPeriodUsWrite 0 0, .takeCtrlWrite 0 0, .injectThroughWrite 0 0, .checkCtrlWrite 0 0, .bankCtrlWrite 0 0 0, .farCtrlWrite 0 0 0 0, .slate (List.replicate 4096 0) default 0, .instrFrame [] default 0, .stateFrame [] default 0, .bankFrame [] default 0, .laneFrame [] default 0, .pitchFrame [] default 0, .edgeFrame [] default 0, .pinFrame [] default 0, .timebaseFrame [] default 0, .loadEnd 0, .regionRelease 0, .stateAck 0, .productionIdWrite 0 0 0, .stagedGlobalRelease 0 0, .edgeClockCycle 0 0 0 0, .blockMemoryAccess 0, .fifoWrite 0, .fifoPop 0, .edgePllLock 0, .probeSelWrite 0 0 0, .presentCfgWrite 0 0, .pinCfgHiWrite 0 0 0 0, .keeperWindowEnd 0 0 0, .lockKey 0 0 0, .lock 0 0 0, .lockSeqTimeout 0 0, .matchCtrlWrite 0 0 0, .pinMatch 0 0 0 0, .pinLevelRequest 0 0 0] : List Instr).all (fun c => c.wellFormed == true) = true := by decide +kernel

theorem test_wellFormed_accepts_1 : ([.minPulseElapsed 0 0 0, .rateWindowEnd 0 0 0, .outputReadback 0 0 0 0, .timeWrap 0, .addendWrite 0 0, .jumpAccept 0 0, .jumpReject 0 0, .resume 0 0, .syncInterval 0, .ptmExchange 0 0, .syncLoss 0, .dividerCount 0 0, .periodicInstant 0 0, .triggerEdge 0 0 0 0, .zeroCrossEdge 0 0 0 0, .lineSyncEdge 0 0 0 0, .encoderCount 0 0 0 0 0, .index 0 0 0, .lostTimeout 0 0, .substituteTick 0 0, .tbCfgWrite 0 0 0 0, .pulseCtrlWrite 0 0 0, .pulseBoundary 0 0, .captureEdge 0 0 0 0, .stampLoRead 0 0, .trigPulseEnd 0 0, .enable 0 0 0, .retrain 0 0 0, .peerClockActivity 0 0, .receivePllLock 0 0, .bitLockDone 0 0 0, .symbolLockDone 0 0, .linkStateTimeout 0 0, .exchangeA 0 0 0 0 0 0 0 0, .exchangeB 0 0 0, .exchangeC 0 0, .linkFrameSend 0 0, .replayTimeout 0 0, .linkLos 0 0 0, .linkLol 0 0 0, .announce 0 0 0 0 0, .sync 0 0 0, .followUp 0 0 0, .delayReq 0 0 0, .delayResp 0 0 0, .tick 0 0 0 0, .ready 0 0 0 0, .release 0 0 0 0 0, .stop 0 0 0 0, .startCheck 0 0 0, .lowrateReq 0, .lowrateAck 0, .fullrateReq 0, .txEqWrite 0 0 0, .registerWrite (.bar0 0 0) 0 0 0 0, .inflightPeakRead (.bar0 0 0) 0 0, .bar2Read 0 0 default, .bar2Write 0 [], .bar2OffsetHiWrite 0 0, .bar4Read 0 0] : List Instr).all (fun c => c.wellFormed == true) = true := by decide +kernel

theorem test_wellFormed_accepts_2 : ([.bar4Write 0 [], .go 0 0, .ctxRootWrite 0 0 0 0, .commitFences 0 0, .fenceLock 0 0, .ddrChannelReady 0 0, .ddrInitFailed 0 0 0 0, .ddrRetrain 0 0, .patrolScrubRead 0 default 0, .ddrRefresh 0 0, .dimmTempRead 0 0 0, .sqTailWrite 0 0 0, .cqHeadWrite 0 0 0, .qCtrlWrite 0 0 0, .queueReset 0 0 0, .descriptorFetch 0 default 0, .tokenPost 0 0, .itemDispatch 0 0, .restartPoint 0 0, .itemCompletion 0 default 0, .copy 0 0 default 0, .fill 0 0 default 0, .loadFrames 0 0 default 0, .readback 0 0 default 0, .verify 0 0 default 0, .inject 0 default 0, .capture 0 default 0, .restore 0 0 default 0, .checksum 0 0 default 0, .traceDrain 0 0 default 0, .erase 0 0 default 0, .fence 0 0, .token 0 0, .timer 0 0, .timerDue 0 0, .mailbox 0 default 0, .nocPacketArrival 0 0 0 0 0, .rspTimeout 0 0 0, .checkModeWrite 0 0, .routerDrained 0, .domCtrlWrite 0 0 0, .pointOfNoReturn 0 0, .domainOff 0 0, .domainOn 0 0, .targetWrite 0 0, .bivouacEntry 0, .pcieDStateChange 0, .limiterSample 0 0, .attach 0 0, .watchCtrlWrite 0 0, .bapGo 0 0, .bapDone default 0, .newNonce 0 0, .unlock 0 0, .unlockEraseDone default 0, .extest 0 0 0, .samplePreload 0 0 0, .idcode 0, .dbgAccess 0 0, .bypass 0 0 0] : List Instr).all (fun c => c.wellFormed == true) = true := by decide +kernel

theorem test_wellFormed_accepts_3 : ([.testLogicReset 0, .traceEnableWrite 0 0, .flush 0 0, .sinkRestart 0 0, .sinkLineWrite default 0, .traceOverflow 0, .tsPeriod 0, .snapReq 0 0, .mgmtWatchdog 0, .mgmtRestart 0, .doorbell 0, .mboxReply default 0, .getInfo 0, .logRead 0, .counterRead 0, .counterRaise 0, .updateBegin false 0, .updateData false 0, .updateCommit false 0, .sensorRead 0, .i2cXfer false [] 0, .clear false 0, .test 0, .estopInput 0, .estopDeassert 0, .instructionStoreScrub 0, .voltageMonitor 0 0 0 0, .thermalSample [] 0, .clockMonitor 0 0 0, .stepMhzWrite 0 0, .stepPllLock 0, .deviceReset 0 0, .resetCtrlDevice 0 0, .arrayReset 0, .edgeReset 0, .flrPf0 0, .flrPf1 0, .boot 0 0 [] 0 0, .pageLockWrite 0 0 0 0, .evRouteWrite 0 0 0 0, .evRaisedClear 0 0 0 0 0, .evEnableWrite 0 0 0 0, .evForceWrite 0 0 0 0, .referenceReturn 0, .offsetAbsorbed 0, .msixVectorUnmask 0 0 0, .tapHoldsDbgAccess 0, .railEntersWindow 0 0 0 0] : List Instr).all (fun c => c.wellFormed == true) = true := by decide +kernel

theorem test_wellFormed_refuses_0 : ([.nop 262144, .eval 262144, .evalDrive 262144, .commit 262144, .commitDrive 262144, .memAddr 262144, .memWdata 262144, .memGo 262144, .farAddr 262144, .farData 262144, .farGo 262144, .edgeOut 262144, .probe 262144, .reservedMode 262144, .bankArrayCycle 4096, .farResponse 64 0 default, .snapshot (2 ^ 64), .belayConditionsMet (2 ^ 64), .belayRelease (2 ^ 64), .belayTimeout (2 ^ 64), .tickEdge (2 ^ 64), .presentation (2 ^ 64), .start (2 ^ 32) 0, .start 0 (2 ^ 64), .halt (2 ^ 32) 0, .halt 0 (2 ^ 64), .takeWatchdog (2 ^ 64), .wdogPeriodUsWrite (2 ^ 32) 0, .wdogPeriodUsWrite 0 (2 ^ 64), .takeCtrlWrite (2 ^ 32) 0, .takeCtrlWrite 0 (2 ^ 64), .injectThroughWrite (2 ^ 32) 0, .injectThroughWrite 0 (2 ^ 64), .checkCtrlWrite (2 ^ 32) 0, .checkCtrlWrite 0 (2 ^ 64), .bankCtrlWrite 4096 0 0, .bankCtrlWrite 0 (2 ^ 32) 0, .bankCtrlWrite 0 0 (2 ^ 64), .farCtrlWrite 64 0 0 0, .farCtrlWrite 0 4096 0 0, .farCtrlWrite 0 0 (2 ^ 32) 0, .farCtrlWrite 0 0 0 (2 ^ 64), .slate [] default 0, .slate (List.replicate 4096 0) default (2 ^ 64), .instrFrame [] default (2 ^ 64), .stateFrame [] default (2 ^ 64), .bankFrame [] default (2 ^ 64), .laneFrame [] default (2 ^ 64), .pitchFrame [] default (2 ^ 64), .edgeFrame [] default (2 ^ 64), .pinFrame [] default (2 ^ 64), .timebaseFrame [] default (2 ^ 64), .loadEnd (2 ^ 64), .regionRelease (2 ^ 64), .stateAck (2 ^ 64), .productionIdWrite 2 0 0, .productionIdWrite 0 (2 ^ 32) 0, .productionIdWrite 0 0 (2 ^ 64), .stagedGlobalRelease (2 ^ 32) 0, .stagedGlobalRelease 0 (2 ^ 64)] : List Instr).all (fun c => c.wellFormed == false) = true := by decide +kernel

theorem test_wellFormed_refuses_1 : ([.edgeClockCycle 256 0 0 0, .edgeClockCycle 0 256 0 0, .edgeClockCycle 0 0 (2 ^ 320) 0, .edgeClockCycle 0 0 0 (2 ^ 64), .blockMemoryAccess 64, .fifoWrite 32, .fifoPop 32, .edgePllLock 2, .probeSelWrite 32 0 0, .probeSelWrite 0 (2 ^ 32) 0, .probeSelWrite 0 0 (2 ^ 64), .presentCfgWrite (2 ^ 32) 0, .presentCfgWrite 0 (2 ^ 64), .pinCfgHiWrite 10 0 0 0, .pinCfgHiWrite 0 32 0 0, .pinCfgHiWrite 0 0 (2 ^ 32) 0, .pinCfgHiWrite 0 0 0 (2 ^ 64), .keeperWindowEnd 320 0 0, .keeperWindowEnd 0 3 0, .keeperWindowEnd 0 0 (2 ^ 64), .lockKey 10 0 0, .lockKey 0 (2 ^ 32) 0, .lockKey 0 0 (2 ^ 64), .lock 10 0 0, .lock 0 (2 ^ 32) 0, .lock 0 0 (2 ^ 64), .lockSeqTimeout 10 0, .lockSeqTimeout 0 (2 ^ 64), .matchCtrlWrite 16 0 0, .matchCtrlWrite 0 (2 ^ 32) 0, .matchCtrlWrite 0 0 (2 ^ 64), .pinMatch 16 0 0 0, .pinMatch 0 (2 ^ 320) 0 0, .pinMatch 0 0 0 (2 ^ 64), .pinLevelRequest 320 0 0, .pinLevelRequest 0 3 0, .pinLevelRequest 0 0 (2 ^ 64), .minPulseElapsed 320 0 0, .minPulseElapsed 0 3 0, .minPulseElapsed 0 0 (2 ^ 64), .rateWindowEnd 320 0 0, .rateWindowEnd 0 3 0, .rateWindowEnd 0 0 (2 ^ 64), .outputReadback 320 0 0 0, .outputReadback 0 2 0 0, .outputReadback 0 0 (2 ^ 64) 0, .outputReadback 0 0 0 (2 ^ 64), .timeWrap (2 ^ 64), .addendWrite (2 ^ 32) 0, .addendWrite 0 (2 ^ 64), .jumpAccept (2 ^ 32) 0, .jumpAccept 0 (2 ^ 64), .jumpReject (2 ^ 32) 0, .jumpReject 0 (2 ^ 64), .resume (2 ^ 32) 0, .resume 0 (2 ^ 64), .syncInterval (2 ^ 64), .ptmExchange (2 ^ 64) 0, .ptmExchange 0 (2 ^ 64), .syncLoss (2 ^ 64)] : List Instr).all (fun c => c.wellFormed == false) = true := by decide +kernel

theorem test_wellFormed_refuses_2 : ([.dividerCount 4 0, .dividerCount 0 (2 ^ 64), .periodicInstant 4 0, .periodicInstant 0 (2 ^ 64), .triggerEdge 16 0 0 0, .triggerEdge 0 2 0 0, .triggerEdge 0 0 (2 ^ 64) 0, .triggerEdge 0 0 0 (2 ^ 64), .zeroCrossEdge 4 0 0 0, .zeroCrossEdge 0 2 0 0, .zeroCrossEdge 0 0 (2 ^ 64) 0, .zeroCrossEdge 0 0 0 (2 ^ 64), .lineSyncEdge 4 0 0 0, .lineSyncEdge 0 2 0 0, .lineSyncEdge 0 0 (2 ^ 64) 0, .lineSyncEdge 0 0 0 (2 ^ 64), .encoderCount 4 0 0 0 0, .encoderCount 0 2 0 0 0, .encoderCount 0 0 2 0 0, .encoderCount 0 0 0 (2 ^ 64) 0, .encoderCount 0 0 0 0 (2 ^ 64), .index 4 0 0, .index 0 (2 ^ 64) 0, .index 0 0 (2 ^ 64), .lostTimeout 4 0, .lostTimeout 0 (2 ^ 64), .substituteTick 4 0, .substituteTick 0 (2 ^ 64), .tbCfgWrite 4 0 0 0, .tbCfgWrite 0 128 0 0, .tbCfgWrite 0 0 (2 ^ 32) 0, .tbCfgWrite 0 0 0 (2 ^ 64), .pulseCtrlWrite 8 0 0, .pulseCtrlWrite 0 (2 ^ 32) 0, .pulseCtrlWrite 0 0 (2 ^ 64), .pulseBoundary 8 0, .pulseBoundary 0 (2 ^ 64), .captureEdge 16 0 0 0, .captureEdge 0 2 0 0, .captureEdge 0 0 (2 ^ 64) 0, .captureEdge 0 0 0 (2 ^ 64), .stampLoRead 16 0, .stampLoRead 0 (2 ^ 64), .trigPulseEnd 16 0, .trigPulseEnd 0 (2 ^ 64), .enable 8 0 0, .enable 0 (2 ^ 32) 0, .enable 0 0 (2 ^ 64), .retrain 8 0 0, .retrain 0 (2 ^ 32) 0, .retrain 0 0 (2 ^ 64), .peerClockActivity 8 0, .peerClockActivity 0 (2 ^ 64), .receivePllLock 8 0, .receivePllLock 0 (2 ^ 64), .bitLockDone 8 0 0, .bitLockDone 0 256 0, .bitLockDone 0 0 (2 ^ 64), .symbolLockDone 8 0, .symbolLockDone 0 (2 ^ 64)] : List Instr).all (fun c => c.wellFormed == false) = true := by decide +kernel

theorem test_wellFormed_refuses_3 : ([.linkStateTimeout 8 0, .linkStateTimeout 0 (2 ^ 64), .exchangeA 8 0 0 0 0 0 0 0, .exchangeA 0 256 0 0 0 0 0 0, .exchangeA 0 0 256 0 0 0 0 0, .exchangeA 0 0 0 256 0 0 0 0, .exchangeA 0 0 0 0 256 0 0 0, .exchangeA 0 0 0 0 0 256 0 0, .exchangeA 0 0 0 0 0 0 65536 0, .exchangeA 0 0 0 0 0 0 0 65536, .exchangeB 8 0 0, .exchangeB 0 (2 ^ 64) 0, .exchangeB 0 0 256, .exchangeC 8 0, .exchangeC 0 (2 ^ 64), .linkFrameSend 8 0, .linkFrameSend 0 (2 ^ 64), .replayTimeout 8 0, .replayTimeout 0 (2 ^ 64), .linkLos 8 0 0, .linkLos 0 128 0, .linkLos 0 0 (2 ^ 64), .linkLol 8 0 0, .linkLol 0 128 0, .linkLol 0 0 (2 ^ 64), .announce 8 0 0 0 0, .announce 0 2 0 0 0, .announce 0 0 16 0 0, .announce 0 0 0 256 0, .announce 0 0 0 0 256, .sync 8 0 0, .sync 0 (2 ^ 40) 0, .sync 0 0 (2 ^ 64), .followUp 8 0 0, .followUp 0 (2 ^ 64) 0, .followUp 0 0 2, .delayReq 8 0 0, .delayReq 0 2 0, .delayReq 0 0 (2 ^ 64), .delayResp 8 0 0, .delayResp 0 (2 ^ 64) 0, .delayResp 0 0 2, .tick 8 0 0 0, .tick 0 4 0 0, .tick 0 0 (2 ^ 64) 0, .tick 0 0 0 (2 ^ 32), .ready 8 0 0 0, .ready 0 256 0 0, .ready 0 0 (2 ^ 48) 0, .ready 0 0 0 256, .release 8 0 0 0 0, .release 0 256 0 0 0, .release 0 0 (2 ^ 64) 0 0, .release 0 0 0 256 0, .release 0 0 0 0 (2 ^ 48), .stop 8 0 0 0, .stop 0 256 0 0, .stop 0 0 (2 ^ 48) 0, .stop 0 0 0 256, .startCheck 8 0 0] : List Instr).all (fun c => c.wellFormed == false) = true := by decide +kernel

theorem test_wellFormed_refuses_4 : ([.startCheck 0 (2 ^ 64) 0, .startCheck 0 0 65536, .lowrateReq 8, .lowrateAck 8, .fullrateReq 8, .txEqWrite 8 0 0, .txEqWrite 0 (2 ^ 32) 0, .txEqWrite 0 0 (2 ^ 64), .registerWrite (.bar0 2 0) 0 0 0 0, .registerWrite (.bar0 0 0) 0 256 0 0, .registerWrite (.bar0 0 0) 0 0 (2 ^ 64) 0, .registerWrite (.bar0 0 0) 0 0 0 (2 ^ 64), .inflightPeakRead (.bar0 2 0) 0 0, .inflightPeakRead (.bar0 0 0) 0 (2 ^ 64), .bar2Read (2 ^ 48) 0 default, .bar2Write (2 ^ 48) [], .bar2OffsetHiWrite (2 ^ 32) 0, .bar2OffsetHiWrite 0 (2 ^ 64), .bar4Read (2 ^ 40) 0, .bar4Write (2 ^ 40) [], .go (2 ^ 32) 0, .go 0 (2 ^ 64), .ctxRootWrite 64 0 0 0, .ctxRootWrite 0 2 0 0, .ctxRootWrite 0 0 (2 ^ 32) 0, .ctxRootWrite 0 0 0 (2 ^ 64), .commitFences (2 ^ 32) 0, .commitFences 0 (2 ^ 64), .fenceLock (2 ^ 32) 0, .fenceLock 0 (2 ^ 64), .ddrChannelReady 8 0, .ddrChannelReady 0 (2 ^ 64), .ddrInitFailed 8 0 0 0, .ddrInitFailed 0 65536 0 0, .ddrInitFailed 0 0 2 0, .ddrInitFailed 0 0 0 (2 ^ 64), .ddrRetrain (2 ^ 32) 0, .ddrRetrain 0 (2 ^ 64), .patrolScrubRead 8 default 0, .patrolScrubRead 0 default (2 ^ 64), .ddrRefresh 8 0, .ddrRefresh 0 (2 ^ 64), .dimmTempRead 8 0 0, .dimmTempRead 0 256 0, .dimmTempRead 0 0 (2 ^ 64), .sqTailWrite 64 0 0, .sqTailWrite 0 (2 ^ 32) 0, .sqTailWrite 0 0 (2 ^ 64), .cqHeadWrite 64 0 0, .cqHeadWrite 0 (2 ^ 32) 0, .cqHeadWrite 0 0 (2 ^ 64), .qCtrlWrite 64 0 0, .qCtrlWrite 0 (2 ^ 32) 0, .qCtrlWrite 0 0 (2 ^ 64), .queueReset 64 0 0, .queueReset 0 (2 ^ 32) 0, .queueReset 0 0 (2 ^ 64), .descriptorFetch 64 default 0, .descriptorFetch 0 default (2 ^ 64), .tokenPost (2 ^ 32) 0] : List Instr).all (fun c => c.wellFormed == false) = true := by decide +kernel

theorem test_wellFormed_refuses_5 : ([.tokenPost 0 (2 ^ 64), .itemDispatch 32 0, .itemDispatch 0 (2 ^ 64), .restartPoint 32 0, .restartPoint 0 (2 ^ 64), .itemCompletion 64 default 0, .itemCompletion 0 default (2 ^ 64), .copy 32 0 default 0, .copy 0 0 default (2 ^ 64), .fill 32 0 default 0, .fill 0 0 default (2 ^ 64), .loadFrames 32 0 default 0, .loadFrames 0 0 default (2 ^ 64), .readback 32 0 default 0, .readback 0 0 default (2 ^ 64), .verify 32 0 default 0, .verify 0 0 default (2 ^ 64), .inject 32 default 0, .inject 0 default (2 ^ 64), .capture 32 default 0, .capture 0 default (2 ^ 64), .restore 32 0 default 0, .restore 0 0 default (2 ^ 64), .checksum 32 0 default 0, .checksum 0 0 default (2 ^ 64), .traceDrain 32 0 default 0, .traceDrain 0 0 default (2 ^ 64), .erase 32 0 default 0, .erase 0 0 default (2 ^ 64), .fence 64 0, .fence 0 (2 ^ 64), .token 64 0, .token 0 (2 ^ 64), .timer 64 0, .timer 0 (2 ^ 64), .timerDue 16 0, .timerDue 0 (2 ^ 64), .mailbox 64 default 0, .mailbox 0 default (2 ^ 64), .nocPacketArrival 256 0 0 0 0, .nocPacketArrival 0 8 0 0 0, .nocPacketArrival 0 0 (2 ^ 128) 0 0, .nocPacketArrival 0 0 0 3 0, .nocPacketArrival 0 0 0 0 (2 ^ 64), .rspTimeout 2 0 0, .rspTimeout 0 0 (2 ^ 64), .checkModeWrite (2 ^ 32) 0, .checkModeWrite 0 (2 ^ 64), .routerDrained (2 ^ 64), .domCtrlWrite 113 0 0, .domCtrlWrite 0 (2 ^ 32) 0, .domCtrlWrite 0 0 (2 ^ 64), .pointOfNoReturn 113 0, .pointOfNoReturn 0 (2 ^ 64), .domainOff 113 0, .domainOff 0 (2 ^ 64), .domainOn 113 0, .domainOn 0 (2 ^ 64), .targetWrite (2 ^ 32) 0, .targetWrite 0 (2 ^ 64)] : List Instr).all (fun c => c.wellFormed == false) = true := by decide +kernel

theorem test_wellFormed_refuses_6 : ([.bivouacEntry (2 ^ 64), .pcieDStateChange 4, .limiterSample 0 (2 ^ 64), .attach (2 ^ 32) 0, .attach 0 (2 ^ 64), .watchCtrlWrite (2 ^ 32) 0, .watchCtrlWrite 0 (2 ^ 64), .bapGo (2 ^ 32) 0, .bapGo 0 (2 ^ 64), .bapDone default (2 ^ 64), .newNonce (2 ^ 32) 0, .newNonce 0 (2 ^ 64), .unlock (2 ^ 32) 0, .unlock 0 (2 ^ 64), .unlockEraseDone default (2 ^ 64), .extest (2 ^ 644) 0 0, .extest 0 (2 ^ 324) 0, .extest 0 0 (2 ^ 64), .samplePreload (2 ^ 324) 0 0, .samplePreload 0 (2 ^ 644) 0, .samplePreload 0 0 (2 ^ 64), .idcode (2 ^ 64), .dbgAccess (2 ^ 60) 0, .dbgAccess 0 (2 ^ 64), .bypass 0 0 (2 ^ 64), .testLogicReset (2 ^ 64), .traceEnableWrite (2 ^ 32) 0, .traceEnableWrite 0 (2 ^ 64), .flush (2 ^ 32) 0, .flush 0 (2 ^ 64), .sinkRestart (2 ^ 32) 0, .sinkRestart 0 (2 ^ 64), .sinkLineWrite default (2 ^ 64), .traceOverflow (2 ^ 64), .tsPeriod (2 ^ 64), .snapReq (2 ^ 32) 0, .snapReq 0 (2 ^ 64), .mgmtWatchdog (2 ^ 64), .mgmtRestart (2 ^ 64), .doorbell (2 ^ 64), .mboxReply default (2 ^ 64), .getInfo (2 ^ 64), .logRead (2 ^ 64), .counterRead (2 ^ 64), .counterRaise (2 ^ 64), .updateBegin false (2 ^ 64), .updateData false (2 ^ 64), .updateCommit false (2 ^ 64), .sensorRead (2 ^ 64), .i2cXfer false [] (2 ^ 64), .clear false (2 ^ 64), .test (2 ^ 64), .estopInput (2 ^ 64), .estopDeassert (2 ^ 64), .instructionStoreScrub (2 ^ 64), .voltageMonitor 8 0 0 0, .voltageMonitor 0 10 0 0, .voltageMonitor 0 0 65536 0, .voltageMonitor 0 0 0 (2 ^ 64), .thermalSample [] (2 ^ 64)] : List Instr).all (fun c => c.wellFormed == false) = true := by decide +kernel

theorem test_wellFormed_refuses_7 : ([.clockMonitor 8 0 0, .clockMonitor 0 2 0, .clockMonitor 0 0 (2 ^ 64), .stepMhzWrite (2 ^ 32) 0, .stepMhzWrite 0 (2 ^ 64), .stepPllLock (2 ^ 64), .deviceReset 4 0, .deviceReset 0 (2 ^ 64), .resetCtrlDevice (2 ^ 32) 0, .resetCtrlDevice 0 (2 ^ 64), .arrayReset (2 ^ 64), .edgeReset (2 ^ 64), .flrPf0 (2 ^ 64), .flrPf1 (2 ^ 64), .boot 0 0 [] (2 ^ 64) 0, .boot 0 0 [] 0 (2 ^ 64), .pageLockWrite 2 0 0 0, .pageLockWrite 0 (2 ^ 32) 0 0, .pageLockWrite 0 0 (2 ^ 32) 0, .pageLockWrite 0 0 0 (2 ^ 64), .evRouteWrite 2 0 0 0, .evRouteWrite 0 (2 ^ 32) 0 0, .evRouteWrite 0 0 (2 ^ 32) 0, .evRouteWrite 0 0 0 (2 ^ 64), .evRaisedClear 2 0 0 0 0, .evRaisedClear 0 (2 ^ 32) 0 0 0, .evRaisedClear 0 0 (2 ^ 32) 0 0, .evRaisedClear 0 0 0 (2 ^ 32) 0, .evRaisedClear 0 0 0 0 (2 ^ 64), .evEnableWrite 2 0 0 0, .evEnableWrite 0 (2 ^ 32) 0 0, .evEnableWrite 0 0 (2 ^ 32) 0, .evEnableWrite 0 0 0 (2 ^ 64), .evForceWrite 2 0 0 0, .evForceWrite 0 (2 ^ 32) 0 0, .evForceWrite 0 0 (2 ^ 32) 0, .evForceWrite 0 0 0 (2 ^ 64), .referenceReturn (2 ^ 64), .offsetAbsorbed (2 ^ 64), .msixVectorUnmask 2 0 0, .msixVectorUnmask 0 2048 0, .msixVectorUnmask 0 0 (2 ^ 64), .tapHoldsDbgAccess (2 ^ 64), .railEntersWindow 8 0 0 0, .railEntersWindow 0 10 0 0, .railEntersWindow 0 0 65536 0, .railEntersWindow 0 0 0 (2 ^ 64), .registerWrite (.bar0 0 (2 ^ 26)) 4 15 0 0, .registerWrite (.bar0 1 (2 ^ 20)) 4 15 0 0, .registerWrite (.msixEnable 2) 4 15 0 0] : List Instr).all (fun c => c.wellFormed == false) = true := by decide +kernel

theorem witness_StepRunsFront_0 : ∃ (s : State) (c : Instr) (rest : List Instr), (s.pending = c :: rest) := ⟨({ State.reset with pending := [Instr.belayEntry, Instr.releaseStage1] }), (Instr.belayEntry), ([Instr.releaseStage1]), by decide +kernel⟩

theorem witness_WordWritesItsEntries_0 : ∃ (s : State) (bp : Nat) (w : Nat), (s.dev.fetches bp w = true) ∧ (s.dev.fetchFaults bp (.clean w) = []) ∧ (wordMode w = 0) := ⟨(st (stepping 0)), (0), (0), by and_intros <;> decide +kernel⟩

theorem witness_WordWritesItsEntries_1 : ∃ (s : State) (bp : Nat) (w : Nat) (a : Nat) (b : Nat) (c : Nat) (e : Nat), (s.dev.evaluates bp w a b c e = true) ∧ (wordMode w = 1) := ⟨(st (stepping 0x38001c003000c003001aaaa)), (0), (0x38001c003000c003001aaaa), (1), (0), (0), (0), by and_intros <;> decide +kernel⟩

theorem witness_WordWritesItsEntries_2 : ∃ (s : State) (bp : Nat) (w : Nat) (a : Nat) (b : Nat) (c : Nat) (e : Nat), (s.dev.evaluates bp w a b c e = true) ∧ (wordMode w = 3) := ⟨(st (stepping 0x39ff3c003000c003001aaaa)), (0), (0x39ff3c003000c003001aaaa), (1), (0), (0), (0), by and_intros <;> decide +kernel⟩

theorem witness_WordWritesItsEntries_3 : ∃ (s : State) (bp : Nat) (w : Nat) (a : Nat) (b : Nat) (c : Nat) (e : Nat), (s.dev.evaluates bp w a b c e = true) ∧ (wordMode w = 4) := ⟨(st (stepping 0x3fff4c003000c003001aaaa)), (0), (0x3fff4c003000c003001aaaa), (1), (0), (0), (0), by and_intros <;> decide +kernel⟩

theorem witness_WordStagesSharedAction_0 : ∃ (s : State) (bp : Nat) (w : Nat) (a : Nat) (b : Nat) (c : Nat) (e : Nat), (s.dev.evaluates bp w a b c e = true) ∧ (wordMode w = 2) := ⟨(st (stepping 0x38072c003000c003001aaaa)), (0), (0x38072c003000c003001aaaa), (1), (0), (0), (0), by and_intros <;> decide +kernel⟩

theorem witness_WordStagesSharedAction_1 : ∃ (s : State) (bp : Nat) (w : Nat) (a : Nat) (b : Nat) (c : Nat) (e : Nat), (s.dev.evaluates bp w a b c e = true) ∧ (wordMode w = 5) := ⟨(st (stepping 0x38015c003000c003001aaaa)), (0), (0x38015c003000c003001aaaa), (1), (0), (0), (0), by and_intros <;> decide +kernel⟩

theorem witness_WordStagesSharedAction_2 : ∃ (s : State) (bp : Nat) (w : Nat) (a : Nat) (b : Nat) (c : Nat) (e : Nat), (s.dev.evaluates bp w a b c e = true) ∧ (wordMode w = 6) := ⟨(st (stepping 0x39ff6c003000c003001aaaa)), (0), (0x39ff6c003000c003001aaaa), (1), (0), (0), (0), by and_intros <;> decide +kernel⟩

theorem witness_WordStagesSharedAction_3 : ∃ (s : State) (bp : Nat) (w : Nat) (a : Nat) (b : Nat) (c : Nat) (e : Nat), (s.dev.evaluates bp w a b c e = true) ∧ (wordMode w = 7) := ⟨(st (stepping 0x38037c003000c003001aaaa)), (0), (0x38037c003000c003001aaaa), (1), (0), (0), (0), by and_intros <;> decide +kernel⟩

theorem witness_WordStagesSharedAction_4 : ∃ (s : State) (bp : Nat) (w : Nat) (a : Nat) (b : Nat) (c : Nat) (e : Nat), (s.dev.evaluates bp w a b c e = true) ∧ (wordMode w = 8) := ⟨(st (stepping 0x383f8c003000c003001aaaa)), (0), (0x383f8c003000c003001aaaa), (1), (0), (0), (0), by and_intros <;> decide +kernel⟩

theorem witness_WordStagesSharedAction_5 : ∃ (s : State) (bp : Nat) (w : Nat) (a : Nat) (b : Nat) (c : Nat) (e : Nat), (s.dev.evaluates bp w a b c e = true) ∧ (wordMode w = 9) := ⟨(st (stepping 0x39ff9c003000c003001aaaa)), (0), (0x39ff9c003000c003001aaaa), (1), (0), (0), (0), by and_intros <;> decide +kernel⟩

theorem witness_WordStagesSharedAction_6 : ∃ (s : State) (bp : Nat) (w : Nat) (a : Nat) (b : Nat) (c : Nat) (e : Nat), (s.dev.evaluates bp w a b c e = true) ∧ (wordMode w = 10) := ⟨(st (stepping 0x3801ac003000c003000aaaa)), (0), (0x3801ac003000c003000aaaa), (0), (0), (0), (0), by and_intros <;> decide +kernel⟩

theorem witness_WordStagesSharedAction_7 : ∃ (s : State) (bp : Nat) (w : Nat) (a : Nat) (b : Nat) (c : Nat) (e : Nat), (s.dev.evaluates bp w a b c e = true) ∧ (wordMode w = 11) := ⟨(st ({ stepping 0x3bffbc003000c003001aaaa with edge := { up.edge with lanemap := [(2047, 0x80000000)] } })), (0), (0x3bffbc003000c003001aaaa), (1), (0), (0), (0), by and_intros <;> decide +kernel⟩

theorem witness_WordStagesSharedAction_8 : ∃ (s : State) (bp : Nat) (w : Nat) (a : Nat) (b : Nat) (c : Nat) (e : Nat), (s.dev.evaluates bp w a b c e = true) ∧ (wordMode w = 12) := ⟨(st (stepping 0x383fcc003000c003001aaaa)), (0), (0x383fcc003000c003001aaaa), (1), (0), (0), (0), by and_intros <;> decide +kernel⟩

theorem witness_WordStagesSharedAction_3_1 : ∃ (s : State) (bp : Nat) (w : Nat) (a : Nat) (b : Nat) (c : Nat) (e : Nat), (s.dev.evaluates bp w a b c e = true) ∧ (wordMode w = 7) := ⟨(st (stepping 0x38037c003000c003000aaaa)), (0), (0x38037c003000c003000aaaa), (0), (0), (0), (0), by and_intros <;> decide +kernel⟩

theorem witness_ResultIsTruthTable_0 : ∃ (s : State) (bp : Nat) (w : Nat) (a : Nat) (b : Nat) (c : Nat) (e : Nat), (s.dev.evaluates bp w a b c e = true) ∧ (wordMode w ≠ 0) := ⟨(st (stepping 0x38001c003000c003001aaaa)), (0), (0x38001c003000c003001aaaa), (1), (0), (0), (0), by and_intros <;> decide +kernel⟩

theorem witness_WordFaults_0 : ∃ (s : State) (bp : Nat) (w : Nat) (z : Nat), (s.dev.toAct bp = true) ∧ (s.dev.fetch bp s.dev.tk.step = .bad w z) := ⟨(st { stepping 0 with arr := { up.arr with cols := [(3, encodeEcc 96 0x38001c003000c003000aaaa ^^^ 3)] } }), (0), (0x38001c003000c003000aaa9), (6), by and_intros <;> decide +kernel⟩

theorem witness_WordFaults_1 : ∃ (s : State) (bp : Nat) (w : Nat), (s.dev.fetches bp w = true) ∧ (0xD ≤ wordMode w) ∧ (wordRsvd w = 0) ∧ (wordAux w = 0) := ⟨(st (stepping 0x3800dc003000c003000aaaa)), (0), (0x3800dc003000c003000aaaa), by and_intros <;> decide +kernel⟩

theorem witness_WordFaults_1_1 : ∃ (s : State) (bp : Nat) (w : Nat), (s.dev.fetches bp w = true) ∧ (0xD ≤ wordMode w) ∧ (wordRsvd w = 0) ∧ (wordAux w = 0) := ⟨(st (stepping 0x3800fc003000c003000aaaa)), (0), (0x3800fc003000c003000aaaa), by and_intros <;> decide +kernel⟩

theorem witness_WordFaults_2 : ∃ (s : State) (bp : Nat) (w : Nat), (s.dev.fetches bp w = true) ∧ (s.dev.fetchFaults bp (.clean w) ≠ []) := ⟨(st (stepping 0x1c003000c003000aaaa)), (0), (0x1c003000c003000aaaa), by and_intros <;> decide +kernel⟩

theorem witness_WordFaults_2_1 : ∃ (s : State) (bp : Nat) (w : Nat), (s.dev.fetches bp w = true) ∧ (s.dev.fetchFaults bp (.clean w) ≠ []) := ⟨(st (stepping 0x3800ec003000c003000aaaa)), (0), (0x3800ec003000c003000aaaa), by and_intros <;> decide +kernel⟩

theorem witness_WordFaults_3 : ∃ (s : State) (bp : Nat) (w : Nat), (s.dev.toAct bp = true) ∧ (s.dev.fetch bp s.dev.tk.step = .corrected w) ∧ (s.dev.fetchFaults bp (.clean w) = []) := ⟨(st { stepping 0 with arr := { up.arr with cols := [(3, encodeEcc 96 0x38001c003000c003000aaaa ^^^ 1)] } }), (0), (0x38001c003000c003000aaaa), by and_intros <;> decide +kernel⟩

theorem witness_WordFaults_4 : ∃ (s : State) (bp : Nat) (w : Nat), (s.dev.toAct bp = true) ∧ (s.dev.fetch bp s.dev.tk.step = .corrected w) ∧ (s.dev.fetchFaults bp (.clean w) ≠ []) := ⟨(st { stepping 0 with arr := { up.arr with cols := [(3, encodeEcc 96 0x1c003000c003000aaaa ^^^ 1)] } }), (0), (0x1c003000c003000aaaa), by and_intros <;> decide +kernel⟩

theorem witness_WordFaults_5 : ∃ (s : State) (bp : Nat) (w : Nat), (s.dev.fetches bp w = true) ∧ (s.dev.fetchFaults bp (.clean w) = []) ∧ (wordMode w ≠ 0) ∧ ((s.dev.result bp s.dev.tk.step w).2 ≠ []) := ⟨(st { stepping 0 with arr := { up.arr with cols := [(3, encodeEcc 96 0x38001c003000c001008aaaa)], segDef := 0 } }), (0), (0x38001c003000c001008aaaa), by and_intros <;> decide +kernel⟩

theorem witness_WordFaults_6 : ∃ (s : State) (bp : Nat) (w : Nat), (s.dev.fetches bp w = true) ∧ (s.dev.fetchFaults bp (.clean w) = []) ∧ (wordMode w ≠ 0) ∧ ((s.dev.result bp s.dev.tk.step w).2 = []) ∧ (s.dev.overBudget (bp / 4096) s.dev.tk.step = true) := ⟨(st (((stepping 0x38001c003000c003000aaaa).wrAt R.CHECK.BUDGET 0 0 0).wr R.CHECK.COST_TABLE 1)), (0), (0x38001c003000c003000aaaa), by and_intros <;> decide +kernel⟩

theorem witness_WordFaults_7 : ∃ (s : State) (bp : Nat) (w : Nat) (r : Nat), (s.dev.fetches bp w = true) ∧ (s.dev.fetchFaults bp (.clean w) = []) ∧ (wordMode w ≠ 0) ∧ (s.dev.result bp s.dev.tk.step w = (r, [])) ∧ (s.dev.overBudget (bp / 4096) s.dev.tk.step = false) ∧ (s.dev.actFaults bp w r ≠ []) := ⟨(st (stepping 0x3800bc003000c003000aaaa)), (0), (0x3800bc003000c003000aaaa), (0), by and_intros <;> decide +kernel⟩

theorem witness_WordFaults_8 : ∃ (s : State) (row : Nat) (bp : Nat), (row ≤ 0xD) ∧ (bp < s.dev.bps) ∧ ((s.dev.toAct bp = false ∨ (s.dev.fetch bp s.dev.tk.step).row ≠ row)) := ⟨(st up), (1), (0), by and_intros <;> decide +kernel⟩

theorem witness_WordFaults_8_1 : ∃ (s : State) (row : Nat) (bp : Nat), (row ≤ 0xD) ∧ (bp < s.dev.bps) ∧ ((s.dev.toAct bp = false ∨ (s.dev.fetch bp s.dev.tk.step).row ≠ row)) := ⟨(st (stepping 0)), (1), (0), by and_intros <;> decide +kernel⟩

theorem witness_WordFaults_9 : ∃ (s : State) (bp : Nat), (s.dev.bps ≤ bp) := ⟨(st up), (262144), by decide +kernel⟩

theorem witness_BelayEntryAndConditions_0 : ∃ (s : State) (b : Nat), (s.dev.tk.phase = .ended) ∧ (s.dev.tk.peerStop = none) ∧ (s.dev.tk.linkStop = false) ∧ (s.dev.running = true) ∧ (b = (s.dev.tk.belay + 1) % max 1 s.dev.tk.pitches) ∧ (b ≠ 0) := ⟨(st (inBelay .ended 0)), (1), by and_intros <;> decide +kernel⟩

theorem witness_BelayEntryAndConditions_1 : ∃ (s : State), (s.dev.tk.phase = .ended) ∧ (s.dev.tk.peerStop = none) ∧ (s.dev.tk.linkStop = false) ∧ ((s.dev.tk.belay + 1) % max 1 s.dev.tk.pitches = 0) := ⟨(st (inBelay .ended 1)), by and_intros <;> decide +kernel⟩

theorem witness_BelayEntryAndConditions_2 : ∃ (s : State) (p : Nat), (s.dev.tk.phase = .ended) ∧ (s.dev.tk.peerStop = some p) := ⟨(st { inBelay .ended 1 with tk := { (inBelay .ended 1).tk with peerStop := some 3 } }), (3), by and_intros <;> decide +kernel⟩

theorem witness_BelayEntryAndConditions_3 : ∃ (s : State), (s.dev.tk.phase = .ended) ∧ (s.dev.tk.peerStop = none) ∧ (s.dev.tk.linkStop = true) := ⟨(st { inBelay .ended 1 with tk := { (inBelay .ended 1).tk with linkStop := true } }), by and_intros <;> decide +kernel⟩

theorem witness_BelayEntryAndConditions_4 : ∃ (s : State), (s.dev.tk.phase ≠ .ended) := ⟨(st (inBelay .waiting 0)), by decide +kernel⟩

theorem witness_BelayEntryAndConditions_5 : ∃ (s : State) (t : Nat), (s.dev.tk.phase = .waiting) ∧ ((s.dev.toTime t).unmet = 0) ∧ (s.dev.tk.hold ≤ (s.dev.toTime t).mono) ∧ ((s.dev.toTime t).rewait.stealDue = false) ∧ ((s.dev.tk.belay = 0 → s.dev.edge.present.length < 16)) := ⟨(st (inBelay .waiting 1)), (5), by and_intros <;> decide +kernel⟩

theorem witness_BelayEntryAndConditions_5_1 : ∃ (s : State) (t : Nat), (s.dev.tk.phase = .waiting) ∧ ((s.dev.toTime t).unmet = 0) ∧ (s.dev.tk.hold ≤ (s.dev.toTime t).mono) ∧ ((s.dev.toTime t).rewait.stealDue = false) ∧ ((s.dev.tk.belay = 0 → s.dev.edge.present.length < 16)) := ⟨(st (inBelay .waiting 0)), (5), by and_intros <;> decide +kernel⟩

theorem witness_BelayEntryAndConditions_5_2 : ∃ (s : State) (t : Nat), (s.dev.tk.phase = .waiting) ∧ ((s.dev.toTime t).unmet = 0) ∧ (s.dev.tk.hold ≤ (s.dev.toTime t).mono) ∧ ((s.dev.toTime t).rewait.stealDue = false) ∧ ((s.dev.tk.belay = 0 → s.dev.edge.present.length < 16)) := ⟨(st (linked (inBelay .waiting 1))), (5), by and_intros <;> decide +kernel⟩

theorem witness_BelayEntryAndConditions_6 : ∃ (s : State) (t : Nat), ((s.dev.tk.phase ≠ .waiting ∨ (s.dev.toTime t).unmet ≠ 0 ∨ (s.dev.toTime t).mono < s.dev.tk.hold ∨ (s.dev.toTime t).rewait.stealDue = true ∨
      s.dev.tk.belay = 0 ∧ 16 ≤ s.dev.edge.present.length)) := ⟨(st { inBelay .waiting 1 with tk := { (inBelay .waiting 1).tk with hold := 2 ^ 70 } }), (5), by decide +kernel⟩

theorem witness_BelayEntryAndConditions_6_1 : ∃ (s : State) (t : Nat), ((s.dev.tk.phase ≠ .waiting ∨ (s.dev.toTime t).unmet ≠ 0 ∨ (s.dev.toTime t).mono < s.dev.tk.hold ∨ (s.dev.toTime t).rewait.stealDue = true ∨
      s.dev.tk.belay = 0 ∧ 16 ≤ s.dev.edge.present.length)) := ⟨(st ((inBelay .waiting 0).wr R.TAKE.TAKE_CTRL_MODE 1)), (5), by decide +kernel⟩

theorem witness_BelayReleaseTimeoutTick_0 : ∃ (s : State) (t : Nat), (s.dev.tk.phase = .met) ∧ ((s.dev.linked = false ∨ ∃ r, s.dev.tk.release = some r ∧ r ≤ (s.dev.toTime t).now)) := ⟨(st (inBelay .met 1)), (5), by and_intros <;> decide +kernel⟩

theorem witness_BelayReleaseTimeoutTick_0_1 : ∃ (s : State) (t : Nat), (s.dev.tk.phase = .met) ∧ ((s.dev.linked = false ∨ ∃ r, s.dev.tk.release = some r ∧ r ≤ (s.dev.toTime t).now)) := ⟨(st { linked (inBelay .met 1) with tk := { (linked (inBelay .met 1)).tk with release := some 0 } }), (5), ⟨by decide +kernel, Or.inr ⟨0, by decide +kernel⟩⟩⟩

theorem witness_BelayReleaseTimeoutTick_1 : ∃ (s : State) (t : Nat), ((s.dev.tk.phase ≠ .met ∨ s.dev.linked = true ∧ (s.dev.tk.release = none ∨ ∃ r, s.dev.tk.release = some r ∧ (s.dev.toTime t).now < r))) := ⟨(st (linked (inBelay .met 1))), (5), Or.inr ⟨by decide +kernel, Or.inl (by decide +kernel)⟩⟩

theorem witness_BelayReleaseTimeoutTick_1_1 : ∃ (s : State) (t : Nat), ((s.dev.tk.phase ≠ .met ∨ s.dev.linked = true ∧ (s.dev.tk.release = none ∨ ∃ r, s.dev.tk.release = some r ∧ (s.dev.toTime t).now < r))) := ⟨(st { linked (inBelay .met 1) with tk := { (linked (inBelay .met 1)).tk with release := some (2 ^ 70) } }), (5), Or.inr ⟨by decide +kernel, Or.inr ⟨2 ^ 70, by decide +kernel⟩⟩⟩

theorem witness_BelayReleaseTimeoutTick_2 : ∃ (s : State) (t : Nat), ((s.dev.toTime t).timerCounts = true) ∧ (fieldAt ((s.dev.toTime t).mapEntry s.dev.tk.belay) 24 10 * usec ≤ (s.dev.toTime t).tk.waited) ∧ ((s.dev.tk.belay ≠ 0 ∨ s.dev.rd R.TAKE.TAKE_NUMBER ≠ 0)) := ⟨(st { inBelay .waiting 1 with tk := { (inBelay .waiting 1).tk with waits := 2, waited := 0 } }), (0), by and_intros <;> decide +kernel⟩

theorem witness_BelayReleaseTimeoutTick_3 : ∃ (s : State) (t : Nat), (((s.dev.toTime t).timerCounts = false ∨ (s.dev.toTime t).tk.waited < fieldAt ((s.dev.toTime t).mapEntry s.dev.tk.belay) 24 10 * usec ∨
      s.dev.tk.belay = 0 ∧ s.dev.rd R.TAKE.TAKE_NUMBER = 0)) := ⟨(st (inBelay .waiting 1)), (0), by decide +kernel⟩

theorem witness_BelayReleaseTimeoutTick_3_1 : ∃ (s : State) (t : Nat), (((s.dev.toTime t).timerCounts = false ∨ (s.dev.toTime t).tk.waited < fieldAt ((s.dev.toTime t).mapEntry s.dev.tk.belay) 24 10 * usec ∨
      s.dev.tk.belay = 0 ∧ s.dev.rd R.TAKE.TAKE_NUMBER = 0)) := ⟨(st (inBelay .waiting 0)), (0), by decide +kernel⟩

theorem witness_BelayReleaseTimeoutTick_3_2 : ∃ (s : State) (t : Nat), (((s.dev.toTime t).timerCounts = false ∨ (s.dev.toTime t).tk.waited < fieldAt ((s.dev.toTime t).mapEntry s.dev.tk.belay) 24 10 * usec ∨
      s.dev.tk.belay = 0 ∧ s.dev.rd R.TAKE.TAKE_NUMBER = 0)) := ⟨(st ((inBelay .waiting 1).wrAt R.TAKE.PITCH_MAP 0 1 (2 ^ 24))), (5), by decide +kernel⟩

theorem witness_BelayReleaseTimeoutTick_4 : ∃ (s : State) (t : Nat) (u : Nat) (f : Fate) (rest : List (Nat × Fate)), (s.dev.tk.ticks = (u, f) :: rest) ∧ ((s.dev.toTime t).edgeReached u = true) ∧ (s.dev.isMaster = true) := ⟨(st { inBelay .waiting 0 with tk := { (inBelay .waiting 0).tk with ticks := [(0, .starts)] } }), (0x1000000000), (0), (.starts), ([]), by and_intros <;> decide +kernel⟩

theorem witness_BelayReleaseTimeoutTick_4_1 : ∃ (s : State) (t : Nat) (u : Nat) (f : Fate) (rest : List (Nat × Fate)), (s.dev.tk.ticks = (u, f) :: rest) ∧ ((s.dev.toTime t).edgeReached u = true) ∧ (s.dev.isMaster = true) := ⟨(st { inBelay .waiting 0 with tk := { (inBelay .waiting 0).tk with ticks := [(0, .discarded), (1, .starts)] } }), (0x1000000000), (0), (.discarded), ([(1, .starts)]), by and_intros <;> decide +kernel⟩

theorem witness_BelayReleaseTimeoutTick_5 : ∃ (s : State) (t : Nat), ((s.dev.tk.ticks = [] ∨ ∃ u f rest, s.dev.tk.ticks = (u, f) :: rest ∧ ((s.dev.toTime t).edgeReached u = false ∨ s.dev.isMaster = false))) := ⟨(st up), (5), Or.inl (by decide +kernel)⟩

theorem witness_BelayReleaseTimeoutTick_5_1 : ∃ (s : State) (t : Nat), ((s.dev.tk.ticks = [] ∨ ∃ u f rest, s.dev.tk.ticks = (u, f) :: rest ∧ ((s.dev.toTime t).edgeReached u = false ∨ s.dev.isMaster = false))) := ⟨(st { inBelay .waiting 0 with tk := { (inBelay .waiting 0).tk with ticks := [(2 ^ 70, .starts)] } }), (5), Or.inr ⟨2 ^ 70, .starts, [], by decide +kernel⟩⟩

theorem witness_RunControl_0 : ∃ (s : State) (w : Nat) (t : Nat) (d1 : Dev), (s.dev.reaches 0x15 = true) ∧ (bitAt w 1 = 0) ∧ (s.dev.running = false) ∧ (d1 = (s.dev.atRunCtrl (w ||| 1) t).checkedStart) ∧ (d1.startReason = none) ∧ ((d1.checkPorts.all fun p => (d1.port p).peerDigest.isSome) = true) ∧ (s.dev.on R.CLK.CLK_STATUS_STEP_LOCKED = true) := ⟨(st ready), (0), (5), (_), ⟨by decide +kernel, by decide +kernel, by decide +kernel, rfl, by and_intros <;> decide +kernel⟩⟩

theorem witness_RunControl_1 : ∃ (s : State) (w : Nat) (t : Nat) (d1 : Dev), (s.dev.reaches 0x15 = true) ∧ (bitAt w 1 = 0) ∧ (s.dev.running = false) ∧ (d1 = (s.dev.atRunCtrl (w ||| 1) t).checkedStart) ∧ (d1.startReason = none) ∧ ((d1.checkPorts.all fun p => (d1.port p).peerDigest.isSome) = true) ∧ (s.dev.on R.CLK.CLK_STATUS_STEP_LOCKED = false) := ⟨(st (ready.wr R.CLK.CLK_STATUS_STEP_LOCKED 0)), (0), (5), (_), ⟨by decide +kernel, by decide +kernel, by decide +kernel, rfl, by and_intros <;> decide +kernel⟩⟩

theorem witness_RunControl_2 : ∃ (s : State) (w : Nat) (t : Nat) (d1 : Dev), (s.dev.reaches 0x15 = true) ∧ (bitAt w 1 = 0) ∧ (s.dev.running = false) ∧ (d1 = (s.dev.atRunCtrl (w ||| 1) t).checkedStart) ∧ (d1.startReason = none) ∧ ((d1.checkPorts.all fun p => (d1.port p).peerDigest.isSome) = false) := ⟨(st { (forAll [0, 1, 2, 3, 4, 5, 6, 7] (fun p d => d.wrAt R.KL.KL_STATUS_STATE p 0 6) ready) with ld := { ready.ld with setSize := 2, members := 3 } }), (0), (5), (_), ⟨by decide +kernel, by decide +kernel, by decide +kernel, rfl, by and_intros <;> decide +kernel⟩⟩

theorem witness_RunControl_3 : ∃ (s : State) (w : Nat) (t : Nat) (code : Nat) (d1 : Dev), (s.dev.reaches 0x15 = true) ∧ (bitAt w 1 = 0) ∧ (s.dev.running = false) ∧ (d1 = (s.dev.atRunCtrl (w ||| 1) t).checkedStart) ∧ (d1.startReason = some code) := ⟨(st up), (0), (5), (1), (_), ⟨by decide +kernel, by decide +kernel, by decide +kernel, rfl, by decide +kernel⟩⟩

theorem witness_RunControl_4 : ∃ (s : State) (w : Nat), (s.dev.reaches 0x15 = true) ∧ (bitAt w 1 = 0) ∧ (s.dev.running = true) := ⟨(st running), (0), by and_intros <;> decide +kernel⟩

theorem witness_RunControl_5 : ∃ (s : State) (w : Nat), (s.dev.reaches 0x15 = true) ∧ (bitAt w 0 = 0) := ⟨(st running), (0), by and_intros <;> decide +kernel⟩

theorem witness_RunControl_6 : ∃ (s : State) (t : Nat), (s.dev.running = true) ∧ (s.dev.tk.wdOn = true) ∧ (s.dev.rd R.RUN.WDOG_PERIOD_US ≠ 0) ∧ ((s.dev.toTime t).tk.wdLeft = 0) := ⟨(st { (running.wr R.RUN.WDOG_PERIOD_US 1) with tk := { ((running.wr R.RUN.WDOG_PERIOD_US 1)).tk with wdOn := true, wdLeft := 0 } }), (9), by and_intros <;> decide +kernel⟩

theorem witness_RunControl_7 : ∃ (s : State) (t : Nat), ((s.dev.running = false ∨ s.dev.tk.wdOn = false ∨ s.dev.rd R.RUN.WDOG_PERIOD_US = 0 ∨ (s.dev.toTime t).tk.wdLeft ≠ 0)) := ⟨(st running), (9), by decide +kernel⟩

theorem witness_RunControl_8 : ∃ (s : State), (s.dev.reaches 0x15 = true) := ⟨(st up), by decide +kernel⟩

theorem witness_RunControl_8_1 : ∃ (s : State), (s.dev.reaches 0x15 = true) := ⟨(st running), by decide +kernel⟩

theorem witness_RunControl_9 : ∃ (s : State), (s.dev.reaches 0x12 = true) := ⟨(st up), by decide +kernel⟩

theorem witness_RunControl_9_1 : ∃ (s : State), (s.dev.reaches 0x12 = true) := ⟨(st running), by decide +kernel⟩

theorem witness_RunControl_10 : ∃ (s : State), (s.dev.reaches 0x13 = true) := ⟨(st up), by decide +kernel⟩

theorem witness_RunControl_10_1 : ∃ (s : State), (s.dev.reaches 0x13 = true) := ⟨(st running), by decide +kernel⟩

theorem witness_RunControl_11 : ∃ (s : State), (s.dev.reaches 0x12 = true) := ⟨(st running), by decide +kernel⟩

theorem witness_BelayEntryAndConditions_6_2 : ∃ (s : State) (t : Nat), ((s.dev.tk.phase ≠ .waiting ∨ (s.dev.toTime t).unmet ≠ 0 ∨ (s.dev.toTime t).mono < s.dev.tk.hold ∨ (s.dev.toTime t).rewait.stealDue = true ∨
      s.dev.tk.belay = 0 ∧ 16 ≤ s.dev.edge.present.length)) := ⟨(st { inBelay .waiting 0 with edge := { up.edge with present := List.replicate 16 default } }), (5), by decide +kernel⟩

theorem witness_PresentationShowsTheTake_0 : ∃ (s : State) (t : Nat) (e : Nat) (m : Nat) (n : Nat) (b : Nat) (rest : List (Nat × Nat)) (lanes : SMap Nat) (ps : List (Nat × SMap Nat × Nat)), (s.dev.edge.instants = (e, m) :: rest) ∧ (e ≤ s.dev.edge.edges) ∧ (s.dev.runState ≠ 3) ∧ (m ≥ s.dev.edge.nextTake) ∧ (s.dev.edge.present = (n, lanes, b) :: ps) ∧ (n = s.dev.edge.nextTake) ∧ (b + 2 * s.dev.edge.gctPeriod ≤ (s.dev.toTime t).now) := ⟨(st (edged up { up.edge with instants := [(3, 5)], edges := 3, nextTake := 5, present := [(5, [(2, 1)], 0), (6, [], 9)] })), (0), (3), (5), (5), (0), ([]), ([(2, 1)]), ([(6, [], 9)]), by and_intros <;> decide +kernel⟩

theorem witness_PresentationShowsTheTake_1 : ∃ (s : State) (t : Nat) (e : Nat) (m : Nat) (rest : List (Nat × Nat)), (s.dev.edge.instants = (e, m) :: rest) ∧ (e ≤ s.dev.edge.edges) ∧ (s.dev.runState ≠ 3) ∧ (m ≥ s.dev.edge.nextTake) ∧ ((s.dev.toTime t).readyTake = none) := ⟨(st (edged up { up.edge with instants := [(3, 5)], edges := 3, nextTake := 5 })), (0), (3), (5), ([]), by and_intros <;> decide +kernel⟩

theorem witness_PresentationShowsTheTake_2 : ∃ (s : State) (e : Nat) (m : Nat) (rest : List (Nat × Nat)), (s.dev.edge.instants = (e, m) :: rest) ∧ (e ≤ s.dev.edge.edges) ∧ ((s.dev.runState = 3 ∨ m < s.dev.edge.nextTake)) := ⟨(st (edged (up.wr R.RUN.RUN_STATUS_STATE 3) { up.edge with instants := [(3, 5)], edges := 3, nextTake := 5 })), (3), (5), ([]), by and_intros <;> decide +kernel⟩

theorem witness_PresentationShowsTheTake_2_1 : ∃ (s : State) (e : Nat) (m : Nat) (rest : List (Nat × Nat)), (s.dev.edge.instants = (e, m) :: rest) ∧ (e ≤ s.dev.edge.edges) ∧ ((s.dev.runState = 3 ∨ m < s.dev.edge.nextTake)) := ⟨(st (edged up { up.edge with instants := [(3, 4)], edges := 3, nextTake := 5 })), (3), (4), ([]), by and_intros <;> decide +kernel⟩

theorem witness_PresentationShowsTheTake_3 : ∃ (s : State), ((s.dev.edge.instants = [] ∨ ∃ e m rest, s.dev.edge.instants = (e, m) :: rest ∧ s.dev.edge.edges < e)) := ⟨(st (edged up { up.edge with instants := [(4, 4)], edges := 3 })), Or.inr ⟨4, 4, [], by decide +kernel⟩⟩

theorem witness_StagedRelease_0 : ∃ (s : State), (s.dev.reaches 0x300 = true) ∧ (s.dev.loadState = 2) ∧ (s.dev.treePllUnlocked = false) ∧ (s.dev.rd R.EDGE.EDGE_STATUS_RELEASE_STAGE = 0) ∧ (s.dev.edge.e0 = none) := ⟨(st ((((ready.wr R.EDGE.EDGE_STATUS_RELEASE_STAGE 0)).wr R.EDGE.EDGE_STATUS_PLL0_LOCK 1))), by and_intros <;> decide +kernel⟩

theorem witness_StagedRelease_1 : ∃ (s : State), (s.dev.reaches 0x300 = true) ∧ ((s.dev.loadState ≠ 2 ∨ s.dev.treePllUnlocked = true)) ∧ (s.dev.rd R.EDGE.EDGE_STATUS_RELEASE_STAGE = 0) ∧ (s.dev.edge.e0 = none) := ⟨(st (ready.wr R.EDGE.EDGE_STATUS_RELEASE_STAGE 0)), by and_intros <;> decide +kernel⟩

theorem witness_StagedRelease_2 : ∃ (s : State), (s.dev.reaches 0x300 = true) ∧ ((1 ≤ s.dev.rd R.EDGE.EDGE_STATUS_RELEASE_STAGE ∨ s.dev.edge.e0.isSome = true)) := ⟨(st (ready.wr R.EDGE.EDGE_STATUS_RELEASE_STAGE 1)), by and_intros <;> decide +kernel⟩

theorem witness_StagedRelease_3 : ∃ (s : State) (e : Nat), (s.dev.edge.e0 = some e) ∧ (s.dev.rd R.EDGE.EDGE_STATUS_RELEASE_STAGE = 0) ∧ (e ≤ s.dev.edge.edges) ∧ (s.dev.edge.fenced.filter (s.dev.regionDue 1 0) = []) := ⟨(st (edged (ready.wr R.EDGE.EDGE_STATUS_RELEASE_STAGE 0) { up.edge with e0 := some 3, edges := 3 })), (3), by and_intros <;> decide +kernel⟩

theorem witness_StagedRelease_4 : ∃ (s : State) (e : Nat), (s.dev.edge.e0 = some e) ∧ (s.dev.rd R.EDGE.EDGE_STATUS_RELEASE_STAGE = 1) ∧ (e + 8 ≤ s.dev.edge.edges) ∧ (s.dev.edge.fenced.filter (s.dev.regionDue 2 8) = []) := ⟨(st (edged (ready.wr R.EDGE.EDGE_STATUS_RELEASE_STAGE 1) { up.edge with e0 := some 3, edges := 11 })), (3), by and_intros <;> decide +kernel⟩

theorem witness_StagedRelease_5 : ∃ (s : State) (e : Nat), (s.dev.edge.e0 = some e) ∧ (s.dev.rd R.EDGE.EDGE_STATUS_RELEASE_STAGE = 2) ∧ (e + 16 ≤ s.dev.edge.edges) ∧ (s.dev.edge.fenced.filter (s.dev.regionDue 3 16) = []) := ⟨(st (edged (ready.wr R.EDGE.EDGE_STATUS_RELEASE_STAGE 2) { up.edge with e0 := some 3, edges := 19 })), (3), by and_intros <;> decide +kernel⟩

theorem witness_StagedRelease_6 : ∃ (s : State) (r : Nat), (s.dev.edge.e0 = none) ∧ (s.dev.edge.fenced.filter (s.dev.regionDue 1 0) = [r]) := ⟨(st (edged (ready.wr R.EDGE.EDGE_STATUS_RELEASE_STAGE 3) { up.edge with fenced := [2], regionE0 := [(2, 4)], regionStage := [], edges := 3 })), (2), by and_intros <;> decide +kernel⟩

theorem witness_StagedRelease_7 : ∃ (s : State) (r : Nat), (s.dev.edge.e0 = none) ∧ (s.dev.edge.fenced.filter (s.dev.regionDue 2 8) = [r]) := ⟨(st (edged (ready.wr R.EDGE.EDGE_STATUS_RELEASE_STAGE 3) { up.edge with fenced := [2], regionE0 := [(2, 4)], regionStage := [(2, 1)], edges := 11 })), (2), by and_intros <;> decide +kernel⟩

theorem witness_StagedRelease_8 : ∃ (s : State) (r : Nat), (s.dev.edge.e0 = none) ∧ (s.dev.edge.fenced.filter (s.dev.regionDue 3 16) = [r]) := ⟨(st (edged (ready.wr R.EDGE.EDGE_STATUS_RELEASE_STAGE 3) { up.edge with fenced := [2], regionE0 := [(2, 4)], regionStage := [(2, 2)], edges := 19 })), (2), by and_intros <;> decide +kernel⟩

theorem witness_StagedRelease_9 : ∃ (d : Dev) (n : Nat) (r : Nat) (e : Nat), (SMap.get d.edge.regionE0 r = e + 1) ∧ (SMap.get d.edge.regionStage r + 1 = n) := ⟨((edged up { up.edge with regionE0 := [(2, 4)], regionStage := [(2, 1)], edges := 11 })), (2), (2), (3), by and_intros <;> decide +kernel⟩

theorem witness_StagedRelease_10 : ∃ (s : State), ((s.dev.edge.e0 = none ∨ s.dev.rd R.EDGE.EDGE_STATUS_RELEASE_STAGE ≠ 0 ∨ ∃ e, s.dev.edge.e0 = some e ∧ s.dev.edge.edges < e)) ∧ (s.dev.edge.fenced.filter (s.dev.regionDue 1 0) = []) := ⟨(st up), by and_intros <;> decide +kernel⟩

theorem witness_StagedRelease_10_1 : ∃ (s : State), ((s.dev.edge.e0 = none ∨ s.dev.rd R.EDGE.EDGE_STATUS_RELEASE_STAGE ≠ 0 ∨ ∃ e, s.dev.edge.e0 = some e ∧ s.dev.edge.edges < e)) ∧ (s.dev.edge.fenced.filter (s.dev.regionDue 1 0) = []) := ⟨(st (edged (ready.wr R.EDGE.EDGE_STATUS_RELEASE_STAGE 0) { up.edge with e0 := some 3, edges := 2 })), ⟨Or.inr (Or.inr ⟨3, by decide +kernel⟩), by decide +kernel⟩⟩

theorem witness_StagedRelease_11 : ∃ (s : State), ((s.dev.edge.e0 = none ∨ s.dev.rd R.EDGE.EDGE_STATUS_RELEASE_STAGE ≠ 1 ∨ ∃ e, s.dev.edge.e0 = some e ∧ s.dev.edge.edges < e + 8)) ∧ (s.dev.edge.fenced.filter (s.dev.regionDue 2 8) = []) := ⟨(st up), by and_intros <;> decide +kernel⟩

theorem witness_StagedRelease_11_1 : ∃ (s : State), ((s.dev.edge.e0 = none ∨ s.dev.rd R.EDGE.EDGE_STATUS_RELEASE_STAGE ≠ 1 ∨ ∃ e, s.dev.edge.e0 = some e ∧ s.dev.edge.edges < e + 8)) ∧ (s.dev.edge.fenced.filter (s.dev.regionDue 2 8) = []) := ⟨(st (edged (ready.wr R.EDGE.EDGE_STATUS_RELEASE_STAGE 1) { up.edge with e0 := some 3, edges := 10 })), ⟨Or.inr (Or.inr ⟨3, by decide +kernel⟩), by decide +kernel⟩⟩

theorem witness_StagedRelease_12 : ∃ (s : State), ((s.dev.edge.e0 = none ∨ s.dev.rd R.EDGE.EDGE_STATUS_RELEASE_STAGE ≠ 2 ∨ ∃ e, s.dev.edge.e0 = some e ∧ s.dev.edge.edges < e + 16)) ∧ (s.dev.edge.fenced.filter (s.dev.regionDue 3 16) = []) := ⟨(st up), by and_intros <;> decide +kernel⟩

theorem witness_StagedRelease_12_1 : ∃ (s : State), ((s.dev.edge.e0 = none ∨ s.dev.rd R.EDGE.EDGE_STATUS_RELEASE_STAGE ≠ 2 ∨ ∃ e, s.dev.edge.e0 = some e ∧ s.dev.edge.edges < e + 16)) ∧ (s.dev.edge.fenced.filter (s.dev.regionDue 3 16) = []) := ⟨(st (edged (ready.wr R.EDGE.EDGE_STATUS_RELEASE_STAGE 2) { up.edge with e0 := some 3, edges := 18 })), ⟨Or.inr (Or.inr ⟨3, by decide +kernel⟩), by decide +kernel⟩⟩

theorem witness_BlockMemoryPorts_0 : ∃ (s : State) (b : Nat) (a : Nat) (x : Option Nat), (b < 64) ∧ (s.dev.edge.acted.contains b = false) ∧ (leAt (s.dev.memCfg b) 0 1 ≤ 5) ∧ (s.dev.memPort b 0 = some (a, x)) ∧ (s.dev.memPort b 1 = none) ∧ (s.dev.writtenNow b 1 a = none) := ⟨(st (edged (up.wr R.EDGE.EDGE_STATUS_RELEASE_STAGE 3) { up.edge with cfg := [(0x20100, [3, 0, 1, 0, 0, 0, 0, 0] ++ List.replicate 94 0 ++ [7, 0, 7, 0])], rose := 1, pre := [(7, 1)] })), (0), (0), (some 0), by and_intros <;> decide +kernel⟩

theorem witness_BlockMemoryPorts_0_1 : ∃ (s : State) (b : Nat) (a : Nat) (x : Option Nat), (b < 64) ∧ (s.dev.edge.acted.contains b = false) ∧ (leAt (s.dev.memCfg b) 0 1 ≤ 5) ∧ (s.dev.memPort b 0 = some (a, x)) ∧ (s.dev.memPort b 1 = none) ∧ (s.dev.writtenNow b 1 a = none) := ⟨(st (edged (up.wr R.EDGE.EDGE_STATUS_RELEASE_STAGE 3) { up.edge with cfg := [(0x20100, [2, 0, 1, 0, 0, 0, 0, 0] ++ [7, 0] ++ List.replicate 92 0 ++ [0, 0, 7, 0])], rose := 1, pre := [(7, 1)], bmem := [(0, 0xA5)] })), (0), (1), (none), by and_intros <;> decide +kernel⟩

theorem witness_BlockMemoryPorts_1 : ∃ (s : State) (b : Nat) (a : Nat) (v : Nat) (w : Nat), (b < 64) ∧ (s.dev.edge.acted.contains b = false) ∧ (s.dev.memPort b 0 = some (a, some v)) ∧ (s.dev.memPort b 1 = some (a, some w)) ∧ (s.dev.writtenNow b 1 a = none) := ⟨(st (edged (up.wr R.EDGE.EDGE_STATUS_RELEASE_STAGE 3) { up.edge with cfg := [(0x20100, [3])], rose := 1, pre := [(0, 1)] })), (0), (0xFFF), (0xFFFFFFFF), (0xFFFFFFFF), by and_intros <;> decide +kernel⟩

theorem witness_BlockMemoryPorts_2 : ∃ (s : State) (b : Nat) (a : Nat) (v : Nat) (o : Nat), (b < 64) ∧ (s.dev.edge.acted.contains b = false) ∧ (s.dev.memPort b 0 = some (a, some v)) ∧ (s.dev.memPort b 1 = none) ∧ (s.dev.writtenNow b 1 a = some o) := ⟨(st (edged (up.wr R.EDGE.EDGE_STATUS_RELEASE_STAGE 3) { up.edge with cfg := [(0x20100, [3, 0, 1, 0, 0, 0, 0, 0] ++ List.replicate 94 0 ++ [0, 0, 0, 0])], rose := 1, pre := [(0, 1)], eventAt := 2 ^ 32, portWrites := [(1, (2 ^ 32, 0xFFF, 5))] })), (0), (0xFFF), (0xFFFFFFFF), (5), by and_intros <;> decide +kernel⟩

theorem witness_BlockMemoryPorts_3 : ∃ (s : State) (b : Nat) (a : Nat) (v : Nat) (o : Nat), (b < 64) ∧ (s.dev.edge.acted.contains b = false) ∧ (s.dev.memPort b 0 = none) ∧ (s.dev.memPort b 1 = some (a, some v)) ∧ (s.dev.writtenNow b 0 a = some o) := ⟨(st (edged (up.wr R.EDGE.EDGE_STATUS_RELEASE_STAGE 3) { up.edge with cfg := [(0x20100, [3, 1, 0])], rose := 1, pre := [(0, 1)], eventAt := 2 ^ 32, portWrites := [(0, (2 ^ 32, 0xFFF, 5))] })), (0), (0xFFF), (0xFFFFFFFF), (5), by and_intros <;> decide +kernel⟩

theorem witness_BlockMemoryPorts_4 : ∃ (b : Nat), (b < 64) := ⟨(63), by decide +kernel⟩

theorem witness_BlockMemoryPorts_5 : ∃ (s : State) (b : Nat), (b < 64) ∧ (s.dev.edge.acted.contains b = true) := ⟨(st (edged up { up.edge with acted := [63] })), (63), by and_intros <;> decide +kernel⟩

theorem witness_BlockMemoryPorts_6 : ∃ (b : Nat), (64 ≤ b) := ⟨(64), by decide +kernel⟩

theorem witness_EdgeFifos_0 : ∃ (s : State) (f : Nat), (f < 32) ∧ (s.dev.edge.acted.contains (64 + 2 * f) = false) ∧ (s.dev.fifoUsed f = true) ∧ (2 ≤ s.dev.stageOf (f / 2)) ∧ (s.dev.fifoOut f = false) ∧ (isSet s.dev.edge.rose (leAt (s.dev.fifoCfg f) 1 1) = true) ∧ (s.dev.sideGated (leAt (s.dev.fifoCfg f) 1 1) = false) ∧ (s.dev.preSig (leAt (s.dev.fifoCfg f) 4 2) = 1) ∧ ((SMap.get s.dev.edge.fifo f).length < 64) := ⟨(st (edged (up.wr R.EDGE.EDGE_STATUS_RELEASE_STAGE 3) { up.edge with cfg := [(0x3011F, [0])], rose := 1, pre := [(0, 1)], fifo := [(31, List.replicate 63 (7, 0))] })), (31), by and_intros <;> decide +kernel⟩

theorem witness_EdgeFifos_1 : ∃ (s : State) (f : Nat), (f < 32) ∧ (s.dev.edge.acted.contains (64 + 2 * f) = false) ∧ (s.dev.fifoUsed f = true) ∧ (2 ≤ s.dev.stageOf (f / 2)) ∧ (s.dev.fifoOut f = false) ∧ (isSet s.dev.edge.rose (leAt (s.dev.fifoCfg f) 1 1) = true) ∧ (s.dev.sideGated (leAt (s.dev.fifoCfg f) 1 1) = false) ∧ (s.dev.preSig (leAt (s.dev.fifoCfg f) 4 2) = 1) ∧ (64 ≤ (SMap.get s.dev.edge.fifo f).length) := ⟨(st (edged (up.wr R.EDGE.EDGE_STATUS_RELEASE_STAGE 3) { up.edge with cfg := [(0x3011F, [0])], rose := 1, pre := [(0, 1)], fifo := [(31, List.replicate 64 (7, 0))] })), (31), by and_intros <;> decide +kernel⟩

theorem witness_EdgeFifos_2 : ∃ (s : State) (f : Nat), (f < 32) ∧ (s.dev.edge.acted.contains (64 + 2 * f) = false) ∧ (s.dev.fifoUsed f = true) ∧ (2 ≤ s.dev.stageOf (f / 2)) ∧ (s.dev.fifoOut f = true) ∧ (s.dev.edge.pushDue.contains f = true) ∧ (SMap.get s.dev.edge.shown (leAt (s.dev.fifoCfg f) 6 2 + 32) % 2 = 1) := ⟨(st (edged (up.wr R.EDGE.EDGE_STATUS_RELEASE_STAGE 3) { up.edge with cfg := [(0x3011F, [1])], rose := 1, pre := [(0, 1)], shown := [(32, 1), (3, 1)], pushDue := [3, 31] })), (31), by and_intros <;> decide +kernel⟩

theorem witness_EdgeFifos_3 : ∃ (s : State) (f : Nat), (f < 32) ∧ ((s.dev.edge.acted.contains (64 + 2 * f) = true ∨ s.dev.fifoUsed f = false ∨ s.dev.stageOf (f / 2) < 2 ∨
      s.dev.fifoOut f = true ∧ (s.dev.edge.pushDue.contains f = false ∨ SMap.get s.dev.edge.shown (leAt (s.dev.fifoCfg f) 6 2 + 32) % 2 = 0) ∨
      s.dev.fifoOut f = false ∧ (isSet s.dev.edge.rose (leAt (s.dev.fifoCfg f) 1 1) = false ∨ s.dev.sideGated (leAt (s.dev.fifoCfg f) 1 1) = true ∨ s.dev.preSig (leAt (s.dev.fifoCfg f) 4 2) ≠ 1))) := ⟨(st (edged (up.wr R.EDGE.EDGE_STATUS_RELEASE_STAGE 3) { up.edge with cfg := [(0x3011F, [1])], rose := 1, pre := [(0, 1)] })), (31), by and_intros <;> decide +kernel⟩

theorem witness_EdgeFifos_4 : ∃ (s : State) (f : Nat), (f < 32) ∧ (s.dev.fifoUsed f = true) ∧ (s.dev.fifoOut f = true) ∧ (s.dev.edge.acted.contains (65 + 2 * f) = false) ∧ (isSet s.dev.edge.rose (leAt (s.dev.fifoCfg f) 1 1) = true) ∧ (s.dev.sideGated (leAt (s.dev.fifoCfg f) 1 1) = false) ∧ (s.dev.preSig (leAt (s.dev.fifoCfg f) 4 2) = 1) ∧ (s.dev.preSig (0x2C00 + 2 * f) = 0) := ⟨(st (edged (up.wr R.EDGE.EDGE_STATUS_RELEASE_STAGE 3) { up.edge with cfg := [(0x3011F, [1])], rose := 1, pre := [(0, 1)], fifo := [(31, [(7, 0), (8, 0)])] })), (31), by and_intros <;> decide +kernel⟩

theorem witness_EdgeFifos_5 : ∃ (s : State) (f : Nat), (f < 32) ∧ (s.dev.fifoUsed f = true) ∧ (s.dev.fifoOut f = true) ∧ (s.dev.edge.acted.contains (65 + 2 * f) = false) ∧ (isSet s.dev.edge.rose (leAt (s.dev.fifoCfg f) 1 1) = true) ∧ (s.dev.sideGated (leAt (s.dev.fifoCfg f) 1 1) = false) ∧ (s.dev.preSig (leAt (s.dev.fifoCfg f) 4 2) = 1) ∧ (s.dev.preSig (0x2C00 + 2 * f) = 1) := ⟨(st (edged (up.wr R.EDGE.EDGE_STATUS_RELEASE_STAGE 3) { up.edge with cfg := [(0x3011F, [1])], rose := 1, pre := [(0, 1), (0x2C3E, 1)] })), (31), by and_intros <;> decide +kernel⟩

theorem witness_EdgeFifos_6 : ∃ (s : State) (f : Nat), (f < 32) ∧ (s.dev.fifoUsed f = true) ∧ (s.dev.fifoOut f = false) ∧ (SMap.get s.dev.edge.popDue f = 1) ∧ (s.dev.fifoSeen f ≠ []) := ⟨(st (edged (up.wr R.EDGE.EDGE_STATUS_RELEASE_STAGE 3) { up.edge with cfg := [(0x3011F, [0])], rose := 1, pre := [(0, 1)], fifo := [(31, [(7, 0)])], popDue := [(31, 1)] })), (31), by and_intros <;> decide +kernel⟩

theorem witness_EdgeFifos_6_1 : ∃ (s : State) (f : Nat), (f < 32) ∧ (s.dev.fifoUsed f = true) ∧ (s.dev.fifoOut f = false) ∧ (SMap.get s.dev.edge.popDue f = 1) ∧ (s.dev.fifoSeen f ≠ []) := ⟨(st (edged (up.wr R.EDGE.EDGE_STATUS_RELEASE_STAGE 3) { up.edge with cfg := [(0x3011F, [0])], rose := 1, pre := [(0, 1)], fifo := [(31, [(7, 0), (9, 0)])], popDue := [(31, 1)] })), (31), by and_intros <;> decide +kernel⟩

theorem witness_EdgeFifos_7 : ∃ (s : State) (f : Nat), (f < 32) ∧ (s.dev.fifoUsed f = true) ∧ (s.dev.fifoOut f = false) ∧ (SMap.get s.dev.edge.popDue f = 1) ∧ (s.dev.fifoSeen f = []) := ⟨(st (edged (up.wr R.EDGE.EDGE_STATUS_RELEASE_STAGE 3) { up.edge with cfg := [(0x3011F, [0])], rose := 1, pre := [(0, 1)], popDue := [(31, 1)] })), (31), by and_intros <;> decide +kernel⟩

theorem witness_EdgeFifos_8 : ∃ (s : State) (f : Nat), (f < 32) ∧ ((s.dev.fifoUsed f = false ∨ s.dev.fifoOut f = false ∧ SMap.get s.dev.edge.popDue f ≠ 1 ∨
      s.dev.fifoOut f = true ∧ (s.dev.edge.acted.contains (65 + 2 * f) = true ∨ isSet s.dev.edge.rose (leAt (s.dev.fifoCfg f) 1 1) = false ∨
        s.dev.sideGated (leAt (s.dev.fifoCfg f) 1 1) = true ∨ s.dev.preSig (leAt (s.dev.fifoCfg f) 4 2) = 0))) := ⟨(st (edged (up.wr R.EDGE.EDGE_STATUS_RELEASE_STAGE 3) { up.edge with cfg := [(0x3011F, [0])], rose := 1, pre := [(0, 1)] })), (31), by and_intros <;> decide +kernel⟩

theorem witness_EdgeFifos_9 : ∃ (f : Nat), (32 ≤ f) := ⟨(32), by decide +kernel⟩

theorem witness_EdgeFifos_10 : ∃ (f : Nat), (32 ≤ f) := ⟨(32), by decide +kernel⟩

theorem witness_EdgeClockAndRegisters_0 : ∃ (s : State) (fall : Nat), (s.dev.edge.cfg = []) ∧ (isSet fall 0 = false) := ⟨(st (edged up { up.edge with edges := 4 })), (2), by and_intros <;> decide +kernel⟩

theorem witness_EdgeClockAndRegisters_2 : ∃ (s : State) (n : Nat), (n < 2) ∧ ((if SMap.get s.dev.edge.cfg 0x30000 = [] then n = 0 else isSet (leAt (SMap.get s.dev.edge.cfg 0x30000) (8 * n) 8) 0 = true)) := ⟨(st up), (0), by and_intros <;> decide +kernel⟩

theorem witness_EdgeClockAndRegisters_2_1 : ∃ (s : State) (n : Nat), (n < 2) ∧ ((if SMap.get s.dev.edge.cfg 0x30000 = [] then n = 0 else isSet (leAt (SMap.get s.dev.edge.cfg 0x30000) (8 * n) 8) 0 = true)) := ⟨(st (edged up { up.edge with cfg := [(0x30000, List.replicate 8 0 ++ [1])] })), (1), by and_intros <;> decide +kernel⟩

theorem witness_EdgeClockAndRegisters_3 : ∃ (s : State) (n : Nat), (n < 2) ∧ (¬ (if SMap.get s.dev.edge.cfg 0x30000 = [] then n = 0 else isSet (leAt (SMap.get s.dev.edge.cfg 0x30000) (8 * n) 8) 0 = true)) := ⟨(st up), (1), by and_intros <;> decide +kernel⟩

theorem witness_EdgeClockAndRegisters_4 : ∃ (s : State) (k : Nat), (k < 32) ∧ (s.dev.reaches 0x300 = true) := ⟨(st up), (31), by and_intros <;> decide +kernel⟩

theorem witness_EdgeClockAndRegisters_5 : ∃ (s : State) (w : Nat), (s.dev.reaches 0x300 = true) ∧ (s.dev.running = false) ∧ (fieldAt w 0 4 ≠ 0) ∧ (3 ≤ fieldAt w 4 16) := ⟨(st up), (0x31), by and_intros <;> decide +kernel⟩

theorem witness_EdgeClockAndRegisters_6 : ∃ (s : State) (w : Nat), (s.dev.reaches 0x300 = true) ∧ ((s.dev.running = true ∨ fieldAt w 0 4 = 0 ∨ fieldAt w 4 16 < 3)) := ⟨(st running), (0x31), by and_intros <;> decide +kernel⟩

theorem witness_EdgeClockAndRegisters_6_1 : ∃ (s : State) (w : Nat), (s.dev.reaches 0x300 = true) ∧ ((s.dev.running = true ∨ fieldAt w 0 4 = 0 ∨ fieldAt w 4 16 < 3)) := ⟨(st up), (0x30), by and_intros <;> decide +kernel⟩

theorem witness_EdgeClockAndRegisters_6_2 : ∃ (s : State) (w : Nat), (s.dev.reaches 0x300 = true) ∧ ((s.dev.running = true ∨ fieldAt w 0 4 = 0 ∨ fieldAt w 4 16 < 3)) := ⟨(st up), (0x21), by and_intros <;> decide +kernel⟩

theorem witness_EdgeClockAndRegisters_7 : ∃ (n : Nat), (2 ≤ n) := ⟨(2), by decide +kernel⟩

theorem witness_EdgeClockAndRegisters_8 : ∃ (k : Nat), (32 ≤ k) := ⟨(32), by decide +kernel⟩

theorem witness_BankArrayCycle_0 : ∃ (s : State) (g : Nat) (p : Nat) (a : Acc) (b : Acc), (g < s.dev.g2s) ∧ (p < 2) ∧ (s.dev.joined g = false) ∧ (SMap.look s.dev.arr.acc (g * 2 + p) = some a) ∧ (a.write = 0) ∧ (a.done = false) ∧ (SMap.look s.dev.arr.acc (g * 2 + (1 - p)) = some b) ∧ (b.write = 1) ∧ (b.done = false) := ⟨(st { up with arr := { up.arr with acc := [(0, ⟨4, 0, 8, 0xAB, false, none⟩), (1, ⟨4, 1, 8, 0xAB, false, none⟩)], banks := [(8, 5)] } }), (0), (0), (⟨4, 0, 8, 0xAB, false, none⟩), (⟨4, 1, 8, 0xAB, false, none⟩), by and_intros <;> decide +kernel⟩

theorem witness_BankArrayCycle_0_1 : ∃ (s : State) (g : Nat) (p : Nat) (a : Acc) (b : Acc), (g < s.dev.g2s) ∧ (p < 2) ∧ (s.dev.joined g = false) ∧ (SMap.look s.dev.arr.acc (g * 2 + p) = some a) ∧ (a.write = 0) ∧ (a.done = false) ∧ (SMap.look s.dev.arr.acc (g * 2 + (1 - p)) = some b) ∧ (b.write = 1) ∧ (b.done = false) := ⟨(st { up with arr := { up.arr with acc := [(0, ⟨4, 1, 8, 0xAB, false, none⟩), (1, ⟨4, 0, 8, 0xAB, false, none⟩)], banks := [(8, 5)] } }), (0), (1), (⟨4, 0, 8, 0xAB, false, none⟩), (⟨4, 1, 8, 0xAB, false, none⟩), by and_intros <;> decide +kernel⟩

theorem witness_BankArrayCycle_1 : ∃ (s : State) (g : Nat) (p : Nat) (a : Acc), (g < s.dev.g2s) ∧ (p < 2) ∧ (s.dev.joined g = false) ∧ (SMap.look s.dev.arr.acc (g * 2 + p) = some a) ∧ (a.write = 0) ∧ (a.done = false) ∧ (SMap.look s.dev.arr.acc (g * 2 + (1 - p)) = none) := ⟨(st { up with arr := { up.arr with acc := [(0, ⟨4, 0, 8, 0xAB, false, none⟩)], banks := [(8, 5)] } }), (0), (0), (⟨4, 0, 8, 0xAB, false, none⟩), by and_intros <;> decide +kernel⟩

theorem witness_BankArrayCycle_2 : ∃ (s : State) (g : Nat) (p : Nat) (b : Acc), (g < s.dev.g2s) ∧ (p < 2) ∧ (s.dev.joined g = false) ∧ (SMap.look s.dev.arr.acc (g * 2 + p) = some b) ∧ (b.write = 1) ∧ (b.done = false) ∧ (SMap.look s.dev.arr.acc (g * 2 + (1 - p)) = none) := ⟨(st { up with arr := { up.arr with acc := [(1, ⟨4, 1, 8, 0xAB, false, none⟩)], banks := [(8, 5)] } }), (0), (1), (⟨4, 1, 8, 0xAB, false, none⟩), by and_intros <;> decide +kernel⟩

theorem witness_BankArrayCycle_3 : ∃ (s : State) (l : Nat) (g : Nat) (a : Acc) (b : Acc), (l + 1 < s.dev.g2s) ∧ (l % 2 = 0) ∧ ((g = l ∨ g = l + 1)) ∧ (s.dev.rdAt R.BANK.BANK_CTRL_JOIN l 0 = 1) ∧ (SMap.look s.dev.arr.acc (l * 2) = some a) ∧ (a.write = 1) ∧ (a.done = false) ∧ (SMap.look s.dev.arr.acc (l * 2 + 3) = some b) ∧ (b.write = 1) ∧ (b.done = false) ∧ (SMap.look s.dev.arr.acc (l * 2 + 1) = none) ∧ (SMap.look s.dev.arr.acc (l * 2 + 2) = none) ∧ (a.seq = b.seq) ∧ (s.dev.bankWord l a.addr = s.dev.bankWord l b.addr) := ⟨(st { (up.wrAt R.BANK.BANK_CTRL_JOIN 0 0 1) with arr := { up.arr with acc := [(0, ⟨4, 1, 8, 0xAB, false, none⟩), (3, ⟨4, 1, 8, 0xAB, false, none⟩)], banks := [(8, 5)] } }), (0), (1), (⟨4, 1, 8, 0xAB, false, none⟩), (⟨4, 1, 8, 0xAB, false, none⟩), by and_intros <;> decide +kernel⟩

theorem witness_BankArrayCycle_4 : ∃ (d : Dev) (g : Nat), (d.rdAt R.BANK.BANK_CTRL_ASPECT (d.bankPage g) 0 < 6) := ⟨(up), (4095), by decide +kernel⟩

theorem witness_BankArrayCycle_5 : ∃ (s : State) (g : Nat), (s.dev.g2s ≤ g) := ⟨(st up), (4096), by decide +kernel⟩

theorem witness_FarResponseIsHeld_0 : ∃ (s : State) (g : Nat) (id : Nat) (q : FarReq), (g < s.dev.g4s) ∧ (SMap.look s.dev.arr.farReq (g * 2 ^ 32 + id) = some q) ∧ (q.answered = false) ∧ (s.dev.farBehind g id q = false) := ⟨(st { up with arr := { up.arr with farReq := [(5, ⟨3, 0, 7, 0, 9, 0, false, false⟩)] } }), (0), (5), (⟨3, 0, 7, 0, 9, 0, false, false⟩), by and_intros <;> decide +kernel⟩

theorem witness_FarResponseIsHeld_1 : ∃ (q : FarReq), (q.discard = true) := ⟨(⟨3, 0, 7, 0, 9, 0, false, true⟩), by decide +kernel⟩

theorem witness_FarResponseIsHeld_2 : ∃ (q : FarReq), (q.discard = false) := ⟨(⟨3, 0, 7, 0, 9, 0, false, false⟩), by decide +kernel⟩

theorem witness_FarResponseIsHeld_3 : ∃ (d : Dev) (g : Nat) (q : FarReq) (d1 : Dev) (r : FRec), (d1 = (d.wrAt R.FAR.FAR_STATUS_XLATE_FAULT g 0 1).wrAt R.FAR.FAULT_DVA g 0 (d.farDva g q)) ∧ (r = d.groupFault 0x18 3 4 (g * 4096) (d.farDva g q % 2 ^ 48 + q.window * 2 ^ 48 + q.step * 2 ^ 52 + q.write * 2 ^ 63)) := ⟨(running), (63), (⟨3, 0, 7, 0, 9, 0, false, false⟩), (((running).wrAt R.FAR.FAR_STATUS_XLATE_FAULT (63) 0 1).wrAt R.FAR.FAULT_DVA (63) 0 ((running).farDva (63) (⟨3, 0, 7, 0, 9, 0, false, false⟩))), (running.groupFault 0x18 3 4 (63 * 4096) (running.farDva 63 (⟨3, 0, 7, 0, 9, 0, false, false⟩ : FarReq) % 2 ^ 48 + (⟨3, 0, 7, 0, 9, 0, false, false⟩ : FarReq).window * 2 ^ 48 + (⟨3, 0, 7, 0, 9, 0, false, false⟩ : FarReq).step * 2 ^ 52 + (⟨3, 0, 7, 0, 9, 0, false, false⟩ : FarReq).write * 2 ^ 63)), by rfl, by rfl⟩

theorem witness_FarResponseIsHeld_4 : ∃ (s : State) (g : Nat) (id : Nat), (g < s.dev.g4s) ∧ ((SMap.look s.dev.arr.farReq (g * 2 ^ 32 + id) = none ∨ ∃ q, SMap.look s.dev.arr.farReq (g * 2 ^ 32 + id) = some q ∧ (q.answered = true ∨ s.dev.farBehind g id q = true))) := ⟨(st { up with arr := { up.arr with farReq := [(5, ⟨3, 0, 7, 0, 9, 0, true, false⟩)] } }), (0), (5), by decide +kernel, Or.inr ⟨⟨3, 0, 7, 0, 9, 0, true, false⟩, by decide +kernel⟩⟩

theorem witness_FarResponseIsHeld_5 : ∃ (s : State) (g : Nat), (s.dev.g4s ≤ g) := ⟨(st up), (64), by decide +kernel⟩

theorem witness_BankAndFarControl_0 : ∃ (s : State) (g : Nat) (w : Nat), (g < 4096) ∧ (s.dev.reaches (0x1000 + g) = true) ∧ ((s.dev.bankPage g ≠ g ∨ 6 ≤ fieldAt w 0 3 ∨ fieldAt w 4 2 = 3 ∨
      s.dev.running = true ∧ (fieldAt w 0 3 ≠ s.dev.rdAt R.BANK.BANK_CTRL_ASPECT g 0 ∨ g % 2 = 0 ∧ bitAt w 3 ≠ s.dev.rdAt R.BANK.BANK_CTRL_JOIN g 0))) := ⟨(st (up.wrAt R.BANK.BANK_CTRL_JOIN 0 0 1)), (1), (0), by and_intros <;> decide +kernel⟩

theorem witness_BankAndFarControl_0_1 : ∃ (s : State) (g : Nat) (w : Nat), (g < 4096) ∧ (s.dev.reaches (0x1000 + g) = true) ∧ ((s.dev.bankPage g ≠ g ∨ 6 ≤ fieldAt w 0 3 ∨ fieldAt w 4 2 = 3 ∨
      s.dev.running = true ∧ (fieldAt w 0 3 ≠ s.dev.rdAt R.BANK.BANK_CTRL_ASPECT g 0 ∨ g % 2 = 0 ∧ bitAt w 3 ≠ s.dev.rdAt R.BANK.BANK_CTRL_JOIN g 0))) := ⟨(st up), (4095), (6), by and_intros <;> decide +kernel⟩

theorem witness_BankAndFarControl_0_2 : ∃ (s : State) (g : Nat) (w : Nat), (g < 4096) ∧ (s.dev.reaches (0x1000 + g) = true) ∧ ((s.dev.bankPage g ≠ g ∨ 6 ≤ fieldAt w 0 3 ∨ fieldAt w 4 2 = 3 ∨
      s.dev.running = true ∧ (fieldAt w 0 3 ≠ s.dev.rdAt R.BANK.BANK_CTRL_ASPECT g 0 ∨ g % 2 = 0 ∧ bitAt w 3 ≠ s.dev.rdAt R.BANK.BANK_CTRL_JOIN g 0))) := ⟨(st running), (4095), (1), by and_intros <;> decide +kernel⟩

theorem witness_BankAndFarControl_1 : ∃ (s : State) (g : Nat) (w : Nat), (g < 4096) ∧ (s.dev.reaches (0x1000 + g) = true) ∧ (s.dev.bankPage g = g) ∧ (fieldAt w 0 3 < 6) ∧ (fieldAt w 4 2 ≠ 3) ∧ (s.dev.running = true) ∧ (fieldAt w 0 3 = s.dev.rdAt R.BANK.BANK_CTRL_ASPECT g 0) ∧ ((g % 2 = 0 → bitAt w 3 = s.dev.rdAt R.BANK.BANK_CTRL_JOIN g 0)) := ⟨(st running), (0), (0x20), by and_intros <;> decide +kernel⟩

theorem witness_BankAndFarControl_2 : ∃ (s : State) (g : Nat) (w : Nat), (g < 4096) ∧ (s.dev.reaches (0x1000 + g) = true) ∧ (s.dev.bankPage g = g) ∧ (fieldAt w 0 3 < 6) ∧ (fieldAt w 4 2 ≠ 3) ∧ (s.dev.running = false) := ⟨(st up), (0), (0x1D), by and_intros <;> decide +kernel⟩

theorem witness_BankAndFarControl_3 : ∃ (s : State) (g : Nat) (off : Nat) (w : Nat), (g < 64) ∧ (s.dev.reaches (0x400 + g) = true) ∧ ((s.dev.running = true ∨ 0x80 ≤ off ∧ off % 16 = 8 ∧ (fieldAt w 8 6 < 16 ∨ 40 < fieldAt w 8 6))) := ⟨(st running), (63), (0x40), (0), by and_intros <;> decide +kernel⟩

theorem witness_BankAndFarControl_3_1 : ∃ (s : State) (g : Nat) (off : Nat) (w : Nat), (g < 64) ∧ (s.dev.reaches (0x400 + g) = true) ∧ ((s.dev.running = true ∨ 0x80 ≤ off ∧ off % 16 = 8 ∧ (fieldAt w 8 6 < 16 ∨ 40 < fieldAt w 8 6))) := ⟨(st up), (63), (0x88), (0xF00), by and_intros <;> decide +kernel⟩

theorem witness_BankAndFarControl_3_2 : ∃ (s : State) (g : Nat) (off : Nat) (w : Nat), (g < 64) ∧ (s.dev.reaches (0x400 + g) = true) ∧ ((s.dev.running = true ∨ 0x80 ≤ off ∧ off % 16 = 8 ∧ (fieldAt w 8 6 < 16 ∨ 40 < fieldAt w 8 6))) := ⟨(st up), (63), (0x88), (0x2900), by and_intros <;> decide +kernel⟩

theorem witness_BankAndFarControl_4 : ∃ (s : State) (g : Nat), (g < 64) ∧ (s.dev.reaches (0x400 + g) = true) ∧ (s.dev.running = false) := ⟨(st up), (63), by and_intros <;> decide +kernel⟩

theorem witness_BankAndFarControl_5 : ∃ (s : State) (g : Nat) (k : Nat), (g < 64) ∧ (k < 16) ∧ (s.dev.reaches (0x400 + g) = true) ∧ (s.dev.running = false) := ⟨(st up), (63), (15), by and_intros <;> decide +kernel⟩

theorem witness_BankAndFarControl_6 : ∃ (s : State) (g : Nat) (k : Nat), (g < 64) ∧ (k < 16) ∧ (s.dev.reaches (0x400 + g) = true) ∧ (s.dev.running = false) := ⟨(st up), (63), (15), by and_intros <;> decide +kernel⟩

theorem witness_BankAndFarControl_7 : ∃ (s : State) (g : Nat) (k : Nat) (w : Nat), (g < 64) ∧ (k < 16) ∧ (s.dev.reaches (0x400 + g) = true) ∧ (s.dev.running = false) ∧ (16 ≤ fieldAt w 8 6 ∧ fieldAt w 8 6 ≤ 40) := ⟨(st up), (63), (15), (0x1003), by and_intros <;> decide +kernel⟩

theorem witness_BankAndFarControl_7_1 : ∃ (s : State) (g : Nat) (k : Nat) (w : Nat), (g < 64) ∧ (k < 16) ∧ (s.dev.reaches (0x400 + g) = true) ∧ (s.dev.running = false) ∧ (16 ≤ fieldAt w 8 6 ∧ fieldAt w 8 6 ≤ 40) := ⟨(st up), (63), (15), (0x2801), by and_intros <;> decide +kernel⟩

theorem witness_SlateIsJudged_0 : ∃ (s : State) (bs : Bytes) (t : Nat), (s.dev.takesReels = true) ∧ (bs.length = 4096) ∧ ((s.dev.toTime t).slateFault bs = none) ∧ (s.dev.dbg.erasing = false) ∧ (slatePartial bs = false) ∧ (s.dev.running = false) := ⟨(st up), (slateOf 0), (0), by and_intros <;> decide +kernel⟩

theorem witness_SlateIsJudged_0_1 : ∃ (s : State) (bs : Bytes) (t : Nat), (s.dev.takesReels = true) ∧ (bs.length = 4096) ∧ ((s.dev.toTime t).slateFault bs = none) ∧ (s.dev.dbg.erasing = false) ∧ (slatePartial bs = false) ∧ (s.dev.running = false) := ⟨(st opened), (slateOf 0), (0), by and_intros <;> decide +kernel⟩

theorem witness_SlateIsJudged_1 : ∃ (s : State) (bs : Bytes) (t : Nat), (s.dev.takesReels = true) ∧ (bs.length = 4096) ∧ ((s.dev.toTime t).slateFault bs = none) ∧ (s.dev.dbg.erasing = false) ∧ (slatePartial bs = false) ∧ (s.dev.running = true) := ⟨(st running), (slateOf 0), (0), by and_intros <;> decide +kernel⟩

theorem witness_SlateIsJudged_2 : ∃ (s : State) (bs : Bytes) (t : Nat), (s.dev.takesReels = true) ∧ (bs.length = 4096) ∧ ((s.dev.toTime t).slateFault bs = none) ∧ (s.dev.dbg.erasing = false) ∧ (slatePartial bs = true) := ⟨(st loaded), (regionSlate), (0), by and_intros <;> decide +kernel⟩

theorem witness_SlateIsJudged_3 : ∃ (s : State) (bs : Bytes) (t : Nat) (code : Nat), (s.dev.takesReels = true) ∧ (bs.length = 4096) ∧ ((s.dev.toTime t).slateFault bs = some code) := ⟨(st up), (regionSlate), (0), (0x40), by and_intros <;> decide +kernel⟩

theorem witness_SlateIsJudged_4 : ∃ (s : State) (bs : Bytes) (t : Nat), (s.dev.takesReels = true) ∧ (bs.length = 4096) ∧ ((s.dev.toTime t).slateFault bs = none) ∧ (s.dev.dbg.erasing = true) := ⟨(st { up with dbg := { up.dbg with erasing := true } }), (slateOf 0), (0), by and_intros <;> decide +kernel⟩

theorem witness_SlateIsJudged_5 : ∃ (s : State) (bs : Bytes), (s.dev.takesReels = true) ∧ (bs.length < 4096) := ⟨(st up), (List.replicate 4095 0), by and_intros <;> decide +kernel⟩

theorem witness_SlateIsJudged_6 : ∃ (s : State), (s.dev.takesReels = false) := ⟨(State.reset), by decide +kernel⟩

theorem witness_FrameIsWritten_0 : ∃ (s : State) (ty : Nat) (bs : Bytes) (t : Nat) (d1 : _), (1 ≤ ty) ∧ (ty ≤ 8) ∧ (s.dev.takesReels = true) ∧ (s.dev.wholeFrame ty bs = true) ∧ ((s.dev.toTime t).frameWaits bs = (false, d1)) ∧ (d1.frameFits bs = true) ∧ (slateSecure d1.ld.slate = false) ∧ (d1.frameAddrOk ty (frameAddr bs) (frameLen bs) = true) ∧ (d1.payloadBad ty (frameAddr bs) (bs.drop 32) = none) := ⟨(st opened), (1), (frame 1 0x30 1 (List.replicate 12 1)), (0), (((st opened).dev.toTime 0 |>.frameWaits (frame 1 0x30 1 (List.replicate 12 1))).2), by and_intros <;> decide +kernel⟩

theorem witness_FrameIsWritten_0_1 : ∃ (s : State) (ty : Nat) (bs : Bytes) (t : Nat) (d1 : _), (1 ≤ ty) ∧ (ty ≤ 8) ∧ (s.dev.takesReels = true) ∧ (s.dev.wholeFrame ty bs = true) ∧ ((s.dev.toTime t).frameWaits bs = (false, d1)) ∧ (d1.frameFits bs = true) ∧ (slateSecure d1.ld.slate = false) ∧ (d1.frameAddrOk ty (frameAddr bs) (frameLen bs) = true) ∧ (d1.payloadBad ty (frameAddr bs) (bs.drop 32) = none) := ⟨(st { opened.wrAt R.TAKE.PITCH_MAP 0 0 0x8000 with tk := { opened.tk with pitches := 1 } }), (5), (frame 5 0 1 [1, 0, 0, 0]), (0), (((st { opened.wrAt R.TAKE.PITCH_MAP 0 0 0x8000 with tk := { opened.tk with pitches := 1 } }).dev.toTime 0 |>.frameWaits (frame 5 0 1 [1, 0, 0, 0])).2), by and_intros <;> decide +kernel⟩

theorem witness_FrameIsWritten_1 : ∃ (s : State) (ty : Nat) (bs : Bytes) (t : Nat) (d1 : _), (1 ≤ ty) ∧ (ty ≤ 8) ∧ (s.dev.takesReels = true) ∧ (s.dev.wholeFrame ty bs = true) ∧ ((s.dev.toTime t).frameWaits bs = (false, d1)) ∧ (d1.frameFits bs = true) ∧ (slateSecure d1.ld.slate = true) ∧ (d1.ld.secureKey ≠ none) ∧ (frameFlags bs ≠ 1) := ⟨(st { opened with ld := { opened.ld with slate := [0, 0, 0, 0, 0, 0, 3], secureKey := some 7 } }), (1), (frame 1 0x30 1 (List.replicate 12 1)), (0), (((st { opened with ld := { opened.ld with slate := [0, 0, 0, 0, 0, 0, 3], secureKey := some 7 } }).dev.toTime 0 |>.frameWaits (frame 1 0x30 1 (List.replicate 12 1))).2), by and_intros <;> decide +kernel⟩

theorem witness_FrameIsWritten_2 : ∃ (s : State) (ty : Nat) (bs : Bytes) (t : Nat) (d1 : _) (code : _) (x : _), (1 ≤ ty) ∧ (ty ≤ 8) ∧ (s.dev.takesReels = true) ∧ (s.dev.wholeFrame ty bs = true) ∧ ((s.dev.toTime t).frameWaits bs = (false, d1)) ∧ (frameFault bs d1 = some (code, x)) := ⟨(st opened), (1), (frame 1 0x30 2 (List.replicate 12 1)), (0), (((st opened).dev.toTime 0 |>.frameWaits (frame 1 0x30 2 (List.replicate 12 1))).2), (0x45), (1), by and_intros <;> decide +kernel⟩

theorem witness_FrameIsWritten_3 : ∃ (s : State) (ty : Nat) (bs : Bytes) (t : Nat) (d1 : _), (1 ≤ ty) ∧ (ty ≤ 8) ∧ (s.dev.takesReels = true) ∧ (s.dev.loadState = 1) ∧ (leAt bs 0 4 ≠ 0x4C524B4C) ∧ (frameType bs = ty) ∧ (bs.length = 32 + frameLen bs) ∧ ((s.dev.toTime t).frameWaits bs = (false, d1)) ∧ (frameCrcOk bs = false) := ⟨(st opened), (8), (put 32 [7] (frame 8 0x30 2 (List.replicate 12 1))), (0), (((st opened).dev.toTime 0 |>.frameWaits (put 32 [7] (frame 8 0x30 2 (List.replicate 12 1)))).2), by and_intros <;> decide +kernel⟩

theorem witness_FrameIsWritten_4 : ∃ (s : State) (ty : Nat) (bs : Bytes) (t : Nat) (d1 : _), (1 ≤ ty) ∧ (ty ≤ 8) ∧ (s.dev.takesReels = true) ∧ (s.dev.loadState = 1) ∧ (leAt bs 0 4 ≠ 0x4C524B4C) ∧ (frameType bs = ty) ∧ (bs.length = 32 + frameLen bs) ∧ ((s.dev.toTime t).frameWaits bs = (true, d1)) := ⟨(st { opened with ld := { opened.ld with fencePending := true } }), (1), (frame 1 0x30 1 (List.replicate 12 1)), (0), (((st { opened with ld := { opened.ld with fencePending := true } }).dev.toTime 0 |>.frameWaits (frame 1 0x30 1 (List.replicate 12 1))).2), by and_intros <;> decide +kernel⟩

theorem witness_FrameIsWritten_5 : ∃ (s : State) (ty : Nat) (bs : Bytes), (1 ≤ ty) ∧ (ty ≤ 8) ∧ (s.dev.takesReels = true) ∧ (s.dev.loadState = 1) ∧ (leAt bs 0 4 ≠ 0x4C524B4C) ∧ (frameType bs = ty) ∧ (bs.length < 32 + frameLen bs) := ⟨(st opened), (1), ((frame 1 0x30 1 (List.replicate 12 1)).take 43), by and_intros <;> decide +kernel⟩

theorem witness_FrameIsWritten_6 : ∃ (s : State) (ty : Nat) (bs : Bytes), (1 ≤ ty) ∧ (ty ≤ 8) ∧ (s.dev.takesReels = true) ∧ (frameType bs ≠ ty) := ⟨(st opened), (2), (frame 1 0x30 1 (List.replicate 12 1)), by and_intros <;> decide +kernel⟩

theorem witness_FrameIsWritten_7 : ∃ (s : State) (ty : Nat), (1 ≤ ty) ∧ (ty ≤ 8) ∧ (s.dev.takesReels = false) := ⟨(State.reset), (1), by and_intros <;> decide +kernel⟩

theorem witness_FramePayloads_2 : ∃ (a : Nat), (a / 2 ^ 28 ≠ 0) := ⟨(0x10000001), by decide +kernel⟩

theorem witness_FramePayloads_3 : ∃ (a : Nat), (segTy a ≠ 0xB) := ⟨(0), by decide +kernel⟩

theorem witness_LoadControl_0 : ∃ (s : State), (s.dev.reaches 0x14 = true) := ⟨(st opened), by decide +kernel⟩

theorem witness_LoadControl_1 : ∃ (s : State), (s.dev.reaches 0x14 = true) := ⟨(st opened), by decide +kernel⟩

theorem witness_LoadControl_2 : ∃ (s : State), (s.dev.reaches 0x14 = true) ∧ (s.dev.loadState = 2) := ⟨(st { loaded with edge := { up.edge with fenced := [2] } }), by and_intros <;> decide +kernel⟩

theorem witness_LoadControl_3 : ∃ (s : State), (s.dev.reaches 0x14 = true) ∧ (s.dev.loadState ≠ 2) := ⟨(st opened), by and_intros <;> decide +kernel⟩

theorem witness_LoadControl_4 : ∃ (s : State), (s.dev.reaches 0x14 = true) := ⟨(st up), by decide +kernel⟩

theorem witness_LoadControl_4_1 : ∃ (s : State), (s.dev.reaches 0x14 = true) := ⟨(st opened), by decide +kernel⟩

theorem witness_SecdedCode_0 : ∃ (w : Nat) (data : Nat), ((w = 96 ∨ w = 64)) ∧ (data < 2 ^ w) := ⟨(96), (2 ^ 96 - 1), by and_intros <;> decide +kernel⟩

theorem witness_SecdedCode_0_1 : ∃ (w : Nat) (data : Nat), ((w = 96 ∨ w = 64)) ∧ (data < 2 ^ w) := ⟨(64), (2 ^ 64 - 1), by and_intros <;> decide +kernel⟩

theorem witness_PinWords_0 : ∃ (s : State) (b : Nat) (k : Nat) (hi : Nat) (t : Nat) (w : Nat), (b < 10) ∧ (k < 32) ∧ (s.dev.reaches (0x301 + b) = true) ∧ (SMap.get s.dev.pins.lockStep b ≠ 2) ∧ (w = (s.dev.atWrite t).settlePins.stagedLow (R.PINBANK.PIN_CFG.key b k) ((s.dev.atWrite t).settlePins.rdAt R.PINBANK.PIN_CFG b k) + hi % 2 ^ 32 * 2 ^ 32) ∧ ((s.dev.atWrite t).settlePins.pinLocked (b * 32 + k) = false) ∧ ((s.dev.atWrite t).settlePins.pinWordTaken (b * 32 + k) w = true) := ⟨(st ((up.wrAt R.PINBANK.BANK_STATUS_VCCIO_CODE 0 0 3).stageLow (R.PINBANK.PIN_CFG.key 0 0) 0x6008)), (0), (0), (0), (9), (0x6008), by and_intros <;> decide +kernel⟩

theorem witness_PinWords_1 : ∃ (s : State) (b : Nat) (k : Nat) (hi : Nat) (t : Nat) (w : Nat), (b < 10) ∧ (k < 32) ∧ (s.dev.reaches (0x301 + b) = true) ∧ (SMap.get s.dev.pins.lockStep b ≠ 2) ∧ (w = (s.dev.atWrite t).settlePins.stagedLow (R.PINBANK.PIN_CFG.key b k) ((s.dev.atWrite t).settlePins.rdAt R.PINBANK.PIN_CFG b k) + hi % 2 ^ 32 * 2 ^ 32) ∧ (((s.dev.atWrite t).settlePins.pinLocked (b * 32 + k) = true ∨ (s.dev.atWrite t).settlePins.pinWordTaken (b * 32 + k) w = false)) := ⟨(st (up.wrAt R.PINBANK.LOCK 9 0 0x80000000)), (9), (31), (0), (9), (0), by and_intros <;> decide +kernel⟩

theorem witness_PinWords_1_1 : ∃ (s : State) (b : Nat) (k : Nat) (hi : Nat) (t : Nat) (w : Nat), (b < 10) ∧ (k < 32) ∧ (s.dev.reaches (0x301 + b) = true) ∧ (SMap.get s.dev.pins.lockStep b ≠ 2) ∧ (w = (s.dev.atWrite t).settlePins.stagedLow (R.PINBANK.PIN_CFG.key b k) ((s.dev.atWrite t).settlePins.rdAt R.PINBANK.PIN_CFG b k) + hi % 2 ^ 32 * 2 ^ 32) ∧ (((s.dev.atWrite t).settlePins.pinLocked (b * 32 + k) = true ∨ (s.dev.atWrite t).settlePins.pinWordTaken (b * 32 + k) w = false)) := ⟨(st up), (0), (0), (0x1000), (9), (0x100000000000), by and_intros <;> decide +kernel⟩

theorem witness_PinWords_2 : ∃ (s : State) (b : Nat), (b < 10) ∧ (s.dev.reaches (0x301 + b) = true) ∧ (SMap.get s.dev.pins.lockStep b = 0) := ⟨(st up), (9), by and_intros <;> decide +kernel⟩

theorem witness_PinWords_3 : ∃ (s : State) (b : Nat) (t : Nat), (b < 10) ∧ (s.dev.reaches (0x301 + b) = true) ∧ (SMap.get s.dev.pins.lockStep b = 1) ∧ ((s.dev.atWrite t).lockExpired b = false) := ⟨(st { up with pins := { up.pins with lockStep := [(9, 1)], lockStart := [(9, 1)] } }), (9), (9), by and_intros <;> decide +kernel⟩

theorem witness_PinWords_4 : ∃ (s : State) (b : Nat) (t : Nat), (b < 10) ∧ (s.dev.reaches (0x301 + b) = true) ∧ (SMap.get s.dev.pins.lockStep b = 2) ∧ ((s.dev.atWrite t).lockExpired b = false) := ⟨(st { up with pins := { up.pins with lockStep := [(9, 2)], lockStart := [(9, 1)] } }), (9), (9), by and_intros <;> decide +kernel⟩

theorem witness_PinWords_5 : ∃ (s : State) (b : Nat) (t : Nat), (b < 10) ∧ (s.dev.reaches (0x301 + b) = true) ∧ (SMap.get s.dev.pins.lockStep b = 2) ∧ ((s.dev.atWrite t).lockExpired b = false) := ⟨(st { up with pins := { up.pins with lockStep := [(9, 2)], lockStart := [(9, 1)] } }), (9), (9), by and_intros <;> decide +kernel⟩

theorem witness_PinWords_6 : ∃ (s : State) (b : Nat) (t : Nat), (b < 10) ∧ (s.dev.reaches (0x301 + b) = true) ∧ (SMap.get s.dev.pins.lockStep b ≠ 2) ∧ ((s.dev.atWrite t).lockExpired b = false) := ⟨(st { up with pins := { up.pins with lockStep := [(9, 1)], lockStart := [(9, 1)] } }), (9), (9), by and_intros <;> decide +kernel⟩

theorem witness_PinWords_7 : ∃ (s : State) (b : Nat) (t : Nat), (b < 10) ∧ ((s.dev.toTime t).lockExpired b = true) := ⟨(st { up with pins := { up.pins with lockStep := [(9, 1)], lockStart := [(9, 1)] } }), (9), (64 * 10 * 2 ^ 32 + 1), by and_intros <;> decide +kernel⟩

theorem witness_PinWords_8 : ∃ (s : State) (b : Nat) (t : Nat), (b < 10) ∧ ((s.dev.toTime t).lockExpired b = false) := ⟨(st { up with pins := { up.pins with lockStep := [(9, 1)], lockStart := [(9, 1)] } }), (9), (639 * 2 ^ 32), by and_intros <;> decide +kernel⟩

theorem witness_PinWords_9 : ∃ (b : Nat), (10 ≤ b) := ⟨(10), by decide +kernel⟩

theorem witness_PinWords_10 : ∃ (b : Nat), (10 ≤ b) := ⟨(10), by decide +kernel⟩

theorem witness_PinWords_11 : ∃ (b : Nat), (10 ≤ b) := ⟨(10), by decide +kernel⟩

theorem witness_PinWords_12 : ∃ (b : Nat), (10 ≤ b) := ⟨(10), by decide +kernel⟩

theorem witness_PinWords_13 : ∃ (k : Nat), (32 ≤ k) := ⟨(32), by decide +kernel⟩

theorem witness_EnvelopePermits_0 : ∃ (v : Envelope), (v.acts = false) := ⟨(default), by decide +kernel⟩

theorem witness_EnvelopePermits_1 : ∃ (d : Dev) (v : Envelope) (p : Nat) (lv : Nat), (v.acts = true) ∧ ((SMap.get d.pins.clamp p ≠ lv ∨ lv = 0)) ∧ (d.pulseHolds v p = false) ∧ (d.rateHolds v p = false) ∧ (d.interlocks v p lv = []) := ⟨(up), ({ locked := true, enable := true, count := 1, entry := [(3, 0x100)], pairs := [(0, 4 * 2 ^ 16 + 3 + 3 * 2 ^ 33)], bootLock := [] }), (3), (2), by and_intros <;> decide +kernel⟩

theorem witness_EnvelopePermits_2 : ∃ (d : Dev) (v : Envelope) (p : Nat) (lv : Nat) (c : Nat) (r : List Nat), (v.acts = true) ∧ ((SMap.get d.pins.clamp p ≠ lv ∨ lv = 0)) ∧ (d.pad p ≠ lv) ∧ ((r = [] → d.pulseHolds v p = false ∧ d.rateHolds v p = false)) ∧ (lowest (r ++ d.interlocks v p lv) = some c) := ⟨({ up with pins := { up.pins with pads := [(4, 2)] } }), ({ locked := true, enable := true, count := 1, entry := [(3, 0x100)], pairs := [(0, 4 * 2 ^ 16 + 3 + 3 * 2 ^ 33)], bootLock := [] }), (3), (2), (0), ([]), by and_intros <;> decide +kernel⟩

theorem witness_EnvelopePermits_2_1 : ∃ (d : Dev) (v : Envelope) (p : Nat) (lv : Nat) (c : Nat) (r : List Nat), (v.acts = true) ∧ ((SMap.get d.pins.clamp p ≠ lv ∨ lv = 0)) ∧ (d.pad p ≠ lv) ∧ ((r = [] → d.pulseHolds v p = false ∧ d.rateHolds v p = false)) ∧ (lowest (r ++ d.interlocks v p lv) = some c) := ⟨(up), ({ locked := true, enable := true, count := 1, entry := [(3, 0x100)], pairs := [(0, 4 * 2 ^ 16 + 3 + 3 * 2 ^ 33)], bootLock := [] }), (3), (2), (0), ([0]), by and_intros <;> decide +kernel⟩

theorem witness_EnvelopePermits_3 : ∃ (d : Dev) (v : Envelope) (p : Nat) (lv : Nat), (v.acts = true) ∧ ((SMap.get d.pins.clamp p ≠ lv ∨ lv = 0)) ∧ (d.pad p ≠ lv) ∧ ((d.pulseHolds v p = true ∨ d.rateHolds v p = true)) := ⟨({ up with pins := { up.pins with pads := [(3, 1)], changed := [(3, 1)] } }), ({ locked := true, enable := true, count := 1, entry := [(3, 0x10100)], pairs := [(0, 4 * 2 ^ 16 + 3 + 3 * 2 ^ 33)], bootLock := [] }), (3), (2), by and_intros <;> decide +kernel⟩

theorem witness_EnvelopePermits_4 : ∃ (d : Dev) (v : Envelope) (p : Nat) (lv : Nat), (v.acts = true) ∧ ((SMap.get d.pins.clamp p ≠ lv ∨ lv = 0)) ∧ (d.pad p = lv) := ⟨({ up with pins := { up.pins with pads := [(3, 1)], changed := [(3, 1)] } }), ({ locked := true, enable := true, count := 1, entry := [(3, 0x10100)], pairs := [(0, 4 * 2 ^ 16 + 3 + 3 * 2 ^ 33)], bootLock := [] }), (3), (1), by and_intros <;> decide +kernel⟩

theorem witness_EnvelopePermits_6 : ∃ (d : Dev), (d.on R.SAFETY.SAFE_STATUS_IN_SAFE = true) := ⟨((up.wr R.SAFETY.SAFE_STATUS_IN_SAFE 1)), by decide +kernel⟩

theorem witness_PadCommands_0 : ∃ (s : State) (p : Nat) (t : Nat), (p < 320) ∧ (((s.dev.toTime t).settlePins.inWindow p = false ∨ (s.dev.toTime t).settlePins.on R.SAFETY.SAFE_STATUS_IN_SAFE = true)) := ⟨(st up), (3), (9), by and_intros <;> decide +kernel⟩

theorem witness_PadCommands_1 : ∃ (s : State) (p : Nat) (t : Nat), (p < 320) ∧ ((s.dev.toTime t).settlePins.inWindow p = true) ∧ ((s.dev.toTime t).settlePins.on R.SAFETY.SAFE_STATUS_IN_SAFE = false) := ⟨(st { up with pins := { up.pins with window := [(3, 10)] } }), (3), (0), by and_intros <;> decide +kernel⟩

theorem witness_PadCommands_2 : ∃ (s : State) (p : Nat) (t : Nat), (p < 320) ∧ (SMap.get (s.dev.toTime t).settlePins.pins.window p ≠ 0) ∧ ((s.dev.toTime t).settlePins.inWindow p = false) := ⟨(st { up with pins := { up.pins with window := [(3, 10)] } }), (3), (9), by and_intros <;> decide +kernel⟩

theorem witness_PadCommands_3 : ∃ (s : State) (p : Nat) (t : Nat), (p < 320) ∧ ((SMap.get (s.dev.toTime t).settlePins.pins.window p = 0 ∨ (s.dev.toTime t).settlePins.inWindow p = true)) := ⟨(st { up with pins := { up.pins with window := [(3, 10)] } }), (3), (8), by and_intros <;> decide +kernel⟩

theorem witness_PadCommands_4 : ∃ (s : State) (p : Nat) (t : Nat), (p < 320) ∧ ((s.dev.toTime t).settlePins.inWindow p = false) ∧ (SMap.get (s.dev.toTime t).settlePins.pins.delay p = 1) ∧ ((s.dev.toTime t).settlePins.pulseHolds s.envelope p = false) := ⟨(st { up with pins := { up.pins with delay := [(3, 1)] } }), (3), (8), by and_intros <;> decide +kernel⟩

theorem witness_PadCommands_5 : ∃ (s : State) (p : Nat) (t : Nat), (p < 320) ∧ ((s.dev.toTime t).settlePins.inWindow p = false) ∧ (SMap.get (s.dev.toTime t).settlePins.pins.delay p = 2) ∧ ((s.dev.toTime t).settlePins.rateHolds s.envelope p = false) := ⟨(st { up with pins := { up.pins with delay := [(3, 2)] } }), (3), (8), by and_intros <;> decide +kernel⟩

theorem witness_PadCommands_6 : ∃ (s : State) (p : Nat) (t : Nat), (p < 320) ∧ (SMap.get (s.dev.toTime t).settlePins.pins.delay p ≠ 1 ∨ (s.dev.toTime t).settlePins.pulseHolds s.envelope p = true ∨ (s.dev.toTime t).settlePins.inWindow p = true) := ⟨(st up), (3), (8), by and_intros <;> decide +kernel⟩

theorem witness_PadCommands_7 : ∃ (s : State) (p : Nat) (t : Nat), (p < 320) ∧ (SMap.get (s.dev.toTime t).settlePins.pins.delay p ≠ 2 ∨ (s.dev.toTime t).settlePins.rateHolds s.envelope p = true ∨ (s.dev.toTime t).settlePins.inWindow p = true) := ⟨(st up), (3), (8), by and_intros <;> decide +kernel⟩

theorem witness_PadCommands_8 : ∃ (s : State) (p : Nat) (since : Nat) (t : Nat) (m : Nat) (d1 : Dev), (p < 320) ∧ (d1 = (s.dev.toTime t).settlePins) ∧ (m = max (d1.mono + d1.instantOf since - d1.now)
      (max (if SMap.get d1.pins.changed p = 0 then 0 else SMap.get d1.pins.changed p - 1 + 100 * 2 ^ 32) (max (SMap.get d1.pins.window p) (SMap.get d1.pins.windowEnd p) - 1))) := ⟨({ (st { up with pins := { up.pins with pads := [(3, 2)] } }) with envelope := { locked := true, enable := true, count := 1, entry := [(3, 0x200)], pairs := [(0, 4 * 2 ^ 16 + 3 + 3 * 2 ^ 33)], bootLock := [] } }), (3), (0), (100 * 2 ^ 32), (up.mono), (_), ⟨by decide +kernel, rfl, by decide +kernel⟩⟩

theorem witness_PadCommands_8_1 : ∃ (s : State) (p : Nat) (since : Nat) (t : Nat) (m : Nat) (d1 : Dev), (p < 320) ∧ (d1 = (s.dev.toTime t).settlePins) ∧ (m = max (d1.mono + d1.instantOf since - d1.now)
      (max (if SMap.get d1.pins.changed p = 0 then 0 else SMap.get d1.pins.changed p - 1 + 100 * 2 ^ 32) (max (SMap.get d1.pins.window p) (SMap.get d1.pins.windowEnd p) - 1))) := ⟨({ (st { up with pins := { up.pins with pads := [(3, 2)] } }) with envelope := { locked := true, enable := true, count := 1, entry := [(3, 0x200)], pairs := [(0, 4 * 2 ^ 16 + 3 + 3 * 2 ^ 33)], bootLock := [] } }), (3), (0), (99 * 2 ^ 32), (up.mono), (_), ⟨by decide +kernel, rfl, by decide +kernel⟩⟩

theorem witness_PadCommands_9 : ∃ (p : Nat), (320 ≤ p) := ⟨(320), by decide +kernel⟩

theorem witness_PadCommands_10 : ∃ (p : Nat), (320 ≤ p) := ⟨(320), by decide +kernel⟩

theorem witness_PadCommands_11 : ∃ (p : Nat), (320 ≤ p) := ⟨(320), by decide +kernel⟩

theorem witness_PadCommands_12 : ∃ (p : Nat), (320 ≤ p) := ⟨(320), by decide +kernel⟩

theorem witness_PadCommands_13 : ∃ (p : Nat), (320 ≤ p) := ⟨(320), by decide +kernel⟩

theorem witness_PatternMatchers_0 : ∃ (s : State) (m : Nat) (w : Nat), (m < 16) ∧ (s.dev.reaches (0x310 + m) = true) ∧ ((w / 2 % 4 = 3 ∨ s.dev.rdAt R.MATCH.MATCH_CTRL_ENABLE m 0 = 1 ∧ w % 2 = 1)) := ⟨(st up), (15), (6), by and_intros <;> decide +kernel⟩

theorem witness_PatternMatchers_0_1 : ∃ (s : State) (m : Nat) (w : Nat), (m < 16) ∧ (s.dev.reaches (0x310 + m) = true) ∧ ((w / 2 % 4 = 3 ∨ s.dev.rdAt R.MATCH.MATCH_CTRL_ENABLE m 0 = 1 ∧ w % 2 = 1)) := ⟨(st (up.wrAt R.MATCH.MATCH_CTRL_ENABLE 15 0 1)), (15), (1), by and_intros <;> decide +kernel⟩

theorem witness_PatternMatchers_1 : ∃ (s : State) (m : Nat) (w : Nat), (m < 16) ∧ (s.dev.reaches (0x310 + m) = true) ∧ (w / 2 % 4 ≠ 3) ∧ ((s.dev.rdAt R.MATCH.MATCH_CTRL_ENABLE m 0 ≠ 1 ∨ w % 2 = 0)) := ⟨(st up), (15), (0x30003), by and_intros <;> decide +kernel⟩

theorem witness_PatternMatchers_1_1 : ∃ (s : State) (m : Nat) (w : Nat), (m < 16) ∧ (s.dev.reaches (0x310 + m) = true) ∧ (w / 2 % 4 ≠ 3) ∧ ((s.dev.rdAt R.MATCH.MATCH_CTRL_ENABLE m 0 ≠ 1 ∨ w % 2 = 0)) := ⟨(st (up.wrAt R.MATCH.MATCH_CTRL_ENABLE 15 0 1)), (15), (0x30002), by and_intros <;> decide +kernel⟩

theorem witness_PatternMatchers_2 : ∃ (s : State) (m : Nat) (levels : Nat) (t : Nat) (d1 : Dev), (m < 16) ∧ (s.dev.rdAt R.MATCH.MATCH_CTRL_ENABLE m 0 = 1) ∧ (d1 = (s.dev.toTime t).settlePins.samplePins levels) := ⟨(st ((up.wrAt R.MATCH.MATCH_CTRL_ENABLE 15 0 1).wrAt R.MATCH.MATCH_CTRL_MODE 15 0 0)), (15), (0), (9), (_), ⟨by decide +kernel, by decide +kernel, rfl⟩⟩

theorem witness_PatternMatchers_2_1 : ∃ (s : State) (m : Nat) (levels : Nat) (t : Nat) (d1 : Dev), (m < 16) ∧ (s.dev.rdAt R.MATCH.MATCH_CTRL_ENABLE m 0 = 1) ∧ (d1 = (s.dev.toTime t).settlePins.samplePins levels) := ⟨(st ((up.wrAt R.MATCH.MATCH_CTRL_ENABLE 15 0 1).wrAt R.MATCH.MATCH_CTRL_MODE 15 0 1)), (15), (0), (9), (_), ⟨by decide +kernel, by decide +kernel, rfl⟩⟩

theorem witness_PatternMatchers_2_2 : ∃ (s : State) (m : Nat) (levels : Nat) (t : Nat) (d1 : Dev), (m < 16) ∧ (s.dev.rdAt R.MATCH.MATCH_CTRL_ENABLE m 0 = 1) ∧ (d1 = (s.dev.toTime t).settlePins.samplePins levels) := ⟨(st ((up.wrAt R.MATCH.MATCH_CTRL_ENABLE 15 0 1).wrAt R.MATCH.MATCH_CTRL_MODE 15 0 2)), (15), (0), (9), (_), ⟨by decide +kernel, by decide +kernel, rfl⟩⟩

theorem witness_PatternMatchers_3 : ∃ (raw : Nat), (raw < 2) := ⟨(1), by decide +kernel⟩

theorem witness_PatternMatchers_4 : ∃ (v : Nat), (v < 2) := ⟨(1), by decide +kernel⟩

theorem witness_PatternMatchers_5 : ∃ (s : State) (m : Nat), (m < 16) ∧ (s.dev.rdAt R.MATCH.MATCH_CTRL_ENABLE m 0 = 0) := ⟨(st up), (15), by and_intros <;> decide +kernel⟩

theorem witness_PatternMatchers_6 : ∃ (m : Nat), (16 ≤ m) := ⟨(16), by decide +kernel⟩

theorem witness_PatternMatchers_7 : ∃ (m : Nat), (16 ≤ m) := ⟨(16), by decide +kernel⟩

theorem witness_DeviceTime_0 : ∃ (s : State) (t : Nat), ((s.dev.toTime t).clk.epoch < (s.dev.toTime t).now / 2 ^ 64) := ⟨(st { { up with now := 2 ^ 64 - 1 } with clk := { up.clk with epoch := 0 } }), (0), by decide +kernel⟩

theorem witness_DeviceTime_1 : ∃ (s : State) (t : Nat), ((s.dev.toTime t).now / 2 ^ 64 ≤ (s.dev.toTime t).clk.epoch) := ⟨(st up), (5), by decide +kernel⟩

theorem witness_DeviceTime_2 : ∃ (s : State) (hi : Nat) (v : Nat), (s.dev.reaches 0xD = true) ∧ (v = s.dev.stagedLow (R.TIME.ADDEND.key 0 0) (s.dev.rd R.TIME.ADDEND) + hi % 2 ^ 8 * 2 ^ 32) ∧ (s.dev.rd R.TIME.TIME_CTRL_SOURCE = 0) ∧ (s.dev.leadsTime = true) ∧ (9990 * 2 ^ 32 ≤ v * 1000) ∧ (v * 1000 ≤ 10010 * 2 ^ 32) := ⟨(st (up.stageLow (R.TIME.ADDEND.key 0 0) 1)), (10), (10 * 2 ^ 32 + 1), by and_intros <;> decide +kernel⟩

theorem witness_DeviceTime_3 : ∃ (s : State) (hi : Nat) (v : Nat), (s.dev.reaches 0xD = true) ∧ (v = s.dev.stagedLow (R.TIME.ADDEND.key 0 0) (s.dev.rd R.TIME.ADDEND) + hi % 2 ^ 8 * 2 ^ 32) ∧ ((s.dev.rd R.TIME.TIME_CTRL_SOURCE ≠ 0 ∨ s.dev.leadsTime = false ∨ v * 1000 < 9990 * 2 ^ 32 ∨ 10010 * 2 ^ 32 < v * 1000)) := ⟨(st up), (11), (11 * 2 ^ 32), by and_intros <;> decide +kernel⟩

theorem witness_DeviceTime_4 : ∃ (s : State) (w : Nat) (t : Nat) (x : Int) (d1 : Dev), (s.dev.reaches 0xD = true) ∧ (bitAt w 11 = 0) ∧ (bitAt w 12 = 0) ∧ (d1 = (s.dev.atWrite t).timeCtrlFields (w ||| 0x400)) ∧ (d1.running = false) ∧ (d1.on R.TIME.TIME_STATUS_FROZEN = true) ∧ (x = signedOf 64 (d1.rd R.TIME.OFFSET)) := ⟨(st ((up.wr R.TIME.TIME_STATUS_FROZEN 1).wr R.TIME.OFFSET (5))), (0), (905), (signedOf 64 (5)), (_), ⟨by decide +kernel, by decide +kernel, by decide +kernel, rfl, by and_intros <;> decide +kernel⟩⟩

theorem witness_DeviceTime_4_1 : ∃ (s : State) (w : Nat) (t : Nat) (x : Int) (d1 : Dev), (s.dev.reaches 0xD = true) ∧ (bitAt w 11 = 0) ∧ (bitAt w 12 = 0) ∧ (d1 = (s.dev.atWrite t).timeCtrlFields (w ||| 0x400)) ∧ (d1.running = false) ∧ (d1.on R.TIME.TIME_STATUS_FROZEN = true) ∧ (x = signedOf 64 (d1.rd R.TIME.OFFSET)) := ⟨(st ((up.wr R.TIME.TIME_STATUS_FROZEN 1).wr R.TIME.OFFSET (2 ^ 64 - 5))), (0), (905), (signedOf 64 (2 ^ 64 - 5)), (_), ⟨by decide +kernel, by decide +kernel, by decide +kernel, rfl, by and_intros <;> decide +kernel⟩⟩

theorem witness_DeviceTime_6 : ∃ (d : Dev) (j : Jump) (t : Nat), (d.clk.jump = some j) ∧ (j.wait ≤ d.timeTo t) := ⟨({ up with clk := { up.clk with jump := some ⟨3, 2, .forward, true⟩ } }), (⟨3, 2, .forward, true⟩), (5), by and_intros <;> decide +kernel⟩

theorem witness_DeviceTime_6_1 : ∃ (d : Dev) (j : Jump) (t : Nat), (d.clk.jump = some j) ∧ (j.wait ≤ d.timeTo t) := ⟨({ up with clk := { up.clk with jump := some ⟨3, 2, .backward, true⟩ } }), (⟨3, 2, .backward, true⟩), (5), by and_intros <;> decide +kernel⟩

theorem witness_DeviceTime_6_2 : ∃ (d : Dev) (j : Jump) (t : Nat), (d.clk.jump = some j) ∧ (j.wait ≤ d.timeTo t) := ⟨({ up with clk := { up.clk with jump := some ⟨3, 2, .slew, true⟩ } }), (⟨3, 2, .slew, true⟩), (5), by and_intros <;> decide +kernel⟩

theorem witness_DeviceTime_7 : ∃ (d : Dev) (m : Nat) (a : Nat) (j : Jump), (d.clk.jumped = some (m, a, j)) ∧ (j.kind = .backward) ∧ (j.ts = true) := ⟨({ up with clk := { up.clk with jumped := some (1, 2, ⟨3, 2, .backward, true⟩) } }), (1), (2), (⟨3, 2, .backward, true⟩), by and_intros <;> decide +kernel⟩

theorem witness_DeviceTime_8 : ∃ (s : State) (w : Nat) (t : Nat) (d1 : Dev), (s.dev.reaches 0xD = true) ∧ (bitAt w 11 = 0) ∧ (bitAt w 12 = 0) ∧ (d1 = (s.dev.atWrite t).timeCtrlFields (w ||| 0x400)) ∧ (d1.running = true) := ⟨(st running), (0), (5), (_), ⟨by decide +kernel, by decide +kernel, by decide +kernel, rfl, by decide +kernel⟩⟩

theorem witness_DeviceTime_9 : ∃ (s : State) (w : Nat) (t : Nat) (d1 : Dev), (s.dev.reaches 0xD = true) ∧ (bitAt w 10 = 0) ∧ (bitAt w 12 = 0) ∧ (d1 = (s.dev.atWrite t).timeCtrlFields (w ||| 0x800)) := ⟨(st (up.wr R.TIME.TIME_STATUS_FROZEN 1)), (0), (5), (_), ⟨by decide +kernel, by decide +kernel, by decide +kernel, rfl⟩⟩

theorem witness_DeviceTime_9_1 : ∃ (s : State) (w : Nat) (t : Nat) (d1 : Dev), (s.dev.reaches 0xD = true) ∧ (bitAt w 10 = 0) ∧ (bitAt w 12 = 0) ∧ (d1 = (s.dev.atWrite t).timeCtrlFields (w ||| 0x800)) := ⟨(st up), (0), (5), (_), ⟨by decide +kernel, by decide +kernel, by decide +kernel, rfl⟩⟩

theorem witness_DeviceTime_10 : ∃ (s : State) (w : Nat), (s.dev.reaches 0xD = true) ∧ (bitAt w 10 = 0) ∧ (bitAt w 11 = 0) := ⟨(st (up.wr R.TIME.TIME_STATUS_HOLDOVER 1)), (0), by and_intros <;> decide +kernel⟩

theorem witness_DeviceTime_11 : ∃ (s : State) (t : Nat) (d1 : Dev), (d1 = s.dev.toTick t) := ⟨(st (up.wr R.TIME.TIME_STATUS_SLEWING 1)), (5), (_), rfl⟩

theorem witness_DeviceTime_11_1 : ∃ (s : State) (t : Nat) (d1 : Dev), (d1 = s.dev.toTick t) := ⟨(st up), (5), (_), rfl⟩

theorem witness_DeviceTime_12 : ∃ (s : State) (t : Nat) (d1 : Dev), (d1 = s.dev.toTick t) ∧ (d1.on R.CLK.CLK_STATUS_HOLDOVER = true) := ⟨(st { up.wr R.CLK.CLK_STATUS_HOLDOVER 1 with clk := { up.clk with lost := [(3, 32)] } }), (5), (_), ⟨rfl, by decide +kernel⟩⟩

theorem witness_DeviceTime_13 : ∃ (s : State) (t : Nat) (d1 : Dev), (d1 = s.dev.toTick t) ∧ (d1.on R.CLK.CLK_STATUS_HOLDOVER = false) := ⟨(st { up with clk := { up.clk with lost := [(3, 32)] } }), (5), (_), ⟨rfl, by decide +kernel⟩⟩

theorem witness_TimeMaster_0 : ∃ (s : State) (t : Nat) (d1 : Dev) (a : Nat), (d1 = s.dev.toTick t) ∧ (a = (if d1.rd R.TIME.TIME_STATUS_MASTER = 1 ∨ d1.clk.masterAddend = 0 then d1.rd R.TIME.ADDEND else d1.clk.masterAddend)) := ⟨(st up), (5), (_), (_), ⟨rfl, rfl⟩⟩

theorem witness_TimeMaster_0_1 : ∃ (s : State) (t : Nat) (d1 : Dev) (a : Nat), (d1 = s.dev.toTick t) ∧ (a = (if d1.rd R.TIME.TIME_STATUS_MASTER = 1 ∨ d1.clk.masterAddend = 0 then d1.rd R.TIME.ADDEND else d1.clk.masterAddend)) := ⟨(st { up.wr R.TIME.TIME_STATUS_MASTER 0 with clk := { up.clk with masterAddend := 7 } }), (5), (_), (_), ⟨rfl, rfl⟩⟩

theorem witness_TimeMaster_1 : ∃ (s : State) (t : Nat) (d1 : Dev), (d1 = s.dev.toTick t) ∧ (s.dev.rd R.TIME.TIME_CTRL_SOURCE ≠ 0) ∧ (s.dev.leadsTime = true) := ⟨(st (up.wr R.TIME.TIME_CTRL_SOURCE 1)), (5), (_), ⟨rfl, by and_intros <;> decide +kernel⟩⟩

theorem witness_TimeMaster_2 : ∃ (s : State), (s.dev.rd R.TIME.TIME_CTRL_SOURCE = 0) ∧ (s.dev.leadsTime = true) := ⟨(st up), by and_intros <;> decide +kernel⟩

theorem witness_TimeMaster_3 : ∃ (s : State), (s.dev.leadsTime = false) := ⟨(st ((linked up).wr R.TIME.TIME_STATUS_MASTER 0)), by decide +kernel⟩

theorem witness_TimeMaster_4 : ∃ (s : State) (t : Nat) (d1 : Dev) (d2 : Dev), (d1 = s.dev.toTick t) ∧ (d1.on R.TIME.TIME_STATUS_MASTER = false) ∧ (d2 = (if d1.clk.lastHeard + 4 * 2 ^ d1.rd R.TIME.TIME_CTRL_SYNC_LOG2 * usec ≤ d1.now then
      forUpto 4 (fun n (d : Dev) => if d.tbSource n = 7 then d.loseTb n 4 else d) { d1 with clk := { d1.clk with lastHeard := d1.now } } else d1)) := ⟨(st ((linked up).wr R.TIME.TIME_STATUS_MASTER 0)), (4096 * usec), (_), (_), ⟨rfl, by decide +kernel, rfl⟩⟩

theorem witness_TimeMaster_4_1 : ∃ (s : State) (t : Nat) (d1 : Dev) (d2 : Dev), (d1 = s.dev.toTick t) ∧ (d1.on R.TIME.TIME_STATUS_MASTER = false) ∧ (d2 = (if d1.clk.lastHeard + 4 * 2 ^ d1.rd R.TIME.TIME_CTRL_SYNC_LOG2 * usec ≤ d1.now then
      forUpto 4 (fun n (d : Dev) => if d.tbSource n = 7 then d.loseTb n 4 else d) { d1 with clk := { d1.clk with lastHeard := d1.now } } else d1)) := ⟨(st ((linked up).wr R.TIME.TIME_STATUS_MASTER 0)), (4095 * usec), (_), (_), ⟨rfl, by decide +kernel, rfl⟩⟩

theorem witness_TimeMaster_5 : ∃ (s : State) (t : Nat), ((s.dev.toTick t).on R.TIME.TIME_STATUS_MASTER = true) := ⟨(st up), (5), by decide +kernel⟩

theorem witness_TimeBasesCount_0 : ∃ (d : Dev) (n : Nat) (p : Nat) (c : Nat) (r : Nat), (n < 4) ∧ (p = d.rdAt R.TBASE.POSITION n 0) ∧ (r = d.rdAt R.TBASE.REVOLUTIONS n 0) ∧ (c = (if d.rdAt R.TBASE.CPR n 0 = 0 then 2 ^ 32 else d.rdAt R.TBASE.CPR n 0)) ∧ (p < c) ∧ (c ≤ 2 ^ 32) ∧ (r < 2 ^ 32) := ⟨(up), (3), (0), (2 ^ 32), (0), by and_intros <;> decide +kernel⟩

theorem witness_TimeBasesCount_0_1 : ∃ (d : Dev) (n : Nat) (p : Nat) (c : Nat) (r : Nat), (n < 4) ∧ (p = d.rdAt R.TBASE.POSITION n 0) ∧ (r = d.rdAt R.TBASE.REVOLUTIONS n 0) ∧ (c = (if d.rdAt R.TBASE.CPR n 0 = 0 then 2 ^ 32 else d.rdAt R.TBASE.CPR n 0)) ∧ (p < c) ∧ (c ≤ 2 ^ 32) ∧ (r < 2 ^ 32) := ⟨(((up.wrAt R.TBASE.CPR 3 0 8).wrAt R.TBASE.POSITION 3 0 7)), (3), (7), (8), (0), by and_intros <;> decide +kernel⟩

theorem witness_TimeBasesCount_0_2 : ∃ (d : Dev) (n : Nat) (p : Nat) (c : Nat) (r : Nat), (n < 4) ∧ (p = d.rdAt R.TBASE.POSITION n 0) ∧ (r = d.rdAt R.TBASE.REVOLUTIONS n 0) ∧ (c = (if d.rdAt R.TBASE.CPR n 0 = 0 then 2 ^ 32 else d.rdAt R.TBASE.CPR n 0)) ∧ (p < c) ∧ (c ≤ 2 ^ 32) ∧ (r < 2 ^ 32) := ⟨(up), (3), (0), (2 ^ 32), (0), by and_intros <;> decide +kernel⟩

theorem witness_TimeBasesCount_1 : ∃ (s : State) (n : Nat) (t : Nat) (d1 : Dev), (n < 4) ∧ (d1 = s.dev.toTick t) := ⟨(st (((up.wrAt R.TBASE.TB_CFG_SOURCE 3 0 1).wrAt R.TBASE.CPR 3 0 8).wrAt R.TBASE.DIV 3 0 2)), (3), (2 ^ 40), (_), ⟨by decide +kernel, rfl⟩⟩

theorem witness_TimeBasesCount_1_1 : ∃ (s : State) (n : Nat) (t : Nat) (d1 : Dev), (n < 4) ∧ (d1 = s.dev.toTick t) := ⟨(st (((up.wrAt R.TBASE.TB_CFG_SOURCE 3 0 6).wrAt R.TBASE.CPR 3 0 8))), (3), (5), (_), ⟨by decide +kernel, rfl⟩⟩

theorem witness_TimeBasesCount_2 : ∃ (s : State) (n : Nat) (t : Nat) (m : Nat) (d1 : Dev), (n < 4) ∧ (d1 = s.dev.toTick t) ∧ (m = d1.tbEdge (d1.monoAt (SMap.get d1.clk.perNext n)) 0) := ⟨(st (((up.wrAt R.TBASE.TB_CFG_SOURCE 3 0 6).wrAt R.TBASE.CPR 3 0 8).wrAt R.TBASE.PERIOD 3 0 2)), (3), (2 ^ 40), (_), (_), ⟨by decide +kernel, rfl, rfl⟩⟩

theorem witness_TimeBasesCount_2_1 : ∃ (s : State) (n : Nat) (t : Nat) (m : Nat) (d1 : Dev), (n < 4) ∧ (d1 = s.dev.toTick t) ∧ (m = d1.tbEdge (d1.monoAt (SMap.get d1.clk.perNext n)) 0) := ⟨(st (((up.wrAt R.TBASE.TB_CFG_SOURCE 3 0 1).wrAt R.TBASE.CPR 3 0 8))), (3), (5), (_), (_), ⟨by decide +kernel, rfl, rfl⟩⟩

theorem witness_TimeBasesCount_3 : ∃ (s : State) (n : Nat) (since : Nat) (t : Nat) (m : Nat) (d1 : Dev), (n < 4) ∧ (d1 = (s.dev.toTick t).settlePins.watchTbPins) ∧ (m = d1.qualified (d1.rdAt R.TBASE.TB_CFG_FILTER n 0) since) := ⟨(st { ((((up.wrAt R.TBASE.TB_CFG_SOURCE 3 0 4).wrAt R.TBASE.CPR 3 0 8)).wrAt R.PINBANK.BANK_STATUS_VCCIO_CODE 7 0 3) with pins := { up.pins with cfg := [(242, 4 + 18 * 2 ^ 56), (243, 4 + 19 * 2 ^ 56), (244, 4 + 20 * 2 ^ 56), (245, 4 + 21 * 2 ^ 56), (246, 4 + 22 * 2 ^ 56), (247, 4 + 23 * 2 ^ 56)] } }), (3), (0), (2 ^ 40), (_), (_), ⟨by decide +kernel, rfl, rfl⟩⟩

theorem witness_TimeBasesCount_3_1 : ∃ (s : State) (n : Nat) (since : Nat) (t : Nat) (m : Nat) (d1 : Dev), (n < 4) ∧ (d1 = (s.dev.toTick t).settlePins.watchTbPins) ∧ (m = d1.qualified (d1.rdAt R.TBASE.TB_CFG_FILTER n 0) since) := ⟨(st { ((((up.wrAt R.TBASE.TB_CFG_SOURCE 3 0 4).wrAt R.TBASE.CPR 3 0 8)).wrAt R.PINBANK.BANK_STATUS_VCCIO_CODE 7 0 3) with pins := { up.pins with cfg := [(242, 4 + 18 * 2 ^ 56), (243, 4 + 19 * 2 ^ 56), (244, 4 + 20 * 2 ^ 56), (245, 4 + 21 * 2 ^ 56), (246, 4 + 22 * 2 ^ 56), (247, 4 + 23 * 2 ^ 56)] } }), (3), (0), (5), (_), (_), ⟨by decide +kernel, rfl, rfl⟩⟩

theorem witness_TimeBasesCount_4 : ∃ (s : State) (n : Nat) (since : Nat) (t : Nat) (m : Nat) (d1 : Dev), (n < 4) ∧ (d1 = (s.dev.toTick t).settlePins.watchTbPins) ∧ (m = d1.qualified (d1.rdAt R.TBASE.TB_CFG_FILTER n 0) since) := ⟨(st { ((((up.wrAt R.TBASE.TB_CFG_SOURCE 3 0 5).wrAt R.TBASE.CPR 3 0 8)).wrAt R.PINBANK.BANK_STATUS_VCCIO_CODE 7 0 3) with pins := { up.pins with cfg := [(242, 4 + 18 * 2 ^ 56), (243, 4 + 19 * 2 ^ 56), (244, 4 + 20 * 2 ^ 56), (245, 4 + 21 * 2 ^ 56), (246, 4 + 22 * 2 ^ 56), (247, 4 + 23 * 2 ^ 56)] } }), (3), (0), (2 ^ 40), (_), (_), ⟨by decide +kernel, rfl, rfl⟩⟩

theorem witness_TimeBasesCount_4_1 : ∃ (s : State) (n : Nat) (since : Nat) (t : Nat) (m : Nat) (d1 : Dev), (n < 4) ∧ (d1 = (s.dev.toTick t).settlePins.watchTbPins) ∧ (m = d1.qualified (d1.rdAt R.TBASE.TB_CFG_FILTER n 0) since) := ⟨(st { ((((up.wrAt R.TBASE.TB_CFG_SOURCE 3 0 5).wrAt R.TBASE.CPR 3 0 8)).wrAt R.PINBANK.BANK_STATUS_VCCIO_CODE 7 0 3) with pins := { up.pins with cfg := [(242, 4 + 18 * 2 ^ 56), (243, 4 + 19 * 2 ^ 56), (244, 4 + 20 * 2 ^ 56), (245, 4 + 21 * 2 ^ 56), (246, 4 + 22 * 2 ^ 56), (247, 4 + 23 * 2 ^ 56)] } }), (3), (0), (5), (_), (_), ⟨by decide +kernel, rfl, rfl⟩⟩

theorem witness_TimeBasesCount_5 : ∃ (s : State) (line : Nat), (line < 16) ∧ (s.dev.rdAt R.TIME.TRIG_CFG_OUT 0 line = 1) := ⟨(st (up.wrAt R.TIME.TRIG_CFG_OUT 0 15 1)), (15), by and_intros <;> decide +kernel⟩

theorem witness_TimeBasesCount_6 : ∃ (s : State) (line : Nat), (line < 16) ∧ (s.dev.rdAt R.TIME.TRIG_CFG_OUT 0 line ≠ 1) := ⟨(st (((up.wrAt R.TBASE.TB_CFG_SOURCE 3 0 2).wrAt R.TBASE.CPR 3 0 8).wrAt R.TBASE.TB_CFG_TRIG_LINE 3 0 15)), (15), by and_intros <;> decide +kernel⟩

theorem witness_TimeBasesCount_7 : ∃ (s : State) (n : Nat) (a : Nat) (b : Nat) (since : Nat) (t : Nat) (q : Nat) (m : Nat) (d1 : Dev), (n < 4) ∧ (q = (if b % 2 = 0 then a % 2 else 3 - a % 2)) ∧ (d1 = (s.dev.toTick t).settlePins.watchTbPins) ∧ (SMap.get d1.clk.lastAB n < 4) ∧ (m = d1.qualified (d1.rdAt R.TBASE.TB_CFG_FILTER n 0) since) := ⟨(st ({ ((((up.wrAt R.TBASE.TB_CFG_SOURCE 3 0 3).wrAt R.TBASE.CPR 3 0 8)).wrAt R.PINBANK.BANK_STATUS_VCCIO_CODE 7 0 3) with pins := { up.pins with cfg := [(242, 4 + 18 * 2 ^ 56), (243, 4 + 19 * 2 ^ 56), (244, 4 + 20 * 2 ^ 56), (245, 4 + 21 * 2 ^ 56), (246, 4 + 22 * 2 ^ 56), (247, 4 + 23 * 2 ^ 56)] } })), (3), (1), (0), (0), (2 ^ 40), (1), (_), (_), ⟨by decide +kernel, by decide +kernel, rfl, by decide +kernel, rfl⟩⟩

theorem witness_TimeBasesCount_7_1 : ∃ (s : State) (n : Nat) (a : Nat) (b : Nat) (since : Nat) (t : Nat) (q : Nat) (m : Nat) (d1 : Dev), (n < 4) ∧ (q = (if b % 2 = 0 then a % 2 else 3 - a % 2)) ∧ (d1 = (s.dev.toTick t).settlePins.watchTbPins) ∧ (SMap.get d1.clk.lastAB n < 4) ∧ (m = d1.qualified (d1.rdAt R.TBASE.TB_CFG_FILTER n 0) since) := ⟨(st ({ ((((up.wrAt R.TBASE.TB_CFG_SOURCE 3 0 3).wrAt R.TBASE.CPR 3 0 8)).wrAt R.PINBANK.BANK_STATUS_VCCIO_CODE 7 0 3) with pins := { up.pins with cfg := [(242, 4 + 18 * 2 ^ 56), (243, 4 + 19 * 2 ^ 56), (244, 4 + 20 * 2 ^ 56), (245, 4 + 21 * 2 ^ 56), (246, 4 + 22 * 2 ^ 56), (247, 4 + 23 * 2 ^ 56)] } })), (3), (0), (1), (0), (2 ^ 40), (3), (_), (_), ⟨by decide +kernel, by decide +kernel, rfl, by decide +kernel, rfl⟩⟩

theorem witness_TimeBasesCount_7_2 : ∃ (s : State) (n : Nat) (a : Nat) (b : Nat) (since : Nat) (t : Nat) (q : Nat) (m : Nat) (d1 : Dev), (n < 4) ∧ (q = (if b % 2 = 0 then a % 2 else 3 - a % 2)) ∧ (d1 = (s.dev.toTick t).settlePins.watchTbPins) ∧ (SMap.get d1.clk.lastAB n < 4) ∧ (m = d1.qualified (d1.rdAt R.TBASE.TB_CFG_FILTER n 0) since) := ⟨(st ({ ((((up.wrAt R.TBASE.TB_CFG_SOURCE 3 0 3).wrAt R.TBASE.CPR 3 0 8)).wrAt R.PINBANK.BANK_STATUS_VCCIO_CODE 7 0 3) with pins := { up.pins with cfg := [(242, 4 + 18 * 2 ^ 56), (243, 4 + 19 * 2 ^ 56), (244, 4 + 20 * 2 ^ 56), (245, 4 + 21 * 2 ^ 56), (246, 4 + 22 * 2 ^ 56), (247, 4 + 23 * 2 ^ 56)] } })), (3), (1), (1), (0), (2 ^ 40), (2), (_), (_), ⟨by decide +kernel, by decide +kernel, rfl, by decide +kernel, rfl⟩⟩

theorem witness_TimeBasesCount_7_3 : ∃ (s : State) (n : Nat) (a : Nat) (b : Nat) (since : Nat) (t : Nat) (q : Nat) (m : Nat) (d1 : Dev), (n < 4) ∧ (q = (if b % 2 = 0 then a % 2 else 3 - a % 2)) ∧ (d1 = (s.dev.toTick t).settlePins.watchTbPins) ∧ (SMap.get d1.clk.lastAB n < 4) ∧ (m = d1.qualified (d1.rdAt R.TBASE.TB_CFG_FILTER n 0) since) := ⟨(st ({ ({ ((((up.wrAt R.TBASE.TB_CFG_SOURCE 3 0 3).wrAt R.TBASE.CPR 3 0 8)).wrAt R.PINBANK.BANK_STATUS_VCCIO_CODE 7 0 3) with pins := { up.pins with cfg := [(242, 4 + 18 * 2 ^ 56), (243, 4 + 19 * 2 ^ 56), (244, 4 + 20 * 2 ^ 56), (245, 4 + 21 * 2 ^ 56), (246, 4 + 22 * 2 ^ 56), (247, 4 + 23 * 2 ^ 56)] } }) with clk := { up.clk with lastAB := [(3, 2)] } })), (3), (1), (1), (0), (2 ^ 40), (2), (_), (_), ⟨by decide +kernel, by decide +kernel, rfl, by decide +kernel, rfl⟩⟩

theorem witness_TimeBasesCount_8 : ∃ (n : Nat), (4 ≤ n) := ⟨(4), by decide +kernel⟩

theorem witness_TimeBasesCount_9 : ∃ (n : Nat), (4 ≤ n) := ⟨(4), by decide +kernel⟩

theorem witness_TimeBasesCount_10 : ∃ (n : Nat), (4 ≤ n) := ⟨(4), by decide +kernel⟩

theorem witness_TimeBasesCount_11 : ∃ (n : Nat), (4 ≤ n) := ⟨(4), by decide +kernel⟩

theorem witness_TimeBasesCount_12 : ∃ (n : Nat), (4 ≤ n) := ⟨(4), by decide +kernel⟩

theorem witness_TimeBasesCount_13 : ∃ (n : Nat), (16 ≤ n) := ⟨(16), by decide +kernel⟩

theorem witness_TimeBaseControl_0 : ∃ (s : State) (n : Nat) (since : Nat) (t : Nat) (d1 : Dev), (n < 4) ∧ (d1 = (s.dev.toTick t).settlePins.watchTbPins) ∧ (d1.qualified (d1.rdAt R.TBASE.TB_CFG_FILTER n 0) since ≤ d1.mono) ∧ ((d1.tbCounts n 3 = true ∨ d1.tbCounts n 5 = true)) ∧ ((d1.rdAt R.TBASE.TB_CFG_INDEX_MODE n 0 = 1 ∨ d1.rdAt R.TBASE.TB_CFG_INDEX_MODE n 0 = 2 ∧ SMap.get d1.clk.indexed n = 0)) := ⟨(st { ((((up.wrAt R.TBASE.TB_CFG_SOURCE 3 0 3).wrAt R.TBASE.CPR 3 0 8)).wrAt R.PINBANK.BANK_STATUS_VCCIO_CODE 7 0 3).wrAt R.TBASE.TB_CFG_INDEX_MODE 3 0 1 |>.wrAt R.TBASE.INDEX_POS 3 0 6 with pins := { up.pins with cfg := [(242, 4 + 18 * 2 ^ 56), (243, 4 + 19 * 2 ^ 56), (244, 4 + 20 * 2 ^ 56), (245, 4 + 21 * 2 ^ 56), (246, 4 + 22 * 2 ^ 56), (247, 4 + 23 * 2 ^ 56)] } }), (3), (0), (2 ^ 40), (_), ⟨by decide +kernel, rfl, by and_intros <;> decide +kernel⟩⟩

theorem witness_TimeBaseControl_0_1 : ∃ (s : State) (n : Nat) (since : Nat) (t : Nat) (d1 : Dev), (n < 4) ∧ (d1 = (s.dev.toTick t).settlePins.watchTbPins) ∧ (d1.qualified (d1.rdAt R.TBASE.TB_CFG_FILTER n 0) since ≤ d1.mono) ∧ ((d1.tbCounts n 3 = true ∨ d1.tbCounts n 5 = true)) ∧ ((d1.rdAt R.TBASE.TB_CFG_INDEX_MODE n 0 = 1 ∨ d1.rdAt R.TBASE.TB_CFG_INDEX_MODE n 0 = 2 ∧ SMap.get d1.clk.indexed n = 0)) := ⟨(st { ((((up.wrAt R.TBASE.TB_CFG_SOURCE 3 0 3).wrAt R.TBASE.CPR 3 0 8)).wrAt R.PINBANK.BANK_STATUS_VCCIO_CODE 7 0 3).wrAt R.TBASE.TB_CFG_INDEX_MODE 3 0 2 with pins := { up.pins with cfg := [(242, 4 + 18 * 2 ^ 56), (243, 4 + 19 * 2 ^ 56), (244, 4 + 20 * 2 ^ 56), (245, 4 + 21 * 2 ^ 56), (246, 4 + 22 * 2 ^ 56), (247, 4 + 23 * 2 ^ 56)] } }), (3), (0), (2 ^ 40), (_), ⟨by decide +kernel, rfl, by and_intros <;> decide +kernel⟩⟩

theorem witness_TimeBaseControl_1 : ∃ (s : State) (n : Nat) (since : Nat) (t : Nat) (d1 : Dev), (n < 4) ∧ (d1 = (s.dev.toTick t).settlePins.watchTbPins) ∧ ((d1.mono < d1.qualified (d1.rdAt R.TBASE.TB_CFG_FILTER n 0) since ∨ d1.tbCounts n 3 = false ∧ d1.tbCounts n 5 = false ∨ d1.rdAt R.TBASE.TB_CFG_INDEX_MODE n 0 = 0 ∨
      d1.rdAt R.TBASE.TB_CFG_INDEX_MODE n 0 = 2 ∧ SMap.get d1.clk.indexed n ≠ 0)) := ⟨(st { ((((up.wrAt R.TBASE.TB_CFG_SOURCE 3 0 3).wrAt R.TBASE.CPR 3 0 8)).wrAt R.PINBANK.BANK_STATUS_VCCIO_CODE 7 0 3).wrAt R.TBASE.TB_CFG_INDEX_MODE 3 0 2 with pins := { up.pins with cfg := [(242, 4 + 18 * 2 ^ 56), (243, 4 + 19 * 2 ^ 56), (244, 4 + 20 * 2 ^ 56), (245, 4 + 21 * 2 ^ 56), (246, 4 + 22 * 2 ^ 56), (247, 4 + 23 * 2 ^ 56)] } }), (3), (0), (5), (_), ⟨by decide +kernel, rfl, by decide +kernel⟩⟩

theorem witness_TimeBaseControl_1_1 : ∃ (s : State) (n : Nat) (since : Nat) (t : Nat) (d1 : Dev), (n < 4) ∧ (d1 = (s.dev.toTick t).settlePins.watchTbPins) ∧ ((d1.mono < d1.qualified (d1.rdAt R.TBASE.TB_CFG_FILTER n 0) since ∨ d1.tbCounts n 3 = false ∧ d1.tbCounts n 5 = false ∨ d1.rdAt R.TBASE.TB_CFG_INDEX_MODE n 0 = 0 ∨
      d1.rdAt R.TBASE.TB_CFG_INDEX_MODE n 0 = 2 ∧ SMap.get d1.clk.indexed n ≠ 0)) := ⟨(st up), (3), (0), (2 ^ 40), (_), ⟨by decide +kernel, rfl, by decide +kernel⟩⟩

theorem witness_TimeBaseControl_2 : ∃ (s : State) (n : Nat) (t : Nat) (d1 : Dev), (n < 4) ∧ (d1 = s.dev.toTick t) := ⟨(st { (((up.wrAt R.TBASE.TB_CFG_SOURCE 3 0 2).wrAt R.TBASE.CPR 3 0 8).wrAt R.TBASE.LOST_TIMEOUT 3 0 7) with clk := { up.clk with lostSince := [(3, 2 ^ 64)] } }), (3), (7 * usec), (_), ⟨by decide +kernel, rfl⟩⟩

theorem witness_TimeBaseControl_2_1 : ∃ (s : State) (n : Nat) (t : Nat) (d1 : Dev), (n < 4) ∧ (d1 = s.dev.toTick t) := ⟨(st { (((up.wrAt R.TBASE.TB_CFG_SOURCE 3 0 2).wrAt R.TBASE.CPR 3 0 8).wrAt R.TBASE.LOST_TIMEOUT 3 0 7) with clk := { up.clk with lostSince := [(3, 2 ^ 64)] } }), (3), (6 * usec), (_), ⟨by decide +kernel, rfl⟩⟩

theorem witness_TimeBaseControl_3 : ∃ (s : State) (n : Nat) (t : Nat) (m : Nat) (d1 : Dev), (n < 4) ∧ (d1 = s.dev.toTick t) ∧ (m = d1.tbEdge (d1.monoAt (SMap.get d1.clk.subNext n)) 0) ∧ (SMap.get d1.clk.subNext n ≠ 0) ∧ (m ≤ d1.mono) ∧ (SMap.get d1.clk.lostNow n = 1) ∧ (d1.rd R.TAKE.TAKE_CTRL_TB_SEL = n) ∧ (d1.rd R.TAKE.TAKE_CTRL_LOST_RESP = 2) := ⟨(st { (up.wr R.TAKE.TAKE_CTRL_TB_SEL 3).wr R.TAKE.TAKE_CTRL_LOST_RESP 2 with clk := { up.clk with subNext := [(3, 2 ^ 64 + 5)], lostNow := [(3, 1)] } }), (3), (2 ^ 40), (_), (_), ⟨by decide +kernel, rfl, rfl, by and_intros <;> decide +kernel⟩⟩

theorem witness_TimeBaseControl_4 : ∃ (s : State) (n : Nat) (t : Nat) (d1 : Dev), (n < 4) ∧ (d1 = s.dev.toTick t) ∧ ((SMap.get d1.clk.subNext n = 0 ∨ d1.mono < d1.tbEdge (d1.monoAt (SMap.get d1.clk.subNext n)) 0 ∨
      SMap.get d1.clk.lostNow n ≠ 1 ∨ d1.rd R.TAKE.TAKE_CTRL_TB_SEL ≠ n ∨ d1.rd R.TAKE.TAKE_CTRL_LOST_RESP ≠ 2)) := ⟨(st { (up.wr R.TAKE.TAKE_CTRL_TB_SEL 3).wr R.TAKE.TAKE_CTRL_LOST_RESP 2 with clk := { up.clk with subNext := [(3, 2 ^ 64 + 5)], lostNow := [(3, 1)] } }), (3), (4), (_), ⟨by decide +kernel, rfl, by decide +kernel⟩⟩

theorem witness_TimeBaseControl_4_1 : ∃ (s : State) (n : Nat) (t : Nat) (d1 : Dev), (n < 4) ∧ (d1 = s.dev.toTick t) ∧ ((SMap.get d1.clk.subNext n = 0 ∨ d1.mono < d1.tbEdge (d1.monoAt (SMap.get d1.clk.subNext n)) 0 ∨
      SMap.get d1.clk.lostNow n ≠ 1 ∨ d1.rd R.TAKE.TAKE_CTRL_TB_SEL ≠ n ∨ d1.rd R.TAKE.TAKE_CTRL_LOST_RESP ≠ 2)) := ⟨(st up), (3), (2 ^ 40), (_), ⟨by decide +kernel, rfl, by decide +kernel⟩⟩

theorem witness_TimeBaseControl_5 : ∃ (s : State) (n : Nat), (n < 4) ∧ (s.dev.reaches (0xE + n) = true) ∧ (s.dev.running = true) ∧ (s.dev.rd R.TAKE.TAKE_CTRL_TB_SEL = n) := ⟨(st (running.wr R.TAKE.TAKE_CTRL_TB_SEL 3)), (3), by and_intros <;> decide +kernel⟩

theorem witness_TimeBaseControl_6 : ∃ (s : State) (n : Nat) (off : Nat) (w : Nat) (bs : Bytes), (n < 4) ∧ (s.dev.reaches (0xE + n) = true) ∧ ((s.dev.running = false ∨ s.dev.rd R.TAKE.TAKE_CTRL_TB_SEL ≠ n)) ∧ (off ≠ 0x50) ∧ (off ≠ 0x54) ∧ (off ≠ 0x58) ∧ (off ≠ 0x5C) ∧ (bs = (s.dev.tbBlock n).take (off - 0x40) ++ leBytes w 4 ++ (s.dev.tbBlock n).drop (off - 0x40 + 4)) := ⟨(st running), (3), (0x40), (0x40001), (leBytes (0x40001) 4 ++ (running.tbBlock 3).drop 4), by and_intros <;> decide +kernel⟩

theorem witness_TimeBaseControl_6_1 : ∃ (s : State) (n : Nat) (off : Nat) (w : Nat) (bs : Bytes), (n < 4) ∧ (s.dev.reaches (0xE + n) = true) ∧ ((s.dev.running = false ∨ s.dev.rd R.TAKE.TAKE_CTRL_TB_SEL ≠ n)) ∧ (off ≠ 0x50) ∧ (off ≠ 0x54) ∧ (off ≠ 0x58) ∧ (off ≠ 0x5C) ∧ (bs = (s.dev.tbBlock n).take (off - 0x40) ++ leBytes w 4 ++ (s.dev.tbBlock n).drop (off - 0x40 + 4)) := ⟨(st running), (3), (0x40), (0x2), (leBytes (0x2) 4 ++ (running.tbBlock 3).drop 4), by and_intros <;> decide +kernel⟩

theorem witness_TimeBaseControl_7 : ∃ (s : State) (n : Nat) (off : Nat), (n < 4) ∧ (s.dev.reaches (0xE + n) = true) ∧ ((s.dev.running = false ∨ s.dev.rd R.TAKE.TAKE_CTRL_TB_SEL ≠ n)) ∧ ((off = 0x50 ∨ off = 0x58)) := ⟨(st up), (3), (0x58), by and_intros <;> decide +kernel⟩

theorem witness_TimeBaseControl_8 : ∃ (s : State) (n : Nat) (off : Nat) (w : Nat) (key : Nat) (bs : Bytes), (n < 4) ∧ (s.dev.reaches (0xE + n) = true) ∧ ((s.dev.running = false ∨ s.dev.rd R.TAKE.TAKE_CTRL_TB_SEL ≠ n)) ∧ ((off = 0x54 ∨ off = 0x5C)) ∧ (key = (0xE000 + 0x1000 * n + off) * 8 - 32) ∧ (bs = (s.dev.tbBlock n).take (off - 0x44) ++ leBytes (s.dev.stagedLow key (leAt (s.dev.tbBlock n) (off - 0x44) 4)) 4 ++ leBytes w 4 ++ (s.dev.tbBlock n).drop (off - 0x44 + 8)) := ⟨(st (up.stageLow ((0xE000 + 0x1000 * 3 + 0x58) * 8) 7)), (3), (0x5C), (9), ((0xE000 + 0x1000 * 3 + 0x58) * 8), ((up.tbBlock 3).take 0x18 ++ leBytes 7 4 ++ leBytes 9 4 ++ (up.tbBlock 3).drop 0x20), by and_intros <;> decide +kernel⟩

theorem witness_TimeBaseControl_9 : ∃ (n : Nat), (4 ≤ n) := ⟨(4), by decide +kernel⟩

theorem witness_TimeBaseControl_10 : ∃ (n : Nat), (4 ≤ n) := ⟨(4), by decide +kernel⟩

theorem witness_TimeBaseControl_11 : ∃ (n : Nat), (4 ≤ n) := ⟨(4), by decide +kernel⟩

theorem witness_TimeBaseControl_12 : ∃ (n : Nat), (4 ≤ n) := ⟨(4), by decide +kernel⟩

theorem witness_PulsesAndCaptures_0 : ∃ (s : State) (k : Nat) (w : Nat) (t : Nat) (d0 : Dev), (k < 8) ∧ (s.dev.reaches 0xD = true) ∧ (d0 = (s.dev.atWrite t).settleJump) ∧ ((w % 4 ≠ 2 ∨ d0.rdAt R.TIME.WIDTH 0 k * 2 ^ 32 < d0.rdAt R.TIME.PERIOD 0 k ∧ 5 * 2 ^ 32 ≤ d0.rdAt R.TIME.PERIOD 0 k)) := ⟨(st ((up.wrAt R.TIME.PERIOD 0 7 (5 * 2 ^ 32)).wrAt R.TIME.WIDTH 0 7 4)), (7), (1), (5), (_), ⟨by decide +kernel, by decide +kernel, rfl, by decide +kernel⟩⟩

theorem witness_PulsesAndCaptures_0_1 : ∃ (s : State) (k : Nat) (w : Nat) (t : Nat) (d0 : Dev), (k < 8) ∧ (s.dev.reaches 0xD = true) ∧ (d0 = (s.dev.atWrite t).settleJump) ∧ ((w % 4 ≠ 2 ∨ d0.rdAt R.TIME.WIDTH 0 k * 2 ^ 32 < d0.rdAt R.TIME.PERIOD 0 k ∧ 5 * 2 ^ 32 ≤ d0.rdAt R.TIME.PERIOD 0 k)) := ⟨(st ((up.wrAt R.TIME.PERIOD 0 7 (5 * 2 ^ 32)).wrAt R.TIME.WIDTH 0 7 4)), (7), (0x206), (5), (_), ⟨by decide +kernel, by decide +kernel, rfl, by decide +kernel⟩⟩

theorem witness_PulsesAndCaptures_0_2 : ∃ (s : State) (k : Nat) (w : Nat) (t : Nat) (d0 : Dev), (k < 8) ∧ (s.dev.reaches 0xD = true) ∧ (d0 = (s.dev.atWrite t).settleJump) ∧ ((w % 4 ≠ 2 ∨ d0.rdAt R.TIME.WIDTH 0 k * 2 ^ 32 < d0.rdAt R.TIME.PERIOD 0 k ∧ 5 * 2 ^ 32 ≤ d0.rdAt R.TIME.PERIOD 0 k)) := ⟨(st ((up.wrAt R.TIME.PERIOD 0 7 (5 * 2 ^ 32)).wrAt R.TIME.WIDTH 0 7 4)), (7), (3), (5), (_), ⟨by decide +kernel, by decide +kernel, rfl, by decide +kernel⟩⟩

theorem witness_PulsesAndCaptures_1 : ∃ (s : State) (k : Nat) (w : Nat) (t : Nat) (d0 : Dev), (k < 8) ∧ (s.dev.reaches 0xD = true) ∧ (d0 = (s.dev.atWrite t).settleJump) ∧ (w % 4 = 2) ∧ ((d0.rdAt R.TIME.PERIOD 0 k ≤ d0.rdAt R.TIME.WIDTH 0 k * 2 ^ 32 ∨ d0.rdAt R.TIME.PERIOD 0 k < 5 * 2 ^ 32)) := ⟨(st up), (7), (2), (5), (_), ⟨by decide +kernel, by decide +kernel, rfl, by and_intros <;> decide +kernel⟩⟩

theorem witness_PulsesAndCaptures_2 : ∃ (s : State) (k : Nat) (t : Nat) (m : Nat) (d1 : Dev), (k < 8) ∧ (d1 = s.dev.toTick t) ∧ (m = d1.pulseEdge k) ∧ (d1.rdAt R.TIME.PULSE_CTRL_ARMED 0 k = 1) ∧ (m ≤ d1.mono) ∧ (SMap.get d1.clk.pulseEnd k = 0) := ⟨(st { (up.wrAt R.TIME.PULSE_CTRL_ARMED 0 7 1) with clk := { up.clk with pulseNext := [(7, 2 ^ 64 + 5)], pulseWid := [(7, 3)] } }), (7), (2 ^ 40), (_), (_), ⟨by decide +kernel, rfl, rfl, by and_intros <;> decide +kernel⟩⟩

theorem witness_PulsesAndCaptures_3 : ∃ (s : State) (k : Nat) (t : Nat) (m : Nat) (d1 : Dev), (k < 8) ∧ (d1 = s.dev.toTick t) ∧ (m = d1.pulseEdge k) ∧ (d1.rdAt R.TIME.PULSE_CTRL_ARMED 0 k = 1) ∧ (m ≤ d1.mono) ∧ (SMap.get d1.clk.pulseEnd k ≠ 0) := ⟨(st { (up.wrAt R.TIME.PULSE_CTRL_ARMED 0 7 1) with clk := { up.clk with pulseNext := [(7, 2 ^ 64 + 5)], pulseEnd := [(7, 1)], pulsePer := [(7, 9)] } }), (7), (2 ^ 40), (_), (_), ⟨by decide +kernel, rfl, rfl, by and_intros <;> decide +kernel⟩⟩

theorem witness_PulsesAndCaptures_5 : ∃ (s : State) (k : Nat) (t : Nat), (k < 8) ∧ (((s.dev.toTick t).rdAt R.TIME.PULSE_CTRL_ARMED 0 k ≠ 1 ∨ (s.dev.toTick t).mono < (s.dev.toTick t).pulseEdge k)) := ⟨(st { (up.wrAt R.TIME.PULSE_CTRL_ARMED 0 7 1) with clk := { up.clk with pulseNext := [(7, 2 ^ 64 + 2 ^ 41)] } }), (7), (5), by and_intros <;> decide +kernel⟩

theorem witness_PulsesAndCaptures_5_1 : ∃ (s : State) (k : Nat) (t : Nat), (k < 8) ∧ (((s.dev.toTick t).rdAt R.TIME.PULSE_CTRL_ARMED 0 k ≠ 1 ∨ (s.dev.toTick t).mono < (s.dev.toTick t).pulseEdge k)) := ⟨(st up), (7), (5), by and_intros <;> decide +kernel⟩

theorem witness_PulsesAndCaptures_6 : ∃ (s : State) (k : Nat) (level : Nat) (since : Nat) (t : Nat) (m : Nat) (u : Nat) (d1 : Dev), (k < 16) ∧ (d1 = (s.dev.toTick t).settlePins) ∧ (m = d1.qualified (d1.rdAt R.TIME.CAP_CTRL_FILTER 0 k) since) ∧ (u = d1.stampAt m % 2 ^ 64) ∧ (m ≤ d1.mono) ∧ (d1.rdAt R.TIME.CAP_CTRL_ENABLE 0 k = 1) ∧ (edgeSelected (d1.rdAt R.TIME.CAP_CTRL_EDGE 0 k) (level % 2) = true) ∧ ((d1.rdAt R.TIME.CAP_CTRL_GATE_EN 0 k = 0 ∨ stampGe u (d1.rdAt R.TIME.GATE_START 0 k) = true ∧ stampGe u (d1.rdAt R.TIME.GATE_END 0 k) = false)) ∧ (d1.pinServes (264 + k) 3 (0x10 + k) = true) := ⟨(st { ((up.wrAt R.TIME.CAP_CTRL_ENABLE 0 15 1).wrAt R.PINBANK.BANK_STATUS_VCCIO_CODE 8 0 3) with pins := { up.pins with cfg := [(279, 3 + 0x1F * 2 ^ 56)] }, clk := { up.clk with caps := [(15, [4])] } }), (15), (1), (0), (2 ^ 40), (_), (_), (_), ⟨by decide +kernel, rfl, rfl, rfl, by and_intros <;> decide +kernel⟩⟩

theorem witness_PulsesAndCaptures_6_1 : ∃ (s : State) (k : Nat) (level : Nat) (since : Nat) (t : Nat) (m : Nat) (u : Nat) (d1 : Dev), (k < 16) ∧ (d1 = (s.dev.toTick t).settlePins) ∧ (m = d1.qualified (d1.rdAt R.TIME.CAP_CTRL_FILTER 0 k) since) ∧ (u = d1.stampAt m % 2 ^ 64) ∧ (m ≤ d1.mono) ∧ (d1.rdAt R.TIME.CAP_CTRL_ENABLE 0 k = 1) ∧ (edgeSelected (d1.rdAt R.TIME.CAP_CTRL_EDGE 0 k) (level % 2) = true) ∧ ((d1.rdAt R.TIME.CAP_CTRL_GATE_EN 0 k = 0 ∨ stampGe u (d1.rdAt R.TIME.GATE_START 0 k) = true ∧ stampGe u (d1.rdAt R.TIME.GATE_END 0 k) = false)) ∧ (d1.pinServes (264 + k) 3 (0x10 + k) = true) := ⟨(st { ((up.wrAt R.TIME.CAP_CTRL_ENABLE 0 15 1).wrAt R.PINBANK.BANK_STATUS_VCCIO_CODE 8 0 3) with pins := { up.pins with cfg := [(279, 3 + 0x1F * 2 ^ 56)] }, clk := { up.clk with caps := [(15, List.replicate 16 4)] } }), (15), (1), (0), (2 ^ 40), (_), (_), (_), ⟨by decide +kernel, rfl, rfl, rfl, by and_intros <;> decide +kernel⟩⟩

theorem witness_PulsesAndCaptures_7 : ∃ (s : State) (k : Nat) (level : Nat) (since : Nat) (t : Nat) (m : Nat) (u : Nat) (d1 : Dev), (k < 16) ∧ (d1 = (s.dev.toTick t).settlePins) ∧ (m = d1.qualified (d1.rdAt R.TIME.CAP_CTRL_FILTER 0 k) since) ∧ (u = d1.stampAt m % 2 ^ 64) ∧ ((d1.mono < m ∨ d1.rdAt R.TIME.CAP_CTRL_ENABLE 0 k ≠ 1 ∨ edgeSelected (d1.rdAt R.TIME.CAP_CTRL_EDGE 0 k) (level % 2) = false ∨ d1.pinServes (264 + k) 3 (0x10 + k) = false ∨
      d1.rdAt R.TIME.CAP_CTRL_GATE_EN 0 k ≠ 0 ∧ (stampGe u (d1.rdAt R.TIME.GATE_START 0 k) = false ∨ stampGe u (d1.rdAt R.TIME.GATE_END 0 k) = true))) := ⟨(st up), (15), (1), (0), (2 ^ 40), (_), (_), (_), ⟨by decide +kernel, rfl, rfl, rfl, by decide +kernel⟩⟩

theorem witness_PulsesAndCaptures_7_1 : ∃ (s : State) (k : Nat) (level : Nat) (since : Nat) (t : Nat) (m : Nat) (u : Nat) (d1 : Dev), (k < 16) ∧ (d1 = (s.dev.toTick t).settlePins) ∧ (m = d1.qualified (d1.rdAt R.TIME.CAP_CTRL_FILTER 0 k) since) ∧ (u = d1.stampAt m % 2 ^ 64) ∧ ((d1.mono < m ∨ d1.rdAt R.TIME.CAP_CTRL_ENABLE 0 k ≠ 1 ∨ edgeSelected (d1.rdAt R.TIME.CAP_CTRL_EDGE 0 k) (level % 2) = false ∨ d1.pinServes (264 + k) 3 (0x10 + k) = false ∨
      d1.rdAt R.TIME.CAP_CTRL_GATE_EN 0 k ≠ 0 ∧ (stampGe u (d1.rdAt R.TIME.GATE_START 0 k) = false ∨ stampGe u (d1.rdAt R.TIME.GATE_END 0 k) = true))) := ⟨(st { ((up.wrAt R.TIME.CAP_CTRL_ENABLE 0 15 1).wrAt R.PINBANK.BANK_STATUS_VCCIO_CODE 8 0 3) with pins := { up.pins with cfg := [(279, 3 + 0x1F * 2 ^ 56)] }, clk := { up.clk with caps := [(15, [4])] } }), (15), (1), (0), (5), (_), (_), (_), ⟨by decide +kernel, rfl, rfl, rfl, by decide +kernel⟩⟩

theorem witness_PulsesAndCaptures_8 : ∃ (s : State) (k : Nat), (k < 16) ∧ (s.dev.rowUp 0xD = true) := ⟨(st { ((up.wrAt R.TIME.CAP_CTRL_ENABLE 0 15 1).wrAt R.PINBANK.BANK_STATUS_VCCIO_CODE 8 0 3) with pins := { up.pins with cfg := [(279, 3 + 0x1F * 2 ^ 56)] }, clk := { up.clk with caps := [(15, [4, 6])] } }), (15), by and_intros <;> decide +kernel⟩

theorem witness_PulsesAndCaptures_9 : ∃ (s : State) (k : Nat) (t : Nat) (d1 : Dev), (k < 16) ∧ (d1 = s.dev.toTick t) := ⟨(st { up with clk := { up.clk with trig := [(15, 1)], trigEnd := [(15, 5)] } }), (15), (2 ^ 40), (_), ⟨by decide +kernel, rfl⟩⟩

theorem witness_PulsesAndCaptures_9_1 : ∃ (s : State) (k : Nat) (t : Nat) (d1 : Dev), (k < 16) ∧ (d1 = s.dev.toTick t) := ⟨(st { up with clk := { up.clk with trig := [(15, 1)], trigEnd := [(15, 2 ^ 41)] } }), (15), (5), (_), ⟨by decide +kernel, rfl⟩⟩

theorem witness_PulsesAndCaptures_10 : ∃ (k : Nat), (8 ≤ k) := ⟨(8), by decide +kernel⟩

theorem witness_PulsesAndCaptures_11 : ∃ (k : Nat), (8 ≤ k) := ⟨(8), by decide +kernel⟩

theorem witness_PulsesAndCaptures_12 : ∃ (k : Nat), (16 ≤ k) := ⟨(16), by decide +kernel⟩

theorem witness_PulsesAndCaptures_13 : ∃ (k : Nat), (16 ≤ k) := ⟨(16), by decide +kernel⟩

theorem witness_PulsesAndCaptures_14 : ∃ (k : Nat), (16 ≤ k) := ⟨(16), by decide +kernel⟩

theorem witness_PortTraining_0 : ∃ (s : State) (p : Nat), (p < 8) ∧ (s.dev.reaches (0x209 + p) = true) ∧ (s.dev.running = true) := ⟨(st running), (7), by and_intros <;> decide +kernel⟩

theorem witness_PortTraining_1 : ∃ (s : State) (p : Nat), (p < 8) ∧ (s.dev.reaches (0x209 + p) = true) ∧ (s.dev.running = true) := ⟨(st running), (7), by and_intros <;> decide +kernel⟩

theorem witness_PortTraining_2 : ∃ (s : State) (p : Nat), (p < 8) ∧ (s.dev.reaches (0x209 + p) = true) ∧ (s.dev.running = true) := ⟨(st running), (7), by and_intros <;> decide +kernel⟩

theorem witness_PortTraining_3 : ∃ (s : State) (p : Nat), (p < 8) ∧ (s.dev.reaches (0x209 + p) = true) ∧ (s.dev.running = false) := ⟨(st up), (7), by and_intros <;> decide +kernel⟩

theorem witness_PortTraining_4 : ∃ (s : State) (p : Nat) (w : Nat), (p < 8) ∧ (s.dev.reaches (0x209 + p) = true) ∧ (s.dev.running = false) ∧ (w % 2 = 1) := ⟨(st up), (7), (0x321), by and_intros <;> decide +kernel⟩

theorem witness_PortTraining_4_1 : ∃ (s : State) (p : Nat) (w : Nat), (p < 8) ∧ (s.dev.reaches (0x209 + p) = true) ∧ (s.dev.running = false) ∧ (w % 2 = 1) := ⟨(st (up.wrAt R.KL.KL_CTRL_ENABLE 7 0 1)), (7), (0x125), by and_intros <;> decide +kernel⟩

theorem witness_PortTraining_5 : ∃ (s : State) (p : Nat) (w : Nat), (p < 8) ∧ (s.dev.reaches (0x209 + p) = true) ∧ (s.dev.running = false) ∧ (w % 2 = 1) := ⟨(st up), (7), (0x321), by and_intros <;> decide +kernel⟩

theorem witness_PortTraining_6 : ∃ (s : State) (p : Nat) (w : Nat), (p < 8) ∧ (s.dev.reaches (0x209 + p) = true) ∧ (s.dev.running = false) ∧ (w % 2 = 0) := ⟨(st (up.wrAt R.KL.KL_CTRL_ENABLE 7 0 1)), (7), (0x320), by and_intros <;> decide +kernel⟩

theorem witness_PortTraining_7 : ∃ (s : State) (p : Nat) (w : Nat), (p < 8) ∧ (s.dev.reaches (0x209 + p) = true) ∧ (s.dev.running = false) ∧ (w % 2 = 0) := ⟨(st up), (7), (0x320), by and_intros <;> decide +kernel⟩

theorem witness_PortTraining_8 : ∃ (p : Nat), (p < 8) := ⟨(7), by decide +kernel⟩

theorem witness_PortTraining_8_1 : ∃ (p : Nat), (p < 8) := ⟨(7), by decide +kernel⟩

theorem witness_PortTraining_9 : ∃ (s : State) (p : Nat), (p < 8) ∧ (s.dev.portState p = 2) := ⟨(st (up.wrAt R.KL.KL_STATUS_STATE 7 0 2)), (7), by and_intros <;> decide +kernel⟩

theorem witness_PortTraining_9_1 : ∃ (s : State) (p : Nat), (p < 8) ∧ (s.dev.portState p = 2) := ⟨(st ((up.wrAt R.KL.KL_STATUS_STATE 7 0 2).setPort 7 fun q => { q with low := true })), (7), by and_intros <;> decide +kernel⟩

theorem witness_PortTraining_10 : ∃ (s : State) (p : Nat), (p < 8) ∧ (s.dev.portState p ≠ 2) := ⟨(st up), (7), by and_intros <;> decide +kernel⟩

theorem witness_PortTraining_11 : ∃ (s : State) (p : Nat), (p < 8) ∧ (s.dev.portState p = 3) := ⟨(st (up.wrAt R.KL.KL_STATUS_STATE 7 0 3)), (7), by and_intros <;> decide +kernel⟩

theorem witness_PortTraining_11_1 : ∃ (s : State) (p : Nat), (p < 8) ∧ (s.dev.portState p = 3) := ⟨(st (up.wrAt R.KL.KL_STATUS_STATE 7 0 3)), (7), by and_intros <;> decide +kernel⟩

theorem witness_PortTraining_12 : ∃ (s : State) (p : Nat), (p < 8) ∧ (s.dev.portState p ≠ 3) := ⟨(st up), (7), by and_intros <;> decide +kernel⟩

theorem witness_PortTraining_13 : ∃ (s : State) (p : Nat), (p < 8) ∧ (s.dev.portState p = 4) := ⟨(st (up.wrAt R.KL.KL_STATUS_STATE 7 0 4)), (7), by and_intros <;> decide +kernel⟩

theorem witness_PortTraining_13_1 : ∃ (s : State) (p : Nat), (p < 8) ∧ (s.dev.portState p = 4) := ⟨(st ((up.wrAt R.KL.KL_STATUS_STATE 7 0 4).setPort 7 fun q => { q with low := true })), (7), by and_intros <;> decide +kernel⟩

theorem witness_PortTraining_14 : ∃ (s : State) (p : Nat), (p < 8) ∧ (s.dev.portState p ≠ 4) := ⟨(st up), (7), by and_intros <;> decide +kernel⟩

theorem witness_PortTraining_15 : ∃ (s : State) (p : Nat) (t : Nat), (p < 8) ∧ (linkTimeout (s.dev.portState p) ≠ 0) ∧ ((s.dev.port p).since + linkTimeout (s.dev.portState p) ≤ (s.dev.toTime t).mono) := ⟨(st (up.wrAt R.KL.KL_STATUS_STATE 7 0 3)), (7), (1000 * usec), by and_intros <;> decide +kernel⟩

theorem witness_PortTraining_15_1 : ∃ (s : State) (p : Nat) (t : Nat), (p < 8) ∧ (linkTimeout (s.dev.portState p) ≠ 0) ∧ ((s.dev.port p).since + linkTimeout (s.dev.portState p) ≤ (s.dev.toTime t).mono) := ⟨(st (up.wrAt R.KL.KL_STATUS_STATE 7 0 5)), (7), (1000 * usec), by and_intros <;> decide +kernel⟩

theorem witness_PortTraining_15_2 : ∃ (s : State) (p : Nat) (t : Nat), (p < 8) ∧ (linkTimeout (s.dev.portState p) ≠ 0) ∧ ((s.dev.port p).since + linkTimeout (s.dev.portState p) ≤ (s.dev.toTime t).mono) := ⟨(st ((up.wrAt R.KL.KL_STATUS_STATE 7 0 3).setPort 7 fun q => { q with locked := 255 })), (7), (1000 * usec), by and_intros <;> decide +kernel⟩

theorem witness_PortTraining_16 : ∃ (s : State) (p : Nat) (t : Nat), (p < 8) ∧ ((linkTimeout (s.dev.portState p) = 0 ∨ (s.dev.toTime t).mono < (s.dev.port p).since + linkTimeout (s.dev.portState p))) := ⟨(st (up.wrAt R.KL.KL_STATUS_STATE 7 0 3)), (7), (999 * usec), by and_intros <;> decide +kernel⟩

theorem witness_PortTraining_17 : ∃ (s : State) (p : Nat) (lane : Nat), (p < 8) ∧ (lane < 8) ∧ (3 ≤ s.dev.portState p) ∧ (isSet (s.dev.port p).wanted lane = true) := ⟨(st (up.wrAt R.KL.KL_STATUS_STATE 7 0 3)), (7), (7), by and_intros <;> decide +kernel⟩

theorem witness_PortTraining_17_1 : ∃ (s : State) (p : Nat) (lane : Nat), (p < 8) ∧ (lane < 8) ∧ (3 ≤ s.dev.portState p) ∧ (isSet (s.dev.port p).wanted lane = true) := ⟨(st (up.wrAt R.KL.KL_STATUS_STATE 7 0 6)), (7), (0), by and_intros <;> decide +kernel⟩

theorem witness_PortTraining_18 : ∃ (s : State) (p : Nat) (lane : Nat), (p < 8) ∧ (lane < 8) ∧ (3 ≤ s.dev.portState p) ∧ (isSet (s.dev.port p).wanted lane = true) := ⟨(st (up.wrAt R.KL.KL_STATUS_STATE 7 0 3)), (7), (7), by and_intros <;> decide +kernel⟩

theorem witness_PortTraining_18_1 : ∃ (s : State) (p : Nat) (lane : Nat), (p < 8) ∧ (lane < 8) ∧ (3 ≤ s.dev.portState p) ∧ (isSet (s.dev.port p).wanted lane = true) := ⟨(st (up.wrAt R.KL.KL_STATUS_STATE 7 0 6)), (7), (0), by and_intros <;> decide +kernel⟩

theorem witness_PortTraining_19 : ∃ (s : State) (p : Nat), (p < 8) ∧ (3 ≤ s.dev.portState p) := ⟨(st (up.wrAt R.KL.KL_STATUS_STATE 7 0 6)), (7), by and_intros <;> decide +kernel⟩

theorem witness_PortTraining_20 : ∃ (s : State) (p : Nat) (lane : Nat), (p < 8) ∧ ((s.dev.portState p < 3 ∨ lane < 8 ∧ isSet (s.dev.port p).wanted lane = false)) := ⟨(st ((up.wrAt R.KL.KL_STATUS_STATE 7 0 6).setPort 7 fun q => { q with excl := 128 })), (7), (7), by and_intros <;> decide +kernel⟩

theorem witness_PortTraining_21 : ∃ (s : State) (p : Nat) (lane : Nat), (p < 8) ∧ ((s.dev.portState p < 3 ∨ lane < 8 ∧ isSet (s.dev.port p).wanted lane = false)) := ⟨(st ((up.wrAt R.KL.KL_STATUS_STATE 7 0 6).setPort 7 fun q => { q with excl := 128 })), (7), (7), by and_intros <;> decide +kernel⟩

theorem witness_PortTraining_22 : ∃ (p : Nat) (lane : Nat), (p < 8) ∧ (8 ≤ lane) := ⟨(7), (8), by and_intros <;> decide +kernel⟩

theorem witness_PortTraining_23 : ∃ (p : Nat) (lane : Nat), (p < 8) ∧ (8 ≤ lane) ∧ (lane ≠ 0x7F) := ⟨(7), (8), by and_intros <;> decide +kernel⟩

theorem witness_PortTraining_24 : ∃ (p : Nat), (8 ≤ p) := ⟨(8), by decide +kernel⟩

theorem witness_PortTraining_25 : ∃ (p : Nat), (8 ≤ p) := ⟨(8), by decide +kernel⟩

theorem witness_PortTraining_26 : ∃ (p : Nat), (8 ≤ p) := ⟨(8), by decide +kernel⟩

theorem witness_PortTraining_27 : ∃ (p : Nat), (8 ≤ p) := ⟨(8), by decide +kernel⟩

theorem witness_PortTraining_28 : ∃ (p : Nat), (8 ≤ p) := ⟨(8), by decide +kernel⟩

theorem witness_PortTraining_29 : ∃ (p : Nat), (8 ≤ p) := ⟨(8), by decide +kernel⟩

theorem witness_PortTraining_30 : ∃ (p : Nat), (8 ≤ p) := ⟨(8), by decide +kernel⟩

theorem witness_PortTraining_31 : ∃ (p : Nat), (8 ≤ p) := ⟨(8), by decide +kernel⟩

theorem witness_PortTraining_32 : ∃ (p : Nat), (8 ≤ p) := ⟨(8), by decide +kernel⟩

theorem witness_PortTraining_33 : ∃ (p : Nat), (8 ≤ p) := ⟨(8), by decide +kernel⟩

theorem witness_PortExchange_0 : ∃ (s : State) (p : Nat), (p < 8) ∧ (s.dev.portState p = 5) := ⟨(st ((up.wrAt R.KL.KL_STATUS_STATE 0 0 5).wrAt R.KL.KL_STATUS_USABLE 0 0 255)), (0), by and_intros <;> decide +kernel⟩

theorem witness_PortExchange_0_1 : ∃ (s : State) (p : Nat), (p < 8) ∧ (s.dev.portState p = 5) := ⟨(st (up.wrAt R.KL.KL_STATUS_STATE 0 0 5)), (0), by and_intros <;> decide +kernel⟩

theorem witness_PortExchange_1 : ∃ (s : State) (p : Nat) (production : Nat) (size : Nat), (p < 8) ∧ (s.dev.portState p = 5) ∧ (production = s.dev.rd R.LOAD.PRODUCTION_ID) ∧ (size = s.dev.ld.setSize) := ⟨(st (up.wrAt R.KL.KL_STATUS_STATE 0 0 5)), (0), (0), (0), by and_intros <;> decide +kernel⟩

theorem witness_PortExchange_2 : ∃ (s : State) (p : Nat) (production : Nat) (size : Nat), (p < 8) ∧ (s.dev.portState p = 5) ∧ ((production ≠ s.dev.rd R.LOAD.PRODUCTION_ID ∨ size ≠ s.dev.ld.setSize)) := ⟨(st (up.wrAt R.KL.KL_STATUS_STATE 0 0 5)), (0), (1), (0), by and_intros <;> decide +kernel⟩

theorem witness_PortExchange_3 : ∃ (s : State) (p : Nat), (p < 8) ∧ (s.dev.portState p = 5) := ⟨(st (up.wrAt R.KL.KL_STATUS_STATE 0 0 5)), (0), by and_intros <;> decide +kernel⟩

theorem witness_PortExchange_5 : ∃ (s : State) (p : Nat), (p < 8) ∧ (s.dev.portState p ≠ 5) := ⟨(st up), (0), by and_intros <;> decide +kernel⟩

theorem witness_PortExchange_8 : ∃ (p : Nat), (8 ≤ p) := ⟨(8), by decide +kernel⟩

theorem witness_PortExchange_6 : ∃ (s : State) (p : Nat), (p < 8) ∧ (s.dev.portState p ≠ 5) := ⟨(st up), (0), by and_intros <;> decide +kernel⟩

theorem witness_PortExchange_9 : ∃ (p : Nat), (8 ≤ p) := ⟨(8), by decide +kernel⟩

theorem witness_PortExchange_7 : ∃ (s : State) (p : Nat), (p < 8) ∧ (s.dev.portState p ≠ 5) := ⟨(st up), (0), by and_intros <;> decide +kernel⟩

theorem witness_PortExchange_10 : ∃ (p : Nat), (8 ≤ p) := ⟨(8), by decide +kernel⟩

theorem witness_PortFrames_0 : ∃ (s : State) (p : Nat) (f : LinkFrame), (p < 8) ∧ ((s.dev.portState p = 6 ∨ s.dev.portState p = 7)) ∧ (0 < (s.dev.port p).resend) ∧ ((s.dev.port p).replay[(s.dev.port p).replay.length - (s.dev.port p).resend]? = some f) := ⟨(st ((up.wrAt R.KL.KL_STATUS_STATE 7 0 6).setPort 7 fun q => { q with resend := 1, replay := [⟨5, none, [], []⟩, ⟨6, none, [], []⟩] })), (7), (⟨6, none, [], []⟩), by and_intros <;> decide +kernel⟩

theorem witness_PortFrames_1 : ∃ (s : State) (p : Nat), (p < 8) ∧ ((s.dev.portState p = 6 ∨ s.dev.portState p = 7)) ∧ ((s.dev.port p).resend = 0) ∧ (64 ≤ (s.dev.port p).replay.length) := ⟨(st ((up.wrAt R.KL.KL_STATUS_STATE 7 0 7).setPort 7 fun q => { q with replay := List.replicate 64 default })), (7), by and_intros <;> decide +kernel⟩

theorem witness_PortFrames_2 : ∃ (s : State) (p : Nat) (t : Nat) (need : Nat) (bytes : Bytes) (msgs : List (Nat × Bytes)) (q : Port) (f : LinkFrame), (p < 8) ∧ ((s.dev.portState p = 6 ∨ s.dev.portState p = 7)) ∧ ((s.dev.port p).resend = 0) ∧ ((s.dev.port p).replay.length < 64) ∧ (need = (if s.dev.portState p = 7 then 14 else 2 * (s.dev.usedLanes p - 1))) ∧ ((s.dev.port p).streamBytes need (need + 2) = (bytes, msgs, q)) ∧ (f = ⟨(s.dev.port p).txSeq, (s.dev.toTime t).filledFrame p, bytes, msgs⟩) := ⟨(st (((up.wrAt R.KL.KL_STATUS_STATE 7 0 6).setPort 7 fun q => { q with txSeq := 127 }).wrAt R.KL.KL_STATUS_USABLE 7 0 255)), (7), (5), (_), ((((st (((up.wrAt R.KL.KL_STATUS_STATE 7 0 6).setPort 7 fun q => { q with txSeq := 127 }).wrAt R.KL.KL_STATUS_USABLE 7 0 255)).dev.port 7).streamBytes 14 16).1), ((((st (((up.wrAt R.KL.KL_STATUS_STATE 7 0 6).setPort 7 fun q => { q with txSeq := 127 }).wrAt R.KL.KL_STATUS_USABLE 7 0 255)).dev.port 7).streamBytes 14 16).2.1), ((((st (((up.wrAt R.KL.KL_STATUS_STATE 7 0 6).setPort 7 fun q => { q with txSeq := 127 }).wrAt R.KL.KL_STATUS_USABLE 7 0 255)).dev.port 7).streamBytes 14 16).2.2), (_), ⟨by decide +kernel, by decide +kernel, by decide +kernel, ⟨by decide +kernel, rfl, by decide +kernel, rfl⟩⟩⟩

theorem witness_PortFrames_3 : ∃ (s : State) (p : Nat), (p < 8) ∧ (s.dev.portState p ≠ 6) ∧ (s.dev.portState p ≠ 7) := ⟨(st up), (7), by and_intros <;> decide +kernel⟩

theorem witness_PortFrames_4 : ∃ (need : Nat) (fuel : Nat) (bytes : Bytes) (msgs : List (Nat × Bytes)) (q : Port) (q1 : Port), (q.streamBytes need fuel = (bytes, msgs, q1)) := ⟨(14), (16), ((((((up.wrAt R.KL.KL_STATUS_STATE 7 0 6).setPort 7 fun q => { q with txSeq := 127 }).wrAt R.KL.KL_STATUS_USABLE 7 0 255).port 7).streamBytes 14 16).1), ((((((up.wrAt R.KL.KL_STATUS_STATE 7 0 6).setPort 7 fun q => { q with txSeq := 127 }).wrAt R.KL.KL_STATUS_USABLE 7 0 255).port 7).streamBytes 14 16).2.1), (((((up.wrAt R.KL.KL_STATUS_STATE 7 0 6).setPort 7 fun q => { q with txSeq := 127 }).wrAt R.KL.KL_STATUS_USABLE 7 0 255).port 7)), ((((((up.wrAt R.KL.KL_STATUS_STATE 7 0 6).setPort 7 fun q => { q with txSeq := 127 }).wrAt R.KL.KL_STATUS_USABLE 7 0 255).port 7).streamBytes 14 16).2.2), by decide +kernel⟩

theorem witness_PortFrames_5 : ∃ (bs : Bytes), (bs.length = 30) ∧ (laneGood bs = true) := ⟨(((frameLanes 1 127 3 [] []).headD [])), by and_intros <;> decide +kernel⟩

theorem witness_PortFrames_5_1 : ∃ (bs : Bytes), (bs.length = 30) ∧ (laneGood bs = true) := ⟨(((frameLanes 1 127 3 [] []).headD [])), by and_intros <;> decide +kernel⟩

theorem witness_PortFrames_6 : ∃ (s : State) (p : Nat), (p < 8) ∧ (4 ≤ s.dev.portState p) := ⟨(st (((up.wrAt R.KL.KL_STATUS_STATE 7 0 4).setPort 7 fun q => { q with expect := 127 }).wrAt R.KL.KL_STATUS_USABLE 7 0 1)), (7), by and_intros <;> decide +kernel⟩

theorem witness_PortFrames_6_1 : ∃ (s : State) (p : Nat), (p < 8) ∧ (4 ≤ s.dev.portState p) := ⟨(st (((up.wrAt R.KL.KL_STATUS_STATE 7 0 5).setPort 7 fun q => { q with expect := 127 }).wrAt R.KL.KL_STATUS_USABLE 7 0 1)), (7), by and_intros <;> decide +kernel⟩

theorem witness_PortFrames_6_2 : ∃ (s : State) (p : Nat), (p < 8) ∧ (4 ≤ s.dev.portState p) := ⟨(st (((up.wrAt R.KL.KL_STATUS_STATE 7 0 6).setPort 7 fun q => { q with expect := 127 }).wrAt R.KL.KL_STATUS_USABLE 7 0 1)), (7), by and_intros <;> decide +kernel⟩

theorem witness_PortFrames_6_3 : ∃ (s : State) (p : Nat), (p < 8) ∧ (4 ≤ s.dev.portState p) := ⟨(st (((up.wrAt R.KL.KL_STATUS_STATE 7 0 7).setPort 7 fun q => { q with expect := 127 }).wrAt R.KL.KL_STATUS_USABLE 7 0 1)), (7), by and_intros <;> decide +kernel⟩

theorem witness_PortFrames_6_4 : ∃ (s : State) (p : Nat), (p < 8) ∧ (4 ≤ s.dev.portState p) := ⟨(st (((up.wrAt R.KL.KL_STATUS_STATE 7 0 6).setPort 7 fun q => { q with expect := 127 }).wrAt R.KL.KL_STATUS_USABLE 7 0 1)), (7), by and_intros <;> decide +kernel⟩

theorem witness_PortFrames_6_5 : ∃ (s : State) (p : Nat), (p < 8) ∧ (4 ≤ s.dev.portState p) := ⟨(st (((up.wrAt R.KL.KL_STATUS_STATE 7 0 6).setPort 7 fun q => { q with expect := 127 }).wrAt R.KL.KL_STATUS_USABLE 7 0 1)), (7), by and_intros <;> decide +kernel⟩

theorem witness_PortFrames_7 : ∃ (s : State) (p : Nat), (p < 8) ∧ (s.dev.portState p < 4) := ⟨(st up), (7), by and_intros <;> decide +kernel⟩

theorem witness_PortFrames_8 : ∃ (d : Dev) (p : Nat) (u : Nat) (ins : List LaneIn), (u = (if d.portState p = 7 then 1 else d.usedLanes p)) ∧ ((ins.length ≠ u ∨ (ins.filterMap LaneIn.data).length ≠ u ∨ (∃ l, l ∈ ins ∧ (l.comma = false ∨ l.errors ≠ 0)) ∨ ∃ l, l ∈ ins.filterMap LaneIn.data ∧ (laneGood l = false ∨ l.headD 0 ≠ ((ins.filterMap LaneIn.data).headD []).headD 0))) := ⟨((((up.wrAt R.KL.KL_STATUS_STATE 7 0 6).setPort 7 fun q => { q with expect := 127 }).wrAt R.KL.KL_STATUS_USABLE 7 0 1)), (7), (_), ([]), ⟨rfl, by decide +kernel⟩⟩

theorem witness_PortFrames_8_1 : ∃ (d : Dev) (p : Nat) (u : Nat) (ins : List LaneIn), (u = (if d.portState p = 7 then 1 else d.usedLanes p)) ∧ ((ins.length ≠ u ∨ (ins.filterMap LaneIn.data).length ≠ u ∨ (∃ l, l ∈ ins ∧ (l.comma = false ∨ l.errors ≠ 0)) ∨ ∃ l, l ∈ ins.filterMap LaneIn.data ∧ (laneGood l = false ∨ l.headD 0 ≠ ((ins.filterMap LaneIn.data).headD []).headD 0))) := ⟨((((up.wrAt R.KL.KL_STATUS_STATE 7 0 7).setPort 7 fun q => { q with expect := 127 }).wrAt R.KL.KL_STATUS_USABLE 7 0 1)), (7), (_), ([laneIn (laneSymbols (List.replicate 30 1) false).1 1]), ⟨rfl, by decide +kernel⟩⟩

theorem witness_PortFrames_8_2 : ∃ (d : Dev) (p : Nat) (u : Nat) (ins : List LaneIn), (u = (if d.portState p = 7 then 1 else d.usedLanes p)) ∧ ((ins.length ≠ u ∨ (ins.filterMap LaneIn.data).length ≠ u ∨ (∃ l, l ∈ ins ∧ (l.comma = false ∨ l.errors ≠ 0)) ∨ ∃ l, l ∈ ins.filterMap LaneIn.data ∧ (laneGood l = false ∨ l.headD 0 ≠ ((ins.filterMap LaneIn.data).headD []).headD 0))) := ⟨((((up.wrAt R.KL.KL_STATUS_STATE 7 0 6).setPort 7 fun q => { q with expect := 127 }).wrAt R.KL.KL_STATUS_USABLE 7 0 1)), (7), (_), ([laneIn (List.replicate 32 0) 1]), ⟨rfl, by decide +kernel⟩⟩

theorem witness_PortFrames_9 : ∃ (d : Dev) (p : Nat) (n : Nat) (head : Byte) (ins : List LaneIn) (lanes : List Bytes), (ins.map LaneIn.data = lanes.map some) ∧ (ins.length = (if d.portState p = 7 then 1 else d.usedLanes p)) ∧ (0 < ins.length) ∧ ((∀ l ∈ ins, l.comma = true ∧ l.errors = 0)) ∧ ((∀ l ∈ lanes, laneGood l = true ∧ l.headD 0 = head)) ∧ (n = (head.toNat % 128 + 128 - (d.port p).expect % 128) % 128) ∧ (0 < n) := ⟨((((up.wrAt R.KL.KL_STATUS_STATE 7 0 6).setPort 7 fun q => { q with expect := 3 }).wrAt R.KL.KL_STATUS_USABLE 7 0 1)), (7), (_), ((127 : Byte)), (((frameLanes 1 127 3 [] []).map fun l => laneIn (laneSymbols l false).1 1)), ((frameLanes 1 127 3 [] [])), ⟨by decide +kernel, by decide +kernel, by decide +kernel, ⟨by decide +kernel, by decide +kernel, rfl, by decide +kernel⟩⟩⟩

theorem witness_PortFrames_10 : ∃ (d : Dev) (p : Nat) (n : Nat) (head : Byte) (ins : List LaneIn) (lanes : List Bytes), (ins.map LaneIn.data = lanes.map some) ∧ (ins.length = (if d.portState p = 7 then 1 else d.usedLanes p)) ∧ (0 < ins.length) ∧ ((∀ l ∈ ins, l.comma = true ∧ l.errors = 0)) ∧ ((∀ l ∈ lanes, laneGood l = true ∧ l.headD 0 = head)) ∧ (n = (head.toNat % 128 + 128 - (d.port p).expect % 128) % 128) ∧ (n = 0) := ⟨((((up.wrAt R.KL.KL_STATUS_STATE 7 0 6).setPort 7 fun q => { q with expect := 127 }).wrAt R.KL.KL_STATUS_USABLE 7 0 1)), (7), (_), ((127 : Byte)), (((frameLanes 1 127 3 [] []).map fun l => laneIn (laneSymbols l false).1 1)), ((frameLanes 1 127 3 [] [])), ⟨by decide +kernel, by decide +kernel, by decide +kernel, ⟨by decide +kernel, by decide +kernel, rfl, by decide +kernel⟩⟩⟩

theorem witness_PortFrames_10_1 : ∃ (d : Dev) (p : Nat) (n : Nat) (head : Byte) (ins : List LaneIn) (lanes : List Bytes), (ins.map LaneIn.data = lanes.map some) ∧ (ins.length = (if d.portState p = 7 then 1 else d.usedLanes p)) ∧ (0 < ins.length) ∧ ((∀ l ∈ ins, l.comma = true ∧ l.errors = 0)) ∧ ((∀ l ∈ lanes, laneGood l = true ∧ l.headD 0 = head)) ∧ (n = (head.toNat % 128 + 128 - (d.port p).expect % 128) % 128) ∧ (n = 0) := ⟨((((up.wrAt R.KL.KL_STATUS_STATE 7 0 6).setPort 7 fun q => { q with expect := 127 }).wrAt R.KL.KL_STATUS_USABLE 7 0 1)), (7), (_), ((255 : Byte)), (((frameLanes 1 255 3 [] []).map fun l => laneIn (laneSymbols l false).1 1)), ((frameLanes 1 255 3 [] [])), ⟨by decide +kernel, by decide +kernel, by decide +kernel, ⟨by decide +kernel, by decide +kernel, rfl, by decide +kernel⟩⟩⟩

theorem witness_PortFrames_10_2 : ∃ (d : Dev) (p : Nat) (n : Nat) (head : Byte) (ins : List LaneIn) (lanes : List Bytes), (ins.map LaneIn.data = lanes.map some) ∧ (ins.length = (if d.portState p = 7 then 1 else d.usedLanes p)) ∧ (0 < ins.length) ∧ ((∀ l ∈ ins, l.comma = true ∧ l.errors = 0)) ∧ ((∀ l ∈ lanes, laneGood l = true ∧ l.headD 0 = head)) ∧ (n = (head.toNat % 128 + 128 - (d.port p).expect % 128) % 128) ∧ (n = 0) := ⟨((((up.wrAt R.KL.KL_STATUS_STATE 7 0 7).setPort 7 fun q => { q with expect := 127 }).wrAt R.KL.KL_STATUS_USABLE 7 0 1)), (7), (_), ((127 : Byte)), (((frameLanes 1 127 3 [] []).map fun l => laneIn (laneSymbols l false).1 1)), ((frameLanes 1 127 3 [] [])), ⟨by decide +kernel, by decide +kernel, by decide +kernel, ⟨by decide +kernel, by decide +kernel, rfl, by decide +kernel⟩⟩⟩

theorem witness_PortFrames_11 : ∃ (d : Dev) (p : Nat) (ack : Nat) (f : LinkFrame) (fs : List LinkFrame), ((d.port p).replay = f :: fs) ∧ (f.seq < 128) ∧ (ack < 128) ∧ ((d.port p).sync = none) ∧ (0 < (ack + 128 - f.seq) % 128) ∧ ((ack + 128 - f.seq) % 128 ≤ fs.length + 1) := ⟨((up.setPort 7 fun q => { q with replay := [⟨126, none, [], []⟩, ⟨127, none, [], []⟩, ⟨0, none, [], []⟩] })), (7), (0), (⟨126, none, [], []⟩), ([⟨127, none, [], []⟩, ⟨0, none, [], []⟩]), by and_intros <;> decide +kernel⟩

theorem witness_PortFrames_12 : ∃ (s : State) (p : Nat) (t : Nat) (f : LinkFrame) (fs : List LinkFrame) (n : Nat), (p < 8) ∧ ((s.dev.portState p = 6 ∨ s.dev.portState p = 7)) ∧ ((s.dev.port p).replay = f :: fs) ∧ ((s.dev.port p).resend = 0) ∧ ((s.dev.port p).ackSince + s.dev.rdAt R.KL.REPLAY_TIMEOUT_NS p 0 * 2 ^ 32 ≤ (s.dev.toTime t).mono) ∧ (n = (if (s.dev.port p).nakSeq = some f.seq then (s.dev.port p).nakCount + 1 else 1)) := ⟨(st ((up.wrAt R.KL.KL_STATUS_STATE 7 0 6).setPort 7 fun q => { q with replay := [⟨5, none, [], []⟩], nakSeq := some 5, nakCount := 0 })), (7), (2 ^ 60), (⟨5, none, [], []⟩), ([]), (1), by and_intros <;> decide +kernel⟩

theorem witness_PortFrames_12_1 : ∃ (s : State) (p : Nat) (t : Nat) (f : LinkFrame) (fs : List LinkFrame) (n : Nat), (p < 8) ∧ ((s.dev.portState p = 6 ∨ s.dev.portState p = 7)) ∧ ((s.dev.port p).replay = f :: fs) ∧ ((s.dev.port p).resend = 0) ∧ ((s.dev.port p).ackSince + s.dev.rdAt R.KL.REPLAY_TIMEOUT_NS p 0 * 2 ^ 32 ≤ (s.dev.toTime t).mono) ∧ (n = (if (s.dev.port p).nakSeq = some f.seq then (s.dev.port p).nakCount + 1 else 1)) := ⟨(st ((up.wrAt R.KL.KL_STATUS_STATE 7 0 6).setPort 7 fun q => { q with replay := [⟨5, none, [], []⟩], nakSeq := some 5, nakCount := 8 })), (7), (2 ^ 60), (⟨5, none, [], []⟩), ([]), (9), by and_intros <;> decide +kernel⟩

theorem witness_PortFrames_13 : ∃ (d : Dev), (d.running = false) := ⟨(up), by decide +kernel⟩

theorem witness_PortFrames_14 : ∃ (d : Dev) (d1 : Dev) (p : Nat), (d.running = true) ∧ (d1 = (d.report (d.linkFault 0x63 2 p 0 0) true).portDown p 5) ∧ (d1.running = true) := ⟨(running), (_), (7), ⟨by decide +kernel, rfl, by decide +kernel⟩⟩

theorem witness_PortFrames_15 : ∃ (s : State) (p : Nat) (t : Nat), (p < 8) ∧ ((s.dev.portState p = 6 ∨ s.dev.portState p = 7)) ∧ ((s.dev.port p).replay ≠ []) ∧ ((s.dev.port p).resend ≠ 0) ∧ ((s.dev.port p).ackSince + s.dev.rdAt R.KL.REPLAY_TIMEOUT_NS p 0 * 2 ^ 32 ≤ (s.dev.toTime t).mono) := ⟨(st ((up.wrAt R.KL.KL_STATUS_STATE 7 0 6).setPort 7 fun q => { q with replay := [⟨5, none, [], []⟩], resend := 1 })), (7), (2 ^ 60), by and_intros <;> decide +kernel⟩

theorem witness_PortFrames_16 : ∃ (s : State) (p : Nat) (t : Nat), (p < 8) ∧ ((s.dev.portState p ≠ 6 ∧ s.dev.portState p ≠ 7 ∨ (s.dev.port p).replay = [] ∨
      (s.dev.toTime t).mono < (s.dev.port p).ackSince + s.dev.rdAt R.KL.REPLAY_TIMEOUT_NS p 0 * 2 ^ 32)) := ⟨(st (up.wrAt R.KL.KL_STATUS_STATE 7 0 6)), (7), (2 ^ 60), by and_intros <;> decide +kernel⟩

theorem witness_PortFrames_17 : ∃ (p : Nat), (8 ≤ p) := ⟨(8), by decide +kernel⟩

theorem witness_PortFrames_18 : ∃ (p : Nat), (8 ≤ p) := ⟨(8), by decide +kernel⟩

theorem witness_PortFrames_19 : ∃ (p : Nat), (8 ≤ p) := ⟨(8), by decide +kernel⟩

theorem witness_TimeMessages_0 : ∃ (s : State) (p : Nat), (p < 8) ∧ (s.dev.portTalks p = true) := ⟨(st ((((up.wrAt R.KL.KL_STATUS_STATE 7 0 6).wr R.TIME.TIME_STATUS_MASTER 0).wr R.TIME.TIME_STATUS_UPSTREAM_PORT 7).wrAt R.TBASE.TB_CFG_SOURCE 3 0 7)), (7), by and_intros <;> decide +kernel⟩

theorem witness_TimeMessages_0_1 : ∃ (s : State) (p : Nat), (p < 8) ∧ (s.dev.portTalks p = true) := ⟨(st (up.wrAt R.KL.KL_STATUS_STATE 7 0 6)), (7), by and_intros <;> decide +kernel⟩

theorem witness_TimeMessages_1 : ∃ (s : State) (p : Nat), (p < 8) ∧ (s.dev.portTalks p = true) ∧ (s.dev.isUpstream p = true) := ⟨(st ((((up.wrAt R.KL.KL_STATUS_STATE 7 0 6).wr R.TIME.TIME_STATUS_MASTER 0).wr R.TIME.TIME_STATUS_UPSTREAM_PORT 7).wrAt R.TBASE.TB_CFG_SOURCE 3 0 7)), (7), by and_intros <;> decide +kernel⟩

theorem witness_TimeMessages_1_1 : ∃ (s : State) (p : Nat), (p < 8) ∧ (s.dev.portTalks p = true) ∧ (s.dev.isUpstream p = true) := ⟨(st (((((up.wrAt R.KL.KL_STATUS_STATE 7 0 6).wr R.TIME.TIME_STATUS_MASTER 0).wr R.TIME.TIME_STATUS_UPSTREAM_PORT 7).wrAt R.TBASE.TB_CFG_SOURCE 3 0 7).wr R.TIME.TIME_STATUS_FROZEN 1)), (7), by and_intros <;> decide +kernel⟩

theorem witness_TimeMessages_2 : ∃ (s : State) (p : Nat), (p < 8) ∧ (s.dev.portTalks p = true) ∧ (s.dev.isUpstream p = true) := ⟨(st { ((((up.wrAt R.KL.KL_STATUS_STATE 7 0 6).wr R.TIME.TIME_STATUS_MASTER 0).wr R.TIME.TIME_STATUS_UPSTREAM_PORT 7).wrAt R.TBASE.TB_CFG_SOURCE 3 0 7) with clk := { up.clk with t1 := [(7, 1)], t2 := [(7, 2)], t3 := [(7, 3)] } }), (7), by and_intros <;> decide +kernel⟩

theorem witness_TimeMessages_2_1 : ∃ (s : State) (p : Nat), (p < 8) ∧ (s.dev.portTalks p = true) ∧ (s.dev.isUpstream p = true) := ⟨(st { ((((up.wrAt R.KL.KL_STATUS_STATE 7 0 6).wr R.TIME.TIME_STATUS_MASTER 0).wr R.TIME.TIME_STATUS_UPSTREAM_PORT 7).wrAt R.TBASE.TB_CFG_SOURCE 3 0 7) with clk := { up.clk with t1 := [(7, 1)], t2 := [(7, 2)], t3 := [(7, 3)] } }), (7), by and_intros <;> decide +kernel⟩

theorem witness_TimeMessages_2_2 : ∃ (s : State) (p : Nat), (p < 8) ∧ (s.dev.portTalks p = true) ∧ (s.dev.isUpstream p = true) := ⟨(st ((((up.wrAt R.KL.KL_STATUS_STATE 7 0 6).wr R.TIME.TIME_STATUS_MASTER 0).wr R.TIME.TIME_STATUS_UPSTREAM_PORT 7).wrAt R.TBASE.TB_CFG_SOURCE 3 0 7)), (7), by and_intros <;> decide +kernel⟩

theorem witness_TimeMessages_3 : ∃ (s : State) (p : Nat), (p < 8) ∧ (s.dev.portTalks p = true) ∧ (s.dev.isUpstream p = true) := ⟨(st { ((((up.wrAt R.KL.KL_STATUS_STATE 7 0 6).wr R.TIME.TIME_STATUS_MASTER 0).wr R.TIME.TIME_STATUS_UPSTREAM_PORT 7).wrAt R.TBASE.TB_CFG_SOURCE 3 0 7) with clk := { up.clk with t1 := [(7, 1)], t2 := [(7, 2)], t3 := [(7, 3)] } }), (7), by and_intros <;> decide +kernel⟩

theorem witness_TimeMessages_3_1 : ∃ (s : State) (p : Nat), (p < 8) ∧ (s.dev.portTalks p = true) ∧ (s.dev.isUpstream p = true) := ⟨(st { ((((up.wrAt R.KL.KL_STATUS_STATE 7 0 6).wr R.TIME.TIME_STATUS_MASTER 0).wr R.TIME.TIME_STATUS_UPSTREAM_PORT 7).wrAt R.TBASE.TB_CFG_SOURCE 3 0 7) with clk := { up.clk with t1 := [(7, 1)], t2 := [(7, 2)], t3 := [(7, 3)] } }), (7), by and_intros <;> decide +kernel⟩

theorem witness_TimeMessages_3_2 : ∃ (s : State) (p : Nat), (p < 8) ∧ (s.dev.portTalks p = true) ∧ (s.dev.isUpstream p = true) := ⟨(st ((((up.wrAt R.KL.KL_STATUS_STATE 7 0 6).wr R.TIME.TIME_STATUS_MASTER 0).wr R.TIME.TIME_STATUS_UPSTREAM_PORT 7).wrAt R.TBASE.TB_CFG_SOURCE 3 0 7)), (7), by and_intros <;> decide +kernel⟩

theorem witness_TimeMessages_4 : ∃ (s : State) (p : Nat), (p < 8) ∧ (s.dev.portTalks p = true) := ⟨(st ((((up.wrAt R.KL.KL_STATUS_STATE 7 0 6).wr R.TIME.TIME_STATUS_MASTER 0).wr R.TIME.TIME_STATUS_UPSTREAM_PORT 7).wrAt R.TBASE.TB_CFG_SOURCE 3 0 7)), (7), by and_intros <;> decide +kernel⟩

theorem witness_TimeMessages_5 : ∃ (s : State) (p : Nat) (n : Nat) (stamp : Nat) (pos : Nat) (d2 : Dev), (p < 8) ∧ (n < 4) ∧ (s.dev.portTalks p = true) ∧ (s.dev.isUpstream p = true) ∧ (d2 = { s.dev.sendAllBut p 0x15 (leBytes n 1 ++ leBytes stamp 8 ++ leBytes pos 4) with clk := { s.dev.clk with lastHeard := s.dev.now } }) := ⟨(st ((((up.wrAt R.KL.KL_STATUS_STATE 7 0 6).wr R.TIME.TIME_STATUS_MASTER 0).wr R.TIME.TIME_STATUS_UPSTREAM_PORT 7).wrAt R.TBASE.TB_CFG_SOURCE 3 0 7)), (7), (3), (9), (4), (_), ⟨by decide +kernel, by decide +kernel, by decide +kernel, by decide +kernel, rfl⟩⟩

theorem witness_TimeMessages_6 : ∃ (s : State) (p : Nat) (n : Nat), (p < 8) ∧ (n < 4) ∧ ((s.dev.portTalks p = false ∨ s.dev.isUpstream p = false)) := ⟨(st (up.wrAt R.KL.KL_STATUS_STATE 7 0 6)), (7), (0), by and_intros <;> decide +kernel⟩

theorem witness_TimeMessages_7 : ∃ (s : State) (p : Nat) (n : Nat), (p < 8) ∧ (n < 4) ∧ ((s.dev.portTalks p = false ∨ s.dev.isUpstream p = false)) := ⟨(st (up.wrAt R.KL.KL_STATUS_STATE 7 0 6)), (7), (0), by and_intros <;> decide +kernel⟩

theorem witness_TimeMessages_8 : ∃ (s : State) (p : Nat) (n : Nat), (p < 8) ∧ (n < 4) ∧ ((s.dev.portTalks p = false ∨ s.dev.isUpstream p = false)) := ⟨(st (up.wrAt R.KL.KL_STATUS_STATE 7 0 6)), (7), (0), by and_intros <;> decide +kernel⟩

theorem witness_TimeMessages_9 : ∃ (s : State) (p : Nat) (n : Nat), (p < 8) ∧ (n < 4) ∧ ((s.dev.portTalks p = false ∨ s.dev.isUpstream p = false)) := ⟨(st (up.wrAt R.KL.KL_STATUS_STATE 7 0 6)), (7), (0), by and_intros <;> decide +kernel⟩

theorem witness_TimeMessages_10 : ∃ (s : State) (p : Nat), (p < 8) ∧ (s.dev.portTalks p = false) := ⟨(st up), (7), by and_intros <;> decide +kernel⟩

theorem witness_TimeMessages_11 : ∃ (s : State) (p : Nat), (p < 8) ∧ (s.dev.portTalks p = false) := ⟨(st up), (7), by and_intros <;> decide +kernel⟩

theorem witness_TimeMessages_12 : ∃ (p : Nat) (n : Nat), (8 ≤ p ∨ 4 ≤ n) := ⟨(8), (0), by decide +kernel⟩

theorem witness_TimeMessages_13 : ∃ (p : Nat) (n : Nat), (8 ≤ p ∨ 4 ≤ n) ∧ (8 ≤ p) := ⟨(8), (0), by and_intros <;> decide +kernel⟩

theorem witness_TimeMessages_14 : ∃ (p : Nat) (n : Nat), (8 ≤ p ∨ 4 ≤ n) ∧ (8 ≤ p) := ⟨(8), (0), by and_intros <;> decide +kernel⟩

theorem witness_TimeMessages_15 : ∃ (p : Nat) (n : Nat), (8 ≤ p ∨ 4 ≤ n) ∧ (8 ≤ p) := ⟨(8), (0), by and_intros <;> decide +kernel⟩

theorem witness_TimeMessages_16 : ∃ (p : Nat) (n : Nat), (8 ≤ p ∨ 4 ≤ n) ∧ (8 ≤ p) := ⟨(8), (0), by and_intros <;> decide +kernel⟩

theorem witness_TimeMessages_17 : ∃ (p : Nat) (n : Nat), (8 ≤ p ∨ 4 ≤ n) ∧ (8 ≤ p) := ⟨(8), (0), by and_intros <;> decide +kernel⟩

theorem witness_RunMessages_0 : ∃ (s : State) (p : Nat) (belay : Nat) (take : Nat) (origin : Nat), (p < 8) ∧ (s.dev.portTalks p = true) ∧ (s.dev.tk.passed.contains (0x20, belay, take, origin) = false) := ⟨(st (up.wrAt R.KL.KL_STATUS_STATE 7 0 6)), (7), (0), (4), (3), by and_intros <;> decide +kernel⟩

theorem witness_RunMessages_0_1 : ∃ (s : State) (p : Nat) (belay : Nat) (take : Nat) (origin : Nat), (p < 8) ∧ (s.dev.portTalks p = true) ∧ (s.dev.tk.passed.contains (0x20, belay, take, origin) = false) := ⟨(st ((((up.wrAt R.KL.KL_STATUS_STATE 7 0 6).wr R.TIME.TIME_STATUS_MASTER 0).wr R.TIME.TIME_STATUS_UPSTREAM_PORT 7).wrAt R.TBASE.TB_CFG_SOURCE 3 0 7)), (7), (0), (4), (3), by and_intros <;> decide +kernel⟩

theorem witness_RunMessages_1 : ∃ (s : State) (p : Nat) (belay : Nat) (instant : Nat) (resp : Nat) (take : Nat) (d1 : Dev), (p < 8) ∧ (s.dev.portTalks p = true) ∧ (s.dev.isMaster = false) ∧ (s.dev.tk.passed.contains (0x21, belay, take, 0) = false) ∧ (d1 = (s.dev.passOnce (0x21, belay, take, 0)).sendAllBut p 0x21 (leBytes belay 1 ++ leBytes instant 8 ++ leBytes resp 1 ++ leBytes take 2)) := ⟨(st ({ ((((up.wrAt R.KL.KL_STATUS_STATE 7 0 6).wr R.TIME.TIME_STATUS_MASTER 0).wr R.TIME.TIME_STATUS_UPSTREAM_PORT 7).wrAt R.TBASE.TB_CFG_SOURCE 3 0 7) with tk := { up.tk with phase := .waiting }, ld := { up.ld with setSize := 2 } }.wr R.RUN.RUN_STATUS_STATE 1)), (7), (0), (9), (0), (0), (_), ⟨by decide +kernel, by decide +kernel, by decide +kernel, by decide +kernel, rfl⟩⟩

theorem witness_RunMessages_1_1 : ∃ (s : State) (p : Nat) (belay : Nat) (instant : Nat) (resp : Nat) (take : Nat) (d1 : Dev), (p < 8) ∧ (s.dev.portTalks p = true) ∧ (s.dev.isMaster = false) ∧ (s.dev.tk.passed.contains (0x21, belay, take, 0) = false) ∧ (d1 = (s.dev.passOnce (0x21, belay, take, 0)).sendAllBut p 0x21 (leBytes belay 1 ++ leBytes instant 8 ++ leBytes resp 1 ++ leBytes take 2)) := ⟨(st ({ ((((up.wrAt R.KL.KL_STATUS_STATE 7 0 6).wr R.TIME.TIME_STATUS_MASTER 0).wr R.TIME.TIME_STATUS_UPSTREAM_PORT 7).wrAt R.TBASE.TB_CFG_SOURCE 3 0 7) with tk := { up.tk with phase := .waiting }, ld := { up.ld with setSize := 2 } }.wr R.RUN.RUN_STATUS_STATE 1)), (7), (0), (9), (1), (0), (_), ⟨by decide +kernel, by decide +kernel, by decide +kernel, by decide +kernel, rfl⟩⟩

theorem witness_RunMessages_2 : ∃ (s : State) (p : Nat) (origin : Nat) (take : Nat) (code : Nat) (d1 : Dev), (p < 8) ∧ (s.dev.portTalks p = true) ∧ (s.dev.tk.passed.contains (0x22, code, take, origin) = false) ∧ (d1 = (let d0 := s.dev.passOnce (0x22, code, take, origin)
      if s.dev.isMaster = true ∨ s.dev.isUpstream p = true then d0.sendAllBut p 0x22 (leBytes origin 1 ++ leBytes take 6 ++ leBytes code 1)
      else d0.queueMessage (s.dev.rd R.TIME.TIME_STATUS_UPSTREAM_PORT) 0x22 (leBytes origin 1 ++ leBytes take 6 ++ leBytes code 1))) := ⟨(st ({ ((((up.wrAt R.KL.KL_STATUS_STATE 7 0 6).wr R.TIME.TIME_STATUS_MASTER 0).wr R.TIME.TIME_STATUS_UPSTREAM_PORT 7).wrAt R.TBASE.TB_CFG_SOURCE 3 0 7) with tk := { up.tk with phase := .waiting }, ld := { up.ld with setSize := 2 } }.wr R.RUN.RUN_STATUS_STATE 1)), (7), (3), (4), (0), ((let d0 := ({ ((((up.wrAt R.KL.KL_STATUS_STATE 7 0 6).wr R.TIME.TIME_STATUS_MASTER 0).wr R.TIME.TIME_STATUS_UPSTREAM_PORT 7).wrAt R.TBASE.TB_CFG_SOURCE 3 0 7) with tk := { up.tk with phase := .waiting }, ld := { up.ld with setSize := 2 } }.wr R.RUN.RUN_STATUS_STATE 1).passOnce (0x22, 0, 4, 3); if (({ ((((up.wrAt R.KL.KL_STATUS_STATE 7 0 6).wr R.TIME.TIME_STATUS_MASTER 0).wr R.TIME.TIME_STATUS_UPSTREAM_PORT 7).wrAt R.TBASE.TB_CFG_SOURCE 3 0 7) with tk := { up.tk with phase := .waiting }, ld := { up.ld with setSize := 2 } }.wr R.RUN.RUN_STATUS_STATE 1)).isMaster = true ∨ (({ ((((up.wrAt R.KL.KL_STATUS_STATE 7 0 6).wr R.TIME.TIME_STATUS_MASTER 0).wr R.TIME.TIME_STATUS_UPSTREAM_PORT 7).wrAt R.TBASE.TB_CFG_SOURCE 3 0 7) with tk := { up.tk with phase := .waiting }, ld := { up.ld with setSize := 2 } }.wr R.RUN.RUN_STATUS_STATE 1)).isUpstream 7 = true then d0.sendAllBut 7 0x22 (leBytes 3 1 ++ leBytes 4 6 ++ leBytes 0 1) else d0.queueMessage ((({ ((((up.wrAt R.KL.KL_STATUS_STATE 7 0 6).wr R.TIME.TIME_STATUS_MASTER 0).wr R.TIME.TIME_STATUS_UPSTREAM_PORT 7).wrAt R.TBASE.TB_CFG_SOURCE 3 0 7) with tk := { up.tk with phase := .waiting }, ld := { up.ld with setSize := 2 } }.wr R.RUN.RUN_STATUS_STATE 1)).rd R.TIME.TIME_STATUS_UPSTREAM_PORT) 0x22 (leBytes 3 1 ++ leBytes 4 6 ++ leBytes 0 1))), by decide +kernel, by decide +kernel, by decide +kernel, rfl⟩

theorem witness_RunMessages_2_1 : ∃ (s : State) (p : Nat) (origin : Nat) (take : Nat) (code : Nat) (d1 : Dev), (p < 8) ∧ (s.dev.portTalks p = true) ∧ (s.dev.tk.passed.contains (0x22, code, take, origin) = false) ∧ (d1 = (let d0 := s.dev.passOnce (0x22, code, take, origin)
      if s.dev.isMaster = true ∨ s.dev.isUpstream p = true then d0.sendAllBut p 0x22 (leBytes origin 1 ++ leBytes take 6 ++ leBytes code 1)
      else d0.queueMessage (s.dev.rd R.TIME.TIME_STATUS_UPSTREAM_PORT) 0x22 (leBytes origin 1 ++ leBytes take 6 ++ leBytes code 1))) := ⟨(st ({ ((((up.wrAt R.KL.KL_STATUS_STATE 7 0 6).wr R.TIME.TIME_STATUS_MASTER 0).wr R.TIME.TIME_STATUS_UPSTREAM_PORT 7).wrAt R.TBASE.TB_CFG_SOURCE 3 0 7) with tk := { up.tk with phase := .waiting }, ld := { up.ld with setSize := 2 } }.wr R.RUN.RUN_STATUS_STATE 1)), (7), (3), (4), (9), ((let d0 := ({ ((((up.wrAt R.KL.KL_STATUS_STATE 7 0 6).wr R.TIME.TIME_STATUS_MASTER 0).wr R.TIME.TIME_STATUS_UPSTREAM_PORT 7).wrAt R.TBASE.TB_CFG_SOURCE 3 0 7) with tk := { up.tk with phase := .waiting }, ld := { up.ld with setSize := 2 } }.wr R.RUN.RUN_STATUS_STATE 1).passOnce (0x22, 9, 4, 3); if (({ ((((up.wrAt R.KL.KL_STATUS_STATE 7 0 6).wr R.TIME.TIME_STATUS_MASTER 0).wr R.TIME.TIME_STATUS_UPSTREAM_PORT 7).wrAt R.TBASE.TB_CFG_SOURCE 3 0 7) with tk := { up.tk with phase := .waiting }, ld := { up.ld with setSize := 2 } }.wr R.RUN.RUN_STATUS_STATE 1)).isMaster = true ∨ (({ ((((up.wrAt R.KL.KL_STATUS_STATE 7 0 6).wr R.TIME.TIME_STATUS_MASTER 0).wr R.TIME.TIME_STATUS_UPSTREAM_PORT 7).wrAt R.TBASE.TB_CFG_SOURCE 3 0 7) with tk := { up.tk with phase := .waiting }, ld := { up.ld with setSize := 2 } }.wr R.RUN.RUN_STATUS_STATE 1)).isUpstream 7 = true then d0.sendAllBut 7 0x22 (leBytes 3 1 ++ leBytes 4 6 ++ leBytes 9 1) else d0.queueMessage ((({ ((((up.wrAt R.KL.KL_STATUS_STATE 7 0 6).wr R.TIME.TIME_STATUS_MASTER 0).wr R.TIME.TIME_STATUS_UPSTREAM_PORT 7).wrAt R.TBASE.TB_CFG_SOURCE 3 0 7) with tk := { up.tk with phase := .waiting }, ld := { up.ld with setSize := 2 } }.wr R.RUN.RUN_STATUS_STATE 1)).rd R.TIME.TIME_STATUS_UPSTREAM_PORT) 0x22 (leBytes 3 1 ++ leBytes 4 6 ++ leBytes 9 1))), by decide +kernel, by decide +kernel, by decide +kernel, rfl⟩

theorem witness_RunMessages_2_2 : ∃ (s : State) (p : Nat) (origin : Nat) (take : Nat) (code : Nat) (d1 : Dev), (p < 8) ∧ (s.dev.portTalks p = true) ∧ (s.dev.tk.passed.contains (0x22, code, take, origin) = false) ∧ (d1 = (let d0 := s.dev.passOnce (0x22, code, take, origin)
      if s.dev.isMaster = true ∨ s.dev.isUpstream p = true then d0.sendAllBut p 0x22 (leBytes origin 1 ++ leBytes take 6 ++ leBytes code 1)
      else d0.queueMessage (s.dev.rd R.TIME.TIME_STATUS_UPSTREAM_PORT) 0x22 (leBytes origin 1 ++ leBytes take 6 ++ leBytes code 1))) := ⟨(st (up.wrAt R.KL.KL_STATUS_STATE 7 0 6)), (7), (3), (4), (9), ((let d0 := (up.wrAt R.KL.KL_STATUS_STATE 7 0 6).passOnce (0x22, 9, 4, 3); if ((up.wrAt R.KL.KL_STATUS_STATE 7 0 6)).isMaster = true ∨ ((up.wrAt R.KL.KL_STATUS_STATE 7 0 6)).isUpstream 7 = true then d0.sendAllBut 7 0x22 (leBytes 3 1 ++ leBytes 4 6 ++ leBytes 9 1) else d0.queueMessage (((up.wrAt R.KL.KL_STATUS_STATE 7 0 6)).rd R.TIME.TIME_STATUS_UPSTREAM_PORT) 0x22 (leBytes 3 1 ++ leBytes 4 6 ++ leBytes 9 1))), by decide +kernel, by decide +kernel, by decide +kernel, rfl⟩

theorem witness_RunMessages_3 : ∃ (s : State) (p : Nat), (p < 8) ∧ (s.dev.portTalks p = true) := ⟨(st (up.wrAt R.KL.KL_STATUS_STATE 7 0 6)), (7), by and_intros <;> decide +kernel⟩

theorem witness_RunMessages_5 : ∃ (s : State) (p : Nat), (p < 8) ∧ (s.dev.portTalks p = true) := ⟨(st (up.wrAt R.KL.KL_STATUS_STATE 7 0 6)), (7), by and_intros <;> decide +kernel⟩

theorem witness_RunMessages_6 : ∃ (s : State) (p : Nat), (p < 8) ∧ (s.dev.portTalks p = true) := ⟨(st ((up.wrAt R.KL.KL_STATUS_STATE 7 0 6).setPort 7 fun q => { q with lowReq := true })), (7), by and_intros <;> decide +kernel⟩

theorem witness_RunMessages_7 : ∃ (s : State) (p : Nat), (p < 8) ∧ (s.dev.portTalks p = true) := ⟨(st (up.wrAt R.KL.KL_STATUS_STATE 7 0 6)), (7), by and_intros <;> decide +kernel⟩

theorem witness_RunMessages_5_1 : ∃ (s : State) (p : Nat), (p < 8) ∧ (s.dev.portTalks p = true) := ⟨(st (up.wrAt R.KL.KL_STATUS_STATE 7 0 7)), (7), by and_intros <;> decide +kernel⟩

theorem witness_RunMessages_6_1 : ∃ (s : State) (p : Nat), (p < 8) ∧ (s.dev.portTalks p = true) := ⟨(st ((up.wrAt R.KL.KL_STATUS_STATE 7 0 7).setPort 7 fun q => { q with lowReq := true })), (7), by and_intros <;> decide +kernel⟩

theorem witness_RunMessages_7_1 : ∃ (s : State) (p : Nat), (p < 8) ∧ (s.dev.portTalks p = true) := ⟨(st (up.wrAt R.KL.KL_STATUS_STATE 7 0 7)), (7), by and_intros <;> decide +kernel⟩

theorem witness_RunMessages_7_2 : ∃ (s : State) (p : Nat), (p < 8) ∧ (s.dev.portTalks p = true) := ⟨(st ((up.wrAt R.KL.KL_STATUS_STATE 7 0 7).wr R.POWER.PWR_STATUS_STATE 2)), (7), by and_intros <;> decide +kernel⟩

theorem witness_RunMessages_8 : ∃ (s : State) (p : Nat), (p < 8) ∧ (s.dev.portTalks p = false) := ⟨(st up), (7), by and_intros <;> decide +kernel⟩

theorem witness_RunMessages_9 : ∃ (s : State) (p : Nat), (p < 8) ∧ (s.dev.portTalks p = false) := ⟨(st up), (7), by and_intros <;> decide +kernel⟩

theorem witness_RunMessages_10 : ∃ (s : State) (p : Nat), (p < 8) ∧ (s.dev.portTalks p = false) := ⟨(st up), (7), by and_intros <;> decide +kernel⟩

theorem witness_RunMessages_11 : ∃ (s : State) (p : Nat), (p < 8) ∧ (s.dev.portTalks p = false) := ⟨(st up), (7), by and_intros <;> decide +kernel⟩

theorem witness_RunMessages_12 : ∃ (s : State) (p : Nat), (p < 8) ∧ (s.dev.portTalks p = false) := ⟨(st up), (7), by and_intros <;> decide +kernel⟩

theorem witness_RunMessages_13 : ∃ (s : State) (p : Nat), (p < 8) ∧ (s.dev.portTalks p = false) := ⟨(st up), (7), by and_intros <;> decide +kernel⟩

theorem witness_RunMessages_14 : ∃ (s : State) (p : Nat), (p < 8) ∧ (s.dev.portTalks p = false) := ⟨(st up), (7), by and_intros <;> decide +kernel⟩

theorem witness_RunMessages_15 : ∃ (s : State) (p : Nat) (a : Nat) (b : Nat) (c : Nat), (p < 8) ∧ (s.dev.tk.passed.contains (0x20, a, b, c) = true) := ⟨(st { (up.wrAt R.KL.KL_STATUS_STATE 7 0 6) with tk := { up.tk with passed := [(0x20, 0, 0, 0), (0x21, 0, 0, 0), (0x22, 0, 0, 0)] } }), (7), (0), (0), (0), by and_intros <;> decide +kernel⟩

theorem witness_RunMessages_16 : ∃ (s : State) (p : Nat) (a : Nat) (e : Nat), (p < 8) ∧ (s.dev.tk.passed.contains (0x21, a, e, 0) = true) := ⟨(st { (up.wrAt R.KL.KL_STATUS_STATE 7 0 6) with tk := { up.tk with passed := [(0x20, 0, 0, 0), (0x21, 0, 0, 0), (0x22, 0, 0, 0)] } }), (7), (0), (0), by and_intros <;> decide +kernel⟩

theorem witness_RunMessages_17 : ∃ (s : State) (p : Nat), (p < 8) ∧ (s.dev.isMaster = true) := ⟨(st { (up.wrAt R.KL.KL_STATUS_STATE 7 0 6) with tk := { up.tk with passed := [(0x20, 0, 0, 0), (0x21, 0, 0, 0), (0x22, 0, 0, 0)] } }), (7), by and_intros <;> decide +kernel⟩

theorem witness_RunMessages_18 : ∃ (s : State) (p : Nat) (a : Nat) (b : Nat) (c : Nat), (p < 8) ∧ (s.dev.tk.passed.contains (0x22, c, b, a) = true) := ⟨(st { (up.wrAt R.KL.KL_STATUS_STATE 7 0 6) with tk := { up.tk with passed := [(0x20, 0, 0, 0), (0x21, 0, 0, 0), (0x22, 0, 0, 0)] } }), (7), (0), (0), (0), by and_intros <;> decide +kernel⟩

theorem witness_RunMessages_19 : ∃ (p : Nat), (8 ≤ p) := ⟨(8), by decide +kernel⟩

theorem witness_RunMessages_20 : ∃ (p : Nat), (8 ≤ p) := ⟨(8), by decide +kernel⟩

theorem witness_RunMessages_21 : ∃ (p : Nat), (8 ≤ p) := ⟨(8), by decide +kernel⟩

theorem witness_RunMessages_22 : ∃ (p : Nat), (8 ≤ p) := ⟨(8), by decide +kernel⟩

theorem witness_RunMessages_23 : ∃ (p : Nat), (8 ≤ p) := ⟨(8), by decide +kernel⟩

theorem witness_RunMessages_24 : ∃ (p : Nat), (8 ≤ p) := ⟨(8), by decide +kernel⟩

theorem witness_RunMessages_25 : ∃ (p : Nat), (8 ≤ p) := ⟨(8), by decide +kernel⟩

theorem witness_RegisterWrites_0 : ∃ (r : Reg), (r.lo + r.width ≤ 32) ∧ (r.ty = .rw) := ⟨(R.FENCE.FENCE_CTRL_ENFORCE), by and_intros <;> decide +kernel⟩

theorem witness_RegisterWrites_0_1 : ∃ (r : Reg), (r.lo + r.width ≤ 32) ∧ (r.ty = .rw) := ⟨(R.DDR.THERM_LIMIT), by and_intros <;> decide +kernel⟩

theorem witness_RegisterWrites_1 : ∃ (r : Reg), (r.lo + r.width ≤ 32) ∧ (r.ty = .w1c) := ⟨(R.PCIE.PCIE_STATUS_BAR2_RANGE), by and_intros <;> decide +kernel⟩

theorem witness_RegisterWrites_1_1 : ∃ (r : Reg), (r.lo + r.width ≤ 32) ∧ (r.ty = .w1c) := ⟨(R.PCIE.PCIE_STATUS_BAR2_RANGE), by and_intros <;> decide +kernel⟩

theorem witness_RegisterWrites_2 : ∃ (r : Reg), ((r.ty = .ro ∨ r.ty = .rc ∨ r.ty = .wo ∨ r.ty = .rwl)) := ⟨(R.RUN.RUN_STATUS_STATE), by decide +kernel⟩

theorem witness_RegisterWrites_3 : ∃ (r : Reg) (q : Reg) (n : Nat) (k : Nat) (m : Nat) (j : Nat), (q.key m j ≠ r.key n k) := ⟨(R.DDR.THERM_LIMIT), (R.FENCE.FENCE_CTRL_ENFORCE), (0), (0), (0), (0), by decide +kernel⟩

theorem witness_RegisterWrites_4 : ∃ (s : State) (func : Nat) (off : Nat) (be : Nat), (s.dev.funcUp func = true) ∧ (off % 4 = 0) ∧ (be % 16 = 15) := ⟨(st up), (0), (0x200024), (15), by and_intros <;> decide +kernel⟩

theorem witness_RegisterWrites_4_1 : ∃ (s : State) (func : Nat) (off : Nat) (be : Nat), (s.dev.funcUp func = true) ∧ (off % 4 = 0) ∧ (be % 16 = 15) := ⟨(st up), (1), (0x24), (15), by and_intros <;> decide +kernel⟩

theorem witness_RegisterWrites_4_2 : ∃ (s : State) (func : Nat) (off : Nat) (be : Nat), (s.dev.funcUp func = true) ∧ (off % 4 = 0) ∧ (be % 16 = 15) := ⟨(st up), (0), (0x200024), (255), by and_intros <;> decide +kernel⟩

theorem witness_RegisterWrites_5 : ∃ (s : State) (func : Nat) (off : Nat) (value : Nat) (t : Nat) (be : Nat) (d1 : Dev), (s.dev.funcUp func = true) ∧ (off % 8 = 0) ∧ (be % 256 = 255) ∧ (d1 = ((s.dev.atWrite t).busWord func off (value % 2 ^ 32) t s.envelope).busWord func (off + 4) (value / 2 ^ 32 % 2 ^ 32) t s.envelope) := ⟨(st up), (0), (0x200020), (0x1122334455), (5), (255), (_), ⟨by decide +kernel, by decide +kernel, by decide +kernel, rfl⟩⟩

theorem witness_RegisterWrites_6 : ∃ (s : State) (func : Nat) (off : Nat) (size : Nat), (s.dev.funcUp func = true) ∧ ((size ≠ 4 ∧ size ≠ 8 ∨ off % size ≠ 0)) := ⟨(st up), (0), (0x200020), (2), by and_intros <;> decide +kernel⟩

theorem witness_RegisterWrites_6_1 : ∃ (s : State) (func : Nat) (off : Nat) (size : Nat), (s.dev.funcUp func = true) ∧ ((size ≠ 4 ∧ size ≠ 8 ∨ off % size ≠ 0)) := ⟨(st up), (0), (0x200022), (4), by and_intros <;> decide +kernel⟩

theorem witness_RegisterWrites_6_2 : ∃ (s : State) (func : Nat) (off : Nat) (size : Nat), (s.dev.funcUp func = true) ∧ ((size ≠ 4 ∧ size ≠ 8 ∨ off % size ≠ 0)) := ⟨(st up), (0), (0x200024), (8), by and_intros <;> decide +kernel⟩

theorem witness_RegisterWrites_7 : ∃ (s : State) (func : Nat) (off : Nat) (size : Nat) (be : Nat), (s.dev.funcUp func = true) ∧ ((size = 4 ∨ size = 8)) ∧ (off % size = 0) ∧ (be % 2 ^ size ≠ 2 ^ size - 1) := ⟨(st up), (0), (0x200020), (4), (14), by and_intros <;> decide +kernel⟩

theorem witness_RegisterWrites_7_1 : ∃ (s : State) (func : Nat) (off : Nat) (size : Nat) (be : Nat), (s.dev.funcUp func = true) ∧ ((size = 4 ∨ size = 8)) ∧ (off % size = 0) ∧ (be % 2 ^ size ≠ 2 ^ size - 1) := ⟨(st up), (0), (0x200020), (8), (15), by and_intros <;> decide +kernel⟩

theorem witness_RegisterWrites_8 : ∃ (s : State) (func : Nat), (s.dev.funcUp func = false) ∧ (s.dev.mg.inReset = false) := ⟨(st { up with mg := { up.mg with bootFailed := true } }), (0), by and_intros <;> decide +kernel⟩

theorem witness_RegisterWrites_9 : ∃ (s : State) (func : Nat), (s.dev.functionUp func = true) := ⟨(st up), (0), by decide +kernel⟩

theorem witness_RegisterWrites_9_1 : ∃ (s : State) (func : Nat), (s.dev.functionUp func = true) := ⟨(st up), (1), by decide +kernel⟩

theorem witness_RegisterWrites_10 : ∃ (s : State), (s.dev.functionUp 0 = true) := ⟨(st up), by decide +kernel⟩

theorem witness_RegisterWrites_10_1 : ∃ (s : State), (s.dev.functionUp 0 = true) := ⟨(st up), by decide +kernel⟩

theorem witness_RegisterWrites_11 : ∃ (s : State), (s.dev.mg.inReset = false) := ⟨(st up), by decide +kernel⟩

theorem witness_RegisterWrites_12 : ∃ (s : State) (func : Nat), (s.dev.mg.inReset = false) ∧ (s.dev.functionUp func = false) := ⟨(st { up with mg := { up.mg with bootFailed := true } }), (0), by and_intros <;> decide +kernel⟩

theorem witness_RegisterWrites_13 : ∃ (s : State), (s.dev.mg.inReset = false) ∧ (s.dev.functionUp 0 = false) := ⟨(st { up with mg := { up.mg with bootFailed := true } }), by and_intros <;> decide +kernel⟩

theorem witness_RegisterWrites_14 : ∃ (s : State), (s.dev.mg.inReset = true) := ⟨(st { up with mg := { up.mg with inReset := true } }), by decide +kernel⟩

theorem witness_RegisterWrites_14_1 : ∃ (s : State), (s.dev.mg.inReset = true) := ⟨(st { up with mg := { up.mg with inReset := true } }), by decide +kernel⟩

theorem witness_RegisterWrites_14_2 : ∃ (s : State), (s.dev.mg.inReset = true) := ⟨(st { up with mg := { up.mg with inReset := true } }), by decide +kernel⟩

theorem witness_BarAccesses_0 : ∃ (s : State), ((s.dev.mg.inReset = true ∨ s.dev.mg.bootFailed = true)) := ⟨(st { up with mg := { up.mg with inReset := true } }), by decide +kernel⟩

theorem witness_BarAccesses_0_1 : ∃ (s : State), ((s.dev.mg.inReset = true ∨ s.dev.mg.bootFailed = true)) := ⟨(st { up with mg := { up.mg with bootFailed := true } }), by decide +kernel⟩

theorem witness_BarAccesses_1 : ∃ (s : State), ((s.dev.mg.inReset = true ∨ s.dev.mg.bootFailed = true)) := ⟨(st { up with mg := { up.mg with inReset := true } }), by decide +kernel⟩

theorem witness_BarAccesses_1_1 : ∃ (s : State), ((s.dev.mg.inReset = true ∨ s.dev.mg.bootFailed = true)) := ⟨(st { up with mg := { up.mg with bootFailed := true } }), by decide +kernel⟩

theorem witness_BarAccesses_2 : ∃ (s : State), ((s.dev.mg.inReset = true ∨ s.dev.mg.bootFailed = true)) := ⟨(st { up with mg := { up.mg with inReset := true } }), by decide +kernel⟩

theorem witness_BarAccesses_2_1 : ∃ (s : State), ((s.dev.mg.inReset = true ∨ s.dev.mg.bootFailed = true)) := ⟨(st { up with mg := { up.mg with bootFailed := true } }), by decide +kernel⟩

theorem witness_BarAccesses_3 : ∃ (s : State), ((s.dev.mg.inReset = true ∨ s.dev.mg.bootFailed = true)) := ⟨(st { up with mg := { up.mg with inReset := true } }), by decide +kernel⟩

theorem witness_BarAccesses_3_1 : ∃ (s : State), ((s.dev.mg.inReset = true ∨ s.dev.mg.bootFailed = true)) := ⟨(st { up with mg := { up.mg with bootFailed := true } }), by decide +kernel⟩

theorem witness_BarAccesses_4 : ∃ (s : State), (s.dev.mg.inReset = false) ∧ (s.dev.mg.bootFailed = false) ∧ (s.dev.host.dstate ≠ 0) := ⟨(st { up with host := { up.host with dstate := 3 } }), by and_intros <;> decide +kernel⟩

theorem witness_BarAccesses_5 : ∃ (s : State), (s.dev.mg.inReset = false) ∧ (s.dev.mg.bootFailed = false) ∧ (s.dev.host.dstate ≠ 0) := ⟨(st { up with host := { up.host with dstate := 3 } }), by and_intros <;> decide +kernel⟩

theorem witness_BarAccesses_6 : ∃ (s : State), (s.dev.mg.inReset = false) ∧ (s.dev.mg.bootFailed = false) ∧ (s.dev.host.dstate ≠ 0) := ⟨(st { up with host := { up.host with dstate := 3 } }), by and_intros <;> decide +kernel⟩

theorem witness_BarAccesses_7 : ∃ (s : State), (s.dev.mg.inReset = false) ∧ (s.dev.mg.bootFailed = false) ∧ (s.dev.host.dstate ≠ 0) := ⟨(st { up with host := { up.host with dstate := 3 } }), by and_intros <;> decide +kernel⟩

theorem witness_BarAccesses_8 : ∃ (s : State), (s.dev.mg.inReset = false) ∧ (s.dev.mg.bootFailed = false) ∧ (s.dev.host.dstate = 0) ∧ (s.dev.on R.DDR.DDR_STATUS_READY = false) := ⟨(st up), by and_intros <;> decide +kernel⟩

theorem witness_BarAccesses_9 : ∃ (s : State), (s.dev.mg.inReset = false) ∧ (s.dev.mg.bootFailed = false) ∧ (s.dev.host.dstate = 0) ∧ (s.dev.on R.DDR.DDR_STATUS_READY = false) := ⟨(st up), by and_intros <;> decide +kernel⟩

theorem witness_BarAccesses_10 : ∃ (s : State) (off : Nat) (n : Nat), (s.dev.mg.inReset = false) ∧ (s.dev.mg.bootFailed = false) ∧ (s.dev.host.dstate = 0) ∧ (s.dev.on R.DDR.DDR_STATUS_READY = true) ∧ (s.dev.rd R.DDR.CAPACITY < s.dev.bar2Address off + n) := ⟨(st ((up.wr R.DDR.DDR_STATUS_READY 1).wr R.DDR.CAPACITY (2 ^ 12))), (2 ^ 12 - 7), (8), by and_intros <;> decide +kernel⟩

theorem witness_BarAccesses_11 : ∃ (s : State) (off : Nat) (n : Nat) (v : MemView) (bs : Bytes) (d1 : Dev) (bad : Bool), (s.dev.mg.inReset = false) ∧ (s.dev.mg.bootFailed = false) ∧ (s.dev.host.dstate = 0) ∧ (s.dev.on R.DDR.DDR_STATUS_READY = true) ∧ (s.dev.bar2Address off + n ≤ s.dev.rd R.DDR.CAPACITY) ∧ (s.dev.bar2Serves (s.dev.bar2Address off) n = true) ∧ ((s.dev.count 0xB0 12 1).bar2Lines (s.dev.bar2Address off) n v = (bs, bad, d1)) := ⟨(st ((up.wr R.DDR.DDR_STATUS_READY 1).wr R.DDR.CAPACITY (2 ^ 12))), (2 ^ 12 - 8), (8), (default), (((((up.wr R.DDR.DDR_STATUS_READY 1).wr R.DDR.CAPACITY (2 ^ 12)).count 0xB0 12 1).bar2Lines (2 ^ 12 - 8) 8 default).1), (_), (false), ⟨by decide +kernel, by decide +kernel, by decide +kernel, ⟨by decide +kernel, by decide +kernel, by decide +kernel, split_2_3 (by decide +kernel) (by decide +kernel)⟩⟩⟩

theorem witness_BarAccesses_12 : ∃ (s : State) (off : Nat) (n : Nat), (s.dev.mg.inReset = false) ∧ (s.dev.mg.bootFailed = false) ∧ (s.dev.host.dstate = 0) ∧ (s.dev.on R.DDR.DDR_STATUS_READY = true) ∧ (s.dev.bar2Address off + n ≤ s.dev.rd R.DDR.CAPACITY) ∧ (s.dev.bar2Serves (s.dev.bar2Address off) n = false) := ⟨(st { (((up.wr R.DDR.DDR_STATUS_READY 1).wr R.DDR.CAPACITY (2 ^ 12))) with ddr := { up.ddr with srSince := (List.range 8).map fun i => (i, 1) } }), (0), (8), by and_intros <;> decide +kernel⟩

theorem witness_BarAccesses_13 : ∃ (s : State) (off : Nat) (bs : Bytes), (s.dev.mg.inReset = false) ∧ (s.dev.mg.bootFailed = false) ∧ (s.dev.host.dstate = 0) ∧ (s.dev.on R.DDR.DDR_STATUS_READY = true) ∧ (s.dev.bar2Address off + bs.length ≤ s.dev.rd R.DDR.CAPACITY) := ⟨(st ((up.wr R.DDR.DDR_STATUS_READY 1).wr R.DDR.CAPACITY (2 ^ 12))), (60), ([1, 2, 3, 4, 5, 6, 7, 8]), by and_intros <;> decide +kernel⟩

theorem witness_BarAccesses_13_1 : ∃ (s : State) (off : Nat) (bs : Bytes), (s.dev.mg.inReset = false) ∧ (s.dev.mg.bootFailed = false) ∧ (s.dev.host.dstate = 0) ∧ (s.dev.on R.DDR.DDR_STATUS_READY = true) ∧ (s.dev.bar2Address off + bs.length ≤ s.dev.rd R.DDR.CAPACITY) := ⟨(st { (((up.wr R.DDR.DDR_STATUS_READY 1).wr R.DDR.CAPACITY (2 ^ 12))) with ddr := { up.ddr with srSince := (List.range 8).map fun i => (i, 1) } }), (60), ([1, 2, 3, 4, 5, 6, 7, 8]), by and_intros <;> decide +kernel⟩

theorem witness_BarAccesses_14 : ∃ (s : State) (off : Nat) (bs : Bytes), (s.dev.mg.inReset = false) ∧ (s.dev.mg.bootFailed = false) ∧ (s.dev.host.dstate = 0) ∧ (s.dev.ddrServes (s.dev.bar2Address off) = true) ∧ (bs.length = 64) ∧ (s.dev.bar2Address off % 64 = 0) ∧ (s.dev.bar2Address off + 64 ≤ s.dev.rd R.DDR.CAPACITY) := ⟨(st ((up.wr R.DDR.DDR_STATUS_READY 1).wr R.DDR.CAPACITY (2 ^ 12))), (2 ^ 12 - 64), (List.replicate 64 7), by and_intros <;> decide +kernel⟩

theorem witness_BarAccesses_15 : ∃ (s : State), (s.dev.mg.inReset = false) ∧ (s.dev.mg.bootFailed = false) ∧ (s.dev.host.dstate = 0) ∧ (s.dev.apertureRefused = true) := ⟨(st (up.wr R.RUN.RUN_STATUS_STATE 1)), by and_intros <;> decide +kernel⟩

theorem witness_BarAccesses_15_1 : ∃ (s : State), (s.dev.mg.inReset = false) ∧ (s.dev.mg.bootFailed = false) ∧ (s.dev.host.dstate = 0) ∧ (s.dev.apertureRefused = true) := ⟨(st (up.wr R.LOAD.LOAD_STATUS_SECURE 1)), by and_intros <;> decide +kernel⟩

theorem witness_BarAccesses_16 : ∃ (s : State), (s.dev.mg.inReset = false) ∧ (s.dev.mg.bootFailed = false) ∧ (s.dev.host.dstate = 0) ∧ (s.dev.apertureRefused = true) := ⟨(st (up.wr R.RUN.RUN_STATUS_STATE 1)), by and_intros <;> decide +kernel⟩

theorem witness_BarAccesses_16_1 : ∃ (s : State), (s.dev.mg.inReset = false) ∧ (s.dev.mg.bootFailed = false) ∧ (s.dev.host.dstate = 0) ∧ (s.dev.apertureRefused = true) := ⟨(st (up.wr R.LOAD.LOAD_STATUS_SECURE 1)), by and_intros <;> decide +kernel⟩

theorem witness_BarAccesses_17 : ∃ (s : State) (off : Nat), (s.dev.mg.inReset = false) ∧ (s.dev.mg.bootFailed = false) ∧ (s.dev.host.dstate = 0) ∧ (s.dev.apertureRefused = false) ∧ ((s.dev.region off = .reserved ∨ s.dev.region off = .bank)) := ⟨(st up), (0x1F0000000), by and_intros <;> decide +kernel⟩

theorem witness_BarAccesses_18 : ∃ (s : State) (off : Nat), (s.dev.mg.inReset = false) ∧ (s.dev.mg.bootFailed = false) ∧ (s.dev.host.dstate = 0) ∧ (s.dev.apertureRefused = false) ∧ ((s.dev.region off = .reserved ∨ s.dev.region off = .bank ∨ s.dev.region off = .shadow)) := ⟨(st up), (0x1F0000000), by and_intros <;> decide +kernel⟩

theorem witness_BarAccesses_17_1 : ∃ (s : State) (off : Nat), (s.dev.mg.inReset = false) ∧ (s.dev.mg.bootFailed = false) ∧ (s.dev.host.dstate = 0) ∧ (s.dev.apertureRefused = false) ∧ ((s.dev.region off = .reserved ∨ s.dev.region off = .bank)) := ⟨(st up), (0x200000000), by and_intros <;> decide +kernel⟩

theorem witness_BarAccesses_18_1 : ∃ (s : State) (off : Nat), (s.dev.mg.inReset = false) ∧ (s.dev.mg.bootFailed = false) ∧ (s.dev.host.dstate = 0) ∧ (s.dev.apertureRefused = false) ∧ ((s.dev.region off = .reserved ∨ s.dev.region off = .bank ∨ s.dev.region off = .shadow)) := ⟨(st up), (0x200000000), by and_intros <;> decide +kernel⟩

theorem witness_BarAccesses_18_2 : ∃ (s : State) (off : Nat), (s.dev.mg.inReset = false) ∧ (s.dev.mg.bootFailed = false) ∧ (s.dev.host.dstate = 0) ∧ (s.dev.apertureRefused = false) ∧ ((s.dev.region off = .reserved ∨ s.dev.region off = .bank ∨ s.dev.region off = .shadow)) := ⟨(st up), (0x185000000), by and_intros <;> decide +kernel⟩

theorem witness_BarAccesses_19 : ∃ (s : State) (off : Nat) (n : Nat) (i : Nat) (x : Bytes × Bool), (s.dev.mg.inReset = false) ∧ (s.dev.mg.bootFailed = false) ∧ (s.dev.host.dstate = 0) ∧ (s.dev.apertureRefused = false) ∧ (s.dev.region off ≠ .reserved) ∧ (s.dev.region off ≠ .bank) ∧ (s.dev.offsetDomain off = some i) ∧ (s.dev.domState i = 2) ∧ (x = (s.dev.count 0xB0 14 1).arrRead off n) := ⟨(st (up.wrAt R.POWER.DOM_STATUS_STATE 0 0x68 2)), (0), (8), (0x68), (((up.wrAt R.POWER.DOM_STATUS_STATE 0 0x68 2).count 0xB0 14 1).arrRead 0 8), by and_intros <;> decide +kernel⟩

theorem witness_BarAccesses_20 : ∃ (s : State) (off : Nat) (i : Nat), (s.dev.mg.inReset = false) ∧ (s.dev.mg.bootFailed = false) ∧ (s.dev.host.dstate = 0) ∧ (s.dev.apertureRefused = false) ∧ ((s.dev.region off = .instr ∨ s.dev.region off = .step ∨ s.dev.region off = .state)) ∧ (s.dev.offsetDomain off = some i) ∧ (s.dev.domState i = 2) := ⟨(st (up.wrAt R.POWER.DOM_STATUS_STATE 0 0x68 2)), (0), (0x68), by and_intros <;> decide +kernel⟩

theorem witness_BarAccesses_19_1 : ∃ (s : State) (off : Nat) (n : Nat) (i : Nat) (x : Bytes × Bool), (s.dev.mg.inReset = false) ∧ (s.dev.mg.bootFailed = false) ∧ (s.dev.host.dstate = 0) ∧ (s.dev.apertureRefused = false) ∧ (s.dev.region off ≠ .reserved) ∧ (s.dev.region off ≠ .bank) ∧ (s.dev.offsetDomain off = some i) ∧ (s.dev.domState i = 2) ∧ (x = (s.dev.count 0xB0 14 1).arrRead off n) := ⟨(st (up.wrAt R.POWER.DOM_STATUS_STATE 0 0x68 2)), (0x180000000), (8), (0), (((up.wrAt R.POWER.DOM_STATUS_STATE 0 0x68 2).count 0xB0 14 1).arrRead 0x180000000 8), by and_intros <;> decide +kernel⟩

theorem witness_BarAccesses_20_1 : ∃ (s : State) (off : Nat) (i : Nat), (s.dev.mg.inReset = false) ∧ (s.dev.mg.bootFailed = false) ∧ (s.dev.host.dstate = 0) ∧ (s.dev.apertureRefused = false) ∧ ((s.dev.region off = .instr ∨ s.dev.region off = .step ∨ s.dev.region off = .state)) ∧ (s.dev.offsetDomain off = some i) ∧ (s.dev.domState i = 2) := ⟨(st (up.wrAt R.POWER.DOM_STATUS_STATE 0 0x68 2)), (0x180000000), (0), by and_intros <;> decide +kernel⟩

theorem witness_BarAccesses_19_2 : ∃ (s : State) (off : Nat) (n : Nat) (i : Nat) (x : Bytes × Bool), (s.dev.mg.inReset = false) ∧ (s.dev.mg.bootFailed = false) ∧ (s.dev.host.dstate = 0) ∧ (s.dev.apertureRefused = false) ∧ (s.dev.region off ≠ .reserved) ∧ (s.dev.region off ≠ .bank) ∧ (s.dev.offsetDomain off = some i) ∧ (s.dev.domState i = 2) ∧ (x = (s.dev.count 0xB0 14 1).arrRead off n) := ⟨(st (up.wrAt R.POWER.DOM_STATUS_STATE 0 0x68 2)), (0x184000000), (8), (0), (((up.wrAt R.POWER.DOM_STATUS_STATE 0 0x68 2).count 0xB0 14 1).arrRead 0x184000000 8), by and_intros <;> decide +kernel⟩

theorem witness_BarAccesses_20_2 : ∃ (s : State) (off : Nat) (i : Nat), (s.dev.mg.inReset = false) ∧ (s.dev.mg.bootFailed = false) ∧ (s.dev.host.dstate = 0) ∧ (s.dev.apertureRefused = false) ∧ ((s.dev.region off = .instr ∨ s.dev.region off = .step ∨ s.dev.region off = .state)) ∧ (s.dev.offsetDomain off = some i) ∧ (s.dev.domState i = 2) := ⟨(st (up.wrAt R.POWER.DOM_STATUS_STATE 0 0x68 2)), (0x184000000), (0), by and_intros <;> decide +kernel⟩

theorem witness_BarAccesses_19_3 : ∃ (s : State) (off : Nat) (n : Nat) (i : Nat) (x : Bytes × Bool), (s.dev.mg.inReset = false) ∧ (s.dev.mg.bootFailed = false) ∧ (s.dev.host.dstate = 0) ∧ (s.dev.apertureRefused = false) ∧ (s.dev.region off ≠ .reserved) ∧ (s.dev.region off ≠ .bank) ∧ (s.dev.offsetDomain off = some i) ∧ (s.dev.domState i = 2) ∧ (x = (s.dev.count 0xB0 14 1).arrRead off n) := ⟨(st (up.wrAt R.POWER.DOM_STATUS_STATE 0 0x68 2)), (0x185000000), (8), (0), (((up.wrAt R.POWER.DOM_STATUS_STATE 0 0x68 2).count 0xB0 14 1).arrRead 0x185000000 8), by and_intros <;> decide +kernel⟩

theorem witness_BarAccesses_21 : ∃ (s : State), (s.dev.reaches 0x100 = true) := ⟨(st up), by decide +kernel⟩

theorem witness_BarAccesses_22 : ∃ (s : State), (s.dev.funcUp 0 = true) ∧ (s.dev.writeHeld = false) := ⟨(st up), by and_intros <;> decide +kernel⟩

theorem witness_BarAccesses_23 : ∃ (s : State), (s.dev.funcUp 0 = true) ∧ (s.dev.writeHeld = false) := ⟨(st up), by and_intros <;> decide +kernel⟩

theorem witness_BarAccesses_24 : ∃ (s : State) (func : Nat) (off : Nat) (size : Nat), (s.dev.funcUp func = true) ∧ ((size ≠ 4 ∧ size ≠ 8 ∨ off % size ≠ 0)) := ⟨(st up), (0), (0x100050), (2), by and_intros <;> decide +kernel⟩

theorem witness_BarAccesses_24_1 : ∃ (s : State) (func : Nat) (off : Nat) (size : Nat), (s.dev.funcUp func = true) ∧ ((size ≠ 4 ∧ size ≠ 8 ∨ off % size ≠ 0)) := ⟨(st up), (0), (0x100052), (4), by and_intros <;> decide +kernel⟩

theorem witness_BarAccesses_24_2 : ∃ (s : State) (func : Nat) (off : Nat) (size : Nat), (s.dev.funcUp func = true) ∧ ((size ≠ 4 ∧ size ≠ 8 ∨ off % size ≠ 0)) := ⟨(st up), (0), (0x100054), (8), by and_intros <;> decide +kernel⟩

theorem witness_BarAccesses_25 : ∃ (s : State) (off : Nat) (size : Nat), (s.dev.funcUp 0 = true) ∧ ((size = 4 ∨ size = 8)) ∧ (off % size = 0) ∧ (s.dev.writeHeld = true) := ⟨(st { up with net := { up.net with held := [⟨0, false, 0x100054, 0, true⟩] } }), (0x100054), (4), by and_intros <;> decide +kernel⟩

theorem witness_BarAccesses_26 : ∃ (s : State) (func : Nat) (off : Nat) (size : Nat), (s.dev.funcUp func = true) ∧ ((size = 4 ∨ size = 8)) ∧ (off % size = 0) ∧ (func ≠ 0 ∨ s.dev.writeHeld = false) := ⟨(st up), (0), (0x100054), (4), by and_intros <;> decide +kernel⟩

theorem witness_BarAccesses_26_1 : ∃ (s : State) (func : Nat) (off : Nat) (size : Nat), (s.dev.funcUp func = true) ∧ ((size = 4 ∨ size = 8)) ∧ (off % size = 0) ∧ (func ≠ 0 ∨ s.dev.writeHeld = false) := ⟨(st up), (1), (0), (8), by and_intros <;> decide +kernel⟩

theorem witness_BarAccesses_27 : ∃ (s : State) (func : Nat), (s.dev.funcUp func = false) := ⟨(st { up with mg := { up.mg with inReset := true } }), (0), by decide +kernel⟩

theorem witness_BarAccesses_27_1 : ∃ (s : State) (func : Nat), (s.dev.funcUp func = false) := ⟨(st { up with mg := { up.mg with bootFailed := true } }), (0), by decide +kernel⟩

theorem witness_MmuAndFences_0 : ∃ (s : State) (w : Nat), (s.dev.reaches 0x101 = true) ∧ (s.dev.on R.DMMU.INV_STATUS_BUSY = false) ∧ (w / 64 % 4 ≠ 3) := ⟨(st up), (5), by and_intros <;> decide +kernel⟩

theorem witness_MmuAndFences_0_1 : ∃ (s : State) (w : Nat), (s.dev.reaches 0x101 = true) ∧ (s.dev.on R.DMMU.INV_STATUS_BUSY = false) ∧ (w / 64 % 4 ≠ 3) := ⟨(st up), (0x100 + 0x85), by and_intros <;> decide +kernel⟩

theorem witness_MmuAndFences_0_2 : ∃ (s : State) (w : Nat), (s.dev.reaches 0x101 = true) ∧ (s.dev.on R.DMMU.INV_STATUS_BUSY = false) ∧ (w / 64 % 4 ≠ 3) := ⟨(st up), (0x100 + 63), by and_intros <;> decide +kernel⟩

theorem witness_MmuAndFences_1 : ∃ (s : State), (s.dev.reaches 0x101 = true) ∧ (s.dev.on R.DMMU.INV_STATUS_BUSY = true) := ⟨(st (up.wr R.DMMU.INV_STATUS_BUSY 1)), by and_intros <;> decide +kernel⟩

theorem witness_MmuAndFences_2 : ∃ (s : State) (w : Nat), (s.dev.reaches 0x101 = true) ∧ (s.dev.on R.DMMU.INV_STATUS_BUSY = false) ∧ (w / 64 % 4 = 3) := ⟨(st up), (0x1FF), by and_intros <;> decide +kernel⟩

theorem witness_MmuAndFences_3 : ∃ (s : State) (x : Nat × Nat × Nat × Nat), (s.dev.host.invalidating = some x) := ⟨(st { up with host := { up.host with invalidating := some (0, 0, 0, 1), cache := [(2 ^ 48, 5)] } }), ((0, 0, 0, 1)), by decide +kernel⟩

theorem witness_MmuAndFences_4 : ∃ (s : State), (s.dev.host.invalidating = none) := ⟨(st up), by decide +kernel⟩

theorem witness_MmuAndFences_5 : ∃ (s : State) (c : Nat) (hi : Nat) (w : Nat), (c < 64) ∧ (s.dev.reaches 0x101 = true) ∧ (s.dev.rdAt R.DMMU.CTX_ROOT_VALID 0 c = 1) ∧ ((hi = 1 ∨ w % 2 = 1)) := ⟨(st (up.wrAt R.DMMU.CTX_ROOT_VALID 0 63 1)), (63), (1), (0), by and_intros <;> decide +kernel⟩

theorem witness_MmuAndFences_5_1 : ∃ (s : State) (c : Nat) (hi : Nat) (w : Nat), (c < 64) ∧ (s.dev.reaches 0x101 = true) ∧ (s.dev.rdAt R.DMMU.CTX_ROOT_VALID 0 c = 1) ∧ ((hi = 1 ∨ w % 2 = 1)) := ⟨(st (up.wrAt R.DMMU.CTX_ROOT_VALID 0 63 1)), (63), (0), (1), by and_intros <;> decide +kernel⟩

theorem witness_MmuAndFences_6 : ∃ (s : State) (c : Nat) (w : Nat), (c < 64) ∧ (s.dev.reaches 0x101 = true) ∧ ((s.dev.rdAt R.DMMU.CTX_ROOT_VALID 0 c ≠ 1 ∨ w % 2 = 0)) := ⟨(st (up.wrAt R.DMMU.CTX_ROOT_VALID 0 63 1)), (63), (0x12345678), by and_intros <;> decide +kernel⟩

theorem witness_MmuAndFences_6_1 : ∃ (s : State) (c : Nat) (w : Nat), (c < 64) ∧ (s.dev.reaches 0x101 = true) ∧ ((s.dev.rdAt R.DMMU.CTX_ROOT_VALID 0 c ≠ 1 ∨ w % 2 = 0)) := ⟨(st up), (63), (0x12345679), by and_intros <;> decide +kernel⟩

theorem witness_MmuAndFences_7 : ∃ (s : State) (c : Nat), (c < 64) ∧ (s.dev.reaches 0x101 = true) ∧ (s.dev.rdAt R.DMMU.CTX_ROOT_VALID 0 c ≠ 1) := ⟨(st up), (0), by and_intros <;> decide +kernel⟩

theorem witness_MmuAndFences_8 : ∃ (s : State), (s.dev.reaches 0x102 = true) ∧ (s.dev.on R.FENCE.FENCE_CTRL_LOCK = true) := ⟨(st (up.wr R.FENCE.FENCE_CTRL_LOCK 1)), by and_intros <;> decide +kernel⟩

theorem witness_MmuAndFences_9 : ∃ (s : State), (s.dev.reaches 0x102 = true) ∧ (s.dev.on R.FENCE.FENCE_CTRL_LOCK = true) := ⟨(st (up.wr R.FENCE.FENCE_CTRL_LOCK 1)), by and_intros <;> decide +kernel⟩

theorem witness_MmuAndFences_10 : ∃ (s : State), (s.dev.reaches 0x102 = true) ∧ (s.dev.on R.FENCE.FENCE_CTRL_LOCK = false) := ⟨(st (up.wrAt R.FENCE.ENTRY_BASE_VALID 0 31 1)), by and_intros <;> decide +kernel⟩

theorem witness_MmuAndFences_10_1 : ∃ (s : State), (s.dev.reaches 0x102 = true) ∧ (s.dev.on R.FENCE.FENCE_CTRL_LOCK = false) := ⟨(st (up.wrAt R.FENCE.ENTRY_BASE_VALID 0 31 1)), by and_intros <;> decide +kernel⟩

theorem witness_MmuAndFences_11 : ∃ (s : State) (w : Nat), (s.dev.reaches 0x102 = true) ∧ (s.dev.on R.FENCE.FENCE_CTRL_LOCK = false) ∧ (bitAt w 2 = 0) := ⟨(st up), (3), by and_intros <;> decide +kernel⟩

theorem witness_MmuAndFences_12 : ∃ (s : State) (x : List (Nat × Nat)), (s.dev.host.fenceNext = some x) := ⟨(st { up with host := { up.host with fenceNext := some [(0, 4096)] } }), ([(0, 4096)]), by decide +kernel⟩

theorem witness_MmuAndFences_13 : ∃ (s : State), (s.dev.host.fenceNext = none) := ⟨(st up), by decide +kernel⟩

theorem witness_MmuAndFences_14 : ∃ (c : Nat), (64 ≤ c) := ⟨(64), by decide +kernel⟩

theorem witness_EventRegisters_0 : ∃ (s : State) (func : Nat) (off : Nat) (p : Nat), (func < 2) ∧ (s.dev.funcUp func = true) ∧ (pageOf func off = (p, 0x0C)) ∧ ((s.dev.pageRows p).isSome = true) ∧ (hasRwl p = true) := ⟨(st up), (0), (0x10000C), (0x100), by and_intros <;> decide +kernel⟩

theorem witness_EventRegisters_0_1 : ∃ (s : State) (func : Nat) (off : Nat) (p : Nat), (func < 2) ∧ (s.dev.funcUp func = true) ∧ (pageOf func off = (p, 0x0C)) ∧ ((s.dev.pageRows p).isSome = true) ∧ (hasRwl p = true) := ⟨(st up), (1), (0x8B00C), (0xB), by and_intros <;> decide +kernel⟩

theorem witness_EventRegisters_0_2 : ∃ (s : State) (func : Nat) (off : Nat) (p : Nat), (func < 2) ∧ (s.dev.funcUp func = true) ∧ (pageOf func off = (p, 0x0C)) ∧ ((s.dev.pageRows p).isSome = true) ∧ (hasRwl p = true) := ⟨(st up), (0), (0x10000C), (0x100), by and_intros <;> decide +kernel⟩

theorem witness_EventRegisters_1 : ∃ (s : State) (func : Nat) (off : Nat) (p : Nat), (func < 2) ∧ (s.dev.funcUp func = true) ∧ (pageOf func off = (p, 0x18)) ∧ ((s.dev.pageRows p).isSome = true) := ⟨(st (up.event 0x500)), (0), (0x100018), (0x100), by and_intros <;> decide +kernel⟩

theorem witness_EventRegisters_2 : ∃ (s : State) (func : Nat) (off : Nat) (p : Nat), (func < 2) ∧ (s.dev.funcUp func = true) ∧ (pageOf func off = (p, 0x18)) ∧ ((s.dev.pageRows p).isSome = true) := ⟨(st (up.event 0x500)), (0), (0x100018), (0x100), by and_intros <;> decide +kernel⟩

theorem witness_EventRegisters_1_1 : ∃ (s : State) (func : Nat) (off : Nat) (p : Nat), (func < 2) ∧ (s.dev.funcUp func = true) ∧ (pageOf func off = (p, 0x18)) ∧ ((s.dev.pageRows p).isSome = true) := ⟨(st (up.event 0x500)), (0), (0x100018), (0x100), by and_intros <;> decide +kernel⟩

theorem witness_EventRegisters_2_1 : ∃ (s : State) (func : Nat) (off : Nat) (p : Nat), (func < 2) ∧ (s.dev.funcUp func = true) ∧ (pageOf func off = (p, 0x18)) ∧ ((s.dev.pageRows p).isSome = true) := ⟨(st (up.event 0x500)), (0), (0x100018), (0x100), by and_intros <;> decide +kernel⟩

theorem witness_EventRegisters_3 : ∃ (s : State) (func : Nat) (off : Nat) (p : Nat), (func < 2) ∧ (s.dev.funcUp func = true) ∧ (pageOf func off = (p, 0x1C)) ∧ ((s.dev.pageRows p).isSome = true) ∧ ((∀ j, j < evCount p → s.dev.raised (evSource p j) = false)) := ⟨(st up), (0), (0x10001C), (0x100), by and_intros <;> decide +kernel⟩

theorem witness_EventRegisters_4 : ∃ (s : State) (func : Nat) (off : Nat) (p : Nat), (func < 2) ∧ (s.dev.funcUp func = true) ∧ (pageOf func off = (p, 0x20)) ∧ ((s.dev.pageRows p).isSome = true) := ⟨(st up), (0), (0x100020), (0x100), by and_intros <;> decide +kernel⟩

theorem witness_EventRegisters_4_1 : ∃ (s : State) (func : Nat) (off : Nat) (p : Nat), (func < 2) ∧ (s.dev.funcUp func = true) ∧ (pageOf func off = (p, 0x20)) ∧ ((s.dev.pageRows p).isSome = true) := ⟨(st up), (0), (0x100020), (0x100), by and_intros <;> decide +kernel⟩

theorem witness_EventRegisters_5 : ∃ (s : State) (func : Nat) (off : Nat) (p : Nat) (w : Nat), (func < 2) ∧ (s.dev.funcUp func = true) ∧ (pageOf func off = (p, 0x24)) ∧ ((s.dev.pageRows p).isSome = true) ∧ ((evCount p ≤ w % 32 ∨ bitAt w 15 = 0 ∧ bitAt w 27 = 1 ∧ 31 < fieldAt w 16 11)) := ⟨(st up), (0), (0x100024), (0x100), (31), by and_intros <;> decide +kernel⟩

theorem witness_EventRegisters_5_1 : ∃ (s : State) (func : Nat) (off : Nat) (p : Nat) (w : Nat), (func < 2) ∧ (s.dev.funcUp func = true) ∧ (pageOf func off = (p, 0x24)) ∧ ((s.dev.pageRows p).isSome = true) ∧ ((evCount p ≤ w % 32 ∨ bitAt w 15 = 0 ∧ bitAt w 27 = 1 ∧ 31 < fieldAt w 16 11)) := ⟨(st up), (0), (0x100024), (0x100), (2 ^ 27 + 32 * 2 ^ 16), by and_intros <;> decide +kernel⟩

theorem witness_EventRegisters_6 : ∃ (s : State) (func : Nat) (off : Nat) (p : Nat) (w : Nat), (func < 2) ∧ (s.dev.funcUp func = true) ∧ (pageOf func off = (p, 0x24)) ∧ ((s.dev.pageRows p).isSome = true) ∧ (w % 32 < evCount p) ∧ (bitAt w 15 = 1) := ⟨(st up), (0), (0x100024), (0x100), (2 ^ 15), by and_intros <;> decide +kernel⟩

theorem witness_EventRegisters_7 : ∃ (s : State) (func : Nat) (off : Nat) (p : Nat) (w : Nat), (func < 2) ∧ (s.dev.funcUp func = true) ∧ (pageOf func off = (p, 0x24)) ∧ ((s.dev.pageRows p).isSome = true) ∧ (w % 32 < evCount p) ∧ (bitAt w 15 = 0) ∧ ((bitAt w 27 = 0 ∨ fieldAt w 16 11 ≤ 31)) := ⟨(st up), (0), (0x100024), (0x100), (2 ^ 27 + 31 * 2 ^ 16), by and_intros <;> decide +kernel⟩

theorem witness_EventRegisters_7_1 : ∃ (s : State) (func : Nat) (off : Nat) (p : Nat) (w : Nat), (func < 2) ∧ (s.dev.funcUp func = true) ∧ (pageOf func off = (p, 0x24)) ∧ ((s.dev.pageRows p).isSome = true) ∧ (w % 32 < evCount p) ∧ (bitAt w 15 = 0) ∧ ((bitAt w 27 = 0 ∨ fieldAt w 16 11 ≤ 31)) := ⟨(st up), (0), (0x100024), (0x100), (2 ^ 30 + 32 * 2 ^ 16), by and_intros <;> decide +kernel⟩

theorem witness_EventRegisters_8 : ∃ (s : State) (func : Nat) (vector : Nat), (func < 2) ∧ (s.dev.funcUp func = true) ∧ (vector < (if func = 0 then 2048 else 32)) ∧ (SMap.get s.dev.host.msixPend (func * 4096 + vector) = 1) ∧ (SMap.get s.dev.host.msixEnable func = 1) := ⟨(st { up with host := { up.host with msixPend := [(0 * 4096 + 2047, 1)], msixEnable := [(0, 1)] } }), (0), (2047), by and_intros <;> decide +kernel⟩

theorem witness_EventRegisters_9 : ∃ (s : State) (func : Nat) (vector : Nat), (func < 2) ∧ (s.dev.funcUp func = true) ∧ (vector < (if func = 0 then 2048 else 32)) ∧ ((SMap.get s.dev.host.msixPend (func * 4096 + vector) ≠ 1 ∨ SMap.get s.dev.host.msixEnable func ≠ 1)) := ⟨(st up), (0), (2047), by and_intros <;> decide +kernel⟩

theorem witness_EventRegisters_8_1 : ∃ (s : State) (func : Nat) (vector : Nat), (func < 2) ∧ (s.dev.funcUp func = true) ∧ (vector < (if func = 0 then 2048 else 32)) ∧ (SMap.get s.dev.host.msixPend (func * 4096 + vector) = 1) ∧ (SMap.get s.dev.host.msixEnable func = 1) := ⟨(st { up with host := { up.host with msixPend := [(1 * 4096 + 31, 1)], msixEnable := [(1, 1)] } }), (1), (31), by and_intros <;> decide +kernel⟩

theorem witness_EventRegisters_9_1 : ∃ (s : State) (func : Nat) (vector : Nat), (func < 2) ∧ (s.dev.funcUp func = true) ∧ (vector < (if func = 0 then 2048 else 32)) ∧ ((SMap.get s.dev.host.msixPend (func * 4096 + vector) ≠ 1 ∨ SMap.get s.dev.host.msixEnable func ≠ 1)) := ⟨(st up), (1), (31), by and_intros <;> decide +kernel⟩

theorem witness_EventRegisters_17 : ∃ (s : State) (func : Nat), (func < 2) ∧ (s.dev.funcUp func = false) := ⟨(st { up with mg := { up.mg with inReset := true } }), (0), by and_intros <;> decide +kernel⟩

theorem witness_EventRegisters_17_1 : ∃ (s : State) (func : Nat), (func < 2) ∧ (s.dev.funcUp func = false) := ⟨(st { up with mg := { up.mg with inReset := true } }), (1), by and_intros <;> decide +kernel⟩

theorem witness_EventRegisters_18 : ∃ (s : State) (func : Nat), (func < 2) ∧ (s.dev.funcUp func = false) := ⟨(st { up with mg := { up.mg with inReset := true } }), (0), by and_intros <;> decide +kernel⟩

theorem witness_EventRegisters_18_1 : ∃ (s : State) (func : Nat), (func < 2) ∧ (s.dev.funcUp func = false) := ⟨(st { up with mg := { up.mg with inReset := true } }), (1), by and_intros <;> decide +kernel⟩

theorem witness_EventRegisters_19 : ∃ (s : State) (func : Nat), (func < 2) ∧ (s.dev.funcUp func = false) := ⟨(st { up with mg := { up.mg with inReset := true } }), (0), by and_intros <;> decide +kernel⟩

theorem witness_EventRegisters_19_1 : ∃ (s : State) (func : Nat), (func < 2) ∧ (s.dev.funcUp func = false) := ⟨(st { up with mg := { up.mg with inReset := true } }), (1), by and_intros <;> decide +kernel⟩

theorem witness_EventRegisters_20 : ∃ (s : State) (func : Nat), (func < 2) ∧ (s.dev.funcUp func = false) := ⟨(st { up with mg := { up.mg with inReset := true } }), (0), by and_intros <;> decide +kernel⟩

theorem witness_EventRegisters_20_1 : ∃ (s : State) (func : Nat), (func < 2) ∧ (s.dev.funcUp func = false) := ⟨(st { up with mg := { up.mg with inReset := true } }), (1), by and_intros <;> decide +kernel⟩

theorem witness_EventRegisters_21 : ∃ (s : State) (func : Nat), (func < 2) ∧ (s.dev.funcUp func = false) := ⟨(st { up with mg := { up.mg with inReset := true } }), (0), by and_intros <;> decide +kernel⟩

theorem witness_EventRegisters_21_1 : ∃ (s : State) (func : Nat), (func < 2) ∧ (s.dev.funcUp func = false) := ⟨(st { up with mg := { up.mg with inReset := true } }), (1), by and_intros <;> decide +kernel⟩

theorem witness_EventRegisters_22 : ∃ (s : State) (func : Nat), (func < 2) ∧ (s.dev.funcUp func = false) := ⟨(st { up with mg := { up.mg with inReset := true } }), (0), by and_intros <;> decide +kernel⟩

theorem witness_EventRegisters_22_1 : ∃ (s : State) (func : Nat), (func < 2) ∧ (s.dev.funcUp func = false) := ⟨(st { up with mg := { up.mg with inReset := true } }), (1), by and_intros <;> decide +kernel⟩

theorem witness_DdrChannels_0 : ∃ (s : State) (c : Nat), (c < 8) ∧ ((s.dev.rdAt R.DDRCH.CH_STATUS_STATE c 0 = 1 ∨ s.dev.rdAt R.DDRCH.CH_STATUS_STATE c 0 = 2)) := ⟨(st (up.wrAt R.DDRCH.CH_STATUS_STATE 7 0 2)), (7), by and_intros <;> decide +kernel⟩

theorem witness_DdrChannels_0_1 : ∃ (s : State) (c : Nat), (c < 8) ∧ ((s.dev.rdAt R.DDRCH.CH_STATUS_STATE c 0 = 1 ∨ s.dev.rdAt R.DDRCH.CH_STATUS_STATE c 0 = 2)) := ⟨(st (forAll (List.range 8) (fun i d => d.wrAt R.DDRCH.CH_STATUS_STATE i 0 (if i = 7 then 2 else 3)) up)), (7), by and_intros <;> decide +kernel⟩

theorem witness_DdrChannels_1 : ∃ (s : State) (c : Nat), (c < 8) ∧ ((s.dev.rdAt R.DDRCH.CH_STATUS_STATE c 0 = 1 ∨ s.dev.rdAt R.DDRCH.CH_STATUS_STATE c 0 = 2)) := ⟨(st (up.wrAt R.DDRCH.CH_STATUS_STATE 7 0 2)), (7), by and_intros <;> decide +kernel⟩

theorem witness_DdrChannels_2 : ∃ (s : State) (c : Nat), (c < 8) ∧ (s.dev.rdAt R.DDRCH.CH_STATUS_STATE c 0 ≠ 1) ∧ (s.dev.rdAt R.DDRCH.CH_STATUS_STATE c 0 ≠ 2) := ⟨(st up), (7), by and_intros <;> decide +kernel⟩

theorem witness_DdrChannels_3 : ∃ (s : State) (c : Nat), (c < 8) ∧ (s.dev.rdAt R.DDRCH.CH_STATUS_STATE c 0 ≠ 1) ∧ (s.dev.rdAt R.DDRCH.CH_STATUS_STATE c 0 ≠ 2) := ⟨(st up), (7), by and_intros <;> decide +kernel⟩

theorem witness_DdrChannels_4 : ∃ (s : State), (s.dev.reaches 0x200 = true) ∧ ((s.dev.running = true ∨ s.dev.inflight ≠ 0)) := ⟨(st (up.wr R.RUN.RUN_STATUS_STATE 1)), by and_intros <;> decide +kernel⟩

theorem witness_DdrChannels_5 : ∃ (s : State), (s.dev.reaches 0x200 = true) ∧ (s.dev.running = false) ∧ (s.dev.inflight = 0) := ⟨(st up), by and_intros <;> decide +kernel⟩

theorem witness_DdrChannels_5_1 : ∃ (s : State), (s.dev.reaches 0x200 = true) ∧ (s.dev.running = false) ∧ (s.dev.inflight = 0) := ⟨(st up), by and_intros <;> decide +kernel⟩

theorem witness_DdrChannels_5_2 : ∃ (s : State), (s.dev.reaches 0x200 = true) ∧ (s.dev.running = false) ∧ (s.dev.inflight = 0) := ⟨(st { up with part := { up.part with dimms := [] } }), by and_intros <;> decide +kernel⟩

theorem witness_DdrChannels_6 : ∃ (s : State) (c : Nat) (n : Nat), (c < 8) ∧ (s.dev.ddr.scrubOn = true) ∧ (s.dev.ddrReady = true) ∧ (s.dev.rdAt R.DDRCH.CH_STATUS_STATE c 0 = 3) ∧ (n = SMap.get s.dev.ddr.scrubAt c) := ⟨(st (({ (forAll (List.range 8) (fun i d => d.wrAt R.DDRCH.CH_STATUS_STATE i 0 3) ((up.wr R.DDR.DDR_STATUS_READY 1).wr R.DDR.DDR_CTRL_SCRUB_EN 1)) with ddr := { up.ddr with scrubOn := true } } : Dev).wr R.DDR.CAPACITY 1024)), (7), (0), by and_intros <;> decide +kernel⟩

theorem witness_DdrChannels_6_1 : ∃ (s : State) (c : Nat) (n : Nat), (c < 8) ∧ (s.dev.ddr.scrubOn = true) ∧ (s.dev.ddrReady = true) ∧ (s.dev.rdAt R.DDRCH.CH_STATUS_STATE c 0 = 3) ∧ (n = SMap.get s.dev.ddr.scrubAt c) := ⟨(st (({ (forAll (List.range 8) (fun i d => d.wrAt R.DDRCH.CH_STATUS_STATE i 0 3) ((up.wr R.DDR.DDR_STATUS_READY 1).wr R.DDR.DDR_CTRL_SCRUB_EN 1)) with ddr := { up.ddr with scrubOn := true } } : Dev).wr R.DDR.CAPACITY 65536)), (7), (0), by and_intros <;> decide +kernel⟩

theorem witness_DdrChannels_7 : ∃ (s : State) (c : Nat), (c < 8) ∧ ((s.dev.ddr.scrubOn = false ∨ s.dev.ddrReady = false ∨ s.dev.rdAt R.DDRCH.CH_STATUS_STATE c 0 ≠ 3)) := ⟨(st up), (7), by and_intros <;> decide +kernel⟩

theorem witness_DdrChannels_8 : ∃ (c : Nat), (c < 8) := ⟨(7), by decide +kernel⟩

theorem witness_DdrChannels_8_1 : ∃ (c : Nat), (c < 8) := ⟨(7), by decide +kernel⟩

theorem witness_DdrChannels_9 : ∃ (s : State) (c : Nat), (c < 8) ∧ (s.dev.rdAt R.DDRCH.CH_STATUS_STATE c 0 ≠ 0) ∧ (s.dev.rdAt R.DDRCH.CH_STATUS_STATE c 0 ≠ 5) := ⟨(st { (forAll (List.range 8) (fun i d => d.wrAt R.DDRCH.CH_STATUS_STATE i 0 3) ((up.wr R.DDR.DDR_STATUS_READY 1).wr R.DDR.DDR_CTRL_SCRUB_EN 1)) with ddr := { up.ddr with scrubOn := true } }), (7), by and_intros <;> decide +kernel⟩

theorem witness_DdrChannels_9_1 : ∃ (s : State) (c : Nat), (c < 8) ∧ (s.dev.rdAt R.DDRCH.CH_STATUS_STATE c 0 ≠ 0) ∧ (s.dev.rdAt R.DDRCH.CH_STATUS_STATE c 0 ≠ 5) := ⟨(st (({ (forAll (List.range 8) (fun i d => d.wrAt R.DDRCH.CH_STATUS_STATE i 0 3) ((up.wr R.DDR.DDR_STATUS_READY 1).wr R.DDR.DDR_CTRL_SCRUB_EN 1)) with ddr := { up.ddr with scrubOn := true } } : Dev).wrAt R.DDRCH.CH_STATUS_HOT 7 0 1)), (7), by and_intros <;> decide +kernel⟩

theorem witness_DdrChannels_9_2 : ∃ (s : State) (c : Nat), (c < 8) ∧ (s.dev.rdAt R.DDRCH.CH_STATUS_STATE c 0 ≠ 0) ∧ (s.dev.rdAt R.DDRCH.CH_STATUS_STATE c 0 ≠ 5) := ⟨(st { (forAll (List.range 8) (fun i d => d.wrAt R.DDRCH.CH_STATUS_STATE i 0 3) ((up.wr R.DDR.DDR_STATUS_READY 1).wr R.DDR.DDR_CTRL_SCRUB_EN 1)) with ddr := { up.ddr with scrubOn := true } }), (7), by and_intros <;> decide +kernel⟩

theorem witness_DdrChannels_9_3 : ∃ (s : State) (c : Nat), (c < 8) ∧ (s.dev.rdAt R.DDRCH.CH_STATUS_STATE c 0 ≠ 0) ∧ (s.dev.rdAt R.DDRCH.CH_STATUS_STATE c 0 ≠ 5) := ⟨(st (({ (forAll (List.range 8) (fun i d => d.wrAt R.DDRCH.CH_STATUS_STATE i 0 3) ((up.wr R.DDR.DDR_STATUS_READY 1).wr R.DDR.DDR_CTRL_SCRUB_EN 1)) with ddr := { up.ddr with scrubOn := true } } : Dev).wrAt R.DDRCH.CH_STATUS_HOT 7 0 1)), (7), by and_intros <;> decide +kernel⟩

theorem witness_DdrChannels_9_4 : ∃ (s : State) (c : Nat), (c < 8) ∧ (s.dev.rdAt R.DDRCH.CH_STATUS_STATE c 0 ≠ 0) ∧ (s.dev.rdAt R.DDRCH.CH_STATUS_STATE c 0 ≠ 5) := ⟨(st { (forAll (List.range 8) (fun i d => d.wrAt R.DDRCH.CH_STATUS_STATE i 0 3) ((up.wr R.DDR.DDR_STATUS_READY 1).wr R.DDR.DDR_CTRL_SCRUB_EN 1)) with ddr := { up.ddr with scrubOn := true } }), (7), by and_intros <;> decide +kernel⟩

theorem witness_DdrChannels_9_5 : ∃ (s : State) (c : Nat), (c < 8) ∧ (s.dev.rdAt R.DDRCH.CH_STATUS_STATE c 0 ≠ 0) ∧ (s.dev.rdAt R.DDRCH.CH_STATUS_STATE c 0 ≠ 5) := ⟨(st (({ (forAll (List.range 8) (fun i d => d.wrAt R.DDRCH.CH_STATUS_STATE i 0 3) ((up.wr R.DDR.DDR_STATUS_READY 1).wr R.DDR.DDR_CTRL_SCRUB_EN 1)) with ddr := { up.ddr with scrubOn := true } } : Dev).wrAt R.DDRCH.CH_STATUS_HOT 7 0 1)), (7), by and_intros <;> decide +kernel⟩

theorem witness_DdrChannels_9_6 : ∃ (s : State) (c : Nat), (c < 8) ∧ (s.dev.rdAt R.DDRCH.CH_STATUS_STATE c 0 ≠ 0) ∧ (s.dev.rdAt R.DDRCH.CH_STATUS_STATE c 0 ≠ 5) := ⟨(st { (forAll (List.range 8) (fun i d => d.wrAt R.DDRCH.CH_STATUS_STATE i 0 3) ((up.wr R.DDR.DDR_STATUS_READY 1).wr R.DDR.DDR_CTRL_SCRUB_EN 1)) with ddr := { up.ddr with scrubOn := true } }), (7), by and_intros <;> decide +kernel⟩

theorem witness_DdrChannels_9_7 : ∃ (s : State) (c : Nat), (c < 8) ∧ (s.dev.rdAt R.DDRCH.CH_STATUS_STATE c 0 ≠ 0) ∧ (s.dev.rdAt R.DDRCH.CH_STATUS_STATE c 0 ≠ 5) := ⟨(st (({ (forAll (List.range 8) (fun i d => d.wrAt R.DDRCH.CH_STATUS_STATE i 0 3) ((up.wr R.DDR.DDR_STATUS_READY 1).wr R.DDR.DDR_CTRL_SCRUB_EN 1)) with ddr := { up.ddr with scrubOn := true } } : Dev).wrAt R.DDRCH.CH_STATUS_HOT 7 0 1)), (7), by and_intros <;> decide +kernel⟩

theorem witness_DdrChannels_10 : ∃ (s : State) (c : Nat), (c < 8) ∧ ((s.dev.rdAt R.DDRCH.CH_STATUS_STATE c 0 = 0 ∨ s.dev.rdAt R.DDRCH.CH_STATUS_STATE c 0 = 5)) := ⟨(st up), (7), by and_intros <;> decide +kernel⟩

theorem witness_DdrChannels_11 : ∃ (c : Nat), (8 ≤ c) := ⟨(8), by decide +kernel⟩

theorem witness_DdrChannels_12 : ∃ (c : Nat), (8 ≤ c) := ⟨(8), by decide +kernel⟩

theorem witness_DdrChannels_13 : ∃ (c : Nat), (8 ≤ c) := ⟨(8), by decide +kernel⟩

theorem witness_DdrChannels_14 : ∃ (c : Nat), (8 ≤ c) := ⟨(8), by decide +kernel⟩

theorem witness_DdrChannels_15 : ∃ (c : Nat), (8 ≤ c) := ⟨(8), by decide +kernel⟩

theorem witness_EventRegisters_10 : ∃ (d : Dev) (src : Nat), (d.enabled src = false) ∧ (d.raised src = true) ∧ (isSet (d.route src) 12 = true) ∧ (d.evMasked src = false) := ⟨((({ up with evRaised := [(3, 1)], evRoute := [(3, 0x1023)] } : Dev))), (3), by and_intros <;> decide +kernel⟩

theorem witness_EventRegisters_11 : ∃ (s : State) (func : Nat) (off : Nat) (p : Nat) (o : Nat) (b : Nat), (func < 2) ∧ (s.dev.funcUp func = true) ∧ (pageOf func off = (p, o)) ∧ (1 ≤ p) ∧ (p < 5) ∧ (0x40 ≤ o) ∧ (o < 0x80) ∧ (o % 4 = 0) ∧ (b = 512 * (p - 1) + (o - 0x40) * 8) := ⟨(st (up.event 0x603)), (0), (0x4040), (4), (0x40), (1536 + (0x40 - 0x40) * 8), by and_intros <;> decide +kernel⟩

theorem witness_EventRegisters_11_1 : ∃ (s : State) (func : Nat) (off : Nat) (p : Nat) (o : Nat) (b : Nat), (func < 2) ∧ (s.dev.funcUp func = true) ∧ (pageOf func off = (p, o)) ∧ (1 ≤ p) ∧ (p < 5) ∧ (0x40 ≤ o) ∧ (o < 0x80) ∧ (o % 4 = 0) ∧ (b = 512 * (p - 1) + (o - 0x40) * 8) := ⟨(st (up.event 0x603)), (0), (0x4040), (4), (0x40), (1536 + (0x40 - 0x40) * 8), by and_intros <;> decide +kernel⟩

theorem witness_EventRegisters_11_2 : ∃ (s : State) (func : Nat) (off : Nat) (p : Nat) (o : Nat) (b : Nat), (func < 2) ∧ (s.dev.funcUp func = true) ∧ (pageOf func off = (p, o)) ∧ (1 ≤ p) ∧ (p < 5) ∧ (0x40 ≤ o) ∧ (o < 0x80) ∧ (o % 4 = 0) ∧ (b = 512 * (p - 1) + (o - 0x40) * 8) := ⟨(st (up.event 0x603)), (0), (0x407C), (4), (0x7C), (1536 + (0x7C - 0x40) * 8), by and_intros <;> decide +kernel⟩

theorem witness_EventRegisters_11_3 : ∃ (s : State) (func : Nat) (off : Nat) (p : Nat) (o : Nat) (b : Nat), (func < 2) ∧ (s.dev.funcUp func = true) ∧ (pageOf func off = (p, o)) ∧ (1 ≤ p) ∧ (p < 5) ∧ (0x40 ≤ o) ∧ (o < 0x80) ∧ (o % 4 = 0) ∧ (b = 512 * (p - 1) + (o - 0x40) * 8) := ⟨(st (up.event 0x603)), (0), (0x407C), (4), (0x7C), (1536 + (0x7C - 0x40) * 8), by and_intros <;> decide +kernel⟩

theorem witness_EventRegisters_12 : ∃ (s : State) (func : Nat) (off : Nat) (p : Nat) (o : Nat) (b : Nat), (func < 2) ∧ (s.dev.funcUp func = true) ∧ (pageOf func off = (p, o)) ∧ (1 ≤ p) ∧ (p < 5) ∧ (0x80 ≤ o) ∧ (o < 0xC0) ∧ (o % 4 = 0) ∧ (b = 512 * (p - 1) + (o - 0x80) * 8) ∧ ((List.range 32).all (fun j => !s.dev.raised (b + j)) = true) := ⟨(st up), (0), (0x4080), (4), (0x80), (1536 + (0x80 - 0x80) * 8), by and_intros <;> decide +kernel⟩

theorem witness_EventRegisters_12_1 : ∃ (s : State) (func : Nat) (off : Nat) (p : Nat) (o : Nat) (b : Nat), (func < 2) ∧ (s.dev.funcUp func = true) ∧ (pageOf func off = (p, o)) ∧ (1 ≤ p) ∧ (p < 5) ∧ (0x80 ≤ o) ∧ (o < 0xC0) ∧ (o % 4 = 0) ∧ (b = 512 * (p - 1) + (o - 0x80) * 8) ∧ ((List.range 32).all (fun j => !s.dev.raised (b + j)) = true) := ⟨(st up), (0), (0x40BC), (4), (0xBC), (1536 + (0xBC - 0x80) * 8), by and_intros <;> decide +kernel⟩

theorem witness_EventRegisters_13 : ∃ (s : State) (func : Nat) (off : Nat) (p : Nat) (o : Nat) (b : Nat), (func < 2) ∧ (s.dev.funcUp func = true) ∧ (pageOf func off = (p, o)) ∧ (1 ≤ p) ∧ (p < 5) ∧ (0xC0 ≤ o) ∧ (o < 0x100) ∧ (o % 4 = 0) ∧ (b = 512 * (p - 1) + (o - 0xC0) * 8) := ⟨(st up), (0), (0x40C0), (4), (0xC0), (1536 + (0xC0 - 0xC0) * 8), by and_intros <;> decide +kernel⟩

theorem witness_EventRegisters_13_1 : ∃ (s : State) (func : Nat) (off : Nat) (p : Nat) (o : Nat) (b : Nat), (func < 2) ∧ (s.dev.funcUp func = true) ∧ (pageOf func off = (p, o)) ∧ (1 ≤ p) ∧ (p < 5) ∧ (0xC0 ≤ o) ∧ (o < 0x100) ∧ (o % 4 = 0) ∧ (b = 512 * (p - 1) + (o - 0xC0) * 8) := ⟨(st up), (0), (0x40FC), (4), (0xFC), (1536 + (0xFC - 0xC0) * 8), by and_intros <;> decide +kernel⟩

theorem witness_EventRegisters_14 : ∃ (s : State) (func : Nat) (off : Nat) (p : Nat) (o : Nat) (x : Nat), (func < 2) ∧ (s.dev.funcUp func = true) ∧ (pageOf func off = (p, o)) ∧ (1 ≤ p) ∧ (p < 5) ∧ (0x800 ≤ o) ∧ (o % 4 = 0) ∧ (x = 512 * (p - 1) + (o - 0x800) / 4) ∧ (evAssigned x = false) := ⟨(st up), (0), (0x4FFC), (4), (0xFFC), (2047), by and_intros <;> decide +kernel⟩

theorem witness_EventRegisters_15 : ∃ (s : State) (func : Nat) (off : Nat) (p : Nat) (o : Nat) (w : Nat) (x : Nat), (func < 2) ∧ (s.dev.funcUp func = true) ∧ (pageOf func off = (p, o)) ∧ (1 ≤ p) ∧ (p < 5) ∧ (0x800 ≤ o) ∧ (o % 4 = 0) ∧ (x = 512 * (p - 1) + (o - 0x800) / 4) ∧ (evAssigned x = true) ∧ (bitAt w 11 = 1) ∧ (31 < w % 2 ^ 11) := ⟨(st up), (0), (0x480C), (4), (0x80C), (0x1823), (0x603), by and_intros <;> decide +kernel⟩

theorem witness_EventRegisters_16 : ∃ (s : State) (func : Nat) (off : Nat) (p : Nat) (o : Nat) (w : Nat) (x : Nat), (func < 2) ∧ (s.dev.funcUp func = true) ∧ (pageOf func off = (p, o)) ∧ (1 ≤ p) ∧ (p < 5) ∧ (0x800 ≤ o) ∧ (o % 4 = 0) ∧ (x = 512 * (p - 1) + (o - 0x800) / 4) ∧ (evAssigned x = true) ∧ ((bitAt w 11 = 0 ∨ w % 2 ^ 11 ≤ 31)) := ⟨(st up), (0), (0x480C), (4), (0x80C), (0x5023), (0x603), by and_intros <;> decide +kernel⟩

theorem witness_EventRegisters_16_1 : ∃ (s : State) (func : Nat) (off : Nat) (p : Nat) (o : Nat) (w : Nat) (x : Nat), (func < 2) ∧ (s.dev.funcUp func = true) ∧ (pageOf func off = (p, o)) ∧ (1 ≤ p) ∧ (p < 5) ∧ (0x800 ≤ o) ∧ (o % 4 = 0) ∧ (x = 512 * (p - 1) + (o - 0x800) / 4) ∧ (evAssigned x = true) ∧ ((bitAt w 11 = 0 ∨ w % 2 ^ 11 ≤ 31)) := ⟨(st up), (0), (0x480C), (4), (0x80C), (0x181F), (0x603), by and_intros <;> decide +kernel⟩

theorem witness_EngineQueues_0 : ∃ (s : State) (q : Nat) (w : Nat), (q < 64) ∧ (s.dev.reaches (0x108 + q) = true) ∧ ((2 ^ 32 + w % 2 ^ 32 - s.dev.rdAt R.ENGQ.SQ_TAIL q 0) % 2 ^ 32 ≤ s.dev.qSize q) ∧ ((2 ^ 32 + w % 2 ^ 32 - s.dev.rdAt R.ENGQ.SQ_HEAD q 0) % 2 ^ 32 ≤ s.dev.qSize q) := ⟨(st (((up.wrAt R.ENGQ.Q_CTRL_SIZE_LOG2 63 0 4).wrAt R.ENGQ.SQ_TAIL 63 0 (2 ^ 32 - 1)).wrAt R.ENGQ.SQ_HEAD 63 0 (2 ^ 32 - 1))), (63), (15), by and_intros <;> decide +kernel⟩

theorem witness_EngineQueues_1 : ∃ (s : State) (q : Nat) (w : Nat), (q < 64) ∧ (s.dev.reaches (0x108 + q) = true) ∧ ((s.dev.qSize q < (2 ^ 32 + w % 2 ^ 32 - s.dev.rdAt R.ENGQ.SQ_TAIL q 0) % 2 ^ 32 ∨ s.dev.qSize q < (2 ^ 32 + w % 2 ^ 32 - s.dev.rdAt R.ENGQ.SQ_HEAD q 0) % 2 ^ 32)) := ⟨(st (((up.wrAt R.ENGQ.Q_CTRL_SIZE_LOG2 63 0 4).wrAt R.ENGQ.SQ_TAIL 63 0 (2 ^ 32 - 1)).wrAt R.ENGQ.SQ_HEAD 63 0 (2 ^ 32 - 1))), (63), (16), by and_intros <;> decide +kernel⟩

theorem witness_EngineQueues_1_1 : ∃ (s : State) (q : Nat) (w : Nat), (q < 64) ∧ (s.dev.reaches (0x108 + q) = true) ∧ ((s.dev.qSize q < (2 ^ 32 + w % 2 ^ 32 - s.dev.rdAt R.ENGQ.SQ_TAIL q 0) % 2 ^ 32 ∨ s.dev.qSize q < (2 ^ 32 + w % 2 ^ 32 - s.dev.rdAt R.ENGQ.SQ_HEAD q 0) % 2 ^ 32)) := ⟨(st ((((up.wrAt R.ENGQ.Q_CTRL_SIZE_LOG2 63 0 4).wrAt R.ENGQ.SQ_TAIL 63 0 (2 ^ 32 - 1)).wrAt R.ENGQ.SQ_HEAD 63 0 (2 ^ 32 - 1)).wrAt R.ENGQ.SQ_HEAD 63 0 (2 ^ 32 - 2))), (63), (15), by and_intros <;> decide +kernel⟩

theorem witness_EngineQueues_2 : ∃ (s : State) (q : Nat) (w : Nat), (q < 64) ∧ (s.dev.reaches (0x108 + q) = true) ∧ ((2 ^ 32 + s.dev.rdAt R.ENGQ.CQ_TAIL q 0 - s.dev.rdAt R.ENGQ.CQ_HEAD q 0) % 2 ^ 32 < (2 ^ 32 + w % 2 ^ 32 - s.dev.rdAt R.ENGQ.CQ_HEAD q 0) % 2 ^ 32) := ⟨(st ((((up.wrAt R.ENGQ.Q_CTRL_SIZE_LOG2 63 0 4).wrAt R.ENGQ.CQ_TAIL 63 0 15).wrAt R.ENGQ.CQ_HEAD 63 0 (2 ^ 32 - 1)).wrAt R.ENGQ.Q_STATUS_CQ_FULL 63 0 1)), (63), (16), by and_intros <;> decide +kernel⟩

theorem witness_EngineQueues_3 : ∃ (s : State) (q : Nat) (w : Nat), (q < 64) ∧ (s.dev.reaches (0x108 + q) = true) ∧ ((2 ^ 32 + w % 2 ^ 32 - s.dev.rdAt R.ENGQ.CQ_HEAD q 0) % 2 ^ 32 ≤ (2 ^ 32 + s.dev.rdAt R.ENGQ.CQ_TAIL q 0 - s.dev.rdAt R.ENGQ.CQ_HEAD q 0) % 2 ^ 32) := ⟨(st ((((up.wrAt R.ENGQ.Q_CTRL_SIZE_LOG2 63 0 4).wrAt R.ENGQ.CQ_TAIL 63 0 15).wrAt R.ENGQ.CQ_HEAD 63 0 (2 ^ 32 - 1)).wrAt R.ENGQ.Q_STATUS_CQ_FULL 63 0 1)), (63), (15), by and_intros <;> decide +kernel⟩

theorem witness_EngineQueues_3_1 : ∃ (s : State) (q : Nat) (w : Nat), (q < 64) ∧ (s.dev.reaches (0x108 + q) = true) ∧ ((2 ^ 32 + w % 2 ^ 32 - s.dev.rdAt R.ENGQ.CQ_HEAD q 0) % 2 ^ 32 ≤ (2 ^ 32 + s.dev.rdAt R.ENGQ.CQ_TAIL q 0 - s.dev.rdAt R.ENGQ.CQ_HEAD q 0) % 2 ^ 32) := ⟨(st ((((up.wrAt R.ENGQ.Q_CTRL_SIZE_LOG2 63 0 4).wrAt R.ENGQ.CQ_TAIL 63 0 15).wrAt R.ENGQ.CQ_HEAD 63 0 (2 ^ 32 - 1)).wrAt R.ENGQ.Q_STATUS_CQ_FULL 63 0 1)), (63), (2 ^ 32 - 1), by and_intros <;> decide +kernel⟩

theorem witness_EngineQueues_4 : ∃ (s : State) (q : Nat) (w : Nat), (q < 64) ∧ (s.dev.reaches (0x108 + q) = true) ∧ (bitAt w 13 = 0) ∧ (s.dev.rdAt R.ENGQ.Q_CTRL_ENABLE q 0 = 1) := ⟨(st (up.wrAt R.ENGQ.Q_CTRL_ENABLE 63 0 1)), (63), (0), by and_intros <;> decide +kernel⟩

theorem witness_EngineQueues_4_1 : ∃ (s : State) (q : Nat) (w : Nat), (q < 64) ∧ (s.dev.reaches (0x108 + q) = true) ∧ (bitAt w 13 = 0) ∧ (s.dev.rdAt R.ENGQ.Q_CTRL_ENABLE q 0 = 1) := ⟨(st (up.wrAt R.ENGQ.Q_CTRL_ENABLE 63 0 1)), (63), (1), by and_intros <;> decide +kernel⟩

theorem witness_EngineQueues_5 : ∃ (s : State) (q : Nat) (w : Nat), (q < 64) ∧ (s.dev.reaches (0x108 + q) = true) ∧ (bitAt w 13 = 0) ∧ (s.dev.rdAt R.ENGQ.Q_CTRL_ENABLE q 0 ≠ 1) ∧ (q ∈ s.dev.eng.resetting) := ⟨(st { up with eng := { up.eng with resetting := [63] } }), (63), (0), by and_intros <;> decide +kernel⟩

theorem witness_EngineQueues_6 : ∃ (s : State) (q : Nat) (w : Nat), (q < 64) ∧ (s.dev.reaches (0x108 + q) = true) ∧ (bitAt w 13 = 0) ∧ (s.dev.rdAt R.ENGQ.Q_CTRL_ENABLE q 0 ≠ 1) ∧ (q ∉ s.dev.eng.resetting) := ⟨(st up), (63), (0x10), by and_intros <;> decide +kernel⟩

theorem witness_EngineQueues_6_1 : ∃ (s : State) (q : Nat) (w : Nat), (q < 64) ∧ (s.dev.reaches (0x108 + q) = true) ∧ (bitAt w 13 = 0) ∧ (s.dev.rdAt R.ENGQ.Q_CTRL_ENABLE q 0 ≠ 1) ∧ (q ∉ s.dev.eng.resetting) := ⟨(st up), (63), (0x11), by and_intros <;> decide +kernel⟩

theorem witness_EngineQueues_6_2 : ∃ (s : State) (q : Nat) (w : Nat), (q < 64) ∧ (s.dev.reaches (0x108 + q) = true) ∧ (bitAt w 13 = 0) ∧ (s.dev.rdAt R.ENGQ.Q_CTRL_ENABLE q 0 ≠ 1) ∧ (q ∉ s.dev.eng.resetting) := ⟨(st up), (63), (0x13), by and_intros <;> decide +kernel⟩

theorem witness_EngineQueues_6_3 : ∃ (s : State) (q : Nat) (w : Nat), (q < 64) ∧ (s.dev.reaches (0x108 + q) = true) ∧ (bitAt w 13 = 0) ∧ (s.dev.rdAt R.ENGQ.Q_CTRL_ENABLE q 0 ≠ 1) ∧ (q ∉ s.dev.eng.resetting) := ⟨(st up), (63), (0x0D), by and_intros <;> decide +kernel⟩

theorem witness_EngineQueues_7 : ∃ (d : Dev) (q : Nat), (d.queueFits q = true) := ⟨(up.wrAt R.ENGQ.Q_CTRL_SIZE_LOG2 63 0 16), (63), by decide +kernel⟩

theorem witness_EngineQueues_8 : ∃ (s : State) (q : Nat), (q < 64) ∧ (s.dev.reaches (0x108 + q) = true) ∧ (s.dev.queueItems q ≠ []) := ⟨(st (holding [item 1 3 .running (desc 1 0 0 64), item 2 32 .ready (desc 1 0 0 64), item 3 32 .matching (desc 1 0 0 64), item 4 3 .finished (desc 1 0 0 64)])), (63), by and_intros <;> decide +kernel⟩

theorem witness_EngineQueues_9 : ∃ (s : State) (q : Nat), (q < 64) ∧ (s.dev.reaches (0x108 + q) = true) ∧ (s.dev.queueItems q = []) := ⟨(st { up with eng := { up.eng with resetting := [63] } }), (63), by and_intros <;> decide +kernel⟩

theorem witness_EngineQueues_10 : ∃ (s : State) (q : Nat), (q < 64) ∧ (s.dev.mayFetch q = false) := ⟨(st up), (63), by and_intros <;> decide +kernel⟩

theorem witness_EngineQueues_11 : ∃ (s : State) (q : Nat) (t : Nat) (v : MemView) (bs : Bytes) (d1 : Dev), (q < 64) ∧ (s.dev.mayFetch q = true) ∧ ((s.dev.toTime t).queueRead q (64 * (s.dev.rdAt R.ENGQ.SQ_HEAD q 0 % s.dev.qSize q)) v = (.done bs, d1)) ∧ (leAt bs 4 1 % 8 ≠ 0) ∧ (8192 ≤ s.dev.matchUsed) := ⟨(st { ((((holding [item 7 32 .ready (desc 1 0 0 64)]).wrAt R.ENGQ.Q_CTRL_SIZE_LOG2 63 0 4).wrAt R.ENGQ.Q_CTRL_ENABLE 63 0 1).wrAt R.ENGQ.SQ_TAIL 63 0 1) with eng := { ((((holding [item 7 32 .ready (desc 1 0 0 64)]).wrAt R.ENGQ.Q_CTRL_SIZE_LOG2 63 0 4).wrAt R.ENGQ.Q_CTRL_ENABLE 63 0 1).wrAt R.ENGQ.SQ_TAIL 63 0 1).eng with items := List.replicate 8192 { item 7 32 .matching [] with queue := 0 } } }), (63), (5), (view (put 4 [1] (put 8 [7] (desc 0 0 0 0)))), (put 4 [1] (put 8 [7] (desc 0 0 0 0))), (_), ⟨by decide +kernel, by decide +kernel, split_1_2 (by decide +kernel), by decide +kernel, (by (show 8192 ≤ ((List.replicate 8192 ({ item 7 32 .matching [] with queue := 0 } : Item)).filter fun i => decide (i.stand = .matching)).length; exact Nat.le_of_eq (by rw [List.filter_replicate_of_pos (by decide), List.length_replicate])))⟩⟩

theorem witness_EngineQueues_12 : ∃ (s : State) (q : Nat) (t : Nat) (v : MemView) (bs : Bytes) (d1 : Dev) (i : Item), (q < 64) ∧ (s.dev.mayFetch q = true) ∧ ((s.dev.toTime t).queueRead q (64 * (s.dev.rdAt R.ENGQ.SQ_HEAD q 0 % s.dev.qSize q)) v = (.done bs, d1)) ∧ (leAt bs 4 1 % 8 = 0 ∨ s.dev.matchUsed < 8192) ∧ (i = { (default : Item) with id := s.dev.eng.nextId, queue := q, desc := bs, stand := .matching, engine := 32 }) := ⟨(st { ((((holding [item 7 32 .ready (desc 1 0 0 64)]).wrAt R.ENGQ.Q_CTRL_SIZE_LOG2 63 0 4).wrAt R.ENGQ.Q_CTRL_ENABLE 63 0 1).wrAt R.ENGQ.SQ_TAIL 63 0 1).wrAt R.ENGQ.Q_CTRL_LOC 63 0 1 with eng := { ((((holding [item 7 32 .ready (desc 1 0 0 64)]).wrAt R.ENGQ.Q_CTRL_SIZE_LOG2 63 0 4).wrAt R.ENGQ.Q_CTRL_ENABLE 63 0 1).wrAt R.ENGQ.SQ_TAIL 63 0 1).eng with sram := SMap.store [] 0 (desc 0 0 0 0) } }), (63), (5), (default), (desc 0 0 0 0), (_), ({ (default : Item) with id := 100, queue := 63, desc := desc 0 0 0 0, stand := .matching, engine := 32 }), ⟨by decide +kernel, by decide +kernel, split_1_2 (by decide +kernel), by and_intros <;> decide +kernel⟩⟩

theorem witness_EngineQueues_12_1 : ∃ (s : State) (q : Nat) (t : Nat) (v : MemView) (bs : Bytes) (d1 : Dev) (i : Item), (q < 64) ∧ (s.dev.mayFetch q = true) ∧ ((s.dev.toTime t).queueRead q (64 * (s.dev.rdAt R.ENGQ.SQ_HEAD q 0 % s.dev.qSize q)) v = (.done bs, d1)) ∧ (leAt bs 4 1 % 8 = 0 ∨ s.dev.matchUsed < 8192) ∧ (i = { (default : Item) with id := s.dev.eng.nextId, queue := q, desc := bs, stand := .matching, engine := 32 }) := ⟨(st { ((((holding [item 7 32 .ready (desc 1 0 0 64)]).wrAt R.ENGQ.Q_CTRL_SIZE_LOG2 63 0 4).wrAt R.ENGQ.Q_CTRL_ENABLE 63 0 1).wrAt R.ENGQ.SQ_TAIL 63 0 1).wrAt R.ENGQ.Q_CTRL_LOC 63 0 1 with eng := { ((((holding [item 7 32 .ready (desc 1 0 0 64)]).wrAt R.ENGQ.Q_CTRL_SIZE_LOG2 63 0 4).wrAt R.ENGQ.Q_CTRL_ENABLE 63 0 1).wrAt R.ENGQ.SQ_TAIL 63 0 1).eng with sram := SMap.store [] 0 (desc 0x10 0 0 0) } }), (63), (5), (default), (desc 0x10 0 0 0), (_), ({ (default : Item) with id := 100, queue := 63, desc := desc 0x10 0 0 0, stand := .matching, engine := 32 }), ⟨by decide +kernel, by decide +kernel, split_1_2 (by decide +kernel), by and_intros <;> decide +kernel⟩⟩

theorem witness_EngineQueues_12_2 : ∃ (s : State) (q : Nat) (t : Nat) (v : MemView) (bs : Bytes) (d1 : Dev) (i : Item), (q < 64) ∧ (s.dev.mayFetch q = true) ∧ ((s.dev.toTime t).queueRead q (64 * (s.dev.rdAt R.ENGQ.SQ_HEAD q 0 % s.dev.qSize q)) v = (.done bs, d1)) ∧ (leAt bs 4 1 % 8 = 0 ∨ s.dev.matchUsed < 8192) ∧ (i = { (default : Item) with id := s.dev.eng.nextId, queue := q, desc := bs, stand := .matching, engine := 32 }) := ⟨(st { ((((holding [item 7 32 .ready (desc 1 0 0 64)]).wrAt R.ENGQ.Q_CTRL_SIZE_LOG2 63 0 4).wrAt R.ENGQ.Q_CTRL_ENABLE 63 0 1).wrAt R.ENGQ.SQ_TAIL 63 0 1).wrAt R.ENGQ.Q_CTRL_LOC 63 0 1 with eng := { ((((holding [item 7 32 .ready (desc 1 0 0 64)]).wrAt R.ENGQ.Q_CTRL_SIZE_LOG2 63 0 4).wrAt R.ENGQ.Q_CTRL_ENABLE 63 0 1).wrAt R.ENGQ.SQ_TAIL 63 0 1).eng with sram := SMap.store [] 0 (put 4 [1] (put 8 [7] (desc 0 0 0 0))) } }), (63), (5), (default), (put 4 [1] (put 8 [7] (desc 0 0 0 0))), (_), ({ (default : Item) with id := 100, queue := 63, desc := put 4 [1] (put 8 [7] (desc 0 0 0 0)), stand := .matching, engine := 32 }), ⟨by decide +kernel, by decide +kernel, split_1_2 (by decide +kernel), by and_intros <;> decide +kernel⟩⟩

theorem witness_EngineQueues_12_3 : ∃ (s : State) (q : Nat) (t : Nat) (v : MemView) (bs : Bytes) (d1 : Dev) (i : Item), (q < 64) ∧ (s.dev.mayFetch q = true) ∧ ((s.dev.toTime t).queueRead q (64 * (s.dev.rdAt R.ENGQ.SQ_HEAD q 0 % s.dev.qSize q)) v = (.done bs, d1)) ∧ (leAt bs 4 1 % 8 = 0 ∨ s.dev.matchUsed < 8192) ∧ (i = { (default : Item) with id := s.dev.eng.nextId, queue := q, desc := bs, stand := .matching, engine := 32 }) := ⟨(st ((((holding [item 7 32 .ready (desc 1 0 0 64)]).wrAt R.ENGQ.Q_CTRL_SIZE_LOG2 63 0 4).wrAt R.ENGQ.Q_CTRL_ENABLE 63 0 1).wrAt R.ENGQ.SQ_TAIL 63 0 1)), (63), (5), (view (desc 0 0 0 0)), (desc 0 0 0 0), (_), ({ (default : Item) with id := 100, queue := 63, desc := desc 0 0 0 0, stand := .matching, engine := 32 }), ⟨by decide +kernel, by decide +kernel, split_1_2 (by decide +kernel), by and_intros <;> decide +kernel⟩⟩

theorem witness_EngineQueues_13 : ∃ (s : State) (q : Nat) (t : Nat) (v : MemView) (r : Dma) (d1 : Dev), (q < 64) ∧ (s.dev.mayFetch q = true) ∧ ((s.dev.toTime t).queueRead q (64 * (s.dev.rdAt R.ENGQ.SQ_HEAD q 0 % s.dev.qSize q)) v = (r, d1)) ∧ ((∀ bs, r ≠ .done bs)) := ⟨(st (((((holding [item 7 32 .ready (desc 1 0 0 64)]).wrAt R.ENGQ.Q_CTRL_SIZE_LOG2 63 0 4).wrAt R.ENGQ.Q_CTRL_ENABLE 63 0 1).wrAt R.ENGQ.SQ_TAIL 63 0 1).wrAt R.DMMU.CTX_ROOT_ROOT_TARGET 0 0 1)), (63), (5), (default), (.xlate 6 0), (_), ⟨by decide +kernel, by decide +kernel, split_1_2 (by decide +kernel), fun bs => by simp⟩⟩

theorem witness_EngineQueues_13_1 : ∃ (s : State) (q : Nat) (t : Nat) (v : MemView) (r : Dma) (d1 : Dev), (q < 64) ∧ (s.dev.mayFetch q = true) ∧ ((s.dev.toTime t).queueRead q (64 * (s.dev.rdAt R.ENGQ.SQ_HEAD q 0 % s.dev.qSize q)) v = (r, d1)) ∧ ((∀ bs, r ≠ .done bs)) := ⟨(st { ((((holding [item 7 32 .ready (desc 1 0 0 64)]).wrAt R.ENGQ.Q_CTRL_SIZE_LOG2 63 0 4).wrAt R.ENGQ.Q_CTRL_ENABLE 63 0 1).wrAt R.ENGQ.SQ_TAIL 63 0 1).wrAt R.DMMU.CTX_ROOT_ROOT_TARGET 0 0 0 with host := up.host }), (63), (5), (default), (.wait), (_), ⟨by decide +kernel, by decide +kernel, split_1_2 (by decide +kernel), fun bs => by simp⟩⟩

theorem witness_EngineQueues_14 : ∃ (d : Dev) (q : Nat), (d.rdAt R.ENGQ.Q_CTRL_LOC q 0 = 1) := ⟨(({ ((((holding [item 7 32 .ready (desc 1 0 0 64)]).wrAt R.ENGQ.Q_CTRL_SIZE_LOG2 63 0 4).wrAt R.ENGQ.Q_CTRL_ENABLE 63 0 1).wrAt R.ENGQ.SQ_TAIL 63 0 1).wrAt R.ENGQ.Q_CTRL_LOC 63 0 1 with eng := { ((((holding [item 7 32 .ready (desc 1 0 0 64)]).wrAt R.ENGQ.Q_CTRL_SIZE_LOG2 63 0 4).wrAt R.ENGQ.Q_CTRL_ENABLE 63 0 1).wrAt R.ENGQ.SQ_TAIL 63 0 1).eng with sram := SMap.store [] 0 ([1]) } })), (63), by decide +kernel⟩

theorem witness_EngineQueues_15 : ∃ (q : Nat), (64 ≤ q) := ⟨(64), by decide +kernel⟩

theorem witness_EngineQueues_16 : ∃ (q : Nat), (64 ≤ q) := ⟨(64), by decide +kernel⟩

theorem witness_EngineQueues_17 : ∃ (q : Nat), (64 ≤ q) := ⟨(64), by decide +kernel⟩

theorem witness_EngineQueues_18 : ∃ (q : Nat), (64 ≤ q) := ⟨(64), by decide +kernel⟩

theorem witness_EngineQueues_19 : ∃ (q : Nat), (64 ≤ q) := ⟨(64), by decide +kernel⟩

theorem witness_EngineItems_0 : ∃ (s : State) (w : Nat), (s.dev.reaches 0x104 = true) ∧ (fieldAt w 0 16 = 0) := ⟨(st up), (2 ^ 16), by and_intros <;> decide +kernel⟩

theorem witness_EngineItems_1 : ∃ (s : State) (w : Nat), (s.dev.reaches 0x104 = true) ∧ (fieldAt w 0 16 ≠ 0) ∧ (SMap.get s.dev.eng.tokens (fieldAt w 0 16) + fieldAt w 16 8 ≤ 255) := ⟨(st { up with eng := { up.eng with tokens := [(7, 200)] } }), (55 * 2 ^ 16 + 7), by and_intros <;> decide +kernel⟩

theorem witness_EngineItems_1_1 : ∃ (s : State) (w : Nat), (s.dev.reaches 0x104 = true) ∧ (fieldAt w 0 16 ≠ 0) ∧ (SMap.get s.dev.eng.tokens (fieldAt w 0 16) + fieldAt w 16 8 ≤ 255) := ⟨(st (holding [item 7 32 .matching (put 4 [1] (put 8 [7] (desc 0 0 0 0)))])), (2 ^ 16 + 7), by and_intros <;> decide +kernel⟩

theorem witness_EngineItems_2 : ∃ (s : State) (w : Nat), (s.dev.reaches 0x104 = true) ∧ (fieldAt w 0 16 ≠ 0) ∧ (255 < SMap.get s.dev.eng.tokens (fieldAt w 0 16) + fieldAt w 16 8) := ⟨(st { up with eng := { up.eng with tokens := [(7, 200)] } }), (56 * 2 ^ 16 + 7), by and_intros <;> decide +kernel⟩

theorem witness_EngineItems_3 : ∃ (d : Dev) (i : Item), (d.itemsWf = true) ∧ ((d.eng.items.filter fun x => decide (x.stand = .matching)) = [i]) ∧ (distinct i.tokens = true) ∧ ((∀ x, x ∈ i.tokens → 1 ≤ SMap.get d.eng.tokens x)) := ⟨({ (holding [item 7 32 .matching (put 4 [1] (put 8 [7] (desc 0 0 0 0)))]) with eng := { (holding [item 7 32 .matching (put 4 [1] (put 8 [7] (desc 0 0 0 0)))]).eng with tokens := [(7, 2)] } }), (item 7 32 .matching (put 4 [1] (put 8 [7] (desc 0 0 0 0)))), by and_intros <;> decide +kernel⟩

theorem witness_EngineItems_4 : ∃ (d : Dev), ((∀ i, i ∈ d.eng.items → i.stand = .matching → ∃ x, x ∈ i.tokens ∧ SMap.get d.eng.tokens x = 0)) := ⟨((holding [item 7 32 .matching (put 4 [1] (put 8 [7] (desc 0 0 0 0)))])), by simp only [holding]; decide +kernel⟩

theorem witness_EngineItems_5 : ∃ (d : Dev) (i : Item), (d.readyHead = some i) := ⟨(holding [item 1 32 .ready (desc 1 0 1 64), item 2 32 .ready (desc 1 0 3 64), { item 3 32 .ready (desc 1 0 3 64) with order := 1 }]), (item 2 32 .ready (desc 1 0 3 64)), by decide +kernel⟩

theorem witness_EngineItems_6 : ∃ (s : State) (e : Nat), (e < 32) ∧ ((s.dev.readyHead = none ∨ s.dev.enginesHeld = true)) := ⟨(st (holding [])), (31), by and_intros <;> decide +kernel⟩

theorem witness_EngineItems_6_1 : ∃ (s : State) (e : Nat), (e < 32) ∧ ((s.dev.readyHead = none ∨ s.dev.enginesHeld = true)) := ⟨(st ((holding [item 1 32 .ready (desc 1 0 1 64), item 2 32 .ready (desc 1 0 3 64), { item 3 32 .ready (desc 1 0 3 64) with order := 1 }]).wr R.POWER.PWR_STATUS_STATE 2)), (31), by and_intros <;> decide +kernel⟩

theorem witness_EngineItems_7 : ∃ (s : State) (e : Nat) (t : Nat) (i : Item) (g : Gate) (d1 : Dev), (e < 32) ∧ (s.dev.readyHead = some i) ∧ (s.dev.enginesHeld = false) ∧ ((s.dev.toTime t).gateway 0x59 0x14C 0 true = (g, d1)) ∧ (g ≠ .pass) := ⟨(st ((holding [item 1 32 .ready (desc 1 0 1 64), item 2 32 .ready (desc 1 0 3 64), { item 3 32 .ready (desc 1 0 3 64) with order := 1 }]).wrAt R.POWER.DOM_STATUS_STATE 0 0x59 0)), (31), (5), (item 2 32 .ready (desc 1 0 3 64)), (.held), (_), ⟨by decide +kernel, by decide +kernel, by decide +kernel, split_1_2 (by decide +kernel), by decide +kernel⟩⟩

theorem witness_EngineItems_8 : ∃ (s : State) (e : Nat) (i : Item), (e < 32) ∧ (s.dev.readyHead = some i) ∧ (s.dev.enginesHeld = false) ∧ (s.dev.domState 0x59 = 2) ∧ (s.dev.engineIdle e = true) ∧ (s.dev.itemsWf = true) := ⟨(st (holding [item 1 32 .ready (desc 1 0 1 64), item 2 32 .ready (desc 1 0 3 64), { item 3 32 .ready (desc 1 0 3 64) with order := 1 }])), (31), (item 2 32 .ready (desc 1 0 3 64)), by and_intros <;> decide +kernel⟩

theorem witness_EngineItems_8_1 : ∃ (s : State) (e : Nat) (i : Item), (e < 32) ∧ (s.dev.readyHead = some i) ∧ (s.dev.enginesHeld = false) ∧ (s.dev.domState 0x59 = 2) ∧ (s.dev.engineIdle e = true) ∧ (s.dev.itemsWf = true) := ⟨(st ((holding [item 2 32 .ready (desc 7 0 3 128)]).wr R.TAKE.TAKE_NUMBER 4)), (31), (item 2 32 .ready (desc 7 0 3 128)), by and_intros <;> decide +kernel⟩

theorem witness_EngineItems_8_2 : ∃ (s : State) (e : Nat) (i : Item), (e < 32) ∧ (s.dev.readyHead = some i) ∧ (s.dev.enginesHeld = false) ∧ (s.dev.domState 0x59 = 2) ∧ (s.dev.engineIdle e = true) ∧ (s.dev.itemsWf = true) := ⟨(st ((holding [item 2 32 .ready (desc 7 0 3 128)]).wr R.TAKE.TAKE_NUMBER 5)), (31), (item 2 32 .ready (desc 7 0 3 128)), by and_intros <;> decide +kernel⟩

theorem witness_EngineItems_9 : ∃ (s : State) (e : Nat) (i : Item), (e < 32) ∧ (s.dev.readyHead = some i) ∧ (s.dev.enginesHeld = false) ∧ (s.dev.domState 0x59 = 2) ∧ (s.dev.engineIdle e = false) ∧ ((List.range 32).any s.dev.engineIdle = true) := ⟨(st (holding (item 0 31 .running (desc 1 0 0 64) :: [item 1 32 .ready (desc 1 0 1 64), item 2 32 .ready (desc 1 0 3 64), { item 3 32 .ready (desc 1 0 3 64) with order := 1 }]))), (31), (item 2 32 .ready (desc 1 0 3 64)), by and_intros <;> decide +kernel⟩

theorem witness_EngineItems_10 : ∃ (s : State) (e : Nat) (i : Item), (e < 32) ∧ (s.dev.readyHead = some i) ∧ (s.dev.enginesHeld = false) ∧ (s.dev.domState 0x59 = 2) ∧ ((List.range 32).any s.dev.engineIdle = false) ∧ (s.dev.victim i.prio = some e) ∧ (s.dev.itemsWf = true) := ⟨(st (holding ((List.range 32).map (fun e => item e e .running (desc 1 0 1 64)) ++ [item 50 32 .ready (desc 1 0 2 64)]))), (0), (item 50 32 .ready (desc 1 0 2 64)), by and_intros <;> decide +kernel⟩

theorem witness_EngineItems_11 : ∃ (s : State) (e : Nat), (e < 32) ∧ (s.dev.runningOn e = none) := ⟨(st (holding [])), (31), by and_intros <;> decide +kernel⟩

theorem witness_EngineItems_12 : ∃ (s : State) (e : Nat) (t : Nat) (i : Item), (e < 32) ∧ (s.dev.runningOn e = some i) ∧ ((s.dev.toTime t).pointReached i = false) := ⟨(st (holding [{ item 1 31 .running (desc 1 0 1 8192) with done := 4095 }])), (31), (5), ({ item 1 31 .running (desc 1 0 1 8192) with done := 4095 }), by and_intros <;> decide +kernel⟩

theorem witness_EngineItems_13 : ∃ (s : State) (e : Nat) (t : Nat) (i : Item), (e < 32) ∧ (s.dev.runningOn e = some i) ∧ ((s.dev.toTime t).pointReached i = true) ∧ (i.queue ∈ s.dev.eng.resetting) ∧ (s.dev.itemsWf = true) := ⟨(st { holding [{ item 1 31 .running (desc 1 0 1 8192) with done := 4096 }] with eng := { (holding [{ item 1 31 .running (desc 1 0 1 8192) with done := 4096 }]).eng with resetting := [63] } }), (31), (5), ({ item 1 31 .running (desc 1 0 1 8192) with done := 4096 }), by and_intros <;> decide +kernel⟩

theorem witness_EngineItems_15 : ∃ (s : State) (e : Nat) (t : Nat) (i : Item), (e < 32) ∧ (s.dev.runningOn e = some i) ∧ ((s.dev.toTime t).pointReached i = true) ∧ (i.queue ∉ s.dev.eng.resetting) ∧ (s.dev.enginesHeld = false) ∧ ((∀ p, s.dev.prefetched e = some p → p.prio ≤ i.prio)) := ⟨(st (holding [{ item 1 31 .running (desc 1 0 1 8192) with done := 4096 }])), (31), (5), ({ item 1 31 .running (desc 1 0 1 8192) with done := 4096 }), by and_intros <;> decide +kernel⟩

theorem witness_EngineItems_15_1 : ∃ (s : State) (e : Nat) (t : Nat) (i : Item), (e < 32) ∧ (s.dev.runningOn e = some i) ∧ ((s.dev.toTime t).pointReached i = true) ∧ (i.queue ∉ s.dev.eng.resetting) ∧ (s.dev.enginesHeld = false) ∧ ((∀ p, s.dev.prefetched e = some p → p.prio ≤ i.prio)) := ⟨(st (holding [{ item 1 31 .running (desc 1 0 1 8192) with done := 4096 }, item 2 31 .prefetch (desc 1 0 1 64)])), (31), (5), ({ item 1 31 .running (desc 1 0 1 8192) with done := 4096 }), ⟨by decide +kernel, by decide +kernel, ⟨by decide +kernel, by decide +kernel, by decide +kernel, fun p hp => by (cases Option.some.inj ((show (st (holding [{ item 1 31 .running (desc 1 0 1 8192) with done := 4096 }, item 2 31 .prefetch (desc 1 0 1 64)])).dev.prefetched 31 = some (item 2 31 .prefetch (desc 1 0 1 64)) by decide +kernel).symm.trans hp); decide +kernel)⟩⟩⟩

theorem witness_EngineItems_14 : ∃ (s : State) (e : Nat) (t : Nat) (i : Item), (e < 32) ∧ (s.dev.runningOn e = some i) ∧ ((s.dev.toTime t).pointReached i = true) ∧ (i.queue ∉ s.dev.eng.resetting) ∧ (s.dev.enginesHeld = true) := ⟨(st ((holding [{ item 1 31 .running (desc 1 0 1 8192) with done := 4096 }]).wr R.POWER.PWR_STATUS_STATE 2)), (31), (5), ({ item 1 31 .running (desc 1 0 1 8192) with done := 4096 }), by and_intros <;> decide +kernel⟩

theorem witness_EngineItems_16 : ∃ (s : State) (e : Nat) (t : Nat) (i : Item) (p : Item), (e < 32) ∧ (s.dev.runningOn e = some i) ∧ ((s.dev.toTime t).pointReached i = true) ∧ (i.queue ∉ s.dev.eng.resetting) ∧ (s.dev.enginesHeld = false) ∧ (s.dev.prefetched e = some p) ∧ (i.prio < p.prio) ∧ (s.dev.itemsWf = true) ∧ (p.ty ≠ 7) ∧ ((∀ x, x ∈ s.dev.eng.items → x.holds e = true → x = i)) := ⟨(st (holding [{ item 1 31 .running (desc 1 0 1 8192) with done := 4096 }, item 2 31 .prefetch (desc 1 0 2 64)])), (31), (5), ({ item 1 31 .running (desc 1 0 1 8192) with done := 4096 }), (item 2 31 .prefetch (desc 1 0 2 64)), by and_intros <;> decide +kernel⟩

theorem witness_EngineItems_17 : ∃ (s : State) (q : Nat), (q < 64) ∧ (s.dev.dueItem q = none) := ⟨(st (holding [])), (63), by and_intros <;> decide +kernel⟩

theorem witness_EngineItems_18 : ∃ (s : State) (q : Nat) (i : Item), (q < 64) ∧ (s.dev.dueItem q = some i) ∧ (s.dev.powerState = 2) ∧ (s.dev.on R.POWER.PWR_STATUS_EMULATED = false) := ⟨(st ((holding [{ item 1 3 .finished (desc 1 0 0 64) with status := 0 }]).wr R.POWER.PWR_STATUS_STATE 2)), (63), ({ item 1 3 .finished (desc 1 0 0 64) with status := 0 }), by and_intros <;> decide +kernel⟩

theorem witness_EngineItems_19 : ∃ (s : State) (q : Nat) (i : Item), (q < 64) ∧ (s.dev.dueItem q = some i) ∧ (s.dev.bivouacked = false) ∧ (bitAt i.flags 0 = 1) ∧ (i.status < 0x10) := ⟨(st (holding [{ item 1 3 .finished (desc 1 1 0 64) with status := 15 }])), (63), ({ item 1 3 .finished (desc 1 1 0 64) with status := 15 }), by and_intros <;> decide +kernel⟩

theorem witness_EngineItems_20 : ∃ (s : State) (q : Nat) (i : Item), (q < 64) ∧ (s.dev.dueItem q = some i) ∧ (s.dev.bivouacked = false) ∧ ((bitAt i.flags 0 = 0 ∨ 0x10 ≤ i.status)) ∧ (s.dev.qSize q ≤ s.dev.cqUsed q) := ⟨(st ((((holding [{ item 1 3 .finished (desc 1 1 0 64) with status := 16 }]).wrAt R.ENGQ.Q_CTRL_SIZE_LOG2 63 0 4)).wrAt R.ENGQ.CQ_TAIL 63 0 16)), (63), ({ item 1 3 .finished (desc 1 1 0 64) with status := 16 }), by and_intros <;> decide +kernel⟩

theorem witness_EngineItems_20_1 : ∃ (s : State) (q : Nat) (i : Item), (q < 64) ∧ (s.dev.dueItem q = some i) ∧ (s.dev.bivouacked = false) ∧ ((bitAt i.flags 0 = 0 ∨ 0x10 ≤ i.status)) ∧ (s.dev.qSize q ≤ s.dev.cqUsed q) := ⟨(st ((((holding [{ item 1 3 .finished (desc 1 0 0 64) with status := 0 }]).wrAt R.ENGQ.Q_CTRL_SIZE_LOG2 63 0 4)).wrAt R.ENGQ.CQ_TAIL 63 0 16)), (63), ({ item 1 3 .finished (desc 1 0 0 64) with status := 0 }), by and_intros <;> decide +kernel⟩

theorem witness_EngineItems_20_2 : ∃ (s : State) (q : Nat) (i : Item), (q < 64) ∧ (s.dev.dueItem q = some i) ∧ (s.dev.bivouacked = false) ∧ ((bitAt i.flags 0 = 0 ∨ 0x10 ≤ i.status)) ∧ (s.dev.qSize q ≤ s.dev.cqUsed q) := ⟨(st (((((holding [{ item 1 3 .finished (desc 1 0 0 64) with status := 0 }]).wrAt R.ENGQ.Q_CTRL_SIZE_LOG2 63 0 4)).wrAt R.ENGQ.CQ_TAIL 63 0 16).wrAt R.ENGQ.Q_STATUS_CQ_FULL 63 0 1)), (63), ({ item 1 3 .finished (desc 1 0 0 64) with status := 0 }), by and_intros <;> decide +kernel⟩

theorem witness_EngineItems_21 : ∃ (s : State) (q : Nat) (t : Nat) (v : MemView) (i : Item) (bs : Bytes) (d1 : Dev), (q < 64) ∧ (s.dev.dueItem q = some i) ∧ (s.dev.bivouacked = false) ∧ ((bitAt i.flags 0 = 0 ∨ 0x10 ≤ i.status)) ∧ (s.dev.cqUsed q < s.dev.qSize q) ∧ ((s.dev.toTime t).writeEntry i v = (.done bs, d1)) := ⟨(st ((((holding [{ item 1 3 .finished (desc 1 1 0 64) with status := 16 }]).wrAt R.ENGQ.Q_CTRL_SIZE_LOG2 63 0 4)).wrAt R.ENGQ.Q_CTRL_LOC 63 0 1)), (63), (5), (default), ({ item 1 3 .finished (desc 1 1 0 64) with status := 16 }), ([]), (_), ⟨by decide +kernel, by decide +kernel, by decide +kernel, ⟨by decide +kernel, by decide +kernel, split_1_2 (by decide +kernel)⟩⟩⟩

theorem witness_EngineItems_22 : ∃ (d : Dev) (i : Item) (x : Bytes × Dev), (d.rdAt R.ENGQ.Q_CTRL_LOC i.queue 0 = 1) ∧ (x = d.completionEntry i (d.rdAt R.ENGQ.CQ_TAIL i.queue 0)) := ⟨(((((holding [{ item 1 3 .finished (desc 1 1 0 64) with status := 16 }]).wrAt R.ENGQ.Q_CTRL_SIZE_LOG2 63 0 4)).wrAt R.ENGQ.Q_CTRL_LOC 63 0 1)), ({ item 1 3 .finished (desc 1 1 0 64) with status := 16 }), (_), ⟨by decide +kernel, rfl⟩⟩

theorem witness_EngineItems_21_1 : ∃ (s : State) (q : Nat) (t : Nat) (v : MemView) (i : Item) (bs : Bytes) (d1 : Dev), (q < 64) ∧ (s.dev.dueItem q = some i) ∧ (s.dev.bivouacked = false) ∧ ((bitAt i.flags 0 = 0 ∨ 0x10 ≤ i.status)) ∧ (s.dev.cqUsed q < s.dev.qSize q) ∧ ((s.dev.toTime t).writeEntry i v = (.done bs, d1)) := ⟨(st ((((holding [{ item 1 3 .finished (desc 1 3 0 64) with status := 16 }]).wrAt R.ENGQ.Q_CTRL_SIZE_LOG2 63 0 4)).wrAt R.ENGQ.Q_CTRL_LOC 63 0 1)), (63), (5), (default), ({ item 1 3 .finished (desc 1 3 0 64) with status := 16 }), ([]), (_), ⟨by decide +kernel, by decide +kernel, by decide +kernel, ⟨by decide +kernel, by decide +kernel, split_1_2 (by decide +kernel)⟩⟩⟩

theorem witness_EngineItems_22_1 : ∃ (d : Dev) (i : Item) (x : Bytes × Dev), (d.rdAt R.ENGQ.Q_CTRL_LOC i.queue 0 = 1) ∧ (x = d.completionEntry i (d.rdAt R.ENGQ.CQ_TAIL i.queue 0)) := ⟨(((((holding [{ item 1 3 .finished (desc 1 3 0 64) with status := 16 }]).wrAt R.ENGQ.Q_CTRL_SIZE_LOG2 63 0 4)).wrAt R.ENGQ.Q_CTRL_LOC 63 0 1)), ({ item 1 3 .finished (desc 1 3 0 64) with status := 16 }), (_), ⟨by decide +kernel, rfl⟩⟩

theorem witness_EngineItems_21_2 : ∃ (s : State) (q : Nat) (t : Nat) (v : MemView) (i : Item) (bs : Bytes) (d1 : Dev), (q < 64) ∧ (s.dev.dueItem q = some i) ∧ (s.dev.bivouacked = false) ∧ ((bitAt i.flags 0 = 0 ∨ 0x10 ≤ i.status)) ∧ (s.dev.cqUsed q < s.dev.qSize q) ∧ ((s.dev.toTime t).writeEntry i v = (.done bs, d1)) := ⟨(st ((((holding [{ item 1 3 .finished (desc 9 0 0 64) with status := 0x12 }]).wrAt R.ENGQ.Q_CTRL_SIZE_LOG2 63 0 4)).wrAt R.ENGQ.Q_CTRL_LOC 63 0 1)), (63), (5), (default), ({ item 1 3 .finished (desc 9 0 0 64) with status := 0x12 }), ([]), (_), ⟨by decide +kernel, by decide +kernel, by decide +kernel, ⟨by decide +kernel, by decide +kernel, split_1_2 (by decide +kernel)⟩⟩⟩

theorem witness_EngineItems_22_2 : ∃ (d : Dev) (i : Item) (x : Bytes × Dev), (d.rdAt R.ENGQ.Q_CTRL_LOC i.queue 0 = 1) ∧ (x = d.completionEntry i (d.rdAt R.ENGQ.CQ_TAIL i.queue 0)) := ⟨(((((holding [{ item 1 3 .finished (desc 9 0 0 64) with status := 0x12 }]).wrAt R.ENGQ.Q_CTRL_SIZE_LOG2 63 0 4)).wrAt R.ENGQ.Q_CTRL_LOC 63 0 1)), ({ item 1 3 .finished (desc 9 0 0 64) with status := 0x12 }), (_), ⟨by decide +kernel, rfl⟩⟩

theorem witness_EngineItems_21_3 : ∃ (s : State) (q : Nat) (t : Nat) (v : MemView) (i : Item) (bs : Bytes) (d1 : Dev), (q < 64) ∧ (s.dev.dueItem q = some i) ∧ (s.dev.bivouacked = false) ∧ ((bitAt i.flags 0 = 0 ∨ 0x10 ≤ i.status)) ∧ (s.dev.cqUsed q < s.dev.qSize q) ∧ ((s.dev.toTime t).writeEntry i v = (.done bs, d1)) := ⟨(st ((((holding [{ item 1 3 .finished (put 48 [1] (desc 9 0 0 64)) with status := 0x12 }]).wrAt R.ENGQ.Q_CTRL_SIZE_LOG2 63 0 4)).wrAt R.ENGQ.Q_CTRL_LOC 63 0 1)), (63), (5), (default), ({ item 1 3 .finished (put 48 [1] (desc 9 0 0 64)) with status := 0x12 }), ([]), (_), ⟨by decide +kernel, by decide +kernel, by decide +kernel, ⟨by decide +kernel, by decide +kernel, split_1_2 (by decide +kernel)⟩⟩⟩

theorem witness_EngineItems_22_3 : ∃ (d : Dev) (i : Item) (x : Bytes × Dev), (d.rdAt R.ENGQ.Q_CTRL_LOC i.queue 0 = 1) ∧ (x = d.completionEntry i (d.rdAt R.ENGQ.CQ_TAIL i.queue 0)) := ⟨(((((holding [{ item 1 3 .finished (put 48 [1] (desc 9 0 0 64)) with status := 0x12 }]).wrAt R.ENGQ.Q_CTRL_SIZE_LOG2 63 0 4)).wrAt R.ENGQ.Q_CTRL_LOC 63 0 1)), ({ item 1 3 .finished (put 48 [1] (desc 9 0 0 64)) with status := 0x12 }), (_), ⟨by decide +kernel, rfl⟩⟩

theorem witness_EngineItems_21_4 : ∃ (s : State) (q : Nat) (t : Nat) (v : MemView) (i : Item) (bs : Bytes) (d1 : Dev), (q < 64) ∧ (s.dev.dueItem q = some i) ∧ (s.dev.bivouacked = false) ∧ ((bitAt i.flags 0 = 0 ∨ 0x10 ≤ i.status)) ∧ (s.dev.cqUsed q < s.dev.qSize q) ∧ ((s.dev.toTime t).writeEntry i v = (.done bs, d1)) := ⟨(st ((holding [{ item 1 3 .finished (desc 1 0 0 64) with status := 0 }]).wrAt R.ENGQ.Q_CTRL_SIZE_LOG2 63 0 4)), (63), (5), (view []), ({ item 1 3 .finished (desc 1 0 0 64) with status := 0 }), ([]), (_), ⟨by decide +kernel, by decide +kernel, by decide +kernel, ⟨by decide +kernel, by decide +kernel, split_1_2 (by decide +kernel)⟩⟩⟩

theorem witness_EngineItems_23 : ∃ (s : State) (q : Nat) (t : Nat) (v : MemView) (i : Item) (r : Dma) (d1 : Dev), (q < 64) ∧ (s.dev.dueItem q = some i) ∧ (s.dev.bivouacked = false) ∧ ((bitAt i.flags 0 = 0 ∨ 0x10 ≤ i.status)) ∧ (s.dev.cqUsed q < s.dev.qSize q) ∧ ((s.dev.toTime t).writeEntry i v = (r, d1)) ∧ ((∀ bs, r ≠ .done bs)) := ⟨(st (((holding [{ item 1 3 .finished (desc 1 0 0 64) with status := 0 }]).wrAt R.ENGQ.Q_CTRL_SIZE_LOG2 63 0 4).wrAt R.DMMU.CTX_ROOT_VALID 0 0 0)), (63), (5), (view []), ({ item 1 3 .finished (desc 1 0 0 64) with status := 0 }), (.xlate 5 0), (_), ⟨by decide +kernel, by decide +kernel, by decide +kernel, ⟨by decide +kernel, by decide +kernel, split_1_2 (by decide +kernel), fun bs => by simp⟩⟩⟩

theorem witness_EngineItems_24 : ∃ (d : Dev) (i : Item) (x : Item), (x ∈ (d.retireItem i).eng.items) := ⟨(holding [item 1 3 .finished [], item 2 3 .ready []]), (item 1 3 .finished []), (item 2 3 .ready []), by decide +kernel⟩

theorem witness_EngineItems_25 : ∃ (d : Dev) (i : Item) (c : Nat) (b : Bytes), (b = (d.completionEntry i c).1) ∧ (i.queue < 64) ∧ (i.detail < 256) ∧ (i.status < 256) ∧ (i.done < 2 ^ 64) := ⟨(holding []), (item 255 3 .finished (desc 1 0 0 64)), (16), (((holding []).completionEntry (item 255 3 .finished (desc 1 0 0 64)) 16).1), ⟨rfl, by decide +kernel⟩⟩

theorem witness_EngineItems_26 : ∃ (s : State) (q : Nat), (q < 64) ∧ (s.dev.readyOf q 0xE = none) := ⟨(st (holding [])), (63), by and_intros <;> decide +kernel⟩

theorem witness_EngineItems_27 : ∃ (s : State) (q : Nat) (t : Nat) (i : Item), (q < 64) ∧ (s.dev.readyOf q 0xE = some i) ∧ ((s.dev.toTime t).keyReached i.list i.arg = true) := ⟨(st (holding [item 1 32 .ready (put 48 (leBytes 5 8) (put 5 [3] (desc 14 0 0 0)))])), (63), (5), (item 1 32 .ready (put 48 (leBytes 5 8) (put 5 [3] (desc 14 0 0 0)))), by and_intros <;> decide +kernel⟩

theorem witness_EngineItems_28 : ∃ (s : State) (q : Nat) (t : Nat) (i : Item), (q < 64) ∧ (s.dev.readyOf q 0xE = some i) ∧ ((s.dev.toTime t).keyReached i.list i.arg = false) ∧ (4096 ≤ (s.dev.listItems i.list).length) := ⟨(st (holding (item 1 32 .ready (put 48 (leBytes 9 8) (put 5 [3] (desc 14 0 0 0))) :: List.replicate 4096 ({ item 7 32 .delayed (put 5 [3] (desc 14 0 0 0)) with order := 1 })))), (63), (5), (item 1 32 .ready (put 48 (leBytes 9 8) (put 5 [3] (desc 14 0 0 0)))), by and_intros <;> decide +kernel⟩

theorem witness_EngineItems_29 : ∃ (s : State) (q : Nat) (t : Nat) (i : Item), (q < 64) ∧ (s.dev.readyOf q 0xE = some i) ∧ ((s.dev.toTime t).keyReached i.list i.arg = false) ∧ ((s.dev.listItems i.list).length < 4096) ∧ (s.dev.itemsWf = true) := ⟨(st (holding [item 1 32 .ready (put 48 (leBytes 6 8) (put 5 [3] (desc 14 0 0 0)))])), (63), (5), (item 1 32 .ready (put 48 (leBytes 6 8) (put 5 [3] (desc 14 0 0 0)))), by and_intros <;> decide +kernel⟩

theorem witness_EngineItems_30 : ∃ (s : State) (l : Nat), (l < 16) ∧ (s.dev.itemsWf = true) := ⟨(st (holding [item 1 32 .delayed (put 48 (leBytes 5 8) (put 5 [3] (desc 14 0 0 0))), item 2 32 .delayed (put 48 (leBytes 6 8) (put 5 [3] (desc 14 0 0 0)))])), (3), by and_intros <;> decide +kernel⟩

theorem witness_EngineItems_31 : ∃ (d : Dev) (l : Nat) (key : Nat), (d.rdAt R.ENG_SCHED.DLIST_CFG_KEY 0 l = 0) ∧ (key < 2 ^ 64) := ⟨(up), (0), (2 ^ 63), by and_intros <;> decide +kernel⟩

theorem witness_EngineItems_32 : ∃ (d : Dev) (l : Nat) (n : Nat), (d.rdAt R.ENG_SCHED.DLIST_CFG_KEY 0 l = n + 1) ∧ (n < 4) := ⟨(up.wrAt R.ENG_SCHED.DLIST_CFG_KEY 0 15 4), (15), (3), by and_intros <;> decide +kernel⟩

theorem witness_EngineItems_33 : ∃ (s : State) (q : Nat) (i : Item), (q < 64) ∧ (s.dev.readyOf q 0xC = some i) := ⟨(st (holding [item 1 32 .ready (desc 12 0 0 0)])), (63), (item 1 32 .ready (desc 12 0 0 0)), by and_intros <;> decide +kernel⟩

theorem witness_EngineItems_33_1 : ∃ (s : State) (q : Nat) (i : Item), (q < 64) ∧ (s.dev.readyOf q 0xC = some i) := ⟨(st (holding [item 1 32 .ready [], item 2 32 .ready (desc 12 0 0 0)])), (63), (item 2 32 .ready (desc 12 0 0 0)), by and_intros <;> decide +kernel⟩

theorem witness_EngineItems_34 : ∃ (s : State) (q : Nat) (i : Item), (q < 64) ∧ (s.dev.readyOf q 0xD = some i) := ⟨(st (holding [item 1 32 .ready (put 48 [7, 0, 255] (desc 13 0 0 0))])), (63), (item 1 32 .ready (put 48 [7, 0, 255] (desc 13 0 0 0))), by and_intros <;> decide +kernel⟩

theorem witness_EngineItems_35 : ∃ (s : State) (q : Nat) (i : Item), (q < 64) ∧ (s.dev.readyOf q 0xF = some i) ∧ (8 ≤ s.dev.ch1Level) := ⟨(st { holding [item 1 32 .ready (desc 15 0 0 4)] with mg := { up.mg with msgs := List.replicate 8 { item := 9, body := [], restarted := false } } }), (63), (item 1 32 .ready (desc 15 0 0 4)), by and_intros <;> decide +kernel⟩

theorem witness_EngineItems_36 : ∃ (s : State) (q : Nat) (t : Nat) (v : MemView) (v1 : MemView) (i : Item) (bs : Bytes) (d1 : Dev), (q < 64) ∧ (s.dev.readyOf q 0xF = some i) ∧ (s.dev.ch1Level < 8) ∧ ((s.dev.toTime t).itemRead i i.src i.len v = (.ok bs, v1, d1)) := ⟨(st (holding [item 1 32 .ready (desc 15 0 0 4)])), (63), (5), (view [1, 2, 3, 4]), (_), (item 1 32 .ready (desc 15 0 0 4)), ([1, 2, 3, 4]), (_), ⟨by decide +kernel, by decide +kernel, by decide +kernel, split_1_3 (by decide +kernel)⟩⟩

theorem witness_EngineItems_37 : ∃ (s : State) (q : Nat) (t : Nat) (v : MemView) (v1 : MemView) (i : Item) (d1 : Dev), (q < 64) ∧ (s.dev.readyOf q 0xF = some i) ∧ (s.dev.ch1Level < 8) ∧ ((s.dev.toTime t).itemRead i i.src i.len v = (.wait, v1, d1)) := ⟨(st ((holding [fromTo (arrayAt 0x180000000) 0 (item 1 32 .ready (desc 15 0 0 4))]).wrAt R.POWER.DOM_STATUS_STATE 0 0 0)), (63), (5), (view []), (_), (fromTo (arrayAt 0x180000000) 0 (item 1 32 .ready (desc 15 0 0 4))), (_), ⟨by decide +kernel, by decide +kernel, by decide +kernel, split_1_3 (by decide +kernel)⟩⟩

theorem witness_EngineItems_38 : ∃ (s : State) (q : Nat) (t : Nat) (a : Nat) (b : Nat) (v : MemView) (v1 : MemView) (i : Item) (d1 : Dev), (q < 64) ∧ (s.dev.readyOf q 0xF = some i) ∧ (s.dev.ch1Level < 8) ∧ ((s.dev.toTime t).itemRead i i.src i.len v = (.stop a b, v1, d1)) := ⟨(st (holding [item 1 32 .ready (desc 15 0 0 5)])), (63), (5), (0x1C), (0), (view [1, 2, 3, 4]), (_), (item 1 32 .ready (desc 15 0 0 5)), (_), ⟨by decide +kernel, by decide +kernel, by decide +kernel, split_1_3 (by decide +kernel)⟩⟩

theorem witness_EngineItems_39 : ∃ (s : State) (q : Nat), (q < 64) ∧ (s.dev.readyOf q 0xC = none) := ⟨(st (holding [])), (63), by and_intros <;> decide +kernel⟩

theorem witness_EngineItems_40 : ∃ (s : State) (q : Nat), (q < 64) ∧ (s.dev.readyOf q 0xD = none) := ⟨(st (holding [])), (63), by and_intros <;> decide +kernel⟩

theorem witness_EngineItems_41 : ∃ (s : State) (q : Nat), (q < 64) ∧ (s.dev.readyOf q 0xF = none) := ⟨(st (holding [])), (63), by and_intros <;> decide +kernel⟩

theorem witness_EngineItems_42 : ∃ (n : Nat), (32 ≤ n) := ⟨(32), by decide +kernel⟩

theorem witness_EngineItems_43 : ∃ (n : Nat), (32 ≤ n) := ⟨(32), by decide +kernel⟩

theorem witness_EngineItems_44 : ∃ (n : Nat), (64 ≤ n) := ⟨(64), by decide +kernel⟩

theorem witness_EngineItems_45 : ∃ (n : Nat), (64 ≤ n) := ⟨(64), by decide +kernel⟩

theorem witness_EngineItems_46 : ∃ (n : Nat), (64 ≤ n) := ⟨(64), by decide +kernel⟩

theorem witness_EngineItems_47 : ∃ (n : Nat), (64 ≤ n) := ⟨(64), by decide +kernel⟩

theorem witness_EngineItems_48 : ∃ (n : Nat), (64 ≤ n) := ⟨(64), by decide +kernel⟩

theorem witness_EngineItems_49 : ∃ (n : Nat), (16 ≤ n) := ⟨(16), by decide +kernel⟩

theorem witness_EngineMoves_0 : ∃ (d : Dev) (i : Item), (d.on R.LOAD.LOAD_STATUS_SECURE = true) ∧ ((i.ty = 4 ∨ i.ty = 5 ∨ i.ty = 9)) := ⟨((holding []).wr R.LOAD.LOAD_STATUS_SECURE 1), ((item 1 31 .running (desc 4 0 0 64))), by and_intros <;> decide +kernel⟩

theorem witness_EngineMoves_0_1 : ∃ (d : Dev) (i : Item), (d.on R.LOAD.LOAD_STATUS_SECURE = true) ∧ ((i.ty = 4 ∨ i.ty = 5 ∨ i.ty = 9)) := ⟨((holding []).wr R.LOAD.LOAD_STATUS_SECURE 1), ((item 1 31 .running (desc 5 0 0 64))), by and_intros <;> decide +kernel⟩

theorem witness_EngineMoves_0_2 : ∃ (d : Dev) (i : Item), (d.on R.LOAD.LOAD_STATUS_SECURE = true) ∧ ((i.ty = 4 ∨ i.ty = 5 ∨ i.ty = 9)) := ⟨((holding []).wr R.LOAD.LOAD_STATUS_SECURE 1), ((item 1 31 .running (desc 9 0 0 64))), by and_intros <;> decide +kernel⟩

theorem witness_EngineMoves_1 : ∃ (d : Dev) (i : Item) (off : Nat), (i.ty = 1) ∧ (d.region off = .bank) ∧ (d.bankOwner (d.bankAt off) ≠ 1) := ⟨(holding []), ((item 1 31 .running (desc 1 0 0 64))), (0x200010000), by and_intros <;> decide +kernel⟩

theorem witness_EngineMoves_2 : ∃ (d : Dev) (i : Item) (off : Nat), ((d.on R.LOAD.LOAD_STATUS_SECURE = false ∨ i.ty = 1 ∨ i.ty = 8)) ∧ (d.region off ≠ .bank) ∧ (d.running = true) := ⟨((holding []).wr R.RUN.RUN_STATUS_STATE 1), ((item 1 31 .running (desc 4 0 0 64))), (0x180000000), by and_intros <;> decide +kernel⟩

theorem witness_EngineMoves_2_1 : ∃ (d : Dev) (i : Item) (off : Nat), ((d.on R.LOAD.LOAD_STATUS_SECURE = false ∨ i.ty = 1 ∨ i.ty = 8)) ∧ (d.region off ≠ .bank) ∧ (d.running = true) := ⟨(((holding []).wr R.LOAD.LOAD_STATUS_SECURE 1).wr R.RUN.RUN_STATUS_STATE 1), ((item 1 31 .running (desc 8 0 0 64))), (0x180000000), by and_intros <;> decide +kernel⟩

theorem witness_EngineMoves_3 : ∃ (d : Dev) (i : Item) (off : Nat), (d.region off = .bank) ∧ (d.bankOwner (d.bankAt off) ≠ 1) ∧ ((d.bankOwner (d.bankAt off) ≠ 0 ∨ i.ty ≠ 8 ∨ d.running = true)) := ⟨(holding []), ((item 1 31 .running (desc 1 0 0 64))), (0x200010000), by and_intros <;> decide +kernel⟩

theorem witness_EngineMoves_3_1 : ∃ (d : Dev) (i : Item) (off : Nat), (d.region off = .bank) ∧ (d.bankOwner (d.bankAt off) ≠ 1) ∧ ((d.bankOwner (d.bankAt off) ≠ 0 ∨ i.ty ≠ 8 ∨ d.running = true)) := ⟨((holding []).wr R.RUN.RUN_STATUS_STATE 1), ((item 1 31 .running (desc 8 0 0 64))), (0x200010000), by and_intros <;> decide +kernel⟩

theorem witness_EngineMoves_4 : ∃ (d : Dev) (off : Nat), (d.region off ≠ .bank) ∧ (d.running = true) := ⟨((holding []).wr R.RUN.RUN_STATUS_STATE 1), (0x180000000), by and_intros <;> decide +kernel⟩

theorem witness_EngineMoves_5 : ∃ (d : Dev) (i : Item) (off : Nat) (g : Nat), (d.offsetDomain off = some g) ∧ (d.domState g = 2) ∧ ((d.region off = .bank ∧ d.bankOwner (d.bankAt off) = 1 ∨ d.running = false ∧ (d.region off ≠ .bank ∨ d.bankOwner (d.bankAt off) = 0 ∧ i.ty = 8))) := ⟨((holding []).wr R.RUN.RUN_STATUS_STATE 1), ((item 1 31 .running (desc 2 0 0 64))), (0x200000000), (0), by and_intros <;> decide +kernel⟩

theorem witness_EngineMoves_5_1 : ∃ (d : Dev) (i : Item) (off : Nat) (g : Nat), (d.offsetDomain off = some g) ∧ (d.domState g = 2) ∧ ((d.region off = .bank ∧ d.bankOwner (d.bankAt off) = 1 ∨ d.running = false ∧ (d.region off ≠ .bank ∨ d.bankOwner (d.bankAt off) = 0 ∧ i.ty = 8))) := ⟨(holding []), ((item 1 31 .running (desc 8 0 0 64))), (0x200010000), (0), by and_intros <;> decide +kernel⟩

theorem witness_EngineMoves_5_2 : ∃ (d : Dev) (i : Item) (off : Nat) (g : Nat), (d.offsetDomain off = some g) ∧ (d.domState g = 2) ∧ ((d.region off = .bank ∧ d.bankOwner (d.bankAt off) = 1 ∨ d.running = false ∧ (d.region off ≠ .bank ∨ d.bankOwner (d.bankAt off) = 0 ∧ i.ty = 8))) := ⟨(holding []), ((item 1 31 .running (desc 11 0 0 64))), (0x180000000), (0), by and_intros <;> decide +kernel⟩

theorem witness_EngineMoves_6 : ∃ (s : State) (ty : Nat) (e : Nat), (ty ∈ [1, 2, 3, 4, 5, 6, 7, 8, 9, 10, 11]) ∧ (e < 32) ∧ (s.dev.runningType e ty = none) := ⟨(st (holding [])), (1), (31), by and_intros <;> decide +kernel⟩

theorem witness_EngineMoves_6_1 : ∃ (s : State) (ty : Nat) (e : Nat), (ty ∈ [1, 2, 3, 4, 5, 6, 7, 8, 9, 10, 11]) ∧ (e < 32) ∧ (s.dev.runningType e ty = none) := ⟨(st (holding [])), (11), (31), by and_intros <;> decide +kernel⟩

theorem witness_EngineMoves_7 : ∃ (s : State) (u : State) (ty : Nat) (e : Nat) (c : Nat) (t : Nat) (v : MemView) (v1 : MemView) (v2 : MemView) (i : Item) (bs : Bytes) (d1 : Dev) (d2 : Dev), (ty ∈ [1, 4, 8]) ∧ (e < 32) ∧ (s.dev.runs e ty i = true) ∧ (0 < c) ∧ (c = min (bothSizes i s.dev) (i.len - i.done)) ∧ ((s.dev.toTime t).itemRead i (i.src + i.done) c v = (.ok bs, v1, d1)) ∧ ((d1.count (0x50 + i.engine) 1 c).itemWrite i (i.dst + i.done) bs v1 = (.ok [], v2, d2)) ∧ (u = s.after (fun _ => (d2.count (0x50 + i.engine) 2 c).onward i c i.len)) ∧ (ty = 1) := ⟨(st (holding [(fromTo (0) (arrayAt 0x200000000) (item 1 31 .running (desc 1 0 0 8)))])), (_), (1), (31), (8), (5), (view [1, 2, 3, 4, 5, 6, 7, 8]), (_), (_), ((fromTo (0) (arrayAt 0x200000000) (item 1 31 .running (desc 1 0 0 8)))), ([1, 2, 3, 4, 5, 6, 7, 8]), (_), (_), ⟨by decide +kernel, by decide +kernel, by decide +kernel, ⟨by decide +kernel, by decide +kernel, split_1_3 (by decide +kernel), ⟨split_1_3 (by decide +kernel), rfl, by decide +kernel⟩⟩⟩⟩

theorem witness_EngineMoves_7_1 : ∃ (s : State) (u : State) (ty : Nat) (e : Nat) (c : Nat) (t : Nat) (v : MemView) (v1 : MemView) (v2 : MemView) (i : Item) (bs : Bytes) (d1 : Dev) (d2 : Dev), (ty ∈ [1, 4, 8]) ∧ (e < 32) ∧ (s.dev.runs e ty i = true) ∧ (0 < c) ∧ (c = min (bothSizes i s.dev) (i.len - i.done)) ∧ ((s.dev.toTime t).itemRead i (i.src + i.done) c v = (.ok bs, v1, d1)) ∧ ((d1.count (0x50 + i.engine) 1 c).itemWrite i (i.dst + i.done) bs v1 = (.ok [], v2, d2)) ∧ (u = s.after (fun _ => (d2.count (0x50 + i.engine) 2 c).onward i c i.len)) ∧ (ty = 1) := ⟨(st (holding [({ (fromTo (arrayAt 0x200000000) (1024) (item 1 31 .running (desc 1 0 0 130))) with done := 64 } : Item)])), (_), (1), (31), (64), (5), (view []), (_), (_), (({ (fromTo (arrayAt 0x200000000) (1024) (item 1 31 .running (desc 1 0 0 130))) with done := 64 } : Item)), ((List.replicate 64 0)), (_), (_), ⟨by decide +kernel, by decide +kernel, by decide +kernel, ⟨by decide +kernel, by decide +kernel, split_1_3 (by decide +kernel), ⟨split_1_3 (by decide +kernel), rfl, by decide +kernel⟩⟩⟩⟩

theorem witness_EngineMoves_8 : ∃ (s : State) (u : State) (ty : Nat) (e : Nat) (c : Nat) (t : Nat) (v : MemView) (v1 : MemView) (v2 : MemView) (i : Item) (bs : Bytes) (d1 : Dev) (d2 : Dev), (ty ∈ [1, 4, 8]) ∧ (e < 32) ∧ (s.dev.runs e ty i = true) ∧ (0 < c) ∧ (c = min (bothSizes i s.dev) (i.len - i.done)) ∧ ((s.dev.toTime t).itemRead i (i.src + i.done) c v = (.ok bs, v1, d1)) ∧ ((d1.count (0x50 + i.engine) 1 c).itemWrite i (i.dst + i.done) bs v1 = (.ok [], v2, d2)) ∧ (u = s.after (fun _ => (d2.count (0x50 + i.engine) 2 c).onward i c i.len)) ∧ (ty = 4) := ⟨(st (holding [(fromTo (arrayAt 0x180000000) (64) (item 1 31 .running (desc 4 0 0 8)))])), (_), (4), (31), (8), (5), (view []), (_), (_), ((fromTo (arrayAt 0x180000000) (64) (item 1 31 .running (desc 4 0 0 8)))), ((List.replicate 8 0)), (_), (_), ⟨by decide +kernel, by decide +kernel, by decide +kernel, ⟨by decide +kernel, by decide +kernel, split_1_3 (by decide +kernel), ⟨split_1_3 (by decide +kernel), rfl, by decide +kernel⟩⟩⟩⟩

theorem witness_EngineMoves_9 : ∃ (s : State) (u : State) (ty : Nat) (e : Nat) (c : Nat) (t : Nat) (v : MemView) (v1 : MemView) (v2 : MemView) (i : Item) (bs : Bytes) (d1 : Dev) (d2 : Dev), (ty ∈ [1, 4, 8]) ∧ (e < 32) ∧ (s.dev.runs e ty i = true) ∧ (0 < c) ∧ (c = min (bothSizes i s.dev) (i.len - i.done)) ∧ ((s.dev.toTime t).itemRead i (i.src + i.done) c v = (.ok bs, v1, d1)) ∧ ((d1.count (0x50 + i.engine) 1 c).itemWrite i (i.dst + i.done) bs v1 = (.ok [], v2, d2)) ∧ (u = s.after (fun _ => (d2.count (0x50 + i.engine) 2 c).onward i c i.len)) ∧ (ty = 8) := ⟨(st (holding [(fromTo (0) (arrayAt 0x200010000) (item 1 31 .running (desc 8 0 0 8)))])), (_), (8), (31), (8), (5), (view [1, 2, 3, 4, 5, 6, 7, 8]), (_), (_), ((fromTo (0) (arrayAt 0x200010000) (item 1 31 .running (desc 8 0 0 8)))), ([1, 2, 3, 4, 5, 6, 7, 8]), (_), (_), ⟨by decide +kernel, by decide +kernel, by decide +kernel, ⟨by decide +kernel, by decide +kernel, split_1_3 (by decide +kernel), ⟨split_1_3 (by decide +kernel), rfl, by decide +kernel⟩⟩⟩⟩

theorem witness_EngineMoves_12 : ∃ (s : State) (ty : Nat) (e : Nat) (c : Nat) (t : Nat) (a : Nat) (b : Nat) (v : MemView) (v1 : MemView) (i : Item) (d1 : Dev), (ty ∈ [1, 4, 5, 8]) ∧ (e < 32) ∧ (s.dev.runs e ty i = true) ∧ (0 < c) ∧ (c = min (bothSizes i s.dev) (i.len - i.done)) ∧ ((s.dev.toTime t).itemRead i (i.src + i.done) c v = (.stop a b, v1, d1)) ∧ (d1.item i.id = some i) := ⟨(st (holding [(fromTo (arrayAt 0x200010000) (0) (item 1 31 .running (desc 1 0 0 8)))])), (1), (31), (8), (5), (0x14), (0), (view []), (_), ((fromTo (arrayAt 0x200010000) (0) (item 1 31 .running (desc 1 0 0 8)))), (_), ⟨by decide +kernel, by decide +kernel, by decide +kernel, ⟨by decide +kernel, by decide +kernel, split_1_3 (by decide +kernel), by decide +kernel⟩⟩⟩

theorem witness_EngineMoves_12_1 : ∃ (s : State) (ty : Nat) (e : Nat) (c : Nat) (t : Nat) (a : Nat) (b : Nat) (v : MemView) (v1 : MemView) (i : Item) (d1 : Dev), (ty ∈ [1, 4, 5, 8]) ∧ (e < 32) ∧ (s.dev.runs e ty i = true) ∧ (0 < c) ∧ (c = min (bothSizes i s.dev) (i.len - i.done)) ∧ ((s.dev.toTime t).itemRead i (i.src + i.done) c v = (.stop a b, v1, d1)) ∧ (d1.item i.id = some i) := ⟨(st ((holding [(fromTo (arrayAt 0x180000000) (0) (item 1 31 .running (desc 5 0 0 8)))]).wr R.LOAD.LOAD_STATUS_SECURE 1)), (5), (31), (8), (5), (0x1F), (0), (view []), (_), ((fromTo (arrayAt 0x180000000) (0) (item 1 31 .running (desc 5 0 0 8)))), (_), ⟨by decide +kernel, by decide +kernel, by decide +kernel, ⟨by decide +kernel, by decide +kernel, split_1_3 (by decide +kernel), by decide +kernel⟩⟩⟩

theorem witness_EngineMoves_12_2 : ∃ (s : State) (ty : Nat) (e : Nat) (c : Nat) (t : Nat) (a : Nat) (b : Nat) (v : MemView) (v1 : MemView) (i : Item) (d1 : Dev), (ty ∈ [1, 4, 5, 8]) ∧ (e < 32) ∧ (s.dev.runs e ty i = true) ∧ (0 < c) ∧ (c = min (bothSizes i s.dev) (i.len - i.done)) ∧ ((s.dev.toTime t).itemRead i (i.src + i.done) c v = (.stop a b, v1, d1)) ∧ (d1.item i.id = some i) := ⟨(st (holding [(fromTo (0) (arrayAt 0x200000000) (item 1 31 .running (desc 8 0 0 8)))])), (8), (31), (8), (5), (0x1C), (0), (view [1]), (_), ((fromTo (0) (arrayAt 0x200000000) (item 1 31 .running (desc 8 0 0 8)))), (_), ⟨by decide +kernel, by decide +kernel, by decide +kernel, ⟨by decide +kernel, by decide +kernel, split_1_3 (by decide +kernel), by decide +kernel⟩⟩⟩

theorem witness_EngineMoves_13 : ∃ (s : State) (e : Nat) (c : Nat) (t : Nat) (a : Nat) (b : Nat) (v : MemView) (v1 : MemView) (v2 : MemView) (i : Item) (bs : Bytes) (ty : Nat) (d1 : Dev) (d2 : Dev), (ty ∈ [1, 4, 8]) ∧ (e < 32) ∧ (s.dev.runs e ty i = true) ∧ (0 < c) ∧ (c = min (bothSizes i s.dev) (i.len - i.done)) ∧ ((s.dev.toTime t).itemRead i (i.src + i.done) c v = (.ok bs, v1, d1)) ∧ ((d1.count (0x50 + i.engine) 1 c).itemWrite i (i.dst + i.done) bs v1 = (.stop a b, v2, d2)) ∧ (d2.item i.id = some i) := ⟨(st (holding [(fromTo (0) (arrayAt 0x200010000) (item 1 31 .running (desc 1 0 0 8)))])), (31), (8), (5), (0x14), (0), (view [1, 2, 3, 4, 5, 6, 7, 8]), (_), (_), ((fromTo (0) (arrayAt 0x200010000) (item 1 31 .running (desc 1 0 0 8)))), ([1, 2, 3, 4, 5, 6, 7, 8]), (1), (_), (_), ⟨by decide +kernel, by decide +kernel, by decide +kernel, ⟨by decide +kernel, by decide +kernel, split_1_3 (by decide +kernel), split_1_3 (by decide +kernel), by decide +kernel⟩⟩⟩

theorem witness_EngineMoves_10 : ∃ (s : State) (ty : Nat) (e : Nat) (c : Nat) (t : Nat) (v : MemView) (v1 : MemView) (i : Item) (d1 : Dev), (ty ∈ [1, 4, 5, 8]) ∧ (e < 32) ∧ (s.dev.runs e ty i = true) ∧ (0 < c) ∧ (c = min (bothSizes i s.dev) (i.len - i.done)) ∧ ((s.dev.toTime t).itemRead i (i.src + i.done) c v = (.wait, v1, d1)) := ⟨(st ((holding [(fromTo (arrayAt 0x180000000) (0) (item 1 31 .running (desc 4 0 0 8)))]).wrAt R.POWER.DOM_STATUS_STATE 0 0 0)), (4), (31), (8), (5), (view []), (_), ((fromTo (arrayAt 0x180000000) (0) (item 1 31 .running (desc 4 0 0 8)))), (_), ⟨by decide +kernel, by decide +kernel, by decide +kernel, ⟨by decide +kernel, by decide +kernel, split_1_3 (by decide +kernel)⟩⟩⟩

theorem witness_EngineMoves_10_1 : ∃ (s : State) (ty : Nat) (e : Nat) (c : Nat) (t : Nat) (v : MemView) (v1 : MemView) (i : Item) (d1 : Dev), (ty ∈ [1, 4, 5, 8]) ∧ (e < 32) ∧ (s.dev.runs e ty i = true) ∧ (0 < c) ∧ (c = min (bothSizes i s.dev) (i.len - i.done)) ∧ ((s.dev.toTime t).itemRead i (i.src + i.done) c v = (.wait, v1, d1)) := ⟨(st ((holding [(fromTo (arrayAt 0x180000000) (0) (item 1 31 .running (desc 5 0 0 8)))]).wrAt R.POWER.DOM_STATUS_STATE 0 0 0)), (5), (31), (8), (5), (view []), (_), ((fromTo (arrayAt 0x180000000) (0) (item 1 31 .running (desc 5 0 0 8)))), (_), ⟨by decide +kernel, by decide +kernel, by decide +kernel, ⟨by decide +kernel, by decide +kernel, split_1_3 (by decide +kernel)⟩⟩⟩

theorem witness_EngineMoves_11 : ∃ (s : State) (ty : Nat) (e : Nat) (c : Nat) (t : Nat) (a : Nat) (b : Nat) (v : MemView) (v1 : MemView) (i : Item) (bs : Bytes) (d1 : Dev), (ty ∈ [2, 11]) ∧ (e < 32) ∧ (s.dev.runs e ty i = true) ∧ (0 < c) ∧ (c = min (s.dev.requestLen true (i.dst + i.done)) (i.len - i.done)) ∧ (bs = (if ty = 11 then List.replicate c 0 else (List.range c).map fun j => BitVec.ofNat 8 (i.arg / 256 ^ ((i.state + i.done + j) % 8)))) ∧ ((s.dev.toTime t).itemWrite i (i.dst + i.done) bs v = (.stop a b, v1, d1)) ∧ (d1.item i.id = some i) := ⟨(st (holding [(fromTo (0) (arrayAt 0x200010000) (item 1 31 .running (desc 2 0 0 8)))])), (2), (31), (8), (5), (0x14), (0), (view []), (_), ((fromTo (0) (arrayAt 0x200010000) (item 1 31 .running (desc 2 0 0 8)))), (List.replicate 8 0), (_), ⟨by decide +kernel, by decide +kernel, by decide +kernel, ⟨by decide +kernel, by decide +kernel, by decide +kernel, split_1_3 (by decide +kernel), by decide +kernel⟩⟩⟩

theorem witness_EngineMoves_11_1 : ∃ (s : State) (ty : Nat) (e : Nat) (c : Nat) (t : Nat) (a : Nat) (b : Nat) (v : MemView) (v1 : MemView) (i : Item) (bs : Bytes) (d1 : Dev), (ty ∈ [2, 11]) ∧ (e < 32) ∧ (s.dev.runs e ty i = true) ∧ (0 < c) ∧ (c = min (s.dev.requestLen true (i.dst + i.done)) (i.len - i.done)) ∧ (bs = (if ty = 11 then List.replicate c 0 else (List.range c).map fun j => BitVec.ofNat 8 (i.arg / 256 ^ ((i.state + i.done + j) % 8)))) ∧ ((s.dev.toTime t).itemWrite i (i.dst + i.done) bs v = (.stop a b, v1, d1)) ∧ (d1.item i.id = some i) := ⟨(st (holding [(fromTo (0) (arrayAt 0x200010000) (item 1 31 .running (desc 11 0 0 8)))])), (11), (31), (8), (5), (0x14), (0), (view []), (_), ((fromTo (0) (arrayAt 0x200010000) (item 1 31 .running (desc 11 0 0 8)))), (List.replicate 8 0), (_), ⟨by decide +kernel, by decide +kernel, by decide +kernel, ⟨by decide +kernel, by decide +kernel, by decide +kernel, split_1_3 (by decide +kernel), by decide +kernel⟩⟩⟩

theorem witness_EngineMoves_14 : ∃ (s : State) (e : Nat) (c : Nat) (t : Nat) (v : MemView) (v1 : MemView) (i : Item) (d1 : Dev), (e < 32) ∧ (s.dev.runs e 2 i = true) ∧ (0 < c) ∧ (c = min (s.dev.requestLen true (i.dst + i.done)) (i.len - i.done)) ∧ ((s.dev.toTime t).itemWrite i (i.dst + i.done) ((List.range c).map fun j => BitVec.ofNat 8 (i.arg / 256 ^ ((i.state + i.done + j) % 8))) v = (.ok [], v1, d1)) := ⟨(st (holding [({ fromTo 0 (arrayAt 0x200000000) (item 1 31 .running (put 48 [1, 2, 3, 4, 5, 6, 7, 8] (desc 2 0 0 20))) with done := 3, state := 2 } : Item)])), (31), (17), (5), (view []), (_), (({ fromTo 0 (arrayAt 0x200000000) (item 1 31 .running (put 48 [1, 2, 3, 4, 5, 6, 7, 8] (desc 2 0 0 20))) with done := 3, state := 2 } : Item)), (_), ⟨by decide +kernel, by decide +kernel, by decide +kernel, by decide +kernel, split_1_3 (by decide +kernel)⟩⟩

theorem witness_EngineMoves_15 : ∃ (s : State) (e : Nat) (c : Nat) (k : Nat) (t : Nat) (v : MemView) (v1 : MemView) (v2 : MemView) (i : Item) (a : Bytes) (b : Bytes) (d1 : Dev) (d2 : Dev), (e < 32) ∧ (s.dev.runs e 5 i = true) ∧ (0 < c) ∧ (c = min (bothSizes i s.dev) (i.len - i.done)) ∧ ((s.dev.toTime t).itemRead i (i.src + i.done) c v = (.ok a, v1, d1)) ∧ (d1.itemRead i (i.dst + i.done) c v1 = (.ok b, v2, d2)) ∧ (k = agreeLen a b) := ⟨(st (holding [(fromTo (arrayAt 0x180000000) (0) (item 1 31 .running (desc 5 0 0 8)))])), (31), (8), (8), (5), (view [0, 0, 0, 0, 0, 0, 0, 0]), (_), (_), ((fromTo (arrayAt 0x180000000) (0) (item 1 31 .running (desc 5 0 0 8)))), ((List.replicate 8 0)), ([0, 0, 0, 0, 0, 0, 0, 0]), (_), (_), ⟨by decide +kernel, by decide +kernel, by decide +kernel, ⟨by decide +kernel, split_1_3 (by decide +kernel), split_1_3 (by decide +kernel), by decide +kernel⟩⟩⟩

theorem witness_EngineMoves_15_1 : ∃ (s : State) (e : Nat) (c : Nat) (k : Nat) (t : Nat) (v : MemView) (v1 : MemView) (v2 : MemView) (i : Item) (a : Bytes) (b : Bytes) (d1 : Dev) (d2 : Dev), (e < 32) ∧ (s.dev.runs e 5 i = true) ∧ (0 < c) ∧ (c = min (bothSizes i s.dev) (i.len - i.done)) ∧ ((s.dev.toTime t).itemRead i (i.src + i.done) c v = (.ok a, v1, d1)) ∧ (d1.itemRead i (i.dst + i.done) c v1 = (.ok b, v2, d2)) ∧ (k = agreeLen a b) := ⟨(st (holding [(fromTo (arrayAt 0x180000000) (0) (item 1 31 .running (desc 5 0 0 8)))])), (31), (8), (5), (5), (view [0, 0, 0, 0, 0, 9, 0, 0]), (_), (_), ((fromTo (arrayAt 0x180000000) (0) (item 1 31 .running (desc 5 0 0 8)))), ((List.replicate 8 0)), ([0, 0, 0, 0, 0, 9, 0, 0]), (_), (_), ⟨by decide +kernel, by decide +kernel, by decide +kernel, ⟨by decide +kernel, split_1_3 (by decide +kernel), split_1_3 (by decide +kernel), by decide +kernel⟩⟩⟩

theorem witness_EngineMoves_16 : ∃ (s : State) (e : Nat) (c : Nat) (t : Nat) (v : MemView) (v1 : MemView) (i : Item) (bs : Bytes) (d1 : Dev), (e < 32) ∧ (s.dev.runs e 9 i = true) ∧ (0 < c) ∧ (c = min (s.dev.requestLen false (i.src + i.done)) (i.len - i.done)) ∧ (i.done + c < i.len) ∧ ((s.dev.toTime t).itemRead i (i.src + i.done) c v = (.ok bs, v1, d1)) := ⟨(st (holding [(fromTo 0 4096 (item 1 31 .running (put 48 [0] (desc 9 0 0 65))))])), (31), (64), (5), (view (List.replicate 64 7)), (_), ((fromTo 0 4096 (item 1 31 .running (put 48 [0] (desc 9 0 0 65))))), (List.replicate 64 7), (_), ⟨by decide +kernel, by decide +kernel, by decide +kernel, ⟨by decide +kernel, by decide +kernel, split_1_3 (by decide +kernel)⟩⟩⟩

theorem witness_EngineMoves_17 : ∃ (s : State) (e : Nat) (t : Nat) (v : MemView) (v1 : MemView) (i : Item) (result : Bytes) (d1 : Dev), (e < 32) ∧ (s.dev.runs e 9 i = true) ∧ (i.len = i.done) ∧ (result = (if i.arg % 256 = 0 then leBytes i.state 4 else leBytes (Config.sha384 i.acc) 48)) ∧ ((s.dev.toTime t).itemWrite i i.dst result v = (.ok [], v1, d1)) := ⟨(st (holding [({ (fromTo 0 4096 (item 1 31 .running (put 48 [0] (desc 9 0 0 65)))) with done := 65, state := 5 } : Item)])), (31), (5), (view []), (_), (({ (fromTo 0 4096 (item 1 31 .running (put 48 [0] (desc 9 0 0 65)))) with done := 65, state := 5 } : Item)), (leBytes 5 4), (_), ⟨by decide +kernel, by decide +kernel, by decide +kernel, by decide +kernel, split_1_3 (by decide +kernel)⟩⟩

theorem witness_EngineMoves_16_1 : ∃ (s : State) (e : Nat) (c : Nat) (t : Nat) (v : MemView) (v1 : MemView) (i : Item) (bs : Bytes) (d1 : Dev), (e < 32) ∧ (s.dev.runs e 9 i = true) ∧ (0 < c) ∧ (c = min (s.dev.requestLen false (i.src + i.done)) (i.len - i.done)) ∧ (i.done + c < i.len) ∧ ((s.dev.toTime t).itemRead i (i.src + i.done) c v = (.ok bs, v1, d1)) := ⟨(st (holding [(fromTo 0 4096 (item 1 31 .running (put 48 [1] (desc 9 0 0 65))))])), (31), (64), (5), (view (List.replicate 64 7)), (_), ((fromTo 0 4096 (item 1 31 .running (put 48 [1] (desc 9 0 0 65))))), (List.replicate 64 7), (_), ⟨by decide +kernel, by decide +kernel, by decide +kernel, ⟨by decide +kernel, by decide +kernel, split_1_3 (by decide +kernel)⟩⟩⟩

theorem witness_EngineMoves_17_1 : ∃ (s : State) (e : Nat) (t : Nat) (v : MemView) (v1 : MemView) (i : Item) (result : Bytes) (d1 : Dev), (e < 32) ∧ (s.dev.runs e 9 i = true) ∧ (i.len = i.done) ∧ (result = (if i.arg % 256 = 0 then leBytes i.state 4 else leBytes (Config.sha384 i.acc) 48)) ∧ ((s.dev.toTime t).itemWrite i i.dst result v = (.ok [], v1, d1)) := ⟨(st (holding [({ (fromTo 0 4096 (item 1 31 .running (put 48 [1] (desc 9 0 0 65)))) with done := 65, state := 5 } : Item)])), (31), (5), (view []), ((((st (holding [({ (fromTo 0 4096 (item 1 31 .running (put 48 [1] (desc 9 0 0 65)))) with done := 65, state := 5 } : Item)])).dev.toTime (5)).itemWrite (({ (fromTo 0 4096 (item 1 31 .running (put 48 [1] (desc 9 0 0 65)))) with done := 65, state := 5 } : Item)) (({ (fromTo 0 4096 (item 1 31 .running (put 48 [1] (desc 9 0 0 65)))) with done := 65, state := 5 } : Item)).dst (leBytes (Config.sha384 []) 48) (view [])).2.1), (({ (fromTo 0 4096 (item 1 31 .running (put 48 [1] (desc 9 0 0 65)))) with done := 65, state := 5 } : Item)), (leBytes (Config.sha384 []) 48), ((((st (holding [({ (fromTo 0 4096 (item 1 31 .running (put 48 [1] (desc 9 0 0 65)))) with done := 65, state := 5 } : Item)])).dev.toTime (5)).itemWrite (({ (fromTo 0 4096 (item 1 31 .running (put 48 [1] (desc 9 0 0 65)))) with done := 65, state := 5 } : Item)) (({ (fromTo 0 4096 (item 1 31 .running (put 48 [1] (desc 9 0 0 65)))) with done := 65, state := 5 } : Item)).dst (leBytes (Config.sha384 []) 48) (view [])).2.2), ⟨by decide +kernel, by decide +kernel, by decide +kernel, rfl, rfl⟩⟩

theorem witness_EngineMoves_18 : ∃ (s : State) (e : Nat) (c : Nat) (a : Nat) (t : Nat) (v : MemView) (v1 : MemView) (v2 : MemView) (i : Item) (bs : Bytes) (d1 : Dev) (d2 : Dev), (e < 32) ∧ (s.dev.runs e 10 i = true) ∧ (0 < c) ∧ (c = min (drainSize i s.dev) (i.back - i.done)) ∧ (a = s.dev.rd R.TRACE.RING_BASE + s.dev.rd R.TRACE.RD % 2 ^ s.dev.rd R.TRACE.RING_CFG_SIZE_LOG2) ∧ ((s.dev.toTime t).dmaRead 1 (s.dev.rd R.TRACE.RING_CFG_RING_CTX) a c v = (.done bs, v1, d1)) ∧ ((d1.count (0x50 + i.engine) 1 c).itemWrite i (i.dst + i.done) bs v1 = (.ok [], v2, d2)) := ⟨(st (((holding [({ fromTo 0 (arrayAt 0x200000000) (item 1 31 .running (desc 10 0 0 64)) with back := 8 } : Item)]).wr R.TRACE.RING_CFG_SIZE_LOG2 16).wr R.TRACE.RD (2 ^ 16 + 4))), (31), (8), (4), (5), (view ([0, 0, 0, 0] ++ [1, 2, 3, 4, 5, 6, 7, 8])), (_), (_), (({ fromTo 0 (arrayAt 0x200000000) (item 1 31 .running (desc 10 0 0 64)) with back := 8 } : Item)), ([1, 2, 3, 4, 5, 6, 7, 8]), (_), (_), ⟨by decide +kernel, by decide +kernel, by decide +kernel, ⟨by decide +kernel, by decide +kernel, split_1_3 (by decide +kernel), split_1_3 (by decide +kernel)⟩⟩⟩

theorem witness_EngineMoves_19 : ∃ (s : State) (e : Nat) (c : Nat) (t : Nat) (v : MemView) (v1 : MemView) (i : Item) (d1 : Dev), (e < 32) ∧ (s.dev.runs e 11 i = true) ∧ (0 < c) ∧ (c = min (s.dev.requestLen true (i.dst + i.done)) (i.len - i.done)) ∧ ((s.dev.toTime t).itemWrite i (i.dst + i.done) (List.replicate c 0) v = (.ok [], v1, d1)) := ⟨(st (holding [(fromTo (0) (arrayAt 0x200000000) (item 1 31 .running (desc 11 0 0 8)))])), (31), (8), (5), (view []), (_), ((fromTo (0) (arrayAt 0x200000000) (item 1 31 .running (desc 11 0 0 8)))), (_), ⟨by decide +kernel, by decide +kernel, by decide +kernel, by decide +kernel, split_1_3 (by decide +kernel)⟩⟩

theorem witness_EngineMoves_20 : ∃ (s : State) (e : Nat) (c : Nat) (k : Nat) (t : Nat) (v : MemView) (v1 : MemView) (i : Item) (bs : Bytes) (d1 : Dev), (e < 32) ∧ (s.dev.runs e 11 i = true) ∧ (i.len ≤ i.done) ∧ (0 < c) ∧ (c = min (s.dev.requestLen false i.backAddr) (i.state + i.len - i.back)) ∧ ((s.dev.toTime t).itemRead i i.backAddr c v = (.ok bs, v1, d1)) ∧ (k = agreeLen bs (List.replicate c 0)) := ⟨(st (holding [({ fromTo 0 0 (item 1 31 .running (desc 11 0 0 8)) with done := 8 } : Item)])), (31), (8), (8), (5), (view [0, 0, 0, 0, 0, 0, 0, 0]), (_), (({ fromTo 0 0 (item 1 31 .running (desc 11 0 0 8)) with done := 8 } : Item)), ([0, 0, 0, 0, 0, 0, 0, 0]), (_), ⟨by decide +kernel, by decide +kernel, by decide +kernel, ⟨by decide +kernel, by decide +kernel, split_1_3 (by decide +kernel), by decide +kernel⟩⟩⟩

theorem witness_EngineMoves_20_1 : ∃ (s : State) (e : Nat) (c : Nat) (k : Nat) (t : Nat) (v : MemView) (v1 : MemView) (i : Item) (bs : Bytes) (d1 : Dev), (e < 32) ∧ (s.dev.runs e 11 i = true) ∧ (i.len ≤ i.done) ∧ (0 < c) ∧ (c = min (s.dev.requestLen false i.backAddr) (i.state + i.len - i.back)) ∧ ((s.dev.toTime t).itemRead i i.backAddr c v = (.ok bs, v1, d1)) ∧ (k = agreeLen bs (List.replicate c 0)) := ⟨(st (holding [({ fromTo 0 0 (item 1 31 .running (desc 11 0 0 8)) with done := 8 } : Item)])), (31), (8), (5), (5), (view [0, 0, 0, 0, 0, 9, 0, 0]), (_), (({ fromTo 0 0 (item 1 31 .running (desc 11 0 0 8)) with done := 8 } : Item)), ([0, 0, 0, 0, 0, 9, 0, 0]), (_), ⟨by decide +kernel, by decide +kernel, by decide +kernel, ⟨by decide +kernel, by decide +kernel, split_1_3 (by decide +kernel), by decide +kernel⟩⟩⟩

theorem witness_EngineMoves_21_ty1 : ∃ (s : State) (ty : Nat) (e : Nat) (i : Item), (ty ∈ [1, 2, 4, 5, 8]) ∧ (e < 32) ∧ (s.dev.runs e ty i = true) ∧ (i.len = i.done) := ⟨(st (holding [({ (item 1 31 .running (desc 1 0 0 8)) with done := 8 } : Item)])), (1), (31), (({ (item 1 31 .running (desc 1 0 0 8)) with done := 8 } : Item)), by and_intros <;> decide +kernel⟩

theorem witness_EngineMoves_21_ty2 : ∃ (s : State) (ty : Nat) (e : Nat) (i : Item), (ty ∈ [1, 2, 4, 5, 8]) ∧ (e < 32) ∧ (s.dev.runs e ty i = true) ∧ (i.len = i.done) := ⟨(st (holding [({ (item 1 31 .running (desc 2 0 0 8)) with done := 8 } : Item)])), (2), (31), (({ (item 1 31 .running (desc 2 0 0 8)) with done := 8 } : Item)), by and_intros <;> decide +kernel⟩

theorem witness_EngineMoves_21_ty4 : ∃ (s : State) (ty : Nat) (e : Nat) (i : Item), (ty ∈ [1, 2, 4, 5, 8]) ∧ (e < 32) ∧ (s.dev.runs e ty i = true) ∧ (i.len = i.done) := ⟨(st (holding [({ (item 1 31 .running (desc 4 0 0 8)) with done := 8 } : Item)])), (4), (31), (({ (item 1 31 .running (desc 4 0 0 8)) with done := 8 } : Item)), by and_intros <;> decide +kernel⟩

theorem witness_EngineMoves_21_ty5 : ∃ (s : State) (ty : Nat) (e : Nat) (i : Item), (ty ∈ [1, 2, 4, 5, 8]) ∧ (e < 32) ∧ (s.dev.runs e ty i = true) ∧ (i.len = i.done) := ⟨(st (holding [({ (item 1 31 .running (desc 5 0 0 8)) with done := 8 } : Item)])), (5), (31), (({ (item 1 31 .running (desc 5 0 0 8)) with done := 8 } : Item)), by and_intros <;> decide +kernel⟩

theorem witness_EngineMoves_21_ty8 : ∃ (s : State) (ty : Nat) (e : Nat) (i : Item), (ty ∈ [1, 2, 4, 5, 8]) ∧ (e < 32) ∧ (s.dev.runs e ty i = true) ∧ (i.len = i.done) := ⟨(st (holding [({ (item 1 31 .running (desc 8 0 0 8)) with done := 8 } : Item)])), (8), (31), (({ (item 1 31 .running (desc 8 0 0 8)) with done := 8 } : Item)), by and_intros <;> decide +kernel⟩

theorem witness_EngineMoves_22 : ∃ (ty : Nat) (e : Nat), (ty ∈ [1, 2, 3, 4, 5, 6, 7, 8, 9, 10, 11]) ∧ (32 ≤ e) := ⟨(1), (32), by and_intros <;> decide +kernel⟩

theorem witness_EngineMoves_22_1 : ∃ (ty : Nat) (e : Nat), (ty ∈ [1, 2, 3, 4, 5, 6, 7, 8, 9, 10, 11]) ∧ (32 ≤ e) := ⟨(11), (32), by and_intros <;> decide +kernel⟩

theorem witness_InjectCaptureLoad_0 : ∃ (s : State) (e : Nat) (i : Item), (e < 32) ∧ (s.dev.runningType e 6 = some i) ∧ (bitAt (s.dev.mapEntry i.injectBelay) 15 = 1) ∧ (i.len ≠ ((s.dev.injectList i.injectBelay).length + 7) / 8) := ⟨(st (({ holding [(item 1 31 .running (put 48 (leBytes (9 + 15 * 2 ^ 48) 8) (desc 6 0 0 1)))] with arr := { (holding [(item 1 31 .running (put 48 (leBytes (9 + 15 * 2 ^ 48) 8) (desc 6 0 0 1)))]).arr with injTab := [(15, List.replicate 9 0)] } } : Dev).wrAt R.TAKE.PITCH_MAP 0 15 (1 * 2 ^ 15))), (31), ((item 1 31 .running (put 48 (leBytes (9 + 15 * 2 ^ 48) 8) (desc 6 0 0 1)))), by and_intros <;> decide +kernel⟩

theorem witness_InjectCaptureLoad_1 : ∃ (s : State) (e : Nat) (i : Item), (e < 32) ∧ (s.dev.runningType e 6 = some i) ∧ ((bitAt (s.dev.mapEntry i.injectBelay) 15 = 0 ∨ i.len = ((s.dev.injectList i.injectBelay).length + 7) / 8)) ∧ (256 ≤ s.dev.eng.inject.length) := ⟨(st { (({ holding [(item 1 31 .running (put 48 (leBytes (9 + 15 * 2 ^ 48) 8) (desc 6 0 0 2)))] with arr := { (holding [(item 1 31 .running (put 48 (leBytes (9 + 15 * 2 ^ 48) 8) (desc 6 0 0 2)))]).arr with injTab := [(15, List.replicate 9 0)] } } : Dev).wrAt R.TAKE.PITCH_MAP 0 15 (1 * 2 ^ 15)) with eng := { (({ holding [(item 1 31 .running (put 48 (leBytes (9 + 15 * 2 ^ 48) 8) (desc 6 0 0 2)))] with arr := { (holding [(item 1 31 .running (put 48 (leBytes (9 + 15 * 2 ^ 48) 8) (desc 6 0 0 2)))]).arr with injTab := [(15, List.replicate 9 0)] } } : Dev).wrAt R.TAKE.PITCH_MAP 0 15 (1 * 2 ^ 15)).eng with inject := List.replicate 256 default } }), (31), ((item 1 31 .running (put 48 (leBytes (9 + 15 * 2 ^ 48) 8) (desc 6 0 0 2)))), by and_intros <;> decide +kernel⟩

theorem witness_InjectCaptureLoad_1_1 : ∃ (s : State) (e : Nat) (i : Item), (e < 32) ∧ (s.dev.runningType e 6 = some i) ∧ ((bitAt (s.dev.mapEntry i.injectBelay) 15 = 0 ∨ i.len = ((s.dev.injectList i.injectBelay).length + 7) / 8)) ∧ (256 ≤ s.dev.eng.inject.length) := ⟨(st { (({ holding [(item 1 31 .running (put 48 (leBytes (9 + 15 * 2 ^ 48) 8) (desc 6 0 0 1)))] with arr := { (holding [(item 1 31 .running (put 48 (leBytes (9 + 15 * 2 ^ 48) 8) (desc 6 0 0 1)))]).arr with injTab := [(15, List.replicate 9 0)] } } : Dev).wrAt R.TAKE.PITCH_MAP 0 15 (0 * 2 ^ 15)) with eng := { (({ holding [(item 1 31 .running (put 48 (leBytes (9 + 15 * 2 ^ 48) 8) (desc 6 0 0 1)))] with arr := { (holding [(item 1 31 .running (put 48 (leBytes (9 + 15 * 2 ^ 48) 8) (desc 6 0 0 1)))]).arr with injTab := [(15, List.replicate 9 0)] } } : Dev).wrAt R.TAKE.PITCH_MAP 0 15 (0 * 2 ^ 15)).eng with inject := List.replicate 256 default } }), (31), ((item 1 31 .running (put 48 (leBytes (9 + 15 * 2 ^ 48) 8) (desc 6 0 0 1)))), by and_intros <;> decide +kernel⟩

theorem witness_InjectCaptureLoad_2 : ∃ (s : State) (e : Nat) (t : Nat) (v : MemView) (v1 : MemView) (i : Item) (bs : Bytes) (d1 : Dev), (e < 32) ∧ (s.dev.runningType e 6 = some i) ∧ (bitAt (s.dev.mapEntry i.injectBelay) 15 = 0) ∧ (s.dev.eng.inject.length < 256) ∧ ((s.dev.toTime t).itemRead i i.src i.len v = (.ok bs, v1, d1)) := ⟨(st (({ holding [(item 1 31 .running (put 48 (leBytes (9 + 15 * 2 ^ 48) 8) (desc 6 0 0 2)))] with arr := { (holding [(item 1 31 .running (put 48 (leBytes (9 + 15 * 2 ^ 48) 8) (desc 6 0 0 2)))]).arr with injTab := [(15, List.replicate 9 0)] } } : Dev).wrAt R.TAKE.PITCH_MAP 0 15 (0 * 2 ^ 15))), (31), (5), (view [5, 1]), (_), ((item 1 31 .running (put 48 (leBytes (9 + 15 * 2 ^ 48) 8) (desc 6 0 0 2)))), ([5, 1]), (_), ⟨by decide +kernel, by decide +kernel, by decide +kernel, by decide +kernel, split_1_3 (by decide +kernel)⟩⟩

theorem witness_InjectCaptureLoad_3 : ∃ (s : State) (e : Nat) (t : Nat) (v : MemView) (v1 : MemView) (i : Item) (bs : Bytes) (d1 : Dev), (e < 32) ∧ (s.dev.runningType e 6 = some i) ∧ (bitAt (s.dev.mapEntry i.injectBelay) 15 = 1) ∧ (i.len = ((s.dev.injectList i.injectBelay).length + 7) / 8) ∧ (s.dev.eng.inject.length < 256) ∧ ((s.dev.toTime t).itemRead i i.src i.len v = (.ok bs, v1, d1)) ∧ ((i.injectTake < s.dev.rd R.TAKE.TAKE_NUMBER ∨ i.injectTake = s.dev.rd R.TAKE.TAKE_NUMBER ∧
      (i.injectBelay < s.dev.tk.belay ∨ i.injectBelay = s.dev.tk.belay ∧ (s.dev.tk.phase = .stepping ∨ s.dev.tk.phase = .ended)))) := ⟨(st { (({ holding [(item 1 31 .running (put 48 (leBytes (9 + 15 * 2 ^ 48) 8) (desc 6 0 0 2)))] with arr := { (holding [(item 1 31 .running (put 48 (leBytes (9 + 15 * 2 ^ 48) 8) (desc 6 0 0 2)))]).arr with injTab := [(15, List.replicate 9 0)] } } : Dev).wrAt R.TAKE.PITCH_MAP 0 15 (1 * 2 ^ 15)).wr R.TAKE.TAKE_NUMBER 9 with tk := { up.tk with phase := .stepping, belay := 15, pitches := 1 } }), (31), (5), (view [5, 1]), (_), ((item 1 31 .running (put 48 (leBytes (9 + 15 * 2 ^ 48) 8) (desc 6 0 0 2)))), ([5, 1]), (_), ⟨by decide +kernel, by decide +kernel, by decide +kernel, ⟨by decide +kernel, by decide +kernel, split_1_3 (by decide +kernel), by decide +kernel⟩⟩⟩

theorem witness_InjectCaptureLoad_3_1 : ∃ (s : State) (e : Nat) (t : Nat) (v : MemView) (v1 : MemView) (i : Item) (bs : Bytes) (d1 : Dev), (e < 32) ∧ (s.dev.runningType e 6 = some i) ∧ (bitAt (s.dev.mapEntry i.injectBelay) 15 = 1) ∧ (i.len = ((s.dev.injectList i.injectBelay).length + 7) / 8) ∧ (s.dev.eng.inject.length < 256) ∧ ((s.dev.toTime t).itemRead i i.src i.len v = (.ok bs, v1, d1)) ∧ ((i.injectTake < s.dev.rd R.TAKE.TAKE_NUMBER ∨ i.injectTake = s.dev.rd R.TAKE.TAKE_NUMBER ∧
      (i.injectBelay < s.dev.tk.belay ∨ i.injectBelay = s.dev.tk.belay ∧ (s.dev.tk.phase = .stepping ∨ s.dev.tk.phase = .ended)))) := ⟨(st ((({ holding [(item 1 31 .running (put 48 (leBytes (9 + 15 * 2 ^ 48) 8) (desc 6 0 0 2)))] with arr := { (holding [(item 1 31 .running (put 48 (leBytes (9 + 15 * 2 ^ 48) 8) (desc 6 0 0 2)))]).arr with injTab := [(15, List.replicate 9 0)] } } : Dev).wrAt R.TAKE.PITCH_MAP 0 15 (1 * 2 ^ 15)).wr R.TAKE.TAKE_NUMBER 10)), (31), (5), (view [5, 1]), (_), ((item 1 31 .running (put 48 (leBytes (9 + 15 * 2 ^ 48) 8) (desc 6 0 0 2)))), ([5, 1]), (_), ⟨by decide +kernel, by decide +kernel, by decide +kernel, ⟨by decide +kernel, by decide +kernel, split_1_3 (by decide +kernel), by decide +kernel⟩⟩⟩

theorem witness_InjectCaptureLoad_4 : ∃ (s : State) (e : Nat) (t : Nat) (v : MemView) (v1 : MemView) (i : Item) (bs : Bytes) (d1 : Dev), (e < 32) ∧ (s.dev.runningType e 6 = some i) ∧ (s.dev.itemsWf = true) ∧ (bitAt (s.dev.mapEntry i.injectBelay) 15 = 1) ∧ (i.len = ((s.dev.injectList i.injectBelay).length + 7) / 8) ∧ (s.dev.eng.inject.length < 256) ∧ ((s.dev.toTime t).itemRead i i.src i.len v = (.ok bs, v1, d1)) ∧ (¬ (i.injectTake < s.dev.rd R.TAKE.TAKE_NUMBER ∨ i.injectTake = s.dev.rd R.TAKE.TAKE_NUMBER ∧
      (i.injectBelay < s.dev.tk.belay ∨ i.injectBelay = s.dev.tk.belay ∧ (s.dev.tk.phase = .stepping ∨ s.dev.tk.phase = .ended)))) := ⟨(st { (({ holding [(item 1 31 .running (put 48 (leBytes (9 + 15 * 2 ^ 48) 8) (desc 6 0 0 2)))] with arr := { (holding [(item 1 31 .running (put 48 (leBytes (9 + 15 * 2 ^ 48) 8) (desc 6 0 0 2)))]).arr with injTab := [(15, List.replicate 9 0)] } } : Dev).wrAt R.TAKE.PITCH_MAP 0 15 (1 * 2 ^ 15)).wr R.TAKE.TAKE_NUMBER 9 with tk := { up.tk with phase := .waiting, belay := 15, pitches := 1 } }), (31), (5), (view [5, 1]), (_), ((item 1 31 .running (put 48 (leBytes (9 + 15 * 2 ^ 48) 8) (desc 6 0 0 2)))), ([5, 1]), (_), ⟨by decide +kernel, by decide +kernel, by decide +kernel, ⟨by decide +kernel, by decide +kernel, by decide +kernel, split_1_3 (by decide +kernel), by decide +kernel⟩⟩⟩

theorem witness_InjectCaptureLoad_4_1 : ∃ (s : State) (e : Nat) (t : Nat) (v : MemView) (v1 : MemView) (i : Item) (bs : Bytes) (d1 : Dev), (e < 32) ∧ (s.dev.runningType e 6 = some i) ∧ (s.dev.itemsWf = true) ∧ (bitAt (s.dev.mapEntry i.injectBelay) 15 = 1) ∧ (i.len = ((s.dev.injectList i.injectBelay).length + 7) / 8) ∧ (s.dev.eng.inject.length < 256) ∧ ((s.dev.toTime t).itemRead i i.src i.len v = (.ok bs, v1, d1)) ∧ (¬ (i.injectTake < s.dev.rd R.TAKE.TAKE_NUMBER ∨ i.injectTake = s.dev.rd R.TAKE.TAKE_NUMBER ∧
      (i.injectBelay < s.dev.tk.belay ∨ i.injectBelay = s.dev.tk.belay ∧ (s.dev.tk.phase = .stepping ∨ s.dev.tk.phase = .ended)))) := ⟨(st (({ holding [(item 1 31 .running (put 48 (leBytes (9 + 15 * 2 ^ 48) 8) (desc 6 0 0 2)))] with arr := { (holding [(item 1 31 .running (put 48 (leBytes (9 + 15 * 2 ^ 48) 8) (desc 6 0 0 2)))]).arr with injTab := [(15, List.replicate 9 0)] } } : Dev).wrAt R.TAKE.PITCH_MAP 0 15 (1 * 2 ^ 15))), (31), (5), (view [5, 1]), (_), ((item 1 31 .running (put 48 (leBytes (9 + 15 * 2 ^ 48) 8) (desc 6 0 0 2)))), ([5, 1]), (_), ⟨by decide +kernel, by decide +kernel, by decide +kernel, ⟨by decide +kernel, by decide +kernel, by decide +kernel, split_1_3 (by decide +kernel), by decide +kernel⟩⟩⟩

theorem witness_InjectCaptureLoad_5 : ∃ (s : State) (e : Nat) (i : Item), (e < 32) ∧ (s.dev.runningType e 7 = some i) ∧ (i.len ≤ i.done) := ⟨(st (({ holding [({ item 1 31 .running (desc 7 0 0 256) with done := 256 } : Item)] with eng := { (holding [({ item 1 31 .running (desc 7 0 0 256) with done := 256 } : Item)]).eng with captures := [] } } : Dev).wr R.TAKE.TAKE_NUMBER 5)), (31), (({ item 1 31 .running (desc 7 0 0 256) with done := 256 } : Item)), by and_intros <;> decide +kernel⟩

theorem witness_InjectCaptureLoad_6 : ∃ (s : State) (e : Nat) (i : Item), (e < 32) ∧ (s.dev.runningType e 7 = some i) ∧ (i.done < i.len) ∧ (s.dev.dueRecord i.id = none) := ⟨(st (({ holding [({ item 1 31 .running (desc 7 0 0 256) with done := 128 } : Item)] with eng := { (holding [({ item 1 31 .running (desc 7 0 0 256) with done := 128 } : Item)]).eng with captures := [(1, 5, 7), (2, 4, 8)] } } : Dev).wr R.TAKE.TAKE_NUMBER 5)), (31), (({ item 1 31 .running (desc 7 0 0 256) with done := 128 } : Item)), by and_intros <;> decide +kernel⟩

theorem witness_InjectCaptureLoad_7 : ∃ (s : State) (e : Nat) (t : Nat) (v : MemView) (v1 : MemView) (i : Item) (c : Nat × Nat × Nat) (d1 : Dev), (e < 32) ∧ (s.dev.runningType e 7 = some i) ∧ (i.done < i.len) ∧ (s.dev.dueRecord i.id = some c) ∧ ((s.dev.toTime t).itemWrite i (i.dst + i.done) (leBytes c.2.2 128) v = (.ok [], v1, d1)) := ⟨(st (({ holding [(fromTo 0 1024 ({ item 1 31 .running (desc 7 0 0 256) with done := 128 } : Item))] with eng := { (holding [(fromTo 0 1024 ({ item 1 31 .running (desc 7 0 0 256) with done := 128 } : Item))]).eng with captures := [(2, 1, 6), (1, 4, 7)] } } : Dev).wr R.TAKE.TAKE_NUMBER 5)), (31), (5), (view []), (_), ((fromTo 0 1024 ({ item 1 31 .running (desc 7 0 0 256) with done := 128 } : Item))), ((1, 4, 7)), (_), ⟨by decide +kernel, by decide +kernel, by decide +kernel, by decide +kernel, split_1_3 (by decide +kernel)⟩⟩

theorem witness_InjectCaptureLoad_7_1 : ∃ (s : State) (e : Nat) (t : Nat) (v : MemView) (v1 : MemView) (i : Item) (c : Nat × Nat × Nat) (d1 : Dev), (e < 32) ∧ (s.dev.runningType e 7 = some i) ∧ (i.done < i.len) ∧ (s.dev.dueRecord i.id = some c) ∧ ((s.dev.toTime t).itemWrite i (i.dst + i.done) (leBytes c.2.2 128) v = (.ok [], v1, d1)) := ⟨(st (({ holding [(fromTo 0 1024 ({ item 1 31 .running (desc 7 0 0 256) with done := 0 } : Item))] with eng := { (holding [(fromTo 0 1024 ({ item 1 31 .running (desc 7 0 0 256) with done := 0 } : Item))]).eng with captures := [(2, 1, 6), (1, 4, 7)] } } : Dev).wr R.TAKE.TAKE_NUMBER 5)), (31), (5), (view []), (_), ((fromTo 0 1024 ({ item 1 31 .running (desc 7 0 0 256) with done := 0 } : Item))), ((1, 4, 7)), (_), ⟨by decide +kernel, by decide +kernel, by decide +kernel, by decide +kernel, split_1_3 (by decide +kernel)⟩⟩

theorem witness_InjectCaptureLoad_9 : ∃ (s : State) (e : Nat) (i : Item), (e < 32) ∧ (s.dev.runningType e 3 = some i) ∧ (s.dev.item i.id = some i) ∧ (i.len ≤ i.back) := ⟨(st (holding [({ item 1 31 .running (desc 3 0 0 8) with back := 8 } : Item)])), (31), (({ item 1 31 .running (desc 3 0 0 8) with back := 8 } : Item)), by and_intros <;> decide +kernel⟩

theorem witness_InjectCaptureLoad_10 : ∃ (s : State) (e : Nat) (t : Nat) (v : MemView) (v1 : MemView) (i : Item) (bs : Bytes) (r : UnitResult) (d1 : Dev) (d2 : Dev), (e < 32) ∧ (s.dev.runningType e 3 = some i) ∧ (s.dev.item i.id = some i) ∧ (i.back < i.len) ∧ (bs ≠ []) ∧ ((s.dev.toTime t).fetchUnit i v = (.ok bs, v1, d1)) ∧ (d1.takeUnit bs v1 = (r, d2)) ∧ (d2.item i.id = some i) := ⟨(st ({ ((holding [(fromTo 0 0 ({ item 1 31 .running (desc 3 0 0 44) with back := 0 } : Item))]).wr R.LOAD.LOAD_STATUS_STATE 1).wr R.LOAD.FRAME_COUNT 2 with ld := { up.ld with expected := 1 } } : Dev)), (31), (5), (view (put 40 [9] (frame 1 0 1 (List.replicate 12 0)))), (_), ((fromTo 0 0 ({ item 1 31 .running (desc 3 0 0 44) with back := 0 } : Item))), (put 40 [9] (frame 1 0 1 (List.replicate 12 0))), (.refused 0x43), (_), (_), ⟨by decide +kernel, by decide +kernel, by decide +kernel, ⟨by decide +kernel, by decide +kernel, split_1_3 (by decide +kernel), split_1_2 (by decide +kernel), by decide +kernel⟩⟩⟩

theorem witness_InjectCaptureLoad_10_1 : ∃ (s : State) (e : Nat) (t : Nat) (v : MemView) (v1 : MemView) (i : Item) (bs : Bytes) (r : UnitResult) (d1 : Dev) (d2 : Dev), (e < 32) ∧ (s.dev.runningType e 3 = some i) ∧ (s.dev.item i.id = some i) ∧ (i.back < i.len) ∧ (bs ≠ []) ∧ ((s.dev.toTime t).fetchUnit i v = (.ok bs, v1, d1)) ∧ (d1.takeUnit bs v1 = (r, d2)) ∧ (d2.item i.id = some i) := ⟨(st ({ ((holding [(fromTo 0 0 ({ item 1 31 .running (desc 3 0 0 44) with back := 0 } : Item))]).wr R.LOAD.LOAD_STATUS_STATE 1).wr R.LOAD.FRAME_COUNT 2 with ld := { up.ld with expected := 1 } } : Dev)), (31), (5), (view (frame 1 0 1 (List.replicate 12 0))), (_), ((fromTo 0 0 ({ item 1 31 .running (desc 3 0 0 44) with back := 0 } : Item))), (frame 1 0 1 (List.replicate 12 0)), (.taken), (_), (_), ⟨by decide +kernel, by decide +kernel, by decide +kernel, ⟨by decide +kernel, by decide +kernel, split_1_3 (by decide +kernel), split_1_2 (by decide +kernel), by decide +kernel⟩⟩⟩

theorem witness_InjectCaptureLoad_10_2 : ∃ (s : State) (e : Nat) (t : Nat) (v : MemView) (v1 : MemView) (i : Item) (bs : Bytes) (r : UnitResult) (d1 : Dev) (d2 : Dev), (e < 32) ∧ (s.dev.runningType e 3 = some i) ∧ (s.dev.item i.id = some i) ∧ (i.back < i.len) ∧ (bs ≠ []) ∧ ((s.dev.toTime t).fetchUnit i v = (.ok bs, v1, d1)) ∧ (d1.takeUnit bs v1 = (r, d2)) ∧ (d2.item i.id = some i) := ⟨(st ({ ((holding [(fromTo 0 0 ({ item 1 31 .running (desc 3 0 0 45) with back := 0 } : Item))]).wr R.LOAD.LOAD_STATUS_STATE 1).wr R.LOAD.FRAME_COUNT 2 with ld := { up.ld with expected := 1 } } : Dev)), (31), (5), (view (frame 1 0 1 (List.replicate 12 0))), (_), ((fromTo 0 0 ({ item 1 31 .running (desc 3 0 0 45) with back := 0 } : Item))), (frame 1 0 1 (List.replicate 12 0)), (.taken), (_), (_), ⟨by decide +kernel, by decide +kernel, by decide +kernel, ⟨by decide +kernel, by decide +kernel, split_1_3 (by decide +kernel), split_1_2 (by decide +kernel), by decide +kernel⟩⟩⟩

theorem witness_InjectCaptureLoad_10_3 : ∃ (s : State) (e : Nat) (t : Nat) (v : MemView) (v1 : MemView) (i : Item) (bs : Bytes) (r : UnitResult) (d1 : Dev) (d2 : Dev), (e < 32) ∧ (s.dev.runningType e 3 = some i) ∧ (s.dev.item i.id = some i) ∧ (i.back < i.len) ∧ (bs ≠ []) ∧ ((s.dev.toTime t).fetchUnit i v = (.ok bs, v1, d1)) ∧ (d1.takeUnit bs v1 = (r, d2)) ∧ (d2.item i.id = some i) := ⟨(st { ({ ((holding [(fromTo 0 0 ({ item 1 31 .running (desc 3 0 0 44) with back := 0 } : Item))]).wr R.LOAD.LOAD_STATUS_STATE 1).wr R.LOAD.FRAME_COUNT 2 with ld := { up.ld with expected := 1 } } : Dev) with ld := { up.ld with expected := 1, fencePending := true } }), (31), (5), (view (frame 1 0 1 (List.replicate 12 0))), (_), ((fromTo 0 0 ({ item 1 31 .running (desc 3 0 0 44) with back := 0 } : Item))), (frame 1 0 1 (List.replicate 12 0)), (.wait), (_), (_), ⟨by decide +kernel, by decide +kernel, by decide +kernel, ⟨by decide +kernel, by decide +kernel, split_1_3 (by decide +kernel), split_1_2 (by decide +kernel), by decide +kernel⟩⟩⟩

theorem witness_InjectCaptureLoad_11 : ∃ (s : State) (e : Nat) (t : Nat) (v : MemView) (v1 : MemView) (i : Item) (d1 : Dev), (e < 32) ∧ (s.dev.runningType e 3 = some i) ∧ (s.dev.item i.id = some i) ∧ (i.back < i.len) ∧ ((s.dev.toTime t).fetchUnit i v = (.ok [], v1, d1)) := ⟨(st ({ ((holding [(fromTo 0 0 ({ item 1 31 .running (desc 3 0 0 43) with back := 0 } : Item))]).wr R.LOAD.LOAD_STATUS_STATE 1).wr R.LOAD.FRAME_COUNT 2 with ld := { up.ld with expected := 1 } } : Dev)), (31), (5), (view (frame 1 0 1 (List.replicate 12 0))), (_), ((fromTo 0 0 ({ item 1 31 .running (desc 3 0 0 43) with back := 0 } : Item))), (_), ⟨by decide +kernel, by decide +kernel, by decide +kernel, by decide +kernel, split_1_3 (by decide +kernel)⟩⟩

theorem witness_InjectCaptureLoad_12 : ∃ (s : State) (e : Nat) (t : Nat) (a : Nat) (b : Nat) (v : MemView) (v1 : MemView) (i : Item) (d1 : Dev), (e < 32) ∧ (s.dev.runningType e 3 = some i) ∧ (s.dev.item i.id = some i) ∧ (i.back < i.len) ∧ ((s.dev.toTime t).fetchUnit i v = (.stop a b, v1, d1)) := ⟨(st ({ ((holding [(fromTo 0 0 ({ item 1 31 .running (desc 3 0 0 43) with back := 0 } : Item))]).wr R.LOAD.LOAD_STATUS_STATE 1).wr R.LOAD.FRAME_COUNT 2 with ld := { up.ld with expected := 1 } } : Dev)), (31), (5), (0x1C), (0), (view [1]), (_), ((fromTo 0 0 ({ item 1 31 .running (desc 3 0 0 43) with back := 0 } : Item))), (_), ⟨by decide +kernel, by decide +kernel, by decide +kernel, by decide +kernel, split_1_3 (by decide +kernel)⟩⟩

theorem witness_NocPackets_0 : ∃ (s : State) (node : Nat), (s.dev.nodeExists node = false) := ⟨(st up), (0xC0), by decide +kernel⟩

theorem witness_NocPackets_0_1 : ∃ (s : State) (node : Nat), (s.dev.nodeExists node = false) := ⟨(st up), (8), by decide +kernel⟩

theorem witness_NocPackets_1 : ∃ (s : State) (node : Nat) (input : Nat) (h : Nat) (t : Nat), (s.dev.nodeExists node = true) ∧ ((s.dev.toTime t).mustWait node (input % 8) h = true) := ⟨(st { up with net := { up.net with drainLeft := [0, 1] } }), (0), (0), (1 * 4 + 341 * 2 ^ 10 + 0 * 2 ^ 22 + 0), (5), by and_intros <;> decide +kernel⟩

theorem witness_NocPackets_1_1 : ∃ (s : State) (node : Nat) (input : Nat) (h : Nat) (t : Nat), (s.dev.nodeExists node = true) ∧ ((s.dev.toTime t).mustWait node (input % 8) h = true) := ⟨(st { up with net := { up.net with queued := [⟨0, 7, 7, 1 * 4 + 341 * 2 ^ 10 + 0 * 2 ^ 22 + 0, 8, 0, 0, false, false⟩], nextPacket := 9 } }), (0), (15), (1 * 4 + 341 * 2 ^ 10 + 0 * 2 ^ 22 + 0), (5), by and_intros <;> decide +kernel⟩

theorem witness_NocPackets_3 : ∃ (s : State) (node : Nat) (input : Nat) (h : Nat) (t : Nat), (s.dev.nodeExists node = true) ∧ ((s.dev.toTime t).mustWait node (input % 8) h = false) := ⟨(st up), (0xB7), (9), (0), (5), by and_intros <;> decide +kernel⟩

theorem witness_NocPackets_4 : ∃ (s : State) (node : Nat) (input : Nat) (h : Nat) (err : Nat) (t : Nat) (src : Source) (d1 : Dev), (s.dev.nodeExists node = true) ∧ ((s.dev.toTime t).mustWait node (input % 8) h = false) ∧ (err ≠ 2) ∧ ((s.dev.endpointDomain (fieldAt h 0 10) = none ∨ 8 ≤ fieldAt h 22 4)) ∧ (src = (s.dev.toTime t).sourceOf node (input % 8) h) ∧ (d1 = (s.dev.toTime t).when ((err == 1 || src.err) && s.dev.corrects node) Dev.correctFlit) := ⟨(st up), (0), (0), (1023 + 341 * 2 ^ 10 + 0 * 2 ^ 22 + 0), (0), (5), (_), (_), ⟨by decide +kernel, by decide +kernel, by decide +kernel, ⟨by decide +kernel, rfl, rfl⟩⟩⟩

theorem witness_NocPackets_4_1 : ∃ (s : State) (node : Nat) (input : Nat) (h : Nat) (err : Nat) (t : Nat) (src : Source) (d1 : Dev), (s.dev.nodeExists node = true) ∧ ((s.dev.toTime t).mustWait node (input % 8) h = false) ∧ (err ≠ 2) ∧ ((s.dev.endpointDomain (fieldAt h 0 10) = none ∨ 8 ≤ fieldAt h 22 4)) ∧ (src = (s.dev.toTime t).sourceOf node (input % 8) h) ∧ (d1 = (s.dev.toTime t).when ((err == 1 || src.err) && s.dev.corrects node) Dev.correctFlit) := ⟨(st up), (0), (0), (0 + 341 * 2 ^ 10 + 8 * 2 ^ 22 + 0), (0), (5), (_), (_), ⟨by decide +kernel, by decide +kernel, by decide +kernel, ⟨by decide +kernel, rfl, rfl⟩⟩⟩

theorem witness_NocPackets_4_2 : ∃ (s : State) (node : Nat) (input : Nat) (h : Nat) (err : Nat) (t : Nat) (src : Source) (d1 : Dev), (s.dev.nodeExists node = true) ∧ ((s.dev.toTime t).mustWait node (input % 8) h = false) ∧ (err ≠ 2) ∧ ((s.dev.endpointDomain (fieldAt h 0 10) = none ∨ 8 ≤ fieldAt h 22 4)) ∧ (src = (s.dev.toTime t).sourceOf node (input % 8) h) ∧ (d1 = (s.dev.toTime t).when ((err == 1 || src.err) && s.dev.corrects node) Dev.correctFlit) := ⟨(st up), (0), (0), (0 + 341 * 2 ^ 10 + 15 * 2 ^ 22 + 2 ^ 30), (0), (5), (_), (_), ⟨by decide +kernel, by decide +kernel, by decide +kernel, ⟨by decide +kernel, rfl, rfl⟩⟩⟩

theorem witness_NocPackets_4_3 : ∃ (s : State) (node : Nat) (input : Nat) (h : Nat) (err : Nat) (t : Nat) (src : Source) (d1 : Dev), (s.dev.nodeExists node = true) ∧ ((s.dev.toTime t).mustWait node (input % 8) h = false) ∧ (err ≠ 2) ∧ ((s.dev.endpointDomain (fieldAt h 0 10) = none ∨ 8 ≤ fieldAt h 22 4)) ∧ (src = (s.dev.toTime t).sourceOf node (input % 8) h) ∧ (d1 = (s.dev.toTime t).when ((err == 1 || src.err) && s.dev.corrects node) Dev.correctFlit) := ⟨(st up), (0), (0), (1023 + 341 * 2 ^ 10 + 0 * 2 ^ 22 + 0), (1), (5), (_), (_), ⟨by decide +kernel, by decide +kernel, by decide +kernel, ⟨by decide +kernel, rfl, rfl⟩⟩⟩

theorem witness_NocPackets_4_4 : ∃ (s : State) (node : Nat) (input : Nat) (h : Nat) (err : Nat) (t : Nat) (src : Source) (d1 : Dev), (s.dev.nodeExists node = true) ∧ ((s.dev.toTime t).mustWait node (input % 8) h = false) ∧ (err ≠ 2) ∧ ((s.dev.endpointDomain (fieldAt h 0 10) = none ∨ 8 ≤ fieldAt h 22 4)) ∧ (src = (s.dev.toTime t).sourceOf node (input % 8) h) ∧ (d1 = (s.dev.toTime t).when ((err == 1 || src.err) && s.dev.corrects node) Dev.correctFlit) := ⟨(st up), (0), (0), (0 + 341 * 2 ^ 10 + 8 * 2 ^ 22 + 0), (1), (5), (_), (_), ⟨by decide +kernel, by decide +kernel, by decide +kernel, ⟨by decide +kernel, rfl, rfl⟩⟩⟩

theorem witness_NocPackets_4_5 : ∃ (s : State) (node : Nat) (input : Nat) (h : Nat) (err : Nat) (t : Nat) (src : Source) (d1 : Dev), (s.dev.nodeExists node = true) ∧ ((s.dev.toTime t).mustWait node (input % 8) h = false) ∧ (err ≠ 2) ∧ ((s.dev.endpointDomain (fieldAt h 0 10) = none ∨ 8 ≤ fieldAt h 22 4)) ∧ (src = (s.dev.toTime t).sourceOf node (input % 8) h) ∧ (d1 = (s.dev.toTime t).when ((err == 1 || src.err) && s.dev.corrects node) Dev.correctFlit) := ⟨(st up), (0), (0), (0 + 341 * 2 ^ 10 + 15 * 2 ^ 22 + 2 ^ 30), (1), (5), (_), (_), ⟨by decide +kernel, by decide +kernel, by decide +kernel, ⟨by decide +kernel, rfl, rfl⟩⟩⟩

theorem witness_NocPackets_4_6 : ∃ (s : State) (node : Nat) (input : Nat) (h : Nat) (err : Nat) (t : Nat) (src : Source) (d1 : Dev), (s.dev.nodeExists node = true) ∧ ((s.dev.toTime t).mustWait node (input % 8) h = false) ∧ (err ≠ 2) ∧ ((s.dev.endpointDomain (fieldAt h 0 10) = none ∨ 8 ≤ fieldAt h 22 4)) ∧ (src = (s.dev.toTime t).sourceOf node (input % 8) h) ∧ (d1 = (s.dev.toTime t).when ((err == 1 || src.err) && s.dev.corrects node) Dev.correctFlit) := ⟨(st up), (0), (0), (1023 + 341 * 2 ^ 10 + 0 * 2 ^ 22 + 0), (3), (5), (_), (_), ⟨by decide +kernel, by decide +kernel, by decide +kernel, ⟨by decide +kernel, rfl, rfl⟩⟩⟩

theorem witness_NocPackets_4_7 : ∃ (s : State) (node : Nat) (input : Nat) (h : Nat) (err : Nat) (t : Nat) (src : Source) (d1 : Dev), (s.dev.nodeExists node = true) ∧ ((s.dev.toTime t).mustWait node (input % 8) h = false) ∧ (err ≠ 2) ∧ ((s.dev.endpointDomain (fieldAt h 0 10) = none ∨ 8 ≤ fieldAt h 22 4)) ∧ (src = (s.dev.toTime t).sourceOf node (input % 8) h) ∧ (d1 = (s.dev.toTime t).when ((err == 1 || src.err) && s.dev.corrects node) Dev.correctFlit) := ⟨(st up), (0), (0), (0 + 341 * 2 ^ 10 + 8 * 2 ^ 22 + 0), (3), (5), (_), (_), ⟨by decide +kernel, by decide +kernel, by decide +kernel, ⟨by decide +kernel, rfl, rfl⟩⟩⟩

theorem witness_NocPackets_4_8 : ∃ (s : State) (node : Nat) (input : Nat) (h : Nat) (err : Nat) (t : Nat) (src : Source) (d1 : Dev), (s.dev.nodeExists node = true) ∧ ((s.dev.toTime t).mustWait node (input % 8) h = false) ∧ (err ≠ 2) ∧ ((s.dev.endpointDomain (fieldAt h 0 10) = none ∨ 8 ≤ fieldAt h 22 4)) ∧ (src = (s.dev.toTime t).sourceOf node (input % 8) h) ∧ (d1 = (s.dev.toTime t).when ((err == 1 || src.err) && s.dev.corrects node) Dev.correctFlit) := ⟨(st up), (0), (0), (0 + 341 * 2 ^ 10 + 15 * 2 ^ 22 + 2 ^ 30), (3), (5), (_), (_), ⟨by decide +kernel, by decide +kernel, by decide +kernel, ⟨by decide +kernel, rfl, rfl⟩⟩⟩

theorem witness_NocPackets_5 : ∃ (s : State) (node : Nat) (input : Nat) (h : Nat) (err : Nat) (t : Nat) (i : Nat) (src : Source) (d1 : Dev), (s.dev.nodeExists node = true) ∧ ((s.dev.toTime t).mustWait node (input % 8) h = false) ∧ (err ≠ 2) ∧ (s.dev.endpointDomain (fieldAt h 0 10) = some i) ∧ (fieldAt h 22 4 < 8) ∧ (src = (s.dev.toTime t).sourceOf node (input % 8) h) ∧ (d1 = (s.dev.toTime t).when ((err == 1 || src.err) && s.dev.corrects node) Dev.correctFlit) := ⟨(st up), (0), (7), (1 * 4 + 341 * 2 ^ 10 + 0 * 2 ^ 22 + 0), (0), (5), (1), (_), (_), ⟨by decide +kernel, by decide +kernel, by decide +kernel, ⟨by decide +kernel, by decide +kernel, rfl, rfl⟩⟩⟩

theorem witness_NocPackets_5_1 : ∃ (s : State) (node : Nat) (input : Nat) (h : Nat) (err : Nat) (t : Nat) (i : Nat) (src : Source) (d1 : Dev), (s.dev.nodeExists node = true) ∧ ((s.dev.toTime t).mustWait node (input % 8) h = false) ∧ (err ≠ 2) ∧ (s.dev.endpointDomain (fieldAt h 0 10) = some i) ∧ (fieldAt h 22 4 < 8) ∧ (src = (s.dev.toTime t).sourceOf node (input % 8) h) ∧ (d1 = (s.dev.toTime t).when ((err == 1 || src.err) && s.dev.corrects node) Dev.correctFlit) := ⟨(st up), (0), (7), (1 * 4 + 341 * 2 ^ 10 + 0 * 2 ^ 22 + 0), (1), (5), (1), (_), (_), ⟨by decide +kernel, by decide +kernel, by decide +kernel, ⟨by decide +kernel, by decide +kernel, rfl, rfl⟩⟩⟩

theorem witness_NocPackets_5_2 : ∃ (s : State) (node : Nat) (input : Nat) (h : Nat) (err : Nat) (t : Nat) (i : Nat) (src : Source) (d1 : Dev), (s.dev.nodeExists node = true) ∧ ((s.dev.toTime t).mustWait node (input % 8) h = false) ∧ (err ≠ 2) ∧ (s.dev.endpointDomain (fieldAt h 0 10) = some i) ∧ (fieldAt h 22 4 < 8) ∧ (src = (s.dev.toTime t).sourceOf node (input % 8) h) ∧ (d1 = (s.dev.toTime t).when ((err == 1 || src.err) && s.dev.corrects node) Dev.correctFlit) := ⟨(st { up with net := { up.net with queued := [⟨0, 7, 7, 1 * 4 + 341 * 2 ^ 10 + 0 * 2 ^ 22 + 0, 1, 0, 0, false, false⟩], nextPacket := 9 } }), (1), (3), (1 * 4 + 341 * 2 ^ 10 + 0 * 2 ^ 22 + 0), (0), (5), (1), (_), (_), ⟨by decide +kernel, by decide +kernel, by decide +kernel, ⟨by decide +kernel, by decide +kernel, rfl, rfl⟩⟩⟩

theorem witness_NocPackets_9 : ∃ (s : State) (node : Nat) (h : Nat) (err : Nat) (t : Nat) (i : Nat) (d1 : Dev), (s.dev.nodeExists node = true) ∧ (err < 2) ∧ (s.dev.endpointDomain (fieldAt h 0 10) = some i) ∧ (fieldAt h 22 4 < 8) ∧ (fieldAt h 26 3 = 0) ∧ (s.dev.net.drainLeft.head? ≠ some node) ∧ (s.dev.net.queued = []) ∧ (fieldAt h 0 10 / 4 ≠ node) ∧ (d1 = (s.dev.toTime t).when (err == 1 && s.dev.corrects node) Dev.correctFlit) := ⟨(st up), (0), (1 * 4 + 341 * 2 ^ 10 + 0 * 2 ^ 22 + 0), (0), (5), (1), (_), ⟨by decide +kernel, by decide +kernel, by decide +kernel, ⟨by decide +kernel, by decide +kernel, by decide +kernel, ⟨by decide +kernel, by decide +kernel, rfl⟩⟩⟩⟩

theorem witness_NocPackets_10 : ∃ (s : State) (node : Nat) (h : Nat) (err : Nat) (t : Nat) (i : Nat) (d1 : Dev), (s.dev.nodeExists node = true) ∧ (err < 2) ∧ (s.dev.endpointDomain (fieldAt h 0 10) = some i) ∧ (fieldAt h 22 4 < 8) ∧ (fieldAt h 26 3 = 0) ∧ (s.dev.net.drainLeft.head? ≠ some node) ∧ (s.dev.net.queued = []) ∧ (fieldAt h 0 10 / 4 = node) ∧ (s.dev.gateFull i (fieldAt h 20 2) = false) ∧ (d1 = (s.dev.toTime t).when (err == 1 && s.dev.corrects node) Dev.correctFlit) := ⟨(st up), (0), (0 + 341 * 2 ^ 10 + 0 * 2 ^ 22 + 0), (0), (5), (0), (_), ⟨by decide +kernel, by decide +kernel, by decide +kernel, ⟨by decide +kernel, by decide +kernel, by decide +kernel, ⟨by decide +kernel, by decide +kernel, by decide +kernel, rfl⟩⟩⟩⟩

theorem witness_NocPackets_10_1 : ∃ (s : State) (node : Nat) (h : Nat) (err : Nat) (t : Nat) (i : Nat) (d1 : Dev), (s.dev.nodeExists node = true) ∧ (err < 2) ∧ (s.dev.endpointDomain (fieldAt h 0 10) = some i) ∧ (fieldAt h 22 4 < 8) ∧ (fieldAt h 26 3 = 0) ∧ (s.dev.net.drainLeft.head? ≠ some node) ∧ (s.dev.net.queued = []) ∧ (fieldAt h 0 10 / 4 = node) ∧ (s.dev.gateFull i (fieldAt h 20 2) = false) ∧ (d1 = (s.dev.toTime t).when (err == 1 && s.dev.corrects node) Dev.correctFlit) := ⟨(st up), (0), (0 + 341 * 2 ^ 10 + 0 * 2 ^ 22 + 2 ^ 29), (0), (5), (0), (_), ⟨by decide +kernel, by decide +kernel, by decide +kernel, ⟨by decide +kernel, by decide +kernel, by decide +kernel, ⟨by decide +kernel, by decide +kernel, by decide +kernel, rfl⟩⟩⟩⟩

theorem witness_NocPackets_10_2 : ∃ (s : State) (node : Nat) (h : Nat) (err : Nat) (t : Nat) (i : Nat) (d1 : Dev), (s.dev.nodeExists node = true) ∧ (err < 2) ∧ (s.dev.endpointDomain (fieldAt h 0 10) = some i) ∧ (fieldAt h 22 4 < 8) ∧ (fieldAt h 26 3 = 0) ∧ (s.dev.net.drainLeft.head? ≠ some node) ∧ (s.dev.net.queued = []) ∧ (fieldAt h 0 10 / 4 = node) ∧ (s.dev.gateFull i (fieldAt h 20 2) = false) ∧ (d1 = (s.dev.toTime t).when (err == 1 && s.dev.corrects node) Dev.correctFlit) := ⟨(st up), (0), (0 + 341 * 2 ^ 10 + 0 * 2 ^ 22 + 2 * 2 ^ 20), (0), (5), (0), (_), ⟨by decide +kernel, by decide +kernel, by decide +kernel, ⟨by decide +kernel, by decide +kernel, by decide +kernel, ⟨by decide +kernel, by decide +kernel, by decide +kernel, rfl⟩⟩⟩⟩

theorem witness_NocPackets_10_3 : ∃ (s : State) (node : Nat) (h : Nat) (err : Nat) (t : Nat) (i : Nat) (d1 : Dev), (s.dev.nodeExists node = true) ∧ (err < 2) ∧ (s.dev.endpointDomain (fieldAt h 0 10) = some i) ∧ (fieldAt h 22 4 < 8) ∧ (fieldAt h 26 3 = 0) ∧ (s.dev.net.drainLeft.head? ≠ some node) ∧ (s.dev.net.queued = []) ∧ (fieldAt h 0 10 / 4 = node) ∧ (s.dev.gateFull i (fieldAt h 20 2) = false) ∧ (d1 = (s.dev.toTime t).when (err == 1 && s.dev.corrects node) Dev.correctFlit) := ⟨(st ((up.wrAt R.POWER.DOM_STATUS_STATE 0 0 0).wrAt R.POWER.DOM_CTRL_WAKE_EN 0 0 0)), (0), (0 + 341 * 2 ^ 10 + 0 * 2 ^ 22 + 0), (0), (5), (0), (_), ⟨by decide +kernel, by decide +kernel, by decide +kernel, ⟨by decide +kernel, by decide +kernel, by decide +kernel, ⟨by decide +kernel, by decide +kernel, by decide +kernel, rfl⟩⟩⟩⟩

theorem witness_NocPackets_10_4 : ∃ (s : State) (node : Nat) (h : Nat) (err : Nat) (t : Nat) (i : Nat) (d1 : Dev), (s.dev.nodeExists node = true) ∧ (err < 2) ∧ (s.dev.endpointDomain (fieldAt h 0 10) = some i) ∧ (fieldAt h 22 4 < 8) ∧ (fieldAt h 26 3 = 0) ∧ (s.dev.net.drainLeft.head? ≠ some node) ∧ (s.dev.net.queued = []) ∧ (fieldAt h 0 10 / 4 = node) ∧ (s.dev.gateFull i (fieldAt h 20 2) = false) ∧ (d1 = (s.dev.toTime t).when (err == 1 && s.dev.corrects node) Dev.correctFlit) := ⟨(st ((up.wrAt R.POWER.DOM_STATUS_STATE 0 0 0).wrAt R.POWER.DOM_CTRL_WAKE_EN 0 0 0)), (0), (0 + 341 * 2 ^ 10 + 0 * 2 ^ 22 + 2 ^ 29), (0), (5), (0), (_), ⟨by decide +kernel, by decide +kernel, by decide +kernel, ⟨by decide +kernel, by decide +kernel, by decide +kernel, ⟨by decide +kernel, by decide +kernel, by decide +kernel, rfl⟩⟩⟩⟩

theorem witness_NocPackets_10_5 : ∃ (s : State) (node : Nat) (h : Nat) (err : Nat) (t : Nat) (i : Nat) (d1 : Dev), (s.dev.nodeExists node = true) ∧ (err < 2) ∧ (s.dev.endpointDomain (fieldAt h 0 10) = some i) ∧ (fieldAt h 22 4 < 8) ∧ (fieldAt h 26 3 = 0) ∧ (s.dev.net.drainLeft.head? ≠ some node) ∧ (s.dev.net.queued = []) ∧ (fieldAt h 0 10 / 4 = node) ∧ (s.dev.gateFull i (fieldAt h 20 2) = false) ∧ (d1 = (s.dev.toTime t).when (err == 1 && s.dev.corrects node) Dev.correctFlit) := ⟨(st ((up.wrAt R.POWER.DOM_STATUS_STATE 0 0 0).wrAt R.POWER.DOM_CTRL_WAKE_EN 0 0 0)), (0), (0 + 341 * 2 ^ 10 + 0 * 2 ^ 22 + 2 * 2 ^ 20), (0), (5), (0), (_), ⟨by decide +kernel, by decide +kernel, by decide +kernel, ⟨by decide +kernel, by decide +kernel, by decide +kernel, ⟨by decide +kernel, by decide +kernel, by decide +kernel, rfl⟩⟩⟩⟩

theorem witness_NocPackets_9_1 : ∃ (s : State) (node : Nat) (h : Nat) (err : Nat) (t : Nat) (i : Nat) (d1 : Dev), (s.dev.nodeExists node = true) ∧ (err < 2) ∧ (s.dev.endpointDomain (fieldAt h 0 10) = some i) ∧ (fieldAt h 22 4 < 8) ∧ (fieldAt h 26 3 = 0) ∧ (s.dev.net.drainLeft.head? ≠ some node) ∧ (s.dev.net.queued = []) ∧ (fieldAt h 0 10 / 4 ≠ node) ∧ (d1 = (s.dev.toTime t).when (err == 1 && s.dev.corrects node) Dev.correctFlit) := ⟨(st up), (0), (1 * 4 + 341 * 2 ^ 10 + 0 * 2 ^ 22 + 0), (1), (5), (1), (_), ⟨by decide +kernel, by decide +kernel, by decide +kernel, ⟨by decide +kernel, by decide +kernel, by decide +kernel, ⟨by decide +kernel, by decide +kernel, rfl⟩⟩⟩⟩

theorem witness_NocPackets_10_6 : ∃ (s : State) (node : Nat) (h : Nat) (err : Nat) (t : Nat) (i : Nat) (d1 : Dev), (s.dev.nodeExists node = true) ∧ (err < 2) ∧ (s.dev.endpointDomain (fieldAt h 0 10) = some i) ∧ (fieldAt h 22 4 < 8) ∧ (fieldAt h 26 3 = 0) ∧ (s.dev.net.drainLeft.head? ≠ some node) ∧ (s.dev.net.queued = []) ∧ (fieldAt h 0 10 / 4 = node) ∧ (s.dev.gateFull i (fieldAt h 20 2) = false) ∧ (d1 = (s.dev.toTime t).when (err == 1 && s.dev.corrects node) Dev.correctFlit) := ⟨(st up), (0), (0 + 341 * 2 ^ 10 + 0 * 2 ^ 22 + 0), (1), (5), (0), (_), ⟨by decide +kernel, by decide +kernel, by decide +kernel, ⟨by decide +kernel, by decide +kernel, by decide +kernel, ⟨by decide +kernel, by decide +kernel, by decide +kernel, rfl⟩⟩⟩⟩

theorem witness_NocPackets_10_7 : ∃ (s : State) (node : Nat) (h : Nat) (err : Nat) (t : Nat) (i : Nat) (d1 : Dev), (s.dev.nodeExists node = true) ∧ (err < 2) ∧ (s.dev.endpointDomain (fieldAt h 0 10) = some i) ∧ (fieldAt h 22 4 < 8) ∧ (fieldAt h 26 3 = 0) ∧ (s.dev.net.drainLeft.head? ≠ some node) ∧ (s.dev.net.queued = []) ∧ (fieldAt h 0 10 / 4 = node) ∧ (s.dev.gateFull i (fieldAt h 20 2) = false) ∧ (d1 = (s.dev.toTime t).when (err == 1 && s.dev.corrects node) Dev.correctFlit) := ⟨(st up), (0), (0 + 341 * 2 ^ 10 + 0 * 2 ^ 22 + 2 ^ 29), (1), (5), (0), (_), ⟨by decide +kernel, by decide +kernel, by decide +kernel, ⟨by decide +kernel, by decide +kernel, by decide +kernel, ⟨by decide +kernel, by decide +kernel, by decide +kernel, rfl⟩⟩⟩⟩

theorem witness_NocPackets_10_8 : ∃ (s : State) (node : Nat) (h : Nat) (err : Nat) (t : Nat) (i : Nat) (d1 : Dev), (s.dev.nodeExists node = true) ∧ (err < 2) ∧ (s.dev.endpointDomain (fieldAt h 0 10) = some i) ∧ (fieldAt h 22 4 < 8) ∧ (fieldAt h 26 3 = 0) ∧ (s.dev.net.drainLeft.head? ≠ some node) ∧ (s.dev.net.queued = []) ∧ (fieldAt h 0 10 / 4 = node) ∧ (s.dev.gateFull i (fieldAt h 20 2) = false) ∧ (d1 = (s.dev.toTime t).when (err == 1 && s.dev.corrects node) Dev.correctFlit) := ⟨(st up), (0), (0 + 341 * 2 ^ 10 + 0 * 2 ^ 22 + 2 * 2 ^ 20), (1), (5), (0), (_), ⟨by decide +kernel, by decide +kernel, by decide +kernel, ⟨by decide +kernel, by decide +kernel, by decide +kernel, ⟨by decide +kernel, by decide +kernel, by decide +kernel, rfl⟩⟩⟩⟩

theorem witness_NocPackets_10_9 : ∃ (s : State) (node : Nat) (h : Nat) (err : Nat) (t : Nat) (i : Nat) (d1 : Dev), (s.dev.nodeExists node = true) ∧ (err < 2) ∧ (s.dev.endpointDomain (fieldAt h 0 10) = some i) ∧ (fieldAt h 22 4 < 8) ∧ (fieldAt h 26 3 = 0) ∧ (s.dev.net.drainLeft.head? ≠ some node) ∧ (s.dev.net.queued = []) ∧ (fieldAt h 0 10 / 4 = node) ∧ (s.dev.gateFull i (fieldAt h 20 2) = false) ∧ (d1 = (s.dev.toTime t).when (err == 1 && s.dev.corrects node) Dev.correctFlit) := ⟨(st ((up.wrAt R.POWER.DOM_STATUS_STATE 0 0 0).wrAt R.POWER.DOM_CTRL_WAKE_EN 0 0 0)), (0), (0 + 341 * 2 ^ 10 + 0 * 2 ^ 22 + 0), (1), (5), (0), (_), ⟨by decide +kernel, by decide +kernel, by decide +kernel, ⟨by decide +kernel, by decide +kernel, by decide +kernel, ⟨by decide +kernel, by decide +kernel, by decide +kernel, rfl⟩⟩⟩⟩

theorem witness_NocPackets_10_10 : ∃ (s : State) (node : Nat) (h : Nat) (err : Nat) (t : Nat) (i : Nat) (d1 : Dev), (s.dev.nodeExists node = true) ∧ (err < 2) ∧ (s.dev.endpointDomain (fieldAt h 0 10) = some i) ∧ (fieldAt h 22 4 < 8) ∧ (fieldAt h 26 3 = 0) ∧ (s.dev.net.drainLeft.head? ≠ some node) ∧ (s.dev.net.queued = []) ∧ (fieldAt h 0 10 / 4 = node) ∧ (s.dev.gateFull i (fieldAt h 20 2) = false) ∧ (d1 = (s.dev.toTime t).when (err == 1 && s.dev.corrects node) Dev.correctFlit) := ⟨(st ((up.wrAt R.POWER.DOM_STATUS_STATE 0 0 0).wrAt R.POWER.DOM_CTRL_WAKE_EN 0 0 0)), (0), (0 + 341 * 2 ^ 10 + 0 * 2 ^ 22 + 2 ^ 29), (1), (5), (0), (_), ⟨by decide +kernel, by decide +kernel, by decide +kernel, ⟨by decide +kernel, by decide +kernel, by decide +kernel, ⟨by decide +kernel, by decide +kernel, by decide +kernel, rfl⟩⟩⟩⟩

theorem witness_NocPackets_10_11 : ∃ (s : State) (node : Nat) (h : Nat) (err : Nat) (t : Nat) (i : Nat) (d1 : Dev), (s.dev.nodeExists node = true) ∧ (err < 2) ∧ (s.dev.endpointDomain (fieldAt h 0 10) = some i) ∧ (fieldAt h 22 4 < 8) ∧ (fieldAt h 26 3 = 0) ∧ (s.dev.net.drainLeft.head? ≠ some node) ∧ (s.dev.net.queued = []) ∧ (fieldAt h 0 10 / 4 = node) ∧ (s.dev.gateFull i (fieldAt h 20 2) = false) ∧ (d1 = (s.dev.toTime t).when (err == 1 && s.dev.corrects node) Dev.correctFlit) := ⟨(st ((up.wrAt R.POWER.DOM_STATUS_STATE 0 0 0).wrAt R.POWER.DOM_CTRL_WAKE_EN 0 0 0)), (0), (0 + 341 * 2 ^ 10 + 0 * 2 ^ 22 + 2 * 2 ^ 20), (1), (5), (0), (_), ⟨by decide +kernel, by decide +kernel, by decide +kernel, ⟨by decide +kernel, by decide +kernel, by decide +kernel, ⟨by decide +kernel, by decide +kernel, by decide +kernel, rfl⟩⟩⟩⟩

theorem witness_NocPackets_11 : ∃ (status : Nat), (status < 2 ^ 8) := ⟨(255), by decide +kernel⟩

theorem witness_NocPackets_12 : ∃ (x : Nat) (y : Nat) (tx : Nat) (p : Nat), (x < 16) ∧ (y < 16) ∧ (tx < 16) ∧ (p < 4) := ⟨(15), (15), (15), (3), by and_intros <;> decide +kernel⟩

theorem witness_NocPackets_13 : ∃ (s : State) (id : Nat) (q : FarReq), (SMap.look s.dev.arr.farReq id = some q) := ⟨(st { up with arr := { up.arr with farReq := [(7 * 2 ^ 32, { (default : FarReq) with answered := true })] } }), (7 * 2 ^ 32), ({ (default : FarReq) with answered := true }), by decide +kernel⟩

theorem witness_NocPackets_13_1 : ∃ (s : State) (id : Nat) (q : FarReq), (SMap.look s.dev.arr.farReq id = some q) := ⟨(st { up with arr := { up.arr with farReq := [(7 * 2 ^ 32, { (default : FarReq) with answered := false })] } }), (7 * 2 ^ 32), ({ (default : FarReq) with answered := false }), by decide +kernel⟩

theorem witness_NocPackets_14 : ∃ (s : State) (id : Nat), (SMap.look s.dev.arr.farReq id = none) := ⟨(st up), (7), by decide +kernel⟩

theorem witness_NocPackets_15 : ∃ (s : State) (e : Nat) (i : Item), (s.dev.runningOn e = some i) := ⟨(st (holding [item 1 31 .running (desc 1 0 0 64)])), (31), (item 1 31 .running (desc 1 0 0 64)), by decide +kernel⟩

theorem witness_NocPackets_16 : ∃ (s : State) (e : Nat), (s.dev.runningOn e = none) := ⟨(st up), (31), by decide +kernel⟩

theorem witness_NocPackets_17 : ∃ (s : State), (s.dev.reaches 0x103 = true) ∧ (s.dev.on R.NOC.NOC_STATUS_RECONFIG = true) := ⟨(st (up.wr R.NOC.NOC_STATUS_RECONFIG 1)), by and_intros <;> decide +kernel⟩

theorem witness_NocPackets_18 : ∃ (s : State) (w : Nat), (s.dev.reaches 0x103 = true) ∧ (s.dev.on R.NOC.NOC_STATUS_RECONFIG = false) ∧ (w % 2 = s.dev.rd R.NOC.NOC_CTRL_CHECK_MODE) := ⟨(st up), (2), by and_intros <;> decide +kernel⟩

theorem witness_NocPackets_19 : ∃ (s : State) (w : Nat), (s.dev.reaches 0x103 = true) ∧ (s.dev.on R.NOC.NOC_STATUS_RECONFIG = false) ∧ (w % 2 ≠ s.dev.rd R.NOC.NOC_CTRL_CHECK_MODE) ∧ (s.dev.net.drainLeft = []) := ⟨(st up), (3), by and_intros <;> decide +kernel⟩

theorem witness_NocPackets_20 : ∃ (s : State) (n : Nat) (rest : List Nat), (s.dev.net.drainLeft = n :: rest) ∧ ((∃ p, p ∈ s.dev.net.queued ∧ p.node = n)) := ⟨(st { up with net := { up.net with queued := [⟨0, 7, 7, 1 * 4 + 341 * 2 ^ 10 + 0 * 2 ^ 22 + 0, 1, 0, 0, false, false⟩], nextPacket := 9, drainLeft := [0, 1] } }), (0), ([1]), by and_intros <;> decide +kernel⟩

theorem witness_NocPackets_21 : ∃ (s : State), (s.dev.net.drainLeft = []) := ⟨(st up), by decide +kernel⟩

theorem witness_NocPackets_22 : ∃ (s : State) (n : Nat) (m : Nat) (rest : List Nat), (s.dev.net.drainLeft = n :: m :: rest) ∧ ((∀ p ∈ s.dev.net.queued, p.node ≠ n)) := ⟨(st { up with net := { up.net with drainLeft := [0, 1] } }), (0), (1), ([]), by and_intros <;> decide +kernel⟩

theorem witness_NocPackets_23 : ∃ (s : State) (n : Nat), (s.dev.net.drainLeft = [n]) ∧ ((∀ p ∈ s.dev.net.queued, p.node ≠ n)) := ⟨(st { up with net := { up.net with drainLeft := [7], newMode := 1 } }), (7), by and_intros <;> decide +kernel⟩

theorem witness_PowerDomains_0 : ∃ (s : State) (i : Nat) (w : Nat) (t : Nat) (e : Dev), (i < 113) ∧ (s.dev.domainExists i = true) ∧ (s.dev.reaches 0xC = true) ∧ (e = ((s.dev.atWrite t).wrAt R.POWER.DOM_CTRL_WAKE_EN 0 i (w / 2)).setDomReq i w) ∧ (s.dev.domState i = 0) := ⟨(st ((up).wrAt R.POWER.DOM_STATUS_STATE 0 0 0)), (0), (2), (5), (_), ⟨by decide +kernel, by decide +kernel, by decide +kernel, rfl, by decide +kernel⟩⟩

theorem witness_PowerDomains_2 : ∃ (s : State) (i : Nat) (w : Nat) (t : Nat) (e : Dev), (i < 113) ∧ (s.dev.domainExists i = true) ∧ (s.dev.reaches 0xC = true) ∧ (e = ((s.dev.atWrite t).wrAt R.POWER.DOM_CTRL_WAKE_EN 0 i (w / 2)).setDomReq i w) ∧ (s.dev.domState i = 1) := ⟨(st ((up).wrAt R.POWER.DOM_STATUS_STATE 0 0 1)), (0), (2), (5), (_), ⟨by decide +kernel, by decide +kernel, by decide +kernel, rfl, by decide +kernel⟩⟩

theorem witness_PowerDomains_3 : ∃ (s : State) (i : Nat) (w : Nat) (t : Nat) (e : Dev), (i < 113) ∧ (s.dev.domainExists i = true) ∧ (s.dev.reaches 0xC = true) ∧ (e = ((s.dev.atWrite t).wrAt R.POWER.DOM_CTRL_WAKE_EN 0 i (w / 2)).setDomReq i w) ∧ (s.dev.domState i = 3) := ⟨(st ((up).wrAt R.POWER.DOM_STATUS_STATE 0 0 3)), (0), (2), (5), (_), ⟨by decide +kernel, by decide +kernel, by decide +kernel, rfl, by decide +kernel⟩⟩

theorem witness_PowerDomains_0_1 : ∃ (s : State) (i : Nat) (w : Nat) (t : Nat) (e : Dev), (i < 113) ∧ (s.dev.domainExists i = true) ∧ (s.dev.reaches 0xC = true) ∧ (e = ((s.dev.atWrite t).wrAt R.POWER.DOM_CTRL_WAKE_EN 0 i (w / 2)).setDomReq i w) ∧ (s.dev.domState i = 0) := ⟨(st ((up).wrAt R.POWER.DOM_STATUS_STATE 0 0 0)), (0), (3), (5), (_), ⟨by decide +kernel, by decide +kernel, by decide +kernel, rfl, by decide +kernel⟩⟩

theorem witness_PowerDomains_2_1 : ∃ (s : State) (i : Nat) (w : Nat) (t : Nat) (e : Dev), (i < 113) ∧ (s.dev.domainExists i = true) ∧ (s.dev.reaches 0xC = true) ∧ (e = ((s.dev.atWrite t).wrAt R.POWER.DOM_CTRL_WAKE_EN 0 i (w / 2)).setDomReq i w) ∧ (s.dev.domState i = 1) := ⟨(st ((up).wrAt R.POWER.DOM_STATUS_STATE 0 0 1)), (0), (3), (5), (_), ⟨by decide +kernel, by decide +kernel, by decide +kernel, rfl, by decide +kernel⟩⟩

theorem witness_PowerDomains_3_1 : ∃ (s : State) (i : Nat) (w : Nat) (t : Nat) (e : Dev), (i < 113) ∧ (s.dev.domainExists i = true) ∧ (s.dev.reaches 0xC = true) ∧ (e = ((s.dev.atWrite t).wrAt R.POWER.DOM_CTRL_WAKE_EN 0 i (w / 2)).setDomReq i w) ∧ (s.dev.domState i = 3) := ⟨(st ((up).wrAt R.POWER.DOM_STATUS_STATE 0 0 3)), (0), (3), (5), (_), ⟨by decide +kernel, by decide +kernel, by decide +kernel, rfl, by decide +kernel⟩⟩

theorem witness_PowerDomains_4 : ∃ (s : State) (i : Nat) (w : Nat) (t : Nat) (e : Dev), (i < 113) ∧ (s.dev.domainExists i = true) ∧ (s.dev.reaches 0xC = true) ∧ (e = ((s.dev.atWrite t).wrAt R.POWER.DOM_CTRL_WAKE_EN 0 i (w / 2)).setDomReq i w) ∧ (s.dev.domState i = 2) ∧ (w % 2 = 1) := ⟨(st ((up).wrAt R.POWER.DOM_STATUS_STATE 0 0 2)), (0), (1), (5), (_), ⟨by decide +kernel, by decide +kernel, by decide +kernel, rfl, by and_intros <;> decide +kernel⟩⟩

theorem witness_PowerDomains_0_2 : ∃ (s : State) (i : Nat) (w : Nat) (t : Nat) (e : Dev), (i < 113) ∧ (s.dev.domainExists i = true) ∧ (s.dev.reaches 0xC = true) ∧ (e = ((s.dev.atWrite t).wrAt R.POWER.DOM_CTRL_WAKE_EN 0 i (w / 2)).setDomReq i w) ∧ (s.dev.domState i = 0) := ⟨(st ((up).wrAt R.POWER.DOM_STATUS_STATE 0 63 0)), (63), (2), (5), (_), ⟨by decide +kernel, by decide +kernel, by decide +kernel, rfl, by decide +kernel⟩⟩

theorem witness_PowerDomains_2_2 : ∃ (s : State) (i : Nat) (w : Nat) (t : Nat) (e : Dev), (i < 113) ∧ (s.dev.domainExists i = true) ∧ (s.dev.reaches 0xC = true) ∧ (e = ((s.dev.atWrite t).wrAt R.POWER.DOM_CTRL_WAKE_EN 0 i (w / 2)).setDomReq i w) ∧ (s.dev.domState i = 1) := ⟨(st ((up).wrAt R.POWER.DOM_STATUS_STATE 0 63 1)), (63), (2), (5), (_), ⟨by decide +kernel, by decide +kernel, by decide +kernel, rfl, by decide +kernel⟩⟩

theorem witness_PowerDomains_3_2 : ∃ (s : State) (i : Nat) (w : Nat) (t : Nat) (e : Dev), (i < 113) ∧ (s.dev.domainExists i = true) ∧ (s.dev.reaches 0xC = true) ∧ (e = ((s.dev.atWrite t).wrAt R.POWER.DOM_CTRL_WAKE_EN 0 i (w / 2)).setDomReq i w) ∧ (s.dev.domState i = 3) := ⟨(st ((up).wrAt R.POWER.DOM_STATUS_STATE 0 63 3)), (63), (2), (5), (_), ⟨by decide +kernel, by decide +kernel, by decide +kernel, rfl, by decide +kernel⟩⟩

theorem witness_PowerDomains_0_3 : ∃ (s : State) (i : Nat) (w : Nat) (t : Nat) (e : Dev), (i < 113) ∧ (s.dev.domainExists i = true) ∧ (s.dev.reaches 0xC = true) ∧ (e = ((s.dev.atWrite t).wrAt R.POWER.DOM_CTRL_WAKE_EN 0 i (w / 2)).setDomReq i w) ∧ (s.dev.domState i = 0) := ⟨(st ((up).wrAt R.POWER.DOM_STATUS_STATE 0 63 0)), (63), (3), (5), (_), ⟨by decide +kernel, by decide +kernel, by decide +kernel, rfl, by decide +kernel⟩⟩

theorem witness_PowerDomains_2_3 : ∃ (s : State) (i : Nat) (w : Nat) (t : Nat) (e : Dev), (i < 113) ∧ (s.dev.domainExists i = true) ∧ (s.dev.reaches 0xC = true) ∧ (e = ((s.dev.atWrite t).wrAt R.POWER.DOM_CTRL_WAKE_EN 0 i (w / 2)).setDomReq i w) ∧ (s.dev.domState i = 1) := ⟨(st ((up).wrAt R.POWER.DOM_STATUS_STATE 0 63 1)), (63), (3), (5), (_), ⟨by decide +kernel, by decide +kernel, by decide +kernel, rfl, by decide +kernel⟩⟩

theorem witness_PowerDomains_3_3 : ∃ (s : State) (i : Nat) (w : Nat) (t : Nat) (e : Dev), (i < 113) ∧ (s.dev.domainExists i = true) ∧ (s.dev.reaches 0xC = true) ∧ (e = ((s.dev.atWrite t).wrAt R.POWER.DOM_CTRL_WAKE_EN 0 i (w / 2)).setDomReq i w) ∧ (s.dev.domState i = 3) := ⟨(st ((up).wrAt R.POWER.DOM_STATUS_STATE 0 63 3)), (63), (3), (5), (_), ⟨by decide +kernel, by decide +kernel, by decide +kernel, rfl, by decide +kernel⟩⟩

theorem witness_PowerDomains_4_1 : ∃ (s : State) (i : Nat) (w : Nat) (t : Nat) (e : Dev), (i < 113) ∧ (s.dev.domainExists i = true) ∧ (s.dev.reaches 0xC = true) ∧ (e = ((s.dev.atWrite t).wrAt R.POWER.DOM_CTRL_WAKE_EN 0 i (w / 2)).setDomReq i w) ∧ (s.dev.domState i = 2) ∧ (w % 2 = 1) := ⟨(st ((up).wrAt R.POWER.DOM_STATUS_STATE 0 63 2)), (63), (1), (5), (_), ⟨by decide +kernel, by decide +kernel, by decide +kernel, rfl, by and_intros <;> decide +kernel⟩⟩

theorem witness_PowerDomains_0_4 : ∃ (s : State) (i : Nat) (w : Nat) (t : Nat) (e : Dev), (i < 113) ∧ (s.dev.domainExists i = true) ∧ (s.dev.reaches 0xC = true) ∧ (e = ((s.dev.atWrite t).wrAt R.POWER.DOM_CTRL_WAKE_EN 0 i (w / 2)).setDomReq i w) ∧ (s.dev.domState i = 0) := ⟨(st ((up).wrAt R.POWER.DOM_STATUS_STATE 0 0x40 0)), (0x40), (2), (5), (_), ⟨by decide +kernel, by decide +kernel, by decide +kernel, rfl, by decide +kernel⟩⟩

theorem witness_PowerDomains_2_4 : ∃ (s : State) (i : Nat) (w : Nat) (t : Nat) (e : Dev), (i < 113) ∧ (s.dev.domainExists i = true) ∧ (s.dev.reaches 0xC = true) ∧ (e = ((s.dev.atWrite t).wrAt R.POWER.DOM_CTRL_WAKE_EN 0 i (w / 2)).setDomReq i w) ∧ (s.dev.domState i = 1) := ⟨(st ((up).wrAt R.POWER.DOM_STATUS_STATE 0 0x40 1)), (0x40), (2), (5), (_), ⟨by decide +kernel, by decide +kernel, by decide +kernel, rfl, by decide +kernel⟩⟩

theorem witness_PowerDomains_3_4 : ∃ (s : State) (i : Nat) (w : Nat) (t : Nat) (e : Dev), (i < 113) ∧ (s.dev.domainExists i = true) ∧ (s.dev.reaches 0xC = true) ∧ (e = ((s.dev.atWrite t).wrAt R.POWER.DOM_CTRL_WAKE_EN 0 i (w / 2)).setDomReq i w) ∧ (s.dev.domState i = 3) := ⟨(st ((up).wrAt R.POWER.DOM_STATUS_STATE 0 0x40 3)), (0x40), (2), (5), (_), ⟨by decide +kernel, by decide +kernel, by decide +kernel, rfl, by decide +kernel⟩⟩

theorem witness_PowerDomains_0_5 : ∃ (s : State) (i : Nat) (w : Nat) (t : Nat) (e : Dev), (i < 113) ∧ (s.dev.domainExists i = true) ∧ (s.dev.reaches 0xC = true) ∧ (e = ((s.dev.atWrite t).wrAt R.POWER.DOM_CTRL_WAKE_EN 0 i (w / 2)).setDomReq i w) ∧ (s.dev.domState i = 0) := ⟨(st ((up).wrAt R.POWER.DOM_STATUS_STATE 0 0x40 0)), (0x40), (3), (5), (_), ⟨by decide +kernel, by decide +kernel, by decide +kernel, rfl, by decide +kernel⟩⟩

theorem witness_PowerDomains_2_5 : ∃ (s : State) (i : Nat) (w : Nat) (t : Nat) (e : Dev), (i < 113) ∧ (s.dev.domainExists i = true) ∧ (s.dev.reaches 0xC = true) ∧ (e = ((s.dev.atWrite t).wrAt R.POWER.DOM_CTRL_WAKE_EN 0 i (w / 2)).setDomReq i w) ∧ (s.dev.domState i = 1) := ⟨(st ((up).wrAt R.POWER.DOM_STATUS_STATE 0 0x40 1)), (0x40), (3), (5), (_), ⟨by decide +kernel, by decide +kernel, by decide +kernel, rfl, by decide +kernel⟩⟩

theorem witness_PowerDomains_3_5 : ∃ (s : State) (i : Nat) (w : Nat) (t : Nat) (e : Dev), (i < 113) ∧ (s.dev.domainExists i = true) ∧ (s.dev.reaches 0xC = true) ∧ (e = ((s.dev.atWrite t).wrAt R.POWER.DOM_CTRL_WAKE_EN 0 i (w / 2)).setDomReq i w) ∧ (s.dev.domState i = 3) := ⟨(st ((up).wrAt R.POWER.DOM_STATUS_STATE 0 0x40 3)), (0x40), (3), (5), (_), ⟨by decide +kernel, by decide +kernel, by decide +kernel, rfl, by decide +kernel⟩⟩

theorem witness_PowerDomains_4_2 : ∃ (s : State) (i : Nat) (w : Nat) (t : Nat) (e : Dev), (i < 113) ∧ (s.dev.domainExists i = true) ∧ (s.dev.reaches 0xC = true) ∧ (e = ((s.dev.atWrite t).wrAt R.POWER.DOM_CTRL_WAKE_EN 0 i (w / 2)).setDomReq i w) ∧ (s.dev.domState i = 2) ∧ (w % 2 = 1) := ⟨(st ((up).wrAt R.POWER.DOM_STATUS_STATE 0 0x40 2)), (0x40), (1), (5), (_), ⟨by decide +kernel, by decide +kernel, by decide +kernel, rfl, by and_intros <;> decide +kernel⟩⟩

theorem witness_PowerDomains_0_6 : ∃ (s : State) (i : Nat) (w : Nat) (t : Nat) (e : Dev), (i < 113) ∧ (s.dev.domainExists i = true) ∧ (s.dev.reaches 0xC = true) ∧ (e = ((s.dev.atWrite t).wrAt R.POWER.DOM_CTRL_WAKE_EN 0 i (w / 2)).setDomReq i w) ∧ (s.dev.domState i = 0) := ⟨(st ((up).wrAt R.POWER.DOM_STATUS_STATE 0 0x70 0)), (0x70), (2), (5), (_), ⟨by decide +kernel, by decide +kernel, by decide +kernel, rfl, by decide +kernel⟩⟩

theorem witness_PowerDomains_2_6 : ∃ (s : State) (i : Nat) (w : Nat) (t : Nat) (e : Dev), (i < 113) ∧ (s.dev.domainExists i = true) ∧ (s.dev.reaches 0xC = true) ∧ (e = ((s.dev.atWrite t).wrAt R.POWER.DOM_CTRL_WAKE_EN 0 i (w / 2)).setDomReq i w) ∧ (s.dev.domState i = 1) := ⟨(st ((up).wrAt R.POWER.DOM_STATUS_STATE 0 0x70 1)), (0x70), (2), (5), (_), ⟨by decide +kernel, by decide +kernel, by decide +kernel, rfl, by decide +kernel⟩⟩

theorem witness_PowerDomains_3_6 : ∃ (s : State) (i : Nat) (w : Nat) (t : Nat) (e : Dev), (i < 113) ∧ (s.dev.domainExists i = true) ∧ (s.dev.reaches 0xC = true) ∧ (e = ((s.dev.atWrite t).wrAt R.POWER.DOM_CTRL_WAKE_EN 0 i (w / 2)).setDomReq i w) ∧ (s.dev.domState i = 3) := ⟨(st ((up).wrAt R.POWER.DOM_STATUS_STATE 0 0x70 3)), (0x70), (2), (5), (_), ⟨by decide +kernel, by decide +kernel, by decide +kernel, rfl, by decide +kernel⟩⟩

theorem witness_PowerDomains_0_7 : ∃ (s : State) (i : Nat) (w : Nat) (t : Nat) (e : Dev), (i < 113) ∧ (s.dev.domainExists i = true) ∧ (s.dev.reaches 0xC = true) ∧ (e = ((s.dev.atWrite t).wrAt R.POWER.DOM_CTRL_WAKE_EN 0 i (w / 2)).setDomReq i w) ∧ (s.dev.domState i = 0) := ⟨(st ((up).wrAt R.POWER.DOM_STATUS_STATE 0 0x70 0)), (0x70), (3), (5), (_), ⟨by decide +kernel, by decide +kernel, by decide +kernel, rfl, by decide +kernel⟩⟩

theorem witness_PowerDomains_2_7 : ∃ (s : State) (i : Nat) (w : Nat) (t : Nat) (e : Dev), (i < 113) ∧ (s.dev.domainExists i = true) ∧ (s.dev.reaches 0xC = true) ∧ (e = ((s.dev.atWrite t).wrAt R.POWER.DOM_CTRL_WAKE_EN 0 i (w / 2)).setDomReq i w) ∧ (s.dev.domState i = 1) := ⟨(st ((up).wrAt R.POWER.DOM_STATUS_STATE 0 0x70 1)), (0x70), (3), (5), (_), ⟨by decide +kernel, by decide +kernel, by decide +kernel, rfl, by decide +kernel⟩⟩

theorem witness_PowerDomains_3_7 : ∃ (s : State) (i : Nat) (w : Nat) (t : Nat) (e : Dev), (i < 113) ∧ (s.dev.domainExists i = true) ∧ (s.dev.reaches 0xC = true) ∧ (e = ((s.dev.atWrite t).wrAt R.POWER.DOM_CTRL_WAKE_EN 0 i (w / 2)).setDomReq i w) ∧ (s.dev.domState i = 3) := ⟨(st ((up).wrAt R.POWER.DOM_STATUS_STATE 0 0x70 3)), (0x70), (3), (5), (_), ⟨by decide +kernel, by decide +kernel, by decide +kernel, rfl, by decide +kernel⟩⟩

theorem witness_PowerDomains_4_3 : ∃ (s : State) (i : Nat) (w : Nat) (t : Nat) (e : Dev), (i < 113) ∧ (s.dev.domainExists i = true) ∧ (s.dev.reaches 0xC = true) ∧ (e = ((s.dev.atWrite t).wrAt R.POWER.DOM_CTRL_WAKE_EN 0 i (w / 2)).setDomReq i w) ∧ (s.dev.domState i = 2) ∧ (w % 2 = 1) := ⟨(st ((up).wrAt R.POWER.DOM_STATUS_STATE 0 0x70 2)), (0x70), (1), (5), (_), ⟨by decide +kernel, by decide +kernel, by decide +kernel, rfl, by and_intros <;> decide +kernel⟩⟩

theorem witness_PowerDomains_5 : ∃ (s : State) (i : Nat) (w : Nat) (t : Nat) (e : Dev), (i < 113) ∧ (s.dev.domainExists i = true) ∧ (s.dev.reaches 0xC = true) ∧ (e = ((s.dev.atWrite t).wrAt R.POWER.DOM_CTRL_WAKE_EN 0 i (w / 2)).setDomReq i w) ∧ (s.dev.domState i = 2) ∧ (w % 2 = 0) ∧ (s.dev.downRefused i ≠ 0) := ⟨(st ((up).wrAt R.POWER.DOM_STATUS_STATE 0 0x70 2)), (0x70), (0), (5), (_), ⟨by decide +kernel, by decide +kernel, by decide +kernel, rfl, by and_intros <;> decide +kernel⟩⟩

theorem witness_PowerDomains_5_1 : ∃ (s : State) (i : Nat) (w : Nat) (t : Nat) (e : Dev), (i < 113) ∧ (s.dev.domainExists i = true) ∧ (s.dev.reaches 0xC = true) ∧ (e = ((s.dev.atWrite t).wrAt R.POWER.DOM_CTRL_WAKE_EN 0 i (w / 2)).setDomReq i w) ∧ (s.dev.domState i = 2) ∧ (w % 2 = 0) ∧ (s.dev.downRefused i ≠ 0) := ⟨(st ((((up).wrAt R.POWER.DOM_STATUS_STATE 0 5 2).wrAt R.CHECK.BUDGET 0 5 1).wr R.RUN.RUN_STATUS_STATE 1)), (5), (0), (5), (_), ⟨by decide +kernel, by decide +kernel, by decide +kernel, rfl, by and_intros <;> decide +kernel⟩⟩

theorem witness_PowerDomains_6 : ∃ (s : State) (i : Nat) (w : Nat), (i < 113) ∧ (s.dev.domainExists i = true) ∧ (s.dev.reaches 0xC = true) ∧ (s.dev.domState i = 2) ∧ (w % 2 = 0) ∧ (s.dev.downRefused i = 0) := ⟨(st ((up).wrAt R.POWER.DOM_STATUS_STATE 0 0x48 2)), (0x48), (2), by and_intros <;> decide +kernel⟩

theorem witness_PowerDomains_6_1 : ∃ (s : State) (i : Nat) (w : Nat), (i < 113) ∧ (s.dev.domainExists i = true) ∧ (s.dev.reaches 0xC = true) ∧ (s.dev.domState i = 2) ∧ (w % 2 = 0) ∧ (s.dev.downRefused i = 0) := ⟨(st ((up).wrAt R.POWER.DOM_STATUS_STATE 0 63 2)), (63), (0), by and_intros <;> decide +kernel⟩

theorem witness_PowerDomains_7 : ∃ (d : Dev) (i : Nat), (d.domBusy i = true) := ⟨((holding [{ item 1 3 .running [] with banks := [64] }])), (1), by decide +kernel⟩

theorem witness_PowerDomains_8 : ∃ (d : Dev) (i : Nat), (d.domBusy i = false) ∧ (i < 64) ∧ (d.rdAt R.CHECK.BUDGET 0 i ≠ 0) ∧ (d.running = true) := ⟨(((up.wrAt R.CHECK.BUDGET 0 63 1).wr R.RUN.RUN_STATUS_STATE 1)), (63), by and_intros <;> decide +kernel⟩

theorem witness_PowerDomains_9 : ∃ (d : Dev) (i : Nat), (i = 0x58) ∧ (1 ≤ d.rd R.EDGE.EDGE_STATUS_RELEASE_STAGE) := ⟨((up.wr R.EDGE.EDGE_STATUS_RELEASE_STAGE 1)), (0x58), by and_intros <;> decide +kernel⟩

theorem witness_PowerDomains_10 : ∃ (i : Nat), (i = 0x40 ∨ 0x5A ≤ i) := ⟨(0x40), by decide +kernel⟩

theorem witness_PowerDomains_10_1 : ∃ (i : Nat), (i = 0x40 ∨ 0x5A ≤ i) := ⟨(0x5A), by decide +kernel⟩

theorem witness_PowerDomains_11 : ∃ (s : State) (i : Nat), (i < 113) ∧ (s.dev.domainExists i = false) ∧ (s.dev.reaches 0xC = true) := ⟨(st up), (0x47), by and_intros <;> decide +kernel⟩

theorem witness_PowerDomains_12 : ∃ (i : Nat), (113 ≤ i) := ⟨(113), by decide +kernel⟩

theorem witness_PowerDomains_13 : ∃ (s : State) (i : Nat), (s.dev.domainExists i = false) := ⟨(st up), (0x41), by decide +kernel⟩

theorem witness_PowerDomains_14 : ∃ (s : State) (i : Nat), (s.dev.domainExists i = false) := ⟨(st up), (0x41), by decide +kernel⟩

theorem witness_PowerDomains_15 : ∃ (s : State) (i : Nat), (s.dev.domainExists i = false) := ⟨(st up), (0x41), by decide +kernel⟩

theorem witness_PowerDomains_16 : ∃ (s : State) (i : Nat), (s.dev.domainExists i = true) := ⟨(st { ((up).wrAt R.POWER.DOM_STATUS_STATE 0 0x70 3) with net := { up.net with offAt := [(0x70, 1)], ponr := [] } }), (0x70), by decide +kernel⟩

theorem witness_PowerDomains_16_1 : ∃ (s : State) (i : Nat), (s.dev.domainExists i = true) := ⟨(st { ((up).wrAt R.POWER.DOM_STATUS_STATE 0 0x70 3) with net := { up.net with offAt := [(0x70, 1)], ponr := [] } }), (0x70), by decide +kernel⟩

theorem witness_PowerDomains_16_2 : ∃ (s : State) (i : Nat), (s.dev.domainExists i = true) := ⟨(st up), (0), by decide +kernel⟩

theorem witness_PowerDomains_17 : ∃ (s : State) (i : Nat), (s.dev.domainExists i = true) ∧ ((s.dev.domState i ≠ 3 ∨ SMap.get s.dev.net.ponr i ≠ 1)) := ⟨(st up), (0), by and_intros <;> decide +kernel⟩

theorem witness_PowerDomains_17_1 : ∃ (s : State) (i : Nat), (s.dev.domainExists i = true) ∧ ((s.dev.domState i ≠ 3 ∨ SMap.get s.dev.net.ponr i ≠ 1)) := ⟨(st { ((up).wrAt R.POWER.DOM_STATUS_STATE 0 0x70 3) with net := { up.net with offAt := [(0x70, 1)], ponr := [] } }), (0x70), by and_intros <;> decide +kernel⟩

theorem witness_PowerDomains_18 : ∃ (s : State) (i : Nat), (s.dev.domainExists i = true) ∧ (s.dev.domState i = 3) ∧ (SMap.get s.dev.net.ponr i = 1) ∧ ((∀ h, h ∈ s.dev.net.held → h.dom ≠ i)) ∧ ((∀ g, g ∈ s.dev.net.gated → g.1 ≠ i)) ∧ (s.dev.net.queued = []) ∧ (s.dev.rdAt R.POWER.DOM_STATUS_PENDING 0 i ≠ 1) := ⟨(st { ((up).wrAt R.POWER.DOM_STATUS_STATE 0 0 3) with net := { up.net with ponr := [(0, 1)] } }), (0), by and_intros <;> decide +kernel⟩

theorem witness_PowerDomains_18_1 : ∃ (s : State) (i : Nat), (s.dev.domainExists i = true) ∧ (s.dev.domState i = 3) ∧ (SMap.get s.dev.net.ponr i = 1) ∧ ((∀ h, h ∈ s.dev.net.held → h.dom ≠ i)) ∧ ((∀ g, g ∈ s.dev.net.gated → g.1 ≠ i)) ∧ (s.dev.net.queued = []) ∧ (s.dev.rdAt R.POWER.DOM_STATUS_PENDING 0 i ≠ 1) := ⟨(st { ((up).wrAt R.POWER.DOM_STATUS_STATE 0 0x4F 3) with net := { up.net with ponr := [(0x4F, 1)] } }), (0x4F), by and_intros <;> decide +kernel⟩

theorem witness_PowerDomains_18_2 : ∃ (s : State) (i : Nat), (s.dev.domainExists i = true) ∧ (s.dev.domState i = 3) ∧ (SMap.get s.dev.net.ponr i = 1) ∧ ((∀ h, h ∈ s.dev.net.held → h.dom ≠ i)) ∧ ((∀ g, g ∈ s.dev.net.gated → g.1 ≠ i)) ∧ (s.dev.net.queued = []) ∧ (s.dev.rdAt R.POWER.DOM_STATUS_PENDING 0 i ≠ 1) := ⟨(st { ((up).wrAt R.POWER.DOM_STATUS_STATE 0 0x58 3) with net := { up.net with ponr := [(0x58, 1)] } }), (0x58), by and_intros <;> decide +kernel⟩

theorem witness_PowerDomains_18_3 : ∃ (s : State) (i : Nat), (s.dev.domainExists i = true) ∧ (s.dev.domState i = 3) ∧ (SMap.get s.dev.net.ponr i = 1) ∧ ((∀ h, h ∈ s.dev.net.held → h.dom ≠ i)) ∧ ((∀ g, g ∈ s.dev.net.gated → g.1 ≠ i)) ∧ (s.dev.net.queued = []) ∧ (s.dev.rdAt R.POWER.DOM_STATUS_PENDING 0 i ≠ 1) := ⟨(st { ((up).wrAt R.POWER.DOM_STATUS_STATE 0 0x70 3) with net := { up.net with ponr := [(0x70, 1)] } }), (0x70), by and_intros <;> decide +kernel⟩

theorem witness_PowerDomains_19 : ∃ (g : Nat), (g < 64) := ⟨(63), by decide +kernel⟩

theorem witness_PowerDomains_19_1 : ∃ (g : Nat), (g < 64) := ⟨(63), by decide +kernel⟩

theorem witness_PowerDomains_20 : ∃ (d : Dev) (c : Nat), (c < 8) ∧ (d.rdAt R.DDRCH.CH_STATUS_STATE c 0 = 3) := ⟨((up.wrAt R.DDRCH.CH_STATUS_STATE 7 0 3)), (7), by and_intros <;> decide +kernel⟩

theorem witness_PowerDomains_21 : ∃ (s : State) (i : Nat), (s.dev.domainExists i = true) ∧ (s.dev.domState i ≠ 1) := ⟨(st up), (0), by and_intros <;> decide +kernel⟩

theorem witness_PowerDomains_22 : ∃ (s : State) (i : Nat) (t : Nat) (d1 : Dev), (s.dev.domainExists i = true) ∧ (s.dev.domState i = 1) ∧ (s.dev.mg.inReset = false) ∧ (s.dev.on R.POWER.PWR_STATUS_TRANSITION = false) ∧ (s.dev.rdAt R.POWER.DOM_STATUS_PENDING 0 i ≠ 2) ∧ ((∀ h, h ∈ s.dev.net.held → h.dom ≠ i)) ∧ ((∀ g, g ∈ s.dev.net.gated → g.1 ≠ i)) ∧ (s.dev.net.queued = []) ∧ (64 ≤ i) ∧ ((i < 0x48 ∨ 0x50 ≤ i)) ∧ ((i < 0x60 ∨ 0x68 ≤ i)) ∧ (d1 = (s.dev.toTime t).wrAt R.POWER.DOM_STATUS_STATE 0 i 2) := ⟨(st ((up).wrAt R.POWER.DOM_STATUS_STATE 0 0x70 1)), (0x70), (5), (_), ⟨by decide +kernel, by decide +kernel, by decide +kernel, ⟨by decide +kernel, by decide +kernel, by decide +kernel, ⟨by decide +kernel, by decide +kernel, by decide +kernel, ⟨by decide +kernel, by decide +kernel, rfl⟩⟩⟩⟩⟩

theorem witness_PowerDomains_24 : ∃ (d : Dev) (g : Nat), (g < 64) ∧ (isSet (d.route (0x080 + g)) 14 = false) ∧ (d.net.queued = []) ∧ (d.net.gated = []) := ⟨({ up with arr := { up.arr with banks := [(63 * 64 * 0x10000, 5), (64 * 64 * 0x10000, 6)] } }), (63), by and_intros <;> decide +kernel⟩

theorem witness_PowerDomains_24_1 : ∃ (d : Dev) (g : Nat), (g < 64) ∧ (isSet (d.route (0x080 + g)) 14 = false) ∧ (d.net.queued = []) ∧ (d.net.gated = []) := ⟨({ up with arr := { up.arr with banks := [(63 * 64 * 0x10000, 5), (64 * 64 * 0x10000, 6)] } }), (63), by and_intros <;> decide +kernel⟩

theorem witness_PowerDomains_25 : ∃ (d : Dev) (i : Nat), (d.domState i = 2) := ⟨(((up).wrAt R.POWER.DOM_STATUS_STATE 0 3 2)), (3), by decide +kernel⟩

theorem witness_PowerDomains_26 : ∃ (d : Dev) (i : Nat), (d.domState i = 1) := ⟨(((up).wrAt R.POWER.DOM_STATUS_STATE 0 3 1)), (3), by decide +kernel⟩

theorem witness_PowerDomains_27 : ∃ (d : Dev) (i : Nat), (d.domState i = 3) ∧ (SMap.get d.net.ponr i = 1) := ⟨({ ((up).wrAt R.POWER.DOM_STATUS_STATE 0 3 3) with net := { up.net with ponr := [(3, 1)] } }), (3), by and_intros <;> decide +kernel⟩

theorem witness_PowerDomains_28 : ∃ (d : Dev) (i : Nat), (d.domState i = 3) ∧ (SMap.get d.net.ponr i ≠ 1) := ⟨(((up).wrAt R.POWER.DOM_STATUS_STATE 0 3 3)), (3), by and_intros <;> decide +kernel⟩

theorem witness_PowerDomains_29 : ∃ (d : Dev) (i : Nat) (wake : Bool), (d.domState i = 0) ∧ ((wake = true ∨ d.rdAt R.POWER.DOM_CTRL_WAKE_EN 0 i = 1)) ∧ (d.emptyChannel i = false) := ⟨(((up).wrAt R.POWER.DOM_STATUS_STATE 0 3 0)), (3), (true), by and_intros <;> decide +kernel⟩

theorem witness_PowerDomains_29_1 : ∃ (d : Dev) (i : Nat) (wake : Bool), (d.domState i = 0) ∧ ((wake = true ∨ d.rdAt R.POWER.DOM_CTRL_WAKE_EN 0 i = 1)) ∧ (d.emptyChannel i = false) := ⟨((((up).wrAt R.POWER.DOM_STATUS_STATE 0 3 0).wrAt R.POWER.DOM_CTRL_WAKE_EN 0 3 1)), (3), (false), by and_intros <;> decide +kernel⟩

theorem witness_PowerDomains_30 : ∃ (d : Dev) (i : Nat) (wake : Bool), (d.domState i = 0) ∧ ((wake = false ∧ d.rdAt R.POWER.DOM_CTRL_WAKE_EN 0 i ≠ 1 ∨ d.emptyChannel i = true)) := ⟨({ ((up).wrAt R.POWER.DOM_STATUS_STATE 0 3 0).wrAt R.POWER.DOM_CTRL_WAKE_EN 0 3 0 with net := { up.net with offRec := [(3, 1)] } }), (3), (false), by and_intros <;> decide +kernel⟩

theorem witness_PowerDomains_23 : ∃ (s : State) (i : Nat), (s.dev.domainExists i = true) ∧ (s.dev.domState i = 1) := ⟨(st ((up).wrAt R.POWER.DOM_STATUS_STATE 0 0x70 1)), (0x70), by and_intros <;> decide +kernel⟩

theorem witness_PowerDomains_23_1 : ∃ (s : State) (i : Nat), (s.dev.domainExists i = true) ∧ (s.dev.domState i = 1) := ⟨(st ((up).wrAt R.POWER.DOM_STATUS_STATE 0 0 1)), (0), by and_intros <;> decide +kernel⟩

theorem witness_PowerStates_0 : ∃ (s : State) (w : Nat), (s.dev.reaches 0xC = true) ∧ (w % 4 = 3) := ⟨(st up), (7), by and_intros <;> decide +kernel⟩

theorem witness_PowerStates_1 : ∃ (s : State) (w : Nat), (s.dev.reaches 0xC = true) ∧ (w % 4 ≠ 3) ∧ (s.dev.on R.POWER.PWR_STATUS_TRANSITION = false) ∧ (w % 4 = s.dev.powerState) := ⟨(st up), (4), by and_intros <;> decide +kernel⟩

theorem witness_PowerStates_1_1 : ∃ (s : State) (w : Nat), (s.dev.reaches 0xC = true) ∧ (w % 4 ≠ 3) ∧ (s.dev.on R.POWER.PWR_STATUS_TRANSITION = false) ∧ (w % 4 = s.dev.powerState) := ⟨(st ((up).wr R.POWER.PWR_STATUS_STATE 2)), (2), by and_intros <;> decide +kernel⟩

theorem witness_PowerStates_2 : ∃ (s : State) (w : Nat), (s.dev.reaches 0xC = true) ∧ (w % 4 ≠ 3) ∧ (s.dev.on R.POWER.PWR_STATUS_TRANSITION = true) ∧ ((w % 4 ≠ 0 ∨ s.dev.bivouacked = true ∨ s.dev.net.entryStep = 3)) := ⟨(st (((up).wr R.POWER.PWR_STATUS_STATE 2).wr R.POWER.PWR_STATUS_TRANSITION 1)), (0), by and_intros <;> decide +kernel⟩

theorem witness_PowerStates_3 : ∃ (s : State) (w : Nat), (s.dev.reaches 0xC = true) ∧ (w % 4 = 0) ∧ (s.dev.on R.POWER.PWR_STATUS_TRANSITION = true) ∧ (s.dev.bivouacked = false) ∧ (s.dev.net.entryStep ≠ 3) := ⟨(st (up.wr R.POWER.PWR_STATUS_TRANSITION 1)), (0), by and_intros <;> decide +kernel⟩

theorem witness_PowerStates_5 : ∃ (s : State) (w : Nat) (t : Nat) (v : Nat) (d1 : Dev), (s.dev.reaches 0xC = true) ∧ (w % 4 ≠ 3) ∧ (w % 4 ≠ 0) ∧ (s.dev.on R.POWER.PWR_STATUS_TRANSITION = false) ∧ (s.dev.bivouacked = false) ∧ (w % 4 ≠ s.dev.powerState) ∧ (s.dev.running = true) ∧ (v = w % 4) ∧ (d1 = ({ (s.dev.atWrite t).wr R.POWER.PWR_CTRL_TARGET v with net := { s.dev.net with attachNow := s.dev.on R.DBG.DBG_STATUS_ATTACHED } } : Dev).wr R.POWER.PWR_STATUS_TRANSITION 1) := ⟨(st (up.wr R.RUN.RUN_STATUS_STATE 1)), (1), (5), (1), (_), ⟨by decide +kernel, by decide +kernel, by decide +kernel, ⟨by decide +kernel, by decide +kernel, by decide +kernel, ⟨by decide +kernel, by decide +kernel, rfl⟩⟩⟩⟩

theorem witness_PowerStates_5_1 : ∃ (s : State) (w : Nat) (t : Nat) (v : Nat) (d1 : Dev), (s.dev.reaches 0xC = true) ∧ (w % 4 ≠ 3) ∧ (w % 4 ≠ 0) ∧ (s.dev.on R.POWER.PWR_STATUS_TRANSITION = false) ∧ (s.dev.bivouacked = false) ∧ (w % 4 ≠ s.dev.powerState) ∧ (s.dev.running = true) ∧ (v = w % 4) ∧ (d1 = ({ (s.dev.atWrite t).wr R.POWER.PWR_CTRL_TARGET v with net := { s.dev.net with attachNow := s.dev.on R.DBG.DBG_STATUS_ATTACHED } } : Dev).wr R.POWER.PWR_STATUS_TRANSITION 1) := ⟨(st (up.wr R.RUN.RUN_STATUS_STATE 1)), (2), (5), (2), (_), ⟨by decide +kernel, by decide +kernel, by decide +kernel, ⟨by decide +kernel, by decide +kernel, by decide +kernel, ⟨by decide +kernel, by decide +kernel, rfl⟩⟩⟩⟩

theorem witness_PowerStates_6 : ∃ (s : State) (w : Nat) (t : Nat) (d1 : Dev), (s.dev.reaches 0xC = true) ∧ (w % 4 = 1) ∧ (s.dev.powerState = 0) ∧ (s.dev.running = false) ∧ (s.dev.net.back = []) ∧ (s.dev.net.entryStep ≠ 3) ∧ (s.dev.on R.POWER.PWR_STATUS_TRANSITION = false) ∧ (d1 = ({ (s.dev.atWrite t).wr R.POWER.PWR_CTRL_TARGET 1 with net := { s.dev.net with attachNow := s.dev.on R.DBG.DBG_STATUS_ATTACHED } } : Dev).wr R.POWER.PWR_STATUS_TRANSITION 1) := ⟨(st up), (1), (5), (_), ⟨by decide +kernel, by decide +kernel, by decide +kernel, ⟨by decide +kernel, by decide +kernel, by decide +kernel, by decide +kernel, rfl⟩⟩⟩

theorem witness_PowerStates_6_1 : ∃ (s : State) (w : Nat) (t : Nat) (d1 : Dev), (s.dev.reaches 0xC = true) ∧ (w % 4 = 1) ∧ (s.dev.powerState = 0) ∧ (s.dev.running = false) ∧ (s.dev.net.back = []) ∧ (s.dev.net.entryStep ≠ 3) ∧ (s.dev.on R.POWER.PWR_STATUS_TRANSITION = false) ∧ (d1 = ({ (s.dev.atWrite t).wr R.POWER.PWR_CTRL_TARGET 1 with net := { s.dev.net with attachNow := s.dev.on R.DBG.DBG_STATUS_ATTACHED } } : Dev).wr R.POWER.PWR_STATUS_TRANSITION 1) := ⟨(st (up.wr R.DBG.DBG_STATUS_ATTACHED 1)), (1), (5), (_), ⟨by decide +kernel, by decide +kernel, by decide +kernel, ⟨by decide +kernel, by decide +kernel, by decide +kernel, by decide +kernel, rfl⟩⟩⟩

theorem witness_PowerStates_7 : ∃ (s : State) (w : Nat), (s.dev.reaches 0xC = true) ∧ (w % 4 = 0) ∧ (s.dev.powerState = 1) ∧ (s.dev.on R.POWER.PWR_STATUS_TRANSITION = false) := ⟨(st ((up).wr R.POWER.PWR_STATUS_STATE 1)), (0), by and_intros <;> decide +kernel⟩

theorem witness_PowerStates_8 : ∃ (s : State) (w : Nat), (s.dev.reaches 0xC = true) ∧ ((w % 4 = 0 ∨ w % 4 = 1)) ∧ (s.dev.bivouacked = true) ∧ (s.dev.on R.POWER.PWR_STATUS_TRANSITION = false) := ⟨(st { ((up).wr R.POWER.PWR_STATUS_STATE 2) with net := { up.net with back := [0x58] } }), (0), by and_intros <;> decide +kernel⟩

theorem witness_PowerStates_8_1 : ∃ (s : State) (w : Nat), (s.dev.reaches 0xC = true) ∧ ((w % 4 = 0 ∨ w % 4 = 1)) ∧ (s.dev.bivouacked = true) ∧ (s.dev.on R.POWER.PWR_STATUS_TRANSITION = false) := ⟨(st { ((up).wr R.POWER.PWR_STATUS_STATE 2) with net := { up.net with back := [0x58] } }), (1), by and_intros <;> decide +kernel⟩

theorem witness_PowerStates_9 : ∃ (s : Nat), (s < 4) := ⟨(3), by decide +kernel⟩

theorem witness_PowerStates_10 : ∃ (s : State), ((s.dev.mg.inReset = true ∨ s.dev.mg.bootFailed = true)) := ⟨(st { up with mg := { up.mg with inReset := true } }), by decide +kernel⟩

theorem witness_PowerStates_10_1 : ∃ (s : State), ((s.dev.mg.inReset = true ∨ s.dev.mg.bootFailed = true)) := ⟨(st { up with mg := { up.mg with bootFailed := true } }), by decide +kernel⟩

theorem witness_PowerStates_11 : ∃ (s : State) (v : Nat), (s.dev.mg.inReset = false) ∧ (s.dev.mg.bootFailed = false) ∧ (v ≠ 0) ∧ (v ≠ 3) := ⟨(st up), (1), by and_intros <;> decide +kernel⟩

theorem witness_PowerStates_12 : ∃ (s : State) (v : Nat), (s.dev.mg.inReset = false) ∧ (s.dev.mg.bootFailed = false) ∧ ((v = 0 ∨ v = 3)) := ⟨(st up), (0), by and_intros <;> decide +kernel⟩

theorem witness_PowerStates_12_1 : ∃ (s : State) (v : Nat), (s.dev.mg.inReset = false) ∧ (s.dev.mg.bootFailed = false) ∧ ((v = 0 ∨ v = 3)) := ⟨(st ((up).wr R.POWER.PWR_STATUS_STATE 2)), (0), by and_intros <;> decide +kernel⟩

theorem witness_PowerStates_12_2 : ∃ (s : State) (v : Nat), (s.dev.mg.inReset = false) ∧ (s.dev.mg.bootFailed = false) ∧ ((v = 0 ∨ v = 3)) := ⟨(st up), (3), by and_intros <;> decide +kernel⟩

theorem witness_PowerStates_12_3 : ∃ (s : State) (v : Nat), (s.dev.mg.inReset = false) ∧ (s.dev.mg.bootFailed = false) ∧ ((v = 0 ∨ v = 3)) := ⟨(st ((up).wr R.POWER.PWR_STATUS_STATE 2)), (3), by and_intros <;> decide +kernel⟩

theorem witness_PowerStates_13 : ∃ (s : State), (s.dev.on R.POWER.PWR_STATUS_TRANSITION = false) := ⟨(st up), by decide +kernel⟩

theorem witness_PowerStates_14 : ∃ (s : State), (s.dev.on R.POWER.PWR_STATUS_TRANSITION = true) ∧ (s.dev.rd R.POWER.PWR_CTRL_TARGET = 2) ∧ (s.dev.net.attachNow = false) ∧ (s.dev.bivouacked = false) ∧ (s.dev.running = true) ∧ (s.dev.net.entryStep = 0) := ⟨(st (((up.wr R.POWER.PWR_STATUS_TRANSITION 1).wr R.POWER.PWR_CTRL_TARGET 2).wr R.RUN.RUN_STATUS_STATE 1)), by and_intros <;> decide +kernel⟩

theorem witness_PowerStates_15 : ∃ (s : State), (s.dev.on R.POWER.PWR_STATUS_TRANSITION = true) ∧ (s.dev.bivouacked = true) ∧ (s.dev.net.attachNow = false) ∧ (s.dev.rd R.POWER.PWR_CTRL_TARGET ≠ 1) := ⟨(st (((up).wr R.POWER.PWR_STATUS_STATE 2).wr R.POWER.PWR_STATUS_TRANSITION 1)), by and_intros <;> decide +kernel⟩

theorem witness_PowerStates_16 : ∃ (s : State) (t : Nat) (d1 : Dev) (d2 : Dev) (d3 : Dev), (s.dev.on R.POWER.PWR_STATUS_TRANSITION = true) ∧ (s.dev.net.attachNow = false) ∧ (s.dev.bivouacked = false) ∧ ((s.dev.rd R.POWER.PWR_CTRL_TARGET = 2 ∨ s.dev.net.entryStep = 3)) ∧ (s.dev.running = false) ∧ (d1 = (if s.dev.net.entryStep = 0 then (s.dev.toTime t).stopTrace else s.dev.toTime t)) ∧ (d2 = (if d1.net.entryStep = 1 ∧ d1.itemsRest = true ∧ d1.inflight = 0 then d1.askPeers else d1)) ∧ (d3 = (if d2.net.entryStep = 2 then (if (List.range 8).any (fun p => d2.portState p == 6) = true then d2.wr R.POWER.PWR_STATUS_WAIT_PEER 1 else d2.drainDies) else d2)) := ⟨(st ((holding [item 1 3 .running (desc 6 0 0 1)]).wr R.POWER.PWR_STATUS_TRANSITION 1 |>.wr R.POWER.PWR_CTRL_TARGET 2)), (5), (_), (_), (_), ⟨by decide +kernel, by decide +kernel, by decide +kernel, ⟨by decide +kernel, by decide +kernel, rfl, rfl, rfl⟩⟩⟩

theorem witness_PowerStates_16_1 : ∃ (s : State) (t : Nat) (d1 : Dev) (d2 : Dev) (d3 : Dev), (s.dev.on R.POWER.PWR_STATUS_TRANSITION = true) ∧ (s.dev.net.attachNow = false) ∧ (s.dev.bivouacked = false) ∧ ((s.dev.rd R.POWER.PWR_CTRL_TARGET = 2 ∨ s.dev.net.entryStep = 3)) ∧ (s.dev.running = false) ∧ (d1 = (if s.dev.net.entryStep = 0 then (s.dev.toTime t).stopTrace else s.dev.toTime t)) ∧ (d2 = (if d1.net.entryStep = 1 ∧ d1.itemsRest = true ∧ d1.inflight = 0 then d1.askPeers else d1)) ∧ (d3 = (if d2.net.entryStep = 2 then (if (List.range 8).any (fun p => d2.portState p == 6) = true then d2.wr R.POWER.PWR_STATUS_WAIT_PEER 1 else d2.drainDies) else d2)) := ⟨(st { (up.wr R.POWER.PWR_STATUS_TRANSITION 1).wr R.POWER.PWR_CTRL_TARGET 2 with net := { up.net with entryStep := 0 } }), (5), (_), (_), (_), ⟨by decide +kernel, by decide +kernel, by decide +kernel, ⟨by decide +kernel, by decide +kernel, rfl, rfl, rfl⟩⟩⟩

theorem witness_PowerStates_16_2 : ∃ (s : State) (t : Nat) (d1 : Dev) (d2 : Dev) (d3 : Dev), (s.dev.on R.POWER.PWR_STATUS_TRANSITION = true) ∧ (s.dev.net.attachNow = false) ∧ (s.dev.bivouacked = false) ∧ ((s.dev.rd R.POWER.PWR_CTRL_TARGET = 2 ∨ s.dev.net.entryStep = 3)) ∧ (s.dev.running = false) ∧ (d1 = (if s.dev.net.entryStep = 0 then (s.dev.toTime t).stopTrace else s.dev.toTime t)) ∧ (d2 = (if d1.net.entryStep = 1 ∧ d1.itemsRest = true ∧ d1.inflight = 0 then d1.askPeers else d1)) ∧ (d3 = (if d2.net.entryStep = 2 then (if (List.range 8).any (fun p => d2.portState p == 6) = true then d2.wr R.POWER.PWR_STATUS_WAIT_PEER 1 else d2.drainDies) else d2)) := ⟨(st { (up.wr R.POWER.PWR_STATUS_TRANSITION 1).wr R.POWER.PWR_CTRL_TARGET 2 with net := { up.net with entryStep := 1 } }), (5), (_), (_), (_), ⟨by decide +kernel, by decide +kernel, by decide +kernel, ⟨by decide +kernel, by decide +kernel, rfl, rfl, rfl⟩⟩⟩

theorem witness_PowerStates_16_3 : ∃ (s : State) (t : Nat) (d1 : Dev) (d2 : Dev) (d3 : Dev), (s.dev.on R.POWER.PWR_STATUS_TRANSITION = true) ∧ (s.dev.net.attachNow = false) ∧ (s.dev.bivouacked = false) ∧ ((s.dev.rd R.POWER.PWR_CTRL_TARGET = 2 ∨ s.dev.net.entryStep = 3)) ∧ (s.dev.running = false) ∧ (d1 = (if s.dev.net.entryStep = 0 then (s.dev.toTime t).stopTrace else s.dev.toTime t)) ∧ (d2 = (if d1.net.entryStep = 1 ∧ d1.itemsRest = true ∧ d1.inflight = 0 then d1.askPeers else d1)) ∧ (d3 = (if d2.net.entryStep = 2 then (if (List.range 8).any (fun p => d2.portState p == 6) = true then d2.wr R.POWER.PWR_STATUS_WAIT_PEER 1 else d2.drainDies) else d2)) := ⟨(st { (up.wr R.POWER.PWR_STATUS_TRANSITION 1).wr R.POWER.PWR_CTRL_TARGET 2 with net := { up.net with entryStep := 2 } }), (5), (_), (_), (_), ⟨by decide +kernel, by decide +kernel, by decide +kernel, ⟨by decide +kernel, by decide +kernel, rfl, rfl, rfl⟩⟩⟩

theorem witness_PowerStates_16_4 : ∃ (s : State) (t : Nat) (d1 : Dev) (d2 : Dev) (d3 : Dev), (s.dev.on R.POWER.PWR_STATUS_TRANSITION = true) ∧ (s.dev.net.attachNow = false) ∧ (s.dev.bivouacked = false) ∧ ((s.dev.rd R.POWER.PWR_CTRL_TARGET = 2 ∨ s.dev.net.entryStep = 3)) ∧ (s.dev.running = false) ∧ (d1 = (if s.dev.net.entryStep = 0 then (s.dev.toTime t).stopTrace else s.dev.toTime t)) ∧ (d2 = (if d1.net.entryStep = 1 ∧ d1.itemsRest = true ∧ d1.inflight = 0 then d1.askPeers else d1)) ∧ (d3 = (if d2.net.entryStep = 2 then (if (List.range 8).any (fun p => d2.portState p == 6) = true then d2.wr R.POWER.PWR_STATUS_WAIT_PEER 1 else d2.drainDies) else d2)) := ⟨(st { (up.wr R.POWER.PWR_STATUS_TRANSITION 1).wr R.POWER.PWR_CTRL_TARGET 2 with net := { up.net with entryStep := 3 } }), (5), (_), (_), (_), ⟨by decide +kernel, by decide +kernel, by decide +kernel, ⟨by decide +kernel, by decide +kernel, rfl, rfl, rfl⟩⟩⟩

theorem witness_PowerStates_16_5 : ∃ (s : State) (t : Nat) (d1 : Dev) (d2 : Dev) (d3 : Dev), (s.dev.on R.POWER.PWR_STATUS_TRANSITION = true) ∧ (s.dev.net.attachNow = false) ∧ (s.dev.bivouacked = false) ∧ ((s.dev.rd R.POWER.PWR_CTRL_TARGET = 2 ∨ s.dev.net.entryStep = 3)) ∧ (s.dev.running = false) ∧ (d1 = (if s.dev.net.entryStep = 0 then (s.dev.toTime t).stopTrace else s.dev.toTime t)) ∧ (d2 = (if d1.net.entryStep = 1 ∧ d1.itemsRest = true ∧ d1.inflight = 0 then d1.askPeers else d1)) ∧ (d3 = (if d2.net.entryStep = 2 then (if (List.range 8).any (fun p => d2.portState p == 6) = true then d2.wr R.POWER.PWR_STATUS_WAIT_PEER 1 else d2.drainDies) else d2)) := ⟨(st (((up.wr R.POWER.PWR_STATUS_TRANSITION 1).wr R.POWER.PWR_CTRL_TARGET 2).wrAt R.KL.KL_STATUS_STATE 7 0 6)), (5), (_), (_), (_), ⟨by decide +kernel, by decide +kernel, by decide +kernel, ⟨by decide +kernel, by decide +kernel, rfl, rfl, rfl⟩⟩⟩

theorem witness_PowerStates_18 : ∃ (s : State) (power : Nat) (x : List Nat), (x = (power :: s.dev.net.samples).take (max 1 (s.dev.rd R.POWER.PL_WINDOW_US))) ∧ (s.dev.net.above + 1 < max 1 (s.dev.rd R.POWER.PL_WINDOW_US) ∨ s.dev.net.windowBelay = true ∨ x.sum ≤ s.dev.rd R.POWER.PL_LIMIT_W * 10 * x.length) := ⟨(st { up.wr R.POWER.PL_WINDOW_US 3 |>.wr R.POWER.PL_LIMIT_W 10 with net := { up.net with samples := [100, 100, 100], above := 1, windowBelay := false } }), (100), ([100, 100, 100]), by and_intros <;> decide +kernel⟩

theorem witness_PowerStates_18_1 : ∃ (s : State) (power : Nat) (x : List Nat), (x = (power :: s.dev.net.samples).take (max 1 (s.dev.rd R.POWER.PL_WINDOW_US))) ∧ (s.dev.net.above + 1 < max 1 (s.dev.rd R.POWER.PL_WINDOW_US) ∨ s.dev.net.windowBelay = true ∨ x.sum ≤ s.dev.rd R.POWER.PL_LIMIT_W * 10 * x.length) := ⟨(st { up.wr R.POWER.PL_WINDOW_US 3 |>.wr R.POWER.PL_LIMIT_W 10 with net := { up.net with samples := [100, 100, 100], above := 1, windowBelay := false } }), (101), ([101, 100, 100]), by and_intros <;> decide +kernel⟩

theorem witness_PowerStates_18_2 : ∃ (s : State) (power : Nat) (x : List Nat), (x = (power :: s.dev.net.samples).take (max 1 (s.dev.rd R.POWER.PL_WINDOW_US))) ∧ (s.dev.net.above + 1 < max 1 (s.dev.rd R.POWER.PL_WINDOW_US) ∨ s.dev.net.windowBelay = true ∨ x.sum ≤ s.dev.rd R.POWER.PL_LIMIT_W * 10 * x.length) := ⟨(st { up.wr R.POWER.PL_WINDOW_US 3 |>.wr R.POWER.PL_LIMIT_W 10 with net := { up.net with samples := [100, 100, 100], above := 1, windowBelay := false } }), (105), ([105, 100, 100]), by and_intros <;> decide +kernel⟩

theorem witness_PowerStates_18_3 : ∃ (s : State) (power : Nat) (x : List Nat), (x = (power :: s.dev.net.samples).take (max 1 (s.dev.rd R.POWER.PL_WINDOW_US))) ∧ (s.dev.net.above + 1 < max 1 (s.dev.rd R.POWER.PL_WINDOW_US) ∨ s.dev.net.windowBelay = true ∨ x.sum ≤ s.dev.rd R.POWER.PL_LIMIT_W * 10 * x.length) := ⟨(st { up.wr R.POWER.PL_WINDOW_US 3 |>.wr R.POWER.PL_LIMIT_W 10 with net := { up.net with samples := [200], above := 2, windowBelay := true } }), (101), ([101, 200]), by and_intros <;> decide +kernel⟩

theorem witness_PowerStates_19 : ∃ (s : State) (power : Nat) (x : List Nat), (x = (power :: s.dev.net.samples).take (max 1 (s.dev.rd R.POWER.PL_WINDOW_US))) ∧ (max 1 (s.dev.rd R.POWER.PL_WINDOW_US) ≤ s.dev.net.above + 1) ∧ (s.dev.net.windowBelay = false) ∧ (s.dev.rd R.POWER.PL_LIMIT_W * 10 * x.length < x.sum) := ⟨(st { up.wr R.POWER.PL_WINDOW_US 3 |>.wr R.POWER.PL_LIMIT_W 10 with net := { up.net with samples := [100, 100, 900], above := 2, windowBelay := false } }), (101), ([101, 100, 100]), by and_intros <;> decide +kernel⟩

theorem witness_DebugPort_0 : ∃ (s : State) (w : Nat), (s.dev.reaches 0x16 = true) ∧ (bitAt w 1 = 0) ∧ (bitAt w 2 = 0) ∧ (s.dev.on R.DBG.DBG_STATUS_JTAG_ATTACHED = false) ∧ (s.dev.on R.DBG.DBG_STATUS_ATTACHED = (w % 2 == 1)) := ⟨(st up), (0), by and_intros <;> decide +kernel⟩

theorem witness_DebugPort_1 : ∃ (s : State) (w : Nat), (s.dev.reaches 0x16 = true) ∧ (bitAt w 1 = 0) ∧ (bitAt w 2 = 0) ∧ (s.dev.on R.DBG.DBG_STATUS_JTAG_ATTACHED = true) ∧ (s.dev.on R.DBG.DBG_STATUS_ATTACHED = true) := ⟨(st ((up.wr R.DBG.DBG_STATUS_ATTACHED 1).wr R.DBG.DBG_STATUS_JTAG_ATTACHED 1)), (0), by and_intros <;> decide +kernel⟩

theorem witness_DebugPort_2 : ∃ (s : State) (w : Nat), (s.dev.reaches 0x16 = true) ∧ (bitAt w 1 = 0) ∧ (bitAt w 2 = 0) ∧ (s.dev.on R.DBG.DBG_STATUS_JTAG_ATTACHED = false) ∧ (s.dev.on R.DBG.DBG_STATUS_ATTACHED = (w % 2 == 0)) ∧ ((w % 2 = 1 ∨ s.dev.on R.POWER.PWR_STATUS_EMULATED = false)) := ⟨(st up), (1), by and_intros <;> decide +kernel⟩

theorem witness_DebugPort_2_1 : ∃ (s : State) (w : Nat), (s.dev.reaches 0x16 = true) ∧ (bitAt w 1 = 0) ∧ (bitAt w 2 = 0) ∧ (s.dev.on R.DBG.DBG_STATUS_JTAG_ATTACHED = false) ∧ (s.dev.on R.DBG.DBG_STATUS_ATTACHED = (w % 2 == 0)) ∧ ((w % 2 = 1 ∨ s.dev.on R.POWER.PWR_STATUS_EMULATED = false)) := ⟨(st (up.wr R.DBG.DBG_STATUS_ATTACHED 1)), (0), by and_intros <;> decide +kernel⟩

theorem witness_DebugPort_3 : ∃ (s : State) (w : Nat) (t : Nat) (d1 : Dev), (s.dev.reaches 0x16 = true) ∧ (bitAt w 0 = 0) ∧ (bitAt w 1 = 0) ∧ (bitAt w 2 = 0) ∧ (s.dev.on R.DBG.DBG_STATUS_JTAG_ATTACHED = false) ∧ (s.dev.on R.DBG.DBG_STATUS_ATTACHED = true) ∧ (s.dev.on R.POWER.PWR_STATUS_EMULATED = true) ∧ (d1 = ((((s.dev.atWrite t).wr R.DBG.DBG_CTRL_ATTACH w).wr R.DBG.DBG_STATUS_ATTACHED 0).event 0x7A5)) := ⟨(st ((up.wr R.POWER.PWR_STATUS_EMULATED 1).wr R.DBG.DBG_STATUS_ATTACHED 1)), (0), (5), (_), ⟨by decide +kernel, by decide +kernel, by decide +kernel, ⟨by decide +kernel, by decide +kernel, by decide +kernel, by decide +kernel, rfl⟩⟩⟩

theorem witness_DebugPort_3_1 : ∃ (s : State) (w : Nat) (t : Nat) (d1 : Dev), (s.dev.reaches 0x16 = true) ∧ (bitAt w 0 = 0) ∧ (bitAt w 1 = 0) ∧ (bitAt w 2 = 0) ∧ (s.dev.on R.DBG.DBG_STATUS_JTAG_ATTACHED = false) ∧ (s.dev.on R.DBG.DBG_STATUS_ATTACHED = true) ∧ (s.dev.on R.POWER.PWR_STATUS_EMULATED = true) ∧ (d1 = ((((s.dev.atWrite t).wr R.DBG.DBG_CTRL_ATTACH w).wr R.DBG.DBG_STATUS_ATTACHED 0).event 0x7A5)) := ⟨(st (((up.wr R.POWER.PWR_STATUS_EMULATED 1).wr R.DBG.DBG_STATUS_ATTACHED 1).wr R.POWER.PWR_STATUS_STATE 1)), (0), (5), (_), ⟨by decide +kernel, by decide +kernel, by decide +kernel, ⟨by decide +kernel, by decide +kernel, by decide +kernel, by decide +kernel, rfl⟩⟩⟩

theorem witness_DebugPort_4 : ∃ (s : State) (w : Nat), (s.dev.reaches 0x16 = true) ∧ (bitAt w 1 = 0) ∧ (s.dev.on R.DBG.DBG_STATUS_JTAG_ATTACHED = false) ∧ (s.dev.on R.DBG.DBG_STATUS_ATTACHED = (w % 2 == 1)) := ⟨(st up), (0), by and_intros <;> decide +kernel⟩

theorem witness_DebugPort_4_1 : ∃ (s : State) (w : Nat), (s.dev.reaches 0x16 = true) ∧ (bitAt w 1 = 0) ∧ (s.dev.on R.DBG.DBG_STATUS_JTAG_ATTACHED = false) ∧ (s.dev.on R.DBG.DBG_STATUS_ATTACHED = (w % 2 == 1)) := ⟨(st up), (4), by and_intros <;> decide +kernel⟩

theorem witness_DebugPort_6 : ∃ (s : State) (w : Nat) (t : Nat) (d1 : Dev), (s.dev.reaches 0x16 = true) ∧ (bitAt w 2 = 0) ∧ (s.dev.on R.DBG.DBG_STATUS_JTAG_ATTACHED = false) ∧ (s.dev.on R.DBG.DBG_STATUS_ATTACHED = (w % 2 == 1)) ∧ (d1 = (s.dev.atWrite t).wr R.DBG.DBG_CTRL_ATTACH w) := ⟨(st up), (0), (5), (_), ⟨by decide +kernel, by decide +kernel, by decide +kernel, by decide +kernel, rfl⟩⟩

theorem witness_DebugPort_6_1 : ∃ (s : State) (w : Nat) (t : Nat) (d1 : Dev), (s.dev.reaches 0x16 = true) ∧ (bitAt w 2 = 0) ∧ (s.dev.on R.DBG.DBG_STATUS_JTAG_ATTACHED = false) ∧ (s.dev.on R.DBG.DBG_STATUS_ATTACHED = (w % 2 == 1)) ∧ (d1 = (s.dev.atWrite t).wr R.DBG.DBG_CTRL_ATTACH w) := ⟨(st { up with dbg := { up.dbg with erasing := true } }), (0), (5), (_), ⟨by decide +kernel, by decide +kernel, by decide +kernel, by decide +kernel, rfl⟩⟩

theorem witness_DebugPort_7 : ∃ (d : Dev), (d.running = true) := ⟨(running), by decide +kernel⟩

theorem witness_DebugPort_8 : ∃ (d : Dev), (d.running = false) ∧ (3 ≤ d.rd R.DBG.DBG_STATUS_UNLOCK_FAILS) := ⟨(up.wr R.DBG.DBG_STATUS_UNLOCK_FAILS 3), by and_intros <;> decide +kernel⟩

theorem witness_DebugPort_9 : ∃ (d : Dev), (d.running = false) ∧ (d.rd R.DBG.DBG_STATUS_UNLOCK_FAILS < 3) ∧ (d.on R.LOAD.LOAD_STATUS_SECURE = false) := ⟨(up.wr R.DBG.DBG_STATUS_UNLOCK_FAILS 2), by and_intros <;> decide +kernel⟩

theorem witness_DebugPort_10 : ∃ (d : Dev), (d.running = false) ∧ (d.rd R.DBG.DBG_STATUS_UNLOCK_FAILS < 3) ∧ (d.on R.LOAD.LOAD_STATUS_SECURE = true) ∧ (d.rd R.DBG.TOKEN_KEY ≠ d.ld.sigKey) := ⟨((up.wr R.LOAD.LOAD_STATUS_SECURE 1).wr R.DBG.TOKEN_KEY 1), by and_intros <;> decide +kernel⟩

theorem witness_DebugPort_11 : ∃ (d : Dev), (d.running = false) ∧ (d.rd R.DBG.DBG_STATUS_UNLOCK_FAILS < 3) ∧ (d.on R.LOAD.LOAD_STATUS_SECURE = true) ∧ (d.rd R.DBG.TOKEN_KEY = d.ld.sigKey) := ⟨((up.wr R.LOAD.LOAD_STATUS_SECURE 1)), by and_intros <;> decide +kernel⟩

theorem witness_DebugPort_12 : ∃ (r : Nat), (1 ≤ r) ∧ (r ≤ 5) := ⟨(1), by and_intros <;> decide +kernel⟩

theorem witness_DebugPort_12_1 : ∃ (r : Nat), (1 ≤ r) ∧ (r ≤ 5) := ⟨(5), by and_intros <;> decide +kernel⟩

theorem witness_DebugPort_12_2 : ∃ (r : Nat), (1 ≤ r) ∧ (r ≤ 5) := ⟨(2), by and_intros <;> decide +kernel⟩

theorem witness_DebugPort_12_3 : ∃ (r : Nat), (1 ≤ r) ∧ (r ≤ 5) := ⟨(3), by and_intros <;> decide +kernel⟩

theorem witness_DebugPort_13 : ∃ (s : State), (s.dev.dbg.erasing = false) := ⟨(st up), by decide +kernel⟩

theorem witness_DebugPort_14 : ∃ (s : State) (t : Nat) (v : MemView) (d1 : Dev), (s.dev.dbg.erasing = true) ∧ (d1 = ((((((s.dev.toTime t).eraseDdr v).clearCheck).wr R.LOAD.LOAD_STATUS_STATE 0).wr R.LOAD.LOAD_STATUS_SECURE 0).wr R.DBG.SECURE_CTX_MASK 0).wr R.DBG.DBG_STATUS_SECURE_STATE 0) := ⟨(st { (up.wr R.LOAD.LOAD_STATUS_SECURE 1) with dbg := { up.dbg with erasing := true } }), (5), (default), (_), ⟨by decide +kernel, rfl⟩⟩

theorem witness_DebugPort_15 : ∃ (s : State), (s.dev.reaches 0x16 = true) ∧ (s.dev.on R.DBG.BAP_STATUS_BUSY = true) := ⟨(st (up.wr R.DBG.BAP_STATUS_BUSY 1)), by and_intros <;> decide +kernel⟩

theorem witness_DebugPort_16 : ∃ (s : State) (w : Nat) (t : Nat) (d1 : Dev) (d2 : Dev), (s.dev.reaches 0x16 = true) ∧ (s.dev.on R.DBG.BAP_STATUS_BUSY = false) ∧ (d1 = (s.dev.atWrite t).bapCtrlFields w) ∧ (d2 = ({ d1 with dbg := { d1.dbg with bap := if bitAt w 2 = 1 then .now else d1.bapWhen, onBank := if bitAt w 2 = 0 ∧ d1.bapBank = true then some (d1.bankAt d1.bapOff) else none } } : Dev).wr
      R.DBG.BAP_STATUS_BUSY 1) := ⟨(st (up)), (1), (5), (_), (_), ⟨by decide +kernel, by decide +kernel, rfl, rfl⟩⟩

theorem witness_DebugPort_16_1 : ∃ (s : State) (w : Nat) (t : Nat) (d1 : Dev) (d2 : Dev), (s.dev.reaches 0x16 = true) ∧ (s.dev.on R.DBG.BAP_STATUS_BUSY = false) ∧ (d1 = (s.dev.atWrite t).bapCtrlFields w) ∧ (d2 = ({ d1 with dbg := { d1.dbg with bap := if bitAt w 2 = 1 then .now else d1.bapWhen, onBank := if bitAt w 2 = 0 ∧ d1.bapBank = true then some (d1.bankAt d1.bapOff) else none } } : Dev).wr
      R.DBG.BAP_STATUS_BUSY 1) := ⟨(st (running)), (0x21), (5), (_), (_), ⟨by decide +kernel, by decide +kernel, rfl, rfl⟩⟩

theorem witness_DebugPort_16_2 : ∃ (s : State) (w : Nat) (t : Nat) (d1 : Dev) (d2 : Dev), (s.dev.reaches 0x16 = true) ∧ (s.dev.on R.DBG.BAP_STATUS_BUSY = false) ∧ (d1 = (s.dev.atWrite t).bapCtrlFields w) ∧ (d2 = ({ d1 with dbg := { d1.dbg with bap := if bitAt w 2 = 1 then .now else d1.bapWhen, onBank := if bitAt w 2 = 0 ∧ d1.bapBank = true then some (d1.bankAt d1.bapOff) else none } } : Dev).wr
      R.DBG.BAP_STATUS_BUSY 1) := ⟨(st (up)), (5), (5), (_), (_), ⟨by decide +kernel, by decide +kernel, rfl, rfl⟩⟩

theorem witness_DebugPort_16_3 : ∃ (s : State) (w : Nat) (t : Nat) (d1 : Dev) (d2 : Dev), (s.dev.reaches 0x16 = true) ∧ (s.dev.on R.DBG.BAP_STATUS_BUSY = false) ∧ (d1 = (s.dev.atWrite t).bapCtrlFields w) ∧ (d2 = ({ d1 with dbg := { d1.dbg with bap := if bitAt w 2 = 1 then .now else d1.bapWhen, onBank := if bitAt w 2 = 0 ∧ d1.bapBank = true then some (d1.bankAt d1.bapOff) else none } } : Dev).wr
      R.DBG.BAP_STATUS_BUSY 1) := ⟨(st { running with tk := { running.tk with pitches := 2 } }), (0x3E1), (5), (_), (_), ⟨by decide +kernel, by decide +kernel, rfl, rfl⟩⟩

theorem witness_DebugPort_18 : ∃ (d : Dev) (w : Nat) (d1 : Dev), (d1 = d.bapCtrlFields w) := ⟨(up), (2 ^ 23 - 1), (_), rfl⟩

theorem witness_DebugPort_18_1 : ∃ (d : Dev) (w : Nat) (d1 : Dev), (d1 = d.bapCtrlFields w) := ⟨(up), (2 ^ 9), (_), rfl⟩

theorem witness_DebugPort_19 : ∃ (s : State), (s.dev.dbg.bap = .idle) := ⟨(st up), by decide +kernel⟩

theorem witness_DebugPort_20 : ∃ (s : State), ((s.dev.dbg.bap = .now ∨ s.dev.dbg.bap = .service ∧ s.dev.running = false ∨ s.dev.dbg.bap = .steal ∧ s.dev.running = false)) ∧ ((s.dev.dbg.bap = .now → s.dev.on R.DBG.BAP_CTRL_SPACE = false)) ∧ ((s.dev.on R.DBG.BAP_CTRL_SPACE = true ∨ s.dev.bapPowered = true)) := ⟨(st { (up.wr R.DBG.BAP_ADDR (arrayAt 0x200000000)) with dbg := { (up.wr R.DBG.BAP_ADDR (arrayAt 0x200000000)).dbg with bap := .now } }), by and_intros <;> decide +kernel⟩

theorem witness_DebugPort_20_1 : ∃ (s : State), ((s.dev.dbg.bap = .now ∨ s.dev.dbg.bap = .service ∧ s.dev.running = false ∨ s.dev.dbg.bap = .steal ∧ s.dev.running = false)) ∧ ((s.dev.dbg.bap = .now → s.dev.on R.DBG.BAP_CTRL_SPACE = false)) ∧ ((s.dev.on R.DBG.BAP_CTRL_SPACE = true ∨ s.dev.bapPowered = true)) := ⟨(st { (up.wr R.DBG.BAP_ADDR (arrayAt 0x200000000)) with dbg := { (up.wr R.DBG.BAP_ADDR (arrayAt 0x200000000)).dbg with bap := .service } }), by and_intros <;> decide +kernel⟩

theorem witness_DebugPort_20_2 : ∃ (s : State), ((s.dev.dbg.bap = .now ∨ s.dev.dbg.bap = .service ∧ s.dev.running = false ∨ s.dev.dbg.bap = .steal ∧ s.dev.running = false)) ∧ ((s.dev.dbg.bap = .now → s.dev.on R.DBG.BAP_CTRL_SPACE = false)) ∧ ((s.dev.on R.DBG.BAP_CTRL_SPACE = true ∨ s.dev.bapPowered = true)) := ⟨(st { (up.wr R.DBG.BAP_ADDR (arrayAt 0x200000000)) with dbg := { (up.wr R.DBG.BAP_ADDR (arrayAt 0x200000000)).dbg with bap := .steal } }), by and_intros <;> decide +kernel⟩

theorem witness_DebugPort_21 : ∃ (s : State), ((s.dev.dbg.bap = .service ∨ s.dev.dbg.bap = .steal ∧ s.dev.stealDue = false)) ∧ (s.dev.running = true) ∧ ((s.dev.on R.DBG.BAP_CTRL_SPACE = true ∨ s.dev.bapPowered = true)) := ⟨(st { (running.wr R.DBG.BAP_ADDR (arrayAt 0x200000000)) with dbg := { (running.wr R.DBG.BAP_ADDR (arrayAt 0x200000000)).dbg with bap := .service } }), by and_intros <;> decide +kernel⟩

theorem witness_DebugPort_21_1 : ∃ (s : State), ((s.dev.dbg.bap = .service ∨ s.dev.dbg.bap = .steal ∧ s.dev.stealDue = false)) ∧ (s.dev.running = true) ∧ ((s.dev.on R.DBG.BAP_CTRL_SPACE = true ∨ s.dev.bapPowered = true)) := ⟨(st { (running.wr R.DBG.BAP_ADDR (arrayAt 0x200000000)) with dbg := { (running.wr R.DBG.BAP_ADDR (arrayAt 0x200000000)).dbg with bap := .steal } }), by and_intros <;> decide +kernel⟩

theorem witness_DebugPort_22 : ∃ (s : State) (t : Nat) (d1 : Dev), (s.dev.dbg.bap = .steal) ∧ (s.dev.running = true) ∧ (s.dev.tk.phase = .waiting) ∧ (bitAt (s.dev.mapEntry s.dev.tk.belay) 17 = 1) ∧ (s.dev.tk.stolen < s.dev.rd R.TAKE.TAKE_CTRL_STEAL_LIMIT) ∧ (s.dev.bapPowered = true) ∧ (d1 = s.dev.toTime t) := ⟨(st { (((inBelay .waiting 0).wr R.DBG.BAP_ADDR (arrayAt 0x200000000)).wr R.TAKE.TAKE_CTRL_STEAL_LIMIT 1).wrAt R.TAKE.PITCH_MAP 0 0 (2 ^ 17) with dbg := { up.dbg with bap := .steal } }), (5), (_), ⟨by decide +kernel, by decide +kernel, by decide +kernel, ⟨by decide +kernel, by decide +kernel, by decide +kernel, rfl⟩⟩⟩

theorem witness_DebugPort_23 : ∃ (s : State), (s.dev.dbg.bap ≠ .idle) ∧ (s.dev.dbg.bap ≠ .report) ∧ (s.dev.on R.DBG.BAP_CTRL_SPACE = false) ∧ (s.dev.bapPowered = false) := ⟨(st { ((up.wrAt R.POWER.DOM_STATUS_STATE 0 0 0).wr R.DBG.BAP_ADDR (arrayAt 0x200000000)) with dbg := { up.dbg with bap := .now } }), by and_intros <;> decide +kernel⟩

theorem witness_DebugPort_23_1 : ∃ (s : State), (s.dev.dbg.bap ≠ .idle) ∧ (s.dev.dbg.bap ≠ .report) ∧ (s.dev.on R.DBG.BAP_CTRL_SPACE = false) ∧ (s.dev.bapPowered = false) := ⟨(st { ((up.wrAt R.POWER.DOM_STATUS_STATE 0 0 0).wr R.DBG.BAP_ADDR (arrayAt 0x200000000)) with dbg := { up.dbg with bap := .bankIdle 0 } }), by and_intros <;> decide +kernel⟩

theorem witness_DebugPort_24 : ∃ (s : State) (g : Nat), (s.dev.dbg.bap = .bankIdle g) ∧ ((s.dev.on R.DBG.BAP_CTRL_SPACE = true ∨ s.dev.bapPowered = true)) := ⟨(st { (up.wr R.DBG.BAP_ADDR (arrayAt 0x200000000)) with dbg := { (up.wr R.DBG.BAP_ADDR (arrayAt 0x200000000)).dbg with bap := .bankIdle 0 } }), (0), by and_intros <;> decide +kernel⟩

theorem witness_DebugPort_25 : ∃ (s : State), (s.dev.dbg.bap = .report) := ⟨(st { up with dbg := { up.dbg with bap := .report } }), by decide +kernel⟩

theorem witness_DebugPort_26 : ∃ (s : State) (r : Nat), (s.dev.dbg.bap = .now) ∧ (s.dev.on R.DBG.BAP_CTRL_SPACE = true) ∧ (s.dev.bapDvaCheck = r) ∧ (r ≠ 0) := ⟨(st { ((holding []).wr R.DBG.BAP_CTRL_SPACE 1) with dbg := { ((holding []).wr R.DBG.BAP_CTRL_SPACE 1).dbg with bap := .now } }), (5), by and_intros <;> decide +kernel⟩

theorem witness_DebugPort_26_1 : ∃ (s : State) (r : Nat), (s.dev.dbg.bap = .now) ∧ (s.dev.on R.DBG.BAP_CTRL_SPACE = true) ∧ (s.dev.bapDvaCheck = r) ∧ (r ≠ 0) := ⟨(st { ((((holding []).wr R.DBG.BAP_CTRL_SPACE 1).wr R.DBG.BAP_CTRL_LEN 8).wr R.LOAD.LOAD_STATUS_SECURE 1) with dbg := { ((((holding []).wr R.DBG.BAP_CTRL_SPACE 1).wr R.DBG.BAP_CTRL_LEN 8).wr R.LOAD.LOAD_STATUS_SECURE 1).dbg with bap := .now } }), (3), by and_intros <;> decide +kernel⟩

theorem witness_DebugPort_26_2 : ∃ (s : State) (r : Nat), (s.dev.dbg.bap = .now) ∧ (s.dev.on R.DBG.BAP_CTRL_SPACE = true) ∧ (s.dev.bapDvaCheck = r) ∧ (r ≠ 0) := ⟨(st { ((((((holding []).wr R.DBG.BAP_CTRL_SPACE 1).wr R.DBG.BAP_CTRL_LEN 8).wr R.DBG.BAP_CTRL_RESPECT_LOCK 1).wrAt R.DBG.LOCK_LIMIT 0 3 1).wrAt R.DBG.LOCK_PROBE_ENABLE 0 3 1) with dbg := { up.dbg with bap := .now, lockLanes := [(0, 1)] } }), (1), by and_intros <;> decide +kernel⟩

theorem witness_DebugPort_27 : ∃ (s : State) (t : Nat) (a : Nat) (v : MemView) (v1 : MemView) (bs : Bytes) (d1 : Dev), (s.dev.dbg.bap = .now) ∧ (s.dev.on R.DBG.BAP_CTRL_SPACE = true) ∧ (s.dev.bapDvaCheck = 0) ∧ (s.dev.on R.DBG.BAP_CTRL_WRITE = false) ∧ (a = s.dev.rd R.DBG.BAP_ADDR) ∧ ((s.dev.toTime t).dmaRead 1 (s.dev.rd R.DBG.BAP_CTRL_CTX) a s.dev.bapLen v = (.done bs, v1, d1)) := ⟨(st { (((holding []).wr R.DBG.BAP_CTRL_SPACE 1).wr R.DBG.BAP_CTRL_LEN 4) with dbg := { (((holding []).wr R.DBG.BAP_CTRL_SPACE 1).wr R.DBG.BAP_CTRL_LEN 4).dbg with bap := .now } }), (5), (0), (view [1, 2, 3, 4]), (_), ([1, 2, 3, 4]), (_), ⟨by decide +kernel, by decide +kernel, by decide +kernel, ⟨by decide +kernel, by decide +kernel, split_1_3 (by decide +kernel)⟩⟩⟩

theorem witness_DebugPort_28 : ∃ (s : State) (t : Nat) (a : Nat) (v : MemView) (v1 : MemView) (bs : Bytes) (d1 : Dev), (s.dev.dbg.bap = .now) ∧ (s.dev.on R.DBG.BAP_CTRL_SPACE = true) ∧ (s.dev.bapDvaCheck = 0) ∧ (s.dev.on R.DBG.BAP_CTRL_WRITE = true) ∧ (a = s.dev.rd R.DBG.BAP_ADDR) ∧ ((s.dev.toTime t).dmaWrite (s.dev.rd R.DBG.BAP_CTRL_CTX) a (leBytes (s.dev.rd R.DBG.BAP_DATA) s.dev.bapLen) v = (.done bs, v1, d1)) := ⟨(st { (((((holding []).wr R.DBG.BAP_CTRL_SPACE 1).wr R.DBG.BAP_CTRL_LEN 4).wr R.DBG.BAP_CTRL_WRITE 1).wr R.DBG.BAP_DATA 0x4030201) with dbg := { (((((holding []).wr R.DBG.BAP_CTRL_SPACE 1).wr R.DBG.BAP_CTRL_LEN 4).wr R.DBG.BAP_CTRL_WRITE 1).wr R.DBG.BAP_DATA 0x4030201).dbg with bap := .now } }), (5), (0), (view [9, 9, 9, 9]), (_), ([]), (_), ⟨by decide +kernel, by decide +kernel, by decide +kernel, ⟨by decide +kernel, by decide +kernel, split_1_3 (by decide +kernel)⟩⟩⟩

theorem witness_DebugPort_29 : ∃ (s : State) (t : Nat) (x : Nat) (y : Nat) (v : MemView) (v1 : MemView) (r : Dma) (d1 : Dev), (s.dev.dbg.bap = .now) ∧ (s.dev.on R.DBG.BAP_CTRL_SPACE = true) ∧ (s.dev.bapDvaCheck = 0) ∧ ((r = .xlate x y ∨ r = .fence x ∨ r = .poison x ∨ r = .hostError)) ∧ ((if s.dev.on R.DBG.BAP_CTRL_WRITE then (s.dev.toTime t).dmaWrite (s.dev.rd R.DBG.BAP_CTRL_CTX) (s.dev.rd R.DBG.BAP_ADDR) (leBytes (s.dev.rd R.DBG.BAP_DATA) s.dev.bapLen) v
      else (s.dev.toTime t).dmaRead 1 (s.dev.rd R.DBG.BAP_CTRL_CTX) (s.dev.rd R.DBG.BAP_ADDR) s.dev.bapLen v) = (r, v1, d1)) := ⟨(st { ((((holding []).wr R.DBG.BAP_CTRL_SPACE 1).wr R.DBG.BAP_CTRL_LEN 4).wrAt R.DMMU.CTX_ROOT_VALID 0 0 0) with dbg := { ((((holding []).wr R.DBG.BAP_CTRL_SPACE 1).wr R.DBG.BAP_CTRL_LEN 4).wrAt R.DMMU.CTX_ROOT_VALID 0 0 0).dbg with bap := .now } }), (5), (5), (0), (default), (_), (.xlate 5 0), (_), ⟨by decide +kernel, by decide +kernel, by decide +kernel, by decide +kernel, split_1_3 (by decide +kernel)⟩⟩

theorem witness_DebugPort_29_1 : ∃ (s : State) (t : Nat) (x : Nat) (y : Nat) (v : MemView) (v1 : MemView) (r : Dma) (d1 : Dev), (s.dev.dbg.bap = .now) ∧ (s.dev.on R.DBG.BAP_CTRL_SPACE = true) ∧ (s.dev.bapDvaCheck = 0) ∧ ((r = .xlate x y ∨ r = .fence x ∨ r = .poison x ∨ r = .hostError)) ∧ ((if s.dev.on R.DBG.BAP_CTRL_WRITE then (s.dev.toTime t).dmaWrite (s.dev.rd R.DBG.BAP_CTRL_CTX) (s.dev.rd R.DBG.BAP_ADDR) (leBytes (s.dev.rd R.DBG.BAP_DATA) s.dev.bapLen) v
      else (s.dev.toTime t).dmaRead 1 (s.dev.rd R.DBG.BAP_CTRL_CTX) (s.dev.rd R.DBG.BAP_ADDR) s.dev.bapLen v) = (r, v1, d1)) := ⟨(st { ((((((holding []).wr R.DBG.BAP_CTRL_SPACE 1).wr R.DBG.BAP_CTRL_LEN 4).wr R.DBG.BAP_CTRL_WRITE 1).wr R.DBG.BAP_DATA 0x4030201).wrAt R.DMMU.CTX_ROOT_VALID 0 0 0) with dbg := { ((((((holding []).wr R.DBG.BAP_CTRL_SPACE 1).wr R.DBG.BAP_CTRL_LEN 4).wr R.DBG.BAP_CTRL_WRITE 1).wr R.DBG.BAP_DATA 0x4030201).wrAt R.DMMU.CTX_ROOT_VALID 0 0 0).dbg with bap := .now } }), (5), (5), (0), (default), (_), (.xlate 5 0), (_), ⟨by decide +kernel, by decide +kernel, by decide +kernel, by decide +kernel, split_1_3 (by decide +kernel)⟩⟩

theorem witness_DebugPort_30 : ∃ (s : State) (t : Nat) (v : MemView) (v1 : MemView) (d1 : Dev), (s.dev.dbg.bap = .now) ∧ (s.dev.on R.DBG.BAP_CTRL_SPACE = true) ∧ (s.dev.bapDvaCheck = 0) ∧ ((if s.dev.on R.DBG.BAP_CTRL_WRITE then (s.dev.toTime t).dmaWrite (s.dev.rd R.DBG.BAP_CTRL_CTX) (s.dev.rd R.DBG.BAP_ADDR) (leBytes (s.dev.rd R.DBG.BAP_DATA) s.dev.bapLen) v
      else (s.dev.toTime t).dmaRead 1 (s.dev.rd R.DBG.BAP_CTRL_CTX) (s.dev.rd R.DBG.BAP_ADDR) s.dev.bapLen v) = (.wait, v1, d1)) := ⟨(st { ((({ ((holding []).wrAt R.DMMU.CTX_ROOT_ROOT_TARGET 0 0 0) with host := up.host } : Dev).wr R.DBG.BAP_CTRL_SPACE 1).wr R.DBG.BAP_CTRL_LEN 4) with dbg := { ((({ ((holding []).wrAt R.DMMU.CTX_ROOT_ROOT_TARGET 0 0 0) with host := up.host } : Dev).wr R.DBG.BAP_CTRL_SPACE 1).wr R.DBG.BAP_CTRL_LEN 4).dbg with bap := .now } }), (5), (view [1, 2, 3, 4]), (_), (_), ⟨by decide +kernel, by decide +kernel, by decide +kernel, split_1_3 (by decide +kernel)⟩⟩

theorem witness_DebugPort_31 : ∃ (d : Dev), (d.on R.LOAD.LOAD_STATUS_SECURE = true) := ⟨((up.wr R.LOAD.LOAD_STATUS_SECURE 1)), by decide +kernel⟩

theorem witness_DebugPort_32 : ∃ (d : Dev) (i : Nat), (d.on R.LOAD.LOAD_STATUS_SECURE = false) ∧ (1 ≤ d.bapLen) ∧ (d.bapLen ≤ 64) ∧ (d.rd R.DBG.BAP_ADDR + d.bapLen ≤ 2 ^ 48) ∧ (d.on R.DBG.BAP_CTRL_RESPECT_LOCK = true) ∧ (i < 16) ∧ (d.rdAt R.DBG.LOCK_PROBE_ENABLE 0 i = 1) ∧ (SMap.get d.dbg.lockLanes (d.rdAt R.DBG.LOCK_PROBE_LANE 0 i) % 2 = 1) ∧ (d.rdAt R.DBG.LOCK_PROBE_CTX 0 i = d.rd R.DBG.BAP_CTRL_CTX) ∧ (d.rd R.DBG.BAP_ADDR < d.rdAt R.DBG.LOCK_LIMIT 0 i) ∧ (d.rdAt R.DBG.LOCK_BASE 0 i < d.rd R.DBG.BAP_ADDR + d.bapLen) := ⟨({ ((((((holding []).wr R.DBG.BAP_CTRL_SPACE 1).wr R.DBG.BAP_CTRL_LEN 8).wr R.DBG.BAP_CTRL_RESPECT_LOCK 1).wrAt R.DBG.LOCK_LIMIT 0 3 1).wrAt R.DBG.LOCK_PROBE_ENABLE 0 3 1) with dbg := { up.dbg with bap := .now, lockLanes := [(0, 1)] } }), (3), by and_intros <;> decide +kernel⟩

theorem witness_DebugPort_33 : ∃ (d : Dev), (d.on R.LOAD.LOAD_STATUS_SECURE = false) ∧ ((d.bapLen = 0 ∨ 64 < d.bapLen)) := ⟨(up), by and_intros <;> decide +kernel⟩

theorem witness_DebugPort_33_1 : ∃ (d : Dev), (d.on R.LOAD.LOAD_STATUS_SECURE = false) ∧ ((d.bapLen = 0 ∨ 64 < d.bapLen)) := ⟨(up.wr R.DBG.BAP_CTRL_LEN 65), by and_intros <;> decide +kernel⟩

theorem witness_DebugPort_34 : ∃ (d : Dev), (d.on R.LOAD.LOAD_STATUS_SECURE = false) ∧ (1 ≤ d.bapLen) ∧ (d.bapLen ≤ 64) ∧ (d.arrFits d.bapOff d.bapLen = true) ∧ (d.rd R.DBG.BAP_ADDR / 2 ^ 36 = 2 ^ 27) ∧ (d.on R.DBG.BAP_CTRL_WRITE = true) ∧ (d.region d.bapOff = .bank) ∧ ((d.bankOwner (d.bankAt d.bapOff) = 1 ∨ d.bankOwner (d.bankAt d.bapOff) = 0 ∧ d.running = true ∧ d.on R.DBG.BAP_CTRL_MODE = false)) := ⟨(((((holding []).wr R.DBG.BAP_CTRL_LEN 64).wr R.DBG.BAP_CTRL_WRITE 1).wr R.DBG.BAP_ADDR (arrayAt 0x200000000))), by and_intros <;> decide +kernel⟩

theorem witness_DebugPort_35 : ∃ (d : Dev), (d.on R.LOAD.LOAD_STATUS_SECURE = false) ∧ (1 ≤ d.bapLen) ∧ (d.bapLen ≤ 64) ∧ (d.arrFits d.bapOff d.bapLen = true) ∧ (d.rd R.DBG.BAP_ADDR / 2 ^ 36 = 2 ^ 27) ∧ (d.on R.DBG.BAP_CTRL_WRITE = false) := ⟨(((up.wr R.DBG.BAP_CTRL_LEN 4).wr R.DBG.BAP_ADDR (arrayAt 0x200000000))), by and_intros <;> decide +kernel⟩

theorem witness_DebugPort_36 : ∃ (d : Dev), (d.on R.LOAD.LOAD_STATUS_SECURE = false) ∧ (1 ≤ d.bapLen) ∧ (d.bapLen ≤ 64) ∧ (d.arrFits d.bapOff d.bapLen = true) ∧ (d.rd R.DBG.BAP_ADDR / 2 ^ 36 = 2 ^ 27) ∧ (d.on R.DBG.BAP_CTRL_WRITE = true) ∧ (d.region d.bapOff = .shadow) := ⟨(((up.wr R.DBG.BAP_CTRL_LEN 4).wr R.DBG.BAP_CTRL_WRITE 1).wr R.DBG.BAP_ADDR (arrayAt 0x185000000)), by and_intros <;> decide +kernel⟩

theorem witness_DebugPort_38 : ∃ (d : Dev) (r : Nat), (d.bapCheck = r) ∧ (r < 8) := ⟨(((((holding []).wr R.DBG.BAP_CTRL_LEN 64).wr R.DBG.BAP_CTRL_WRITE 1).wr R.DBG.BAP_ADDR (arrayAt 0x200000000))), (2), by and_intros <;> decide +kernel⟩

theorem witness_DebugPort_38_1 : ∃ (d : Dev) (r : Nat), (d.bapCheck = r) ∧ (r < 8) := ⟨(up), (5), by and_intros <;> decide +kernel⟩

theorem witness_DebugPort_39 : ∃ (s : State) (w : Nat), (s.dev.reaches 0x17 = true) ∧ (fieldAt w 1 2 = 3) := ⟨(st up), (7), by and_intros <;> decide +kernel⟩

theorem witness_DebugPort_40 : ∃ (s : State) (w : Nat), (s.dev.reaches 0x17 = true) ∧ (fieldAt w 1 2 ≠ 3) ∧ (w % 2 = 1) ∧ (s.dev.on R.WATCH.WATCH_CTRL_ENABLE = false) ∧ (s.dev.on R.LOAD.LOAD_STATUS_SECURE = true) := ⟨(st (up.wr R.LOAD.LOAD_STATUS_SECURE 1)), (1), by and_intros <;> decide +kernel⟩

theorem witness_DebugPort_41 : ∃ (s : State) (w : Nat) (t : Nat) (d1 : Dev), (s.dev.reaches 0x17 = true) ∧ (fieldAt w 1 2 ≠ 3) ∧ ((w % 2 = 0 ∨ s.dev.on R.WATCH.WATCH_CTRL_ENABLE = true ∨ s.dev.on R.LOAD.LOAD_STATUS_SECURE = false)) ∧ (d1 = (((s.dev.atWrite t).wr R.WATCH.WATCH_CTRL_ENABLE w).wr R.WATCH.WATCH_CTRL_ACTION (w / 2)).wr R.WATCH.WATCH_CTRL_REARM (w / 8)) := ⟨(st up), (0), (5), (_), ⟨by decide +kernel, by decide +kernel, by decide +kernel, rfl⟩⟩

theorem witness_DebugPort_41_1 : ∃ (s : State) (w : Nat) (t : Nat) (d1 : Dev), (s.dev.reaches 0x17 = true) ∧ (fieldAt w 1 2 ≠ 3) ∧ ((w % 2 = 0 ∨ s.dev.on R.WATCH.WATCH_CTRL_ENABLE = true ∨ s.dev.on R.LOAD.LOAD_STATUS_SECURE = false)) ∧ (d1 = (((s.dev.atWrite t).wr R.WATCH.WATCH_CTRL_ENABLE w).wr R.WATCH.WATCH_CTRL_ACTION (w / 2)).wr R.WATCH.WATCH_CTRL_REARM (w / 8)) := ⟨(st up), (1), (5), (_), ⟨by decide +kernel, by decide +kernel, by decide +kernel, rfl⟩⟩

theorem witness_DebugPort_41_2 : ∃ (s : State) (w : Nat) (t : Nat) (d1 : Dev), (s.dev.reaches 0x17 = true) ∧ (fieldAt w 1 2 ≠ 3) ∧ ((w % 2 = 0 ∨ s.dev.on R.WATCH.WATCH_CTRL_ENABLE = true ∨ s.dev.on R.LOAD.LOAD_STATUS_SECURE = false)) ∧ (d1 = (((s.dev.atWrite t).wr R.WATCH.WATCH_CTRL_ENABLE w).wr R.WATCH.WATCH_CTRL_ACTION (w / 2)).wr R.WATCH.WATCH_CTRL_REARM (w / 8)) := ⟨(st running), (3), (5), (_), ⟨by decide +kernel, by decide +kernel, by decide +kernel, rfl⟩⟩

theorem witness_DebugPort_41_3 : ∃ (s : State) (w : Nat) (t : Nat) (d1 : Dev), (s.dev.reaches 0x17 = true) ∧ (fieldAt w 1 2 ≠ 3) ∧ ((w % 2 = 0 ∨ s.dev.on R.WATCH.WATCH_CTRL_ENABLE = true ∨ s.dev.on R.LOAD.LOAD_STATUS_SECURE = false)) ∧ (d1 = (((s.dev.atWrite t).wr R.WATCH.WATCH_CTRL_ENABLE w).wr R.WATCH.WATCH_CTRL_ACTION (w / 2)).wr R.WATCH.WATCH_CTRL_REARM (w / 8)) := ⟨(st (up.wr R.WATCH.WATCH_CTRL_ENABLE 1)), (5), (5), (_), ⟨by decide +kernel, by decide +kernel, by decide +kernel, rfl⟩⟩

theorem witness_TapInstructions_0 : ∃ (d : Dev) (ir : Nat), (d.on R.DBG.DBG_STATUS_ATTACHED = (d.on R.DBG.DBG_CTRL_ATTACH || ir == 0x20)) := ⟨(up), (2), by decide +kernel⟩

theorem witness_TapInstructions_0_1 : ∃ (d : Dev) (ir : Nat), (d.on R.DBG.DBG_STATUS_ATTACHED = (d.on R.DBG.DBG_CTRL_ATTACH || ir == 0x20)) := ⟨((up.wr R.DBG.DBG_STATUS_ATTACHED 1)), (0x20), by decide +kernel⟩

theorem witness_TapInstructions_1 : ∃ (d : Dev) (ir : Nat), (d.on R.DBG.DBG_STATUS_ATTACHED ≠ (d.on R.DBG.DBG_CTRL_ATTACH || ir == 0x20)) ∧ ((ir = 0x20 ∨ d.on R.POWER.PWR_STATUS_EMULATED = false)) := ⟨(up), (0x20), by and_intros <;> decide +kernel⟩

theorem witness_TapInstructions_1_1 : ∃ (d : Dev) (ir : Nat), (d.on R.DBG.DBG_STATUS_ATTACHED ≠ (d.on R.DBG.DBG_CTRL_ATTACH || ir == 0x20)) ∧ ((ir = 0x20 ∨ d.on R.POWER.PWR_STATUS_EMULATED = false)) := ⟨((up.wr R.DBG.DBG_STATUS_ATTACHED 1)), (2), by and_intros <;> decide +kernel⟩

theorem witness_TapInstructions_6 : ∃ (s : State) (t : Nat) (d1 : Dev), (d1 = (s.dev.toTime t).tapInstruction 1) := ⟨(st up), (5), (_), rfl⟩

theorem witness_TapInstructions_7 : ∃ (p : Nat) (g : Nat), (p < 320) ∧ (g < 4) := ⟨(319), (3), by and_intros <;> decide +kernel⟩

theorem witness_TapInstructions_8 : ∃ (s : State), (s.dev.running = true) := ⟨(st running), by decide +kernel⟩

theorem witness_TapInstructions_9 : ∃ (s : State) (t : Nat) (d1 : Dev), (s.dev.running = false) ∧ (d1 = (s.dev.toTime t).tapInstruction 0) := ⟨(st up), (5), (_), ⟨by decide +kernel, rfl⟩⟩

theorem witness_TapInstructions_10 : ∃ (s : State), (s.dev.dbg.tapIr ≠ 0x20) := ⟨(st up), by decide +kernel⟩

theorem witness_TapInstructions_11 : ∃ (s : State) (bits : Nat) (t : Nat) (d1 : Dev), (s.dev.dbg.tapIr = 0x20) ∧ ((bits % 4 = 0 ∨ s.dev.dbg.tapStatus = 1)) ∧ (d1 = (s.dev.toTime t).emit (.tdo 60 (s.dev.dbg.tapStatus + s.dev.dbg.tapData * 2 ^ 26))) := ⟨(st { up with dbg := { up.dbg with tapIr := 0x20 } }), (4), (5), (_), ⟨by decide +kernel, by decide +kernel, rfl⟩⟩

theorem witness_TapInstructions_11_1 : ∃ (s : State) (bits : Nat) (t : Nat) (d1 : Dev), (s.dev.dbg.tapIr = 0x20) ∧ ((bits % 4 = 0 ∨ s.dev.dbg.tapStatus = 1)) ∧ (d1 = (s.dev.toTime t).emit (.tdo 60 (s.dev.dbg.tapStatus + s.dev.dbg.tapData * 2 ^ 26))) := ⟨(st { up with dbg := { up.dbg with tapIr := 0x20, tapStatus := 1 } }), (1), (5), (_), ⟨by decide +kernel, by decide +kernel, rfl⟩⟩

theorem witness_TapInstructions_12 : ∃ (s : State) (bits : Nat) (t : Nat) (d1 : Dev), (s.dev.dbg.tapIr = 0x20) ∧ (bits % 4 ≠ 0) ∧ (s.dev.dbg.tapStatus ≠ 1) ∧ ((bits % 4 = 3 ∨ s.dev.mg.inReset = true ∨ s.dev.mg.bootFailed = true)) ∧ (d1 = (s.dev.toTime t).emit (.tdo 60 (s.dev.dbg.tapStatus + s.dev.dbg.tapData * 2 ^ 26))) := ⟨(st { up with dbg := { up.dbg with tapIr := 0x20 } }), (3), (5), (_), ⟨by decide +kernel, by decide +kernel, by decide +kernel, by decide +kernel, rfl⟩⟩

theorem witness_TapInstructions_12_1 : ∃ (s : State) (bits : Nat) (t : Nat) (d1 : Dev), (s.dev.dbg.tapIr = 0x20) ∧ (bits % 4 ≠ 0) ∧ (s.dev.dbg.tapStatus ≠ 1) ∧ ((bits % 4 = 3 ∨ s.dev.mg.inReset = true ∨ s.dev.mg.bootFailed = true)) ∧ (d1 = (s.dev.toTime t).emit (.tdo 60 (s.dev.dbg.tapStatus + s.dev.dbg.tapData * 2 ^ 26))) := ⟨(st { { up with dbg := { up.dbg with tapIr := 0x20 } } with mg := { up.mg with inReset := true } }), (1), (5), (_), ⟨by decide +kernel, by decide +kernel, by decide +kernel, by decide +kernel, rfl⟩⟩

theorem witness_TapInstructions_13 : ∃ (s : State) (bits : Nat) (t : Nat) (d1 : Dev) (d2 : Dev), (s.dev.dbg.tapIr = 0x20) ∧ (bits % 4 = 1) ∧ (s.dev.dbg.tapStatus ≠ 1) ∧ (s.dev.mg.inReset = false) ∧ (s.dev.mg.bootFailed = false) ∧ (d1 = (s.dev.toTime t).emit (.tdo 60 (s.dev.dbg.tapStatus + s.dev.dbg.tapData * 2 ^ 26))) ∧ (d2 = d1.tapRead (fieldAt bits 2 24 * 4)) := ⟨(st { up with dbg := { up.dbg with tapIr := 0x20 } }), (1 + 4 * 4), (5), (_), (_), ⟨by decide +kernel, by decide +kernel, by decide +kernel, ⟨by decide +kernel, by decide +kernel, rfl, rfl⟩⟩⟩

theorem witness_TapInstructions_14 : ∃ (d : Dev) (off : Nat), ((d.pageRows (off % 0x2000000 / 0x1000)).isSome = true) ∧ (pageDomain (off % 0x2000000 / 0x1000) = none) := ⟨(up), (0x10), by and_intros <;> decide +kernel⟩

theorem witness_TapInstructions_14_1 : ∃ (d : Dev) (off : Nat), ((d.pageRows (off % 0x2000000 / 0x1000)).isSome = true) ∧ (pageDomain (off % 0x2000000 / 0x1000) = none) := ⟨(up), (0x2000), by and_intros <;> decide +kernel⟩

theorem witness_TapInstructions_15 : ∃ (d : Dev) (off : Nat) (i : Nat), ((d.pageRows (off % 0x2000000 / 0x1000)).isSome = true) ∧ (0x40 ≤ off % 0x2000000 % 0x1000) ∧ (pageDomain (off % 0x2000000 / 0x1000) = some i) := ⟨(up), (0x400040), (0), by and_intros <;> decide +kernel⟩

theorem witness_TapInstructions_15_1 : ∃ (d : Dev) (off : Nat) (i : Nat), ((d.pageRows (off % 0x2000000 / 0x1000)).isSome = true) ∧ (0x40 ≤ off % 0x2000000 % 0x1000) ∧ (pageDomain (off % 0x2000000 / 0x1000) = some i) := ⟨((up.wrAt R.POWER.DOM_STATUS_STATE 0 0 0)), (0x400040), (0), by and_intros <;> decide +kernel⟩

theorem witness_TapInstructions_15_2 : ∃ (d : Dev) (off : Nat) (i : Nat), ((d.pageRows (off % 0x2000000 / 0x1000)).isSome = true) ∧ (0x40 ≤ off % 0x2000000 % 0x1000) ∧ (pageDomain (off % 0x2000000 / 0x1000) = some i) := ⟨((up.wrAt R.POWER.DOM_STATUS_STATE 0 0 1)), (0x400040), (0), by and_intros <;> decide +kernel⟩

theorem witness_TapInstructions_16 : ∃ (s : State) (bits : Nat) (t : Nat) (d1 : Dev) (d2 : Dev), (s.dev.dbg.tapIr = 0x20) ∧ (bits % 4 = 2) ∧ (s.dev.dbg.tapStatus ≠ 1) ∧ (s.dev.mg.inReset = false) ∧ (s.dev.mg.bootFailed = false) ∧ (d1 = (s.dev.toTime t).emit (.tdo 60 (s.dev.dbg.tapStatus + s.dev.dbg.tapData * 2 ^ 26))) ∧ (d2 = ({ d1 with dbg := { d1.dbg with tapStatus := 0 } } : Dev).pf0Write true (fieldAt bits 2 24 * 4) (fieldAt bits 26 32) t s.envelope) := ⟨(st { up with dbg := { up.dbg with tapIr := 0x20 } }), (2 + 4 * 4 + 7 * 2 ^ 26), (5), (_), (_), ⟨by decide +kernel, by decide +kernel, by decide +kernel, ⟨by decide +kernel, by decide +kernel, rfl, rfl⟩⟩⟩

theorem witness_TraceUnit_3 : ∃ (s : State) (w : Nat) (t : Nat) (d1 : Dev), (s.dev.reaches 0x211 = true) ∧ (s.dev.on R.TRACE.TRACE_CTRL_ENABLE = true) ∧ (w % 2 = 0) ∧ (s.dev.trc.machine = 2) ∧ (s.dev.trc.pendingReq = 0) ∧ (d1 = (((s.dev.atWrite t).traceFlush).wr R.TRACE.TRACE_CTRL_ENABLE 0).wr R.TRACE.TRACE_STATUS_RUNNING 0) ∧ (d1.trc.buf = []) := ⟨(st { (up.wr R.TRACE.TRACE_CTRL_ENABLE 1) with trc := { up.trc with machine := 2, buf := [] } }), (0), (5), (_), ⟨by decide +kernel, by decide +kernel, by decide +kernel, ⟨by decide +kernel, by decide +kernel, rfl, by decide +kernel⟩⟩⟩

theorem witness_TraceUnit_2 : ∃ (s : State) (w : Nat) (t : Nat) (d1 : Dev), (s.dev.reaches 0x211 = true) ∧ (s.dev.on R.TRACE.TRACE_CTRL_ENABLE = true) ∧ (w % 2 = 0) ∧ (s.dev.trc.machine = 2) ∧ (d1 = (((s.dev.atWrite t).traceFlush).wr R.TRACE.TRACE_CTRL_ENABLE 0).wr R.TRACE.TRACE_STATUS_RUNNING 0) ∧ (d1.trc.buf ≠ []) := ⟨(st { (up.wr R.TRACE.TRACE_CTRL_ENABLE 1) with trc := { up.trc with machine := 2, buf := List.replicate 64 7 } }), (0), (5), (_), ⟨by decide +kernel, by decide +kernel, by decide +kernel, ⟨by decide +kernel, rfl, by decide +kernel⟩⟩⟩

theorem witness_TraceUnit_4 : ∃ (s : State) (w : Nat) (t : Nat) (d1 : Dev), (s.dev.reaches 0x211 = true) ∧ (s.dev.on R.TRACE.TRACE_CTRL_ENABLE = true) ∧ (w % 2 = 0) ∧ (s.dev.trc.machine ≠ 2) ∧ (d1 = (((s.dev.atWrite t).traceFlush).wr R.TRACE.TRACE_CTRL_ENABLE 0).wr R.TRACE.TRACE_STATUS_RUNNING 0) := ⟨(st { (up.wr R.TRACE.TRACE_CTRL_ENABLE 1) with trc := { up.trc with machine := 3, buf := [] } }), (0), (5), (_), ⟨by decide +kernel, by decide +kernel, by decide +kernel, by decide +kernel, rfl⟩⟩

theorem witness_TraceUnit_6 : ∃ (s : State) (w : Nat), (s.dev.reaches 0x211 = true) ∧ (s.dev.on R.TRACE.TRACE_CTRL_ENABLE = true) ∧ (w % 2 = 1) ∧ (bitAt w 9 = 0) ∧ (bitAt w 10 = 0) := ⟨(st { (up.wr R.TRACE.TRACE_CTRL_ENABLE 1) with trc := { up.trc with machine := 2, buf := [] } }), (1), by and_intros <;> decide +kernel⟩

theorem witness_TraceUnit_7 : ∃ (s : State) (w : Nat), (s.dev.reaches 0x211 = true) ∧ (s.dev.on R.TRACE.TRACE_CTRL_ENABLE = true) ∧ (w % 2 = 1) ∧ (bitAt w 10 = 0) := ⟨(st { (up.wr R.TRACE.TRACE_CTRL_ENABLE 1) with trc := { up.trc with machine := 2, buf := [] } }), (1), by and_intros <;> decide +kernel⟩

theorem witness_TraceUnit_8 : ∃ (s : State) (w : Nat), (s.dev.reaches 0x211 = true) ∧ (s.dev.on R.TRACE.TRACE_CTRL_ENABLE = true) ∧ (w % 2 = 1) ∧ (bitAt w 9 = 0) ∧ (s.dev.on R.TRACE.TRACE_STATUS_SINK_STOPPED = false) := ⟨(st { (up.wr R.TRACE.TRACE_CTRL_ENABLE 1) with trc := { up.trc with machine := 2, buf := [] } }), (1), by and_intros <;> decide +kernel⟩

theorem witness_TraceUnit_9 : ∃ (s : State) (w : Nat) (t : Nat) (d1 : Dev), (s.dev.reaches 0x211 = true) ∧ (s.dev.on R.TRACE.TRACE_CTRL_ENABLE = true) ∧ (w % 2 = 1) ∧ (bitAt w 9 = 0) ∧ (s.dev.on R.TRACE.TRACE_STATUS_SINK_STOPPED = true) ∧ (d1 = (((s.dev.atWrite t).wr R.TRACE.TRACE_STATUS_SINK_STOPPED 0).wr R.TRACE.TRACE_STATUS_STOP_REASON 0).startSink) := ⟨(st { ((up.wr R.TRACE.TRACE_CTRL_ENABLE 1).wr R.TRACE.TRACE_STATUS_SINK_STOPPED 1) with trc := { up.trc with machine := 2, buf := [] } }), (1), (5), (_), ⟨by decide +kernel, by decide +kernel, by decide +kernel, ⟨by decide +kernel, by decide +kernel, rfl⟩⟩⟩

theorem witness_TraceUnit_10 : ∃ (s : State) (w : Nat), (s.dev.reaches 0x211 = true) ∧ (s.dev.on R.TRACE.TRACE_CTRL_ENABLE = false) ∧ ((fieldAt w 4 2 = 3 ∨ fieldAt w 11 2 = 3 ∨ fieldAt w 16 16 = 0)) := ⟨(st up), (0x31), by and_intros <;> decide +kernel⟩

theorem witness_TraceUnit_10_1 : ∃ (s : State) (w : Nat), (s.dev.reaches 0x211 = true) ∧ (s.dev.on R.TRACE.TRACE_CTRL_ENABLE = false) ∧ ((fieldAt w 4 2 = 3 ∨ fieldAt w 11 2 = 3 ∨ fieldAt w 16 16 = 0)) := ⟨(st up), (0x10000 + 0x1800), by and_intros <;> decide +kernel⟩

theorem witness_TraceUnit_10_2 : ∃ (s : State) (w : Nat), (s.dev.reaches 0x211 = true) ∧ (s.dev.on R.TRACE.TRACE_CTRL_ENABLE = false) ∧ ((fieldAt w 4 2 = 3 ∨ fieldAt w 11 2 = 3 ∨ fieldAt w 16 16 = 0)) := ⟨(st up), (1), by and_intros <;> decide +kernel⟩

theorem witness_TraceUnit_11 : ∃ (s : State) (w : Nat), (s.dev.reaches 0x211 = true) ∧ (s.dev.on R.TRACE.TRACE_CTRL_ENABLE = false) ∧ (fieldAt w 4 2 ≠ 3) ∧ (fieldAt w 11 2 ≠ 3) ∧ (fieldAt w 16 16 ≠ 0) ∧ (w % 2 = 0) ∧ (bitAt w 9 = 0) ∧ (bitAt w 10 = 0) := ⟨(st up), (0x10010), by and_intros <;> decide +kernel⟩

theorem witness_TraceUnit_12 : ∃ (s : State) (w : Nat) (t : Nat) (d1 : Dev), (s.dev.reaches 0x211 = true) ∧ (s.dev.on R.TRACE.TRACE_CTRL_ENABLE = false) ∧ (fieldAt w 4 2 ≠ 3) ∧ (fieldAt w 11 2 ≠ 3) ∧ (fieldAt w 16 16 ≠ 0) ∧ (w % 2 = 0) ∧ (d1 = (if bitAt w 9 = 1 then ((s.dev.atWrite t).traceCtrlFields w).traceFlush else (s.dev.atWrite t).traceCtrlFields w)) := ⟨(st up), (0x10600), (5), (_), ⟨by decide +kernel, by decide +kernel, by decide +kernel, ⟨by decide +kernel, by decide +kernel, by decide +kernel, rfl⟩⟩⟩

theorem witness_TraceUnit_13 : ∃ (s : State) (w : Nat) (t : Nat) (d1 : Dev) (d2 : Dev), (s.dev.reaches 0x211 = true) ∧ (s.dev.on R.TRACE.TRACE_CTRL_ENABLE = false) ∧ (fieldAt w 4 2 ≠ 3) ∧ (fieldAt w 11 2 ≠ 3) ∧ (fieldAt w 16 16 ≠ 0) ∧ (w % 2 = 1) ∧ (bitAt w 9 = 0) ∧ (bitAt w 10 = 0) ∧ (d1 = ((s.dev.atWrite t).traceCtrlFields w).wr R.TRACE.TRACE_CTRL_ENABLE 1) ∧ (d2 = (({ d1 with trc := { d1.trc with machine := 2, pendingReq := 0 } } : Dev).wr R.TRACE.TRACE_STATUS_RUNNING 1).wr R.TRACE.TRACE_STATUS_POWER_STOPPED 0) := ⟨(st up), (0x10001), (5), (_), (_), ⟨by decide +kernel, by decide +kernel, by decide +kernel, ⟨by decide +kernel, by decide +kernel, by decide +kernel, ⟨by decide +kernel, by decide +kernel, rfl, rfl⟩⟩⟩⟩

theorem witness_TraceUnit_13_1 : ∃ (s : State) (w : Nat) (t : Nat) (d1 : Dev) (d2 : Dev), (s.dev.reaches 0x211 = true) ∧ (s.dev.on R.TRACE.TRACE_CTRL_ENABLE = false) ∧ (fieldAt w 4 2 ≠ 3) ∧ (fieldAt w 11 2 ≠ 3) ∧ (fieldAt w 16 16 ≠ 0) ∧ (w % 2 = 1) ∧ (bitAt w 9 = 0) ∧ (bitAt w 10 = 0) ∧ (d1 = ((s.dev.atWrite t).traceCtrlFields w).wr R.TRACE.TRACE_CTRL_ENABLE 1) ∧ (d2 = (({ d1 with trc := { d1.trc with machine := 2, pendingReq := 0 } } : Dev).wr R.TRACE.TRACE_STATUS_RUNNING 1).wr R.TRACE.TRACE_STATUS_POWER_STOPPED 0) := ⟨(st { up with trc := { up.trc with machine := 3, buf := [] } }), (0x10001), (5), (_), (_), ⟨by decide +kernel, by decide +kernel, by decide +kernel, ⟨by decide +kernel, by decide +kernel, by decide +kernel, ⟨by decide +kernel, by decide +kernel, rfl, rfl⟩⟩⟩⟩

theorem witness_TraceUnit_15 : ∃ (s : State), ((s.dev.trc.buf.length < 64 ∧ s.dev.trc.wbWaits = false ∨ s.dev.on R.TRACE.TRACE_STATUS_SINK_STOPPED = true)) := ⟨(st up), by decide +kernel⟩

theorem witness_TraceUnit_15_1 : ∃ (s : State), ((s.dev.trc.buf.length < 64 ∧ s.dev.trc.wbWaits = false ∨ s.dev.on R.TRACE.TRACE_STATUS_SINK_STOPPED = true)) := ⟨(st { (((up.wr R.TRACE.TRACE_CTRL_ENABLE 1).wr R.TRACE.TRACE_STATUS_SINK_STOPPED 1)) with trc := { up.trc with machine := 2, buf := List.replicate 64 7 } }), by decide +kernel⟩

theorem witness_TraceUnit_16 : ∃ (s : State), (s.dev.on R.TRACE.TRACE_STATUS_SINK_STOPPED = false) ∧ (s.dev.trc.wbWaits = true) := ⟨(st { (((holding []).wr R.TRACE.TRACE_CTRL_ENABLE 1).wr R.TRACE.RING_CFG_SIZE_LOG2 16) with trc := { up.trc with machine := 2, buf := [], wbWaits := true } }), by and_intros <;> decide +kernel⟩

theorem witness_TraceUnit_17 : ∃ (s : State) (t : Nat) (n : Nat) (d1 : Dev), (64 ≤ s.dev.trc.buf.length) ∧ (s.dev.on R.TRACE.TRACE_STATUS_SINK_STOPPED = false) ∧ (s.dev.trc.wbWaits = false) ∧ (s.dev.rd R.TRACE.TRACE_CTRL_SINK = 2) ∧ (n = 4 * 2 ^ s.dev.rd R.TRACE.TRACE_CTRL_PIN_WIDTH) ∧ (d1 = (s.dev.toTime t).emit (.tracePins n (s.dev.on R.TRACE.TRACE_CTRL_PIN_LVDS) (s.dev.rd R.TRACE.TRACE_CTRL_PIN_DIV)
      ((List.range (8 * (s.dev.trc.buf.take 64).length / n)).map fun i => fieldAt (leNat (s.dev.trc.buf.take 64)) (n * i) n))) := ⟨(st { ((holding []).wr R.TRACE.TRACE_CTRL_SINK 2) with trc := { up.trc with machine := 2, buf := List.replicate 64 7 } }), (5), (_), (_), ⟨by decide +kernel, by decide +kernel, by decide +kernel, ⟨by decide +kernel, rfl, rfl⟩⟩⟩

theorem witness_TraceUnit_17_1 : ∃ (s : State) (t : Nat) (n : Nat) (d1 : Dev), (64 ≤ s.dev.trc.buf.length) ∧ (s.dev.on R.TRACE.TRACE_STATUS_SINK_STOPPED = false) ∧ (s.dev.trc.wbWaits = false) ∧ (s.dev.rd R.TRACE.TRACE_CTRL_SINK = 2) ∧ (n = 4 * 2 ^ s.dev.rd R.TRACE.TRACE_CTRL_PIN_WIDTH) ∧ (d1 = (s.dev.toTime t).emit (.tracePins n (s.dev.on R.TRACE.TRACE_CTRL_PIN_LVDS) (s.dev.rd R.TRACE.TRACE_CTRL_PIN_DIV)
      ((List.range (8 * (s.dev.trc.buf.take 64).length / n)).map fun i => fieldAt (leNat (s.dev.trc.buf.take 64)) (n * i) n))) := ⟨(st { { ((holding []).wr R.TRACE.TRACE_CTRL_SINK 2) with trc := { up.trc with machine := 2, buf := List.replicate 64 7 } } with pins := { up.pins with sleep := true } }), (5), (_), (_), ⟨by decide +kernel, by decide +kernel, by decide +kernel, ⟨by decide +kernel, rfl, rfl⟩⟩⟩

theorem witness_TraceUnit_18 : ∃ (s : State), (64 ≤ s.dev.trc.buf.length) ∧ (s.dev.on R.TRACE.TRACE_STATUS_SINK_STOPPED = false) ∧ (s.dev.trc.wbWaits = false) ∧ (s.dev.rd R.TRACE.TRACE_CTRL_SINK ≠ 1) ∧ (s.dev.rd R.TRACE.TRACE_CTRL_SINK ≠ 2) ∧ (s.dev.ringFull = true) := ⟨(st { ((((holding []).wr R.TRACE.TRACE_CTRL_ENABLE 1).wr R.TRACE.RING_CFG_SIZE_LOG2 16).wr R.TRACE.WR (2 ^ 16)) with trc := { up.trc with machine := 2, buf := List.replicate 64 7 } }), by and_intros <;> decide +kernel⟩

theorem witness_TraceUnit_19 : ∃ (s : State) (t : Nat) (a : Nat) (c : Nat) (v : MemView) (v1 : MemView) (bs : Bytes) (d1 : Dev) (d2 : Dev), (64 ≤ s.dev.trc.buf.length) ∧ (s.dev.on R.TRACE.TRACE_STATUS_SINK_STOPPED = false) ∧ (s.dev.trc.wbWaits = false) ∧ (s.dev.rd R.TRACE.TRACE_CTRL_SINK = 1) ∧ (s.dev.ringFull = true) ∧ (c = s.dev.rd R.TRACE.RING_CFG_RING_CTX) ∧ (a = s.dev.rd R.TRACE.RD_ADDR) ∧ ((s.dev.toTime t).dmaRead 4 c a 8 v = (.done bs, v1, d1)) ∧ (d2 = d1.wr R.TRACE.RD (leNat bs)) := ⟨(st { (((((holding []).wr R.TRACE.TRACE_CTRL_ENABLE 1).wr R.TRACE.RING_CFG_SIZE_LOG2 16).wr R.TRACE.WR (2 ^ 16)).wr R.TRACE.TRACE_CTRL_SINK 1) with trc := { up.trc with machine := 2, buf := List.replicate 64 7 } }), (5), (0), (0), (view [1, 0, 0, 0, 0, 0, 0, 0]), (_), ([1, 0, 0, 0, 0, 0, 0, 0]), (_), (_), ⟨by decide +kernel, by decide +kernel, by decide +kernel, ⟨by decide +kernel, by decide +kernel, by decide +kernel, ⟨by decide +kernel, split_1_3 (by decide +kernel), rfl⟩⟩⟩⟩

theorem witness_TraceUnit_20 : ∃ (s : State) (t : Nat) (a : Nat) (c : Nat) (v : MemView) (v1 : MemView) (bs : Bytes) (d1 : Dev), (64 ≤ s.dev.trc.buf.length) ∧ (s.dev.on R.TRACE.TRACE_STATUS_SINK_STOPPED = false) ∧ (s.dev.trc.wbWaits = false) ∧ (s.dev.rd R.TRACE.TRACE_CTRL_SINK ≠ 2) ∧ (s.dev.ringFull = false) ∧ (c = s.dev.rd R.TRACE.RING_CFG_RING_CTX) ∧ (a = s.dev.rd R.TRACE.RING_BASE + s.dev.rd R.TRACE.WR % 2 ^ s.dev.rd R.TRACE.RING_CFG_SIZE_LOG2) ∧ ((s.dev.toTime t).dmaWrite c a (s.dev.trc.buf.take 64) v = (.done bs, v1, d1)) := ⟨(st { (((holding []).wr R.TRACE.TRACE_CTRL_ENABLE 1).wr R.TRACE.RING_CFG_SIZE_LOG2 16) with trc := { up.trc with machine := 2, buf := List.replicate 64 7 } }), (5), (0), (0), (view (List.replicate 64 0)), (_), ([]), (_), ⟨by decide +kernel, by decide +kernel, by decide +kernel, ⟨by decide +kernel, by decide +kernel, by decide +kernel, by decide +kernel, split_1_3 (by decide +kernel)⟩⟩⟩

theorem witness_TraceUnit_21 : ∃ (s : State) (t : Nat) (a : Nat) (c : Nat) (v : MemView) (v1 : MemView) (d1 : Dev), (64 ≤ s.dev.trc.buf.length) ∧ (s.dev.on R.TRACE.TRACE_STATUS_SINK_STOPPED = false) ∧ (s.dev.trc.wbWaits = false) ∧ (s.dev.rd R.TRACE.TRACE_CTRL_SINK ≠ 2) ∧ (s.dev.ringFull = false) ∧ (c = s.dev.rd R.TRACE.RING_CFG_RING_CTX) ∧ (a = s.dev.rd R.TRACE.RING_BASE + s.dev.rd R.TRACE.WR % 2 ^ s.dev.rd R.TRACE.RING_CFG_SIZE_LOG2) ∧ ((s.dev.toTime t).dmaWrite c a (s.dev.trc.buf.take 64) v = (.wait, v1, d1)) := ⟨(st { ((({ ((holding []).wrAt R.DMMU.CTX_ROOT_ROOT_TARGET 0 0 0) with host := up.host } : Dev).wr R.TRACE.TRACE_CTRL_ENABLE 1).wr R.TRACE.RING_CFG_SIZE_LOG2 16) with trc := { up.trc with machine := 2, buf := List.replicate 64 7 } }), (5), (0), (0), (view (List.replicate 64 0)), (_), (_), ⟨by decide +kernel, by decide +kernel, by decide +kernel, ⟨by decide +kernel, by decide +kernel, by decide +kernel, by decide +kernel, split_1_3 (by decide +kernel)⟩⟩⟩

theorem witness_TraceUnit_22 : ∃ (s : State) (t : Nat) (a : Nat) (c : Nat) (reason : Nat) (x : Nat) (y : Nat) (v : MemView) (v1 : MemView) (r : Dma) (d1 : Dev), (64 ≤ s.dev.trc.buf.length) ∧ (s.dev.on R.TRACE.TRACE_STATUS_SINK_STOPPED = false) ∧ (s.dev.trc.wbWaits = false) ∧ (s.dev.rd R.TRACE.TRACE_CTRL_SINK ≠ 2) ∧ (s.dev.ringFull = false) ∧ (c = s.dev.rd R.TRACE.RING_CFG_RING_CTX) ∧ (a = s.dev.rd R.TRACE.RING_BASE + s.dev.rd R.TRACE.WR % 2 ^ s.dev.rd R.TRACE.RING_CFG_SIZE_LOG2) ∧ ((s.dev.toTime t).dmaWrite c a (s.dev.trc.buf.take 64) v = (r, v1, d1)) ∧ ((r = .xlate x y ∧ reason = 1 ∨ r = .fence x ∧ reason = 2 ∨ r = .poison x ∧ reason = 3 ∨ r = .hostError ∧ reason = 4)) := ⟨(st { (((((holding []).wr R.TRACE.TRACE_CTRL_ENABLE 1).wr R.TRACE.RING_CFG_SIZE_LOG2 16).wrAt R.DMMU.CTX_ROOT_VALID 0 0 0)) with trc := { up.trc with machine := 2, buf := List.replicate 64 7 } }), (5), (0), (0), (1), (5), (0), (default), (_), (.xlate 5 0), (_), ⟨by decide +kernel, by decide +kernel, by decide +kernel, ⟨by decide +kernel, by decide +kernel, by decide +kernel, ⟨by decide +kernel, split_1_3 (by decide +kernel), by decide +kernel⟩⟩⟩⟩

theorem witness_TraceUnit_24 : ∃ (d : Dev) (v : MemView) (v1 : MemView) (bs : Bytes) (d1 : Dev), (d.dmaWrite (d.rd R.TRACE.RING_CFG_RING_CTX) (d.rd R.TRACE.WB_ADDR) (leBytes (d.rd R.TRACE.WR) 8) v = (.done bs, v1, d1)) := ⟨(((holding []).wr R.TRACE.TRACE_CTRL_ENABLE 1).wr R.TRACE.RING_CFG_SIZE_LOG2 16), (view (List.replicate 64 0)), (_), ([]), (_), split_1_3 (by decide +kernel)⟩

theorem witness_TraceUnit_25 : ∃ (d : Dev) (v : MemView) (v1 : MemView) (d1 : Dev), (d.dmaWrite (d.rd R.TRACE.RING_CFG_RING_CTX) (d.rd R.TRACE.WB_ADDR) (leBytes (d.rd R.TRACE.WR) 8) v = (.wait, v1, d1)) := ⟨((({ ((holding []).wrAt R.DMMU.CTX_ROOT_ROOT_TARGET 0 0 0) with host := up.host } : Dev).wr R.TRACE.TRACE_CTRL_ENABLE 1)), (view (List.replicate 64 0)), (_), (_), split_1_3 (by decide +kernel)⟩

theorem witness_TraceUnit_26 : ∃ (d : Dev) (flushed : Bool) (d1 : Dev), (flushed = (d.trc.wbDue && decide (d.trc.buf.length < 64))) ∧ (d1 = (if flushed then { d with trc := { d.trc with wbDue := false } } else d)) := ⟨({ ((((holding []).wr R.TRACE.TRACE_CTRL_ENABLE 1).wr R.TRACE.RING_CFG_SIZE_LOG2 16).wr R.TRACE.TRACE_CTRL_SINK 1) with trc := { up.trc with machine := 2, buf := [], wbDue := true } }), (_), (_), ⟨rfl, rfl⟩⟩

theorem witness_TraceUnit_26_1 : ∃ (d : Dev) (flushed : Bool) (d1 : Dev), (flushed = (d.trc.wbDue && decide (d.trc.buf.length < 64))) ∧ (d1 = (if flushed then { d with trc := { d.trc with wbDue := false } } else d)) := ⟨({ (((holding []).wr R.TRACE.TRACE_CTRL_ENABLE 1).wr R.TRACE.RING_CFG_SIZE_LOG2 16) with trc := { up.trc with machine := 2, buf := List.replicate 64 7 } }), (_), (_), ⟨rfl, rfl⟩⟩

theorem witness_TraceUnit_27 : ∃ (d : Dev) (d1 : Dev) (n : Nat), (n = d.rd R.TRACE.RING_THRESH) ∧ (d1 = d.wr R.TRACE.WR (d.rd R.TRACE.WR + 64)) := ⟨((((holding []).wr R.TRACE.TRACE_CTRL_ENABLE 1).wr R.TRACE.RING_CFG_SIZE_LOG2 16).wr R.TRACE.RING_THRESH 64), (_), (_), ⟨rfl, rfl⟩⟩

theorem witness_TraceUnit_31 : ∃ (s : State) (w : Nat), (s.dev.reaches 0x212 = true) ∧ (fieldAt w 1 2 = 3) := ⟨(st up), (7), by and_intros <;> decide +kernel⟩

theorem witness_TraceUnit_32 : ∃ (s : State) (w : Nat), (s.dev.reaches 0x212 = true) ∧ (fieldAt w 1 2 ≠ 3) ∧ (s.dev.on R.CNTSNAP.SNAP_STATUS_PENDING = true) := ⟨(st (up.wr R.CNTSNAP.SNAP_STATUS_PENDING 1)), (1), by and_intros <;> decide +kernel⟩

theorem witness_TraceUnit_33 : ∃ (s : State) (w : Nat) (t : Nat) (m : Nat) (d1 : Dev), (s.dev.reaches 0x212 = true) ∧ (m = fieldAt w 1 2) ∧ (m ≠ 3) ∧ (s.dev.on R.CNTSNAP.SNAP_STATUS_PENDING = false) ∧ (d1 = (s.dev.atWrite t).wr R.CNTSNAP.SNAP_CTRL_SNAP_MODE m) := ⟨(st up), (1), (5), (0), (_), ⟨by decide +kernel, by decide +kernel, by decide +kernel, by decide +kernel, rfl⟩⟩

theorem witness_TraceUnit_33_1 : ∃ (s : State) (w : Nat) (t : Nat) (m : Nat) (d1 : Dev), (s.dev.reaches 0x212 = true) ∧ (m = fieldAt w 1 2) ∧ (m ≠ 3) ∧ (s.dev.on R.CNTSNAP.SNAP_STATUS_PENDING = false) ∧ (d1 = (s.dev.atWrite t).wr R.CNTSNAP.SNAP_CTRL_SNAP_MODE m) := ⟨(st running), (1), (5), (0), (_), ⟨by decide +kernel, by decide +kernel, by decide +kernel, by decide +kernel, rfl⟩⟩

theorem witness_TraceUnit_33_2 : ∃ (s : State) (w : Nat) (t : Nat) (m : Nat) (d1 : Dev), (s.dev.reaches 0x212 = true) ∧ (m = fieldAt w 1 2) ∧ (m ≠ 3) ∧ (s.dev.on R.CNTSNAP.SNAP_STATUS_PENDING = false) ∧ (d1 = (s.dev.atWrite t).wr R.CNTSNAP.SNAP_CTRL_SNAP_MODE m) := ⟨(st (up.wr R.TAKE.TAKE_NUMBER 3)), (3), (5), (1), (_), ⟨by decide +kernel, by decide +kernel, by decide +kernel, by decide +kernel, rfl⟩⟩

theorem witness_TraceUnit_34 : ∃ (s : State), (s.dev.dbg.snapPend = none) := ⟨(st up), by decide +kernel⟩

theorem witness_TraceUnit_35 : ∃ (s : State) (t : Nat) (m : Nat) (edge : Nat) (due : Bool) (d1 : Dev) (d2 : Dev), (s.dev.dbg.snapPend = some (m, due)) ∧ (edge = (s.dev.toTime t).stampAt (s.dev.toTime t).tbNow % 2 ^ 64) ∧ ((due = true ∨ m = 2 ∧ (2 ^ 64 + edge - s.dev.rd R.CNTSNAP.SNAP_AT_TIME) % 2 ^ 64 < 2 ^ 63)) ∧ (d1 = ((((s.dev.toTime t).copyCounters.wr R.CNTSNAP.SNAP_TIME (if due then (s.dev.toTime t).stamp else edge)).wr R.CNTSNAP.SNAP_TAKE (s.dev.rd R.TAKE.TAKE_NUMBER - 1)).wr
      R.CNTSNAP.SNAP_STATUS_MID_TAKE 1)) ∧ (d2 = (d1.wr R.CNTSNAP.SNAP_SEQ (s.dev.rd R.CNTSNAP.SNAP_SEQ + 1)).wr R.CNTSNAP.SNAP_STATUS_PENDING 0) := ⟨(st { up with dbg := { up.dbg with snapPend := some (0, true) } }), (5), (0), (_), (true), (_), (_), ⟨by decide +kernel, rfl, by decide +kernel, rfl, rfl⟩⟩

theorem witness_TraceUnit_35_1 : ∃ (s : State) (t : Nat) (m : Nat) (edge : Nat) (due : Bool) (d1 : Dev) (d2 : Dev), (s.dev.dbg.snapPend = some (m, due)) ∧ (edge = (s.dev.toTime t).stampAt (s.dev.toTime t).tbNow % 2 ^ 64) ∧ ((due = true ∨ m = 2 ∧ (2 ^ 64 + edge - s.dev.rd R.CNTSNAP.SNAP_AT_TIME) % 2 ^ 64 < 2 ^ 63)) ∧ (d1 = ((((s.dev.toTime t).copyCounters.wr R.CNTSNAP.SNAP_TIME (if due then (s.dev.toTime t).stamp else edge)).wr R.CNTSNAP.SNAP_TAKE (s.dev.rd R.TAKE.TAKE_NUMBER - 1)).wr
      R.CNTSNAP.SNAP_STATUS_MID_TAKE 1)) ∧ (d2 = (d1.wr R.CNTSNAP.SNAP_SEQ (s.dev.rd R.CNTSNAP.SNAP_SEQ + 1)).wr R.CNTSNAP.SNAP_STATUS_PENDING 0) := ⟨(st { up with dbg := { up.dbg with snapPend := some (2, false) } }), (5), (2), (_), (false), (_), (_), ⟨by decide +kernel, rfl, by decide +kernel, rfl, rfl⟩⟩

theorem witness_TraceUnit_36 : ∃ (s : State) (t : Nat) (m : Nat) (edge : Nat), (s.dev.dbg.snapPend = some (m, false)) ∧ (edge = (s.dev.toTime t).stampAt (s.dev.toTime t).tbNow % 2 ^ 64) ∧ ((m ≠ 2 ∨ 2 ^ 63 ≤ (2 ^ 64 + edge - s.dev.rd R.CNTSNAP.SNAP_AT_TIME) % 2 ^ 64)) := ⟨(st { up with dbg := { up.dbg with snapPend := some (0, false) } }), (5), (0), (_), ⟨by decide +kernel, rfl, by decide +kernel⟩⟩

theorem witness_TraceUnit_36_1 : ∃ (s : State) (t : Nat) (m : Nat) (edge : Nat), (s.dev.dbg.snapPend = some (m, false)) ∧ (edge = (s.dev.toTime t).stampAt (s.dev.toTime t).tbNow % 2 ^ 64) ∧ ((m ≠ 2 ∨ 2 ^ 63 ≤ (2 ^ 64 + edge - s.dev.rd R.CNTSNAP.SNAP_AT_TIME) % 2 ^ 64)) := ⟨(st (({ up with dbg := { up.dbg with snapPend := some (2, false) } } : Dev).wr R.CNTSNAP.SNAP_AT_TIME (2 ^ 63))), (5), (2), (_), ⟨by decide +kernel, rfl, by decide +kernel⟩⟩

theorem witness_TraceUnit_37 : ∃ (d : Dev) (u : Nat) (k : Nat), ((d.regs.map Prod.fst).Pairwise (· < ·)) ∧ (u < 0xB5) ∧ (k < 16) := ⟨(up), (0), (0), by and_intros <;> decide +kernel⟩

theorem witness_MailboxCommands_0 : ∃ (s : State), (s.dev.reaches mboxPage = true) ∧ (s.dev.on R.MBOX.MBOX_STATUS_BUSY = false) := ⟨(st up), by and_intros <;> decide +kernel⟩

theorem witness_MailboxCommands_1 : ∃ (s : State), (s.dev.reaches mboxPage = true) ∧ (s.dev.on R.MBOX.MBOX_STATUS_BUSY = true) := ⟨(st (up.wr R.MBOX.MBOX_STATUS_BUSY 1)), by and_intros <;> decide +kernel⟩

theorem witness_MailboxCommands_2 : ∃ (s : State) (c : Nat) (m : Msg), (c ∈ mailboxCommands) ∧ (s.dev.serving m c = true) ∧ ((m.whole = false ∨ lengthFits c m.length = false)) := ⟨(st ({ (up).wr R.MBOX.MBOX_STATUS_FW_RUNNING 1 with mg := { (up).mg with msgs := [{ item := 0, body := leBytes 1 2 ++ leBytes 1 2 ++ [1, 2, 3, 4] ++ [9], restarted := false }] } })), (1), ({ item := 0, body := leBytes 1 2 ++ leBytes 1 2 ++ [1, 2, 3, 4] ++ [9], restarted := false }), by and_intros <;> decide +kernel⟩

theorem witness_MailboxCommands_2_1 : ∃ (s : State) (c : Nat) (m : Msg), (c ∈ mailboxCommands) ∧ (s.dev.serving m c = true) ∧ ((m.whole = false ∨ lengthFits c m.length = false)) := ⟨(st ({ (up).wr R.MBOX.MBOX_STATUS_FW_RUNNING 1 with mg := { (up).mg with msgs := [{ item := 0, body := leBytes 2 2 ++ leBytes 0 2 ++ [1, 2, 3, 4] ++ [], restarted := false }] } })), (2), ({ item := 0, body := leBytes 2 2 ++ leBytes 0 2 ++ [1, 2, 3, 4] ++ [], restarted := false }), by and_intros <;> decide +kernel⟩

theorem witness_MailboxCommands_2_2 : ∃ (s : State) (c : Nat) (m : Msg), (c ∈ mailboxCommands) ∧ (s.dev.serving m c = true) ∧ ((m.whole = false ∨ lengthFits c m.length = false)) := ⟨(st ({ (up).wr R.MBOX.MBOX_STATUS_FW_RUNNING 1 with mg := { (up).mg with msgs := [{ item := 0, body := leBytes 3 2 ++ leBytes 2 2 ++ [1, 2, 3, 4] ++ [1, 2], restarted := false }] } })), (3), ({ item := 0, body := leBytes 3 2 ++ leBytes 2 2 ++ [1, 2, 3, 4] ++ [1, 2], restarted := false }), by and_intros <;> decide +kernel⟩

theorem witness_MailboxCommands_2_3 : ∃ (s : State) (c : Nat) (m : Msg), (c ∈ mailboxCommands) ∧ (s.dev.serving m c = true) ∧ ((m.whole = false ∨ lengthFits c m.length = false)) := ⟨(st ({ (up).wr R.MBOX.MBOX_STATUS_FW_RUNNING 1 with mg := { (up).mg with msgs := [{ item := 0, body := leBytes 4 2 ++ leBytes 8 2 ++ [1, 2, 3, 4] ++ [1, 1, 1, 1, 1, 1, 1, 1], restarted := false }] } })), (4), ({ item := 0, body := leBytes 4 2 ++ leBytes 8 2 ++ [1, 2, 3, 4] ++ [1, 1, 1, 1, 1, 1, 1, 1], restarted := false }), by and_intros <;> decide +kernel⟩

theorem witness_MailboxCommands_2_4 : ∃ (s : State) (c : Nat) (m : Msg), (c ∈ mailboxCommands) ∧ (s.dev.serving m c = true) ∧ ((m.whole = false ∨ lengthFits c m.length = false)) := ⟨(st ({ (up).wr R.MBOX.MBOX_STATUS_FW_RUNNING 1 with mg := { (up).mg with msgs := [{ item := 0, body := leBytes 16 2 ++ leBytes 0 2 ++ [1, 2, 3, 4] ++ [], restarted := false }] } })), (16), ({ item := 0, body := leBytes 16 2 ++ leBytes 0 2 ++ [1, 2, 3, 4] ++ [], restarted := false }), by and_intros <;> decide +kernel⟩

theorem witness_MailboxCommands_2_5 : ∃ (s : State) (c : Nat) (m : Msg), (c ∈ mailboxCommands) ∧ (s.dev.serving m c = true) ∧ ((m.whole = false ∨ lengthFits c m.length = false)) := ⟨(st ({ (up).wr R.MBOX.MBOX_STATUS_FW_RUNNING 1 with mg := { (up).mg with msgs := [{ item := 0, body := leBytes 17 2 ++ leBytes 4 2 ++ [1, 2, 3, 4] ++ [1, 1, 1, 1], restarted := false }] } })), (17), ({ item := 0, body := leBytes 17 2 ++ leBytes 4 2 ++ [1, 2, 3, 4] ++ [1, 1, 1, 1], restarted := false }), by and_intros <;> decide +kernel⟩

theorem witness_MailboxCommands_2_6 : ∃ (s : State) (c : Nat) (m : Msg), (c ∈ mailboxCommands) ∧ (s.dev.serving m c = true) ∧ ((m.whole = false ∨ lengthFits c m.length = false)) := ⟨(st ({ (up).wr R.MBOX.MBOX_STATUS_FW_RUNNING 1 with mg := { (up).mg with msgs := [{ item := 0, body := leBytes 18 2 ++ leBytes 1 2 ++ [1, 2, 3, 4] ++ [1], restarted := false }] } })), (18), ({ item := 0, body := leBytes 18 2 ++ leBytes 1 2 ++ [1, 2, 3, 4] ++ [1], restarted := false }), by and_intros <;> decide +kernel⟩

theorem witness_MailboxCommands_2_7 : ∃ (s : State) (c : Nat) (m : Msg), (c ∈ mailboxCommands) ∧ (s.dev.serving m c = true) ∧ ((m.whole = false ∨ lengthFits c m.length = false)) := ⟨(st ({ (up).wr R.MBOX.MBOX_STATUS_FW_RUNNING 1 with mg := { (up).mg with msgs := [{ item := 0, body := leBytes 32 2 ++ leBytes 1 2 ++ [1, 2, 3, 4] ++ [1], restarted := false }] } })), (32), ({ item := 0, body := leBytes 32 2 ++ leBytes 1 2 ++ [1, 2, 3, 4] ++ [1], restarted := false }), by and_intros <;> decide +kernel⟩

theorem witness_MailboxCommands_2_8 : ∃ (s : State) (c : Nat) (m : Msg), (c ∈ mailboxCommands) ∧ (s.dev.serving m c = true) ∧ ((m.whole = false ∨ lengthFits c m.length = false)) := ⟨(st ({ (up).wr R.MBOX.MBOX_STATUS_FW_RUNNING 1 with mg := { (up).mg with msgs := [{ item := 0, body := leBytes 48 2 ++ leBytes 2 2 ++ [1, 2, 3, 4] ++ [1, 1], restarted := false }] } })), (48), ({ item := 0, body := leBytes 48 2 ++ leBytes 2 2 ++ [1, 2, 3, 4] ++ [1, 1], restarted := false }), by and_intros <;> decide +kernel⟩

theorem witness_MailboxCommands_2_9 : ∃ (s : State) (c : Nat) (m : Msg), (c ∈ mailboxCommands) ∧ (s.dev.serving m c = true) ∧ ((m.whole = false ∨ lengthFits c m.length = false)) := ⟨(st ({ (up).wr R.MBOX.MBOX_STATUS_FW_RUNNING 1 with mg := { (up).mg with msgs := [{ item := 0, body := leBytes 1 2 ++ leBytes 4 2 ++ [1, 2, 3, 4] ++ [], restarted := false }] } })), (1), ({ item := 0, body := leBytes 1 2 ++ leBytes 4 2 ++ [1, 2, 3, 4] ++ [], restarted := false }), by and_intros <;> decide +kernel⟩

theorem witness_MailboxCommands_3 : ∃ (s : State) (c : Nat) (m : Msg), (c ∈ mailboxCommands) ∧ (recoveryCommands.contains c = false) ∧ (s.dev.mg.bootFailed = true) ∧ (s.dev.mg.msgs.head? = some m) ∧ (m.restarted = false) ∧ (s.dev.mg.reply = none) ∧ (m.command = c) ∧ (s.dev.mailboxServed m = true) := ⟨(st ({ (up).wr R.MBOX.MBOX_STATUS_FW_RUNNING 1 with mg := { (up).mg with msgs := [{ item := 0, body := leBytes 4 2 ++ leBytes 9 2 ++ [1, 2, 3, 4] ++ [0, 0, 0, 0, 0, 0, 0, 0, 0], restarted := false }], bootFailed := true } })), (4), ({ item := 0, body := leBytes 4 2 ++ leBytes 9 2 ++ [1, 2, 3, 4] ++ [0, 0, 0, 0, 0, 0, 0, 0, 0], restarted := false }), by and_intros <;> decide +kernel⟩

theorem witness_MailboxCommands_4 : ∃ (s : State) (c : Nat), (c ∈ mailboxCommands) ∧ ((s.dev.mg.reply.isSome = true ∨ (s.dev.mg.msgs.head?.all fun m => m.restarted || m.command != c || !s.dev.mailboxServed m) = true)) := ⟨(st ({ (up).wr R.MBOX.MBOX_STATUS_FW_RUNNING 1 with mg := { (up).mg with msgs := [{ item := 0, body := leBytes 4 2 ++ leBytes 9 2 ++ [1, 2, 3, 4] ++ [0, 0, 0, 0, 0, 0, 0, 0, 0], restarted := false }] } })), (3), by and_intros <;> decide +kernel⟩

theorem witness_MailboxCommands_4_1 : ∃ (s : State) (c : Nat), (c ∈ mailboxCommands) ∧ ((s.dev.mg.reply.isSome = true ∨ (s.dev.mg.msgs.head?.all fun m => m.restarted || m.command != c || !s.dev.mailboxServed m) = true)) := ⟨(st up), (1), by and_intros <;> decide +kernel⟩

theorem witness_MailboxCommands_4_2 : ∃ (s : State) (c : Nat), (c ∈ mailboxCommands) ∧ ((s.dev.mg.reply.isSome = true ∨ (s.dev.mg.msgs.head?.all fun m => m.restarted || m.command != c || !s.dev.mailboxServed m) = true)) := ⟨(st ({ (up).wr R.MBOX.MBOX_STATUS_FW_RUNNING 1 with mg := { (up).mg with msgs := [{ item := 0, body := leBytes 4 2 ++ leBytes 9 2 ++ [1, 2, 3, 4] ++ [0, 0, 0, 0, 0, 0, 0, 0, 0], restarted := false }], reply := some [] } })), (4), by and_intros <;> decide +kernel⟩

theorem witness_MailboxCommands_5 : ∃ (s : State) (m : Msg), (s.dev.serving m 0x0001 = true) ∧ (m.whole = true) ∧ (m.length = 0) := ⟨(st ({ (up).wr R.MBOX.MBOX_STATUS_FW_RUNNING 1 with mg := { (up).mg with msgs := [{ item := 0, body := leBytes 1 2 ++ leBytes 0 2 ++ [1, 2, 3, 4] ++ [], restarted := false }] } })), ({ item := 0, body := leBytes 1 2 ++ leBytes 0 2 ++ [1, 2, 3, 4] ++ [], restarted := false }), by and_intros <;> decide +kernel⟩

theorem witness_MailboxCommands_6 : ∃ (s : State) (k : Nat) (n : Nat) (m : Msg), (s.dev.serving m 0x0002 = true) ∧ (m.whole = true) ∧ (m.length = 4) ∧ (m.payload = leBytes k 2 ++ leBytes n 2) ∧ (k < 2 ^ 16) ∧ (n < 2 ^ 16) := ⟨(st ({ (up).wr R.MBOX.MBOX_STATUS_FW_RUNNING 1 with mg := { (up).mg with msgs := [{ item := 0, body := leBytes 2 2 ++ leBytes 4 2 ++ [1, 2, 3, 4] ++ [4, 0, 2, 0], restarted := false }] } })), (4), (2), ({ item := 0, body := leBytes 2 2 ++ leBytes 4 2 ++ [1, 2, 3, 4] ++ [4, 0, 2, 0], restarted := false }), by and_intros <;> decide +kernel⟩

theorem witness_MailboxCommands_6_1 : ∃ (s : State) (k : Nat) (n : Nat) (m : Msg), (s.dev.serving m 0x0002 = true) ∧ (m.whole = true) ∧ (m.length = 4) ∧ (m.payload = leBytes k 2 ++ leBytes n 2) ∧ (k < 2 ^ 16) ∧ (n < 2 ^ 16) := ⟨(st ({ (up).wr R.MBOX.MBOX_STATUS_FW_RUNNING 1 with mg := { (up).mg with msgs := [{ item := 0, body := leBytes 2 2 ++ leBytes 4 2 ++ [1, 2, 3, 4] ++ [255, 3, 2, 0], restarted := false }] } })), (1023), (2), ({ item := 0, body := leBytes 2 2 ++ leBytes 4 2 ++ [1, 2, 3, 4] ++ [255, 3, 2, 0], restarted := false }), by and_intros <;> decide +kernel⟩

theorem witness_MailboxCommands_7 : ∃ (s : State) (c : Nat) (m : Msg), (s.dev.serving m 0x0003 = true) ∧ (m.whole = true) ∧ (m.length = 1) ∧ (c = leAt m.payload 0 1) := ⟨(st ({ (up).wr R.MBOX.MBOX_STATUS_FW_RUNNING 1 with mg := { (up).mg with msgs := [{ item := 0, body := leBytes 3 2 ++ leBytes 1 2 ++ [1, 2, 3, 4] ++ [1], restarted := false }] } })), (1), ({ item := 0, body := leBytes 3 2 ++ leBytes 1 2 ++ [1, 2, 3, 4] ++ [1], restarted := false }), by and_intros <;> decide +kernel⟩

theorem witness_MailboxCommands_7_1 : ∃ (s : State) (c : Nat) (m : Msg), (s.dev.serving m 0x0003 = true) ∧ (m.whole = true) ∧ (m.length = 1) ∧ (c = leAt m.payload 0 1) := ⟨(st ({ (up).wr R.MBOX.MBOX_STATUS_FW_RUNNING 1 with mg := { (up).mg with msgs := [{ item := 0, body := leBytes 3 2 ++ leBytes 1 2 ++ [1, 2, 3, 4] ++ [16], restarted := false }] } })), (16), ({ item := 0, body := leBytes 3 2 ++ leBytes 1 2 ++ [1, 2, 3, 4] ++ [16], restarted := false }), by and_intros <;> decide +kernel⟩

theorem witness_MailboxCommands_8 : ∃ (s : State) (c : Nat) (x : Nat) (m : Msg), (s.dev.serving m 0x0004 = true) ∧ (m.whole = true) ∧ (m.length = 9) ∧ (c = leAt m.payload 0 1) ∧ (x = leAt m.payload 1 8) ∧ (c < 16) ∧ (SMap.get s.dev.mg.counters c < x) ∧ ((c = 0 → x ≤ s.dev.mg.svn)) := ⟨(st ({ (up).wr R.MBOX.MBOX_STATUS_FW_RUNNING 1 with mg := { (up).mg with msgs := [{ item := 0, body := leBytes 4 2 ++ leBytes 9 2 ++ [1, 2, 3, 4] ++ [3, 5, 0, 0, 0, 0, 0, 0, 0], restarted := false }] } })), (3), (5), ({ item := 0, body := leBytes 4 2 ++ leBytes 9 2 ++ [1, 2, 3, 4] ++ [3, 5, 0, 0, 0, 0, 0, 0, 0], restarted := false }), by and_intros <;> decide +kernel⟩

theorem witness_MailboxCommands_9 : ∃ (s : State) (c : Nat) (x : Nat) (m : Msg), (s.dev.serving m 0x0004 = true) ∧ (m.whole = true) ∧ (m.length = 9) ∧ (c = leAt m.payload 0 1) ∧ (x = leAt m.payload 1 8) ∧ ((16 ≤ c ∨ x ≤ SMap.get s.dev.mg.counters c ∨ c = 0 ∧ s.dev.mg.svn < x)) := ⟨(st ({ (up).wr R.MBOX.MBOX_STATUS_FW_RUNNING 1 with mg := { (up).mg with msgs := [{ item := 0, body := leBytes 4 2 ++ leBytes 9 2 ++ [1, 2, 3, 4] ++ [0, 5, 0, 0, 0, 0, 0, 0, 0], restarted := false }] } })), (0), (5), ({ item := 0, body := leBytes 4 2 ++ leBytes 9 2 ++ [1, 2, 3, 4] ++ [0, 5, 0, 0, 0, 0, 0, 0, 0], restarted := false }), by and_intros <;> decide +kernel⟩

theorem witness_MailboxCommands_8_1 : ∃ (s : State) (c : Nat) (x : Nat) (m : Msg), (s.dev.serving m 0x0004 = true) ∧ (m.whole = true) ∧ (m.length = 9) ∧ (c = leAt m.payload 0 1) ∧ (x = leAt m.payload 1 8) ∧ (c < 16) ∧ (SMap.get s.dev.mg.counters c < x) ∧ ((c = 0 → x ≤ s.dev.mg.svn)) := ⟨(st ({ (up).wr R.MBOX.MBOX_STATUS_FW_RUNNING 1 with mg := { (up).mg with msgs := [{ item := 0, body := leBytes 4 2 ++ leBytes 9 2 ++ [1, 2, 3, 4] ++ [0, 5, 0, 0, 0, 0, 0, 0, 0], restarted := false }], svn := 5 } })), (0), (5), ({ item := 0, body := leBytes 4 2 ++ leBytes 9 2 ++ [1, 2, 3, 4] ++ [0, 5, 0, 0, 0, 0, 0, 0, 0], restarted := false }), by and_intros <;> decide +kernel⟩

theorem witness_MailboxCommands_10 : ∃ (s : State) (g : Nat) (len : Nat) (m : Msg), (s.dev.serving m 0x0010 = true) ∧ (m.whole = true) ∧ (m.length = 5) ∧ (g = leAt m.payload 0 1) ∧ (len = leAt m.payload 1 4) ∧ (g ≤ 1) ∧ ((g = 0 → 4096 ≤ len ∧ len ≤ 0x800000)) ∧ ((g = 1 → len = 0x10000)) := ⟨(st ({ (up).wr R.MBOX.MBOX_STATUS_FW_RUNNING 1 with mg := { (up).mg with msgs := [{ item := 0, body := leBytes 16 2 ++ leBytes 5 2 ++ [1, 2, 3, 4] ++ [0, 0, 0, 16, 0], restarted := false }] } })), (0), (0x100000), ({ item := 0, body := leBytes 16 2 ++ leBytes 5 2 ++ [1, 2, 3, 4] ++ [0, 0, 0, 16, 0], restarted := false }), by and_intros <;> decide +kernel⟩

theorem witness_MailboxCommands_10_1 : ∃ (s : State) (g : Nat) (len : Nat) (m : Msg), (s.dev.serving m 0x0010 = true) ∧ (m.whole = true) ∧ (m.length = 5) ∧ (g = leAt m.payload 0 1) ∧ (len = leAt m.payload 1 4) ∧ (g ≤ 1) ∧ ((g = 0 → 4096 ≤ len ∧ len ≤ 0x800000)) ∧ ((g = 1 → len = 0x10000)) := ⟨(st ({ (up).wr R.MBOX.MBOX_STATUS_FW_RUNNING 1 with mg := { (up).mg with msgs := [{ item := 0, body := leBytes 16 2 ++ leBytes 5 2 ++ [1, 2, 3, 4] ++ [1, 0, 0, 1, 0], restarted := false }], bootFailed := true } })), (1), (0x10000), ({ item := 0, body := leBytes 16 2 ++ leBytes 5 2 ++ [1, 2, 3, 4] ++ [1, 0, 0, 1, 0], restarted := false }), by and_intros <;> decide +kernel⟩

theorem witness_MailboxCommands_11 : ∃ (s : State) (g : Nat) (len : Nat) (m : Msg), (s.dev.serving m 0x0010 = true) ∧ (m.whole = true) ∧ (m.length = 5) ∧ (g = leAt m.payload 0 1) ∧ (len = leAt m.payload 1 4) ∧ ((1 < g ∨ g = 0 ∧ (len < 4096 ∨ 0x800000 < len) ∨ g = 1 ∧ len ≠ 0x10000)) := ⟨(st ({ (up).wr R.MBOX.MBOX_STATUS_FW_RUNNING 1 with mg := { (up).mg with msgs := [{ item := 0, body := leBytes 16 2 ++ leBytes 5 2 ++ [1, 2, 3, 4] ++ [2, 0, 0, 1, 0], restarted := false }] } })), (2), (0x10000), ({ item := 0, body := leBytes 16 2 ++ leBytes 5 2 ++ [1, 2, 3, 4] ++ [2, 0, 0, 1, 0], restarted := false }), by and_intros <;> decide +kernel⟩

theorem witness_MailboxCommands_11_1 : ∃ (s : State) (g : Nat) (len : Nat) (m : Msg), (s.dev.serving m 0x0010 = true) ∧ (m.whole = true) ∧ (m.length = 5) ∧ (g = leAt m.payload 0 1) ∧ (len = leAt m.payload 1 4) ∧ ((1 < g ∨ g = 0 ∧ (len < 4096 ∨ 0x800000 < len) ∨ g = 1 ∧ len ≠ 0x10000)) := ⟨(st ({ (up).wr R.MBOX.MBOX_STATUS_FW_RUNNING 1 with mg := { (up).mg with msgs := [{ item := 0, body := leBytes 16 2 ++ leBytes 5 2 ++ [1, 2, 3, 4] ++ [1, 1, 0, 1, 0], restarted := false }] } })), (1), (0x10001), ({ item := 0, body := leBytes 16 2 ++ leBytes 5 2 ++ [1, 2, 3, 4] ++ [1, 1, 0, 1, 0], restarted := false }), by and_intros <;> decide +kernel⟩

theorem witness_MailboxCommands_12 : ∃ (s : State) (o : Nat) (len : Nat) (g : Nat) (m : Msg), (s.dev.serving m 0x0011 = true) ∧ (m.whole = true) ∧ (5 ≤ m.length) ∧ (m.length ≤ 244) ∧ (o = leAt m.payload 0 4) ∧ (s.dev.mg.update = some (g, len)) ∧ (len < o + (m.length - 4)) := ⟨(st ({ (up).wr R.MBOX.MBOX_STATUS_FW_RUNNING 1 with mg := { (up).mg with msgs := [{ item := 0, body := leBytes 17 2 ++ leBytes 6 2 ++ [1, 2, 3, 4] ++ [4, 0, 0, 0, 7, 8], restarted := false }], update := some (0, 5) } })), (4), (5), (0), ({ item := 0, body := leBytes 17 2 ++ leBytes 6 2 ++ [1, 2, 3, 4] ++ [4, 0, 0, 0, 7, 8], restarted := false }), by and_intros <;> decide +kernel⟩

theorem witness_MailboxCommands_13 : ∃ (s : State) (o : Nat) (len : Nat) (g : Nat) (m : Msg), (s.dev.serving m 0x0011 = true) ∧ (m.whole = true) ∧ (5 ≤ m.length) ∧ (m.length ≤ 244) ∧ (o = leAt m.payload 0 4) ∧ (s.dev.mg.update = some (g, len)) ∧ (o + (m.length - 4) ≤ len) := ⟨(st ({ (up).wr R.MBOX.MBOX_STATUS_FW_RUNNING 1 with mg := { (up).mg with msgs := [{ item := 0, body := leBytes 17 2 ++ leBytes 6 2 ++ [1, 2, 3, 4] ++ [4, 0, 0, 0, 7, 8], restarted := false }], update := some (0, 4096) } })), (4), (4096), (0), ({ item := 0, body := leBytes 17 2 ++ leBytes 6 2 ++ [1, 2, 3, 4] ++ [4, 0, 0, 0, 7, 8], restarted := false }), by and_intros <;> decide +kernel⟩

theorem witness_MailboxCommands_14 : ∃ (s : State) (m : Msg), (s.dev.serving m 0x0011 = true) ∧ (m.whole = true) ∧ (5 ≤ m.length) ∧ (m.length ≤ 244) ∧ (s.dev.mg.update = none) := ⟨(st ({ (up).wr R.MBOX.MBOX_STATUS_FW_RUNNING 1 with mg := { (up).mg with msgs := [{ item := 0, body := leBytes 17 2 ++ leBytes 6 2 ++ [1, 2, 3, 4] ++ [4, 0, 0, 0, 7, 8], restarted := false }] } })), ({ item := 0, body := leBytes 17 2 ++ leBytes 6 2 ++ [1, 2, 3, 4] ++ [4, 0, 0, 0, 7, 8], restarted := false }), by and_intros <;> decide +kernel⟩

theorem witness_MailboxCommands_15 : ∃ (s : State) (m : Msg), (s.dev.serving m 0x0012 = true) ∧ (m.whole = true) ∧ (m.length = 0) ∧ (s.dev.mg.update = none) := ⟨(st ({ (up).wr R.MBOX.MBOX_STATUS_FW_RUNNING 1 with mg := { (up).mg with msgs := [{ item := 0, body := leBytes 18 2 ++ leBytes 0 2 ++ [1, 2, 3, 4] ++ [], restarted := false }] } })), ({ item := 0, body := leBytes 18 2 ++ leBytes 0 2 ++ [1, 2, 3, 4] ++ [], restarted := false }), by and_intros <;> decide +kernel⟩

theorem witness_MailboxCommands_16 : ∃ (s : State) (g : Nat) (len : Nat) (m : Msg) (x : Bool × Nat), (s.dev.serving m 0x0012 = true) ∧ (m.whole = true) ∧ (m.length = 0) ∧ (s.dev.mg.update = some (g, len)) ∧ (x = s.dev.updateCheck g) := ⟨(st ({ (up).wr R.MBOX.MBOX_STATUS_FW_RUNNING 1 with mg := { (up).mg with msgs := [{ item := 0, body := leBytes 18 2 ++ leBytes 0 2 ++ [1, 2, 3, 4] ++ [], restarted := false }], update := some (1, 0x10000) } })), (1), (0x10000), ({ item := 0, body := leBytes 18 2 ++ leBytes 0 2 ++ [1, 2, 3, 4] ++ [], restarted := false }), ((st ({ (up).wr R.MBOX.MBOX_STATUS_FW_RUNNING 1 with mg := { (up).mg with msgs := [{ item := 0, body := leBytes 18 2 ++ leBytes 0 2 ++ [1, 2, 3, 4] ++ [], restarted := false }], update := some (1, 0x10000) } })).dev.updateCheck 1), ⟨by decide +kernel, by decide +kernel, by decide +kernel, by decide +kernel, rfl⟩⟩

theorem witness_MailboxCommands_17 : ∃ (s : State) (m : Msg), (s.dev.serving m 0x0020 = true) ∧ (m.whole = true) ∧ (m.length = 0) := ⟨(st ({ (up).wr R.MBOX.MBOX_STATUS_FW_RUNNING 1 with mg := { (up).mg with msgs := [{ item := 0, body := leBytes 32 2 ++ leBytes 0 2 ++ [1, 2, 3, 4] ++ [], restarted := false }] } })), ({ item := 0, body := leBytes 32 2 ++ leBytes 0 2 ++ [1, 2, 3, 4] ++ [], restarted := false }), by and_intros <;> decide +kernel⟩

theorem witness_MailboxCommands_18 : ∃ (s : State) (n : Nat) (m : Msg), (s.dev.serving m 0x0030 = true) ∧ (m.whole = true) ∧ (3 ≤ m.length) ∧ (m.length ≤ 67) ∧ (n = leAt m.payload 1 1) := ⟨(st ({ (up).wr R.MBOX.MBOX_STATUS_FW_RUNNING 1 with mg := { (up).mg with msgs := [{ item := 0, body := leBytes 48 2 ++ leBytes 5 2 ++ [1, 2, 3, 4] ++ [80, 2, 1, 7, 8], restarted := false }] } })), (2), ({ item := 0, body := leBytes 48 2 ++ leBytes 5 2 ++ [1, 2, 3, 4] ++ [80, 2, 1, 7, 8], restarted := false }), by and_intros <;> decide +kernel⟩

theorem witness_MailboxCommands_18_1 : ∃ (s : State) (n : Nat) (m : Msg), (s.dev.serving m 0x0030 = true) ∧ (m.whole = true) ∧ (3 ≤ m.length) ∧ (m.length ≤ 67) ∧ (n = leAt m.payload 1 1) := ⟨(st ({ (up).wr R.MBOX.MBOX_STATUS_FW_RUNNING 1 with mg := { (up).mg with msgs := [{ item := 0, body := leBytes 48 2 ++ leBytes 5 2 ++ [1, 2, 3, 4] ++ [80, 3, 1, 7, 8], restarted := false }] } })), (3), ({ item := 0, body := leBytes 48 2 ++ leBytes 5 2 ++ [1, 2, 3, 4] ++ [80, 3, 1, 7, 8], restarted := false }), by and_intros <;> decide +kernel⟩

theorem witness_RepliesAndRestart_0 : ∃ (s : State) (t : Nat) (m : Msg) (r : Bytes), (s.dev.mg.msgs.head? = some m) ∧ (m.item = 0) ∧ ((s.dev.toTime t).replyDue m = some r) := ⟨(st ({ (up).wr R.MBOX.MBOX_STATUS_FW_RUNNING 1 with mg := { (up).mg with msgs := [{ item := 0, body := leBytes 1 2 ++ leBytes 0 2 ++ [1, 2, 3, 4] ++ [], restarted := false }], reply := some [0, 0, 0, 0, 1, 2, 3, 4] } })), (5), ({ item := 0, body := leBytes 1 2 ++ leBytes 0 2 ++ [1, 2, 3, 4] ++ [], restarted := false }), ([0, 0, 0, 0, 1, 2, 3, 4]), by and_intros <;> decide +kernel⟩

theorem witness_RepliesAndRestart_1 : ∃ (m : Msg), (m.restarted = true) := ⟨({ item := 0, body := leBytes 1 2 ++ leBytes 0 2 ++ [1, 2, 3, 4] ++ [], restarted := true }), by decide +kernel⟩

theorem witness_RepliesAndRestart_2 : ∃ (d : Dev) (m : Msg) (r : Bytes), (m.restarted = false) ∧ (d.mg.reply = some r) := ⟨({ (up).wr R.MBOX.MBOX_STATUS_FW_RUNNING 1 with mg := { (up).mg with msgs := [{ item := 0, body := leBytes 1 2 ++ leBytes 0 2 ++ [1, 2, 3, 4] ++ [], restarted := false }], reply := some [0, 0, 0, 0, 1, 2, 3, 4] } }), ({ item := 0, body := leBytes 1 2 ++ leBytes 0 2 ++ [1, 2, 3, 4] ++ [], restarted := false }), ([0, 0, 0, 0, 1, 2, 3, 4]), by and_intros <;> decide +kernel⟩

theorem witness_RepliesAndRestart_3 : ∃ (d : Dev) (m : Msg), (m.restarted = false) ∧ (d.mg.reply = none) ∧ (d.mailboxServed m = true) ∧ (mailboxCommands.contains m.command = false) := ⟨({ (up).wr R.MBOX.MBOX_STATUS_FW_RUNNING 1 with mg := { (up).mg with msgs := [{ item := 0, body := leBytes 5 2 ++ leBytes 0 2 ++ [1, 2, 3, 4] ++ [], restarted := false }] } }), ({ item := 0, body := leBytes 5 2 ++ leBytes 0 2 ++ [1, 2, 3, 4] ++ [], restarted := false }), by and_intros <;> decide +kernel⟩

theorem witness_RepliesAndRestart_4 : ∃ (d : Dev) (m : Msg), (m.restarted = false) ∧ (d.mg.reply = none) ∧ ((d.mailboxServed m = false ∨ m.command ∈ mailboxCommands)) := ⟨({ (up).wr R.MBOX.MBOX_STATUS_FW_RUNNING 1 with mg := { (up).mg with msgs := [{ item := 0, body := leBytes 1 2 ++ leBytes 0 2 ++ [1, 2, 3, 4] ++ [], restarted := false }] } }), ({ item := 0, body := leBytes 1 2 ++ leBytes 0 2 ++ [1, 2, 3, 4] ++ [], restarted := false }), by and_intros <;> decide +kernel⟩

theorem witness_RepliesAndRestart_4_1 : ∃ (d : Dev) (m : Msg), (m.restarted = false) ∧ (d.mg.reply = none) ∧ ((d.mailboxServed m = false ∨ m.command ∈ mailboxCommands)) := ⟨(up), ({ item := 0, body := leBytes 5 2 ++ leBytes 0 2 ++ [1, 2, 3, 4] ++ [], restarted := false }), by and_intros <;> decide +kernel⟩

theorem witness_RepliesAndRestart_5 : ∃ (s : State) (t : Nat) (n : Nat) (v : MemView) (v1 : MemView) (m : Msg) (r : Bytes) (z : Bytes) (i : Item) (d1 : Dev), (s.dev.mg.msgs.head? = some m) ∧ (m.item ≠ 0) ∧ ((s.dev.toTime t).replyDue m = some r) ∧ (s.dev.item m.item = some i) ∧ (i.stand = .running) ∧ ((s.dev.toTime t).itemWrite i i.dst (r.take (i.arg % 512)) v = (.ok z, v1, d1)) ∧ (n = min r.length (i.arg % 512)) := ⟨(st ({ ((holding [item 7 32 .running (put 48 (leBytes 4 8) (desc 15 0 0 0))])).wr R.MBOX.MBOX_STATUS_FW_RUNNING 1 with mg := { ((holding [item 7 32 .running (put 48 (leBytes 4 8) (desc 15 0 0 0))])).mg with msgs := [{ item := 7, body := leBytes 1 2 ++ leBytes 0 2 ++ [1, 2, 3, 4] ++ [], restarted := false }], reply := some [0, 0, 0, 0, 1, 2, 3, 4] } })), (5), (4), (view [9, 9, 9, 9, 9, 9, 9, 9]), (_), ({ item := 7, body := leBytes 1 2 ++ leBytes 0 2 ++ [1, 2, 3, 4] ++ [], restarted := false }), ([0, 0, 0, 0, 1, 2, 3, 4]), ([]), (item 7 32 .running (put 48 (leBytes 4 8) (desc 15 0 0 0))), (_), ⟨by decide +kernel, by decide +kernel, by decide +kernel, ⟨by decide +kernel, by decide +kernel, split_1_3 (by decide +kernel), by decide +kernel⟩⟩⟩

theorem witness_RepliesAndRestart_5_1 : ∃ (s : State) (t : Nat) (n : Nat) (v : MemView) (v1 : MemView) (m : Msg) (r : Bytes) (z : Bytes) (i : Item) (d1 : Dev), (s.dev.mg.msgs.head? = some m) ∧ (m.item ≠ 0) ∧ ((s.dev.toTime t).replyDue m = some r) ∧ (s.dev.item m.item = some i) ∧ (i.stand = .running) ∧ ((s.dev.toTime t).itemWrite i i.dst (r.take (i.arg % 512)) v = (.ok z, v1, d1)) ∧ (n = min r.length (i.arg % 512)) := ⟨(st ({ ((holding [item 7 32 .running (put 48 (leBytes 16 8) (desc 15 0 0 0))])).wr R.MBOX.MBOX_STATUS_FW_RUNNING 1 with mg := { ((holding [item 7 32 .running (put 48 (leBytes 16 8) (desc 15 0 0 0))])).mg with msgs := [{ item := 7, body := leBytes 1 2 ++ leBytes 0 2 ++ [1, 2, 3, 4] ++ [], restarted := false }], reply := some [0, 0, 0, 0, 1, 2, 3, 4] } })), (5), (8), (view [9, 9, 9, 9, 9, 9, 9, 9]), (_), ({ item := 7, body := leBytes 1 2 ++ leBytes 0 2 ++ [1, 2, 3, 4] ++ [], restarted := false }), ([0, 0, 0, 0, 1, 2, 3, 4]), ([]), (item 7 32 .running (put 48 (leBytes 16 8) (desc 15 0 0 0))), (_), ⟨by decide +kernel, by decide +kernel, by decide +kernel, ⟨by decide +kernel, by decide +kernel, split_1_3 (by decide +kernel), by decide +kernel⟩⟩⟩

theorem witness_RepliesAndRestart_6 : ∃ (s : State) (t : Nat) (st : Nat) (x : Nat) (v : MemView) (v1 : MemView) (m : Msg) (r : Bytes) (i : Item) (d1 : Dev), (s.dev.mg.msgs.head? = some m) ∧ (m.item ≠ 0) ∧ ((s.dev.toTime t).replyDue m = some r) ∧ (s.dev.item m.item = some i) ∧ (i.stand = .running) ∧ ((s.dev.toTime t).itemWrite i i.dst (r.take (i.arg % 512)) v = (.stop st x, v1, d1)) := ⟨(st ({ ((holding [item 7 32 .running (put 48 (leBytes 4 8) (desc 15 0 0 0))]).wrAt R.DMMU.CTX_ROOT_VALID 0 0 0).wr R.MBOX.MBOX_STATUS_FW_RUNNING 1 with mg := { ((holding [item 7 32 .running (put 48 (leBytes 4 8) (desc 15 0 0 0))]).wrAt R.DMMU.CTX_ROOT_VALID 0 0 0).mg with msgs := [{ item := 7, body := leBytes 1 2 ++ leBytes 0 2 ++ [1, 2, 3, 4] ++ [], restarted := false }], reply := some [0, 0, 0, 0, 1, 2, 3, 4] } })), (5), (0x11), (5), (view []), (_), ({ item := 7, body := leBytes 1 2 ++ leBytes 0 2 ++ [1, 2, 3, 4] ++ [], restarted := false }), ([0, 0, 0, 0, 1, 2, 3, 4]), (item 7 32 .running (put 48 (leBytes 4 8) (desc 15 0 0 0))), (_), ⟨by decide +kernel, by decide +kernel, by decide +kernel, ⟨by decide +kernel, by decide +kernel, split_1_3 (by decide +kernel)⟩⟩⟩

theorem witness_RepliesAndRestart_7 : ∃ (s : State) (t : Nat) (v : MemView) (v1 : MemView) (m : Msg) (r : Bytes) (i : Item) (d1 : Dev), (s.dev.mg.msgs.head? = some m) ∧ (m.item ≠ 0) ∧ ((s.dev.toTime t).replyDue m = some r) ∧ (s.dev.item m.item = some i) ∧ (i.stand = .running) ∧ ((s.dev.toTime t).itemWrite i i.dst (r.take (i.arg % 512)) v = (.wait, v1, d1)) := ⟨(st ({ (({ ((holding [item 7 32 .running (put 48 (leBytes 4 8) (desc 15 0 0 0))]).wrAt R.DMMU.CTX_ROOT_ROOT_TARGET 0 0 0) with host := up.host } : Dev)).wr R.MBOX.MBOX_STATUS_FW_RUNNING 1 with mg := { (({ ((holding [item 7 32 .running (put 48 (leBytes 4 8) (desc 15 0 0 0))]).wrAt R.DMMU.CTX_ROOT_ROOT_TARGET 0 0 0) with host := up.host } : Dev)).mg with msgs := [{ item := 7, body := leBytes 1 2 ++ leBytes 0 2 ++ [1, 2, 3, 4] ++ [], restarted := false }], reply := some [0, 0, 0, 0, 1, 2, 3, 4] } })), (5), (default), (_), ({ item := 7, body := leBytes 1 2 ++ leBytes 0 2 ++ [1, 2, 3, 4] ++ [], restarted := false }), ([0, 0, 0, 0, 1, 2, 3, 4]), (item 7 32 .running (put 48 (leBytes 4 8) (desc 15 0 0 0))), (_), ⟨by decide +kernel, by decide +kernel, by decide +kernel, ⟨by decide +kernel, by decide +kernel, split_1_3 (by decide +kernel)⟩⟩⟩

theorem witness_RepliesAndRestart_8 : ∃ (s : State) (t : Nat) (m : Msg) (r : Bytes), (s.dev.mg.msgs.head? = some m) ∧ (m.item ≠ 0) ∧ ((s.dev.toTime t).replyDue m = some r) ∧ ((s.dev.item m.item = none ∨ (s.dev.item m.item).any (fun i => decide (i.stand ≠ .running)) = true)) := ⟨(st ({ ((holding [item 7 32 .finished (put 48 (leBytes 4 8) (desc 15 0 0 0))])).wr R.MBOX.MBOX_STATUS_FW_RUNNING 1 with mg := { ((holding [item 7 32 .finished (put 48 (leBytes 4 8) (desc 15 0 0 0))])).mg with msgs := [{ item := 7, body := leBytes 1 2 ++ leBytes 0 2 ++ [1, 2, 3, 4] ++ [], restarted := false }], reply := some [0, 0, 0, 0, 1, 2, 3, 4] } })), (5), ({ item := 7, body := leBytes 1 2 ++ leBytes 0 2 ++ [1, 2, 3, 4] ++ [], restarted := false }), ([0, 0, 0, 0, 1, 2, 3, 4]), by and_intros <;> decide +kernel⟩

theorem witness_RepliesAndRestart_8_1 : ∃ (s : State) (t : Nat) (m : Msg) (r : Bytes), (s.dev.mg.msgs.head? = some m) ∧ (m.item ≠ 0) ∧ ((s.dev.toTime t).replyDue m = some r) ∧ ((s.dev.item m.item = none ∨ (s.dev.item m.item).any (fun i => decide (i.stand ≠ .running)) = true)) := ⟨(st ({ (up).wr R.MBOX.MBOX_STATUS_FW_RUNNING 1 with mg := { (up).mg with msgs := [{ item := 7, body := leBytes 1 2 ++ leBytes 0 2 ++ [1, 2, 3, 4] ++ [], restarted := false }], reply := some [0, 0, 0, 0, 1, 2, 3, 4] } })), (5), ({ item := 7, body := leBytes 1 2 ++ leBytes 0 2 ++ [1, 2, 3, 4] ++ [], restarted := false }), ([0, 0, 0, 0, 1, 2, 3, 4]), by and_intros <;> decide +kernel⟩

theorem witness_RepliesAndRestart_9 : ∃ (s : State) (t : Nat), ((s.dev.mg.msgs = [] ∨ (s.dev.mg.msgs.head?).any (fun m => decide ((s.dev.toTime t).replyDue m = none)) = true)) := ⟨(st up), (5), by decide +kernel⟩

theorem witness_RepliesAndRestart_9_1 : ∃ (s : State) (t : Nat), ((s.dev.mg.msgs = [] ∨ (s.dev.mg.msgs.head?).any (fun m => decide ((s.dev.toTime t).replyDue m = none)) = true)) := ⟨(st ({ (up).wr R.MBOX.MBOX_STATUS_FW_RUNNING 1 with mg := { (up).mg with msgs := [{ item := 0, body := leBytes 1 2 ++ leBytes 0 2 ++ [1, 2, 3, 4] ++ [], restarted := false }] } })), (5), by decide +kernel⟩

theorem witness_RepliesAndRestart_10 : ∃ (s : State), (s.dev.on R.SAFETY.SAFE_STATUS_MGMT_RUNNING = true) := ⟨(st (up.wr R.SAFETY.SAFE_STATUS_MGMT_RUNNING 1)), by decide +kernel⟩

theorem witness_RepliesAndRestart_10_1 : ∃ (s : State), (s.dev.on R.SAFETY.SAFE_STATUS_MGMT_RUNNING = true) := ⟨(st { (up.wr R.SAFETY.SAFE_STATUS_MGMT_RUNNING 1) with mg := { up.mg with restartAt := 1 } }), by decide +kernel⟩

theorem witness_RepliesAndRestart_11 : ∃ (s : State), (s.dev.on R.SAFETY.SAFE_STATUS_MGMT_RUNNING = false) := ⟨(st up), by decide +kernel⟩

theorem witness_RepliesAndRestart_12 : ∃ (s : State), (s.dev.on R.SAFETY.SAFE_STATUS_MGMT_RUNNING = false) ∧ (s.dev.on R.SAFETY.SAFE_STATUS_MGMT_HELD = false) ∧ (s.dev.mg.bootFailed = false) ∧ (s.dev.mg.inReset = false) := ⟨(st ({ (up).wr R.MBOX.MBOX_STATUS_FW_RUNNING 1 with mg := { (up).mg with msgs := [{ item := 0, body := leBytes 1 2 ++ leBytes 0 2 ++ [1, 2, 3, 4] ++ [], restarted := false }] } })), by and_intros <;> decide +kernel⟩

theorem witness_RepliesAndRestart_13 : ∃ (s : State), ((s.dev.on R.SAFETY.SAFE_STATUS_MGMT_RUNNING = true ∨ s.dev.on R.SAFETY.SAFE_STATUS_MGMT_HELD = true ∨ s.dev.mg.bootFailed = true ∨ s.dev.mg.inReset = true)) := ⟨(st (up.wr R.SAFETY.SAFE_STATUS_MGMT_RUNNING 1)), by decide +kernel⟩

theorem witness_RepliesAndRestart_13_1 : ∃ (s : State), ((s.dev.on R.SAFETY.SAFE_STATUS_MGMT_RUNNING = true ∨ s.dev.on R.SAFETY.SAFE_STATUS_MGMT_HELD = true ∨ s.dev.mg.bootFailed = true ∨ s.dev.mg.inReset = true)) := ⟨(st { up with mg := { up.mg with inReset := true } }), by decide +kernel⟩

theorem witness_SafeState_0 : ∃ (d : Dev) (e : Dev) (code : Nat) (page : Nat) (detail : Nat), (code < 256) ∧ (d.on R.SAFETY.SAFE_STATUS_IN_SAFE = false) ∧ (isSet (d.route 0x7C6) 14 = false) ∧ (e = d.unitFault code 4 page detail) := ⟨(up), (_), (0x86), (0xA), (0), ⟨by decide +kernel, by decide +kernel, by decide +kernel, rfl⟩⟩

theorem witness_SafeState_0_1 : ∃ (d : Dev) (e : Dev) (code : Nat) (page : Nat) (detail : Nat), (code < 256) ∧ (d.on R.SAFETY.SAFE_STATUS_IN_SAFE = false) ∧ (isSet (d.route 0x7C6) 14 = false) ∧ (e = d.unitFault code 4 page detail) := ⟨(running), (_), (0x84), (0xA), (7), ⟨by decide +kernel, by decide +kernel, by decide +kernel, rfl⟩⟩

theorem witness_SafeState_0_2 : ∃ (d : Dev) (e : Dev) (code : Nat) (page : Nat) (detail : Nat), (code < 256) ∧ (d.on R.SAFETY.SAFE_STATUS_IN_SAFE = false) ∧ (isSet (d.route 0x7C6) 14 = false) ∧ (e = d.unitFault code 4 page detail) := ⟨((inBelay .waiting 1)), (_), (0x84), (0xA), (7), ⟨by decide +kernel, by decide +kernel, by decide +kernel, rfl⟩⟩

theorem witness_SafeState_0_3 : ∃ (d : Dev) (e : Dev) (code : Nat) (page : Nat) (detail : Nat), (code < 256) ∧ (d.on R.SAFETY.SAFE_STATUS_IN_SAFE = false) ∧ (isSet (d.route 0x7C6) 14 = false) ∧ (e = d.unitFault code 4 page detail) := ⟨({ up with mg := { up.mg with logTimes := List.replicate 64 (2 ^ 60) } }), (_), (0x84), (0xA), (7), ⟨by decide +kernel, by decide +kernel, by decide +kernel, rfl⟩⟩

theorem witness_SafeState_1 : ∃ (d : Dev) (e : Dev) (code : Nat) (page : Nat) (detail : Nat), (d.on R.SAFETY.SAFE_STATUS_IN_SAFE = true) ∧ (e = d.unitFault code 4 page detail) := ⟨((up.wr R.SAFETY.SAFE_STATUS_IN_SAFE 1)), (_), (0x86), (0xA), (0), ⟨by decide +kernel, rfl⟩⟩

theorem witness_SafeState_2 : ∃ (s : State), (s.dev.reaches 0xA = true) ∧ (s.dev.on R.SAFETY.SAFE_STATUS_IN_SAFE = false) := ⟨(st up), by and_intros <;> decide +kernel⟩

theorem witness_SafeState_2_1 : ∃ (s : State), (s.dev.reaches 0xA = true) ∧ (s.dev.on R.SAFETY.SAFE_STATUS_IN_SAFE = false) := ⟨(st running), by and_intros <;> decide +kernel⟩

theorem witness_SafeState_3 : ∃ (s : State), (s.dev.reaches 0xA = true) ∧ (s.dev.on R.SAFETY.SAFE_STATUS_IN_SAFE = true) := ⟨(st (up.wr R.SAFETY.SAFE_STATUS_IN_SAFE 1)), by and_intros <;> decide +kernel⟩

theorem witness_SafeState_4 : ∃ (s : State), (s.dev.on R.SAFETY.SAFE_STATUS_ESTOP_NOW = false) := ⟨(st up), by decide +kernel⟩

theorem witness_SafeState_5 : ∃ (s : State), (s.dev.on R.SAFETY.SAFE_STATUS_ESTOP_NOW = true) := ⟨(st (up.wr R.SAFETY.SAFE_STATUS_ESTOP_NOW 1)), by decide +kernel⟩

theorem witness_SafeState_7 : ∃ (s : State), (s.dev.reaches 0xA = true) ∧ (s.dev.on R.SAFETY.SAFE_STATUS_IN_SAFE = false) := ⟨(st up), by and_intros <;> decide +kernel⟩

theorem witness_SafeState_8 : ∃ (s : State) (o : Bool) (r : Nat), (s.dev.reaches 0xA = true) ∧ (s.dev.on R.SAFETY.SAFE_STATUS_IN_SAFE = true) ∧ (s.dev.clearReason s.envelope o = some r) := ⟨(st (up.wr R.SAFETY.SAFE_STATUS_IN_SAFE 1)), (true), (2), by and_intros <;> decide +kernel⟩

theorem witness_SafeState_8_1 : ∃ (s : State) (o : Bool) (r : Nat), (s.dev.reaches 0xA = true) ∧ (s.dev.on R.SAFETY.SAFE_STATUS_IN_SAFE = true) ∧ (s.dev.clearReason s.envelope o = some r) := ⟨(st (up.wr R.SAFETY.SAFE_STATUS_IN_SAFE 1)), (false), (4), by and_intros <;> decide +kernel⟩

theorem witness_SafeState_9 : ∃ (s : State) (o : Bool), (s.dev.reaches 0xA = true) ∧ (s.dev.on R.SAFETY.SAFE_STATUS_IN_SAFE = true) ∧ (s.dev.clearReason s.envelope o = none) := ⟨({ st ((up.wr R.SAFETY.SAFE_STATUS_IN_SAFE 1).wr R.SAFETY.SAFE_STATUS_MGMT_RUNNING 1) with envelope := { (default : Envelope) with locked := true } }), (false), by and_intros <;> decide +kernel⟩

theorem witness_SafeState_10 : ∃ (d : Dev), (d.on R.SAFETY.SAFE_STATUS_ESTOP_NOW = true) := ⟨((up.wr R.SAFETY.SAFE_STATUS_ESTOP_NOW 1)), by decide +kernel⟩

theorem witness_SafeState_11 : ∃ (d : Dev) (o : Bool), (d.on R.SAFETY.SAFE_STATUS_ESTOP_NOW = false) ∧ ((o = true ∨ d.on R.CLK.CLK_STATUS_HOLDOVER = true ∨ d.hot = true ∨ d.railOut = true)) := ⟨(up), (true), by and_intros <;> decide +kernel⟩

theorem witness_SafeState_11_1 : ∃ (d : Dev) (o : Bool), (d.on R.SAFETY.SAFE_STATUS_ESTOP_NOW = false) ∧ ((o = true ∨ d.on R.CLK.CLK_STATUS_HOLDOVER = true ∨ d.hot = true ∨ d.railOut = true)) := ⟨({ up with mg := { up.mg with temps := [(3, 121)] } }), (false), by and_intros <;> decide +kernel⟩

theorem witness_SafeState_11_2 : ∃ (d : Dev) (o : Bool), (d.on R.SAFETY.SAFE_STATUS_ESTOP_NOW = false) ∧ ((o = true ∨ d.on R.CLK.CLK_STATUS_HOLDOVER = true ∨ d.hot = true ∨ d.railOut = true)) := ⟨({ up with mg := { up.mg with railArmed := [2] } }), (false), by and_intros <;> decide +kernel⟩

theorem witness_SafeState_12 : ∃ (d : Dev), (d.on R.SAFETY.SAFE_STATUS_ESTOP_NOW = false) ∧ (d.on R.CLK.CLK_STATUS_HOLDOVER = false) ∧ (d.hot = false) ∧ (d.railOut = false) := ⟨(up), by and_intros <;> decide +kernel⟩

theorem witness_SafeState_12_1 : ∃ (d : Dev), (d.on R.SAFETY.SAFE_STATUS_ESTOP_NOW = false) ∧ (d.on R.CLK.CLK_STATUS_HOLDOVER = false) ∧ (d.hot = false) ∧ (d.railOut = false) := ⟨({ up with mg := { up.mg with temps := [(3, 120)] } }), by and_intros <;> decide +kernel⟩

theorem witness_SafeState_12_2 : ∃ (d : Dev), (d.on R.SAFETY.SAFE_STATUS_ESTOP_NOW = false) ∧ (d.on R.CLK.CLK_STATUS_HOLDOVER = false) ∧ (d.hot = false) ∧ (d.railOut = false) := ⟨(running), by and_intros <;> decide +kernel⟩

theorem witness_ScrubbersAndMonitors_0 : ∃ (s : State), (s.dev.rd R.POWER.PWR_STATUS_STATE = 2) := ⟨(st (up.wr R.POWER.PWR_STATUS_STATE 2)), by decide +kernel⟩

theorem witness_ScrubbersAndMonitors_1 : ∃ (s : State) (n : Nat), (s.dev.rd R.POWER.PWR_STATUS_STATE ≠ 2) ∧ (n = s.dev.mg.scrubAt) := ⟨(st { up with arr := { up.arr with cols := [(3, encodeEcc 96 5 ^^^ 1), (4, encodeEcc 96 5 ^^^ 1), (2051, 3)] }, mg := { up.mg with scrubAt := 3 } }), (3), by and_intros <;> decide +kernel⟩

theorem witness_ScrubbersAndMonitors_1_1 : ∃ (s : State) (n : Nat), (s.dev.rd R.POWER.PWR_STATUS_STATE ≠ 2) ∧ (n = s.dev.mg.scrubAt) := ⟨(st { up with mg := { up.mg with scrubAt := 2047 } }), (2047), by and_intros <;> decide +kernel⟩

theorem witness_ScrubbersAndMonitors_2 : ∃ (d : Dev) (q : Nat) (w : Nat) (z : Nat), (decodeEcc 96 (SMap.get d.arr.cols q) = .bad w z) := ⟨({ up with arr := { up.arr with cols := [(3, encodeEcc 96 5 ^^^ 1), (4, encodeEcc 96 5 ^^^ 1), (2051, 3)] }, mg := { up.mg with scrubAt := 3 } }), (2051), (3), (6), by decide +kernel⟩

theorem witness_ScrubbersAndMonitors_3 : ∃ (d : Dev) (q : Nat) (w : Nat) (z : Nat), (decodeEcc 64 (SMap.get d.arr.selTab q) = .bad w z) := ⟨({ up with arr := { up.arr with selTab := [(515, 3)] } }), (515), (3), (6), by decide +kernel⟩

theorem witness_ScrubbersAndMonitors_6 : ∃ (mv : Nat), (mv < 1550) := ⟨(1549), by decide +kernel⟩

theorem witness_ScrubbersAndMonitors_7 : ∃ (s : State) (r : Nat) (bank : Nat) (mv : Nat) (t : Nat) (d1 : Dev), (r < 8) ∧ (bank < 10) ∧ ((r = 6 → 1550 ≤ mv)) ∧ (d1 = (if r < 7 then (s.dev.toTime t).wrAt R.SAFETY.RAIL_MV 0 r mv else (s.dev.toTime t).wrAt R.SAFETY.VCCIO_MV 0 bank mv)) := ⟨(st { up with mg := { up.mg with railArmed := [6, 7 + 16 * 3] } }), (6), (0), (1650), (5), (_), ⟨by decide +kernel, by decide +kernel, by decide +kernel, rfl⟩⟩

theorem witness_ScrubbersAndMonitors_7_1 : ∃ (s : State) (r : Nat) (bank : Nat) (mv : Nat) (t : Nat) (d1 : Dev), (r < 8) ∧ (bank < 10) ∧ ((r = 6 → 1550 ≤ mv)) ∧ (d1 = (if r < 7 then (s.dev.toTime t).wrAt R.SAFETY.RAIL_MV 0 r mv else (s.dev.toTime t).wrAt R.SAFETY.VCCIO_MV 0 bank mv)) := ⟨(st { up with mg := { up.mg with railArmed := [6, 7 + 16 * 3] } }), (7), (3), (2000), (5), (_), ⟨by decide +kernel, by decide +kernel, by decide +kernel, rfl⟩⟩

theorem witness_ScrubbersAndMonitors_7_2 : ∃ (s : State) (r : Nat) (bank : Nat) (mv : Nat) (t : Nat) (d1 : Dev), (r < 8) ∧ (bank < 10) ∧ ((r = 6 → 1550 ≤ mv)) ∧ (d1 = (if r < 7 then (s.dev.toTime t).wrAt R.SAFETY.RAIL_MV 0 r mv else (s.dev.toTime t).wrAt R.SAFETY.VCCIO_MV 0 bank mv)) := ⟨(st up), (0), (0), (600), (5), (_), ⟨by decide +kernel, by decide +kernel, by decide +kernel, rfl⟩⟩

theorem witness_ScrubbersAndMonitors_8 : ∃ (s : State) (r : Nat) (bank : Nat) (mv : Nat) (t : Nat) (d1 : Dev), (r < 8) ∧ (bank < 10) ∧ (d1 = (if r < 7 then (s.dev.toTime t).wrAt R.SAFETY.RAIL_MV 0 r mv else (s.dev.toTime t).wrAt R.SAFETY.VCCIO_MV 0 bank mv)) := ⟨(st up), (6), (0), (1800), (5), (_), ⟨by decide +kernel, by decide +kernel, rfl⟩⟩

theorem witness_ScrubbersAndMonitors_8_1 : ∃ (s : State) (r : Nat) (bank : Nat) (mv : Nat) (t : Nat) (d1 : Dev), (r < 8) ∧ (bank < 10) ∧ (d1 = (if r < 7 then (s.dev.toTime t).wrAt R.SAFETY.RAIL_MV 0 r mv else (s.dev.toTime t).wrAt R.SAFETY.VCCIO_MV 0 bank mv)) := ⟨(st up), (7), (9), (1200), (5), (_), ⟨by decide +kernel, by decide +kernel, rfl⟩⟩

theorem witness_ScrubbersAndMonitors_8_2 : ∃ (s : State) (r : Nat) (bank : Nat) (mv : Nat) (t : Nat) (d1 : Dev), (r < 8) ∧ (bank < 10) ∧ (d1 = (if r < 7 then (s.dev.toTime t).wrAt R.SAFETY.RAIL_MV 0 r mv else (s.dev.toTime t).wrAt R.SAFETY.VCCIO_MV 0 bank mv)) := ⟨(st up), (0), (9), (600), (5), (_), ⟨by decide +kernel, by decide +kernel, rfl⟩⟩

theorem witness_ScrubbersAndMonitors_10 : ∃ (r : Nat) (bank : Nat) (mv : Nat), ((8 ≤ r ∨ 10 ≤ bank)) ∧ ((r = 6 → 1550 ≤ mv)) := ⟨(8), (0), (5), by and_intros <;> decide +kernel⟩

theorem witness_ScrubbersAndMonitors_10_1 : ∃ (r : Nat) (bank : Nat) (mv : Nat), ((8 ≤ r ∨ 10 ≤ bank)) ∧ ((r = 6 → 1550 ≤ mv)) := ⟨(6), (10), (1800), by and_intros <;> decide +kernel⟩

theorem witness_ScrubbersAndMonitors_11 : ∃ (r : Nat) (bank : Nat) (mv : Nat), ((8 ≤ r ∨ 10 ≤ bank)) ∧ ((r = 6 → 1550 ≤ mv)) := ⟨(8), (0), (5), by and_intros <;> decide +kernel⟩

theorem witness_ScrubbersAndMonitors_12 : ∃ (d : Dev) (x : Nat), (signedOf 8 x < signedOf 8 (d.rd R.SAFETY.TJ_LIMIT)) := ⟨(up), (124), by decide +kernel⟩

theorem witness_ScrubbersAndMonitors_12_1 : ∃ (d : Dev) (x : Nat), (signedOf 8 x < signedOf 8 (d.rd R.SAFETY.TJ_LIMIT)) := ⟨(up), (255), by decide +kernel⟩

theorem witness_ScrubbersAndMonitors_13 : ∃ (d : Dev) (d1 : Dev) (k : Nat) (x : Nat) (n : Nat), (signedOf 8 (d.rd R.SAFETY.TJ_LIMIT) ≤ signedOf 8 x) ∧ (n = min 5 (SMap.get d.mg.hotCounts k + 1)) ∧ (d1 = { d with mg := { d.mg with temps := SMap.set d.mg.temps k (x % 256), hotCounts := SMap.set d.mg.hotCounts k n } }) := ⟨(up), (_), (3), (125), (1), ⟨by decide +kernel, by decide +kernel, rfl⟩⟩

theorem witness_ScrubbersAndMonitors_13_1 : ∃ (d : Dev) (d1 : Dev) (k : Nat) (x : Nat) (n : Nat), (signedOf 8 (d.rd R.SAFETY.TJ_LIMIT) ≤ signedOf 8 x) ∧ (n = min 5 (SMap.get d.mg.hotCounts k + 1)) ∧ (d1 = { d with mg := { d.mg with temps := SMap.set d.mg.temps k (x % 256), hotCounts := SMap.set d.mg.hotCounts k n } }) := ⟨({ up with mg := { up.mg with hotCounts := [(3, 3)] } }), (_), (3), (125), (4), ⟨by decide +kernel, by decide +kernel, rfl⟩⟩

theorem witness_ScrubbersAndMonitors_13_2 : ∃ (d : Dev) (d1 : Dev) (k : Nat) (x : Nat) (n : Nat), (signedOf 8 (d.rd R.SAFETY.TJ_LIMIT) ≤ signedOf 8 x) ∧ (n = min 5 (SMap.get d.mg.hotCounts k + 1)) ∧ (d1 = { d with mg := { d.mg with temps := SMap.set d.mg.temps k (x % 256), hotCounts := SMap.set d.mg.hotCounts k n } }) := ⟨({ up with mg := { up.mg with hotCounts := [(3, 5)] } }), (_), (3), (125), (5), ⟨by decide +kernel, by decide +kernel, rfl⟩⟩

theorem witness_ScrubbersAndMonitors_14 : ∃ (s : State) (t : Nat) (k : Nat) (x : Nat) (l : List Nat) (d1 : Dev), ((k, x) = hottest ((List.range l.length).zip l)) ∧ (d1 = forAll ((List.range l.length).zip l) (fun e (d : Dev) => d.sampleSensor e.1 e.2) (s.dev.toTime t)) := ⟨(st up), (5), (1), (116), ([20, 116, 116]), (_), ⟨by decide +kernel, rfl⟩⟩

theorem witness_ScrubbersAndMonitors_15 : ∃ (l : List (Nat × Nat)), (l ≠ []) := ⟨([(0, 20), (1, 255), (2, 20)]), by decide +kernel⟩

theorem witness_ScrubbersAndMonitors_16 : ∃ (s : State) (code : Nat) (kind : Nat) (t : Nat) (d : Dev), (code < 8) ∧ (d = (s.dev.toTick t).clockFails code kind) := ⟨(st up), (0), (0), (5), (_), ⟨by decide +kernel, rfl⟩⟩

theorem witness_ScrubbersAndMonitors_16_1 : ∃ (s : State) (code : Nat) (kind : Nat) (t : Nat) (d : Dev), (code < 8) ∧ (d = (s.dev.toTick t).clockFails code kind) := ⟨(st up), (7), (1), (5), (_), ⟨by decide +kernel, rfl⟩⟩

theorem witness_ScrubbersAndMonitors_16_2 : ∃ (s : State) (code : Nat) (kind : Nat) (t : Nat) (d : Dev), (code < 8) ∧ (d = (s.dev.toTick t).clockFails code kind) := ⟨(st up), (5), (0), (5), (_), ⟨by decide +kernel, rfl⟩⟩

theorem witness_ScrubbersAndMonitors_16_3 : ∃ (s : State) (code : Nat) (kind : Nat) (t : Nat) (d : Dev), (code < 8) ∧ (d = (s.dev.toTick t).clockFails code kind) := ⟨(st (up.wr R.EDGE.EDGE_STATUS_RELEASE_STAGE 1)), (5), (0), (5), (_), ⟨by decide +kernel, rfl⟩⟩

theorem witness_ScrubbersAndMonitors_18 : ∃ (code : Nat), (8 ≤ code) := ⟨(8), by decide +kernel⟩

theorem witness_ScrubbersAndMonitors_19 : ∃ (s : State) (w : Nat) (x : Nat), (s.dev.reaches 9 = true) ∧ (x = w % 2 ^ 12) ∧ ((s.dev.running = true ∨ s.dev.part.stepLimit < x ∨ x < 500 ∨ x % 10 ≠ 0)) := ⟨(st up), (1010), (1010), by and_intros <;> decide +kernel⟩

theorem witness_ScrubbersAndMonitors_19_1 : ∃ (s : State) (w : Nat) (x : Nat), (s.dev.reaches 9 = true) ∧ (x = w % 2 ^ 12) ∧ ((s.dev.running = true ∨ s.dev.part.stepLimit < x ∨ x < 500 ∨ x % 10 ≠ 0)) := ⟨(st running), (500), (500), by and_intros <;> decide +kernel⟩

theorem witness_ScrubbersAndMonitors_19_2 : ∃ (s : State) (w : Nat) (x : Nat), (s.dev.reaches 9 = true) ∧ (x = w % 2 ^ 12) ∧ ((s.dev.running = true ∨ s.dev.part.stepLimit < x ∨ x < 500 ∨ x % 10 ≠ 0)) := ⟨(st up), (505), (505), by and_intros <;> decide +kernel⟩

theorem witness_ScrubbersAndMonitors_20 : ∃ (s : State) (w : Nat) (x : Nat), (s.dev.reaches 9 = true) ∧ (x = w % 2 ^ 12) ∧ (s.dev.running = false) ∧ (x ≤ s.dev.part.stepLimit) ∧ (500 ≤ x) ∧ (x % 10 = 0) := ⟨(st up), (500), (500), by and_intros <;> decide +kernel⟩

theorem witness_ScrubbersAndMonitors_20_1 : ∃ (s : State) (w : Nat) (x : Nat), (s.dev.reaches 9 = true) ∧ (x = w % 2 ^ 12) ∧ (s.dev.running = false) ∧ (x ≤ s.dev.part.stepLimit) ∧ (500 ≤ x) ∧ (x % 10 = 0) := ⟨(st up), (1000 + 4096), (1000), by and_intros <;> decide +kernel⟩

theorem witness_ScrubbersAndMonitors_21 : ∃ (s : State), (s.dev.tk.startWait = false) := ⟨(st up), by decide +kernel⟩

theorem witness_ScrubbersAndMonitors_22 : ∃ (s : State) (t : Nat) (d1 : Dev), (s.dev.tk.startWait = true) ∧ (d1 = (s.dev.toTime t).wr R.CLK.CLK_STATUS_STEP_LOCKED 1) := ⟨(st { ready with tk := { ready.tk with startWait := true } }), (5), (_), ⟨by decide +kernel, rfl⟩⟩

theorem witness_Resets_1 : ∃ (d : Dev) (e : Dev), ((e = d.por ∨ ∃ cause, e = d.deviceReset cause)) := ⟨(loaded), ((loaded.por)), .inl rfl⟩

theorem witness_Resets_1_1 : ∃ (d : Dev) (e : Dev), ((e = d.por ∨ ∃ cause, e = d.deviceReset cause)) := ⟨(running), (((running).deviceReset 3)), .inr ⟨3, rfl⟩⟩

theorem witness_Resets_6 : ∃ (d : Dev) (e : Dev) (cause : Nat), (e = d.deviceReset cause) := ⟨(loaded), (_), (9), rfl⟩

theorem witness_Resets_7 : ∃ (s : State) (w : Nat) (t : Nat) (d1 : Dev), (s.dev.reaches 8 = true) ∧ (d1 = ((s.dev.atWrite t).when (isSet w 0) (fun d => d.arrayReset t)).when (isSet w 1) (fun d => d.edgeReset t)) := ⟨(st up), (0xD5A70000), (5), (_), ⟨by decide +kernel, rfl⟩⟩

theorem witness_Resets_7_1 : ∃ (s : State) (w : Nat) (t : Nat) (d1 : Dev), (s.dev.reaches 8 = true) ∧ (d1 = ((s.dev.atWrite t).when (isSet w 0) (fun d => d.arrayReset t)).when (isSet w 1) (fun d => d.edgeReset t)) := ⟨(st up), (0), (5), (_), ⟨by decide +kernel, rfl⟩⟩

theorem witness_Resets_7_2 : ∃ (s : State) (w : Nat) (t : Nat) (d1 : Dev), (s.dev.reaches 8 = true) ∧ (d1 = ((s.dev.atWrite t).when (isSet w 0) (fun d => d.arrayReset t)).when (isSet w 1) (fun d => d.edgeReset t)) := ⟨(st running), (0xD5A70003), (5), (_), ⟨by decide +kernel, rfl⟩⟩

theorem witness_Resets_8 : ∃ (s : State), (s.dev.reaches 8 = true) := ⟨(st (stepping 0x38001c003000c003000aaaa)), by decide +kernel⟩

theorem witness_Resets_8_1 : ∃ (s : State), (s.dev.reaches 8 = true) := ⟨(st loaded), by decide +kernel⟩

theorem witness_Resets_8_2 : ∃ (s : State), (s.dev.reaches 8 = true) := ⟨(st opened), by decide +kernel⟩

theorem witness_Resets_8_3 : ∃ (s : State), (s.dev.reaches 8 = true) := ⟨(st (inBelay .waiting 1)), by decide +kernel⟩

theorem witness_Resets_9 : ∃ (s : State), (s.dev.reaches 8 = true) ∧ (s.dev.running = true) := ⟨(st running), by and_intros <;> decide +kernel⟩

theorem witness_Resets_10 : ∃ (s : State), (s.dev.reaches 8 = true) ∧ (s.dev.running = false) := ⟨(st { up with edge := { up.edge with base := [(0x50000, List.replicate 8 7)], present := [default] } }), by and_intros <;> decide +kernel⟩

theorem witness_Resets_10_1 : ∃ (s : State), (s.dev.reaches 8 = true) ∧ (s.dev.running = false) := ⟨(st (({ up with edge := { up.edge with base := [(0x50000, List.replicate 8 7)], present := [default] } } : Dev).wrAt R.PINBANK.LOCK 0 0 1)), by and_intros <;> decide +kernel⟩

theorem witness_Resets_10_2 : ∃ (s : State), (s.dev.reaches 8 = true) ∧ (s.dev.running = false) := ⟨(st loaded), by and_intros <;> decide +kernel⟩

theorem witness_Resets_10_3 : ∃ (s : State), (s.dev.reaches 8 = true) ∧ (s.dev.running = false) := ⟨(st opened), by and_intros <;> decide +kernel⟩

theorem witness_Resets_11 : ∃ (s : State), (s.dev.mg.inReset = false) ∧ (s.dev.mg.bootFailed = false) := ⟨(st (stepping 0x38001c003000c003000aaaa)), by and_intros <;> decide +kernel⟩

theorem witness_Resets_11_1 : ∃ (s : State), (s.dev.mg.inReset = false) ∧ (s.dev.mg.bootFailed = false) := ⟨(st (holding [item 1 3 .running []])), by and_intros <;> decide +kernel⟩

theorem witness_Resets_11_2 : ∃ (s : State), (s.dev.mg.inReset = false) ∧ (s.dev.mg.bootFailed = false) := ⟨(st opened), by and_intros <;> decide +kernel⟩

theorem witness_Resets_12 : ∃ (s : State), ((s.dev.mg.inReset = true ∨ s.dev.mg.bootFailed = true)) := ⟨(st { up with mg := { up.mg with inReset := true } }), by decide +kernel⟩

theorem witness_Resets_13 : ∃ (s : State), (s.dev.mg.inReset = false) := ⟨(st { holding [item 7 32 .running []] with mg := { up.mg with msgs := [{ item := 7, body := [], restarted := false }], reply := some [] } }), by decide +kernel⟩

theorem witness_Resets_14 : ∃ (s : State), (s.dev.mg.inReset = true) := ⟨(st { up with mg := { up.mg with inReset := true } }), by decide +kernel⟩

theorem witness_BootAndReadiness_0 : ∃ (s : State) (t0 : Nat) (t : Nat), ((s.dev.mg.inReset = false ∨ s.dev.railsIn = false ∨ (s.dev.toTime t).mono < (s.dev.toTime t).bootBegins t0)) := ⟨(st up), (0), (5), by decide +kernel⟩

theorem witness_BootAndReadiness_0_1 : ∃ (s : State) (t0 : Nat) (t : Nat), ((s.dev.mg.inReset = false ∨ s.dev.railsIn = false ∨ (s.dev.toTime t).mono < (s.dev.toTime t).bootBegins t0)) := ⟨(State.reset), (0), (5), by decide +kernel⟩

theorem witness_BootAndReadiness_0_2 : ∃ (s : State) (t0 : Nat) (t : Nat), ((s.dev.mg.inReset = false ∨ s.dev.railsIn = false ∨ (s.dev.toTime t).mono < (s.dev.toTime t).bootBegins t0)) := ⟨(st { State.reset.dev with mg := { State.reset.dev.mg with railArmed := [0, 1, 2, 3, 4, 5, 6], railsAt := 1 } }), (0), (5), by decide +kernel⟩

theorem witness_BootAndReadiness_2 : ∃ (s : State) (t0 : Nat) (t : Nat) (ms : Nat) (mv : List Nat) (d : Dev), (s.dev.mg.inReset = true) ∧ (s.dev.railsIn = true) ∧ ((s.dev.toTime t).bootBegins t0 ≤ (s.dev.toTime t).mono) ∧ (d = (s.dev.toTime t).bootStart mv) ∧ (ms = ((s.dev.toTime t).mono - (s.dev.toTime t).bootBegins t0) / 2 ^ 32 / 1000000) := ⟨(st { State.reset.dev with mg := { State.reset.dev.mg with railArmed := [0, 1, 2, 3, 4, 5, 6], railsAt := 1 } }), (0), (2 ^ 53), (_), ([1200, 1500]), (_), ⟨by decide +kernel, by decide +kernel, by decide +kernel, rfl, rfl⟩⟩

theorem witness_BootAndReadiness_3 : ∃ (src : Nat) (errors : Nat), (isSet errors (2 + src) = true) := ⟨(1), (15), by decide +kernel⟩

theorem witness_BootAndReadiness_4 : ∃ (src : Nat) (errors : Nat), (isSet errors (2 + src) = false) := ⟨(0), (0), by decide +kernel⟩

theorem witness_BootAndReadiness_5 : ∃ (d : Dev) (e : Dev) (src : Nat) (ms : Nat) (v : Envelope), (e = d.bootReady src ms v) := ⟨(up), (_), (1), (70000), ({ (default : Envelope) with locked := true, enable := true, bootLock := [(9, 5)] }), rfl⟩

theorem witness_BootAndReadiness_6 : ∃ (d : Dev) (e : Dev) (reason : Nat) (ms : Nat), (e = d.bootDead reason ms) := ⟨(State.reset.dev), (_), (8), (20), rfl⟩

theorem witness_BootAndReadiness_7 : ∃ (reason : Nat), (reason < 16) := ⟨(7), by decide +kernel⟩

theorem witness_BootAndReadiness_8 : ∃ (d : Dev) (e : Dev) (mv : List Nat), (e = d.bootStart mv) := ⟨(State.reset.dev), (_), ([1200, 1500]), rfl⟩

theorem witness_PromotionAtBoundary_0 : ∃ (s : State), (s.dev.tk.phase = .ended) ∧ (s.dev.tk.peerStop = none) ∧ (s.dev.tk.linkStop = false) ∧ ((s.dev.tk.belay + 1) % max 1 s.dev.tk.pitches = 0) ∧ (s.dev.badShadows = []) := ⟨(st { (inBelay .ended 1) with arr := { up.arr with flagRows := [(0, 5), (64, 1)], shadowRows := [(0, 6), (64, 1)], stateRows := [(0, 3)] } }), by and_intros <;> decide +kernel⟩

theorem witness_PromotionAtBoundary_0_1 : ∃ (s : State), (s.dev.tk.phase = .ended) ∧ (s.dev.tk.peerStop = none) ∧ (s.dev.tk.linkStop = false) ∧ ((s.dev.tk.belay + 1) % max 1 s.dev.tk.pitches = 0) ∧ (s.dev.badShadows = []) := ⟨(st { ((inBelay .ended 1).wrAt R.EDGE.PRESENT_CFG_P 0 0 1) with arr := { up.arr with flagRows := [(1, 255)], shadowRows := [(0, 6)], stateRows := [(0, 3), (1, 7)] } }), by and_intros <;> decide +kernel⟩

theorem witness_EnvelopeIsSealed_0 : ∃ (s : State) (u : State) (c : Instr) (rest : List Instr), (s.pending = c :: rest) ∧ (step s = .next u) := ⟨({ State.reset with pending := [Instr.por] }), ({ State.reset with dev := State.reset.dev.por }), (.por), ([]), ⟨rfl, rfl⟩⟩

theorem witness_EnvelopeIsSealed_1 : ∃ (s : State) (u : State), (s.envelopeSealed = true) ∧ (step s = .next u) := ⟨(State.reset), ({ State.reset with dev := State.reset.dev.idleCycle }), ⟨by decide +kernel, rfl⟩⟩

theorem witness_EnvelopeIsSealed_2 : ∃ (s : State), (s.pending = []) := ⟨(st up), by decide +kernel⟩

theorem witness_MemoriesKeepForm_0 : ∃ (s : State) (u : State), (s.memoriesWf = true) ∧ (step s = .next u) := ⟨(State.reset), ({ State.reset with dev := State.reset.dev.idleCycle }), ⟨by decide +kernel, rfl⟩⟩

theorem witness_ItemNumbersRise_0 : ∃ (s : State) (u : State), (s.dev.itemsWf = true) ∧ (step s = .next u) := ⟨(State.reset), ({ State.reset with dev := State.reset.dev.idleCycle }), ⟨by decide +kernel, rfl⟩⟩

end Sys2Proof.Tests
end

/-! PROOFS. What a step on a queue with a command does, and what a register write of the host does (spec/00 R10, spec/12 R320, R321). -/

namespace Sys2Proof.Machine

/-- Settles O1, by the branch of `step` for a queue with a command at its front. -/
theorem stepRunsFront : Obligations.StepRunsFront := by
  unfold Obligations.StepRunsFront
  intro s c rest hq
  unfold step
  rw [hq]

/-! The bits that the types RW and W1C make of a field (R10). -/

/-- Taking away the bits that two numbers share is taking away the bits of the second. -/
theorem testBit_sub_and (a b j : Nat) : Nat.testBit (a - (a &&& b)) j = (Nat.testBit a j && !Nat.testBit b j) := by
  have h0 : (a &&& b) % 2 = 1 ↔ a % 2 = 1 ∧ b % 2 = 1 := Nat.and_mod_two_eq_one
  have hle : a &&& b ≤ a := Nat.and_le_left
  induction j generalizing a b with
  | zero =>
    have hbit : (a - (a &&& b)) % 2 = 1 ↔ a % 2 = 1 ∧ ¬ b % 2 = 1 := by omega
    simp only [Nat.testBit_zero, hbit, Bool.decide_and, decide_not]
  | succ j ih =>
    have hhalf : (a - (a &&& b)) / 2 = a / 2 - (a / 2 &&& b / 2) := by
      rw [← Nat.and_div_two]
      omega
    rw [Nat.testBit_succ, Nat.testBit_succ, Nat.testBit_succ, hhalf, ih _ _ Nat.and_mod_two_eq_one Nat.and_le_left]

/-- A field within the low 32 bits, after these have been replaced by `w`. -/
theorem putField_low_word (n w lo width : Nat) (h : lo + width ≤ 32) : putField n 0 32 w / 2 ^ lo % 2 ^ width = w / 2 ^ lo % 2 ^ width := by
  have hlow : putField n 0 32 w % 2 ^ 32 = w % 2 ^ 32 := by unfold putField; omega
  apply Nat.eq_of_testBit_eq
  intro j
  have hbit := congrArg (fun x => Nat.testBit x (j + lo)) hlow
  simp only [Nat.testBit_mod_two_pow, Nat.testBit_div_two_pow] at hbit ⊢
  by_cases hj : j < width
  · simpa [hj, show j + lo < 32 by omega] using hbit
  · simp [hj]

/-! A field takes its bits of word 0 of its register. -/

theorem Dev.rdAt_writeField_rw (d : Dev) (r : Reg) (n k w : Nat) (hr : r.lo + r.width ≤ 32) (hty : r.ty = .rw) :
    (d.writeField r n k 0 w).rdAt r n k = w / 2 ^ r.lo % 2 ^ r.width := by
  simp only [Dev.writeField, hty, Dev.rdAt_wrAt_same, Nat.mul_zero]
  exact putField_low_word _ w r.lo r.width hr

theorem Dev.testBit_writeField_w1c (d : Dev) (r : Reg) (n k w j : Nat) (hr : r.lo + r.width ≤ 32) (hty : r.ty = .w1c) :
    Nat.testBit ((d.writeField r n k 0 w).rdAt r n k) j = (decide (j < r.width) && Nat.testBit (d.rdAt r n k) j && !Nat.testBit w (r.lo + j)) := by
  simp only [Dev.writeField, hty, Dev.rdAt_wrAt_same, Nat.mul_zero, Nat.pow_zero, Nat.mul_one, Nat.testBit_mod_two_pow, testBit_sub_and, Nat.testBit_div_two_pow]
  by_cases hj : j < r.width
  · simp [hj, Nat.add_comm j r.lo, show r.lo + j < 32 by omega]
  · simp [hj]

theorem Dev.writeField_kept (d : Dev) (r : Reg) (n k i w : Nat) (hty : r.ty = .ro ∨ r.ty = .rc ∨ r.ty = .wo ∨ r.ty = .rwl) : d.writeField r n k i w = d := by
  obtain h | h | h | h := hty <;> simp only [Dev.writeField, h]

/-- The write of a field of any type stores nothing or that field. -/
theorem Dev.writeField_cases (d : Dev) (r : Reg) (n k i w : Nat) : d.writeField r n k i w = d ∨ ∃ v, d.writeField r n k i w = d.wrAt r n k v := by
  cases hty : r.ty with
  | ro | rc | wo | rwl => exact .inl (Dev.writeField_kept d r n k i w (by simp [hty]))
  | rw | w1c | w1s => right; simp only [Dev.writeField, hty]; exact ⟨_, rfl⟩

theorem Dev.rdAt_writeField_ne (d : Dev) {r q : Reg} {n k m j : Nat} (i w : Nat) (h : q.key m j ≠ r.key n k) :
    (d.writeField r n k i w).rdAt q m j = d.rdAt q m j := by
  obtain hd | ⟨v, hd⟩ := Dev.writeField_cases d r n k i w
  · rw [hd]
  · rw [hd, Dev.rdAt_wrAt_ne d v h]

/-! A write request to BAR0 (R321), by its length, its alignment and its byte enables. -/

theorem Dev.inReset_of_funcUp {d : Dev} {func : Nat} (h : d.funcUp func = true) : d.mg.inReset = false := by
  unfold Dev.funcUp at h
  simp at h
  exact h.1

theorem Dev.inReset_of_functionUp {d : Dev} {func : Nat} (h : d.functionUp func = true) : d.mg.inReset = false := by
  unfold Dev.functionUp at h
  simp at h
  exact h.1

theorem Dev.funcUp_of_inReset {d : Dev} (func : Nat) (h : d.mg.inReset = true) : d.funcUp func = false := by simp [Dev.funcUp, h]

theorem Dev.functionUp_of_inReset {d : Dev} (func : Nat) (h : d.mg.inReset = true) : d.functionUp func = false := by simp [Dev.functionUp, h]

section RegisterWrite

variable (d : Dev) (func off size be value t : Nat) (v : Envelope)

theorem Dev.busWrite_down (h : d.funcUp func = false) : d.busWrite func off size be value t v = d.toTime t := by
  simp [Dev.busWrite, h]

/-- Where the function answers, the write is counted, and its form is judged at that. -/
theorem Dev.busWrite_up (h : d.funcUp func = true) : d.busWrite func off size be value t v =
    if (size ≠ 4 ∧ size ≠ 8) ∨ off % size ≠ 0 then (d.atWrite t).wr R.PCIE.PCIE_STATUS_BAR0_ABORT 1
    else if be % 2 ^ size ≠ 2 ^ size - 1 then (d.atWrite t).wr R.PCIE.PCIE_STATUS_BAR0_PARTIAL 1
    else if size = 4 then (d.atWrite t).busWord func off (value % 2 ^ 32) t v
    else ((d.atWrite t).busWord func off (value % 2 ^ 32) t v).busWord func (off + 4) (value / 2 ^ 32 % 2 ^ 32) t v := by
  unfold Dev.busWrite
  dsimp only
  rw [Dev.funcUp_toTime, h]
  rfl

theorem Dev.busWrite_word (h : d.funcUp func = true) (ha : off % 4 = 0) (hb : be % 16 = 15) :
    d.busWrite func off 4 be value t v = (d.atWrite t).busWord func off (value % 2 ^ 32) t v := by
  rw [Dev.busWrite_up _ _ _ _ _ _ _ _ h]
  simp [ha, hb]

theorem Dev.busWrite_two_words (h : d.funcUp func = true) (ha : off % 8 = 0) (hb : be % 256 = 255) :
    d.busWrite func off 8 be value t v =
      ((d.atWrite t).busWord func off (value % 2 ^ 32) t v).busWord func (off + 4) (value / 2 ^ 32 % 2 ^ 32) t v := by
  rw [Dev.busWrite_up _ _ _ _ _ _ _ _ h]
  simp [ha, hb]

theorem Dev.busWrite_abort (h : d.funcUp func = true) (hs : size ≠ 4 ∧ size ≠ 8 ∨ off % size ≠ 0) :
    d.busWrite func off size be value t v = (d.atWrite t).wr R.PCIE.PCIE_STATUS_BAR0_ABORT 1 := by
  rw [Dev.busWrite_up _ _ _ _ _ _ _ _ h, if_pos hs]

theorem Dev.busWrite_partial (h : d.funcUp func = true) (hs : size = 4 ∨ size = 8) (ha : off % size = 0) (hb : be % 2 ^ size ≠ 2 ^ size - 1) :
    d.busWrite func off size be value t v = (d.atWrite t).wr R.PCIE.PCIE_STATUS_BAR0_PARTIAL 1 := by
  rw [Dev.busWrite_up _ _ _ _ _ _ _ _ h, if_neg (by omega), if_pos hb]

/-! Configuration space of a function that does not answer takes no write (spec/07 R182, R184). -/

theorem Dev.registerWrite_msixEnable_down (h : d.functionUp func = false) : d.registerWrite (.msixEnable func) size be value t v = d := by
  simp [Dev.registerWrite, h]

theorem Dev.registerWrite_bar2Size_down (h : d.functionUp 0 = false) : d.registerWrite .bar2Size size be value t v = d := by
  simp [Dev.registerWrite, h]

end RegisterWrite

/-! A register write as a command: the envelope unit goes with a device that the write has reset. -/

theorem exec_registerWrite (place : RegSpace) (size be value t : Nat) (s : State) :
    exec (.registerWrite place size be value t) s = s.onEnvelope fun d => d.registerWrite place size be value t s.envelope := rfl

/-- A command that leaves the device out of reset leaves the envelope unit as it is. -/
theorem State.onEnvelope_after {s : State} {f g : Dev → Dev} (h : f s.dev = g s.dev) (hg : (g s.dev).mg.inReset = false) : s.onEnvelope f = .next (s.after g) := by
  simp [State.onEnvelope, State.after, h, hg]

/-- A command that leaves the device in reset leaves the envelope unit blank. -/
theorem State.onEnvelope_inReset {s : State} {f : Dev → Dev} {d : Dev} (h : f s.dev = d) (hd : d.mg.inReset = true) :
    s.onEnvelope f = .next { s with dev := d, envelope := default } := by
  simp [State.onEnvelope, h, hd]

/-- A write to a place that takes none, of a device out of reset. -/
theorem exec_registerWrite_ignored {place : RegSpace} {size be value t : Nat} {s : State} (hr : s.dev.mg.inReset = false)
    (h : s.dev.registerWrite place size be value t s.envelope = s.dev) : exec (.registerWrite place size be value t) s = .next s :=
  (exec_registerWrite place size be value t s).trans (State.onEnvelope_after (g := id) h hr)

/-- Settles O36: the bits of a field by its type, then a write request to BAR0 by its form, then the writes to configuration space. -/
theorem registerWrites : Obligations.RegisterWrites := by
  unfold Obligations.RegisterWrites
  refine ⟨Dev.rdAt_writeField_rw, Dev.testBit_writeField_w1c, Dev.writeField_kept, fun d _ _ _ _ i w _ _ => Dev.rdAt_writeField_ne d i w,
    ?word, ?twoWords, ?abort, ?partly, ?down, ?msix, ?bar2, ?ignored, ?reset⟩
  case word =>
    intro s func off value t be hup ha hb
    simp only [exec_registerWrite, State.onEnvelope, Dev.registerWrite, Dev.busWrite_word _ _ _ _ _ _ _ hup ha hb]
  case twoWords =>
    intro s func off value t be d1 hup ha hb hd
    simp only [exec_registerWrite, State.onEnvelope, Dev.registerWrite, Dev.busWrite_two_words _ _ _ _ _ _ _ hup ha hb, hd]
  case abort =>
    intro s func off size value t be hup hs
    exact State.onEnvelope_after (Dev.busWrite_abort _ _ _ _ _ _ _ _ hup hs) (by simpa using Dev.inReset_of_funcUp hup)
  case partly =>
    intro s func off size value t be hup hs ha hb
    exact State.onEnvelope_after (Dev.busWrite_partial _ _ _ _ _ _ _ _ hup hs ha hb) (by simpa using Dev.inReset_of_funcUp hup)
  case down =>
    intro s func off size value t be hdown hr
    exact State.onEnvelope_after (Dev.busWrite_down _ _ _ _ _ _ _ _ hdown) (by simpa using hr)
  case msix =>
    intro s func size value t be hup
    exact State.onEnvelope_after (by simp [Dev.registerWrite, hup]) (Dev.inReset_of_functionUp hup)
  case bar2 =>
    intro s size value t be hup
    refine State.onEnvelope_after (by simp [Dev.registerWrite, hup]) ?_
    split_ifs <;> exact Dev.inReset_of_functionUp hup
  case ignored =>
    intro s func n size value t be reg hr
    exact ⟨exec_registerWrite_ignored hr rfl, fun hdown => exec_registerWrite_ignored hr (Dev.registerWrite_msixEnable_down _ _ _ _ _ _ _ hdown),
      fun hdown => exec_registerWrite_ignored hr (Dev.registerWrite_bar2Size_down _ _ _ _ _ _ hdown)⟩
  case reset =>
    intro s place size value t be hr
    cases place with
    | bar0 func off =>
      exact State.onEnvelope_inReset (Dev.busWrite_down _ _ _ _ _ _ _ _ (Dev.funcUp_of_inReset func hr)) (by simpa using hr)
    | msixEnable func =>
      exact State.onEnvelope_inReset (Dev.registerWrite_msixEnable_down _ _ _ _ _ _ _ (Dev.functionUp_of_inReset func hr)) hr
    | bar2Size => exact State.onEnvelope_inReset (Dev.registerWrite_bar2Size_down _ _ _ _ _ _ (Dev.functionUp_of_inReset 0 hr)) hr
    | config number reg => exact State.onEnvelope_inReset rfl hr

end Sys2Proof.Machine

/-! PROOFS. The extended Hamming code of stored words (spec/02 R40, R65, spec/03 R74). -/

namespace Sys2Proof.Machine

/-! One bit of a number. -/

theorem bitAt_eq_toNat (n i : Nat) : bitAt n i = (n.testBit i).toNat := (Nat.toNat_testBit n i).symm

theorem testBit_putBit (n i v j : Nat) : (putBit n i v).testBit j = if j = i then decide (v % 2 = 1) else n.testBit j := by
  have hput : putBit n i v = 2 ^ i * (2 ^ 1 * (n / 2 ^ (i + 1)) + v % 2) + n % 2 ^ i := by
    simp only [putBit, putField, Nat.pow_one]
    ring
  rw [hput, Nat.testBit_two_pow_mul_add _ (Nat.mod_lt _ (Nat.two_pow_pos i)), Nat.testBit_two_pow_mul_add _ (Nat.mod_lt v (by omega))]
  rcases Nat.lt_trichotomy j i with hj | rfl | hj
  · simp [hj, Nat.ne_of_lt hj, Nat.testBit_mod_two_pow]
  · simp [Nat.testBit_zero]
  · rw [if_neg (by omega), if_neg (by omega), if_neg (by omega), Nat.testBit_div_two_pow]
    congr 1
    omega

theorem bitAt_putBit (n i v j : Nat) : bitAt (putBit n i v) j = if j = i then v % 2 else bitAt n j := by
  simp only [bitAt_eq_toNat, testBit_putBit]
  split_ifs
  · rcases Nat.mod_two_eq_zero_or_one v with h | h <;> simp [h]
  · rfl

theorem putBit_flip (n k : Nat) : putBit n k (1 - bitAt n k) = n ^^^ 2 ^ k := by
  refine Nat.eq_of_testBit_eq fun j => ?_
  rw [testBit_putBit, Nat.testBit_xor, Nat.testBit_two_pow, bitAt_eq_toNat]
  split_ifs with h
  · subst h
    cases n.testBit j <;> simp
  · simp [Ne.symm h]

/-! Counting bits and folding positions (R40): both look at the lowest bits only, and both are linear over exclusive or. -/

theorem mod_two_pow_succ_mod_two (n w : Nat) : n % 2 ^ (w + 1) % 2 = n % 2 := Nat.mod_mod_of_dvd n (Dvd.intro_left (2 ^ w) rfl)

theorem mod_two_pow_succ_div_two (n w : Nat) : n % 2 ^ (w + 1) / 2 = n / 2 % 2 ^ w := by rw [Nat.pow_succ', Nat.mod_mul_right_div_self]

theorem popCount_mod (n w : Nat) : popCount (n % 2 ^ w) w = popCount n w := by
  induction w generalizing n with
  | zero => rfl
  | succ w ih =>
    simp only [popCount, mod_two_pow_succ_mod_two, mod_two_pow_succ_div_two, ih]

theorem popCount_append (n v w : Nat) : popCount n (v + w) = popCount n v + popCount (n / 2 ^ v) w := by
  induction v generalizing n with
  | zero => simp [popCount]
  | succ v ih =>
    have hdiv : n / 2 / 2 ^ v = n / 2 ^ (v + 1) := by rw [Nat.div_div_eq_div_mul, Nat.pow_succ']
    rw [Nat.add_right_comm, popCount, popCount, ih, hdiv, Nat.add_assoc]

theorem popCount_xor (a b w : Nat) : popCount (a ^^^ b) w % 2 = (popCount a w + popCount b w) % 2 := by
  induction w generalizing a b with
  | zero => rfl
  | succ w ih =>
    have hbit : (a ^^^ b) % 2 = (a + b) % 2 := Nat.xor_mod_two_eq
    have hrest := ih (a / 2) (b / 2)
    simp only [popCount, Nat.xor_div_two]
    omega

theorem popCount_zero (w : Nat) : popCount 0 w = 0 := by
  induction w with
  | zero => rfl
  | succ w ih => simp [popCount, ih]

theorem popCount_two_pow {p w : Nat} (h : p < w) : popCount (2 ^ p) w = 1 := by
  induction w generalizing p with
  | zero => omega
  | succ w ih =>
    cases p with
    | zero => simp [popCount, popCount_zero]
    | succ p => simp [popCount, Nat.pow_succ, ih (Nat.lt_of_succ_lt_succ h)]

theorem checkFold_mod (n k w : Nat) : checkFold (n % 2 ^ w) k w = checkFold n k w := by
  induction w generalizing n k with
  | zero => rfl
  | succ w ih =>
    simp only [checkFold, mod_two_pow_succ_mod_two, mod_two_pow_succ_div_two, ih]

theorem checkFold_xor (a b k w : Nat) : checkFold (a ^^^ b) k w = checkFold a k w ^^^ checkFold b k w := by
  induction w generalizing a b k with
  | zero => simp [checkFold]
  | succ w ih =>
    have hbit : (a ^^^ b) % 2 = (a + b) % 2 := Nat.xor_mod_two_eq
    have hfirst : (if (a ^^^ b) % 2 = 1 then dataPos k else 0) = (if a % 2 = 1 then dataPos k else 0) ^^^ (if b % 2 = 1 then dataPos k else 0) := by
      rcases Nat.mod_two_eq_zero_or_one a with ha | ha <;> rcases Nat.mod_two_eq_zero_or_one b with hb | hb <;> simp [hbit, Nat.add_mod, ha, hb]
    simp only [checkFold, Nat.xor_div_two, ih, hfirst]
    ac_rfl

theorem checkFold_zero (k w : Nat) : checkFold 0 k w = 0 := by
  induction w generalizing k with
  | zero => rfl
  | succ w ih => simp [checkFold, ih]

theorem checkFold_two_pow {p w : Nat} (k : Nat) (h : p < w) : checkFold (2 ^ p) k w = dataPos (k + p) := by
  induction w generalizing p k with
  | zero => omega
  | succ w ih =>
    cases p with
    | zero => simp [checkFold, checkFold_zero]
    | succ p => simp [checkFold, Nat.pow_succ, ih (k + 1) (Nat.lt_of_succ_lt_succ h), Nat.add_right_comm k 1 p, Nat.add_assoc]

/-! The positions of a codeword (R40). -/

/-- The data bits stand strictly between the check bits, in ascending order. -/
theorem dataPos_bands (k : Nat) :
    k < 1 ∧ dataPos k = k + 3 ∨ 1 ≤ k ∧ k < 4 ∧ dataPos k = k + 4 ∨ 4 ≤ k ∧ k < 11 ∧ dataPos k = k + 5 ∨
    11 ≤ k ∧ k < 26 ∧ dataPos k = k + 6 ∨ 26 ≤ k ∧ k < 57 ∧ dataPos k = k + 7 ∨ 57 ≤ k ∧ dataPos k = k + 8 := by
  unfold dataPos
  split_ifs <;> omega

/-- A position that holds a data bit holds no check bit. -/
theorem isCheckPos_dataPos (k : Nat) : (isCheckPos (dataPos k) || dataPos k == 0) = false := by
  have h := dataPos_bands k
  simp only [isCheckPos, Bool.or_eq_false_iff, beq_eq_false_iff_ne]
  omega

theorem posData_dataPos (k : Nat) : posData (dataPos k) = some k := by
  unfold posData
  rw [isCheckPos_dataPos, if_neg Bool.false_ne_true]
  obtain ⟨_, h⟩ | ⟨_, _, h⟩ | ⟨_, _, h⟩ | ⟨_, _, h⟩ | ⟨_, _, h⟩ | ⟨_, h⟩ := dataPos_bands k
  all_goals
    rw [h]
    split_ifs <;> exact congrArg some (by omega)

theorem posData_two_pow {i : Nat} (h : i < 7) : posData (2 ^ i) = none := by
  interval_cases i <;> rfl

theorem checkFold_lt {k w : Nat} (data : Nat) (h : k + w ≤ 120) : checkFold data k w < 2 ^ 7 := by
  induction w generalizing k data with
  | zero => simp [checkFold]
  | succ w ih =>
    have hpos := dataPos_bands k
    refine Nat.xor_lt_two_pow ?_ (ih _ (by omega))
    split_ifs <;> omega

/-- The position in the codeword of bit `p` of a stored word of `w` data bits: a data bit, one of c0 to c6, or c7, which has none (R40). -/
def storedPos (w p : Nat) : Nat := if p < w then dataPos p else if p < w + 7 then 2 ^ (p - w) else 0

theorem posData_storedPos (w p : Nat) : posData (storedPos w p) = if p < w then some p else none := by
  unfold storedPos
  split_ifs with hd hc
  · exact posData_dataPos p
  · exact posData_two_pow (by omega)
  · rfl

theorem storedPos_le {w p : Nat} (hw : 57 ≤ w) : storedPos w p ≤ w + 7 := by
  have hpos := dataPos_bands p
  unfold storedPos
  split_ifs with hd hc
  · omega
  · have : 2 ^ (p - w) ≤ 2 ^ 6 := Nat.pow_le_pow_right (by omega) (by omega)
    omega
  · omega

/-- No two stored bits have one position: that is what tells two errors from none. -/
theorem storedPos_inj {w j k : Nat} (hj : j < w + 8) (hk : k < w + 8) (h : storedPos w j = storedPos w k) : j = k := by
  have hdata := congrArg posData h
  rw [posData_storedPos, posData_storedPos] at hdata
  by_cases hjd : j < w
  · by_cases hkd : k < w <;> simp [hjd, hkd] at hdata
    exact hdata
  · by_cases hkd : k < w
    · simp [hjd, hkd] at hdata
    · simp only [storedPos, hjd, hkd, if_false] at h
      split_ifs at h with hj7 hk7 hk7
      · have := Nat.pow_right_injective (le_refl 2) h
        omega
      · exact absurd h (Nat.two_pow_pos _).ne'
      · exact absurd h.symm (Nat.two_pow_pos _).ne'
      · omega

/-! The syndrome of a stored word (R65): the fold of the positions of its 1s, and their parity. -/

/-- Syndrome bits 0 to 6: the stored check bits against those of the data. -/
def eccFold (w code : Nat) : Nat := (code / 2 ^ w % 128) ^^^ checkFold (code % 2 ^ w) 0 w

/-- Syndrome bit 7: the parity of all stored bits. -/
def eccParity (w code : Nat) : Nat := (parity (code % 2 ^ w) w + parity (code / 2 ^ w) 8) % 2

theorem decodeEcc_clean {w code : Nat} (hf : eccFold w code = 0) (hp : eccParity w code = 0) : decodeEcc w code = .clean (code % 2 ^ w) := by
  unfold eccFold at hf
  unfold eccParity at hp
  simp [decodeEcc, hf, hp]

theorem decodeEcc_bad {w code : Nat} (hf : eccFold w code ≠ 0) (hp : eccParity w code = 0) : ∃ x z, decodeEcc w code = .bad x z := by
  unfold eccFold at hf
  unfold eccParity at hp
  simp [decodeEcc, hf, hp]

theorem decodeEcc_data {w code k : Nat} (hf : posData (eccFold w code) = some k) (hle : eccFold w code ≤ w + 7) (hp : eccParity w code = 1) :
    decodeEcc w code = .corrected (putBit (code % 2 ^ w) k (1 - bitAt (code % 2 ^ w) k)) := by
  unfold eccFold at hf hle
  unfold eccParity at hp
  simp [decodeEcc, hf, hp, hle]

theorem decodeEcc_check {w code : Nat} (hf : posData (eccFold w code) = none) (hle : eccFold w code ≤ w + 7) (hp : eccParity w code = 1) :
    decodeEcc w code = .corrected (code % 2 ^ w) := by
  unfold eccFold at hf hle
  unfold eccParity at hp
  simp [decodeEcc, hf, hp, hle]

theorem eccParity_eq (w code : Nat) : eccParity w code = popCount code (w + 8) % 2 := by
  unfold eccParity parity
  rw [popCount_append, popCount_mod, ← Nat.add_mod]

theorem eccParity_xor (w a b : Nat) : eccParity w (a ^^^ b) = (eccParity w a + eccParity w b) % 2 := by
  simp only [eccParity_eq, popCount_xor, ← Nat.add_mod]

theorem eccParity_two_pow {w p : Nat} (h : p < w + 8) : eccParity w (2 ^ p) = 1 := by
  rw [eccParity_eq, popCount_two_pow h]

theorem eccFold_xor (w a b : Nat) : eccFold w (a ^^^ b) = eccFold w a ^^^ eccFold w b := by
  have hstored : (a ^^^ b) / 2 ^ w % 2 ^ 7 = (a / 2 ^ w % 2 ^ 7) ^^^ (b / 2 ^ w % 2 ^ 7) := by rw [Nat.xor_div_two_pow, Nat.xor_mod_two_pow]
  simp only [eccFold, checkFold_mod, checkFold_xor, show (128 : Nat) = 2 ^ 7 from rfl, hstored]
  ac_rfl

/-- A single 1 stands in the syndrome as its position. -/
theorem eccFold_two_pow {w p : Nat} (h : p < w + 8) : eccFold w (2 ^ p) = storedPos w p := by
  unfold eccFold storedPos
  rw [checkFold_mod]
  by_cases hd : p < w
  · rw [if_pos hd, checkFold_two_pow 0 hd, Nat.div_eq_of_lt (Nat.pow_lt_pow_right (by omega) hd)]
    simp
  · obtain ⟨i, rfl⟩ := Nat.exists_eq_add_of_le (Nat.le_of_not_lt hd)
    have hi : i < 8 := by omega
    have hfold : checkFold (2 ^ (w + i)) 0 w = 0 := by
      rw [← checkFold_mod, Nat.mod_eq_zero_of_dvd (pow_dvd_pow 2 (Nat.le_add_right w i)), checkFold_zero]
    rw [hfold, Nat.xor_zero, Nat.pow_add, Nat.mul_div_cancel_left _ (Nat.two_pow_pos w)]
    interval_cases i <;> simp

/-! A stored word with the check bits of its data. -/

theorem checkBits_fold {w : Nat} (data : Nat) (hw : w ≤ 120) : checkBits w data % 128 = checkFold data 0 w := by
  have hlt := checkFold_lt (k := 0) data (by omega : 0 + w ≤ 120)
  unfold checkBits
  dsimp only
  omega

theorem checkBits_parity {w : Nat} (data : Nat) (hw : w ≤ 120) :
    checkBits w data / 2 ^ 7 = (parity data w + parity (checkFold data 0 w) 7) % 2 := by
  have hlt := checkFold_lt (k := 0) data (by omega : 0 + w ≤ 120)
  unfold checkBits
  dsimp only
  omega

section Encode

variable {w data : Nat} (hd : data < 2 ^ w)
include hd

theorem encodeEcc_data : encodeEcc w data % 2 ^ w = data := by
  unfold encodeEcc
  rw [Nat.add_mul_mod_self_right, Nat.mod_mod, Nat.mod_eq_of_lt hd]

theorem encodeEcc_checkBits : encodeEcc w data / 2 ^ w = checkBits w data := by
  unfold encodeEcc
  rw [Nat.add_mul_div_right _ _ (Nat.two_pow_pos w), Nat.mod_eq_of_lt hd, Nat.div_eq_of_lt hd, Nat.zero_add]

theorem eccFold_encodeEcc (hw : w ≤ 120) : eccFold w (encodeEcc w data) = 0 := by
  rw [eccFold, encodeEcc_data hd, encodeEcc_checkBits hd, checkBits_fold data hw, Nat.xor_self]

theorem eccParity_encodeEcc (hw : w ≤ 120) : eccParity w (encodeEcc w data) = 0 := by
  have hcheck : popCount (checkBits w data) (7 + 1) = popCount (checkFold data 0 w) 7 + (parity data w + parity (checkFold data 0 w) 7) % 2 := by
    have hlow : checkBits w data % 2 ^ 7 = checkFold data 0 w := checkBits_fold data hw
    rw [popCount_append, checkBits_parity data hw, ← popCount_mod, hlow]
    simp [popCount]
  rw [eccParity, encodeEcc_data hd, encodeEcc_checkBits hd, parity, parity, hcheck]
  unfold parity
  omega

end Encode

/-- One flipped bit of a codeword: it is data, and is flipped back, or it is a check bit. -/
theorem decodeEcc_encodeEcc_flip {w data k : Nat} (hlo : 57 ≤ w) (hhi : w ≤ 120) (hd : data < 2 ^ w) (hk : k < w + 8) :
    decodeEcc w (encodeEcc w data ^^^ 2 ^ k) = .corrected data := by
  have hfold : eccFold w (encodeEcc w data ^^^ 2 ^ k) = storedPos w k := by
    rw [eccFold_xor, eccFold_encodeEcc hd hhi, eccFold_two_pow hk, Nat.zero_xor]
  have hpar : eccParity w (encodeEcc w data ^^^ 2 ^ k) = 1 := by rw [eccParity_xor, eccParity_encodeEcc hd hhi, eccParity_two_pow hk]
  have hle : eccFold w (encodeEcc w data ^^^ 2 ^ k) ≤ w + 7 := hfold ▸ storedPos_le hlo
  have hpos := (congrArg posData hfold).trans (posData_storedPos w k)
  by_cases hkd : k < w
  · rw [if_pos hkd] at hpos
    rw [decodeEcc_data hpos hle hpar, putBit_flip, Nat.xor_mod_two_pow, encodeEcc_data hd, Nat.mod_eq_of_lt (Nat.pow_lt_pow_right (by omega) hkd), Nat.xor_assoc,
      Nat.xor_self, Nat.xor_zero]
  · rw [if_neg hkd] at hpos
    rw [decodeEcc_check hpos hle hpar, Nat.xor_mod_two_pow, encodeEcc_data hd, Nat.mod_eq_zero_of_dvd (pow_dvd_pow 2 (Nat.le_of_not_lt hkd)), Nat.xor_zero]

/-- Two flipped bits of a codeword: the parity is even, and the positions do not cancel. -/
theorem decodeEcc_encodeEcc_flip_two {w data j k : Nat} (hhi : w ≤ 120) (hd : data < 2 ^ w) (hj : j < w + 8) (hk : k < w + 8) (hne : j ≠ k) :
    ∃ x z, decodeEcc w (encodeEcc w data ^^^ 2 ^ j ^^^ 2 ^ k) = .bad x z := by
  refine decodeEcc_bad ?_ ?_
  · rw [eccFold_xor, eccFold_xor, eccFold_encodeEcc hd hhi, eccFold_two_pow hj, eccFold_two_pow hk, Nat.zero_xor, Nat.xor_ne_zero_iff]
    exact fun h => hne (storedPos_inj hj hk h)
  · rw [eccParity_xor, eccParity_xor, eccParity_encodeEcc hd hhi, eccParity_two_pow hj, eccParity_two_pow hk]

/-- Settles O6: the syndrome of a codeword is 0, and each flipped bit adds its own position and an odd parity to it. -/
theorem secdedCode : Obligations.SecdedCode := by
  unfold Obligations.SecdedCode
  intro w data hw hd
  have hlo : 57 ≤ w := by omega
  have hhi : w ≤ 120 := by omega
  refine ⟨?clean, ?one, ?two⟩
  case clean => rw [decodeEcc_clean (eccFold_encodeEcc hd hhi) (eccParity_encodeEcc hd hhi), encodeEcc_data hd]
  case one => exact fun k hk => decodeEcc_encodeEcc_flip hlo hhi hd hk
  case two => exact fun j k hj hk hne => decodeEcc_encodeEcc_flip_two hhi hd hj hk hne

end Sys2Proof.Machine

/-! PROOFS. What a Boolean processor does with the word that it fetches (spec/02 R43 to R67). -/

namespace Sys2Proof.Machine

/-! Stores of bits. -/

theorem SMap.bitGet_bitSet (m : SMap Nat) (i v j : Nat) : SMap.bitGet (SMap.bitSet m i v) j = if j = i then v % 2 else SMap.bitGet m j := by
  unfold SMap.bitGet SMap.bitSet
  rw [SMap.get_set]
  by_cases hrow : j / 8 = i / 8
  · have hbit : j % 8 = i % 8 ↔ j = i := by omega
    simp only [hrow, if_true, bitAt_putBit, hbit]
  · rw [if_neg hrow, if_neg fun h => hrow (congrArg (· / 8) h)]

/-! The row of a word, and its command. -/

theorem wordMode_lt_of_not_reserved {w : Nat} (h : wordReserved w = false) : wordMode w < 0xD := by
  simp only [wordReserved, Bool.or_eq_false_iff, decide_eq_false_iff_not] at h
  omega

theorem EccResult.row_le (f : EccResult) : f.row ≤ 0xD := by
  have hword : ∀ w, (if wordReserved w = true then 0xD else wordMode w) ≤ 0xD := by
    intro w
    split_ifs with h
    · exact le_refl _
    · exact (wordMode_lt_of_not_reserved (Bool.eq_false_iff.mpr h)).le
  cases f with
  | bad w z => exact Nat.min_le_right _ _
  | clean w => exact hword w
  | corrected w => exact hword w

/-- The command of a word is a step of its BP, where the part has the BP. -/
theorem exec_wordCommand (row bp : Nat) (s : State) : exec (wordCommand row bp) s = s.onUnit (bp < s.dev.bps) (Dev.bpStep (min row 0xD) bp) := by
  by_cases hrow : row ≤ 0xC
  · interval_cases row <;> rfl
  · obtain ⟨n, rfl⟩ := Nat.exists_eq_add_of_le' (Nat.lt_of_not_le hrow)
    rw [Nat.min_eq_right (by omega)]
    rfl

/-- The command of the row that a BP yet to act fetches runs the BP. -/
theorem exec_wordCommand_hit {s : State} {row bp : Nat} (h : s.dev.toAct bp = true) (hrow : (s.dev.fetch bp s.dev.tk.step).row = row) :
    exec (wordCommand row bp) s = .next (s.after fun d => d.runBp bp) := by
  have hle : row ≤ 0xD := hrow ▸ EccResult.row_le _
  rw [exec_wordCommand, Nat.min_eq_left hle]
  exact State.onUnit_after (decide_eq_true (Dev.toAct_bps _ _ h)) (Dev.bpStep_hit _ _ _ h hrow)

theorem exec_wordCommand_miss {s : State} {row bp : Nat} (hle : row ≤ 0xD) (hbp : bp < s.dev.bps)
    (h : s.dev.toAct bp = false ∨ (s.dev.fetch bp s.dev.tk.step).row ≠ row) : exec (wordCommand row bp) s = .next s := by
  rw [exec_wordCommand, Nat.min_eq_left hle, State.onUnit_next s _ (decide_eq_true hbp), Dev.bpStep_miss _ _ _ h]

/-! What a BP does with the word that it has fetched. -/

/-- BP `bp` has fetched: it has acted, and a correction is counted and raises the event of its G4 (spec/02 R65). -/
def Dev.fetched (bp : Nat) (f : EccResult) (d : Dev) : Dev :=
  match f with
  | .corrected _ => ((d.actedBy bp).count (bp / 4096) 6 1).event (0x040 + bp / 4096)
  | .clean _ | .bad _ _ => d.actedBy bp

theorem Dev.runBp_pass {d : Dev} {bp : Nat} {f : EccResult} (hf : d.fetch bp d.tk.step = f) (h : d.fetchFaults bp f = []) :
    d.runBp bp = (d.fetched bp f).runWord bp d.tk.step f.word := by
  subst hf
  unfold Dev.runBp
  dsimp only
  rw [h]
  unfold Dev.fetched Dev.actedBy
  cases d.fetch bp d.tk.step <;> rfl

theorem Dev.runBp_faults {d : Dev} {bp : Nat} {f : EccResult} (hf : d.fetch bp d.tk.step = f) (h : d.fetchFaults bp f ≠ []) :
    d.runBp bp = (d.fetched bp f).addFaults (d.fetchFaults bp f) := by
  subst hf
  unfold Dev.runBp
  dsimp only
  split
  · exact absurd ‹_› h
  · unfold Dev.fetched Dev.actedBy
    cases d.fetch bp d.tk.step <;> rfl

/-- The command of a word that passes the checks of its fetch runs the word. -/
theorem exec_wordCommand_pass {s : State} {bp : Nat} {f : EccResult} (h : s.dev.toAct bp = true) (hf : s.dev.fetch bp s.dev.tk.step = f) (hp : s.dev.fetchFaults bp f = []) :
    exec (wordCommand f.row bp) s = .next (s.after fun d => (d.fetched bp f).runWord bp d.tk.step f.word) :=
  (exec_wordCommand_hit h (congrArg EccResult.row hf)).trans (congrArg _ (State.after_congr (Dev.runBp_pass hf hp)))

/-- The command of a word that fails a check of its fetch leaves the records of the failed checks. -/
theorem exec_wordCommand_faults {s : State} {bp : Nat} {f : EccResult} (h : s.dev.toAct bp = true) (hf : s.dev.fetch bp s.dev.tk.step = f) (hp : s.dev.fetchFaults bp f ≠ []) :
    exec (wordCommand f.row bp) s = .next (s.after fun d => (d.fetched bp f).addFaults (d.fetchFaults bp f)) :=
  (exec_wordCommand_hit h (congrArg EccResult.row hf)).trans (congrArg _ (State.after_congr (Dev.runBp_faults hf hp)))

theorem Dev.fetches_iff {d : Dev} {bp w : Nat} : d.fetches bp w = true ↔ d.toAct bp = true ∧ d.fetch bp d.tk.step = .clean w := by
  unfold Dev.fetches
  rw [Bool.and_eq_true, decide_eq_true_eq]

/-- A word that passes the checks of its fetch is of the row of its MODE. -/
theorem Dev.row_of_fetchFaults {d : Dev} {bp w : Nat} (h : d.fetchFaults bp (.clean w) = []) : (EccResult.clean w).row = wordMode w :=
  if_neg (Bool.eq_false_iff.mp (Dev.fetchFaults_reserved d bp w h))

/-- The command of a word that stands with fitting check bits and passes the checks of its fetch runs the word. -/
theorem exec_wordCommand_clean {s : State} {bp w : Nat} (h : s.dev.fetches bp w = true) (hp : s.dev.fetchFaults bp (.clean w) = []) :
    exec (wordCommand (wordMode w) bp) s = .next (s.after fun d => (d.actedBy bp).runWord bp d.tk.step w) := by
  obtain ⟨hact, hf⟩ := Dev.fetches_iff.mp h
  rw [← Dev.row_of_fetchFaults hp]
  exact exec_wordCommand_pass hact hf hp

/-! The word in its step, by the first of the ends that it meets. -/

section RunWord

variable {d : Dev} {bp s w : Nat}

theorem Dev.runWord_nop (h0 : wordMode w = 0) : d.runWord bp s w = d := by simp [Dev.runWord, h0]

variable (h0 : wordMode w ≠ 0)
include h0

theorem Dev.runWord_readFaults (hr : (d.result bp s w).2 ≠ []) : d.runWord bp s w = d.addFaults (d.result bp s w).2 := by
  simp [Dev.runWord, h0, hr]

theorem Dev.runWord_overBudget (hr : (d.result bp s w).2 = []) (hb : d.overBudget (bp / 4096) s = true) : d.runWord bp s w = d := by
  simp [Dev.runWord, h0, hr, hb]

variable {r : Nat} (hr : d.result bp s w = (r, [])) (hb : d.overBudget (bp / 4096) s = false)
include hr hb

theorem Dev.runWord_actFaults (ha : d.actFaults bp w r ≠ []) :
    d.runWord bp s w = (d.addFaults (d.actFaults bp w r)).addActs (wordAct bp w r false) := by
  simp [Dev.runWord, h0, hr, hb, ha]

theorem Dev.runWord_acts (ha : d.actFaults bp w r = []) :
    d.runWord bp s w = (d.ownWrites bp s w r).addActs (⟨.nbr, bp, bp, r, true⟩ :: wordAct bp w r true) := by
  simp [Dev.runWord, h0, hr, hb, ha]

end RunWord

/-- The command of a word that has its full effect: its own entries and its staged actions. -/
theorem exec_wordCommand_acts {s : State} {bp w r : Nat} (h : s.dev.fetches bp w = true) (hp : s.dev.fetchFaults bp (.clean w) = []) (h0 : wordMode w ≠ 0)
    (hr : s.dev.result bp s.dev.tk.step w = (r, [])) (hb : s.dev.overBudget (bp / 4096) s.dev.tk.step = false) (ha : s.dev.actFaults bp w r = []) :
    exec (wordCommand (wordMode w) bp) s = .next (s.after fun d =>
      ((d.actedBy bp).ownWrites bp d.tk.step w r).addActs (⟨.nbr, bp, bp, r, true⟩ :: wordAct bp w r true)) :=
  (exec_wordCommand_clean h hp).trans <| congrArg _ <| State.after_congr <|
    Dev.runWord_acts h0 ((Dev.actedBy_result ..).trans hr) ((Dev.actedBy_overBudget ..).trans hb) ((Dev.actedBy_actFaults ..).trans ha)

/-- What `Dev.evaluates` asks, with the operand reads as the one result that they give. -/
theorem Dev.evaluates_result {d : Dev} {bp w a b c e : Nat} (h : d.evaluates bp w a b c e = true) :
    d.fetches bp w = true ∧ d.fetchFaults bp (.clean w) = [] ∧ d.result bp d.tk.step w = (wordResult w a b c e, []) ∧
      d.overBudget (bp / 4096) d.tk.step = false ∧ d.actFaults bp w (wordResult w a b c e) = [] := by
  unfold Dev.evaluates at h
  simp only [Bool.and_eq_true, decide_eq_true_eq, Bool.not_eq_true'] at h
  obtain ⟨⟨⟨⟨⟨⟨⟨hf, hp⟩, ha⟩, hb⟩, hc⟩, he⟩, hbudget⟩, hact⟩ := h
  refine ⟨hf, hp, ?_, hbudget, hact⟩
  simp only [Dev.result, ha, hb, hc, he, List.append_nil]
  rfl

/-- The shadow write of a word whose MODE commits; any other leaves the shadows as they are (spec/02 R53). -/
def Dev.commits (bp w r : Nat) (d : Dev) : Dev := if wordMode w = 3 ∨ wordMode w = 4 then d.shadowed bp (commitEntry w) r else d

theorem Dev.entered_of_ownWrites (d : Dev) (bp w r : Nat) (as : List Act) :
    ((d.actedBy bp).ownWrites bp d.tk.step w r).addActs (⟨.nbr, bp, bp, r, true⟩ :: as) = (d.commits bp w r).entered bp r as := by
  unfold Dev.ownWrites Dev.commits
  split_ifs <;> rfl

/-- The command of a word that evaluates. -/
theorem exec_wordCommand_evaluates {s : State} {bp w a b c e : Nat} (h : s.dev.evaluates bp w a b c e = true) (h0 : wordMode w ≠ 0) :
    exec (wordCommand (wordMode w) bp) s = .next (s.after fun d =>
      (d.commits bp w (wordResult w a b c e)).entered bp (wordResult w a b c e) (wordAct bp w (wordResult w a b c e) true)) := by
  obtain ⟨hf, hp, hr, hb, ha⟩ := Dev.evaluates_result h
  rw [exec_wordCommand_acts hf hp h0 hr hb ha]
  exact congrArg _ (State.after_congr (Dev.entered_of_ownWrites ..))

/-- The command of a word that evaluates, of a MODE `m` that commits nothing and takes the actions `as`. -/
theorem exec_evaluates_act {s : State} {bp w a b c e m : Nat} {as : List Act} (h : s.dev.evaluates bp w a b c e = true) (hm : wordMode w = m)
    (hne : m ≠ 0 ∧ m ≠ 3 ∧ m ≠ 4) (has : wordAct bp w (wordResult w a b c e) true = as) :
    exec (wordCommand m bp) s = .next (s.after (Dev.entered bp (wordResult w a b c e) as)) := by
  subst hm has
  obtain ⟨h0, h3, h4⟩ := hne
  rw [exec_wordCommand_evaluates h h0]
  exact congrArg _ (State.after_congr (by rw [Dev.commits, if_neg (by omega)]))

/-- The command of a word that evaluates, of a MODE `m` that commits to state entry `k` and takes the actions `as`. -/
theorem exec_evaluates_commit {s : State} {bp w a b c e m k : Nat} {as : List Act} (h : s.dev.evaluates bp w a b c e = true) (hm : wordMode w = m)
    (hc : m = 3 ∨ m = 4) (hk : commitEntry w = k) (has : wordAct bp w (wordResult w a b c e) true = as) :
    exec (wordCommand m bp) s = .next (s.after fun d => (d.shadowed bp k (wordResult w a b c e)).entered bp (wordResult w a b c e) as) := by
  subst hm hk has
  rw [exec_wordCommand_evaluates h (by omega)]
  exact congrArg _ (State.after_congr (by rw [Dev.commits, if_pos hc]))

/-- Settles O2: NOP ends the word at once, and the other three are words that evaluate. -/
theorem wordWritesItsEntries : Obligations.WordWritesItsEntries := by
  unfold Obligations.WordWritesItsEntries
  refine ⟨?nop, ?eval, ?commit, ?commitDrive⟩
  case nop =>
    intro s bp w hf hp h0
    have hrun := exec_wordCommand_clean hf hp
    rw [h0] at hrun
    exact hrun.trans (congrArg _ (State.after_congr (Dev.runWord_nop h0)))
  case eval =>
    intro s bp w a b c e h hm
    exact exec_evaluates_act h hm (by decide) (by simp [wordAct, hm])
  case commit =>
    intro s bp w a b c e h hm
    exact exec_evaluates_commit h hm (by decide) (by simp [commitEntry, hm]) (by simp [wordAct, hm])
  case commitDrive =>
    intro s bp w a b c e h hm
    exact exec_evaluates_commit h hm (by decide) (by simp [commitEntry, hm]) (by simp [wordAct, driveLane, hm])

/-- Settles O3: each MODE is a word that evaluates, with the action that `wordAct` gives the MODE. -/
theorem wordStagesSharedAction : Obligations.WordStagesSharedAction := by
  unfold Obligations.WordStagesSharedAction
  refine ⟨?evalDrive, ?memAddr, ?memWdata, ?memGo, ?farAddr, ?farData, ?farGo, ?edgeOut, ?probe⟩
  all_goals intro s bp w a b c e h hm
  all_goals exact exec_evaluates_act h hm (by decide) (by simp [wordAct, driveLane, hm])

/-- A BP that has entered its result holds it in the step entry of the step, and every other step entry as before. -/
theorem Dev.stepEntry_entered (d : Dev) (bp r i j : Nat) (as : List Act) :
    (d.entered bp r as).stepEntry i j = if i * 2048 + j = bp * 2048 + d.tk.step then r % 2 else d.stepEntry i j :=
  SMap.bitGet_bitSet d.arr.stepRows (bp * 2048 + d.tk.step) r (i * 2048 + j)

theorem Dev.stepEntry_commits (d : Dev) (bp w r i j : Nat) : (d.commits bp w r).stepEntry i j = d.stepEntry i j := by
  unfold Dev.commits
  split_ifs <;> rfl

theorem Dev.commits_step (d : Dev) (bp w r : Nat) : (d.commits bp w r).tk.step = d.tk.step := by
  unfold Dev.commits
  split_ifs <;> rfl

/-- Settles O5: every word that evaluates enters its result, and a shadow write touches no step entry. -/
theorem resultIsTruthTable : Obligations.ResultIsTruthTable := by
  unfold Obligations.ResultIsTruthTable
  intro s bp w a b c e h h0
  refine ⟨_, exec_wordCommand_evaluates h h0, ?own, fun i j hij => ?other⟩
  case own =>
    refine (Dev.stepEntry_entered ..).trans ?_
    rw [Dev.commits_step, if_pos rfl]
    exact Nat.mod_mod _ 2
  case other =>
    refine (Dev.stepEntry_entered ..).trans ?_
    rw [Dev.commits_step, if_neg hij, Dev.stepEntry_commits]

/-- Where no bits but those of MODE are amiss, RESERVED_MODE is the only record of a word of MODE 0xD to 0xF (spec/02 R46, R533). -/
theorem Dev.fetchFaults_reservedMode (d : Dev) {bp w : Nat} (hm : 0xD ≤ wordMode w) (hr : wordRsvd w = 0) (ha : wordAux w = 0) :
    d.fetchFaults bp (.clean w) = [d.bpFault 0x20 bp (wordMode w)] := by
  have haux : auxBad w = false := by simp [auxBad, ha]
  have hclass : actualClass w = none := by
    have hlt : wordMode w < 2 ^ 4 := Nat.mod_lt _ (by decide)
    obtain h | h | h : wordMode w = 0xD ∨ wordMode w = 0xE ∨ wordMode w = 0xF := by omega
    all_goals simp [actualClass, h]
  have hres : wordReserved w = true := by simp [wordReserved, hm]
  simp [Dev.fetchFaults, hclass, Nat.not_lt.mpr hm, hres, hr, haux, bit]

/-- Settles O4: by the first check that stops the word, from its fetch to its action. -/
theorem wordFaults : Obligations.WordFaults := by
  unfold Obligations.WordFaults
  refine ⟨?bad, ?reserved, ?fetchFaults, ?corrected, ?correctedFaults, ?readFaults, ?overBudget, ?actFaults, ?miss, ?noUnit⟩
  case bad =>
    intro s bp w z h hf
    exact exec_wordCommand_faults h hf (List.cons_ne_nil _ _)
  case reserved =>
    intro s bp w h hm hr ha
    obtain ⟨hact, hf⟩ := Dev.fetches_iff.mp h
    have hrow : (EccResult.clean w).row = 0xD := by simp [EccResult.row, wordReserved, hm]
    have hfault := Dev.fetchFaults_reservedMode s.dev (bp := bp) hm hr ha
    have hexec := exec_wordCommand_faults hact hf (hfault ▸ List.cons_ne_nil _ _)
    rw [hrow] at hexec
    refine hexec.trans (congrArg _ (State.after_congr ?_))
    rw [hfault]
    rfl
  case fetchFaults =>
    intro s bp w h hp
    obtain ⟨hact, hf⟩ := Dev.fetches_iff.mp h
    exact exec_wordCommand_faults hact hf hp
  case corrected =>
    intro s bp w h hf hp
    rw [← Dev.row_of_fetchFaults hp]
    exact exec_wordCommand_pass (f := .corrected w) h hf hp
  case correctedFaults =>
    intro s bp w h hf hp
    exact exec_wordCommand_faults (f := .corrected w) h hf hp
  case readFaults =>
    intro s bp w h hp h0 hr
    refine (exec_wordCommand_clean h hp).trans (congrArg _ (State.after_congr ?_))
    rw [← Dev.actedBy_result _ bp] at hr ⊢
    exact Dev.runWord_readFaults h0 hr
  case overBudget =>
    intro s bp w h hp h0 hr hb
    refine (exec_wordCommand_clean h hp).trans (congrArg _ (State.after_congr ?_))
    rw [← Dev.actedBy_result _ bp] at hr
    rw [← Dev.actedBy_overBudget _ bp] at hb
    exact Dev.runWord_overBudget h0 hr hb
  case actFaults =>
    intro s bp w r h hp h0 hr hb ha
    refine (exec_wordCommand_clean h hp).trans (congrArg _ (State.after_congr ?_))
    rw [← Dev.actedBy_result _ bp] at hr
    rw [← Dev.actedBy_overBudget _ bp] at hb
    rw [← Dev.actedBy_actFaults _ bp] at ha ⊢
    exact Dev.runWord_actFaults h0 hr hb ha
  case miss => exact fun s row bp hle hbp h => exec_wordCommand_miss hle hbp h
  case noUnit =>
    intro s row bp hbp
    rw [exec_wordCommand, State.onUnit_fault s _ (decide_eq_false (Nat.not_lt.mpr hbp))]

end Sys2Proof.Machine

/-! PROOFS. Belays: their entry, conditions, release, timeout and tick edge (spec/04 R94 to R121). -/

namespace Sys2Proof.Machine

/-! A command that leaves the device as it is leaves the state as it is. -/

theorem State.onDev_unchanged {s : State} {f : Dev → Dev} (h : f s.dev = s.dev) : s.onDev f = .next s := State.onDev_after (g := id) h

theorem State.onUnit_unchanged {s : State} {c : Bool} {f : Dev → Dev} (hc : c = true) (h : f s.dev = s.dev) : s.onUnit c f = .next s :=
  State.onUnit_after (g := id) hc h

/-! While time goes on, only the timers of the sequencer count. -/

theorem Dev.elapse_timers (d : Dev) (dt : Nat) : ∃ w f l, (d.elapse dt).tk = { d.tk with waited := w, farWaited := f, wdLeft := l } := ⟨_, _, _, rfl⟩

theorem Dev.passJump_timers (d : Dev) (dt : Nat) : ∃ w f l, (d.passJump dt).tk = { d.tk with waited := w, farWaited := f, wdLeft := l } := by
  unfold Dev.passJump
  split
  · split_ifs
    · rw [Dev.makeJump_tk]
      exact Dev.elapse_timers d _
    · exact ⟨_, _, _, rfl⟩
  · exact ⟨_, _, _, rfl⟩

theorem Dev.toTime_timers (d : Dev) (t : Nat) : ∃ w f l, (d.toTime t).tk = { d.tk with waited := w, farWaited := f, wdLeft := l } := by
  obtain ⟨_, _, _, hjump⟩ := Dev.passJump_timers d (d.timeTo t)
  obtain ⟨_, _, _, helapse⟩ := Dev.elapse_timers (d.passJump (d.timeTo t)) ((d.passJump (d.timeTo t)).timeTo t)
  rw [hjump] at helapse
  exact ⟨_, _, _, helapse⟩

@[simp] theorem Dev.toTime_hold (d : Dev) (t : Nat) : (d.toTime t).tk.hold = d.tk.hold := by
  obtain ⟨_, _, _, h⟩ := Dev.toTime_timers d t
  rw [h]

@[simp] theorem Dev.toTime_release (d : Dev) (t : Nat) : (d.toTime t).tk.release = d.tk.release := by
  obtain ⟨_, _, _, h⟩ := Dev.toTime_timers d t
  rw [h]

@[simp] theorem Dev.toTime_ticks (d : Dev) (t : Nat) : (d.toTime t).tk.ticks = d.tk.ticks := by
  obtain ⟨_, _, _, h⟩ := Dev.toTime_timers d t
  rw [h]

@[simp] theorem Dev.linked_toTime (d : Dev) (t : Nat) : (d.toTime t).linked = d.linked := by
  unfold Dev.linked
  rw [Dev.toTime_ld]

@[simp] theorem Dev.isMaster_toTime (d : Dev) (t : Nat) : (d.toTime t).isMaster = d.isMaster := by
  unfold Dev.isMaster
  rw [Dev.linked_toTime, Dev.on_toTime]

/-! The array cycle of the banks touches no register but their DROP_COUNT (spec/05 R132). -/

/-- What no element of a list changes, the whole list leaves as it is. -/
theorem forAll_keeps {α β γ : Type} (g : α → γ) (f : β → α → α) (h : ∀ b a, g (f b a) = g a) (l : List β) (a : α) : g (forAll l f a) = g a := by
  unfold forAll
  induction l generalizing a with
  | nil => rfl
  | cons b l ih => exact (ih (f b a)).trans (h b a)

@[simp] theorem Dev.accRead_regs (d : Dev) (key : Nat) : (d.accRead key).regs = d.regs := by
  unfold Dev.accRead
  split
  · rfl
  · split_ifs <;> rfl

section BankCycles

variable {q : Reg} {m j : Nat} (h : ∀ g, q.key m j ≠ R.BANK.DROP_COUNT.key g 0)
include h

theorem Dev.rdAt_accWrite (d : Dev) (key : Nat) : (d.accWrite key).rdAt q m j = d.rdAt q m j := by
  unfold Dev.accWrite
  split
  · rfl
  · split_ifs
    · rfl
    · dsimp only
      split
      · split_ifs
        · exact Dev.rdAt_bumpAt_ne _ (h _)
        · rfl
      · rfl

theorem Dev.rdAt_bankCycle (d : Dev) (g : Nat) : (d.bankCycle g).rdAt q m j = d.rdAt q m j :=
  (forAll_keeps (Dev.rdAt · q m j) _ (fun key d => Dev.rdAt_accWrite h d key) _ _).trans
    (Dev.rdAt_congr (forAll_keeps Dev.regs _ (fun key d => Dev.accRead_regs d key) _ _) q m j)

theorem Dev.rdAt_bankCycles (d : Dev) : d.bankCycles.rdAt q m j = d.rdAt q m j :=
  forAll_keeps (Dev.rdAt · q m j) _ (fun g d => Dev.rdAt_bankCycle h d g) _ _

end BankCycles

/-- The run goes on while the accesses in progress are made and their data delivered. -/
theorem Dev.running_bankCycles_deliverReads (d : Dev) : d.bankCycles.deliverReads.running = d.running := by
  have hkey : ∀ g, R.RUN.RUN_STATUS_STATE.key 0 0 ≠ R.BANK.DROP_COUNT.key g 0 := by
    intro g
    simp only [Reg.key, R.RUN.RUN_STATUS_STATE, R.BANK.DROP_COUNT]
    omega
  have hstate : d.bankCycles.deliverReads.runState = d.runState := Dev.rdAt_bankCycles hkey d
  unfold Dev.running
  rw [hstate]

/-! The entry of a belay (R94, R105). -/

section BelayEntry

variable {d : Dev}

theorem Dev.belayEntry_not_ended (h : d.tk.phase ≠ .ended) : d.belayEntry = d := if_pos h

variable (h : d.tk.phase = .ended)
include h

theorem Dev.belayEntry_peerStop {p : Nat} (hp : d.tk.peerStop = some p) : d.belayEntry = d.bankCycles.deliverReads.peerStopped p := by
  simp [Dev.belayEntry, h, hp]

theorem Dev.belayEntry_linkStop (hp : d.tk.peerStop = none) (hl : d.tk.linkStop = true) : d.belayEntry = d.bankCycles.deliverReads.linkStopped := by
  simp [Dev.belayEntry, h, hp, hl]

variable (hp : d.tk.peerStop = none) (hl : d.tk.linkStop = false)
include hp hl

/-- Between two pitches of a take the next belay opens, the array still running. -/
theorem Dev.belayEntry_next (hr : d.running = true) (hb : (d.tk.belay + 1) % max 1 d.tk.pitches ≠ 0) :
    d.belayEntry =
      (let d0 := d.bankCycles.deliverReads
       { d0 with tk := { d0.tk with belay := (d.tk.belay + 1) % max 1 d.tk.pitches, phase := .waiting, waits := 0 } }.openBelay) := by
  have hrun := (Dev.running_bankCycles_deliverReads d).trans hr
  unfold Dev.belayEntry
  simp only [h, hp, hl, ne_eq, not_true_eq_false, if_false, Bool.false_eq_true, hb]
  exact if_pos hrun

/-- After the last pitch comes the take boundary, and belay 0 opens where the array still runs. -/
theorem Dev.belayEntry_boundary (hb : (d.tk.belay + 1) % max 1 d.tk.pitches = 0) :
    d.belayEntry =
      (let d0 := d.bankCycles.deliverReads
       let d2 := { d0 with tk := { d0.tk with belay := 0, phase := .waiting, waits := 0 } }.takeBoundary
       if d2.running then d2.openBelay else d2) := by
  unfold Dev.belayEntry
  simp only [h, hp, hl, hb, ne_eq, not_true_eq_false, if_false, Bool.false_eq_true, if_true]

end BelayEntry

theorem Dev.takeBoundary_eq (d : Dev) : d.takeBoundary = if d.badShadows = [] then d.closeTake else d.faultStop (orderFaults d.badShadows) := by
  unfold Dev.takeBoundary
  split
  · rename_i hnone
    rw [if_pos hnone]
  · rename_i hsome
    rw [if_neg hsome]

/-! The conditions of a belay (R104). -/

theorem Dev.rewait_waiting {d : Dev} (h : d.tk.phase = .waiting) : d.rewait = { d with tk := { d.tk with waits := d.unmet } } := if_pos h

theorem Dev.rewait_not_waiting {d : Dev} (h : d.tk.phase ≠ .waiting) : d.rewait = d := if_neg h

theorem Dev.belayDone_iff (d : Dev) : d.belayDone = true ↔
    d.tk.phase = .waiting ∧ d.tk.waits = 0 ∧ d.tk.hold ≤ d.mono ∧ d.stealDue = false ∧ ¬ (d.tk.belay = 0 ∧ 16 ≤ d.edge.present.length) := by
  unfold Dev.belayDone
  simp only [Bool.and_eq_true, Bool.not_eq_true', Bool.and_eq_false_iff, decide_eq_true_eq, decide_eq_false_iff_not, and_assoc, not_and_or]

/-- The same of a belay whose conditions have just been evaluated. -/
theorem Dev.rewait_belayDone_iff (d : Dev) : d.rewait.belayDone = true ↔
    d.tk.phase = .waiting ∧ d.unmet = 0 ∧ d.tk.hold ≤ d.mono ∧ d.rewait.stealDue = false ∧ ¬ (d.tk.belay = 0 ∧ 16 ≤ d.edge.present.length) := by
  rw [Dev.belayDone_iff]
  by_cases hw : d.tk.phase = .waiting
  · rw [Dev.rewait_waiting hw]
  · rw [Dev.rewait_not_waiting hw]
    simp only [hw, false_and]

theorem Dev.conditionsMet_done {d : Dev} {t : Nat} (hw : d.tk.phase = .waiting) (hu : (d.toTime t).unmet = 0) (hd : (d.toTime t).rewait.belayDone = true) :
    d.conditionsMet t =
      (let d1 := d.toTime t
       let d2 := { d1 with tk := { d1.tk with waits := 0, phase := .met } }
       if d2.linked then d2.sendReady else d2) := by
  unfold Dev.conditionsMet
  dsimp only
  rw [if_pos hd, Dev.rewait_waiting ((Dev.toTime_phase d t).trans hw), hu]

theorem Dev.conditionsMet_not_done {d : Dev} {t : Nat} (hd : ¬ (d.toTime t).rewait.belayDone = true) : d.conditionsMet t = d := if_neg hd

/-- Settles O10: BELAY_ENTRY by the stop that waits and by the pitch that has ended, BELAY_CONDITIONS_MET by what a belay waits for. -/
theorem belayEntryAndConditions : Obligations.BelayEntryAndConditions := by
  unfold Obligations.BelayEntryAndConditions
  refine ⟨?next, ?boundary, ?peerStop, ?linkStop, ?notEnded, ?met, ?notMet⟩
  case next =>
    intro s b h hp hl hr hb hne
    subst hb
    exact State.onDev_after (Dev.belayEntry_next h hp hl hr hne)
  case boundary =>
    intro s h hp hl hb
    refine State.onDev_after ((Dev.belayEntry_boundary h hp hl hb).trans ?_)
    simp only [Dev.takeBoundary_eq]
  case peerStop => exact fun s p h hp => State.onDev_after (Dev.belayEntry_peerStop h hp)
  case linkStop => exact fun s h hp hl => State.onDev_after (Dev.belayEntry_linkStop h hp hl)
  case notEnded => exact fun s h => State.onDev_unchanged (Dev.belayEntry_not_ended h)
  case met =>
    intro s t hw hu hh hs hb
    refine State.onDev_after (Dev.conditionsMet_done hw hu ((Dev.rewait_belayDone_iff _).mpr ?_))
    simp only [Dev.toTime_phase, Dev.toTime_hold, Dev.toTime_belay, Dev.toTime_edge]
    exact ⟨hw, hu, hh, hs, fun ⟨h0, hfull⟩ => absurd (hb h0) (by omega)⟩
  case notMet =>
    intro s t h
    refine State.onDev_unchanged (Dev.conditionsMet_not_done fun hd => ?_)
    obtain ⟨hw, hu, hh, hs, hb⟩ := (Dev.rewait_belayDone_iff _).mp hd
    simp only [Dev.toTime_phase, Dev.toTime_hold, Dev.toTime_belay, Dev.toTime_edge] at hw hh hb
    obtain hw' | hu' | hh' | hs' | hb' := h
    · exact hw' hw
    · exact hu' hu
    · omega
    · exact absurd (hs.symm.trans hs') (by decide)
    · exact hb hb'

/-! Cycle k of a belay (R105, R118). -/

theorem Dev.runRelease_step (d : Dev) : d.runRelease.tk.step = fieldAt (d.mapEntry d.tk.belay) 0 11 := rfl

theorem Dev.releaseDue_iff (d : Dev) : d.releaseDue = true ↔ d.tk.phase = .met ∧ (d.linked = false ∨ ∃ r, d.tk.release = some r ∧ r ≤ d.now) := by
  simp [Dev.releaseDue, Option.any_eq_true]

theorem Dev.belayRelease_due {d : Dev} {t : Nat} (h : (d.toTime t).releaseDue = true) : d.belayRelease t = (d.toTime t).runRelease := if_pos h

theorem Dev.belayRelease_not_due {d : Dev} {t : Nat} (h : ¬ (d.toTime t).releaseDue = true) : d.belayRelease t = d := if_neg h

/-! The timer of a belay (R116, R117). -/

/-- The timer of the belay counts and has reached TIMEOUT, and this is not the belay before take 0. -/
def Dev.timedOut (d : Dev) : Prop :=
  d.timerCounts = true ∧ fieldAt (d.mapEntry d.tk.belay) 24 10 * usec ≤ d.tk.waited ∧ (d.tk.belay ≠ 0 ∨ d.rd R.TAKE.TAKE_NUMBER ≠ 0)

theorem Dev.belayTimeout_timedOut {d : Dev} {t : Nat} (h : (d.toTime t).timedOut) : d.belayTimeout t = (d.toTime t).faultStop [(d.toTime t).timeoutRecord] := by
  obtain ⟨hc, hw, h0⟩ := h
  refine if_pos ?_
  simp only [hc, hw, decide_true, Bool.and_self, Bool.true_and, Bool.not_eq_true', Bool.and_eq_false_iff, decide_eq_false_iff_not]
  exact h0

theorem Dev.belayTimeout_not_timedOut {d : Dev} {t : Nat} (h : ¬ (d.toTime t).timedOut) : d.belayTimeout t = d := by
  refine if_neg fun hc => h ?_
  simp only [Bool.and_eq_true, decide_eq_true_eq, Bool.not_eq_true', Bool.and_eq_false_iff, decide_eq_false_iff_not] at hc
  obtain ⟨⟨hc, hw⟩, h0⟩ := hc
  exact ⟨hc, hw, h0⟩

/-! The tick edge of locked mode (R109 to R112). -/

section TickEdge

variable {d : Dev} {t : Nat}

theorem Dev.tickEdge_none (h : d.tk.ticks = []) : d.tickEdge t = d := by
  simp [Dev.tickEdge, h]

variable {u : Nat} {f : Fate} {rest : List (Nat × Fate)} (h : d.tk.ticks = (u, f) :: rest)
include h

theorem Dev.tickEdge_reached (he : (d.toTime t).edgeReached u = true) (hm : d.isMaster = true) :
    d.tickEdge t =
      (let d1 := d.toTime t
       let d2 := { d1 with tk := { d1.tk with ticks := rest } }
       (if f = .starts then { d2 with tk := { d2.tk with tick := some u } } else d2.missTick u f).rewait) := by
  simp [Dev.tickEdge, h, he, hm]

theorem Dev.tickEdge_not_reached (hn : (d.toTime t).edgeReached u = false ∨ d.isMaster = false) : d.tickEdge t = d := by
  obtain he | hm := hn
  · simp [Dev.tickEdge, h, he]
  · simp [Dev.tickEdge, h, hm]

end TickEdge

/-- Settles O11: each of the three commands by whether its instant has come. -/
theorem belayReleaseTimeoutTick : Obligations.BelayReleaseTimeoutTick := by
  unfold Obligations.BelayReleaseTimeoutTick
  refine ⟨?release, ?noRelease, ?timeout, ?noTimeout, ?tick, ?noTick⟩
  case release =>
    intro s t hm hr
    have hdue : (s.dev.toTime t).releaseDue = true := (Dev.releaseDue_iff _).mpr (by simpa using ⟨hm, hr⟩)
    refine ⟨_, State.onDev_after (Dev.belayRelease_due hdue), rfl, rfl, ?_, rfl, rfl, rfl⟩
    refine (Dev.runRelease_step _).trans ?_
    rw [Dev.toTime_belay]
  case noRelease =>
    intro s t h
    refine State.onDev_unchanged (Dev.belayRelease_not_due fun hdue => ?_)
    obtain ⟨hm, hr⟩ := (Dev.releaseDue_iff _).mp hdue
    simp only [Dev.toTime_phase, Dev.linked_toTime, Dev.toTime_release] at hm hr
    obtain hm' | ⟨hl, hrel⟩ := h
    · exact hm' hm
    · obtain hl' | ⟨r, hr, hle⟩ := hr
      · exact absurd (hl.symm.trans hl') (by decide)
      · obtain hnone | ⟨r', hr', hlt⟩ := hrel
        · exact absurd (hr.symm.trans hnone) (Option.some_ne_none r)
        · obtain rfl := Option.some.inj (hr.symm.trans hr')
          omega
  case timeout =>
    intro s t hc hw h0
    exact State.onDev_after (Dev.belayTimeout_timedOut ⟨hc, by simpa using hw, by simpa using h0⟩)
  case noTimeout =>
    intro s t h
    refine State.onDev_unchanged (Dev.belayTimeout_not_timedOut fun hout => ?_)
    obtain ⟨hc, hw, h0⟩ := hout
    rw [Dev.toTime_belay] at hw h0
    rw [Dev.rd_toTime] at h0
    obtain hc' | hw' | ⟨hb, hn⟩ := h
    · exact absurd (hc.symm.trans hc') (by decide)
    · omega
    · omega
  case tick => exact fun s t u f rest h he hm => State.onDev_after (Dev.tickEdge_reached h he hm)
  case noTick =>
    intro s t h
    refine State.onDev_unchanged ?_
    obtain hnone | ⟨u, f, rest, h, hn⟩ := h
    · exact Dev.tickEdge_none hnone
    · exact Dev.tickEdge_not_reached h hn

end Sys2Proof.Machine

/-! PROOFS. The messages of the belay handshake, of a start, and of LOWRATE (spec/04 R97, R118 to R121, spec/11 R301, R303, R314). -/

namespace Sys2Proof.Machine

/-! A port that does not carry messages takes none. -/

section Silent

variable {d : Dev} {p : Nat} (h : d.portTalks p = false)
include h

theorem Dev.recvReady_silent (belay take origin : Nat) : d.recvReady p belay take origin = d := by simp [Dev.recvReady, h]

theorem Dev.recvRelease_silent (belay instant resp take : Nat) : d.recvRelease p belay instant resp take = d := by simp [Dev.recvRelease, h]

theorem Dev.recvStop_silent (origin take code : Nat) : d.recvStop p origin take code = d := by simp [Dev.recvStop, h]

theorem Dev.recvStartCheck_silent (digest mhz : Nat) : d.recvStartCheck p digest mhz = d := by simp [Dev.recvStartCheck, h]

theorem Dev.recvLowrateReq_silent : d.recvLowrateReq p = d := by simp [Dev.recvLowrateReq, h]

theorem Dev.recvLowrateAck_silent : d.recvLowrateAck p = d := by simp [Dev.recvLowrateAck, h]

theorem Dev.recvFullrateReq_silent : d.recvFullrateReq p = d := by simp [Dev.recvFullrateReq, h]

end Silent

/-! A message that has been passed on before does nothing more (R303). -/

section Passed

variable {d : Dev} (p : Nat)

theorem Dev.recvReady_passed {belay take origin : Nat} (h : d.tk.passed.contains (0x20, belay, take, origin) = true) : d.recvReady p belay take origin = d :=
  if_neg (by simp only [h, Bool.not_true, Bool.and_false, Bool.false_eq_true, not_false_eq_true])

theorem Dev.recvRelease_passed {belay take : Nat} (instant resp : Nat) (h : d.tk.passed.contains (0x21, belay, take, 0) = true) :
    d.recvRelease p belay instant resp take = d :=
  if_neg (by simp only [h, Bool.not_true, Bool.and_false, Bool.false_eq_true, not_false_eq_true])

theorem Dev.recvRelease_master (belay instant resp take : Nat) (h : d.isMaster = true) : d.recvRelease p belay instant resp take = d :=
  if_neg (by simp only [h, Bool.not_true, Bool.and_false, Bool.false_and, Bool.false_eq_true, not_false_eq_true])

theorem Dev.recvStop_passed {origin take code : Nat} (h : d.tk.passed.contains (0x22, code, take, origin) = true) : d.recvStop p origin take code = d :=
  if_neg (by simp only [h, Bool.not_true, Bool.and_false, Bool.false_eq_true, not_false_eq_true])

end Passed

/-! A message of the handshake that a port brings for the first time (R118 to R121). -/

/-- RELEASE has been passed on: what the device does where it stands (R118, R120). -/
def Dev.takeRelease (belay instant resp take : Nat) (d : Dev) : Dev :=
  if d.running && decide (d.tk.belay = belay) && decide (d.rd R.TAKE.TAKE_NUMBER % 65536 = take) && (decide (d.tk.phase = .waiting) || decide (d.tk.phase = .met)) then
    if resp = 1 ∧ belay = 0 then d.requestHalt 7 (d.rd R.TIME.TIME_STATUS_MASTER_POS)
    else { d with tk := { d.tk with release := some (d.instantOf (d.fromMaster instant)), closingResp := resp } }
  else d

theorem Dev.takeRelease_eq (belay instant resp take : Nat) (d : Dev) :
    d.takeRelease belay instant resp take =
      if d.running = true ∧ d.tk.belay = belay ∧ d.rd R.TAKE.TAKE_NUMBER % 65536 = take ∧ (d.tk.phase = .waiting ∨ d.tk.phase = .met) then
        if resp = 1 ∧ belay = 0 then d.requestHalt 7 (d.rd R.TIME.TIME_STATUS_MASTER_POS)
        else { d with tk := { d.tk with release := some (d.instantOf (d.fromMaster instant)), closingResp := resp } }
      else d :=
  if_congr (by simp only [Bool.and_eq_true, Bool.or_eq_true, decide_eq_true_eq, and_assoc]) rfl rfl

/-- STOP goes on: from the master and from upstream to the other ports, and from elsewhere toward the master (R121). -/
def Dev.passStop (p origin take code : Nat) (d : Dev) : Dev :=
  let d0 := d.passOnce (0x22, code, take, origin)
  if d0.isMaster || d0.isUpstream p then d0.sendAllBut p 0x22 (leBytes origin 1 ++ leBytes take 6 ++ leBytes code 1)
  else d0.queueMessage (d0.rd R.TIME.TIME_STATUS_UPSTREAM_PORT) 0x22 (leBytes origin 1 ++ leBytes take 6 ++ leBytes code 1)

theorem Dev.passStop_eq (p origin take code : Nat) (d : Dev) :
    d.passStop p origin take code =
      (let d0 := d.passOnce (0x22, code, take, origin)
       if d.isMaster = true ∨ d.isUpstream p = true then d0.sendAllBut p 0x22 (leBytes origin 1 ++ leBytes take 6 ++ leBytes code 1)
       else d0.queueMessage (d.rd R.TIME.TIME_STATUS_UPSTREAM_PORT) 0x22 (leBytes origin 1 ++ leBytes take 6 ++ leBytes code 1)) :=
  if_congr Bool.or_eq_true_iff rfl rfl

/-- STOP has been passed on: what the device does where it stands (R121, spec/16 R412). -/
def Dev.takeStop (origin take code : Nat) (d : Dev) : Dev :=
  if !d.running then d
  else if code = 0 then d.requestHalt 5 origin
  else if d.frozen then
    if d.tk.belay = 0 ∧ take + 1 = d.rd R.TAKE.TAKE_NUMBER then d.undoBoundary.peerStopped origin else d.peerStopped origin
  else { d with tk := { d.tk with peerStop := some origin } }

theorem Dev.takeStop_eq (origin take code : Nat) (d : Dev) :
    d.takeStop origin take code =
      if d.running = false then d else if code = 0 then d.requestHalt 5 origin
      else if d.tk.phase = .stepping then { d with tk := { d.tk with peerStop := some origin } }
      else if d.tk.belay = 0 ∧ take + 1 = d.rd R.TAKE.TAKE_NUMBER then d.undoBoundary.peerStopped origin else d.peerStopped origin := by
  unfold Dev.takeStop
  refine if_congr (Iff.of_eq (Bool.not_eq_true' _)) rfl (if_congr Iff.rfl rfl ?_)
  by_cases hstep : d.tk.phase = .stepping
  · simp only [Dev.frozen, hstep, ne_eq, not_true_eq_false, decide_false, Bool.false_eq_true, if_false, if_true]
  · simp only [Dev.frozen, hstep, ne_eq, not_false_eq_true, decide_true, if_true, if_false]

section FirstTime

variable {d : Dev} {p : Nat} (h : d.portTalks p = true)
include h

theorem Dev.recvReady_first {belay take origin : Nat} (hk : d.tk.passed.contains (0x20, belay, take, origin) = false) :
    d.recvReady p belay take origin =
      (let d1 := d.passOnce (0x20, belay, take, origin)
       if d.isMaster then { d1 with tk := { d1.tk with ready := readyKey origin belay take :: d1.tk.ready } }.masterRelease
       else d1.queueMessage (d.rd R.TIME.TIME_STATUS_UPSTREAM_PORT) 0x20 (leBytes belay 1 ++ leBytes take 4 ++ leBytes origin 1)) :=
  if_pos (by simp only [h, hk, Bool.not_false, Bool.and_self])

theorem Dev.recvRelease_first {belay take : Nat} (instant resp : Nat) (hm : d.isMaster = false) (hk : d.tk.passed.contains (0x21, belay, take, 0) = false) :
    d.recvRelease p belay instant resp take =
      ((d.passOnce (0x21, belay, take, 0)).sendAllBut p 0x21 (leBytes belay 1 ++ leBytes instant 8 ++ leBytes resp 1 ++ leBytes take 2)).takeRelease
        belay instant resp take :=
  if_pos (by simp only [h, hm, hk, Bool.not_false, Bool.and_self])

theorem Dev.recvStop_first {origin take code : Nat} (hk : d.tk.passed.contains (0x22, code, take, origin) = false) :
    d.recvStop p origin take code = (d.passStop p origin take code).takeStop origin take code :=
  if_pos (by simp only [h, hk, Bool.not_false, Bool.and_self])

end FirstTime

/-! START_CHECK (R97, R303). -/

@[simp] theorem Dev.port_setPort (d : Dev) (p : Nat) (f : Port → Port) : (d.setPort p f).port p = f (d.port p) := SMap.get_set_same d.ports p _

theorem Dev.scheduleDigest_setPort (d : Dev) (p : Nat) (f : Port → Port) : (d.setPort p f).scheduleDigest = d.scheduleDigest := rfl

/-- A peer whose START_CHECK has just come agrees where its digest and its step clock are the device's own. -/
theorem Dev.peerAgrees_setPort (d : Dev) (p digest mhz : Nat) :
    (d.setPort p fun q => { q with peerDigest := some digest, peerStep := mhz }).peerAgrees p = true ↔ digest = d.scheduleDigest ∧ mhz = d.rd R.CLK.STEP_MHZ := by
  unfold Dev.peerAgrees
  rw [Dev.port_setPort]
  simp only [Bool.and_eq_true, beq_iff_eq]
  rfl

theorem Dev.recvStartCheck_talks {d : Dev} {p : Nat} (digest mhz : Nat) (h : d.portTalks p = true) :
    d.recvStartCheck p digest mhz =
      (let d1 := d.setPort p fun q => { q with peerDigest := some digest, peerStep := mhz }
       if d.linked = false ∨ digest = d.scheduleDigest ∧ mhz = d.rd R.CLK.STEP_MHZ then d1 else d1.report (d1.linkFault 0x64 3 p 0 0) false) := by
  refine (if_pos h).trans (if_congr ?_ rfl rfl)
  rw [Bool.or_eq_true, Bool.not_eq_true', Dev.peerAgrees_setPort]
  rfl

theorem Dev.heldStart_eq (d : Dev) : d.heldStart = if d.tk.startHeld = true ∧ (∀ p ∈ d.checkPorts, (d.port p).peerDigest.isSome = true) then d.tryStart else d :=
  if_congr (by rw [Bool.and_eq_true, List.all_eq_true]) rfl rfl

/-! LOWRATE (R314). -/

section Lowrate

variable {d : Dev} {p : Nat} (h : d.portTalks p = true)
include h

theorem Dev.recvLowrateReq_talks :
    d.recvLowrateReq p =
      if d.running = true ∨ d.portState p ≠ 6 then d.setPort p fun q => { q with peerLow := true }
      else ((d.setPort p fun q => { q with peerLow := true }).setPort p fun q => { q with lowAck := true }).queueMessage p 0x31 [] := if_pos h

theorem Dev.recvLowrateAck_talks : d.recvLowrateAck p = if (d.port p).lowReq then d.enterClockLock p (d.port p).version true else d := by
  simp only [Dev.recvLowrateAck, h, Bool.true_and]

theorem Dev.recvFullrateReq_talks :
    d.recvFullrateReq p =
      if d.portState p ≠ 7 then d
      else if d.rd R.POWER.PWR_STATUS_STATE = 2 then d.setPort p fun q => { q with peerLow := false }
      else (d.setPort p fun q => { q with peerLow := false }).enterClockLock p (d.port p).version false := by
  by_cases h7 : d.portState p = 7
  · refine (if_pos (by simp only [h, h7, beq_self_eq_true, Bool.and_self])).trans ?_
    dsimp only
    rw [if_neg (not_not_intro h7), Dev.port_setPort]
    rfl
  · rw [if_pos h7]
    exact if_neg (by simp [h7])

end Lowrate

/-- Settles O35: each message by whether its port carries it and whether it has been passed on before. -/
theorem runMessages : Obligations.RunMessages := by
  unfold Obligations.RunMessages
  refine ⟨?ready, ?release, ?stop, ?startCheck, Dev.heldStart_eq, ?lowrate, ?silent, ?passed, ?noUnit⟩
  case ready => exact fun s p belay take origin hp h hk => State.onUnit_after (decide_eq_true hp) (Dev.recvReady_first h hk)
  case release =>
    intro s p belay instant resp take d1 hp h hm hk hd
    refine State.onUnit_after (decide_eq_true hp) ((Dev.recvRelease_first h instant resp hm hk).trans ?_)
    rw [← hd, Dev.takeRelease_eq]
  case stop =>
    intro s p origin take code d1 hp h hk hd
    have hpass : s.dev.passStop p origin take code = d1 := (Dev.passStop_eq ..).trans hd.symm
    refine State.onUnit_after (decide_eq_true hp) ((Dev.recvStop_first h hk).trans ?_)
    rw [hpass, Dev.takeStop_eq]
  case startCheck =>
    intro s p digest mhz hp h
    exact State.onUnit_after (decide_eq_true hp) (congrArg Dev.heldStart (Dev.recvStartCheck_talks digest mhz h))
  case lowrate =>
    intro s p hp h
    refine ⟨State.onUnit_after (decide_eq_true hp) (Dev.recvLowrateReq_talks h), ?ack, State.onUnit_after (decide_eq_true hp) (Dev.recvFullrateReq_talks h)⟩
    case ack =>
      refine (State.onUnit_after (decide_eq_true hp) (g := fun d => if (d.port p).lowReq then d.enterClockLock p (d.port p).version true else d)
        (Dev.recvLowrateAck_talks h)).trans ?_
      by_cases hreq : (s.dev.port p).lowReq = true
      · simp [State.after, hreq]
      · simp [State.after, hreq]
  case silent =>
    intro s p a b c e hp h
    have unchanged {f : Dev → Dev} (hf : f s.dev = s.dev) := State.onUnit_unchanged (decide_eq_true hp) hf
    exact ⟨unchanged (Dev.recvReady_silent h a b c), unchanged (Dev.recvRelease_silent h a b c e), unchanged (Dev.recvStop_silent h a b c),
      State.onUnit_after (decide_eq_true hp) (congrArg Dev.heldStart (Dev.recvStartCheck_silent h a b)),
      unchanged (Dev.recvLowrateReq_silent h), unchanged (Dev.recvLowrateAck_silent h), unchanged (Dev.recvFullrateReq_silent h)⟩
  case passed =>
    intro s p a b c e hp
    have unchanged {f : Dev → Dev} (hf : f s.dev = s.dev) := State.onUnit_unchanged (decide_eq_true hp) hf
    exact ⟨fun h => unchanged (Dev.recvReady_passed p h), fun h => unchanged (Dev.recvRelease_passed p b c h),
      fun h => unchanged (Dev.recvRelease_master p a b c e h), fun h => unchanged (Dev.recvStop_passed p h)⟩
  case noUnit =>
    intro s p a b c e hp
    have noUnit (f : Dev → Dev) : s.onUnit (p < 8) f = .fault .noSuchUnit := State.onUnit_fault s f (decide_eq_false (Nat.not_lt.mpr hp))
    exact ⟨noUnit _, noUnit _, noUnit _, noUnit _, noUnit _, noUnit _, noUnit _⟩

end Sys2Proof.Machine

/-! PROOFS. Every step keeps the canonical form of the addressed memories (spec/05 R126, spec/07 R177, spec/08 R220, spec/13 R353, spec/14 R374).

Each function of the model that answers a device has one lemma here, under the function's own name: it keeps the form.  A proof term repeats the function's
definition, its last operation first: `.wr <| .event h` for a register write after an event.  The few functions that do write a memory end in the lemmas of
`SMap` that say so (`SMap.wf_set`, `SMap.wf_store`, `SMap.wf_clear`); of all others the lemma says no more than that they are made of such functions. -/

namespace Sys2Proof.Machine

/-- Every addressed memory of the device is in canonical form. -/
structure Dev.Formed (d : Dev) : Prop where
  mem : SMap.wf d.ddr.mem = true
  banks : SMap.wf d.arr.banks = true
  bmem : SMap.wf d.edge.bmem = true
  sram : SMap.wf d.eng.sram = true
  flash : SMap.wf d.mg.flash = true

namespace Dev.Formed

/- Hundreds of short proofs, elaborated one after another: side by side they ask for more stacks than the memory of the check holds. -/
set_option Elab.async false

/-! How the form passes through what the functions are written in: record updates, branches, pairs and folds. -/

/-- A record update of a device that leaves its memories alone: the one field that no update writes, `part`, says which device it is an update of. -/
theorem same {d : Dev} {now mono regs latch mirrorLatch evRaised evEnable evRoute arr tk trc mg ld edge pins clk ports host ddr eng net dbg out freeCtr}
    (h : d.Formed)
    (hm : (ddr.mem, arr.banks, edge.bmem, eng.sram, mg.flash) = (d.ddr.mem, d.arr.banks, d.edge.bmem, d.eng.sram, d.mg.flash) := by with_reducible rfl) :
    Dev.Formed ⟨d.part, now, mono, regs, latch, mirrorLatch, evRaised, evEnable, evRoute, arr, tk, trc, mg, ld, edge, pins, clk, ports, host, ddr, eng, net, dbg,
      out, freeCtr⟩ := by
  simp only [Prod.mk.injEq] at hm
  obtain ⟨h1, h2, h3, h4, h5⟩ := hm
  exact ⟨h1 ▸ h.mem, h2 ▸ h.banks, h3 ▸ h.bmem, h4 ▸ h.sram, h5 ▸ h.flash⟩

theorem ite {c : Prop} [Decidable c] {a b : Dev} (ha : a.Formed) (hb : b.Formed) : (if c then a else b).Formed := by split <;> assumption

theorem ite_snd {c : Prop} [Decidable c] {α : Type} {a b : α × Dev} (ha : a.2.Formed) (hb : b.2.Formed) : (if c then a else b).2.Formed := by split <;> assumption

theorem ite_snd_snd {c : Prop} [Decidable c] {α β : Type} {a b : α × β × Dev} (ha : a.2.2.Formed) (hb : b.2.2.Formed) : (if c then a else b).2.2.Formed := by
  split <;> assumption

theorem ite_fst {c : Prop} [Decidable c] {α : Type} {a b : Dev × α} (ha : a.1.Formed) (hb : b.1.Formed) : (if c then a else b).1.Formed := by split <;> assumption

theorem pair {α : Type} {x : α × Dev} {a : α} {d : Dev} (hx : x = (a, d)) (h : x.2.Formed) : d.Formed := by rw [hx] at h; exact h

theorem trip {α β : Type} {x : α × β × Dev} {a : α} {b : β} {d : Dev} (hx : x = (a, b, d)) (h : x.2.2.Formed) : d.Formed := by rw [hx] at h; exact h

theorem foldl {α : Type} {f : Dev → α → Dev} {l : List α} {d : Dev} (hf : ∀ {e a}, e.Formed → (f e a).Formed) (h : d.Formed) : (l.foldl f d).Formed :=
  List.foldlRecOn l f h fun _ he _ _ => hf he

theorem foldl_snd {α β : Type} {f : β × Dev → α → β × Dev} {l : List α} {x : β × Dev} (hf : ∀ {y a}, y.2.Formed → (f y a).2.Formed) (h : x.2.Formed) :
    (l.foldl f x).2.Formed :=
  List.foldlRecOn (motive := fun y => y.2.Formed) l f h fun _ hy _ _ => hf hy

theorem foldl_snd_snd {α β γ : Type} {f : β × γ × Dev → α → β × γ × Dev} {l : List α} {x : β × γ × Dev} (hf : ∀ {y a}, y.2.2.Formed → (f y a).2.2.Formed)
    (h : x.2.2.Formed) : (l.foldl f x).2.2.Formed :=
  List.foldlRecOn (motive := fun y => y.2.2.Formed) l f h fun _ hy _ _ => hf hy

theorem forAll {α : Type} {f : α → Dev → Dev} {l : List α} {d : Dev} (hf : ∀ {a e}, e.Formed → (f a e).Formed) (h : d.Formed) : (forAll l f d).Formed :=
  .foldl hf h

theorem forUpto {f : Nat → Dev → Dev} {n : Nat} {d : Dev} (hf : ∀ {i e}, e.Formed → (f i e).Formed) (h : d.Formed) : (forUpto n f d).Formed :=
  .foldl hf h

/-! The named operations over the registers, memories and outputs of the device. -/

theorem wrAt {d : Dev} {r : Reg} {n k v : Nat} (h : d.Formed) : (d.wrAt r n k v).Formed := .same h

theorem wr {d : Dev} {r : Reg} {v : Nat} (h : d.Formed) : (d.wr r v).Formed := .wrAt h

theorem bumpAt {d : Dev} {r : Reg} {n k : Nat} (h : d.Formed) : (d.bumpAt r n k).Formed := .wrAt h

theorem bump {d : Dev} {r : Reg} (h : d.Formed) : (d.bump r).Formed := .bumpAt h

theorem count {d : Dev} {u k n : Nat} (h : d.Formed) : (d.count u k n).Formed := .wrAt h

theorem emit {d : Dev} {o : Out} (h : d.Formed) : (d.emit o).Formed := .same h

theorem free {d : Dev} {w : Nat} (h : d.Formed) : (d.free w).2.Formed := .same h

theorem elapse {d : Dev} {dt : Nat} (h : d.Formed) : (d.elapse dt).Formed := .same h

theorem makeJump {j : Jump} {d : Dev} (h : d.Formed) : (d.makeJump j).Formed := .same h

theorem passJump {d : Dev} {dt : Nat} (h : d.Formed) : (d.passJump dt).Formed := by
  unfold Dev.passJump
  split
  · exact .ite (.makeJump <| .elapse h) h
  · exact h

theorem advance {d : Dev} {dt : Nat} (h : d.Formed) : (d.advance dt).Formed := .elapse <| .passJump h

theorem setAddend {v : Nat} {d : Dev} (h : d.Formed) : (d.setAddend v).Formed := .wr <| .same h

theorem toTime {d : Dev} {t : Nat} (h : d.Formed) : (d.toTime t).Formed := .elapse <| .passJump h

theorem cycle {d : Dev} (h : d.Formed) : d.cycle.Formed := .advance h

theorem when {d : Dev} {c : Bool} {f : Dev → Dev} (h : d.Formed) (hf : ∀ {e}, e.Formed → (f e).Formed) : (d.when c f).Formed := .ite (hf h) h

theorem stageLow {key v : Nat} {d : Dev} (h : d.Formed) : (d.stageLow key v).Formed := .same h

theorem unstage {key : Nat} {d : Dev} (h : d.Formed) : (d.unstage key).Formed := .same h

/-! The Dunhus stream of the trace unit (spec/17). -/

theorem streamOut {d : Dev} {bs : Bytes} (h : d.Formed) : (d.streamOut bs).Formed := .count <| .same h

theorem tracePacket {d : Dev} {bs : Bytes} (h : d.Formed) : (d.tracePacket bs).Formed := .ite (.ite (.count <| .streamOut h) <| .count <| .wr <| .same h) h

theorem traceFault {d : Dev} {r : FRec} (h : d.Formed) : (d.traceFault r).Formed := .tracePacket h

theorem traceHalt {d : Dev} {origin : Nat} (h : d.Formed) : (d.traceHalt origin).Formed := .tracePacket h

theorem traceBreak {d : Dev} (h : d.Formed) : d.traceBreak.Formed := .tracePacket h

theorem traceLink {d : Dev} {port state : Nat} (h : d.Formed) : (d.traceLink port state).Formed := .ite (.tracePacket h) h

theorem traceWrap {d : Dev} (h : d.Formed) : d.traceWrap.Formed := .tracePacket h

theorem tracePower {d : Dev} {state exit emulated : Nat} (h : d.Formed) : (d.tracePower state exit emulated).Formed := .tracePacket h

theorem afterCairn {d : Dev} (h : d.Formed) : d.afterCairn.Formed := .count <| .same h

theorem traceCairn {d : Dev} {nextTake : Nat} (h : d.Formed) : (d.traceCairn nextTake).Formed := .ite (.afterCairn <| .streamOut h) <| .same h

theorem tracePad {d : Dev} (h : d.Formed) : d.tracePad.Formed := .ite h <| .streamOut h

theorem traceFlush {d : Dev} (h : d.Formed) : d.traceFlush.Formed := .same <| .tracePad h

theorem traceTs {d : Dev} (h : d.Formed) : d.traceTs.Formed := .ite (.same <| .tracePacket h) <| .tracePacket h

/-! The G2 banks (spec/05). -/

theorem bankWrite {d : Dev} {g addr data : Nat} (h : d.Formed) : (d.bankWrite g addr data).Formed := { h with banks := SMap.wf_store _ _ _ h.banks }

theorem accRead {key : Nat} {d : Dev} (h : d.Formed) : (d.accRead key).Formed := by
  dsimp only [Dev.accRead]
  split
  · exact h
  · exact .ite h <| .same h

theorem accWrite {key : Nat} {d : Dev} (h : d.Formed) : (d.accWrite key).Formed := by
  dsimp only [Dev.accWrite]
  split
  · exact h
  · refine .ite ?_ ?_
    · exact h
    · split
      · exact .ite (.bumpAt <| .same <| .same h) <| .bankWrite <| .same h
      · exact .bankWrite <| .same h

theorem bankCycle {g : Nat} {d : Dev} (h : d.Formed) : (d.bankCycle g).Formed := .forAll .accWrite <| .forAll .accRead h

theorem bankCycles {d : Dev} (h : d.Formed) : d.bankCycles.Formed := .forAll .bankCycle h

theorem deliverReads {d : Dev} (h : d.Formed) : d.deliverReads.Formed := .same h

theorem retireAccesses {d : Dev} (h : d.Formed) : d.retireAccesses.Formed := .same h

theorem handover {g : Nat} {d : Dev} (h : d.Formed) : (d.handover g).Formed := .ite (.wrAt <| .wrAt h) h

theorem handovers {d : Dev} (h : d.Formed) : d.handovers.Formed := .forAll (fun hd => .ite hd <| .handover hd) h

theorem idleHandovers {d : Dev} (h : d.Formed) : d.idleHandovers.Formed := .ite h <| .handovers h

/-! Events, fault records and safe state: the flags that every block raises (spec/19). -/

theorem sendMsix {route : Nat} {d : Dev} (h : d.Formed) : (d.sendMsix route).Formed := .ite h <| .ite (.count <| .emit h) <| .same h

theorem flagEvent {src : Nat} {d : Dev} (h : d.Formed) : (d.flagEvent src).Formed := .ite (.sendMsix <| .same h) <| .same h

theorem noteEvent {src : Nat} {d : Dev} (h : d.Formed) : (d.noteEvent src).Formed := .ite (.traceFault h) h

theorem plainEvent {src : Nat} {d : Dev} (h : d.Formed) : (d.plainEvent src).Formed := .noteEvent <| .flagEvent h

theorem writeRecord {d : Dev} {r : FRec} (h : d.Formed) : (d.writeRecord r).2.2.Formed :=
  .ite_snd_snd (.wr <| .same <| .wr <| .same h) <| .ite_snd_snd (.bump <| .wr <| .same h) <| .wr <| .same h

theorem routedRecord {src : Nat} {d : Dev} (h : d.Formed) : (d.routedRecord src).Formed := .ite (.plainEvent <| .writeRecord h) <| .writeRecord h

theorem showFenced {d : Dev} (h : d.Formed) : d.showFenced.Formed := .wr h

theorem setPort {d : Dev} {p : Nat} {f : Port → Port} (h : d.Formed) : (d.setPort p f).Formed := .same h

theorem queueMessage {p kind : Nat} {body : Bytes} {d : Dev} (h : d.Formed) : (d.queueMessage p kind body).Formed := .setPort h

theorem sendAll {kind : Nat} {body : Bytes} {d : Dev} (h : d.Formed) : (d.sendAll kind body).Formed := .forUpto (fun hd => .ite (.queueMessage hd) hd) h

theorem sendAllBut {from' kind : Nat} {body : Bytes} {d : Dev} (h : d.Formed) : (d.sendAllBut from' kind body).Formed :=
  .forUpto (fun hd => .ite (.queueMessage hd) hd) h

theorem sendStop {code : Nat} {d : Dev} (h : d.Formed) : (d.sendStop code).Formed := .ite (.sendAll h) h

theorem discardShadows {d : Dev} (h : d.Formed) : d.discardShadows.Formed := .same h

theorem keepInjects {d : Dev} (h : d.Formed) : d.keepInjects.Formed := .same h

theorem discardRequests {d : Dev} (h : d.Formed) : d.discardRequests.Formed := .same h

theorem restArray {d : Dev} (h : d.Formed) : d.restArray.Formed := .same h

theorem dropInstants {d : Dev} (h : d.Formed) : d.dropInstants.Formed := .same h

theorem windowsFrom {start : Nat} {sel : Nat → Bool} {d : Dev} (h : d.Formed) : (d.windowsFrom start sel).Formed := .same h

theorem openWindows {sel : Nat → Bool} {d : Dev} (h : d.Formed) : (d.openWindows sel).Formed := .windowsFrom h

theorem pinTakes {p w edge : Nat} {d : Dev} (h : d.Formed) : (d.pinTakes p w edge).Formed := .ite (.same h) <| .windowsFrom <| .same h

theorem settlePin {p : Nat} {d : Dev} (h : d.Formed) : (d.settlePin p).Formed := .ite h <| .forAll .pinTakes <| .same h

theorem settlePins {d : Dev} (h : d.Formed) : d.settlePins.Formed := .forAll .settlePin h

theorem pinsHalt {d : Dev} (h : d.Formed) : d.pinsHalt.Formed := .ite h <| .openWindows <| .same <| .settlePins h

theorem pinsRelease {d : Dev} (h : d.Formed) : d.pinsRelease.Formed := .ite (.openWindows <| .same <| .settlePins h) h

theorem pinsSleep {on : Bool} {d : Dev} (h : d.Formed) : (d.pinsSleep on).Formed := .ite h <| .openWindows <| .same <| .settlePins h

theorem abandonTake {d : Dev} (h : d.Formed) : d.abandonTake.Formed := by
  unfold Dev.abandonTake
  extract_lets d0 _ d1 _ _ d2 d3
  have h0 : d0.Formed := .pinsHalt <| .dropInstants <| .discardRequests <| .keepInjects <| .discardShadows <| .deliverReads <| .bankCycles h
  have h1 : d1.Formed := .same h0
  have h2 : d2.Formed := .same <| .restArray h1
  have h3 : d3.Formed := .handovers <| .count <| .wr h2
  exact .same h3

theorem stopForSafe {code : Nat} {d : Dev} (h : d.Formed) : (d.stopForSafe code).Formed := .ite (.ite (.traceHalt <| .sendStop <| .abandonTake h) <| .same h) h

theorem enterSafe {r : FRec} {cause : Nat} {d : Dev} (h : d.Formed) : (d.enterSafe r cause).Formed := by
  unfold Dev.enterSafe
  extract_lets d1 _ d2 d3 d4
  have h1 : d1.Formed := .bump <| .wr <| .wr <| .wr h
  have h2 : d2.Formed := .same h1
  have h3 : d3.Formed := .traceFault <| .plainEvent <| .wr h2
  have h4 : d4.Formed := .ite (.routedRecord h3) h3
  exact .ite h <| .ite h4 <| .stopForSafe h4

theorem event {src : Nat} {d : Dev} (h : d.Formed) : (d.event src).Formed := .ite (.enterSafe <| .routedRecord <| .plainEvent h) <| .plainEvent h

theorem report {r : FRec} {packet : Bool} {d : Dev} (h : d.Formed) : (d.report r packet).Formed := by
  unfold Dev.report
  extract_lets _ _ _ _ _ _ d1 d2 d3
  have h1 : d1.Formed := .flagEvent <| .writeRecord h
  have h2 : d2.Formed := .ite (.traceFault h1) h1
  have h3 : d3.Formed := .ite (.event h2) h2
  exact .ite (.enterSafe h3) h3

theorem unitFault {code sev page detail : Nat} {d : Dev} (h : d.Formed) : (d.unitFault code sev page detail).Formed := .report h

theorem peakAt {n : Nat} {d : Dev} (h : d.Formed) : (d.peakAt n).Formed := .ite (.wr h) h

theorem notePeak {d : Dev} (h : d.Formed) : d.notePeak.Formed := .peakAt h

theorem passing {d : Dev} (h : d.Formed) : d.passing.Formed := .peakAt h

/-! The counters and their snapshots (spec/17). -/

theorem copyCounters {d : Dev} (h : d.Formed) : d.copyCounters.Formed := .forAll .wrAt <| .same h

theorem snapDone {mid time : Nat} {d : Dev} (h : d.Formed) : (d.snapDone mid time).Formed := .event <| .same <| .wr <| .wr <| .wr <| .wr <| .wr h

theorem snapNow {d : Dev} (h : d.Formed) : d.snapNow.Formed := by
  dsimp only [Dev.snapNow]
  split
  · exact .ite (.snapDone <| .copyCounters h) <| .ite (.snapDone <| .copyCounters h) h
  · exact h

theorem snapCtrlWrite {w t : Nat} {d0 : Dev} (h : d0.Formed) : (d0.snapCtrlWrite w t).Formed :=
  .ite (.toTime h) <| .ite (.wr <| .toTime h) <| .ite (.wr <| .toTime h) <| .ite (.wr <| .wr <| .toTime h) <| .wr <| .same <| .wr <| .toTime h

theorem snapshot {t : Nat} {d : Dev} (h : d.Formed) : (d.snapshot t).Formed := .snapNow <| .toTime h

/-! The scheduled lanes (spec/03). -/

theorem shiftLanes {d : Dev} {t nt : Nat} {driven : SMap Nat} (h : d.Formed) : (d.shiftLanes t nt driven).Formed := .same h

theorem countSelections {t : Nat} {d : Dev} (h : d.Formed) : (d.countSelections t).Formed := by
  dsimp only [Dev.countSelections]
  refine .foldl ?_ h
  intro _ _ hd
  refine .ite ?_ ?_
  · split
    · exact .count hd
    · exact .same hd
    · exact hd
  · exact hd

theorem commitLinks {d : Dev} (h : d.Formed) : d.commitLinks.Formed := .same h

theorem updateMirrors {d : Dev} {q : Nat} (h : d.Formed) : (d.updateMirrors q).Formed := .same h

/-! The watch unit (spec/16). -/

theorem fireWatch {d : Dev} {i : Nat} (h : d.Formed) : (d.fireWatch i).Formed := .same <| .wr <| .wr <| .wr <| .wr h

theorem watchStep {d : Dev} (h : d.Formed) : d.watchStep.Formed := by
  unfold Dev.watchStep
  extract_lets _ _ _ _ _ _ d1
  have h1 : d1.Formed := .same h
  exact .ite (.ite (.same <| .wr h1) <| .ite (.ite (.fireWatch h1) <| .ite (.same <| .wr h1) <| .same h1) <| .same h1) h

theorem watchStart {d : Dev} (h : d.Formed) : d.watchStart.Formed := .same <| .wr h

theorem probeCount {boundary : Bool} {before : SMap Nat} {d : Dev} (h : d.Formed) : (d.probeCount boundary before).Formed :=
  .forAll (fun hd => .ite (.count hd) hd) h

/-! The step of the array (spec/02). -/

theorem addFaults {d : Dev} {fs : List FRec} (h : d.Formed) : (d.addFaults fs).Formed := .same h

theorem addActs {d : Dev} {as : List Act} (h : d.Formed) : (d.addActs as).Formed := .same h

theorem ownWrites {d : Dev} {bp s w r : Nat} (h : d.Formed) : (d.ownWrites bp s w r).Formed := .ite (.same <| .same h) <| .same h

theorem runWord {d : Dev} {bp s w : Nat} (h : d.Formed) : (d.runWord bp s w).Formed :=
  .ite h <| .ite (.addFaults h) <| .ite h <| .ite (.addActs <| .addFaults h) <| .addActs <| .ownWrites h

theorem runBp {d : Dev} {bp : Nat} (h : d.Formed) : (d.runBp bp).Formed := by
  unfold Dev.runBp
  extract_lets s f _ d0 d1
  have h0 : d0.Formed := .same h
  have h1 : d1.Formed := by
    unfold d1
    clear_value f
    split
    · exact .event <| .count h0
    · exact h0
  split
  · exact .runWord h1
  · exact .addFaults h1

theorem bpStep {row bp : Nat} {d : Dev} (h : d.Formed) : (d.bpStep row bp).Formed := .ite (.runBp h) h

theorem issueFar {d : Dev} {a : Act} (h : d.Formed) : (d.issueFar a).Formed := .count <| .wrAt <| .same h

theorem applyAct {d : Dev} {a : Act} (h : d.Formed) : (d.applyAct a).Formed := by
  dsimp only [Dev.applyAct]
  split
  · exact .same h
  · exact .same h
  · exact .same h
  · exact .same h
  · exact .same h
  · exact .same h
  · exact .same h
  · exact h
  · exact h
  · exact h

theorem powerSums {d : Dev} (h : d.Formed) : d.powerSums.Formed := .forAll (fun hd => .ite (.addFaults <| .ite (.wrAt hd) hd) <| .ite (.wrAt hd) hd) h

theorem storeSlots {d : Dev} {s : Nat} (h : d.Formed) : (d.storeSlots s).Formed := .foldl (fun hd => .ite (.setPort hd) hd) <| .same h

theorem applyStep {d : Dev} (h : d.Formed) : d.applyStep.Formed := by
  unfold Dev.applyStep
  extract_lets _ _ _ d1 _ _ d2 d3 d4
  have h1 : d1.Formed := .deliverReads <| .bankCycles h
  have h2 : d2.Formed := .same h1
  have h3 : d3.Formed := .forAll (fun hd => .notePeak <| .issueFar hd) h2
  have h4 : d4.Formed := .forAll .applyAct h3
  exact .addFaults <| .shiftLanes <| .storeSlots h4

theorem faultStop {d : Dev} {fs : List FRec} (h : d.Formed) : (d.faultStop fs).Formed :=
  .snapNow <| .sendStop <| .traceHalt <| .event <| .forAll .report <| .abandonTake h

theorem nextStep {slots : SMap Nat} {d : Dev} (h : d.Formed) : (d.nextStep slots).Formed := .ite (.same h) <| .same h

theorem endStep {d : Dev} (h : d.Formed) : d.endStep.Formed := by
  unfold Dev.endStep
  extract_lets _ d1 _ d2 d3 d4 _ _ d5
  have h1 : d1.Formed := .forAll .runBp h
  have h2 : d2.Formed := .countSelections <| .addFaults h1
  have h3 : d3.Formed := .watchStep <| .applyStep <| .powerSums h2
  have h4 : d4.Formed := .count <| .probeCount h3
  have h5 : d5.Formed := .retireAccesses <| .same h4
  exact .ite (.faultStop h5) <| .ite (.snapNow <| .traceHalt <| .sendStop <| .abandonTake h5) <| .nextStep h5

/-! The scheduler of the service engines (spec/14). -/

theorem setItem {d : Dev} {id : Nat} {f : Item → Item} (h : d.Formed) : (d.setItem id f).Formed := .same h

theorem makeReady {id : Nat} {d : Dev} (h : d.Formed) : (d.makeReady id).Formed := .same <| .setItem h

theorem headReady {id : Nat} {d : Dev} (h : d.Formed) : (d.headReady id).Formed := .setItem h

theorem endItem {id status : Nat} {d : Dev} (h : d.Formed) : (d.endItem id status).Formed := .setItem h

theorem matchItems {d : Dev} (h : d.Formed) : d.matchItems.Formed := .forAll (fun hd => .ite (.makeReady <| .same hd) hd) h

theorem postToken {t n : Nat} {d : Dev} (h : d.Formed) : (d.postToken t n).Formed := .ite h <| .matchItems <| .ite (.event <| .wr <| .wr <| .same h) <| .same h

theorem tickToken {d : Dev} {n : Nat} (h : d.Formed) : (d.tickToken n).Formed := .ite (.postToken h) h

theorem injectBits {d : Dev} {bits : Nat} {targets : List Nat} (h : d.Formed) : (d.injectBits bits targets).Formed := .same h

theorem applyInjects {d : Dev} {b : Nat} (h : d.Formed) : (d.applyInjects b).Formed :=
  .same <| .forAll (fun hd => .ite (.count <| .injectBits hd) <| .endItem <| .count <| .injectBits hd) h

theorem freeInjects {d : Dev} (h : d.Formed) : d.freeInjects.Formed := .same h

theorem captureSample {d : Dev} (h : d.Formed) : d.captureSample.Formed := .forAll (fun hd => .ite (.same hd) <| .endItem <| .same hd) h

theorem traceBoundary {n : Nat} {d : Dev} (h : d.Formed) : (d.traceBoundary n).Formed := by
  unfold Dev.traceBoundary
  extract_lets _ _ _ _ _ _ _ _ _ _ d1 _ _ d2 _ d3 _ d4
  have h1 : d1.Formed := .streamOut h
  have h2 : d2.Formed := .ite (.same <| .afterCairn h1) h1
  have h3 : d3.Formed := .ite (.same h2) h2
  have h4 : d4.Formed := .ite (.same h3) h3
  exact .ite h <| .ite (.same h) <| .ite h <| .ite (.ite (.count <| .same h4) h4) <| .count <| .wr <| .same h

/-! The array aperture and the engine array space (spec/12). -/

theorem writeRow {d : Dev} {store per row v : Nat} (h : d.Formed) : (d.writeRow store per row v).Formed := .ite (.same h) <| .same h

theorem writeWord {d : Dev} {q v : Nat} (h : d.Formed) : (d.writeWord q v).Formed := .same h

theorem mergeWord {off : Nat} {bs : Bytes} {q : Nat} {d : Dev} (h : d.Formed) : (d.mergeWord off bs q).Formed := by
  unfold Dev.mergeWord
  refine .ite ?_ ?_
  · exact .writeWord h
  · split
    · exact .writeWord h
    · exact .writeWord h
    · exact .wr h

theorem writeArrByte {off : Nat} {b : Byte} {d : Dev} (h : d.Formed) : (d.writeArrByte off b).Formed := by
  unfold Dev.writeArrByte
  split
  · exact .writeRow h
  · exact .writeRow h
  · exact { h with banks := SMap.wf_set _ _ _ h.banks }
  · exact h
  · exact h
  · exact h

theorem arrWrite {d : Dev} {off : Nat} {bs : Bytes} (h : d.Formed) : (d.arrWrite off bs).Formed :=
  .ite (.forAll .mergeWord h) <| .forAll .writeArrByte h

/-! The background access port on the engine array space (spec/16). -/

theorem bapMove {d : Dev} (h : d.Formed) : d.bapMove.Formed := .ite (.arrWrite h) <| .wr h

theorem bapEffect {d : Dev} (h : d.Formed) : d.bapEffect.Formed := .same <| .wr <| .ite (.wrAt <| .wr <| .ite (.bapMove h) h) <| .ite (.bapMove h) h

theorem bapAtBelay {d : Dev} {b : Nat} (h : d.Formed) : (d.bapAtBelay b).Formed := .ite (.bapEffect h) h

/-! The take boundary (spec/04). -/

theorem clearGroup {lo hi lv : Nat} {d : Dev} (h : d.Formed) : (d.clearGroup lo hi lv).Formed := .same h

theorem fenceGroup {d : Dev} (h : d.Formed) : d.fenceGroup.Formed := .event <| .showFenced <| .same <| .same <| .clearGroup h

theorem rejoinGroup {d : Dev} (h : d.Formed) : d.rejoinGroup.Formed := .showFenced <| .same h

theorem boundaryFence {d : Dev} (h : d.Formed) : d.boundaryFence.Formed := .ite (.fenceGroup h) h

theorem boundaryRejoin {d : Dev} (h : d.Formed) : d.boundaryRejoin.Formed := .ite (.ite (.rejoinGroup h) <| .faultStop <| .wr h) h

theorem promote {d : Dev} (h : d.Formed) : d.promote.Formed := .same h

theorem restoreBoundary {d : Dev} (h : d.Formed) : d.restoreBoundary.Formed := .forUpto .wrAt <| .wr <| .wr <| .same h

theorem watchAction {d : Dev} (h : d.Formed) : d.watchAction.Formed := by
  unfold Dev.watchAction
  extract_lets _ e p _ x _ r _ _ _ d1
  have he : e.Formed := .ite h <| .event h
  have hp : p.Formed := .ite he <| .traceBreak he
  have hx : x.Formed := .ite (.same hp) hp
  have hr : r.Formed := .same hx
  have h1 : d1.Formed := .ite (.ite (.same <| .wr hr) hr) h
  exact .ite (.watchStart h1) h1

theorem latchLocks {d : Dev} (h : d.Formed) : d.latchLocks.Formed := .same h

theorem latchTraceCfg {d : Dev} (h : d.Formed) : d.latchTraceCfg.Formed := .same h

theorem hardHalt {c origin : Nat} {d : Dev} (h : d.Formed) : (d.hardHalt c origin).Formed := by
  unfold Dev.hardHalt
  extract_lets _ _ d1 d2
  have h1 : d1.Formed := .handovers <| .pinsHalt <| .dropInstants <| .wr <| .wr <| .same h
  have h2 : d2.Formed := .count <| .traceHalt <| .event h1
  exact .ite h2 <| .ite (.sendAll h2) <| .sendStop h2

theorem requestHalt {c origin : Nat} {d : Dev} (h : d.Formed) : (d.requestHalt c origin).Formed := .ite h <| .ite (.hardHalt h) <| .ite (.same <| .wr h) h

theorem queuePresentation {n : Nat} {d : Dev} (h : d.Formed) : (d.queuePresentation n).Formed := .same h

theorem countStepTakes {d : Dev} (h : d.Formed) : d.countStepTakes.Formed := .ite h <| .ite (.same <| .same h) <| .same h

theorem closeTake {d : Dev} (h : d.Formed) : d.closeTake.Formed := by
  unfold Dev.closeTake
  extract_lets _ _ _ d0 d1 _ _ d2 d3 d4 d5 d5f _ d6
  have h0 : d0.Formed := .ite (.copyCounters h) h
  have h1 : d1.Formed := .count <| .wr <| .freeInjects <| .promote h0
  have h2 : d2.Formed := .latchTraceCfg <| .queuePresentation <| .same h1
  have h3 : d3.Formed := .latchLocks <| .probeCount h2
  have h4 : d4.Formed := .watchAction <| .traceBoundary h3
  have h5 : d5.Formed := .ite (.snapDone <| .countStepTakes h4) <| .countStepTakes h4
  have hd5f : d5f.Formed := .boundaryFence h5
  have h6 : d6.Formed := .boundaryRejoin <| .same hd5f
  exact .ite (.ite (.hardHalt h6) <| .handovers h6) h6

theorem takeBoundary {d : Dev} (h : d.Formed) : d.takeBoundary.Formed := by
  unfold Dev.takeBoundary
  split
  · exact .closeTake h
  · exact .faultStop h

/-! Belays (spec/04). -/

theorem rewait {d : Dev} (h : d.Formed) : d.rewait.Formed := .ite (.same h) h

theorem throttle {d : Dev} (h : d.Formed) : d.throttle.Formed := .ite (.ite (.same h) <| .event <| .count <| .wr <| .bump <| .same h) h

theorem openBelay {d : Dev} (h : d.Formed) : d.openBelay.Formed := .rewait <| .throttle <| .same h

theorem peerStopped {origin : Nat} {d : Dev} (h : d.Formed) : (d.peerStopped origin).Formed := .snapNow <| .traceHalt <| .event <| .abandonTake h

theorem linkStopped {d : Dev} (h : d.Formed) : d.linkStopped.Formed := .snapNow <| .traceHalt <| .event <| .abandonTake h

theorem belayEntry {d : Dev} (h : d.Formed) : d.belayEntry.Formed := by
  unfold Dev.belayEntry
  extract_lets _ d0 _ d1 d2
  have h0 : d0.Formed := .deliverReads <| .bankCycles h
  have h1 : d1.Formed := .same h0
  have h2 : d2.Formed := .ite (.takeBoundary h1) h1
  refine .ite ?_ ?_
  · exact h
  · split
    · exact .peerStopped <| .deliverReads <| .bankCycles h
    · exact .ite (.linkStopped <| .deliverReads <| .bankCycles h) <| .ite (.openBelay h2) h2

theorem masterRelease {d : Dev} (h : d.Formed) : d.masterRelease.Formed := .ite (.sendAll <| .same h) h

theorem sendReady {d : Dev} (h : d.Formed) : d.sendReady.Formed := .ite (.masterRelease <| .same <| .sendAll h) <| .sendAll h

theorem conditionsMet {t : Nat} {d : Dev} (h : d.Formed) : (d.conditionsMet t).Formed :=
  .ite (.ite (.sendReady <| .same <| .rewait <| .toTime h) <| .same <| .rewait <| .toTime h) h

theorem fixInstant {u m : Nat} {d : Dev} (h : d.Formed) : (d.fixInstant u m).Formed := .same h

theorem dropSample {u : Nat} {d : Dev} (h : d.Formed) : (d.dropSample u).Formed := .same h

theorem skipTick {d : Dev} (h : d.Formed) : d.skipTick.Formed := .count <| .bump <| .ite (.same h) <| .same h

theorem followTick {d : Dev} (h : d.Formed) : d.followTick.Formed := by
  dsimp only [Dev.followTick]
  split
  · exact h
  · exact .same <| .forAll .skipTick <| .same h

theorem placeSample {s : SMap Nat} {d : Dev} (h : d.Formed) : (d.placeSample s).Formed := .count <| .same h

theorem startCounters {d : Dev} (h : d.Formed) : d.startCounters.Formed := .forUpto .wrAt <| .forUpto .wrAt <| .wr <| .wr h

theorem openTake {d0 : Dev} (h : d0.Formed) : d0.openTake.Formed := by
  unfold Dev.openTake
  extract_lets d _ _ _ d1 _ d2
  have hd : d.Formed := .ite (.followTick h) h
  have h1 : d1.Formed := .ite (.startCounters <| .same hd) <| .same hd
  have h2 : d2.Formed := by
    unfold d2
    refine .ite ?_ ?_
    · split
      · exact .count <| .wr <| .placeSample <| .dropSample <| .same h1
      · exact .placeSample h1
    · exact .fixInstant <| .placeSample h1
  exact .captureSample h2

theorem deliverFar {d : Dev} (h : d.Formed) : d.deliverFar.Formed := .forUpto (fun hd => .wrAt <| .same hd) h

theorem countBelay {d : Dev} (h : d.Formed) : d.countBelay.Formed := .count <| .count <| .count h

theorem newFrameCounts {d : Dev} (h : d.Formed) : d.newFrameCounts.Formed := .same h

theorem runRelease {d : Dev} (h : d.Formed) : d.runRelease.Formed := by
  unfold Dev.runRelease
  extract_lets _ _ d1 d2 d3 d4 d5 d6 d7
  have h1 : d1.Formed := .countBelay h
  have h2 : d2.Formed := .ite (.newFrameCounts <| .openTake h1) h1
  have h3 : d3.Formed := .postToken h2
  have h4 : d4.Formed := .ite (.deliverFar h3) h3
  have h5 : d5.Formed := .ite (.updateMirrors <| .commitLinks h4) h4
  have h6 : d6.Formed := .bapAtBelay <| .applyInjects h5
  have h7 : d7.Formed := .forUpto .cycle h6
  exact .same h7

theorem belayRelease {t : Nat} {d : Dev} (h : d.Formed) : (d.belayRelease t).Formed := .ite (.runRelease <| .toTime h) h

theorem belayTimeout {t : Nat} {d : Dev} (h : d.Formed) : (d.belayTimeout t).Formed := .ite (.faultStop <| .toTime h) h

theorem respond {resp : Nat} {d : Dev} (h : d.Formed) : (d.respond resp).Formed := .ite (.same h) <| .same h

theorem deadlineHalt {d : Dev} (h : d.Formed) : d.deadlineHalt.Formed := .ite (.ite (.same <| .wr h) h) <| .requestHalt h

theorem missTick {u : Nat} {f : Fate} {d : Dev} (h : d.Formed) : (d.missTick u f).Formed := by
  unfold Dev.missTick
  extract_lets d1 d2
  have h1 : d1.Formed := .count <| .bump h
  have h2 : d2.Formed := .respond <| .report h1
  split
  · exact .skipTick <| .respond <| .report h1
  · exact .same h2
  · exact .deadlineHalt <| .respond <| .report h1

theorem tickEdge {t : Nat} {d : Dev} (h : d.Formed) : (d.tickEdge t).Formed := by
  dsimp only [Dev.tickEdge]
  split
  · exact h
  · exact .ite (.rewait <| .ite (.same <| .toTime h) <| .missTick <| .same <| .toTime h) h

theorem sequencerTick {n u : Nat} {d : Dev} (h : d.Formed) : (d.sequencerTick n u).Formed := by
  dsimp only [Dev.sequencerTick]
  refine .ite ?_ ?_
  · split
    · exact .fixInstant <| .same <| .same h
    · exact .fixInstant <| .same <| .same h
    · exact .same <| .same h
    · exact .same h
  · exact h

/-! The output envelope (spec/09). -/

theorem setPad {d : Dev} {v : Envelope} {p lv : Nat} (h : d.Formed) : (d.setPad v p lv).Formed := .ite h <| .same h

theorem setClamped {d : Dev} {p : Nat} {on : Bool} (h : d.Formed) : (d.setClamped p on).Formed := .ite (.bump <| .wrAt h) <| .wrAt h

theorem envFault {code detail : Nat} {d : Dev} (h : d.Formed) : (d.envFault code detail).Formed := .unitFault h

theorem clampPin {p q lv : Nat} {d : Dev} (h : d.Formed) : (d.clampPin p q lv).Formed := .event <| .envFault <| .setClamped <| .same h

theorem delayPin {p kind : Nat} {d : Dev} (h : d.Formed) : (d.delayPin p kind).Formed := .ite h <| .envFault <| .setClamped <| .same h

theorem unclamp {p : Nat} {d : Dev} (h : d.Formed) : (d.unclamp p).Formed := .setClamped <| .same h

theorem permit {d : Dev} {v : Envelope} {p lv : Nat} {rivals : List Nat} (h : d.Formed) : (d.permit v p lv rivals).Formed := by
  dsimp only [Dev.permit]
  refine .ite ?_ ?_
  · exact .setPad <| .unclamp <| .same h
  · refine .ite ?_ ?_
    · exact .same h
    · refine .ite ?_ ?_
      · exact .unclamp <| .same h
      · refine .ite ?_ ?_
        · exact .delayPin <| .same h
        · refine .ite ?_ ?_
          · exact .delayPin <| .same h
          · split
            · exact .clampPin <| .same h
            · exact .setPad <| .unclamp <| .same h

/-! The pins (spec/09). -/

theorem commitPin {d : Dev} {p w : Nat} (h : d.Formed) : (d.commitPin p w).Formed := .same <| .wrAt h

theorem pinCfgLoWrite {b k lo : Nat} {d : Dev} (h : d.Formed) : (d.pinCfgLoWrite b k lo).Formed := .stageLow h

theorem pinCfgHiWrite {b k hi t : Nat} {d : Dev} (h : d.Formed) : (d.pinCfgHiWrite b k hi t).Formed :=
  .ite (.commitPin <| .unstage <| .settlePins <| .toTime h) <| .wrAt <| .unstage <| .settlePins <| .toTime h

theorem endLock {b : Nat} {failed : Bool} {d : Dev} (h : d.Formed) : (d.endLock b failed).Formed := .ite (.wrAt <| .wrAt <| .same h) <| .wrAt <| .same h

theorem expireLock {b : Nat} {d : Dev} (h : d.Formed) : (d.expireLock b).Formed := .ite (.endLock h) h

theorem setLock {b step : Nat} {d : Dev} (h : d.Formed) : (d.setLock b step).Formed := .same h

theorem lockKeyWrite {b w t : Nat} {d : Dev} (h : d.Formed) : (d.lockKeyWrite b w t).Formed := by
  unfold Dev.lockKeyWrite
  extract_lets d1
  have h1 : d1.Formed := .expireLock <| .toTime h
  split
  · exact .ite (.setLock h1) <| .wrAt h1
  · exact .ite (.wrAt <| .setLock h1) <| .endLock h1
  · exact .endLock h1

theorem lockWrite {b w t : Nat} {d : Dev} (h : d.Formed) : (d.lockWrite b w t).Formed :=
  .ite (.endLock <| .wrAt <| .expireLock <| .toTime h) <| .expireLock <| .toTime h

theorem lockTimeout {b t : Nat} {d : Dev} (h : d.Formed) : (d.lockTimeout b t).Formed := .ite (.endLock <| .toTime h) h

theorem endArming {b : Nat} {d : Dev} (h : d.Formed) : (d.endArming b).Formed := .ite (.endLock h) h

theorem drivePin {d : Dev} {v : Envelope} {p ext : Nat} (h : d.Formed) : (d.drivePin v p ext).Formed :=
  .ite (.setPad <| .unclamp h) <| .forAll .permit h

theorem pinRequest {v : Envelope} {p ext t : Nat} {d : Dev} (h : d.Formed) : (d.pinRequest v p ext t).Formed := .ite h <| .drivePin <| .settlePins <| .toTime h

theorem windowEnd {v : Envelope} {p ext t : Nat} {d : Dev} (h : d.Formed) : (d.windowEnd v p ext t).Formed := .ite (.drivePin <| .same <| .settlePins <| .toTime h) h

theorem minPulseElapsed {v : Envelope} {p ext t : Nat} {d : Dev} (h : d.Formed) : (d.minPulseElapsed v p ext t).Formed :=
  .ite (.drivePin <| .settlePins <| .toTime h) h

theorem rateWindowEnd {v : Envelope} {p ext t : Nat} {d : Dev} (h : d.Formed) : (d.rateWindowEnd v p ext t).Formed := .ite (.drivePin <| .settlePins <| .toTime h) h

theorem outputReadback {v : Envelope} {p level since t : Nat} {d : Dev} (h : d.Formed) : (d.outputReadback v p level since t).Formed :=
  .ite (.envFault <| .settlePins <| .toTime h) h

theorem setRaw {m raw since : Nat} {d : Dev} (h : d.Formed) : (d.setRaw m raw since).Formed := .same <| .wrAt h

theorem setFiltered {m v : Nat} {d : Dev} (h : d.Formed) : (d.setFiltered m v).Formed := .same <| .wrAt h

theorem matchCtrlWrite {m w : Nat} {d : Dev} (h : d.Formed) : (d.matchCtrlWrite m w).Formed :=
  .ite (.wrAt h) <| .ite (.setFiltered <| .setRaw <| .wrAt <| .wrAt <| .wrAt h) <| .wrAt <| .wrAt <| .wrAt h

theorem matchWrite {m : Nat} {f : Dev → Dev} {d : Dev} (hf : ∀ {e}, e.Formed → (f e).Formed) (h : d.Formed) : (d.matchWrite m f).Formed := .ite (.wrAt h) (hf h)

theorem samplePins {levels : Nat} {d : Dev} (h : d.Formed) : (d.samplePins levels).Formed := .same h

theorem pinMatch {m levels cycles t : Nat} {d : Dev} (h : d.Formed) : (d.pinMatch m levels cycles t).Formed := by
  unfold Dev.pinMatch
  extract_lets d1 _ _ d2 d3
  have h1 : d1.Formed := .samplePins <| .settlePins <| .toTime h
  have h2 : d2.Formed := .setRaw h1
  have h3 : d3.Formed := .ite (.setFiltered h2) h2
  exact .ite h1 <| .ite (.event <| .wrAt h3) h3

/-! The edge fabric (spec/08). -/

theorem freeLoops {k : SMap Nat} {d : Dev} (h : d.Formed) : (d.freeLoops k).2.Formed := .foldl_snd (fun hd => .free (w := 1) hd) h

theorem combValues {d : Dev} (h : d.Formed) : d.combValues.2.Formed := .freeLoops h

theorem asyncResets {k : SMap Nat} {d : Dev} (h : d.Formed) : (d.asyncResets k).Formed := .forAll (fun hd => .ite (.same hd) hd) h

theorem settleEdge {d : Dev} {n : Nat} (h : d.Formed) : (d.settleEdge n).2.Formed := by
  induction n generalizing d with
  | zero => exact .combValues h
  | succ n ih => exact .ite_snd (.combValues h) <| ih <| .asyncResets <| .combValues h

theorem storeComb {k : SMap Nat} {d : Dev} (h : d.Formed) : (d.storeComb k).Formed := .same h

theorem rest {d : Dev} (h : d.Formed) : d.rest.2.Formed := .storeComb <| .settleEdge h

theorem restEdge {d : Dev} (h : d.Formed) : d.restEdge.Formed := .rest h

theorem clockMacs {d : Dev} {k : SMap Nat} {sel : Nat → Bool} (h : d.Formed) : (d.clockMacs k sel).Formed := .same h

theorem ripple {d : Dev} {k : SMap Nat} {n : Nat} (h : d.Formed) : (d.ripple k n).Formed := by
  induction n generalizing d k with
  | zero => exact h
  | succ n ih =>
    unfold Dev.ripple
    extract_lets _ _ _ _ _ d1
    have h1 : d1.Formed := .same <| .rest h
    exact .ite h1 <| ih <| .clockMacs h1

theorem clockTrees {d : Dev} {k : SMap Nat} {rise fall : Nat} (h : d.Formed) : (d.clockTrees k rise fall).Formed := .ripple <| .clockMacs <| .same h

theorem memStore {b i v : Nat} {d : Dev} (h : d.Formed) : (d.memStore b i v).Formed :=
  { h with bmem := List.foldlRecOn (motive := fun m => SMap.wf m = true) _ _ h.bmem fun _ hm _ _ => SMap.wf_set _ _ _ hm }

theorem collide {b : Nat} {d : Dev} (h : d.Formed) : (d.collide b).Formed := .event <| .count <| .wr <| .same h

theorem portAccess {b p a : Nat} {w : Option Nat} {d : Dev} (h : d.Formed) : (d.portAccess b p a w).Formed := by
  unfold Dev.portAccess
  extract_lets _ _ _ d1
  have h1 : d1.Formed := .same h
  split
  · exact h1
  · exact .ite (.collide <| .ite h1 <| .same <| .memStore h1) <| .ite h1 <| .same <| .memStore h1

theorem blockMemory {b : Nat} {d : Dev} (h : d.Formed) : (d.blockMemory b).Formed := by
  dsimp only [Dev.blockMemory]
  refine .ite ?_ ?_
  · exact h
  · split
    · refine .portAccess ?_
      split
      · exact .portAccess <| .same h
      · exact .same h
    · split
      · exact .portAccess <| .same h
      · exact .same h

theorem setFifo {f : Nat} {es : List (Nat × Nat)} {d : Dev} (h : d.Formed) : (d.setFifo f es).Formed := .same h

theorem pushFifo {f v : Nat} {d : Dev} (h : d.Formed) : (d.pushFifo f v).Formed := .ite (.event <| .count <| .wr h) <| .setFifo h

theorem actSide {k : Nat} {d : Dev} (h : d.Formed) : (d.actSide k).Formed := .same h

theorem fifoWrite {f : Nat} {d : Dev} (h : d.Formed) : (d.fifoWrite f).Formed := .ite h <| .ite (.ite (.pushFifo <| .same h) h) <| .ite (.pushFifo <| .actSide h) h

theorem popHead {f : Nat} {d : Dev} (h : d.Formed) : (d.popHead f).Formed := .ite (.same <| .setFifo h) <| .ite (.same <| .free <| .setFifo h) <| .setFifo h

theorem fifoPop {f : Nat} {d : Dev} (h : d.Formed) : (d.fifoPop f).Formed :=
  .ite h <| .ite (.ite h <| .ite (.popHead <| .actSide h) <| .event <| .count <| .wr <| .actSide h) <| .ite (.ite (.same h) <| .popHead <| .same h) h

theorem finishAccesses {d : Dev} (h : d.Formed) : d.finishAccesses.Formed :=
  .forAll (fun hd => .fifoPop <| .fifoWrite hd) <| .forAll .blockMemory h

theorem ageFifos {rise : Nat} {d : Dev} (h : d.Formed) : (d.ageFifos rise).Formed := .forAll (fun hd => .ite (.setFifo hd) hd) h

theorem ageCollisions {rise : Nat} {d : Dev} (h : d.Formed) : (d.ageCollisions rise).Formed := .same h

theorem userEvents {k : SMap Nat} {d : Dev} (h : d.Formed) : (d.userEvents k).Formed :=
  .ite h <| .forUpto (fun hd => .ite hd <| .ite (.event <| .count <| .same hd) <| .same hd) h

theorem lineConflicts {k : SMap Nat} {d : Dev} (h : d.Formed) : (d.lineConflicts k).Formed := .forUpto (fun hd => .ite (.event <| .count <| .bump <| .wr hd) hd) h

theorem shiftProbes {k : SMap Nat} {d : Dev} (h : d.Formed) : (d.shiftProbes k).Formed := .same h

theorem takeInputs {levels rise fall : Nat} {d : Dev} (h : d.Formed) : (d.takeInputs levels rise fall).Formed := .same h

theorem countEdge {d : Dev} (h : d.Formed) : d.countEdge.Formed := .same h

theorem endCycle {k : SMap Nat} {d : Dev} (h : d.Formed) : (d.endCycle k).Formed := .countEdge <| .same <| .userEvents <| .shiftProbes <| .lineConflicts h

theorem keepSignals {k : SMap Nat} {d : Dev} (h : d.Formed) : (d.keepSignals k).Formed := .same h

theorem edgeClock {t rise fall levels : Nat} {d : Dev} (h : d.Formed) : (d.edgeClock t rise fall levels).Formed := by
  unfold Dev.edgeClock
  extract_lets d0 _ _ _ d1 d2 _ _ _ d3
  have h0 : d0.Formed := .settlePins <| .toTime <| .finishAccesses h
  have h1 : d1.Formed := .keepSignals <| .rest <| .takeInputs h0
  have h2 : d2.Formed := .ite (.endCycle h1) h1
  have h3 : d3.Formed := .ageCollisions <| .takeInputs <| .same h2
  exact .restEdge <| .ageFifos <| .clockTrees h3

theorem edgeCtrlWrite {w t : Nat} {d : Dev} (h : d.Formed) : (d.edgeCtrlWrite w t).Formed := by
  unfold Dev.edgeCtrlWrite
  extract_lets d1
  have h1 : d1.Formed := .wr <| .toTime h
  exact .ite h1 <| .ite (.ite h1 <| .wr <| .wr <| .wr h1) <| .ite h1 <| .same h1

theorem regionReach {n r : Nat} {d : Dev} (h : d.Formed) : (d.regionReach n r).Formed := .ite (.restEdge <| .same h) <| .event <| .restEdge <| .showFenced <| .same h

theorem globalReach {n after : Nat} {d : Dev} (h : d.Formed) : (d.globalReach n after).Formed := by
  dsimp only [Dev.globalReach]
  split
  · exact h
  · exact .ite h <| .ite (.restEdge <| .wr h) <| .event <| .restEdge <| .same <| .wr h

theorem reachStage {n after : Nat} {d : Dev} (h : d.Formed) : (d.reachStage n after).Formed := .forAll .regionReach <| .globalReach h

theorem withdrawRelease {d : Dev} (h : d.Formed) : d.withdrawRelease.Formed := .showFenced <| .wr <| .same h

theorem discardPresent {d : Dev} (h : d.Formed) : d.discardPresent.Formed := .same h

theorem pllLock {n : Nat} {d : Dev} (h : d.Formed) : (d.pllLock n).Formed := .ite h <| .ite (.wr h) <| .ite (.wr h) h

theorem probeSelWrite {k w : Nat} {d : Dev} (h : d.Formed) : (d.probeSelWrite k w).Formed := .wrAt <| .wrAt <| .wrAt h

theorem edgeStatusWrite {w : Nat} {d : Dev} (h : d.Formed) : (d.edgeStatusWrite w).Formed := by
  have hc (i : Nat) (r : Reg) (e : Dev) (he : e.Formed) : Dev.Formed (if isSet w i then e.wr r 0 else e) := .ite (.wr he) he
  exact hc _ _ _ <| hc _ _ _ <| hc _ _ _ <| hc _ _ _ <| hc _ _ _ <| hc _ _ _ h

theorem presentCfgWrite {w : Nat} {d : Dev} (h : d.Formed) : (d.presentCfgWrite w).Formed := .ite (.wr h) <| .wr <| .wr h

/-! Presentation of completed takes on the outbound edge lanes (spec/08). -/

theorem showTake {n : Nat} {lanes : SMap Nat} {d : Dev} (h : d.Formed) : (d.showTake n lanes).Formed :=
  .count <| .wr <| .restEdge <| .ageFifos <| .ripple <| .ageCollisions <| .takeInputs <| .same <| .rest <| .finishAccesses h

theorem holdPresentation {d : Dev} (h : d.Formed) : d.holdPresentation.Formed := .event <| .count <| .bump h

theorem presentation {t : Nat} {d : Dev} (h : d.Formed) : (d.presentation t).Formed := by
  unfold Dev.presentation
  extract_lets d1
  have h1 : d1.Formed := .toTime h
  split
  · exact h
  · refine .ite ?_ ?_
    · refine .ite ?_ ?_
      · exact .same h1
      · split
        · exact .showTake <| .same h1
        · exact .holdPresentation <| .same h1
    · exact h

/-! The time bases TB0 to TB3 (spec/10). -/

theorem setOut {k v m : Nat} {d : Dev} (h : d.Formed) : (d.setOut k v m).Formed := .same h

theorem trigPulse {k m : Nat} {d : Dev} (h : d.Formed) : (d.trigPulse k m).Formed := .setOut <| .same h

theorem tickPulses {n m : Nat} {d : Dev} (h : d.Formed) : (d.tickPulses n m).Formed := .ite h <| .forUpto (fun hd => .ite (.trigPulse hd) hd) h

theorem setPulse {k v m : Nat} {d : Dev} (h : d.Formed) : (d.setPulse k v m).Formed := .setOut <| .same h

theorem spreadTick {n u m : Nat} {d : Dev} (h : d.Formed) : (d.spreadTick n u m).Formed :=
  .rewait <| .sequencerTick <| .ite (.sendAll <| .tickPulses <| .tickToken <| .same h) <| .tickPulses <| .tickToken <| .same h

theorem issueTick {n u m : Nat} {d : Dev} (h : d.Formed) : (d.issueTick n u m).Formed :=
  .spreadTick <| .ite (.wrAt <| .wrAt <| .wrAt <| .wrAt <| .wrAt <| .same h) <| .wrAt <| .wrAt <| .wrAt <| .same h

theorem mergeTick {n : Nat} {d : Dev} (h : d.Formed) : (d.mergeTick n).Formed := .bumpAt h

theorem tickCycle {n k m : Nat} {d : Dev} (h : d.Formed) : (d.tickCycle n k m).Formed :=
  .ite h <| .ite (.forUpto .mergeTick h) <| .forUpto .mergeTick <| .issueTick h

theorem fireEntry {n e m : Nat} {d : Dev} (h : d.Formed) : (d.fireEntry n e m).Formed :=
  .ite (.event <| .wrAt h) <| .ite h <| .ite (.setPulse h) <| .ite (.setPulse h) <| .ite (.trigPulse h) h

theorem crossed {n p : Nat} {up : Bool} {m : Nat} {d : Dev} (h : d.Formed) : (d.crossed n p up m).Formed := .tickCycle <| .forAll .fireEntry h

theorem countTb {n : Nat} {up : Bool} {m : Nat} {d : Dev} (h : d.Formed) : (d.countTb n up m).Formed :=
  .crossed <| .ite (.wrAt <| .wrAt h) <| .ite (.wrAt <| .wrAt h) <| .wrAt h

theorem substitute {n due m : Nat} {d : Dev} (h : d.Formed) : (d.substitute n due m).Formed := .spreadTick <| .wrAt <| .wrAt <| .same h

theorem startSubstitutes {n : Nat} {d : Dev} (h : d.Formed) : (d.startSubstitutes n).Formed := .ite (.substitute h) h

theorem loseTb {n cause : Nat} {d : Dev} (h : d.Formed) : (d.loseTb n cause).Formed := by
  unfold Dev.loseTb
  extract_lets _ d1 _ d2 d3 _ d4
  have h1 : d1.Formed := .same h
  have h2 : d2.Formed := .same h1
  have h3 : d3.Formed := .wrAt <| .wrAt <| .wrAt h2
  have h4 : d4.Formed := .unitFault h3
  exact .ite h1 <| .startSubstitutes <| .ite (.requestHalt h4) h4

theorem endCause {n cause : Nat} {d : Dev} (h : d.Formed) : (d.endCause n cause).Formed := .same h

theorem watchTbPins {d : Dev} (h : d.Formed) : d.watchTbPins.Formed := .forUpto (fun hd => .ite (.loseTb hd) <| .ite (.endCause hd) hd) h

theorem pulseStep {k m : Nat} {d : Dev} (h : d.Formed) : (d.pulseStep k m).Formed :=
  .ite (.setPulse <| .same h) <| .ite (.setPulse <| .same h) <| .wrAt <| .setPulse <| .same h

theorem latePulse {from' m k : Nat} {d : Dev} (h : d.Formed) : (d.latePulse from' m k).Formed :=
  .ite (.wrAt <| .forUpto (fun hd => .ite (.pulseStep hd) hd) <| .same h) h

theorem lateGate {from' k : Nat} {d : Dev} (h : d.Formed) : (d.lateGate from' k).Formed := .ite (.wrAt h) h

theorem latePeriodic {m n : Nat} {d : Dev} (h : d.Formed) : (d.latePeriodic m n).Formed := .ite (.forUpto .countTb <| .same h) h

theorem settleJump {d : Dev} (h : d.Formed) : d.settleJump.Formed := by
  dsimp only [Dev.settleJump]
  split
  · exact h
  · split
    · exact .forUpto .latePeriodic <| .forUpto .lateGate <| .forUpto .latePulse <| .when (.event <|
      .same h) .traceTs
    · exact .when (.event <| .same h) .traceTs
    · exact .wr <| .when (.event <| .same h) .traceTs

theorem toTick {d : Dev} {t : Nat} (h : d.Formed) : (d.toTick t).Formed := .settleJump <| .toTime h

theorem dividerCount {n t : Nat} {d : Dev} (h : d.Formed) : (d.dividerCount n t).Formed := .ite (.countTb <| .same <| .toTick h) <| .toTick h

theorem periodicInstant {n t : Nat} {d : Dev} (h : d.Formed) : (d.periodicInstant n t).Formed := .ite (.countTb <| .same <| .toTick h) <| .toTick h

theorem toInput {d : Dev} {t : Nat} (h : d.Formed) : (d.toInput t).Formed := .watchTbPins <| .settlePins <| .toTick h

theorem inputEdge {source n level since t : Nat} {d : Dev} (h : d.Formed) : (d.inputEdge source n level since t).Formed := by
  dsimp only [Dev.inputEdge]
  split
  · exact .ite (.countTb <| .toInput h) <| .toInput h
  · exact .toInput h

theorem triggerEdge {line level since t : Nat} {d : Dev} (h : d.Formed) : (d.triggerEdge line level since t).Formed :=
  .ite h <| .forUpto (fun hd => .ite (.inputEdge hd) hd) h

theorem encoderError {n : Nat} {d : Dev} (h : d.Formed) : (d.encoderError n).Formed := .loseTb <| .event <| .bumpAt h

theorem encoderCount {n a b since t : Nat} {d : Dev} (h : d.Formed) : (d.encoderCount n a b since t).Formed := by
  unfold Dev.encoderCount
  extract_lets d1 _ _ _ d2
  have h1 : d1.Formed := .toInput h
  have h2 : d2.Formed := .same h1
  split
  · exact h1
  · exact .ite h2 <| .ite (.encoderError h2) <| .countTb <| .endCause h2

theorem index {n since t : Nat} {d : Dev} (h : d.Formed) : (d.index n since t).Formed :=
  .ite (.ite (.event <| .bumpAt <| .wrAt <| .wrAt <| .same <| .toInput h) <| .wrAt <| .wrAt <| .same <| .toInput h) <| .toInput h

theorem lostTimeout {n t : Nat} {d : Dev} (h : d.Formed) : (d.lostTimeout n t).Formed := .ite (.loseTb <| .toTick h) <| .toTick h

theorem substituteTick {n t : Nat} {d : Dev} (h : d.Formed) : (d.substituteTick n t).Formed := .ite (.substitute <| .toTick h) <| .toTick h

theorem refLost {d : Dev} (h : d.Formed) : d.refLost.Formed := .forUpto (fun hd => .ite (.loseTb hd) hd) h

theorem tbTakesEffect {n : Nat} {d : Dev} (h : d.Formed) : (d.tbTakesEffect n).Formed := .same h

theorem sourceChanged {n : Nat} {keep : Bool} {d : Dev} (h : d.Formed) : (d.sourceChanged n keep).Formed :=
  .wrAt <| .wrAt <| .wrAt <| .wrAt <| .ite (.same h) <| .wrAt <| .wrAt <| .same h

theorem setTbBlock {n : Nat} {bs : Bytes} {keep : Bool} {d : Dev} (h : d.Formed) : (d.setTbBlock n bs keep).Formed := by
  unfold Dev.setTbBlock
  extract_lets _ _ d1 d2 d3
  have h1 : d1.Formed := .wrAt <| .wrAt <| .wrAt <| .wrAt <| .wrAt <| .wrAt <| .wrAt h
  have h2 : d2.Formed := .wrAt <| .wrAt <| .wrAt <| .wrAt <| .wrAt <| .wrAt h1
  have h3 : d3.Formed := .ite h2 <| .sourceChanged h2
  exact .watchTbPins <| .tbTakesEffect h3

theorem tbCfgWrite {n off w : Nat} {d : Dev} (h : d.Formed) : (d.tbCfgWrite n off w).Formed :=
  .ite (.wrAt h) <| .ite (.stageLow h) <| .ite (.setTbBlock <| .ite (.unstage h) h) <| .wrAt h

theorem pulseCtrlWrite {k w t : Nat} {d : Dev} (h : d.Formed) : (d.pulseCtrlWrite k w t).Formed := by
  unfold Dev.pulseCtrlWrite
  extract_lets d0 _ _ _ _ d1 _ _ d2 _ _ d3
  have h0 : d0.Formed := .toTick h
  have h1 : d1.Formed := .wrAt <| .wrAt <| .when h0 .wrAt
  have h2 : d2.Formed := .wrAt h1
  have h3 : d3.Formed := .setPulse <| .same h2
  exact .ite (.wr h0) <| .ite (.wrAt h3) h3

theorem pulseBoundary {k t : Nat} {d : Dev} (h : d.Formed) : (d.pulseBoundary k t).Formed :=
  .ite (.ite (.pulseStep <| .pulseStep <| .toTick h) <| .pulseStep <| .toTick h) <| .toTick h

theorem trigPulseEnd {k t : Nat} {d : Dev} (h : d.Formed) : (d.trigPulseEnd k t).Formed := .ite (.setOut <| .same <| .toTick h) <| .toTick h

theorem setCaps {k : Nat} {l : List Nat} {d : Dev} (h : d.Formed) : (d.setCaps k l).Formed := .wrAt <| .wrAt <| .same h

theorem captureEdge {k level since t : Nat} {d : Dev} (h : d.Formed) : (d.captureEdge k level since t).Formed :=
  .ite (.ite (.event <| .wrAt <| .settlePins <| .toTick h) <| .event <| .setCaps <| .settlePins <| .toTick h) <| .settlePins <| .toTick h

theorem stampLoRead {k : Nat} {d : Dev} (h : d.Formed) : (d.stampLoRead k).Formed := .setCaps <| .emit <| .same h

/-! Device time (spec/10). -/

theorem timeWrap {t : Nat} {d : Dev} (h : d.Formed) : (d.timeWrap t).Formed := .ite (.traceWrap <| .event <| .wr <| .same <| .toTime h) h

theorem lockTime {x : ℤ} {d : Dev} (h : d.Formed) : (d.lockTime x).Formed := .ite (.wr <| .same h) <| .ite (.wr <| .same h) <| .same h

theorem trimAddend {base : Nat} {d : Dev} (h : d.Formed) : (d.trimAddend base).Formed := .setAddend <| .free h

theorem setJump {kind : JumpKind} {x : Nat} {ts : Bool} {d : Dev} (h : d.Formed) : (d.setJump kind x ts).Formed := .same h

theorem applyOffset {x : ℤ} {base : Nat} {d : Dev} (h : d.Formed) : (d.applyOffset x base).Formed := by
  unfold Dev.applyOffset
  extract_lets d1
  have h1 : d1.Formed := .lockTime <| .wr h
  exact .ite h1 <| .ite (.trimAddend h1) <| .ite (.unitFault <| .wr <| .wr h1) <| .setJump h1

theorem offsetAbsorbed {t : Nat} {d : Dev} (h : d.Formed) : (d.offsetAbsorbed t).Formed := .ite (.wr <| .toTick h) <| .toTick h

theorem jumpAccept {d : Dev} (h : d.Formed) : d.jumpAccept.Formed := .ite (.wr h) <| .ite (.setJump <| .wr h) h

theorem jumpReject {d : Dev} (h : d.Formed) : d.jumpReject.Formed := .ite (.wr <| .wr <| .wr h) h

theorem resumeTime {d : Dev} (h : d.Formed) : d.resumeTime.Formed := .wr h

theorem elect {d : Dev} (h : d.Formed) : d.elect.Formed := .ite (.wr <| .wr <| .wr h) <| .event <| .same <| .wr <| .wr <| .wr h

theorem announce {d : Dev} (h : d.Formed) : d.announce.Formed := .elect <| .sendAll h

theorem forgetMaster {d : Dev} (h : d.Formed) : d.forgetMaster.Formed := .announce <| .same h

theorem syncLoss {t : Nat} {d : Dev} (h : d.Formed) : (d.syncLoss t).Formed := by
  unfold Dev.syncLoss
  extract_lets d1 _ d2
  have h1 : d1.Formed := .toTick h
  have h2 : d2.Formed := .ite (.forUpto (fun hd => .ite (.loseTb hd) hd) <| .same h1) h1
  exact .ite h1 <| .ite (.forgetMaster <| .same h2) h2

theorem syncInterval {t : Nat} {d : Dev} (h : d.Formed) : (d.syncInterval t).Formed := .ite (.sendAll <| .toTick h) <| .sendAllBut <| .toTick h

theorem measured {p : Nat} {d : Dev} (h : d.Formed) : (d.measured p).Formed := .applyOffset <| .wrAt h

theorem voidMeasure {p : Nat} {d : Dev} (h : d.Formed) : (d.voidMeasure p).Formed := .same h

theorem ptmExchange {m t : Nat} {d : Dev} (h : d.Formed) : (d.ptmExchange m t).Formed :=
  .ite (.toTick h) <| .ite (.applyOffset <| .wr <| .emit <| .toTick h) <| .wr <| .emit <| .toTick h

theorem timeCtrlFields {w : Nat} {d : Dev} (h : d.Formed) : (d.timeCtrlFields w).Formed :=
  .ite (.ite (.wr <| .wr <| .wr <| .wr h) <| .wr <| .wr <| .wr h) <| .announce <| .ite (.wr <| .wr <| .wr <| .wr h) <| .wr <| .wr <| .wr h

theorem timeCtrlWrite {w : Nat} {d : Dev} (h : d.Formed) : (d.timeCtrlWrite w).Formed :=
  .when (.when (.when (.timeCtrlFields h) .jumpAccept) .jumpReject) .resumeTime

theorem addendWrite {hi : Nat} {d : Dev} (h : d.Formed) : (d.addendWrite hi).Formed := .ite (.setAddend <| .unstage h) <| .wr <| .unstage h

theorem referenceReturn {t : Nat} {d : Dev} (h : d.Formed) : (d.referenceReturn t).Formed :=
  .forUpto (fun hd => .ite (.tbTakesEffect <| .ite (.endCause hd) hd) <| .ite (.endCause hd) hd) <| .wr <| .toTick h

theorem positionWrite {w : Nat} {d : Dev} (h : d.Formed) : (d.positionWrite w).Formed := .ite (.wr h) <| .announce <| .wr h

/-! KermaLink ports (spec/11). -/

theorem showPort {p : Nat} {d : Dev} (h : d.Formed) : (d.showPort p).Formed := .wrAt <| .ite (.wrAt <| .wrAt h) <| .wrAt h

theorem pathLost {p : Nat} {d : Dev} (h : d.Formed) : (d.pathLost p).Formed := .ite h <| .announce <| .forUpto (fun hd => .ite (.loseTb hd) hd) h

theorem setPortState {p s : Nat} {d : Dev} (h : d.Formed) : (d.setPortState p s).Formed := by
  unfold Dev.setPortState
  extract_lets _ d1 d2 _ d2a d2b d3
  have h1 : d1.Formed := .setPort <| .wrAt h
  have h2 : d2.Formed := .ite h1 <| .traceLink <| .event h1
  have h2a : d2a.Formed := .ite h2 <| .ite (.count h2) <| .ite (.count h2) h2
  have h2b : d2b.Formed := .ite (.count h2a) h2a
  have h3 : d3.Formed := .ite (.pathLost <| .bumpAt h2b) h2b
  exact .rewait <| .showPort h3

theorem portDown {p reason : Nat} {d : Dev} (h : d.Formed) : (d.portDown p reason).Formed :=
  .ite (.event <| .setPortState <| .setPort <| .wrAt <| .wrAt <| .wrAt <| .wrAt h) <| .setPortState <| .setPort <| .wrAt <| .wrAt <| .wrAt <| .wrAt h

theorem enterDetect {p : Nat} {d : Dev} (h : d.Formed) : (d.enterDetect p).Formed := .setPortState <| .setPort <| .wrAt h

theorem enterClockLock {p version : Nat} {low : Bool} {d : Dev} (h : d.Formed) : (d.enterClockLock p version low).Formed := .setPortState <| .setPort h

theorem enterBitLock {p : Nat} {d : Dev} (h : d.Formed) : (d.enterBitLock p).Formed := .setPortState <| .setPort h

theorem enterSymbolLock {p lanes : Nat} {d : Dev} (h : d.Formed) : (d.enterSymbolLock p lanes).Formed := .wrAt <| .wrAt <| .wrAt <| .setPortState <| .setPort h

theorem attemptFailed {p reason : Nat} {d : Dev} (h : d.Formed) : (d.attemptFailed p reason).Formed :=
  .ite (.enterClockLock <| .wrAt h) <| .ite (.portDown h) <| .enterDetect <| .setPort h

theorem linkStateTimeout {p t : Nat} {d : Dev} (h : d.Formed) : (d.linkStateTimeout p t).Formed :=
  .ite (.ite (.ite (.enterSymbolLock <| .toTime h) <| .attemptFailed <| .toTime h) <| .attemptFailed <| .toTime h) h

theorem klCtrlWrite {p w : Nat} {d : Dev} (h : d.Formed) : (d.klCtrlWrite p w).Formed := by
  unfold Dev.klCtrlWrite
  extract_lets _ _ _ d1 d2 d3
  have h1 : d1.Formed := .wrAt <| .wrAt h
  have h2 : d2.Formed := .ite (.wrAt h1) h1
  have h3 : d3.Formed := .ite (.wrAt h2) h2
  exact .ite (.wrAt h) <| .ite (.ite (.portDown <| .wrAt h3) h3) <| .ite (.enterDetect <| .setPort <| .wrAt h3) h3

theorem txEqWrite {p w : Nat} {d : Dev} (h : d.Formed) : (d.txEqWrite p w).Formed := .ite (.wrAt h) <| .wrAt <| .wrAt <| .wrAt h

theorem peerClockActivity {p t : Nat} {d : Dev} (h : d.Formed) : (d.peerClockActivity p t).Formed := .ite (.enterClockLock <| .toTime h) h

theorem receivePllLock {p t : Nat} {d : Dev} (h : d.Formed) : (d.receivePllLock p t).Formed :=
  .ite (.ite (.enterSymbolLock <| .wrAt <| .toTime h) <| .enterBitLock <| .wrAt <| .toTime h) h

theorem bitLockDone {p lanes t : Nat} {d : Dev} (h : d.Formed) : (d.bitLockDone p lanes t).Formed :=
  .ite (.ite (.enterSymbolLock <| .setPort <| .toTime h) <| .setPort <| .toTime h) h

theorem clearStaged {p : Nat} {d : Dev} (h : d.Formed) : (d.clearStaged p).Formed := .same h

theorem measureLead {d : Dev} (h : d.Formed) : d.measureLead.Formed := .ite (.wr <| .free h) h

theorem enterActive {p : Nat} {d : Dev} (h : d.Formed) : (d.enterActive p).Formed := by
  unfold Dev.enterActive
  extract_lets d1 _ d2
  have h1 : d1.Formed := .setPortState h
  have h2 : d2.Formed := .clearStaged <| .setPort h1
  exact .ite (.portDown <| .wrAt <| .report h2) <| .rewait <| .measureLead <| .queueMessage h2

theorem reviveShort {d : Dev} (h : d.Formed) : d.reviveShort.Formed := .forUpto (fun hd => .ite (.enterDetect <| .wrAt hd) hd) h

theorem refreshTrained {d : Dev} (h : d.Formed) : d.refreshTrained.Formed := .forUpto (fun hd => .ite (.showPort hd) hd) h

theorem sendExchangeA {p : Nat} {d : Dev} (h : d.Formed) : (d.sendExchangeA p).Formed := .emit h

theorem enterExchange {p : Nat} {d : Dev} (h : d.Formed) : (d.enterExchange p).Formed := .emit <| .emit <| .sendExchangeA <| .setPortState <| .setPort h

theorem symbolLockDone {p t : Nat} {d : Dev} (h : d.Formed) : (d.symbolLockDone p t).Formed :=
  .ite (.ite (.setPortState <| .setPort <| .toTime h) <| .enterExchange <| .toTime h) h

theorem peerMismatch {p : Nat} {d : Dev} (h : d.Formed) : (d.peerMismatch p).Formed := .portDown <| .report h

theorem exchangeDone {p : Nat} {d : Dev} (h : d.Formed) : (d.exchangeDone p).Formed := .ite (.ite (.enterActive h) <| .enterClockLock h) h

theorem exchangeA {p highest selected lanes position port mhz device : Nat} {d : Dev} (h : d.Formed) :
    (d.exchangeA p highest selected lanes position port mhz device).Formed := by
  unfold Dev.exchangeA
  extract_lets d1 _ d2 _ d3
  have h1 : d1.Formed := .wrAt <| .wrAt <| .wrAt <| .wrAt h
  have h2 : d2.Formed := .setPort <| .wrAt h1
  have h3 : d3.Formed := .setPort h2
  exact .ite (.ite (.ite (.attemptFailed h2) <| .exchangeDone <| .ite h3 <| .sendExchangeA h3) <| .peerMismatch h1) h

theorem exchangeB {p production size : Nat} {d : Dev} (h : d.Formed) : (d.exchangeB p production size).Formed :=
  .ite (.ite (.exchangeDone <| .setPort <| .wrAt h) <| .peerMismatch <| .wrAt h) h

theorem exchangeC {p serial : Nat} {d : Dev} (h : d.Formed) : (d.exchangeC p serial).Formed := .ite (.exchangeDone <| .setPort <| .wrAt h) h

theorem linkLos {p lane t : Nat} {d : Dev} (h : d.Formed) : (d.linkLos p lane t).Formed :=
  .ite (.ite (.setPort <| .report <| .wrAt <| .toTime h) <| .enterBitLock <| .setPort <| .report <| .wrAt <| .toTime h) h

theorem linkLol {p lane t : Nat} {d : Dev} (h : d.Formed) : (d.linkLol p lane t).Formed := by
  unfold Dev.linkLol
  extract_lets d1 _ d2
  have h1 : d1.Formed := .toTime h
  have h2 : d2.Formed := .report <| .wrAt h1
  exact .ite (.enterClockLock <| .report <| .wrAt h1) <| .ite (.ite h2 <| .enterBitLock h2) h

theorem emitFrame {p : Nat} {lanes : List Bytes} {data : Bool} {d : Dev} (h : d.Formed) : (d.emitFrame p lanes data).Formed :=
  .count <| .count <| .count <| .emit <| .setPort h

theorem messageSent {p seq kind : Nat} {d : Dev} (h : d.Formed) : (d.messageSent p seq kind).Formed :=
  .ite (.setPort h) <| .ite (.same h) <| .ite (.enterClockLock h) <| .ite (.enterClockLock h) h

theorem newFrame {p : Nat} {d : Dev} (h : d.Formed) : (d.newFrame p).Formed := .forAll .messageSent <| .count <| .emitFrame <| .setPort h

theorem linkFrameSend {p t : Nat} {d : Dev} (h : d.Formed) : (d.linkFrameSend p t).Formed := by
  unfold Dev.linkFrameSend
  extract_lets d1
  have h1 : d1.Formed := .toTime h
  refine .ite ?_ ?_
  · refine .ite ?_ ?_
    · split
      · exact .setPort <| .emitFrame h1
      · exact .setPort h1
    · exact .ite h1 <| .newFrame h1
  · exact h

theorem ackFrames {p ack : Nat} {d : Dev} (h : d.Formed) : (d.ackFrames p ack).Formed := by
  dsimp only [Dev.ackFrames]
  split
  · exact h
  · refine .ite ?_ ?_
    · split
      · exact .ite (.setPort h) <| .queueMessage <| .setPort <| .setPort h
      · exact .setPort h
    · exact h

theorem replayExhausted {p : Nat} {d : Dev} (h : d.Formed) : (d.replayExhausted p).Formed :=
  .ite (.ite (.linkStopped <| .sendStop <| .portDown <| .report h) <| .same <| .sendStop <| .portDown <| .report h) <| .portDown <| .report h

theorem startReplay {p : Nat} {d : Dev} (h : d.Formed) : (d.startReplay p).Formed := by
  dsimp only [Dev.startReplay]
  split
  · exact h
  · exact .ite h <| .ite (.replayExhausted h) <| .count <| .bumpAt <| .setPort h

theorem replayTimeout {p t : Nat} {d : Dev} (h : d.Formed) : (d.replayTimeout p t).Formed := .ite (.startReplay <| .toTime h) h

theorem takeData {p u : Nat} {lanes : List Bytes} {d : Dev} (h : d.Formed) : (d.takeData p u lanes).Formed := by
  dsimp only [Dev.takeData]
  refine .ite ?_ ?_
  · exact h
  · split
    · exact h
    · exact .rewait <| .setPort <| .same h

theorem disparity {p : Nat} {errors : List (Nat × Nat)} {d : Dev} (h : d.Formed) : (d.disparity p errors).Formed :=
  .ite h <| .ite (.setPort <| .report <| .count <| .wrAt h) <| .count <| .wrAt h

/-! The messages of a KermaLink port (spec/11). -/

theorem passOnce {key : Nat × Nat × Nat × Nat} {d : Dev} (h : d.Formed) : (d.passOnce key).Formed := .same h

theorem recvAnnounce {p eligible priority origin hops : Nat} {d : Dev} (h : d.Formed) : (d.recvAnnounce p eligible priority origin hops).Formed :=
  .ite (.ite (.ite (.sendAllBut h) h) <| .elect <| .same <| .ite (.sendAllBut h) h) h

theorem recvSync {p addend t : Nat} {d : Dev} (h : d.Formed) : (d.recvSync p addend t).Formed := by
  unfold Dev.recvSync
  extract_lets d1 d2 _ d3 d4
  have h1 : d1.Formed := .toTime h
  have h2 : d2.Formed := .voidMeasure h1
  have h3 : d3.Formed := .same h2
  have h4 : d4.Formed := .ite h3 <| .setAddend h3
  exact .ite (.queueMessage <| .forUpto (fun hd => .ite (.endCause hd) hd) h4) h

theorem tryMeasure {p : Nat} {d : Dev} (h : d.Formed) : (d.tryMeasure p).Formed := .ite (.voidMeasure <| .measured h) h

theorem recvFollowUp {p t1 void : Nat} {d : Dev} (h : d.Formed) : (d.recvFollowUp p t1 void).Formed :=
  .ite (.ite (.voidMeasure h) <| .ite h <| .tryMeasure <| .same h) h

theorem recvDelayReq {p again t : Nat} {d : Dev} (h : d.Formed) : (d.recvDelayReq p again t).Formed := .ite (.queueMessage <| .toTime h) h

theorem recvDelayResp {p t4 void : Nat} {d : Dev} (h : d.Formed) : (d.recvDelayResp p t4 void).Formed :=
  .ite (.ite (.voidMeasure h) <| .ite h <| .tryMeasure <| .same h) h

theorem followPosition {n pos : Nat} {d : Dev} (h : d.Formed) : (d.followPosition n pos).Formed := .ite (.wrAt h) <| .forAll .fireEntry <| .wrAt h

theorem recvTick {p n stamp pos : Nat} {d : Dev} (h : d.Formed) : (d.recvTick p n stamp pos).Formed :=
  .ite (.ite (.issueTick <| .followPosition <| .endCause <| .same <| .sendAllBut h) <| .same <| .sendAllBut h) h

theorem recvReady {p belay take origin : Nat} {d : Dev} (h : d.Formed) : (d.recvReady p belay take origin).Formed :=
  .ite (.ite (.masterRelease <| .same <| .passOnce h) <| .queueMessage <| .passOnce h) h

theorem recvRelease {p belay instant resp take : Nat} {d : Dev} (h : d.Formed) : (d.recvRelease p belay instant resp take).Formed :=
  .ite (.ite (.ite (.requestHalt <| .sendAllBut <| .passOnce h) <| .same <| .sendAllBut <| .passOnce h) <| .sendAllBut <| .passOnce h) h

theorem undoBoundary {d : Dev} (h : d.Formed) : d.undoBoundary.Formed := by
  dsimp only [Dev.undoBoundary]
  split
  · exact h
  · exact .wr <| .same h

theorem recvStop {p origin take code : Nat} {d : Dev} (h : d.Formed) : (d.recvStop p origin take code).Formed := by
  unfold Dev.recvStop
  extract_lets _ _ d0 d1
  have h0 : d0.Formed := .passOnce h
  have h1 : d1.Formed := .ite (.sendAllBut h0) <| .queueMessage h0
  exact .ite (.ite h1 <| .ite (.requestHalt h1) <| .ite (.ite (.peerStopped <| .undoBoundary h1) <| .peerStopped h1) <| .same h1) h

theorem recvStartCheck {p digest mhz : Nat} {d : Dev} (h : d.Formed) : (d.recvStartCheck p digest mhz).Formed := .ite (.ite (.setPort h) <| .report <| .setPort h) h

theorem recvLowrateReq {p : Nat} {d : Dev} (h : d.Formed) : (d.recvLowrateReq p).Formed := .ite (.ite (.setPort h) <| .queueMessage <| .setPort <| .setPort h) h

theorem recvLowrateAck {p : Nat} {d : Dev} (h : d.Formed) : (d.recvLowrateAck p).Formed := .ite (.enterClockLock h) h

theorem recvFullrateReq {p : Nat} {d : Dev} (h : d.Formed) : (d.recvFullrateReq p).Formed := .ite (.ite (.setPort h) <| .enterClockLock <| .setPort h) h

theorem takeMessage {p again t : Nat} {m : Nat × Bytes} {d : Dev} (h : d.Formed) : (d.takeMessage p again t m).Formed :=
  .ite (.recvAnnounce h) <| .ite (.recvSync h) <| .ite (.recvFollowUp h) <| .ite (.recvDelayReq h) <| .ite (.recvDelayResp h) <| .ite (.recvTick h) <|
  .ite (.recvReady h) <| .ite (.recvRelease h) <| .ite (.recvStop h) <| .ite (.recvStartCheck h) <| .ite (.recvLowrateReq h) <| .ite (.recvLowrateAck h) <|
  .ite (.recvFullrateReq h) <| .ite h <| .bumpAt h

theorem commaChecks {p missing t : Nat} {d : Dev} (h : d.Formed) : (d.commaChecks p missing t).Formed :=
  .forUpto (fun hd => .ite (.linkLol <| .setPort hd) <| .setPort hd) h

theorem discardFrame {p next : Nat} {d : Dev} (h : d.Formed) : (d.discardFrame p next).Formed := .setPort h

theorem acceptFrame {p u t : Nat} {lanes : List Bytes} {d : Dev} (h : d.Formed) : (d.acceptFrame p u t lanes).Formed := by
  unfold Dev.acceptFrame
  extract_lets _ _ _ _ _ d2 d3 d4 d5
  have h2 : d2.Formed := .setPort <| .count h
  have h3 : d3.Formed := .ackFrames h2
  have h4 : d4.Formed := .ite (.startReplay h3) h3
  have h5 : d5.Formed := .ite (.takeData h4) h4
  exact .forAll (fun hd => .takeMessage <| .count hd) h5

theorem judgeFrame {p t : Nat} {ins : List LaneIn} {d : Dev} (h : d.Formed) : (d.judgeFrame p t ins).Formed :=
  .ite (.count <| .bumpAt <| .discardFrame h) <| .ite (.discardFrame h) <| .acceptFrame h

theorem linkFrameReceive {p : Nat} {lanes : List (List Nat)} {t : Nat} {d0 : Dev} (h : d0.Formed) : (d0.linkFrameReceive p lanes t).Formed := by
  unfold Dev.linkFrameReceive
  extract_lets d _ _ d1 _ d2
  have hd : d.Formed := .toTime h
  have h1 : d1.Formed := .disparity <| .setPort hd
  have h2 : d2.Formed := .ite h1 <| .commaChecks h1
  exact .ite (.ite (.judgeFrame h2) h2) h

/-! Memory behind the NoC: DDR5 lines with their error codes and poison (spec/13). -/

theorem askChannel {pa : Nat} {d : Dev} (h : d.Formed) : (d.askChannel pa).Formed := .ite h <| .same h

theorem poisonLine {line : Nat} {d : Dev} (h : d.Formed) : (d.poisonLine line).Formed := by
  unfold Dev.poisonLine
  extract_lets _ _ d1
  have h1 : d1.Formed := .count <| .same h
  refine .ite ?_ ?_
  · exact h1
  · split
    · exact .wrAt <| .wrAt h1
    · exact .wrAt h1

theorem unpoisonLine {line : Nat} {d : Dev} (h : d.Formed) : (d.unpoisonLine line).Formed := by
  dsimp only [Dev.unpoisonLine]
  split
  · exact .wrAt <| .wrAt <| .same h
  · exact .same h

theorem ddrLost {req line : Nat} {d : Dev} (h : d.Formed) : (d.ddrLost req line).Formed :=
  .ite (.poisonLine <| .count <| .bumpAt h) <| .report <| .poisonLine <| .count <| .bumpAt h

theorem ddrRead {req line : Nat} {v : MemView} {d : Dev} (h : d.Formed) : (d.ddrRead req line v).2.2.Formed := by
  unfold Dev.ddrRead
  extract_lets _ d0 _ x y
  have h0 : d0.Formed := .count h
  have hx : x.2.Formed := .free h0
  have hy : y.2.Formed := .free hx
  split
  · exact h0
  · exact .event <| .count <| .bumpAt h0
  · exact .ddrLost h0
  · exact .ite_snd_snd (.ddrLost hx) hy

theorem storeMem {d : Dev} {pa : Nat} {bs : Bytes} (h : d.Formed) : Dev.Formed { d with ddr := { d.ddr with mem := SMap.store d.ddr.mem pa bs } } :=
  { h with mem := SMap.wf_store _ _ _ h.mem }

theorem ddrWrite {pa : Nat} {bs : Bytes} {d : Dev} (h : d.Formed) : (d.ddrWrite pa bs).Formed :=
  .ite (.count <| .unpoisonLine <| .storeMem h) <| .ite (.bumpAt h) <| .count <| .storeMem h

theorem tableEntry {key : Nat} {host : Bool} {addr : Nat} {v : MemView} {d : Dev} (h : d.Formed) : (d.tableEntry key host addr v).2.2.Formed := by
  dsimp only [Dev.tableEntry]
  refine .ite_snd_snd ?_ ?_
  · exact h
  · refine .ite_snd_snd ?_ ?_
    · split
      · exact .same <| .emit <| .passing h
      · exact .emit <| .passing h
    · refine .ite_snd_snd ?_ ?_
      · exact h
      · refine .ite_snd_snd ?_ ?_
        · exact h
        · refine .ite_snd_snd ?_ ?_
          · exact .askChannel h
          · split
            · next heq => exact .same <| .trip heq (.ddrRead <| .passing h)
            · next heq => exact .trip heq (.ddrRead <| .passing h)

theorem walk {ctx dva : Nat} {write host : Bool} {addr rights : Nat} {v : MemView} {d : Dev} {l : Nat} (h : d.Formed) :
    (d.walk ctx dva write host addr rights v l).2.2.Formed := by
  induction l generalizing host addr rights v d with
  | zero => exact h
  | succ l ih =>
    dsimp only [Dev.walk]
    split
    · next heq => exact .trip heq (.tableEntry h)
    · next heq =>
      have hd := Formed.trip heq (.tableEntry h)
      exact .ite_snd_snd hd <| .ite_snd_snd hd <| .ite_snd_snd (.ite_snd_snd hd <| .ite_snd_snd hd <| .ite_snd_snd hd hd) <| ih hd

theorem translate {ctx dva : Nat} {write : Bool} {v : MemView} {d : Dev} (h : d.Formed) : (d.translate ctx dva write v).2.2.Formed := .ite_snd_snd h <| .walk h

theorem readChunk {req ctx dva n : Nat} {v : MemView} {d : Dev} (h : d.Formed) : (d.readChunk req ctx dva n v).2.2.Formed := by
  dsimp only [Dev.readChunk]
  split
  · next heq => exact .trip heq (.translate h)
  · next heq => exact .trip heq (.translate h)
  · rename_i heq
    split <;> exact .emit <| .passing <| .trip heq (.translate h)
  · rename_i heq
    refine .ite_snd_snd ?_ ?_
    · exact .askChannel <| .trip heq (.translate h)
    · split <;> next heq1 => exact .trip heq1 (.ddrRead <| .passing <| .trip heq (.translate h))

theorem findTarget {ctx dva : Nat} {bs : Bytes} {v : MemView} {d : Dev} (h : d.Formed) : (d.findTarget ctx dva bs v).2.2.Formed := by
  unfold Dev.findTarget
  split
  · next heq => exact .trip heq (.translate h)
  · next heq => exact .trip heq (.translate h)
  · next heq => exact .trip heq (.translate h)
  · next heq => exact .askChannel <| .trip heq (.translate h)

theorem writeTarget {w : Target} {d : Dev} (h : d.Formed) : (d.writeTarget w).Formed := .ite (.emit <| .passing h) <| .ddrWrite <| .passing h

theorem writeChunk {ctx dva : Nat} {bs : Bytes} {v : MemView} {d : Dev} (h : d.Formed) : (d.writeChunk ctx dva bs v).2.2.Formed := by
  unfold Dev.writeChunk
  split
  · next heq => exact .trip heq (.findTarget h)
  · next heq => exact .writeTarget <| .trip heq (.findTarget h)

theorem dmmuFault {ctx dva reason write who : Nat} {d : Dev} (h : d.Formed) : (d.dmmuFault ctx dva reason write who).Formed :=
  .event <| .unitFault <| .bumpAt <| .wrAt <| .wrAt <| .wrAt h

theorem fenceStatus {addr : Nat} {d : Dev} (h : d.Formed) : (d.fenceStatus addr).Formed := .event <| .bump <| .wr <| .wr h

theorem fenceFault {ctx addr who : Nat} {d : Dev} (h : d.Formed) : (d.fenceFault ctx addr who).Formed := .fenceStatus <| .unitFault h

theorem reportDma {ctx write who : Nat} {r : Dma} {d : Dev} (h : d.Formed) : (d.reportDma ctx write who r).Formed := by
  unfold Dev.reportDma
  split
  · exact .dmmuFault h
  · exact .fenceFault h
  · exact h
  · exact h
  · exact h
  · exact h

theorem dmaRead {req ctx dva n : Nat} {v : MemView} {d : Dev} (h : d.Formed) : (d.dmaRead req ctx dva n v).2.2.Formed := by
  refine .foldl_snd_snd (fun {acc c} hd => ?_) h
  split
  · split
    · next heq => exact .trip heq (.readChunk hd)
    · exact .readChunk hd
  · exact hd

theorem dmaWrite {ctx dva : Nat} {bs : Bytes} {v : MemView} {d : Dev} (h : d.Formed) : (d.dmaWrite ctx dva bs v).2.2.Formed := by
  refine .foldl_snd_snd (fun {acc c} hd => ?_) h
  split
  · exact .writeChunk hd
  · exact hd

theorem writeTargets {ctx dva : Nat} {bs : Bytes} {v : MemView} {d : Dev} (h : d.Formed) : (d.writeTargets ctx dva bs v).2.2.Formed := by
  refine .foldl_snd_snd (fun {acc c} hd => ?_) h
  split
  · split <;> next heq => exact .trip heq (.findTarget hd)
  · exact hd

/-! The far-memory ports beyond the step (spec/05). -/

theorem holdResponse {d : Dev} {key g4 : Nat} {q : FarReq} {e : FarEntry} (h : d.Formed) : (d.holdResponse key g4 q e).Formed := .ite (.same h) <| .rewait <| .same h

theorem dropRequest {key : Nat} {d : Dev} (h : d.Formed) : (d.dropRequest key).Formed := .same h

theorem farStop {r : FRec} {d : Dev} (h : d.Formed) : (d.farStop r).Formed := .ite (.report h) <| .ite (.faultStop h) <| .addFaults h

theorem farTranslation {d : Dev} {g4 : Nat} {q : FarReq} (h : d.Formed) : (d.farTranslation g4 q).Formed := .farStop <| .wrAt <| .wrAt h

theorem farResponse {g4 id : Nat} {v : MemView} {d : Dev} (h : d.Formed) : (d.farResponse g4 id v).Formed := by
  dsimp only [Dev.farResponse]
  split
  · exact h
  · refine .ite ?_ ?_
    · exact h
    · split
      · next heq => exact .holdResponse <| .trip heq (.ite_snd_snd (.dmaWrite h) <| .dmaRead h)
      · next heq => exact .rewait <| .farStop <| .dropRequest <| .trip heq (.ite_snd_snd (.dmaWrite h) <| .dmaRead h)
      · next heq => exact .trip heq (.ite_snd_snd (.dmaWrite h) <| .dmaRead h)
      · next heq => exact .rewait <| .farTranslation <| .dropRequest <| .fenceStatus <| .trip heq (.ite_snd_snd (.dmaWrite h) <| .dmaRead h)
      · next heq => exact .rewait <| .farTranslation <| .dropRequest <| .trip heq (.ite_snd_snd (.dmaWrite h) <| .dmaRead h)
      · next heq => exact .rewait <| .farTranslation <| .dropRequest <| .trip heq (.ite_snd_snd (.dmaWrite h) <| .dmaRead h)

/-! The endpoints of the on-chip network, and the power domains with their gateways (spec/15). -/

theorem setDomReq {i v : Nat} {d : Dev} (h : d.Formed) : (d.setDomReq i v).Formed := .ite (.wrAt h) <| .wrAt h

theorem setDomState {i v : Nat} {d : Dev} (h : d.Formed) : (d.setDomState i v).Formed := .wrAt h

theorem loseG4 {g : Nat} {d : Dev} (h : d.Formed) : (d.loseG4 g).Formed := .same h

theorem clearBanks {g : Nat} {d : Dev} (h : d.Formed) : (d.clearBanks g).Formed := by
  unfold Dev.clearBanks
  extract_lets _ d1
  have h1 : d1.Formed := { h with banks := SMap.wf_clear _ _ _ h.banks }
  exact .event <| .forUpto .wrAt h1

theorem restoreLanes {g : Nat} {d : Dev} (h : d.Formed) : (d.restoreLanes g).Formed := by
  dsimp only [Dev.restoreLanes]
  split
  · exact h
  · exact .same h

theorem sleepChannel {c : Nat} {d : Dev} (h : d.Formed) : (d.sleepChannel c).Formed := .ite (.wrAt <| .same h) h

theorem wakeChannel {c : Nat} {d : Dev} (h : d.Formed) : (d.wakeChannel c).Formed := .ite (.count <| .wrAt <| .same h) h

theorem loseEdge {d : Dev} (h : d.Formed) : d.loseEdge.Formed := { (withdrawRelease h) with bmem := rfl }

theorem domainLoses {i : Nat} {d : Dev} (h : d.Formed) : (d.domainLoses i).Formed := .ite (.loseG4 h) <| .ite (.sleepChannel h) <| .ite (.loseEdge h) h

theorem startDomain {i : Nat} {d : Dev} (h : d.Formed) : (d.startDomain i).Formed := .ite h <| .wrAt <| .setDomState h

theorem stopDomain {i : Nat} {d : Dev} (h : d.Formed) : (d.stopDomain i).Formed := .ite (.setDomState <| .same h) <| .wrAt <| .wrAt h

theorem domRequest {i : Nat} {on : Bool} {d : Dev} (h : d.Formed) : (d.domRequest i on).Formed :=
  .ite (.ite (.startDomain h) h) <| .ite (.wrAt h) <| .ite (.ite h <| .stopDomain h) <| .wrAt h

theorem domCtrlWrite {i w : Nat} {d : Dev} (h : d.Formed) : (d.domCtrlWrite i w).Formed := .ite (.domRequest <| .setDomReq <| .wrAt h) h

theorem domainOffFault {i src op : Nat} {d : Dev} (h : d.Formed) : (d.domainOffFault i src op).Formed :=
  .ite (.unitFault <| .same <| .count <| .bump h) <| .count <| .bump h

theorem gateway {i src op : Nat} {wake : Bool} {d : Dev} (h : d.Formed) : (d.gateway i src op wake).2.Formed :=
  .ite_snd h <| .ite_snd (.wrAt h) <| .ite_snd (.ite_snd (.wrAt h) <| .count <| .event <| .wrAt <| .setDomReq <| .wrAt <| .setDomState h) <|
    .ite_snd (.count <| .wrAt <|
  .wrAt <| .setDomReq <| .startDomain h) <| .domainOffFault h

theorem wakeDdr {src : Nat} {wake : Bool} {d : Dev} (h : d.Formed) : (d.wakeDdr src wake).Formed := .forAll .gateway <| .same h

theorem pointOfNoReturn {i t : Nat} {d : Dev} (h : d.Formed) : (d.pointOfNoReturn i t).Formed := .ite (.same <| .toTime h) h

/-! The routers of the on-chip network: their buffers, credits and grants, and what becomes of a packet (spec/15). -/

theorem refusePacket {node h0 status : Nat} {d : Dev} (h : d.Formed) : (d.refusePacket node h0 status).Formed := .ite (.emit h) h

theorem setQueued {id node : Nat} {f : Queued → Queued} {d : Dev} (h : d.Formed) : (d.setQueued id node f).Formed := .same h

theorem grantOut {p : Queued} {d : Dev} (h : d.Formed) : (d.grantOut p).Formed := .count <| .same <| .setQueued h

theorem pullFlit {p : Queued} {d : Dev} (h : d.Formed) : (d.pullFlit p).Formed := by
  dsimp only [Dev.pullFlit]
  refine .ite ?_ ?_
  · exact h
  · split
    · exact .setQueued h
    · exact .ite h <| .setQueued <| .setQueued h

theorem moveFlits {d : Dev} (h : d.Formed) : d.moveFlits.Formed := by
  unfold Dev.moveFlits
  extract_lets d1
  have h1 : d1.Formed := by
    refine .forAll (fun {_ e} he => ?_) h
    split
    · exact .pullFlit he
    · exact he
  exact .same h1

theorem enterGate {i node h0 : Nat} {d : Dev} (h : d.Formed) : (d.enterGate i node h0).Formed := by
  dsimp only [Dev.enterGate]
  split
  · next heq => exact .emit <| .pair heq (.gateway h)
  · next heq => exact .same <| .pair heq (.gateway h)
  · next heq => exact .refusePacket <| .pair heq (.gateway h)

theorem correctFlit {d : Dev} (h : d.Formed) : d.correctFlit.Formed := .event <| .count <| .bump h

theorem settleNet {d : Dev} {n : Nat} (h : d.Formed) : (d.settleNet n).Formed := by
  induction n generalizing d with
  | zero => exact h
  | succ n ih =>
    dsimp only [Dev.settleNet]
    split
    · exact ih <| .enterGate <| .when (.grantOut <| .moveFlits h) .correctFlit
    · exact .ite (.moveFlits h) <| ih <| .moveFlits h

theorem settled {d : Dev} (h : d.Formed) : d.settled.Formed := .settleNet h

theorem deliverGated {i : Nat} {d : Dev} (h : d.Formed) : (d.deliverGated i).Formed := .settled <| .forAll .emit <| .same h

theorem dropPacket {src : Source} {d : Dev} (h : d.Formed) : (d.dropPacket src).Formed := by
  dsimp only [Dev.dropPacket]
  split
  · exact .settled <| .same h
  · exact h
  · exact h

theorem enqueue {node input h0 : Nat} {err : Bool} {src : Source} {d : Dev} (h : d.Formed) : (d.enqueue node input h0 err src).Formed := by
  dsimp only [Dev.enqueue]
  split
  · exact .settled <| .same <| .emit <| .grantOut h
  · exact .settled <| .same h
  · exact .settled <| .same h

theorem packetArrival {node input h0 err t : Nat} {d0 : Dev} (h : d0.Formed) : (d0.packetArrival node input h0 err t).Formed := by
  unfold Dev.packetArrival
  extract_lets d _ _ d1
  have hd : d.Formed := .toTime h
  have h1 : d1.Formed := .when hd .correctFlit
  exact .ite h <| .ite (.emit hd) <| .ite (.count <| .unitFault <| .dropPacket hd) <| .ite (.refusePacket <| .count <| .bump <| .dropPacket h1) <| .enqueue h1

/-! Power-up and power-down of domains (spec/15). -/

theorem meetOff {i : Nat} {d : Dev} (h : d.Formed) : (d.meetOff i).Formed := by
  dsimp only [Dev.meetOff]
  refine .forAll ?_ (.wrAt h)
  intro _ _ hd
  split
  · next heq => exact .ite (.same <| .same <| .pair heq (.gateway hd)) <| .same <| .pair heq (.gateway hd)
  · next heq => exact .pair heq (.gateway hd)
  · next heq => exact .pair heq (.gateway hd)

theorem gatedMeetOff {i : Nat} {d : Dev} (h : d.Formed) : (d.gatedMeetOff i).Formed := .settled <| .forAll .enterGate <| .same h

theorem domainOff {i t : Nat} {d : Dev} (h : d.Formed) : (d.domainOff i t).Formed := by
  unfold Dev.domainOff
  extract_lets d1 _ d2 d3
  have h1 : d1.Formed := .toTime h
  have h2 : d2.Formed := .same h1
  have h3 : d3.Formed := .gatedMeetOff <| .meetOff <| .event <| .domainLoses <| .setDomState h2
  exact .ite (.ite (.startDomain h3) h3) h

theorem drainNodes {nodes : List Nat} {d : Dev} (h : d.Formed) : (d.drainNodes nodes).Formed := .ite h <| .wr <| .wr <| .same h

theorem domainUp {i : Nat} {d : Dev} (h : d.Formed) : (d.domainUp i).Formed := by
  unfold Dev.domainUp
  extract_lets d1 d2 _ d3
  have h1 : d1.Formed := .setDomState h
  have h2 : d2.Formed := .ite (.restoreLanes <| .clearBanks h1) <| .ite (.wakeChannel h1) <| .ite (.drainNodes h1) h1
  have h3 : d3.Formed := .deliverGated <| .same h2
  exact .ite (.stopDomain <| .wrAt h3) h3

theorem checkModeWrite {w : Nat} {d : Dev} (h : d.Formed) : (d.checkModeWrite w).Formed := .ite (.wr h) <| .ite h <| .drainNodes <| .wr h

theorem routerDrained {t : Nat} {d : Dev} (h : d.Formed) : (d.routerDrained t).Formed := by
  unfold Dev.routerDrained
  extract_lets d1
  have h1 : d1.Formed := .toTime h
  split
  · exact h
  · exact .ite h1 <| .ite (.event <| .wr <| .wr <| .count <| .same h1) <| .wr <| .count <| .same h1

theorem traceSleep {state : Nat} {emulated : Bool} {d : Dev} (h : d.Formed) : (d.traceSleep state emulated).Formed :=
  .ite h <| .ite (.tracePower h) <| .wr <| .traceFlush <| .tracePower h

theorem traceWake {d : Dev} (h : d.Formed) : d.traceWake.Formed := .ite h <| .traceCairn <| .traceTs <| .tracePower <| .wr h

theorem powerEntered {s : Nat} {emulated : Bool} {d : Dev} (h : d.Formed) : (d.powerEntered s emulated).Formed := .event <| .wr <| .same <| .wr <| .wr <| .wr h

theorem powerDue {d : Dev} (h : d.Formed) : d.powerDue.Formed := .ite (.powerEntered <| .pinsSleep <| .traceSleep h) h

theorem beginEntry {d : Dev} (h : d.Formed) : d.beginEntry.Formed := .powerDue <| .ite (.requestHalt <| .wr <| .wr <| .same h) <| .wr <| .same h

theorem exitEnds {d : Dev} (h : d.Formed) : d.exitEnds.Formed := .ite h <| .beginEntry h

theorem dropSavedLanes {d : Dev} (h : d.Formed) : d.dropSavedLanes.Formed := .same h

theorem exitDone {d : Dev} (h : d.Formed) : d.exitDone.Formed := .ite (.exitEnds <| .dropSavedLanes <| .event <| .wr <| .wr <| .pinsSleep <| .traceWake h) h

theorem leaveLight {d : Dev} (h : d.Formed) : d.leaveLight.Formed := .event <| .wr <| .wr <| .wr <| .pinsSleep <| .traceWake h

theorem leaveBivouac {d : Dev} (h : d.Formed) : d.leaveBivouac.Formed :=
  .exitDone <| .forUpto (fun hd => .ite (.queueMessage <| .setPort hd) hd) <| .forAll .startDomain <| .wr <| .same h

theorem cancelEntry {d : Dev} (h : d.Formed) : d.cancelEntry.Formed := .ite (.same <| .wr <| .wr h) <| .leaveLight <| .same <| .wr <| .wr h

theorem setTarget {v : Nat} {d : Dev} (h : d.Formed) : (d.setTarget v).Formed :=
  .ite (.ite (.wr h) <| .cancelEntry <| .wr h) <| .ite (.wr h) <| .ite (.leaveBivouac <| .wr h) <| .ite (.leaveLight <| .wr h) <| .beginEntry <| .wr h

theorem targetWrite {w : Nat} {d : Dev} (h : d.Formed) : (d.targetWrite w).Formed := .ite (.wr h) <| .setTarget h

theorem dStateChange {s : Nat} {d : Dev} (h : d.Formed) : (d.dStateChange s).Formed := .ite (.setTarget <| .same h) <| .ite (.setTarget <| .same h) h

theorem emptyPrefetch {d : Dev} (h : d.Formed) : d.emptyPrefetch.Formed := .forAll .headReady h

theorem stopTrace {d : Dev} (h : d.Formed) : d.stopTrace.Formed := .same <| .emptyPrefetch <| .traceSleep h

theorem askPeers {d : Dev} (h : d.Formed) : d.askPeers.Formed := .same <| .forUpto (fun hd => .ite (.queueMessage <| .setPort hd) <| .ite (.queueMessage hd) hd) h

theorem drainDies {d : Dev} (h : d.Formed) : d.drainDies.Formed := .drainNodes <| .same <| .wr <| .pinsSleep h

theorem finishBivouac {d : Dev} (h : d.Formed) : d.finishBivouac.Formed := by
  unfold Dev.finishBivouac
  extract_lets _ d1 _ d2
  have h1 : d1.Formed := .forAll (fun hd => .event <| .domainLoses <| .setDomState hd) h
  have h2 : d2.Formed := .powerEntered <| .same h1
  exact .ite h2 <| .leaveBivouac h2

theorem entrySteps {d : Dev} (h : d.Formed) : d.entrySteps.Formed := by
  unfold Dev.entrySteps
  extract_lets d1 d2 _ d3
  have h1 : d1.Formed := .ite (.stopTrace h) h
  have h2 : d2.Formed := .ite (.askPeers h1) h1
  have h3 : d3.Formed := .ite (.ite (.wr h2) <| .drainDies h2) h2
  exact .ite (.finishBivouac h3) h3

theorem bivouacEntry {t : Nat} {d : Dev} (h : d.Formed) : (d.bivouacEntry t).Formed := .ite (.entrySteps <| .powerDue <| .toTime h) <| .powerDue <| .toTime h

theorem attachChanged {d : Dev} (h : d.Formed) : d.attachChanged.Formed :=
  .ite h <| .ite (.ite (.wr <| .traceSleep <| .same <| .event <| .wr h) <| .wr <| .same <| .event <| .wr h) <| .event <| .wr h

theorem limiterSample {power t : Nat} {d : Dev} (h : d.Formed) : (d.limiterSample power t).Formed :=
  .ite (.event <| .wr <| .wr <| .same <| .toTime h) <| .wr <| .same <| .toTime h

/-! The host interface (spec/12). -/

theorem bar2OffsetHiWrite {w : Nat} {d : Dev} (h : d.Formed) : (d.bar2OffsetHiWrite w).Formed := .same <| .wr h

theorem bar2Lines {d : Dev} {pa n : Nat} {v : MemView} (h : d.Formed) : (d.bar2Lines pa n v).2.2.Formed := by
  refine List.foldlRecOn (motive := fun x : Bytes × Bool × MemView × Dev => x.2.2.2.Formed) _ _ h fun acc hd c _ => ?_
  split <;> next heq => exact .trip heq (.ddrRead hd)

theorem bar2Asks {pa n : Nat} {d : Dev} (h : d.Formed) : (d.bar2Asks pa n).Formed := .wakeDdr <| .forAll .askChannel h

theorem bar2Read {off n : Nat} {v : MemView} {d0 : Dev} (h : d0.Formed) : (d0.bar2Read off n v).Formed := by
  unfold Dev.bar2Read
  extract_lets d
  have hd : d.Formed := .count h
  exact .ite (.emit hd) <| .ite (.count <| .emit <| .wr hd) <| .ite (.emit <| .bar2Asks hd) <| .ite (.emit <| .bar2Lines hd) <| .emit <| .bar2Lines hd

theorem bar2Write {off : Nat} {bs : Bytes} {d0 : Dev} (h : d0.Formed) : (d0.bar2Write off bs).Formed :=
  .ite (.count h) <| .ite (.wr <| .count h) <| .ite (.emit <| .bar2Asks <| .count h) <| .forAll .ddrWrite <| .count h

theorem refuseAperture {d : Dev} (h : d.Formed) : d.refuseAperture.Formed := .event <| .wr h

theorem offsetGate {off src op : Nat} {wake : Bool} {d : Dev} (h : d.Formed) : (d.offsetGate off src op wake).2.Formed := by
  unfold Dev.offsetGate
  split
  · exact .gateway h
  · exact h

theorem bar4Read {off n : Nat} {d0 : Dev} (h : d0.Formed) : (d0.bar4Read off n).Formed := by
  unfold Dev.bar4Read
  extract_lets d
  have hd : d.Formed := .count h
  refine .ite ?_ ?_
  · exact .emit hd
  · refine .ite ?_ ?_
    · exact .emit <| .refuseAperture hd
    · refine .ite ?_ ?_
      · exact .emit hd
      · split
        · next heq => exact .emit <| .pair heq (.offsetGate hd)
        · next heq => exact .emit <| .pair heq (.offsetGate hd)
        · next heq => exact .ite (.emit <| .pair heq (.offsetGate hd)) <| .emit <| .pair heq (.offsetGate hd)

theorem bar4Write {off : Nat} {bs : Bytes} {d0 : Dev} (h : d0.Formed) : (d0.bar4Write off bs).Formed := by
  unfold Dev.bar4Write
  extract_lets d
  have hd : d.Formed := .count h
  refine .ite ?_ ?_
  · exact hd
  · refine .ite ?_ ?_
    · exact .refuseAperture hd
    · refine .ite ?_ ?_
      · exact hd
      · split
        · next heq => exact .pair heq (.offsetGate hd)
        · next heq => exact .emit <| .pair heq (.offsetGate hd)
        · next heq => exact .arrWrite <| .pair heq (.offsetGate hd)

theorem invCtrlWrite {w : Nat} {d : Dev} (h : d.Formed) : (d.invCtrlWrite w).Formed :=
  .ite (.wr h) <| .ite (.wr <| .wr h) <| .ite (.wr <| .wr <| .wr h) <| .wr <| .same <| .wr <| .wr h

theorem invalidationDone {d : Dev} (h : d.Formed) : d.invalidationDone.Formed := by
  dsimp only [Dev.invalidationDone]
  split
  · exact h
  · exact .wr <| .wr <| .same h

theorem ctxRootWrite {c hi w : Nat} {d : Dev} (h : d.Formed) : (d.ctxRootWrite c hi w).Formed := .ite (.wr h) <| .ite (.wrAt h) <| .wrAt <| .wrAt <| .wrAt h

theorem fenceCtrlWrite {w : Nat} {d : Dev} (h : d.Formed) : (d.fenceCtrlWrite w).Formed :=
  .ite (.wr h) <| .ite (.wr <| .same <| .ite (.wr <| .wr h) <| .wr h) <| .ite (.wr <| .wr h) <| .wr h

theorem fenceCommitted {d : Dev} (h : d.Formed) : d.fenceCommitted.Formed := by
  dsimp only [Dev.fenceCommitted]
  split
  · exact h
  · exact .wr <| .same h

theorem msixUnmask {func vector : Nat} {d : Dev} (h : d.Formed) : (d.msixUnmask func vector).Formed := .ite h <| .ite (.sendMsix <| .same <| .same h) <| .same h

/-! The submission and completion queues, and the scheduler of the service engines (spec/14). -/

theorem queueFault {q kind : Nat} {d : Dev} (h : d.Formed) : (d.queueFault q kind).Formed := .unitFault h

theorem sqTailWrite {q w : Nat} {d : Dev} (h : d.Formed) : (d.sqTailWrite q w).Formed := .ite (.queueFault <| .event <| .wrAt h) <| .wrAt h

theorem cqHeadWrite {q w : Nat} {d : Dev} (h : d.Formed) : (d.cqHeadWrite q w).Formed := .ite (.queueFault <| .wrAt h) <| .ite (.wrAt <| .wrAt h) <| .wrAt h

theorem queueEmptied {q : Nat} {d : Dev} (h : d.Formed) : (d.queueEmptied q).Formed :=
  .ite (.rewait <| .wrAt <| .wrAt <| .wrAt <| .wrAt <| .wrAt <| .wrAt <| .wrAt <| .same h) h

theorem queueReset {q : Nat} {d : Dev} (h : d.Formed) : (d.queueReset q).Formed := .rewait <| .queueEmptied <| .same h

theorem qCtrlWrite {q w : Nat} {d : Dev} (h : d.Formed) : (d.qCtrlWrite q w).Formed := by
  unfold Dev.qCtrlWrite
  extract_lets d1
  have h1 : d1.Formed := .wrAt <| .wrAt <| .wrAt h
  exact .ite (.queueReset h) <| .ite (.ite (.wrAt h) <| .wrAt h) <| .ite h1 <| .ite (.wrAt <| .wrAt h1) <| .wrAt h1

theorem haltQueue {q kind : Nat} {d : Dev} (h : d.Formed) : (d.haltQueue q kind).Formed := .wrAt <| .queueFault h

theorem queueRead {q off : Nat} {v : MemView} {d : Dev} (h : d.Formed) : (d.queueRead q off v).2.Formed := by
  have hr := dmaRead (req := 1) (ctx := d.rdAt R.ENGQ.Q_CTRL_CTX q 0) (dva := d.rdAt R.ENGQ.SQ_BASE q 0 + off) (n := 64) (v := v) h
  dsimp only [Dev.queueRead]
  generalize Dev.dmaRead 1 _ _ 64 v d = x at hr ⊢
  exact .ite_snd h <| .reportDma hr

theorem acceptItem {q : Nat} {desc : Bytes} {d : Dev} (h : d.Formed) : (d.acceptItem q desc).Formed := by
  unfold Dev.acceptItem
  extract_lets _ _ d1 _ d2 d3
  have h1 : d1.Formed := .count <| .wrAt h
  have h2 : d2.Formed := .same h1
  have h3 : d3.Formed := .matchItems h2
  exact .ite (.endItem h2) <| .ite (.makeReady h2) <| .ite (.count h3) h3

theorem descriptorFetch {q : Nat} {v : MemView} {t : Nat} {d0 : Dev} (h : d0.Formed) : (d0.descriptorFetch q v t).Formed := by
  unfold Dev.descriptorFetch
  extract_lets d
  have hd : d.Formed := .toTime h
  refine .ite ?_ ?_
  · exact hd
  · split
    · next heq => exact .wakeDdr <| .emit <| .pair heq (.queueRead hd)
    · next heq => exact .ite (.event <| .pair heq (.queueRead hd)) <| .rewait <| .acceptItem <| .pair heq (.queueRead hd)
    · next heq => exact .haltQueue <| .pair heq (.queueRead hd)
    · next heq => exact .haltQueue <| .pair heq (.queueRead hd)
    · next heq => exact .haltQueue <| .pair heq (.queueRead hd)
    · next heq => exact .haltQueue <| .pair heq (.queueRead hd)

theorem tokenPostWrite {w : Nat} {d : Dev} (h : d.Formed) : (d.tokenPostWrite w).Formed := .rewait <| .postToken h

theorem drainStart {i : Item} {d : Dev} (h : d.Formed) : (d.drainStart i).Formed := .ite (.setItem <| .ite (.wr h) h) h

theorem startItem {id e : Nat} {d : Dev} (h : d.Formed) : (d.startItem id e).Formed := by
  dsimp only [Dev.startItem]
  split
  · exact h
  · exact .drainStart <| .ite (.endItem <| .ite (.same <| .count <| .setItem h) <| .count <| .setItem h) <| .ite (.same <| .count <| .setItem h) <| .count <|
    .setItem h

theorem startPrefetched {e : Nat} {d : Dev} (h : d.Formed) : (d.startPrefetched e).Formed := by
  unfold Dev.startPrefetched
  refine .ite ?_ ?_
  · split
    · exact .startItem <| .count h
    · exact h
  · exact h

theorem prefetchItem {i : Item} {e : Nat} {d : Dev} (h : d.Formed) : (d.prefetchItem i e).Formed := by
  dsimp only [Dev.prefetchItem]
  refine .setItem ?_
  split
  · exact .headReady h
  · exact h

theorem itemDispatch {e t : Nat} {d0 : Dev} (h : d0.Formed) : (d0.itemDispatch e t).Formed := by
  unfold Dev.itemDispatch
  extract_lets d
  have hd : d.Formed := .toTime h
  split
  · exact hd
  · refine .ite ?_ ?_
    · exact hd
    · split
      · next heq => exact .emit <| .pair heq (.gateway hd)
      · next heq => exact .emit <| .pair heq (.gateway hd)
      · rename_i heq
        refine .ite ?_ ?_
        · exact .startItem <| .pair heq (.gateway hd)
        · refine .ite ?_ ?_
          · exact .pair heq (.gateway hd)
          · split <;> exact .ite (.prefetchItem <| .pair heq (.gateway hd)) <| .pair heq (.gateway hd)

theorem setAside {id : Nat} {d : Dev} (h : d.Formed) : (d.setAside id).Formed := .setItem <| .headReady h

theorem restartPoint {e t : Nat} {d0 : Dev} (h : d0.Formed) : (d0.restartPoint e t).Formed := by
  unfold Dev.restartPoint
  extract_lets d
  have hd : d.Formed := .toTime h
  split
  · exact hd
  · refine .ite ?_ ?_
    · exact hd
    · refine .ite ?_ ?_
      · exact .endItem <| .setItem hd
      · refine .ite ?_ ?_
        · exact .idleHandovers <| .setAside hd
        · split
          · exact .ite (.idleHandovers <| .startPrefetched <| .count <| .setAside hd) <| .setItem hd
          · exact .setItem hd

theorem completionEntry {i : Item} {c : Nat} {d : Dev} (h : d.Formed) : (d.completionEntry i c).2.Formed := .ite_snd h <| .free (w := 256) h

theorem writeEntry {i : Item} {v : MemView} {d : Dev} (h : d.Formed) : (d.writeEntry i v).2.Formed := by
  unfold Dev.writeEntry
  extract_lets _ _ _ _ x
  have hx : x.2.Formed := .completionEntry h
  refine .ite_snd { hx with sram := SMap.wf_store _ _ _ hx.sram } ?_
  split
  next heq => exact .reportDma <| .trip heq (.dmaWrite hx)

theorem retireItem {i : Item} {d : Dev} (h : d.Formed) : (d.retireItem i).Formed := .rewait <| .idleHandovers <| .queueEmptied <| .startPrefetched <| .same h

theorem afterEntry {i : Item} {entry : Bool} {d : Dev} (h : d.Formed) : (d.afterEntry i entry).Formed :=
  .ite (.event <| .ite (.rewait <| .postToken <| .retireItem h) <| .retireItem h) <| .ite (.rewait <| .postToken <| .retireItem h) <| .retireItem h

theorem itemCompletion {q : Nat} {v : MemView} {t : Nat} {d0 : Dev} (h : d0.Formed) : (d0.itemCompletion q v t).Formed := by
  unfold Dev.itemCompletion
  extract_lets d
  have hd : d.Formed := .toTime h
  split
  · exact hd
  · refine .ite hd <| .ite (.afterEntry hd) <| .ite (.ite hd <| .event <| .wrAt hd) ?_
    split
    · next heq => exact .wakeDdr <| .emit <| .pair heq (.writeEntry hd)
    · next heq =>
      extract_lets d2 d3 d4 d5
      have h2 : d2.Formed := .count <| .wrAt <| .pair heq (.writeEntry hd)
      have h3 : d3.Formed := .ite (.count h2) h2
      have h4 : d4.Formed := .ite (.count h3) h3
      exact .afterEntry <| .ite (.same h4) h4
    · next heq => exact .retireItem <| .haltQueue <| .pair heq (.writeEntry hd)
    · next heq => exact .retireItem <| .haltQueue <| .pair heq (.writeEntry hd)
    · next heq => exact .retireItem <| .haltQueue <| .pair heq (.writeEntry hd)
    · next heq => exact .retireItem <| .haltQueue <| .pair heq (.writeEntry hd)

/-! What the items of the service engines do (spec/14). -/

theorem bankRefused {off : Nat} {d : Dev} (h : d.Formed) : (d.bankRefused off).2.Formed := .wrAt h

theorem engineGate {off : Nat} {d : Dev} {f : Dev → Move × Dev} (h : d.Formed) (hf : ∀ {e}, e.Formed → (f e).2.Formed) : (d.engineGate off f).2.Formed := by
  unfold Dev.engineGate
  split
  · next heq => exact hf <| .pair heq (.offsetGate h)
  · next heq => exact .pair heq (.offsetGate h)
  · next heq => exact .pair heq (.offsetGate h)

theorem arrayBytes {off n : Nat} {d : Dev} (h : d.Formed) : (d.arrayBytes off n).2.Formed := h

theorem arraySource {i : Item} {off n : Nat} {d : Dev} (h : d.Formed) : (d.arraySource i off n).2.Formed :=
  .ite_snd h <| .ite_snd (.ite_snd (.bankRefused h) <| .engineGate h (fun hd => .ite_snd hd <| .arrayBytes hd)) <| .ite_snd h <|
  .engineGate h .arrayBytes

theorem arrayTarget {i : Item} {off : Nat} {bs : Bytes} {d : Dev} (h : d.Formed) : (d.arrayTarget i off bs).2.Formed :=
  .ite_snd (.ite_snd (.engineGate h .arrWrite) <| .bankRefused h) <| .ite_snd h <| .engineGate h .arrWrite

theorem answer {r : Dma} {ctx write : Nat} {v : MemView} {d : Dev} (h : d.Formed) : (r.answer ctx write v d).2.2.Formed := .ite (.wakeDdr h) <| .reportDma h

theorem itemRead {i : Item} {a n : Nat} {v : MemView} {d : Dev} (h : d.Formed) : (d.itemRead i a n v).2.2.Formed := by
  refine .ite_snd_snd ?_ ?_
  · split
    next heq => exact .pair heq (.arraySource h)
  · split
    next heq => exact .answer <| .trip heq (.dmaRead h)

theorem itemWrite {i : Item} {a : Nat} {bs : Bytes} {v : MemView} {d : Dev} (h : d.Formed) : (d.itemWrite i a bs v).2.2.Formed := by
  refine .ite_snd_snd ?_ ?_
  · split
    next heq => exact .pair heq (.arrayTarget h)
  · split
    · next heq => exact .forAll .writeTarget <| .trip heq (.writeTargets h)
    · next heq => exact .answer <| .trip heq (.writeTargets h)

theorem andThen {x : Move × MemView × Dev} {f : Bytes → MemView → Dev → Move × MemView × Dev} (h : x.2.2.Formed)
    (hf : ∀ {bs v e}, e.Formed → (f bs v e).2.2.Formed) : (Move.andThen x f).2.2.Formed := by
  unfold Move.andThen
  split
  · exact hf h
  · exact h

theorem moved {i : Item} {k n : Nat} {d : Dev} (h : d.Formed) : (d.moved i k n).Formed := .count h

theorem stopItem {id status detail : Nat} {d : Dev} (h : d.Formed) : (d.stopItem id status detail).Formed := .endItem <| .setItem h

theorem pump {id : Nat} {pos total : Item → Nat} {size : Item → Dev → Nat} {step : Item → Nat → Item} {one : Request} {n : Nat} {v : MemView} {d : Dev} {fuel : Nat}
    (hone : ∀ {i c v e}, e.Formed → (one i c v e).2.2.Formed) (h : d.Formed) : (d.pump id pos total size step one n v fuel).Formed := by
  induction fuel generalizing n v d with
  | zero => exact h
  | succ fuel ih =>
    dsimp only [Dev.pump]
    split
    · exact h
    · refine .ite h ?_
      split
      · next heq => exact ih <| .setItem <| .trip heq (hone h)
      · next heq => exact .ite (.stopItem <| .trip heq (hone h)) <| .trip heq (hone h)
      · next heq => exact .emit <| .trip heq (hone h)

theorem moveItem {ty e n : Nat} {size : Item → Dev → Nat} {one : Request} {v : MemView} {t : Nat} {d0 : Dev}
    (hone : ∀ {i c v e}, e.Formed → (one i c v e).2.2.Formed) (h : d0.Formed) : (d0.moveItem ty e n size one v t).Formed := by
  dsimp only [Dev.moveItem]
  split
  · exact .toTime h
  · exact .ite (.endItem <| .pump hone <| .toTime h) <| .pump hone <| .toTime h

theorem copyMove {e n : Nat} {v : MemView} {t : Nat} {d : Dev} (h : d.Formed) : (d.copyMove e n v t).Formed :=
  .moveItem (fun hd => .andThen (.itemRead hd) (fun he => .andThen (.itemWrite <| .moved he) .moved)) h

theorem readbackMove {e n : Nat} {v : MemView} {t : Nat} {d : Dev} (h : d.Formed) : (d.readbackMove e n v t).Formed :=
  .moveItem (fun hd => .andThen (.itemRead hd) (fun he => .andThen (.itemWrite <| .moved he) .moved)) h

theorem restoreMove {e n : Nat} {v : MemView} {t : Nat} {d : Dev} (h : d.Formed) : (d.restoreMove e n v t).Formed :=
  .moveItem (fun hd => .andThen (.itemRead hd) (fun he => .andThen (.itemWrite <| .moved he) .moved)) h

theorem fillMove {e n : Nat} {v : MemView} {t : Nat} {d : Dev} (h : d.Formed) : (d.fillMove e n v t).Formed :=
  .moveItem (fun hd => .andThen (.itemWrite hd) .moved) h

theorem verifyMove {e n : Nat} {v : MemView} {t : Nat} {d : Dev} (h : d.Formed) : (d.verifyMove e n v t).Formed :=
  .moveItem (fun hd => .andThen (.itemRead hd) (fun he => .andThen (.itemRead he) (fun h3 => .ite_snd_snd (.setItem <| .moved h3) <| .moved h3))) h

theorem checksumEnd {i : Item} {v : MemView} {d : Dev} (h : d.Formed) : (d.checksumEnd i v).Formed := by
  dsimp only [Dev.checksumEnd]
  split
  · next heq => exact .endItem <| .moved <| .trip heq (.itemWrite h)
  · next heq => exact .stopItem <| .trip heq (.itemWrite h)
  · next heq => exact .emit <| .trip heq (.itemWrite h)

theorem checksumMove {e n : Nat} {v : MemView} {t : Nat} {d0 : Dev} (h : d0.Formed) : (d0.checksumMove e n v t).Formed := by
  unfold Dev.checksumMove
  extract_lets d
  have hd : d.Formed := .toTime h
  split
  · exact hd
  · extract_lets d1
    have h1 : d1.Formed := .pump (fun he => .andThen (.itemRead he) fun hf => .setItem <| .moved hf) hd
    split
    · exact .ite (.checksumEnd h1) h1
    · exact h1

theorem drainRequest {i : Item} {c : Nat} {v : MemView} {d : Dev} (h : d.Formed) : (drainRequest i c v d).2.2.Formed := by
  dsimp only [Machine.drainRequest]
  split
  · next heq => exact .andThen (.itemWrite <| .moved <| .trip heq (.dmaRead h)) fun he => .wr <| .moved he
  · next heq => exact .answer <| .trip heq (.dmaRead h)

theorem drainMove {e n : Nat} {v : MemView} {t : Nat} {d0 : Dev} (h : d0.Formed) : (d0.drainMove e n v t).Formed := by
  unfold Dev.drainMove
  extract_lets d
  have hd : d.Formed := .toTime h
  split
  · exact hd
  · extract_lets d1
    have h1 : d1.Formed := .pump .drainRequest hd
    exact .ite (.endItem h1) h1

theorem eraseMove {e n : Nat} {v : MemView} {t : Nat} {d0 : Dev} (h : d0.Formed) : (d0.eraseMove e n v t).Formed := by
  unfold Dev.eraseMove
  extract_lets d
  have hd : d.Formed := .toTime h
  split
  · exact hd
  · exact .ite (.pump (fun hd => .andThen (.itemWrite hd) .moved) hd) <| .ite (.endItem <|
    .pump (fun hd => .andThen (.itemRead hd) (fun he => .ite_snd_snd (.setItem <| .moved he) <| .moved he)) hd) <|
    .pump (fun hd => .andThen (.itemRead hd) (fun he => .ite_snd_snd (.setItem <| .moved he) <| .moved he)) hd

theorem injectMove {e : Nat} {v : MemView} {t : Nat} {d0 : Dev} (h : d0.Formed) : (d0.injectMove e v t).Formed := by
  unfold Dev.injectMove
  extract_lets d
  have hd : d.Formed := .toTime h
  split
  · exact hd
  · refine .ite ?_ ?_
    · exact .stopItem hd
    · refine .ite ?_ ?_
      · exact .emit hd
      · split
        · next heq => exact .emit <| .trip heq (.itemRead hd)
        · next heq => exact .stopItem <| .trip heq (.itemRead hd)
        · next heq => exact .ite (.stopItem <| .moved <| .trip heq (.itemRead hd)) <| .ite (.stopItem <| .moved <| .trip heq (.itemRead hd)) <| .rewait <|
          .startPrefetched <| .same <| .setItem <| .moved <| .trip heq (.itemRead hd)

theorem captureMove {e : Nat} {v : MemView} {t : Nat} {d0 : Dev} (h : d0.Formed) : (d0.captureMove e v t).Formed := by
  unfold Dev.captureMove
  extract_lets d
  have hd : d.Formed := .toTime h
  split
  · exact hd
  · refine .ite ?_ ?_
    · exact .endItem hd
    · split
      · exact hd
      · split
        · next heq => exact .emit <| .trip heq (.itemWrite hd)
        · next heq => exact .stopItem <| .same <| .trip heq (.itemWrite hd)
        · next heq => exact .ite (.endItem <| .setItem <| .moved <| .same <| .trip heq (.itemWrite hd)) <| .setItem <| .moved <| .same <| .trip heq (.itemWrite hd)

theorem fenceItem {q t : Nat} {d0 : Dev} (h : d0.Formed) : (d0.fenceItem q t).Formed := by
  dsimp only [Dev.fenceItem]
  split
  · exact .toTime h
  · exact .ite (.toTime h) <| .endItem <| .toTime h

theorem tokenItem {q t : Nat} {d0 : Dev} (h : d0.Formed) : (d0.tokenItem q t).Formed := by
  dsimp only [Dev.tokenItem]
  split
  · exact .toTime h
  · exact .rewait <| .postToken <| .endItem <| .toTime h

theorem timerItem {q t : Nat} {d0 : Dev} (h : d0.Formed) : (d0.timerItem q t).Formed := by
  unfold Dev.timerItem
  extract_lets d
  have hd : d.Formed := .toTime h
  split
  · exact hd
  · exact .ite (.endItem hd) <| .ite (.event hd) <| .same <| .setItem hd

theorem timerDue {l t : Nat} {d0 : Dev} (h : d0.Formed) : (d0.timerDue l t).Formed := .forAll .endItem <| .toTime h

theorem mailboxItem {q : Nat} {v : MemView} {t : Nat} {d0 : Dev} (h : d0.Formed) : (d0.mailboxItem q v t).Formed := by
  unfold Dev.mailboxItem
  extract_lets d
  have hd : d.Formed := .toTime h
  split
  · exact hd
  · refine .ite ?_ ?_
    · exact .emit hd
    · split
      · next heq => exact .emit <| .trip heq (.itemRead hd)
      · next heq => exact .stopItem <| .trip heq (.itemRead hd)
      · next heq => exact .same <| .setItem <| .trip heq (.itemRead hd)

theorem rspTimeout {kind id t : Nat} {d0 : Dev} (h : d0.Formed) : (d0.rspTimeout kind id t).Formed := by
  unfold Dev.rspTimeout
  extract_lets d
  have hd : d.Formed := .toTime h
  refine .ite ?_ ?_
  · split
    · exact .ite hd <| .rewait <| .farTranslation <| .dropRequest hd
    · exact hd
  · split
    · exact .stopItem hd
    · exact hd

/-! The mailbox, firmware update and the firmware watchdog (spec/18). -/

theorem doorbell {t : Nat} {d0 : Dev} (h : d0.Formed) : (d0.doorbell t).Formed := .ite (.toTime h) <| .wr <| .same <| .toTime h

theorem serve {cmd t : Nat} {len : Nat → Bool} {f : Bytes → Dev → Served} {d0 : Dev} (hf : ∀ {bs e}, e.Formed → (f bs e).2.2.Formed) (h : d0.Formed) :
    (d0.serve cmd t len f).Formed := by
  unfold Dev.serve
  extract_lets d
  have hd : d.Formed := .toTime h
  split
  · exact hd
  · exact .ite hd <| .same <| .ite_snd_snd hd <| .ite_snd_snd hd (hf hd)

theorem getInfo {t : Nat} {d : Dev} (h : d.Formed) : (d.getInfo t).Formed := .serve id h

theorem logRead {t : Nat} {d : Dev} (h : d.Formed) : (d.logRead t).Formed := .serve (fun hd => .ite_snd_snd hd hd) h

theorem counterRead {t : Nat} {d : Dev} (h : d.Formed) : (d.counterRead t).Formed := .serve (fun hd => .ite_snd_snd hd hd) h

theorem counterRaise {t : Nat} {d : Dev} (h : d.Formed) : (d.counterRaise t).Formed := .serve (fun hd => .ite_snd_snd hd <| .same hd) h

theorem updateBegin {err : Bool} {t : Nat} {d : Dev} (h : d.Formed) : (d.updateBegin err t).Formed :=
  .serve (fun hd => .ite_snd_snd hd <| .ite_snd_snd hd <| .ite_snd_snd hd <| .same hd) h

theorem updateData {err : Bool} {t : Nat} {d : Dev} (h : d.Formed) : (d.updateData err t).Formed := by
  dsimp only [Dev.updateData]
  refine .serve ?_ h
  intro _ _ hd
  split
  · exact hd
  · exact .ite_snd_snd hd <| .ite_snd_snd hd <| .same hd

theorem updateCommit {err : Bool} {t : Nat} {d : Dev} (h : d.Formed) : (d.updateCommit err t).Formed := by
  refine .serve (fun {_ d} hd => ?_) h
  split
  · exact hd
  · extract_lets _ d1
    have h1 : d1.Formed := .same hd
    exact .ite_snd_snd h1 <| .ite_snd_snd h1 { h1 with flash := SMap.wf_store _ _ _ h1.flash }

theorem sensorRead {t : Nat} {d : Dev} (h : d.Formed) : (d.sensorRead t).Formed := .serve id h

theorem i2cXfer {ack : Bool} {data : Bytes} {t : Nat} {d : Dev} (h : d.Formed) : (d.i2cXfer ack data t).Formed :=
  .serve (fun hd => .ite_snd_snd hd <| .ite_snd_snd (.emit hd) <| .emit hd) h

theorem messageServed {d : Dev} (h : d.Formed) : d.messageServed.Formed := .same h

theorem replyHost {r : Bytes} {d : Dev} (h : d.Formed) : (d.replyHost r).Formed := .event <| .wr <| .wr <| .wr h

theorem endMailbox {i : Item} {r : Bytes} {d : Dev} (h : d.Formed) : (d.endMailbox i r).Formed := .messageServed <| .endItem <| .setItem h

theorem replyItem {i : Item} {r : Bytes} {v : MemView} {d : Dev} (h : d.Formed) : (d.replyItem i r v).Formed := by
  unfold Dev.replyItem
  split
  · next heq => exact .wakeDdr <| .emit <| .trip heq (.itemWrite h)
  · next heq => exact .messageServed <| .stopItem <| .trip heq (.itemWrite h)
  · next heq => exact .endMailbox <| .trip heq (.itemWrite h)

theorem mboxReply {v : MemView} {t : Nat} {d0 : Dev} (h : d0.Formed) : (d0.mboxReply v t).Formed := by
  unfold Dev.mboxReply
  extract_lets d
  have hd : d.Formed := .toTime h
  split
  · exact hd
  · split
    · exact hd
    · refine .ite ?_ ?_
      · exact .replyHost <| .messageServed hd
      · split
        · exact .ite (.replyItem hd) <| .messageServed hd
        · exact .messageServed hd

theorem mgmtWatchdog {t : Nat} {d0 : Dev} (h : d0.Formed) : (d0.mgmtWatchdog t).Formed := .ite (.toTime h) <| .unitFault <| .wr <| .wr <| .wr <| .toTime h

theorem mgmtRestart {t : Nat} {d0 : Dev} (h : d0.Formed) : (d0.mgmtRestart t).Formed := .ite (.toTime h) <| .event <| .same <| .wr <| .wr <| .toTime h

/-! DDR5 beyond single accesses (spec/13). -/

theorem failChannel {c step slot : Nat} {d : Dev} (h : d.Formed) : (d.failChannel c step slot).Formed := .unitFault <| .wr <| .wrAt <| .wrAt h

theorem startChannel {c : Nat} {d : Dev} (h : d.Formed) : (d.startChannel c).Formed := by
  unfold Dev.startChannel
  extract_lets _ d1 d2
  have h1 : d1.Formed := .wrAt <| .wrAt <| .wrAt h
  have h2 : d2.Formed := .forUpto (fun hd => .wrAt <| .wrAt hd) h1
  split
  · exact .ite (.failChannel h2) h2
  · exact h2

theorem ddrStart {d : Dev} (h : d.Formed) : d.ddrStart.Formed := by
  unfold Dev.ddrStart
  extract_lets d1 d2
  have h1 : d1.Formed := { h with mem := rfl }
  exact .forUpto .startChannel <| .wr <| .wr <| .wr <| .wr h1

theorem showGeometry {c : Nat} {d : Dev} (h : d.Formed) : (d.showGeometry c).Formed := .wrAt <| .wrAt <| .wrAt <| .wrAt <| .wrAt <| .wrAt h

theorem ddrChannelReady {c t : Nat} {d : Dev} (h : d.Formed) : (d.ddrChannelReady c t).Formed := by
  unfold Dev.ddrChannelReady
  extract_lets d1 _ d2 _ d3
  have h1 : d1.Formed := .toTime h
  have h2 : d2.Formed := .showGeometry <| .wrAt <| .wrAt h1
  have h3 : d3.Formed := .wr <| .wr <| .wr <| .wr <| .wr h2
  exact .ite (.ite (.event <| .wr h3) h2) h

theorem ddrInitFailed {c step slot t : Nat} {d : Dev} (h : d.Formed) : (d.ddrInitFailed c step slot t).Formed := .ite (.failChannel <| .toTime h) h

theorem ddrCtrlFields {w : Nat} {d : Dev} (h : d.Formed) : (d.ddrCtrlFields w).Formed := .ite (.wr <| .wr <| .wr <| .wr h) <| .wr <| .wr <| .wr h

theorem ddrRetrain {w : Nat} {d : Dev} (h : d.Formed) : (d.ddrRetrain w).Formed := .ite (.wr h) <| .ite (.ddrStart <| .ddrCtrlFields h) <| .ddrCtrlFields h

theorem patrolScrub {c : Nat} {v : MemView} {t : Nat} {d : Dev} (h : d.Formed) : (d.patrolScrub c v t).Formed :=
  .ite (.ite (.wrAt <| .same <| .ddrRead <| .toTime h) <| .same <| .ddrRead <| .toTime h) h

theorem ddrRefresh {c t : Nat} {d : Dev} (h : d.Formed) : (d.ddrRefresh c t).Formed := .ite (.count <| .toTime h) h

theorem dimmTemp {c temp t : Nat} {d : Dev} (h : d.Formed) : (d.dimmTemp c temp t).Formed := by
  unfold Dev.dimmTemp
  extract_lets d1 _ _ _ _ _ d2
  have h1 : d1.Formed := .toTime h
  have h2 : d2.Formed := .same (wrAt h1) rfl
  exact .ite (.ite (.ite h2 <| .event <| .wrAt h2) <| .ite (.wrAt h2) h2) h

/-! The trace unit beyond its packets (spec/17). -/

theorem stopSink {reason : Nat} {d : Dev} (h : d.Formed) : (d.stopSink reason).Formed := .event <| .wr <| .wr h

theorem startSink {d : Dev} (h : d.Formed) : d.startSink.Formed := .ite (.stopSink h) h

theorem sinkFailed {ctx write : Nat} {r : Dma} {d : Dev} (h : d.Formed) : (d.sinkFailed ctx write r).Formed := by
  unfold Dev.sinkFailed
  extract_lets d1
  have h1 : d1.Formed := .reportDma h
  split
  · exact .stopSink h1
  · exact .stopSink h1
  · exact .stopSink h1
  · exact .stopSink h1
  · exact h1
  · exact h1

theorem traceOn {d : Dev} (h : d.Formed) : d.traceOn.Formed := .traceTs <| .traceCairn <| .startSink <| .wr <| .wr <| .same h

theorem traceOff {d : Dev} (h : d.Formed) : d.traceOff.Formed := .ite (.ite (.traceOn <| .same h) <| .same h) h

theorem traceEnable {d : Dev} (h : d.Formed) : d.traceEnable.Formed := .ite (.same <| .wr h) <| .traceOn <| .wr h

theorem traceDisable {d : Dev} (h : d.Formed) : d.traceDisable.Formed :=
  .ite (.traceOff <| .same <| .wr <| .wr <| .traceFlush h) <| .same <| .wr <| .wr <| .traceFlush h

theorem overflowOut {d : Dev} (h : d.Formed) : d.overflowOut.Formed := .event <| .traceCairn <| .wr <| .same <| .count <| .streamOut <| .wr h

theorem sinkRestart {d : Dev} (h : d.Formed) : d.sinkRestart.Formed :=
  .ite (.ite (.startSink <| .wr <| .wr h) <| .ite (.overflowOut <| .startSink <| .wr <| .wr h) <| .wr <| .startSink <| .wr <| .wr h) h

theorem traceCtrlFields {w : Nat} {d : Dev} (h : d.Formed) : (d.traceCtrlFields w).Formed :=
  .wr <| .wr <| .wr <| .wr <| .wr <| .wr <| .wr <| .wr <| .wr <| .wr <| .wr h

theorem traceCtrlWrite {w t : Nat} {d0 : Dev} (h : d0.Formed) : (d0.traceCtrlWrite w t).Formed := by
  unfold Dev.traceCtrlWrite
  extract_lets d _ _ _ d1
  have hd : d.Formed := .toTime h
  have h1 : d1.Formed := .when (.when (.traceCtrlFields hd) .traceFlush) .sinkRestart
  exact .ite (.ite (.traceDisable hd) <| .ite (.when (.when hd .traceFlush) .sinkRestart) <| .wr hd) <| .ite hd <|
    .ite (.traceEnable h1) h1

theorem lineTaken {d : Dev} (h : d.Formed) : d.lineTaken.Formed := .count <| .same h

theorem advanceWr {d : Dev} (h : d.Formed) : d.advanceWr.Formed := .ite (.event <| .wr h) <| .wr h

theorem writeWr {v : MemView} {d : Dev} (h : d.Formed) : (d.writeWr v).Formed := by
  dsimp only [Dev.writeWr]
  split
  · next heq => exact .wakeDdr <| .emit <| .same <| .trip heq (.dmaWrite h)
  · next heq => exact .sinkFailed <| .same <| .trip heq (.dmaWrite h)

theorem writeBack {v : MemView} {d : Dev} (h : d.Formed) : (d.writeBack v).Formed := .ite (.writeWr <| .ite (.same h) h) <| .ite (.same h) h

theorem ringLine {v : MemView} {d : Dev} (h : d.Formed) : (d.ringLine v).Formed := by
  dsimp only [Dev.ringLine]
  split
  · next heq => exact .traceOff <| .writeBack <| .advanceWr <| .lineTaken <| .trip heq (.dmaWrite h)
  · next heq => exact .wakeDdr <| .emit <| .trip heq (.dmaWrite h)
  · next heq => exact .sinkFailed <| .trip heq (.dmaWrite h)

theorem readRd {v : MemView} {d : Dev} (h : d.Formed) : (d.readRd v).Formed := by
  dsimp only [Dev.readRd]
  split
  · next heq => exact .ite (.wr <| .trip heq (.dmaRead h)) <| .ringLine <| .wr <| .trip heq (.dmaRead h)
  · next heq => exact .wakeDdr <| .emit <| .trip heq (.dmaRead h)
  · next heq => exact .sinkFailed <| .trip heq (.dmaRead h)

theorem lineOnPins {d : Dev} (h : d.Formed) : d.lineOnPins.Formed := .emit h

theorem sinkLine {v : MemView} {t : Nat} {d0 : Dev} (h : d0.Formed) : (d0.sinkLine v t).Formed := by
  unfold Dev.sinkLine
  extract_lets d
  have hd : d.Formed := .toTime h
  exact .ite hd <| .ite (.writeWr hd) <| .ite hd <| .ite (.ite hd <| .traceOff <| .lineTaken <| .lineOnPins hd) <| .ite (.ite (.readRd hd) hd) <| .ringLine hd

theorem traceOverflow {t : Nat} {d0 : Dev} (h : d0.Formed) : (d0.traceOverflow t).Formed := .ite (.overflowOut <| .toTime h) <| .toTime h

theorem tsPeriod {t : Nat} {d0 : Dev} (h : d0.Formed) : (d0.tsPeriod t).Formed := .ite (.traceTs <| .toTime h) <| .toTime h

theorem bumpCfgSeq {d : Dev} (h : d.Formed) : d.bumpCfgSeq.Formed := .wr h

theorem refuseTrace {d : Dev} (h : d.Formed) : d.refuseTrace.Formed := .wr h

theorem capMaskWrite {g hi w : Nat} {d : Dev} (h : d.Formed) : (d.capMaskWrite g hi w).Formed := by
  unfold Dev.capMaskWrite
  exact .ite (.bumpCfgSeq <| .wrAt h) <| .refuseTrace h

theorem fieldCfgWrite {f w : Nat} {d : Dev} (h : d.Formed) : (d.fieldCfgWrite f w).Formed := .ite (.refuseTrace h) <| .bumpCfgSeq <| .wrAt <| .wrAt <| .wrAt h

theorem rdWrite {v : Nat} {d : Dev} (h : d.Formed) : (d.rdWrite v).Formed := .ite h <| .wr h

/-! Run control (spec/16). -/

theorem refuseStart {code : Nat} {d : Dev} (h : d.Formed) : (d.refuseStart code).Formed := .event <| .wr <| .wr <| .forUpto .wrAt <| .ite (.wr h) h

theorem sendStartCheck {d : Dev} (h : d.Formed) : d.sendStartCheck.Formed := .ite (.sendAll h) h

theorem secureContexts {d : Dev} (h : d.Formed) : d.secureContexts.Formed := .ite (.wr h) h

theorem startAgain {d : Dev} (h : d.Formed) : d.startAgain.Formed := .ite (.count <| .restoreBoundary h) h

theorem startRejoin {d : Dev} (h : d.Formed) : d.startRejoin.Formed := .ite (.rejoinGroup h) h

theorem armSequencer {d : Dev} (h : d.Formed) : d.armSequencer.Formed := .same h

theorem markStarted {d : Dev} (h : d.Formed) : d.markStarted.Formed := .same h

theorem dropDigests {d : Dev} (h : d.Formed) : d.dropDigests.Formed := .same h

theorem beginRun {d : Dev} (h : d.Formed) : d.beginRun.Formed := by
  unfold Dev.beginRun
  extract_lets d1 d2 d3
  have h1 : d1.Formed := .wr <| .dropDigests <| .armSequencer <| .startAgain h
  have h2 : d2.Formed := .startRejoin <| .secureContexts <| .pinsRelease h1
  have h3 : d3.Formed := .ite (.markStarted <| .startSubstitutes h2) <| .markStarted h2
  exact .openBelay h3

theorem acceptStart {d : Dev} (h : d.Formed) : d.acceptStart.Formed := .ite (.beginRun h) <| .same h

theorem reportPeers {d : Dev} (h : d.Formed) : d.reportPeers.Formed := .forAll .report h

theorem tryStart {d0 : Dev} (h : d0.Formed) : d0.tryStart.Formed := by
  dsimp only [Dev.tryStart]
  split
  · exact .refuseStart <| .same h
  · exact .ite (.same <| .same h) <| .acceptStart <| .same h

theorem heldStart {d : Dev} (h : d.Formed) : d.heldStart.Formed := .ite (.tryStart h) h

theorem start {d : Dev} (h : d.Formed) : d.start.Formed := .ite h <| .tryStart <| .reportPeers <| .sendStartCheck h

theorem halt {d : Dev} (h : d.Formed) : d.halt.Formed := .powerDue <| .requestHalt <| .same h

theorem runCtrlWrite {w t : Nat} {d : Dev} (h : d.Formed) : (d.runCtrlWrite w t).Formed :=
  .when (.when (.wr <| .wr <| .toTime h) .start) .halt

theorem takeWatchdog {t : Nat} {d : Dev} (h : d.Formed) : (d.takeWatchdog t).Formed := .ite (.stopForSafe <| .event <| .report <| .wr <| .same <| .toTime h) h

theorem wdogWrite {w : Nat} {d : Dev} (h : d.Formed) : (d.wdogWrite w).Formed := .ite (.wr h) <| .wr h

theorem takeCtrlWrite {w : Nat} {d : Dev} (h : d.Formed) : (d.takeCtrlWrite w).Formed := .ite (.wr h) <| .wr <| .wr <| .wr <| .wr <| .wr h

theorem injectThroughWrite {w : Nat} {d : Dev} (h : d.Formed) : (d.injectThroughWrite w).Formed := .rewait <| .same <| .unstage <| .wr h

theorem checkCtrlWrite {w : Nat} {d : Dev} (h : d.Formed) : (d.checkCtrlWrite w).Formed := .ite (.wr h) <| .wr h

theorem requestOwner {g owner : Nat} {d : Dev} (h : d.Formed) : (d.requestOwner g owner).Formed := .idleHandovers <| .wrAt <| .wrAt h

theorem setBankShape {g aspect join : Nat} {d : Dev} (h : d.Formed) : (d.setBankShape g aspect join).Formed := .ite (.wrAt <| .wrAt <| .wrAt <| .wrAt h) <| .wrAt h

theorem bankCtrlWrite {g w : Nat} {d : Dev} (h : d.Formed) : (d.bankCtrlWrite g w).Formed := .ite (.wrAt h) <| .requestOwner <| .setBankShape h

theorem farCtrlWrite {g off w : Nat} {d : Dev} (h : d.Formed) : (d.farCtrlWrite g off w).Formed :=
  .ite (.wrAt h) <| .ite (.wrAt <| .wrAt h) <| .ite (.ite (.wrAt h) <| .ite (.wrAt h) <| .ite (.wrAt <| .wrAt <| .wrAt h) h) h

/-! Debug (spec/16). -/

theorem setAttach {w : Nat} {d : Dev} (h : d.Formed) : (d.setAttach w).Formed := .attachChanged <| .wr h

theorem attachWrite {w t : Nat} {d : Dev} (h : d.Formed) : (d.attachWrite w t).Formed := .setAttach <| .toTime h

theorem newNonce {d : Dev} (h : d.Formed) : d.newNonce.Formed := .wr <| .free h

theorem refuseWatch {d : Dev} (h : d.Formed) : d.refuseWatch.Formed := .wr h

theorem watchCtrlWrite {w t : Nat} {d0 : Dev} (h : d0.Formed) : (d0.watchCtrlWrite w t).Formed := by
  unfold Dev.watchCtrlWrite
  extract_lets d _ d1
  have hd : d.Formed := .toTime h
  have h1 : d1.Formed := .wr <| .wr <| .wr hd
  exact .ite hd <| .ite (.refuseWatch hd) <| .ite (.same h1) <| .ite h1 <| .ite (.same h1) <| .watchStart h1

theorem wrHalf {r : Reg} {k hi w : Nat} {d : Dev} (h : d.Formed) : (d.wrHalf r k hi w).Formed := .wrAt h

theorem watchWrite {off w : Nat} {d : Dev} (h : d.Formed) : (d.watchWrite off w).Formed := by
  dsimp only [Dev.watchWrite]
  refine .ite ?_ ?_
  · exact .refuseWatch h
  · refine .ite ?_ ?_
    · exact .ite (.wr h) <| .refuseWatch h
    · refine .ite ?_ ?_
      · exact .wrHalf h
      · refine .ite ?_ ?_
        · exact .wrHalf h
        · refine .ite ?_ ?_
          · split
            · exact .ite (.wrAt <| .wrAt <| .wrAt <| .wrAt <| .wrAt h) <| .refuseWatch h
            · exact .wrHalf h
            · exact .wrHalf h
            · exact .wrHalf h
            · exact .wrHalf h
            · exact .wrHalf h
            · exact .wrHalf h
            · exact h
          · refine .ite ?_ ?_
            · split
              · exact .wrHalf h
              · exact .wrHalf h
              · exact .wrHalf h
              · exact .wrHalf h
              · exact .ite h <| .wrAt <| .wrAt <| .wrAt <| .wrAt h
              · exact h
            · exact h

theorem bapReport {d : Dev} (h : d.Formed) : d.bapReport.Formed := .idleHandovers <| .event <| .wr <| .same h

theorem bapDvaMove {v : MemView} {d : Dev} (h : d.Formed) : (d.bapDvaMove v).Formed := by
  dsimp only [Dev.bapDvaMove]
  split
  · next heq => exact .wakeDdr <| .emit <| .trip heq (.ite_snd_snd (.dmaWrite h) <| .dmaRead h)
  · next heq => exact .bapReport <| .wr <| .ite (.trip heq (.ite_snd_snd (.dmaWrite h) <| .dmaRead h)) <| .wr <| .trip heq (.ite_snd_snd (.dmaWrite h) <| .dmaRead h)
  · next heq => exact .bapReport <| .wr <| .reportDma <| .trip heq (.ite_snd_snd (.dmaWrite h) <| .dmaRead h)

theorem bapDva {v : MemView} {d : Dev} (h : d.Formed) : (d.bapDva v).Formed := by
  unfold Dev.bapDva
  split
  · exact .bapDvaMove h
  · exact .bapReport <| .wr <| .wr h
  · exact .bapReport <| .wr h

theorem bapCtrlFields {w : Nat} {d : Dev} (h : d.Formed) : (d.bapCtrlFields w).Formed := .wr <| .wr <| .wr <| .wr <| .wr <| .wr <| .wr h

theorem bapStart {d : Dev} (h : d.Formed) : d.bapStart.Formed := .ite (.bapReport <| .wr h) <| .ite (.offsetGate <| .wr <| .same h) <| .wr <| .same h

theorem bapCtrlWrite {w t : Nat} {d0 : Dev} (h : d0.Formed) : (d0.bapCtrlWrite w t).Formed :=
  .ite (.toTime h) <| .ite (.bapStart <| .bapCtrlFields <| .toTime h) <| .bapCtrlFields <| .toTime h

theorem stealCycle {d : Dev} (h : d.Formed) : d.stealCycle.Formed := .cycle <| .bapEffect <| .count <| .same h

theorem bapDone {v : MemView} {t : Nat} {d0 : Dev} (h : d0.Formed) : (d0.bapDone v t).Formed := by
  unfold Dev.bapDone
  extract_lets d
  have hd : d.Formed := .toTime h
  refine .ite ?_ ?_
  · exact .emit hd
  · split
    · exact hd
    · exact .ite (.bapDva hd) <| .bapReport <| .bapEffect hd
    · exact .ite (.bapReport <| .bapEffect hd) <| .ite (.bapReport <| .stealCycle hd) hd
    · exact .ite (.bapReport <| .bapEffect hd) hd
    · exact .ite (.bapReport <| .bapEffect hd) hd
    · exact .bapReport hd

theorem tapInstruction {ir : Nat} {d : Dev} (h : d.Formed) : (d.tapInstruction ir).Formed := .attachChanged <| .wr <| .same h

theorem tapIdcode {t : Nat} {d : Dev} (h : d.Formed) : (d.tapIdcode t).Formed := .emit <| .tapInstruction <| .toTime h

theorem tapBypass {n bits t : Nat} {d : Dev} (h : d.Formed) : (d.tapBypass n bits t).Formed := .emit <| .tapInstruction <| .toTime h

theorem tapReset {t : Nat} {d : Dev} (h : d.Formed) : (d.tapReset t).Formed := .tapInstruction <| .toTime h

theorem tapHolds {t : Nat} {d : Dev} (h : d.Formed) : (d.tapHolds t).Formed := .tapInstruction <| .toTime h

theorem tapSample {levels cells t : Nat} {d0 : Dev} (h : d0.Formed) : (d0.tapSample levels cells t).Formed := .emit <| .same <| .tapInstruction <| .toTime h

theorem driveAll {v : Envelope} {d : Dev} (h : d.Formed) : (d.driveAll v).Formed := .forUpto .drivePin h

theorem tapExtest {v : Envelope} {cells levels t : Nat} {d0 : Dev} (h : d0.Formed) : (d0.tapExtest v cells levels t).Formed :=
  .ite (.emit <| .tapInstruction <| .toTime h) <| .emit <| .driveAll <| .same <| .tapInstruction <| .toTime h

/-! The safety monitor, the scrubbers, the rail, temperature and clock monitors and the step clock (spec/18). -/

theorem leaveSafe {d : Dev} (h : d.Formed) : d.leaveSafe.Formed := .event <| .openWindows <| .pinsHalt <| .same <| .wr <| .wr h

theorem clearWrite {v : Envelope} {outside : Bool} {t : Nat} {d0 : Dev} (h : d0.Formed) : (d0.clearWrite v outside t).Formed := by
  unfold Dev.clearWrite
  extract_lets d
  have hd : d.Formed := .toTime h
  refine .ite ?_ ?_
  · exact hd
  · split
    · exact .wr <| .wr hd
    · exact .leaveSafe hd

theorem testWrite {t : Nat} {d0 : Dev} (h : d0.Formed) : (d0.testWrite t).Formed := .enterSafe <| .toTime h

theorem estopInput {t : Nat} {d0 : Dev} (h : d0.Formed) : (d0.estopInput t).Formed := .ite (.toTime h) <| .event <| .unitFault <| .wr <| .toTime h

theorem estopDeassert {t : Nat} {d : Dev} (h : d.Formed) : (d.estopDeassert t).Formed := .wr <| .toTime h

theorem scrubCorrected {d : Dev} (h : d.Formed) : d.scrubCorrected.Formed := .event <| .bump h

theorem scrubBad {kind loc slot : Nat} {d : Dev} (h : d.Formed) : (d.scrubBad kind loc slot).Formed := .report h

theorem scrubWord {q : Nat} {d : Dev} (h : d.Formed) : (d.scrubWord q).Formed := by
  dsimp only [Dev.scrubWord]
  split
  · exact h
  · exact .scrubCorrected <| .same h
  · exact .scrubBad h

theorem scrubSel {q : Nat} {d : Dev} (h : d.Formed) : (d.scrubSel q).Formed := by
  dsimp only [Dev.scrubSel]
  split
  · exact h
  · exact .scrubCorrected <| .same h
  · exact .scrubBad h

theorem storeScrub {t : Nat} {d0 : Dev} (h : d0.Formed) : (d0.storeScrub t).Formed := by
  unfold Dev.storeScrub
  extract_lets d _ d1 d2 _ d3
  have hd : d.Formed := .toTime h
  have h1 : d1.Formed := .forAll .scrubWord hd
  have h2 : d2.Formed := .ite (.forAll .scrubSel h1) h1
  have h3 : d3.Formed := .same h2
  exact .ite hd <| .ite (.wr h3) h3

theorem edgeScrub {corrected : Nat} {bad : List (Bool × Nat)} {t : Nat} {d0 : Dev} (h : d0.Formed) : (d0.edgeScrub corrected bad t).Formed :=
  .wr <| .forAll .unitFault <| .forUpto .scrubCorrected <| .toTime h

theorem railRead {r bank mv : Nat} {d : Dev} (h : d.Formed) : (d.railRead r bank mv).Formed := .ite (.wrAt h) <| .wrAt h

theorem voltageMonitor {r bank mv t : Nat} {d0 : Dev} (h : d0.Formed) : (d0.voltageMonitor r bank mv t).Formed :=
  .ite (.unitFault <| .railRead <| .toTime h) <| .railRead <| .toTime h

theorem railEnters {r bank mv t : Nat} {d0 : Dev} (h : d0.Formed) : (d0.railEnters r bank mv t).Formed :=
  .ite (.railRead <| .toTime h) <| .same <| .railRead <| .toTime h

theorem sampleSensor {s v : Nat} {d : Dev} (h : d.Formed) : (d.sampleSensor s v).Formed := .ite (.unitFault <| .same h) <| .same h

theorem thermalSample {readings : List Nat} {t : Nat} {d0 : Dev} (h : d0.Formed) : (d0.thermalSample readings t).Formed := by
  unfold Dev.thermalSample
  extract_lets _ d _ d1 _ _ d2
  have hd : d.Formed := .forAll .sampleSensor <| .toTime h
  have h1 : d1.Formed := .wr <| .wr hd
  have h2 : d2.Formed := .same h1
  exact .ite (.event h2) h2

theorem clockFails {code kind : Nat} {d : Dev} (h : d.Formed) : (d.clockFails code kind).Formed :=
  .ite (.refLost <| .when h .wr) <| .ite (.wr h) <| .ite (.wr h) h

theorem clockMonitor {code kind t : Nat} {d0 : Dev} (h : d0.Formed) : (d0.clockMonitor code kind t).Formed :=
  .ite (.clockFails <| .toTick h) <| .unitFault <| .clockFails <| .toTick h

theorem stepMhzWrite {w : Nat} {d : Dev} (h : d.Formed) : (d.stepMhzWrite w).Formed := .ite (.wr h) <| .refreshTrained <| .wr <| .wr h

theorem stepPllLock {t : Nat} {d0 : Dev} (h : d0.Formed) : (d0.stepPllLock t).Formed := .ite (.tryStart <| .same <| .wr <| .toTime h) <| .wr <| .toTime h

/-! The ARRAY reset and the EDGE reset, which a load and a debug unlock make too, the end of an open load (spec/02). -/

theorem finishStep {d : Dev} (h : d.Formed) : d.finishStep.Formed := .ite (.applyStep <| .forAll .runBp h) h

theorem toTakeZero {d : Dev} (h : d.Formed) : d.toTakeZero.Formed := .same <| .same <| .wr <| .wr <| .restArray <| .discardPresent <| .dropInstants h

theorem stopForReset {d : Dev} (h : d.Formed) : d.stopForReset.Formed := .ite (.same <| .pinsHalt <| .finishStep h) h

theorem clearArray {d : Dev} (h : d.Formed) : d.clearArray.Formed := by
  unfold Dev.clearArray
  extract_lets d1 d2
  have h1 : d1.Formed := .when (.stopForReset h) .bankCycles
  have h2 : d2.Formed := .forUpto .wrAt <| .same h1 rfl
  exact .snapNow <| .handovers <| .toTakeZero h2

theorem loadIncomplete {d : Dev} (h : d.Formed) : d.loadIncomplete.Formed := .same <| .report <| .wr <| .wr h

theorem clearCheck {d : Dev} (h : d.Formed) : d.clearCheck.Formed := .forUpto .wrAt <| .wr <| .wr <| .wr h

theorem arrayResetLoad {d : Dev} (h : d.Formed) : d.arrayResetLoad.Formed :=
  .ite (.wr h) <| .ite (.refreshTrained <| .clearCheck <| .loadIncomplete h) <| .clearCheck h

theorem arrayReset {t : Nat} {d : Dev} (h : d.Formed) : (d.arrayReset t).Formed := .powerDue <| .arrayResetLoad <| .clearArray <| .toTime h

theorem installEdge {key : Nat} {bs : Bytes} {d : Dev} (h : d.Formed) : (d.installEdge key bs).Formed := by
  unfold Dev.installEdge
  extract_lets _ _ d1
  have h1 : d1.Formed := .same h
  exact .ite (.same h) <| .ite { h with bmem := SMap.wf_store _ _ _ h.bmem } <| .ite (.wr <| .wr <| .wr <| .wr h1) h1

theorem basePins {d : Dev} (h : d.Formed) : d.basePins.Formed := .forUpto (fun hd => .ite hd <| .commitPin hd) h

theorem installBase {d : Dev} (h : d.Formed) : d.installBase.Formed := .forAll (fun hd => .ite (.installEdge hd) hd) h

theorem clearEdge {d : Dev} (h : d.Formed) : d.clearEdge.Formed := by
  unfold Dev.clearEdge
  extract_lets d1 d2
  have h1 : d1.Formed := .settlePins <| .discardPresent <| .withdrawRelease h
  have hc : Dev.Formed { d1 with edge := d1.edge.cleared } := { h1 with bmem := rfl }
  have h2 : d2.Formed := .wr <| .wr <| .wr <| .wr hc
  exact .restEdge <| .basePins <| .installBase h2

theorem edgeResetLoad {d : Dev} (h : d.Formed) : d.edgeResetLoad.Formed := .ite (.refreshTrained <| .loadIncomplete h) <| .ite (.same <| .wr h) h

theorem edgeReset {t : Nat} {d0 : Dev} (h : d0.Formed) : (d0.edgeReset t).Formed := .ite (.wr <| .toTime h) <| .edgeResetLoad <| .clearEdge <| .toTime h

theorem clearBmem {d : Dev} (h : d.Formed) : Dev.Formed { d with edge := { d.edge with bmem := [] } } := { h with bmem := rfl }

theorem eraseDie {d : Dev} (h : d.Formed) : d.eraseDie.Formed := by
  unfold Dev.eraseDie
  extract_lets d1 _ d2 _ d3
  have h1 : d1.Formed := .clearEdge h
  have h2 : d2.Formed := .clearArray (.clearBmem h1)
  clear_value d2
  have h3 : d3.Formed := { h2 with banks := rfl }
  exact .forUpto .wrAt h3

theorem zeroDdr {lo hi : Nat} {d : Dev} (h : d.Formed) : (d.zeroDdr lo hi).Formed := by
  unfold Dev.zeroDdr
  extract_lets _ d1
  have h1 : d1.Formed := { h with mem := SMap.wf_clear _ _ _ h.mem }
  exact .forAll .unpoisonLine h1

theorem eraseTable {host : Bool} {addr : Nat} {v : MemView} {d : Dev} {l : Nat} (h : d.Formed) : (d.eraseTable host addr v l).Formed := by
  induction l generalizing host addr d with
  | zero => exact h
  | succ l ih => exact .forUpto (fun hd => .ite hd <| .ite (.ite hd <| .zeroDdr hd) <| ih hd) h

theorem eraseDdr {v : MemView} {d : Dev} (h : d.Formed) : (d.eraseDdr v).Formed := .forAll (fun hd => .ite hd <| .eraseTable hd) h

/-! The slate of a reel: its fields, the checks of R187, and its acceptance for a full or a partial load (spec/07). -/

theorem loadFault {code index detail : Nat} {d : Dev} (h : d.Formed) : (d.loadFault code index detail).Formed := .report <| .wr h

theorem keepDigests {d : Dev} (h : d.Formed) : d.keepDigests.Formed := .same h

theorem takeSlate {s : Bytes} {d : Dev} (h : d.Formed) : (d.takeSlate s).Formed :=
  .keepDigests <| .same <| .forUpto .wrAt <| .wr <| .wr <| .wr <| .forUpto .wrAt <| .wr <| .wr <| .same h

theorem powerBudgeted {s : Bytes} {d : Dev} (h : d.Formed) : (d.powerBudgeted s).Formed := .forUpto (fun hd => .ite (.domRequest <| .setDomReq hd) hd) h

theorem openStatus {s : Bytes} {d : Dev} (h : d.Formed) : (d.openStatus s).Formed := .wr <| .wr <| .wr <| .wr h

theorem eraseSecure {v : MemView} {d : Dev} (h : d.Formed) : (d.eraseSecure v).Formed := .ite (.wr <| .wr <| .eraseDdr <| .eraseDie h) h

theorem acceptFull {s : Bytes} {v : MemView} {d : Dev} (h : d.Formed) : (d.acceptFull s v).Formed := by
  unfold Dev.acceptFull
  extract_lets d1 _ d2 _ d3 d4 d5
  have h1 : d1.Formed := .clearEdge <| .eraseSecure h
  have h2 : d2.Formed := .clearArray (.clearBmem h1)
  have h3 : d3.Formed := .same h2
  have h4 : d4.Formed := .openStatus <| .powerBudgeted <| .takeSlate h3
  have h5 : d5.Formed := .wr <| .wr h4
  exact .measureLead <| .reviveShort <| .refreshTrained <| .showFenced h5

theorem fenceRegion {r : Nat} {d : Dev} (h : d.Formed) : (d.fenceRegion r).Formed := by
  unfold Dev.fenceRegion
  extract_lets _ _ _ e
  have he : Dev.Formed { d with edge := e } := { h with bmem := SMap.wf_clear _ _ _ h.bmem }
  exact .showFenced <| .restEdge he

theorem acceptPartial {s : Bytes} {d : Dev} (h : d.Formed) : (d.acceptPartial s).Formed :=
  .ite (.ite (.same <| .openStatus <| .same h) <| .fenceGroup <| .openStatus <| .same h) <| .fenceRegion <| .openStatus <| .same h

theorem slateUnit {s : Bytes} {v : MemView} {d : Dev} (h : d.Formed) : (d.slateUnit s v).2.Formed := by
  unfold Dev.slateUnit
  split
  · exact .loadFault h
  · refine .ite_snd h <| .ite_snd (.ite_snd (.wr h) (.acceptPartial h)) <| .ite_snd (.wr h) ?_
    dsimp only
    exact .acceptFull <| .ite (.loadIncomplete h) h

/-! The frames of a reel: their header, the rules of every type, and what each writes (spec/07). -/

theorem installInstr {a : Nat} {p : Bytes} {d : Dev} (h : d.Formed) : (d.installInstr a p).Formed := .forUpto .writeWord h

theorem installState {a : Nat} {p : Bytes} {d : Dev} (h : d.Formed) : (d.installState a p).Formed := .forUpto .writeRow h

theorem installBank {a : Nat} {p : Bytes} {d : Dev} (h : d.Formed) : (d.installBank a p).Formed :=
  .ite (.requestOwner <| .setBankShape <| .same h) { h with banks := SMap.wf_store _ _ _ h.banks }

theorem installLane {a : Nat} {p : Bytes} {d : Dev} (h : d.Formed) : (d.installLane a p).Formed := .ite (.same h) <| .same h

theorem installPitch {a : Nat} {p : Bytes} {d : Dev} (h : d.Formed) : (d.installPitch a p).Formed := .same h

theorem installPins {b : Nat} {bs : Bytes} {d0 : Dev} (h : d0.Formed) : (d0.installPins b bs).Formed :=
  .forUpto (fun hd => .ite (.wr hd) <| .commitPin hd) <| .settlePins h

theorem installTimebase {a : Nat} {p : Bytes} {d : Dev} (h : d.Formed) : (d.installTimebase a p).Formed := .ite (.setTbBlock h) <| .same h

theorem installFrame {ty a : Nat} {p : Bytes} {d : Dev} (h : d.Formed) : (d.installFrame ty a p).Formed := by
  unfold Dev.installFrame
  split
  · exact .installInstr h
  · exact .installState h
  · exact .installBank h
  · exact .installLane h
  · exact .installPitch h
  · exact .installEdge h
  · exact .installPins h
  · exact .installTimebase h

/-! The loader. -/

theorem failLoad {code index detail : Nat} {d : Dev} (h : d.Formed) : (d.failLoad code index detail).Formed :=
  .refreshTrained <| .same <| .event <| .loadFault <| .wr h

theorem completeLoad {d : Dev} (h : d.Formed) : d.completeLoad.Formed := by
  unfold Dev.completeLoad
  extract_lets _ _ _ d1 d2 d3
  have h1 : d1.Formed := .same <| .wr h
  have h2 : d2.Formed := .ite (.wr h1) h1
  have h3 : d3.Formed := .ite (.wr h2) h2
  exact .refreshTrained <| .event <| .restEdge h3

theorem verifyLoad {d : Dev} (h : d.Formed) : d.verifyLoad.Formed := by
  unfold Dev.verifyLoad
  refine .ite ?_ ?_
  · exact .failLoad h
  · split
    · exact .failLoad h
    · split
      · exact .failLoad h
      · exact .completeLoad h

theorem writeFrame {f payload : Bytes} {d : Dev} (h : d.Formed) : (d.writeFrame f payload).2.Formed := by
  dsimp only [Dev.writeFrame]
  refine .ite_snd ?_ ?_
  · exact h
  · split
    · exact h
    · exact .wr <| .same <| .installFrame h

theorem writeBlock {plain : Bytes} {d : Dev} {l : List Bytes} (h : d.Formed) : (d.writeBlock plain l).2.Formed := by
  induction l generalizing plain d with
  | nil => exact h
  | cons f l ih =>
    dsimp only [Dev.writeBlock]
    split
    · next heq => exact .pair heq (.writeFrame h)
    · next heq => exact ih <| .pair heq (.writeFrame h)

theorem blockEnds {f : Bytes} {d : Dev} (h : d.Formed) : (d.blockEnds f).2.Formed := by
  dsimp only [Dev.blockEnds]
  split
  · exact h
  · split <;> next heq => exact .pair heq (.writeBlock <| .same h)

theorem admitFrame {f : Bytes} {d : Dev} (h : d.Formed) : (d.admitFrame f).2.Formed := by
  dsimp only [Dev.admitFrame]
  refine .ite_snd ?_ ?_
  · exact .ite_snd h <| .ite_snd (.blockEnds <| .same <| .same h) <| .same <| .same h
  · split
    · next heq => exact h
    · next heq => exact .pair heq (.writeFrame <| .same h)

theorem frameWaits {f : Bytes} {d : Dev} (h : d.Formed) : (d.frameWaits f).2.Formed := by
  dsimp only [Dev.frameWaits]
  refine .ite_snd ?_ ?_
  · exact h
  · split
    · exact h
    · refine .ite_snd ?_ ?_
      · exact h
      · split <;> next heq => exact .pair heq (.gateway h)

theorem frameUnit {f : Bytes} {d0 : Dev} (h : d0.Formed) : (d0.frameUnit f).2.Formed := by
  have hw := frameWaits (f := f) h
  unfold Dev.frameUnit
  generalize d0.frameWaits f = w at hw ⊢
  obtain ⟨_ | _, d⟩ := w
  · have ha := admitFrame (f := f) hw
    refine .ite_snd (.loadFault <| .wr hw) ?_
    dsimp only at ha ⊢
    generalize d.admitFrame f = a at ha ⊢
    split
    · dsimp only
      exact .failLoad hw
    · split <;> dsimp only at ha ⊢
      · exact .failLoad ha
      · exact .ite (.verifyLoad ha) ha
  · exact hw

theorem splitUnit {d : Dev} (h : d.Formed) : d.splitUnit.Formed := .wr h

theorem takeUnit {bs : Bytes} {v : MemView} {d : Dev} (h : d.Formed) : (d.takeUnit bs v).2.Formed := .ite_snd (.frameUnit h) <| .slateUnit h

theorem slateArrives {bs : Bytes} {v : MemView} {t : Nat} {d0 : Dev} (h : d0.Formed) : (d0.slateArrives bs v t).Formed := by
  unfold Dev.slateArrives
  extract_lets d
  have hd : d.Formed := .toTime h
  refine .ite ?_ ?_
  · exact hd
  · refine .ite ?_ ?_
    · exact .splitUnit hd
    · split
      · next heq => exact .emit <| .pair heq (.slateUnit hd)
      · next heq => exact .pair heq (.slateUnit hd)

theorem frameArrives {ty : Nat} {bs : Bytes} {v : MemView} {t : Nat} {d0 : Dev} (h : d0.Formed) : (d0.frameArrives ty bs v t).Formed := by
  unfold Dev.frameArrives
  extract_lets d
  have hd : d.Formed := .toTime h
  refine .ite ?_ ?_
  · exact hd
  · refine .ite ?_ ?_
    · exact .splitUnit hd
    · split
      · next heq => exact .emit <| .pair heq (.takeUnit hd)
      · next heq => exact .pair heq (.takeUnit hd)

theorem loadRead {i : Item} {pos n : Nat} {v : MemView} {d : Dev} (h : d.Formed) : (d.loadRead i pos n v).2.2.Formed := .itemRead h

theorem fetchUnit {i : Item} {v : MemView} {d : Dev} (h : d.Formed) : (d.fetchUnit i v).2.2.Formed :=
  .andThen (.loadRead h) (fun hd => .ite_snd_snd hd <| .andThen (.loadRead hd) id)

theorem pumpLoad {id : Nat} {v : MemView} {d : Dev} {n : Nat} (h : d.Formed) : (d.pumpLoad id v n).Formed := by
  induction n generalizing v d with
  | zero => exact h
  | succ n ih =>
    dsimp only [Dev.pumpLoad]
    split
    · exact h
    · refine .ite (.endItem h) ?_
      split
      · next heq => exact .emit <| .trip heq (.fetchUnit h)
      · next heq => exact .stopItem <| .trip heq (.fetchUnit h)
      · next heq => exact .stopItem <| .splitUnit <| .trip heq (.fetchUnit h)
      · next bs v1 d1 _ heq =>
        have h1 : d1.Formed := .trip heq (.fetchUnit h)
        split
        · next heq => exact .emit <| .pair heq (.takeUnit h1)
        · next heq => exact .stopItem <| .pair heq (.takeUnit h1)
        · next heq => exact .stopItem <| .pair heq (.takeUnit h1)
        · next heq => exact ih <| .setItem <| .moved <| .pair heq (.takeUnit h1)

theorem loadMove {e n : Nat} {v : MemView} {t : Nat} {d0 : Dev} (h : d0.Formed) : (d0.loadMove e n v t).Formed := by
  dsimp only [Dev.loadMove]
  split
  · exact .toTime h
  · exact .ite (.endItem <| .pumpLoad <| .toTime h) <| .pumpLoad <| .toTime h

theorem loadEnd {t : Nat} {d0 : Dev} (h : d0.Formed) : (d0.loadEnd t).Formed := .ite (.refreshTrained <| .loadIncomplete <| .toTime h) <| .toTime h

theorem regionReleaseWrite {t : Nat} {d0 : Dev} (h : d0.Formed) : (d0.regionReleaseWrite t).Formed := .ite (.toTime h) <| .same <| .toTime h

theorem stateAck {d : Dev} (h : d.Formed) : d.stateAck.Formed := .wr h

theorem productionIdWrite {hi w : Nat} {d : Dev} (h : d.Formed) : (d.productionIdWrite hi w).Formed := .ite h <| .wr h

/-! Debug unlock (spec/16). -/

theorem refuseUnlock {r : Nat} {d : Dev} (h : d.Formed) : (d.refuseUnlock r).Formed := .ite (.wr <| .wr <| .wr h) <| .wr <| .wr h

theorem beginErase {d : Dev} (h : d.Formed) : d.beginErase.Formed := .eraseDie <| .same <| .wr h

theorem unlock {t : Nat} {d0 : Dev} (h : d0.Formed) : (d0.unlock t).Formed := by
  unfold Dev.unlock
  extract_lets d
  have hd : d.Formed := .toTime h
  refine .ite ?_ ?_
  · exact hd
  · split
    · exact .newNonce <| .refuseUnlock hd
    · exact .newNonce <| .beginErase hd

theorem unlockEraseDone {v : MemView} {t : Nat} {d0 : Dev} (h : d0.Formed) : (d0.unlockEraseDone v t).Formed :=
  .ite (.toTime h) <| .refreshTrained <| .event <| .same <| .wr <| .wr <| .wr <| .wr <| .clearCheck <| .eraseDdr <| .toTime h

/-! POR, DEVICE reset, function-level resets, and the boot from the serial flash (spec/07). -/

theorem fresh {part : Part} : (Dev.fresh part).Formed := by
  unfold Dev.fresh
  extract_lets z _ _ _ _ _ _ d d0 d1
  have h : d.Formed := ⟨rfl, rfl, rfl, rfl, rfl⟩
  have h0 : d0.Formed := .ite (.wr h) h
  have h1 : d1.Formed := .ite (.wr h0) h0
  exact .same h1

theorem keepMram {old d : Dev} (h : old.Formed) (hd : d.Formed) : (old.keepMram d).Formed := { hd with flash := h.flash }

theorem por {d : Dev} (h : d.Formed) : d.por.Formed := .keepMram h .fresh

theorem deviceReset {cause : Nat} {d : Dev} (h : d.Formed) : (d.deviceReset cause).Formed :=
  .wr <| .forUpto .wrAt <| .forUpto .wrAt <| .wr <| .wr <| .wr <| .same <| .keepMram h .fresh

theorem externalReset {cause t : Nat} {d : Dev} (h : d.Formed) : (d.externalReset cause t).Formed := .deviceReset <| .toTime h

theorem hostReset {w t : Nat} {d0 : Dev} (h : d0.Formed) : (d0.hostReset w t).Formed := .ite (.deviceReset <| .emit <| .advance <| .toTime h) <| .toTime h

theorem clearPages {base n : Nat} {d : Dev} (h : d.Formed) : (d.clearPages base n).Formed := .same h

theorem clearMsix {func : Nat} {d : Dev} (h : d.Formed) : (d.clearMsix func).Formed := .same h

theorem stopForFlr {d : Dev} (h : d.Formed) : d.stopForFlr.Formed := by
  unfold Dev.stopForFlr
  extract_lets d1 d2 d3
  have h1 : d1.Formed := .stopForReset h
  have h2 : d2.Formed := .ite (.discardRequests <| .deliverReads <| .bankCycles h1) h1
  have h3 : d3.Formed := .discardShadows h2
  exact .snapNow <| .handovers <| .toTakeZero <| .same h3

theorem flrLoad {d : Dev} (h : d.Formed) : d.flrLoad.Formed := .ite h <| .ite (.refreshTrained <| .clearCheck <| .loadIncomplete h) <| .clearCheck h

theorem flrEngines {d : Dev} (h : d.Formed) : d.flrEngines.Formed := .handovers <| .clearPages <| .clearPages <| .same h

theorem flrHost {d : Dev} (h : d.Formed) : d.flrHost.Formed := .clearMsix <| .clearPages <| .clearPages <| .same h

theorem flrPf0 {t : Nat} {d0 : Dev} (h : d0.Formed) : (d0.flrPf0 t).Formed := by
  unfold Dev.flrPf0
  extract_lets d
  have hd : d.Formed := .flrHost <| .flrEngines <| .flrLoad <| .stopForFlr <| .toTime h
  exact .powerDue <| .clearPages <| .same hd

theorem flrPf1 {t : Nat} {d0 : Dev} (h : d0.Formed) : (d0.flrPf1 t).Formed := by
  unfold Dev.flrPf1
  extract_lets d d1
  have h1 : d1.Formed := .forAll (fun hd => .ite hd <| .stopItem hd) <| .clearMsix <| .toTime h
  exact .same (wr h1) rfl

theorem measureVccio {mv : List Nat} {d : Dev} (h : d.Formed) : (d.measureVccio mv).Formed := .forUpto (fun hd => .wrAt <| .wrAt hd) h

theorem powerHub {d : Dev} (h : d.Formed) : d.powerHub.Formed := .forUpto (fun hd => .ite (.setDomState hd) hd) h

theorem bootStart {mv : List Nat} {d : Dev} (h : d.Formed) : (d.bootStart mv).Formed := .ddrStart <| .powerHub <| .measureVccio <| .wr <| .same h

theorem takeSettings {c : Nat} {b : Bytes} {d : Dev} (h : d.Formed) : (d.takeSettings c b).Formed := .same <| .wr <| .wr <| .wr h

theorem baseFrame {n : Nat} {f : Bytes} {d e : Dev} (h : d.Formed) (he : d.baseFrame n f = some e) : e.Formed := by
  obtain ⟨_, he⟩ := Option.ite_none_right_eq_some.1 he
  cases he
  exact .installFrame <| .same h

theorem loadBase {n : Nat} {bs : Bytes} {d e : Dev} {fuel : Nat} (h : d.Formed) (he : d.loadBase n bs fuel = some e) : e.Formed := by
  induction fuel generalizing n bs d with
  | zero => cases he; exact h
  | succ fuel ih =>
    rw [Dev.loadBase] at he
    split_ifs at he
    · cases he
      exact h
    · split at he
      · cases he
      · next hf => exact ih (.baseFrame h hf) he

theorem tryImage {src errors runs : Nat} {d : Dev} (h : d.Formed) : (d.tryImage src errors runs).2.Formed := by
  refine .ite_snd h ?_
  split
  · refine .ite_snd h ?_
    dsimp only
    split
    · exact h
    · next heq => exact .ite_snd h <| .loadBase h heq
  · exact h

theorem bootRecord {code sev reason : Nat} {d : Dev} (h : d.Formed) : (d.bootRecord code sev reason).Formed := .unitFault <| .wr h

theorem primaryFailed {reason : Nat} {d : Dev} (h : d.Formed) : (d.primaryFailed reason).Formed := .wr <| .wr <| .bootRecord h

theorem bootReady {src ms : Nat} {v : Envelope} {d : Dev} (h : d.Formed) : (d.bootReady src ms v).Formed :=
  .when (.restEdge <| .same <| .wr <| .wr <| .wr <| .forUpto .wrAt <| .wr <| .wr <| .wr h) .event

theorem bootDead {reason ms : Nat} {d : Dev} (h : d.Formed) : (d.bootDead reason ms).Formed := .same <| .wr <| .wr <| .bootRecord h

theorem bootImages {errors runs ms : Nat} {v : Envelope} {d : Dev} (h : d.Formed) : (d.bootImages errors runs ms v).1.Formed := by
  have h0 := tryImage (src := 0) (errors := errors) (runs := runs) h
  unfold Dev.bootImages
  generalize d.tryImage 0 errors runs = x at h0 ⊢
  split <;> dsimp only at h0 ⊢
  · exact .bootReady h0
  · next r _ _ =>
    have h1 := tryImage (src := 1) (errors := errors) (runs := runs) (primaryFailed (reason := r) h)
    generalize (d.primaryFailed r).tryImage 1 errors runs = y at h1 ⊢
    split <;> dsimp only at h1 ⊢
    · exact .bootReady h1
    · exact .bootDead h1

theorem bootAll {errors runs : Nat} {mv : List Nat} {ms : Nat} {d0 : Dev} (h : d0.Formed) : (d0.bootAll errors runs mv ms).1.Formed := by
  dsimp only [Dev.bootAll]
  split
  · exact .bootDead <| .wr <| .bootStart h
  · exact .ite_fst (.bootImages <| .takeSettings <| .bootStart h) <| .bootDead <| .wr <| .takeSettings <| .bootStart h

theorem boot {errors runs : Nat} {mv : List Nat} {t0 t : Nat} {v : Envelope} {d0 : Dev} (h : d0.Formed) : (d0.boot errors runs mv t0 t v).1.Formed :=
  .ite_fst (.bootAll <| .toTime h) h

/-! The register pages as they are read: the page index (spec/19). -/

theorem readPage {mirror : Bool} {p o : Nat} {d : Dev} (h : d.Formed) : (d.readPage mirror p o).2.Formed :=
  .ite_snd (.same h) <| .ite_snd (.wr <| .same h) <| .ite_snd (.wrAt <| .same h) <| .ite_snd (.setCaps <| .same h) <| .same h

theorem readPf0 {off : Nat} {d : Dev} (h : d.Formed) : (d.readPf0 off).2.Formed := .ite_snd h <| .readPage h

theorem readPf1 {off : Nat} {d : Dev} (h : d.Formed) : (d.readPf1 off).2.Formed := .ite_snd (.readPage h) <| .ite_snd (.readPage h) h

/-! Writes to the register pages (spec/00). -/

theorem writeField {r : Reg} {n k i w : Nat} {d : Dev} (h : d.Formed) : (d.writeField r n k i w).Formed := by
  dsimp only [Dev.writeField]
  split
  · exact .wrAt h
  · exact .wrAt h
  · exact .wrAt h
  · exact h
  · exact h
  · exact h
  · exact h

theorem writeFields {rows : List Reg} {n o w : Nat} {d : Dev} (h : d.Formed) : (d.writeFields rows n o w).Formed := by
  unfold Dev.writeFields
  refine .forAll ?_ h
  intro _ _ hd
  split
  · exact hd
  · exact .writeField hd

theorem plainWrite {p o w : Nat} {d : Dev} (h : d.Formed) : (d.plainWrite p o w).Formed := by
  unfold Dev.plainWrite
  split
  · exact h
  · exact .writeFields h

theorem pageLockWrite {p w : Nat} {d : Dev} (h : d.Formed) : (d.pageLockWrite p w).Formed := .ite (.wrAt h) h

theorem clearRaised {src : Nat} {d : Dev} (h : d.Formed) : (d.clearRaised src).Formed := .same h

theorem writeEnable {src v : Nat} {d : Dev} (h : d.Formed) : (d.writeEnable src v).Formed := .ite (.sendMsix <| .same h) <| .same h

theorem writeRoute {p src entry safety : Nat} {d : Dev} (h : d.Formed) : (d.writeRoute p src entry safety).Formed := .ite (.wrAt h) <| .same h

theorem writeEnables {srcs : List (Nat × Nat)} {d : Dev} (h : d.Formed) : (d.writeEnables srcs).Formed := .forAll .writeEnable h

theorem evRouteWrite {p w : Nat} {d : Dev} (h : d.Formed) : (d.evRouteWrite p w).Formed :=
  .ite (.wrAt h) <| .ite (.wrAt h) <| .ite (.wrAt h) <| .writeRoute <| .wrAt h

theorem clearEvents {srcs same : List Nat} {d : Dev} (h : d.Formed) : (d.clearEvents srcs same).Formed :=
  .forAll .event <| .forAll .clearRaised h

theorem evRaisedWrite {p w same : Nat} {d : Dev} (h : d.Formed) : (d.evRaisedWrite p w same).Formed := .clearEvents h

theorem evEnableWrite {p w : Nat} {d : Dev} (h : d.Formed) : (d.evEnableWrite p w).Formed := .writeEnables h

theorem evForceWrite {p w : Nat} {d : Dev} (h : d.Formed) : (d.evForceWrite p w).Formed := .forAll .event h

theorem headerWrite {p o w : Nat} {d : Dev} (h : d.Formed) : (d.headerWrite p o w).Formed :=
  .ite (.pageLockWrite h) <| .ite (.wrAt h) <| .ite (.ite (.wrAt h) h) <| .ite (.evRaisedWrite h) <| .ite (.evEnableWrite h) <| .ite (.evForceWrite h) <|
  .ite (.evRouteWrite h) h

theorem evtRaisedWrite {p o w same : Nat} {d : Dev} (h : d.Formed) : (d.evtRaisedWrite p o w same).Formed := .clearEvents h

theorem evtEnableWrite {p o w : Nat} {d : Dev} (h : d.Formed) : (d.evtEnableWrite p o w).Formed := .writeEnables h

theorem evtForceWrite {p o w : Nat} {d : Dev} (h : d.Formed) : (d.evtForceWrite p o w).Formed := .forAll .event h

theorem evtRouteWrite {p o w : Nat} {d : Dev} (h : d.Formed) : (d.evtRouteWrite p o w).Formed := .ite (.writeRoute h) h

theorem evtWrite {p o w : Nat} {d : Dev} (h : d.Formed) : (d.evtWrite p o w).Formed :=
  .ite (.evtRaisedWrite h) <| .ite (.evtEnableWrite h) <| .ite (.evtForceWrite h) <| .ite (.evtRouteWrite h) h

theorem guarded {ok : Bool} {refuse act : Dev → Dev} {d : Dev} (hrefuse : ∀ {e}, e.Formed → (refuse e).Formed) (hact : ∀ {e}, e.Formed → (act e).Formed)
    (h : d.Formed) :
  (d.guarded ok refuse act).Formed := .ite (hact h) (hrefuse h)

theorem resetCtrlWrite {w t : Nat} {d : Dev} (h : d.Formed) : (d.resetCtrlWrite w t).Formed :=
  .hostReset <| .when (.when h .arrayReset) .edgeReset

theorem safeCtrlWrite {v : Envelope} {w t : Nat} {d : Dev} (h : d.Formed) : (d.safeCtrlWrite v w t).Formed :=
  .when (.when h .clearWrite) .testWrite

theorem powerPageWrite {o w : Nat} {d : Dev} (h : d.Formed) : (d.powerPageWrite o w).Formed :=
  .ite (.targetWrite h) <| .ite (.guarded .wr .wr h) <| .ite (.domCtrlWrite h) <| .plainWrite h

theorem timePageWrite {o w t : Nat} {d : Dev} (h : d.Formed) : (d.timePageWrite o w t).Formed :=
  .ite (.timeCtrlWrite h) <| .ite (.stageLow h) <| .ite (.addendWrite h) <| .ite (.guarded .wr .wr h) <|
  .ite (.guarded .wr .wr h) <| .ite (.pulseCtrlWrite h) <| .ite (.guarded .wr .plainWrite h) <|
  .plainWrite h

theorem takePageWrite {o w : Nat} {d : Dev} (h : d.Formed) : (d.takePageWrite o w).Formed :=
  .ite (.takeCtrlWrite h) <| .ite (.stageLow h) <| .ite (.injectThroughWrite h) <| .plainWrite h

theorem loadPageWrite {o w t : Nat} {d : Dev} (h : d.Formed) : (d.loadPageWrite o w t).Formed :=
  .ite (.when (.when (.when h .loadEnd) .regionReleaseWrite) .stateAck) <| .ite (.productionIdWrite h) <|
  .ite (.productionIdWrite h) <| .ite (.positionWrite h) <| .plainWrite h

theorem dbgPageWrite {o w t : Nat} {d : Dev} (h : d.Formed) : (d.dbgPageWrite o w t).Formed :=
  .ite (.when (.when (.attachWrite h) .unlock) .newNonce) <| .ite (.wr h) <| .ite (.bapCtrlWrite h) <| .ite h <| .plainWrite h

theorem globalWrite {p o w t : Nat} {v : Envelope} {d : Dev} (h : d.Formed) : (d.globalWrite p o w t v).Formed :=
  .ite (.resetCtrlWrite h) <| .ite (.stepMhzWrite h) <| .ite (.safeCtrlWrite h) <| .ite (.wr h) <| .ite (.powerPageWrite h) <| .ite (.timePageWrite h) <|
  .ite (.tbCfgWrite h) <| .ite (.takePageWrite h) <| .ite (.checkCtrlWrite h) <| .ite (.loadPageWrite h) <| .ite (.runCtrlWrite h) <| .ite (.wdogWrite h) <|
  .ite (.dbgPageWrite h) <| .ite (.watchCtrlWrite h) <| .ite (.watchWrite h) <| .plainWrite h

theorem dmmuWrite {o w : Nat} {d : Dev} (h : d.Formed) : (d.dmmuWrite o w).Formed :=
  .ite (.invCtrlWrite h) <| .ite (.plainWrite h) <| .ite (.plainWrite h) <| .ite (.ctxRootWrite h) <| .plainWrite h

theorem fenceWrite {o w : Nat} {d : Dev} (h : d.Formed) : (d.fenceWrite o w).Formed := .ite (.fenceCtrlWrite h) <| .ite (.wr h) <| .plainWrite h

theorem schedWrite {o w : Nat} {d : Dev} (h : d.Formed) : (d.schedWrite o w).Formed :=
  .ite (.tokenPostWrite h) <| .ite (.guarded .wr .plainWrite h) <| .plainWrite h

theorem queueWrite {q o w : Nat} {d : Dev} (h : d.Formed) : (d.queueWrite q o w).Formed :=
  .ite (.qCtrlWrite h) <| .ite (.wrAt h) <| .ite (.sqTailWrite h) <| .ite (.cqHeadWrite h) <| .plainWrite h

theorem ddrWriteReg {o w : Nat} {d : Dev} (h : d.Formed) : (d.ddrWriteReg o w).Formed :=
  .ite (.ite (.ddrRetrain h) <| .ddrCtrlFields h) <| .ite (.guarded id .wr h) <| .plainWrite h

theorem traceWrite {o w t : Nat} {d : Dev} (h : d.Formed) : (d.traceWrite o w t).Formed :=
  .ite (.traceCtrlWrite h) <| .ite (.refuseTrace h) <| .ite (.guarded .refuseTrace .plainWrite h) <| .ite (.rdWrite h) <|
  .ite (.capMaskWrite h) <| .ite (.fieldCfgWrite h) <| .plainWrite h

theorem hubWrite {p o w t : Nat} {d : Dev} (h : d.Formed) : (d.hubWrite p o w t).Formed :=
  .ite (.bar2OffsetHiWrite h) <| .ite (.dmmuWrite h) <| .ite (.fenceWrite h) <| .ite (.checkModeWrite h) <| .ite (.guarded id .wr h) <|
  .ite (.schedWrite h) <| .ite (.queueWrite h) <| .ite (.ddrWriteReg h) <| .ite (.klCtrlWrite h) <| .ite (.txEqWrite h) <| .ite (.traceWrite h) <|
  .ite (.snapCtrlWrite h) <| .ite h <| .plainWrite h

theorem pinbankWrite {b o w t : Nat} {d : Dev} (h : d.Formed) : (d.pinbankWrite b o w t).Formed :=
  .ite (.lockKeyWrite h) <| .ite (.lockWrite h) <| .ite (.pinCfgHiWrite <| .endArming h) <| .ite (.pinCfgLoWrite <| .endArming h) <| .plainWrite <| .endArming h

theorem matchPageWrite {m o w : Nat} {d : Dev} (h : d.Formed) : (d.matchPageWrite m o w).Formed :=
  .ite (.matchCtrlWrite h) <| .ite (.plainWrite h) <| .ite (.matchWrite .plainWrite h) h

theorem fabricWrite {p o w t : Nat} {d : Dev} (h : d.Formed) : (d.fabricWrite p o w t).Formed :=
  .ite (.edgeCtrlWrite h) <| .ite (.edgeStatusWrite h) <| .ite (.presentCfgWrite h) <| .ite (.probeSelWrite h) <| .ite (.pinbankWrite h) <|
    .ite (.matchPageWrite h) <|
  .ite (.farCtrlWrite h) <| .ite (.bankCtrlWrite h) <| .plainWrite h

theorem mboxWrite {o w t : Nat} {d : Dev} (h : d.Formed) : (d.mboxWrite o w t).Formed := .ite (.when h .doorbell) <| .plainWrite h

theorem blockWrite {p o w t : Nat} {v : Envelope} {d : Dev} (h : d.Formed) : (d.blockWrite p o w t v).Formed :=
  .ite (.evtWrite h) <| .ite (.globalWrite h) <| .ite (.hubWrite h) <| .ite (.mboxWrite h) <| .fabricWrite h

theorem msixWrite {func o w : Nat} {d : Dev} (h : d.Formed) : (d.msixWrite func o w).Formed := by
  dsimp only [Dev.msixWrite]
  refine .ite ?_ ?_
  · exact h
  · split
    · exact .same h
    · exact .same h
    · exact .same h
    · exact .ite (.msixUnmask h) <| .same h

theorem holdAccess {h0 : Held} {d : Dev} (h : d.Formed) : (d.holdAccess h0).Formed := .same h

theorem pageWrite {tap : Bool} {p o w t : Nat} {v : Envelope} {d : Dev} (h : d.Formed) : (d.pageWrite tap p o w t v).Formed := by
  unfold Dev.pageWrite
  refine .ite ?_ ?_
  · exact h
  · refine .ite ?_ ?_
    · exact .headerWrite h
    · split
      · exact .blockWrite h
      · split
        · next heq => exact .blockWrite <| .pair heq (.gateway h)
        · next heq => exact .pair heq (.gateway h)
        · next heq => exact .holdAccess <| .pair heq (.gateway h)

theorem pf0Write {tap : Bool} {off w t : Nat} {v : Envelope} {d : Dev} (h : d.Formed) : (d.pf0Write tap off w t v).Formed :=
  .ite h <| .ite (.msixWrite h) <| .ite { h with sram := SMap.wf_store _ _ _ h.sram } <| .pageWrite h

theorem pf1Write {off w t : Nat} {v : Envelope} {d : Dev} (h : d.Formed) : (d.pf1Write off w t v).Formed :=
  .ite (.pageWrite h) <| .ite (.wr h) <| .ite (.pageWrite h) <| .ite (.msixWrite h) h

theorem busWord {func off w t : Nat} {v : Envelope} {d : Dev} (h : d.Formed) : (d.busWord func off w t v).Formed := .ite (.pf0Write h) <| .pf1Write h

theorem busWrite {func off size be value t : Nat} {v : Envelope} {d0 : Dev} (h : d0.Formed) : (d0.busWrite func off size be value t v).Formed := by
  unfold Dev.busWrite
  extract_lets d1 d
  have h1 : d1.Formed := .toTime h
  have hd : d.Formed := .count h1
  exact .ite h1 <| .ite (.wr hd) <| .ite (.wr hd) <| .ite (.busWord hd) <| .busWord <| .busWord hd

theorem registerWrite {s : RegSpace} {size be value t : Nat} {v : Envelope} {d : Dev} (h : d.Formed) : (d.registerWrite s size be value t v).Formed := by
  dsimp only [Dev.registerWrite]
  split
  · exact .busWrite h
  · exact .ite (.same h) h
  · exact .ite (.same h) h
  · exact h

theorem rowWrite {p o w t : Nat} {act : Dev → Dev} {d0 : Dev} (hact : ∀ {e}, e.Formed → (act e).Formed) (h : d0.Formed) : (d0.rowWrite p o w t act).Formed := by
  unfold Dev.rowWrite
  extract_lets d d1
  have hd : d.Formed := .toTime h
  have h1 : d1.Formed := .count hd
  refine .ite ?_ ?_
  · exact hd
  · split
    · exact hact h1
    · split
      · next heq => exact hact <| .pair heq (.gateway h1)
      · next heq => exact .pair heq (.gateway h1)
      · next heq => exact .holdAccess <| .pair heq (.gateway h1)

theorem rowRead {p t : Nat} {act : Dev → Dev} {d0 : Dev} (hact : ∀ {e}, e.Formed → (act e).Formed) (h : d0.Formed) : (d0.rowRead p t act).Formed :=
  .ite (hact <| .count <| .toTime h) <| .toTime h

theorem rowFunc {func t : Nat} {act : Dev → Dev} {d0 : Dev} (hact : ∀ {e}, e.Formed → (act e).Formed) (h : d0.Formed) : (d0.rowFunc func t act).Formed :=
  .ite (hact <| .count <| .toTime h) <| .toTime h

theorem whenPf0 {act : Dev → Dev} {d : Dev} (hact : ∀ {e}, e.Formed → (act e).Formed) (h : d.Formed) : (d.whenPf0 act).Formed := .ite h (hact h)

theorem whenBooted {act : Dev → Dev} {d : Dev} (hact : ∀ {e}, e.Formed → (act e).Formed) (h : d.Formed) : (d.whenBooted act).Formed := .ite h (hact h)

theorem eventWrite {func off t : Nat} {f : Nat → Nat → Dev → Dev} {d0 : Dev} (hf : ∀ {p o e}, e.Formed → (f p o e).Formed) (h : d0.Formed) :
  (d0.eventWrite func off t f).Formed := .ite (hf <| .count <| .toTime h) <| .toTime h

theorem pageLockRow {func off w t : Nat} {d : Dev} (h : d.Formed) : (d.pageLockRow func off w t).Formed := .eventWrite (fun hd => .ite (.pageLockWrite hd) hd) h

theorem evRouteRow {func off w t : Nat} {d : Dev} (h : d.Formed) : (d.evRouteRow func off w t).Formed :=
  .eventWrite (fun hd => .ite (.evRouteWrite hd) <| .ite (.evtRouteWrite hd) hd) h

theorem evRaisedRow {func off w same t : Nat} {d : Dev} (h : d.Formed) : (d.evRaisedRow func off w same t).Formed :=
  .eventWrite (fun hd => .ite (.evRaisedWrite hd) <| .ite (.evtRaisedWrite hd) hd) h

theorem evEnableRow {func off w t : Nat} {d : Dev} (h : d.Formed) : (d.evEnableRow func off w t).Formed :=
  .eventWrite (fun hd => .ite (.evEnableWrite hd) <| .ite (.evtEnableWrite hd) hd) h

theorem evForceRow {func off w t : Nat} {d : Dev} (h : d.Formed) : (d.evForceRow func off w t).Formed :=
  .eventWrite (fun hd => .ite (.evForceWrite hd) <| .ite (.evtForceWrite hd) hd) h

theorem gatedWord {func off : Nat} {d : Dev} (h : d.Formed) : (d.gatedWord func off).2.Formed := by
  dsimp only [Dev.gatedWord]
  split
  · exact .ite_snd (.readPf0 h) <| .readPf1 h
  · split
    · next heq => exact .ite_snd (.readPf0 <| .pair heq (.gateway h)) <| .readPf1 <| .pair heq (.gateway h)
    · next heq => exact .pair heq (.gateway h)
    · next heq => exact .pair heq (.gateway h)

theorem gatedRead {func off size : Nat} {d : Dev} (h : d.Formed) : (d.gatedRead func off size).2.Formed := by
  unfold Dev.gatedRead
  split
  · next heq =>
    have h1 := Formed.pair heq (.gatedWord h)
    refine .ite_snd h1 ?_
    split <;> next heq => exact .pair heq (.gatedWord h1)
  · exact .gatedWord h

theorem busRead {func off size t : Nat} {d0 : Dev} (h : d0.Formed) : (d0.busRead func off size t).Formed := by
  unfold Dev.busRead
  extract_lets d1 d
  have h1 : d1.Formed := .toTime h
  have hd : d.Formed := .count h1
  refine .ite ?_ ?_
  · exact h1
  · refine .ite ?_ ?_
    · exact .emit <| .wr hd
    · refine .ite ?_ ?_
      · exact .emit hd
      · split <;> next heq => exact .emit <| .pair heq (.gatedRead hd)

theorem configRead {number : Nat} {reg : CfgReg} {d : Dev} (h : d.Formed) : (d.configRead number reg).Formed := by
  unfold Dev.configRead
  refine .ite ?_ ?_
  · exact .emit h
  · split <;> exact .emit h

theorem controlRead {func value : Nat} {d : Dev} (h : d.Formed) : (d.controlRead func value).Formed := .ite (.emit h) <| .ite (.emit h) <| .emit h

theorem registerRead {s : RegSpace} {size t : Nat} {d : Dev} (h : d.Formed) : (d.registerRead s size t).Formed := by
  unfold Dev.registerRead
  split
  · exact .busRead h
  · exact .controlRead <| .toTime h
  · exact .controlRead <| .toTime h
  · exact .configRead <| .toTime h

theorem tapDone {v : Nat} {d : Dev} (h : d.Formed) : (d.tapDone v).Formed := .same h

theorem tapRead {off : Nat} {d : Dev} (h : d.Formed) : (d.tapRead off).Formed := by
  dsimp only [Dev.tapRead]
  split
  · next heq => exact .tapDone <| .pair heq (.gatedWord h)
  · next heq => exact .holdAccess <| .same <| .pair heq (.gatedWord h)

theorem dbgAccess {v : Envelope} {bits t : Nat} {d0 : Dev} (h : d0.Formed) : (d0.dbgAccess v bits t).Formed := by
  unfold Dev.dbgAccess
  extract_lets d1 d
  have h1 : d1.Formed := .toTime h
  have hd : d.Formed := .emit h1
  exact .ite h1 <| .ite hd <| .ite (.same hd) <| .ite (.tapRead hd) <| .pf0Write <| .same hd

theorem deliverHeld {h0 : Held} {v : Envelope} {t : Nat} {d : Dev} (h : d.Formed) : (d.deliverHeld h0 v t).Formed :=
  .ite (.pf0Write <| .same h) <| .tapRead <| .same h

theorem domainOn {i : Nat} {v : Envelope} {t : Nat} {d0 : Dev} (h : d0.Formed) : (d0.domainOn i v t).Formed :=
  .ite (.toTime h) <| .exitDone <| .forAll .deliverHeld <| .wrAt <| .domainUp <| .toTime h

theorem idleCycle {d : Dev} (h : d.Formed) : d.idleCycle.Formed := .watchTbPins <| .settlePins <| .settleJump <| .cycle <| .ite (.powerDue <| .endStep h) h

end Dev.Formed

/-- A carried-out command leaves a device whose memories are in canonical form. -/
def Answer.Formed (r : Answer) : Prop := ∀ u, r = .next u → u.dev.Formed

namespace Answer.Formed

theorem next {s : State} (h : s.dev.Formed) : Answer.Formed (.next s) := fun _ hu => Host.Outcome.next.inj hu ▸ h

theorem fault {f : Fault} : Answer.Formed (.fault f) := fun _ hu => nomatch hu

theorem ite {c : Prop} [Decidable c] {a b : Answer} (ha : a.Formed) (hb : b.Formed) : Answer.Formed (if c then a else b) := by split <;> assumption

theorem onDev {s : State} {f : Dev → Dev} (hf : ∀ {e}, e.Formed → (f e).Formed) (h : s.dev.Formed) : (s.onDev f).Formed := .next (hf h)

theorem onUnit {s : State} {c : Bool} {f : Dev → Dev} (hf : ∀ {e}, e.Formed → (f e).Formed) (h : s.dev.Formed) : (s.onUnit c f).Formed :=
  .ite (.onDev hf h) .fault

theorem onFresh {s : State} {f : Dev → Dev} (hf : ∀ {e}, e.Formed → (f e).Formed) (h : s.dev.Formed) : (s.onFresh f).Formed := .next (hf h)

theorem onEnvelope {s : State} {f : Dev → Dev} (hf : ∀ {e}, e.Formed → (f e).Formed) (h : s.dev.Formed) : (s.onEnvelope f).Formed := .next (hf h)

theorem onBoot {s : State} {f : Dev → Dev × Envelope} (hf : ∀ {e}, e.Formed → (f e).1.Formed) (h : s.dev.Formed) : (s.onBoot f).Formed := .next (hf h)

/-- Each command, by what its device function keeps. -/
theorem exec {c : Instr} {s : State} (h : s.dev.Formed) : Answer.Formed (exec c s) :=
  match c with
  | .nop .. => .onUnit .bpStep h
  | .eval .. => .onUnit .bpStep h
  | .evalDrive .. => .onUnit .bpStep h
  | .commit .. => .onUnit .bpStep h
  | .commitDrive .. => .onUnit .bpStep h
  | .memAddr .. => .onUnit .bpStep h
  | .memWdata .. => .onUnit .bpStep h
  | .memGo .. => .onUnit .bpStep h
  | .farAddr .. => .onUnit .bpStep h
  | .farData .. => .onUnit .bpStep h
  | .farGo .. => .onUnit .bpStep h
  | .edgeOut .. => .onUnit .bpStep h
  | .probe .. => .onUnit .bpStep h
  | .reservedMode .. => .onUnit .bpStep h
  | .bankArrayCycle .. => .onUnit .bankCycle h
  | .farResponse .. => .onUnit (fun hd => .wakeDdr <| .farResponse hd) h
  | .belayEntry => .onDev .belayEntry h
  | .snapshot .. => .onDev .snapshot h
  | .belayConditionsMet .. => .onDev .conditionsMet h
  | .belayRelease .. => .onDev .belayRelease h
  | .belayTimeout .. => .onDev .belayTimeout h
  | .tickEdge .. => .onDev .tickEdge h
  | .presentation .. => .onDev .presentation h
  | .start .. => .onDev (.rowWrite .runCtrlWrite) h
  | .halt .. => .onDev (.rowWrite .runCtrlWrite) h
  | .takeWatchdog .. => .onDev .takeWatchdog h
  | .wdogPeriodUsWrite .. => .onDev (.rowWrite .wdogWrite) h
  | .takeCtrlWrite .. => .onDev (.rowWrite .takeCtrlWrite) h
  | .injectThroughWrite .. => .onDev (.rowWrite .injectThroughWrite) h
  | .checkCtrlWrite .. => .onDev (.rowWrite .checkCtrlWrite) h
  | .bankCtrlWrite .. => .onUnit (.rowWrite .bankCtrlWrite) h
  | .farCtrlWrite .. => .onUnit (.rowWrite .farCtrlWrite) h
  | .slate .. => .onDev .slateArrives h
  | .instrFrame .. => .onDev .frameArrives h
  | .stateFrame .. => .onDev .frameArrives h
  | .bankFrame .. => .onDev .frameArrives h
  | .laneFrame .. => .onDev .frameArrives h
  | .pitchFrame .. => .onDev .frameArrives h
  | .edgeFrame .. => .onDev .frameArrives h
  | .pinFrame .. => .onDev .frameArrives h
  | .timebaseFrame .. => .onDev .frameArrives h
  | .loadEnd .. => .onDev (.rowWrite .loadEnd) h
  | .regionRelease .. => .onDev (.rowWrite .regionReleaseWrite) h
  | .stateAck .. => .onDev (.rowWrite .stateAck) h
  | .productionIdWrite .. => .onDev (.rowWrite .productionIdWrite) h
  | .stagedGlobalRelease .. => .onDev (.rowWrite .edgeCtrlWrite) h
  | .releaseStage1 => .onDev .reachStage h
  | .releaseStage2 => .onDev .reachStage h
  | .releaseStage3 => .onDev .reachStage h
  | .edgeClockCycle .. => .onDev .edgeClock h
  | .blockMemoryAccess .. => .onUnit .blockMemory h
  | .fifoWrite .. => .onUnit .fifoWrite h
  | .fifoPop .. => .onUnit .fifoPop h
  | .edgePllLock .. => .onUnit .pllLock h
  | .probeSelWrite .. => .onUnit (.rowWrite .probeSelWrite) h
  | .presentCfgWrite .. => .onDev (.rowWrite .presentCfgWrite) h
  | .pinCfgHiWrite .. => .onUnit (.rowWrite (fun hd => .watchTbPins <| .pinCfgHiWrite <| .endArming hd)) h
  | .keeperWindowEnd .. => .onUnit (fun hd => .watchTbPins <| .windowEnd hd) h
  | .lockKey .. => .onUnit (.rowWrite .lockKeyWrite) h
  | .lock .. => .onUnit (.rowWrite .lockWrite) h
  | .lockSeqTimeout .. => .onUnit .lockTimeout h
  | .matchCtrlWrite .. => .onUnit (.rowWrite .matchCtrlWrite) h
  | .pinMatch .. => .onUnit (fun hd => .watchTbPins <| .pinMatch hd) h
  | .pinLevelRequest .. => .onUnit (fun hd => .watchTbPins <| .pinRequest hd) h
  | .minPulseElapsed .. => .onUnit (fun hd => .watchTbPins <| .minPulseElapsed hd) h
  | .rateWindowEnd .. => .onUnit (fun hd => .watchTbPins <| .rateWindowEnd hd) h
  | .outputReadback .. => .onUnit (fun hd => .watchTbPins <| .outputReadback hd) h
  | .timeWrap .. => .onDev .timeWrap h
  | .addendWrite .. => .onDev (.rowWrite .addendWrite) h
  | .jumpAccept .. => .onDev (.rowWrite .timeCtrlWrite) h
  | .jumpReject .. => .onDev (.rowWrite .timeCtrlWrite) h
  | .resume .. => .onDev (.rowWrite .timeCtrlWrite) h
  | .syncInterval .. => .onDev .syncInterval h
  | .ptmExchange .. => .onDev .ptmExchange h
  | .syncLoss .. => .onDev .syncLoss h
  | .dividerCount .. => .onUnit .dividerCount h
  | .periodicInstant .. => .onUnit .periodicInstant h
  | .triggerEdge .. => .onUnit .triggerEdge h
  | .zeroCrossEdge .. => .onUnit .inputEdge h
  | .lineSyncEdge .. => .onUnit .inputEdge h
  | .encoderCount .. => .onUnit .encoderCount h
  | .index .. => .onUnit .index h
  | .lostTimeout .. => .onUnit .lostTimeout h
  | .substituteTick .. => .onUnit .substituteTick h
  | .tbCfgWrite .. => .onUnit (.rowWrite .tbCfgWrite) h
  | .pulseCtrlWrite .. => .onUnit (.rowWrite .pulseCtrlWrite) h
  | .pulseBoundary .. => .onUnit .pulseBoundary h
  | .captureEdge .. => .onUnit .captureEdge h
  | .stampLoRead .. => .onUnit (.rowRead .stampLoRead) h
  | .trigPulseEnd .. => .onUnit .trigPulseEnd h
  | .enable .. => .onUnit (.rowWrite .klCtrlWrite) h
  | .retrain .. => .onUnit (.rowWrite .klCtrlWrite) h
  | .peerClockActivity .. => .onUnit .peerClockActivity h
  | .receivePllLock .. => .onUnit .receivePllLock h
  | .bitLockDone .. => .onUnit .bitLockDone h
  | .symbolLockDone .. => .onUnit .symbolLockDone h
  | .linkStateTimeout .. => .onUnit .linkStateTimeout h
  | .exchangeA .. => .onUnit .exchangeA h
  | .exchangeB .. => .onUnit .exchangeB h
  | .exchangeC .. => .onUnit .exchangeC h
  | .linkFrameSend .. => .onUnit .linkFrameSend h
  | .linkFrameReceive .. => .onUnit (fun hd => .heldStart <| .linkFrameReceive hd) h
  | .replayTimeout .. => .onUnit .replayTimeout h
  | .linkLos .. => .onUnit .linkLos h
  | .linkLol .. => .onUnit .linkLol h
  | .announce .. => .onUnit .recvAnnounce h
  | .sync .. => .onUnit .recvSync h
  | .followUp .. => .onUnit .recvFollowUp h
  | .delayReq .. => .onUnit .recvDelayReq h
  | .delayResp .. => .onUnit .recvDelayResp h
  | .tick .. => .onUnit .recvTick h
  | .ready .. => .onUnit .recvReady h
  | .release .. => .onUnit .recvRelease h
  | .stop .. => .onUnit .recvStop h
  | .startCheck .. => .onUnit (fun hd => .heldStart <| .recvStartCheck hd) h
  | .lowrateReq .. => .onUnit .recvLowrateReq h
  | .lowrateAck .. => .onUnit .recvLowrateAck h
  | .fullrateReq .. => .onUnit .recvFullrateReq h
  | .txEqWrite .. => .onUnit (.rowWrite .txEqWrite) h
  | .registerWrite .. => .onEnvelope .registerWrite h
  | .inflightPeakRead .. => .onDev .registerRead h
  | .bar2Read .. => .onDev (.whenPf0 .bar2Read) h
  | .bar2Write .. => .onDev (.whenPf0 .bar2Write) h
  | .bar2OffsetHiWrite .. => .onDev (.rowWrite .bar2OffsetHiWrite) h
  | .bar4Read .. => .onDev (.whenPf0 .bar4Read) h
  | .bar4Write .. => .onDev (.whenPf0 .bar4Write) h
  | .go .. => .onDev (.rowWrite .invCtrlWrite) h
  | .invalidationDone => .onDev .invalidationDone h
  | .ctxRootWrite .. => .onUnit (.rowWrite .ctxRootWrite) h
  | .commitFences .. => .onDev (.rowWrite .fenceCtrlWrite) h
  | .fenceCommitted => .onDev .fenceCommitted h
  | .fenceLock .. => .onDev (.rowWrite .fenceCtrlWrite) h
  | .ddrChannelReady .. => .onUnit .ddrChannelReady h
  | .ddrInitFailed .. => .onUnit .ddrInitFailed h
  | .ddrRetrain .. => .onDev (.rowWrite .ddrRetrain) h
  | .patrolScrubRead .. => .onUnit .patrolScrub h
  | .ddrRefresh .. => .onUnit .ddrRefresh h
  | .dimmTempRead .. => .onUnit .dimmTemp h
  | .sqTailWrite .. => .onUnit (.rowWrite .sqTailWrite) h
  | .cqHeadWrite .. => .onUnit (.rowWrite .cqHeadWrite) h
  | .qCtrlWrite .. => .onUnit (.rowWrite .qCtrlWrite) h
  | .queueReset .. => .onUnit (.rowWrite .qCtrlWrite) h
  | .descriptorFetch .. => .onUnit .descriptorFetch h
  | .tokenPost .. => .onDev (.rowWrite .tokenPostWrite) h
  | .itemDispatch .. => .onUnit .itemDispatch h
  | .restartPoint .. => .onUnit .restartPoint h
  | .itemCompletion .. => .onUnit .itemCompletion h
  | .copy .. => .onUnit .copyMove h
  | .fill .. => .onUnit .fillMove h
  | .loadFrames .. => .onUnit .loadMove h
  | .readback .. => .onUnit .readbackMove h
  | .verify .. => .onUnit .verifyMove h
  | .inject .. => .onUnit .injectMove h
  | .capture .. => .onUnit .captureMove h
  | .restore .. => .onUnit .restoreMove h
  | .checksum .. => .onUnit .checksumMove h
  | .traceDrain .. => .onUnit .drainMove h
  | .erase .. => .onUnit .eraseMove h
  | .fence .. => .onUnit .fenceItem h
  | .token .. => .onUnit .tokenItem h
  | .timer .. => .onUnit .timerItem h
  | .timerDue .. => .onUnit .timerDue h
  | .mailbox .. => .onUnit .mailboxItem h
  | .nocPacketArrival .. => .onUnit .packetArrival h
  | .rspTimeout .. => .onDev .rspTimeout h
  | .checkModeWrite .. => .onDev (.rowWrite .checkModeWrite) h
  | .routerDrained .. => .onDev .routerDrained h
  | .domCtrlWrite .. => .onUnit (.rowWrite .domCtrlWrite) h
  | .pointOfNoReturn .. => .onUnit .pointOfNoReturn h
  | .domainOff .. => .onUnit .domainOff h
  | .domainOn .. => .ite (.onEnvelope .domainOn h) .fault
  | .targetWrite .. => .onDev (.rowWrite .targetWrite) h
  | .bivouacEntry .. => .onDev .bivouacEntry h
  | .pcieDStateChange .. => .onDev (.whenPf0 .dStateChange) h
  | .limiterSample .. => .onDev .limiterSample h
  | .attach .. => .onDev (.rowWrite .dbgPageWrite) h
  | .watchCtrlWrite .. => .onDev (.rowWrite .watchCtrlWrite) h
  | .bapGo .. => .onDev (.rowWrite .bapCtrlWrite) h
  | .bapDone .. => .onDev .bapDone h
  | .newNonce .. => .onDev (.rowWrite .dbgPageWrite) h
  | .unlock .. => .onDev (.rowWrite .dbgPageWrite) h
  | .unlockEraseDone .. => .onDev .unlockEraseDone h
  | .extest .. => .onDev .tapExtest h
  | .samplePreload .. => .onDev .tapSample h
  | .idcode .. => .onDev .tapIdcode h
  | .dbgAccess .. => .onEnvelope .dbgAccess h
  | .bypass .. => .onDev .tapBypass h
  | .testLogicReset .. => .onDev .tapReset h
  | .traceEnableWrite .. => .onDev (.rowWrite .traceCtrlWrite) h
  | .flush .. => .onDev (.rowWrite .traceCtrlWrite) h
  | .sinkRestart .. => .onDev (.rowWrite .traceCtrlWrite) h
  | .sinkLineWrite .. => .onDev .sinkLine h
  | .traceOverflow .. => .onDev .traceOverflow h
  | .tsPeriod .. => .onDev .tsPeriod h
  | .snapReq .. => .onDev (.rowWrite .snapCtrlWrite) h
  | .mgmtWatchdog .. => .onDev .mgmtWatchdog h
  | .mgmtRestart .. => .onDev .mgmtRestart h
  | .doorbell .. => .onDev (.rowWrite .doorbell) h
  | .mboxReply .. => .onDev .mboxReply h
  | .getInfo .. => .onDev .getInfo h
  | .logRead .. => .onDev .logRead h
  | .counterRead .. => .onDev .counterRead h
  | .counterRaise .. => .onDev .counterRaise h
  | .updateBegin .. => .onDev .updateBegin h
  | .updateData .. => .onDev .updateData h
  | .updateCommit .. => .onDev .updateCommit h
  | .sensorRead .. => .onDev .sensorRead h
  | .i2cXfer .. => .onDev .i2cXfer h
  | .clear .. => .onDev (.rowWrite .clearWrite) h
  | .test .. => .onDev (.rowWrite .testWrite) h
  | .estopInput .. => .onDev .estopInput h
  | .estopDeassert .. => .onDev .estopDeassert h
  | .instructionStoreScrub .. => .onDev .storeScrub h
  | .edgeScrub .. => .onDev .edgeScrub h
  | .voltageMonitor .. => .ite (.onFresh .por h) (.onUnit .voltageMonitor h)
  | .thermalSample .. => .onDev .thermalSample h
  | .clockMonitor .. => .onUnit .clockMonitor h
  | .stepMhzWrite .. => .onDev (.rowWrite .stepMhzWrite) h
  | .stepPllLock .. => .onDev .stepPllLock h
  | .por => .onFresh .por h
  | .deviceReset .. => .onFresh .externalReset h
  | .resetCtrlDevice .. => .onEnvelope (.rowWrite .resetCtrlWrite) h
  | .arrayReset .. => .onDev (.rowWrite .arrayReset) h
  | .edgeReset .. => .onDev (.rowWrite .edgeReset) h
  | .flrPf0 .. => .onDev (.whenPf0 .flrPf0) h
  | .flrPf1 .. => .onDev (.whenBooted .flrPf1) h
  | .boot .. => .onBoot .boot h
  | .pageLockWrite .. => .onUnit .pageLockRow h
  | .evRouteWrite .. => .onUnit .evRouteRow h
  | .evRaisedClear .. => .onUnit .evRaisedRow h
  | .evEnableWrite .. => .onUnit .evEnableRow h
  | .evForceWrite .. => .onUnit .evForceRow h
  | .referenceReturn .. => .onDev .referenceReturn h
  | .offsetAbsorbed .. => .onDev .offsetAbsorbed h
  | .msixVectorUnmask .. => .onUnit (.rowFunc .msixUnmask) h
  | .tapHoldsDbgAccess .. => .onDev .tapHolds h
  | .railEntersWindow .. => .onUnit .railEnters h

theorem step {s : State} (h : s.dev.Formed) : Answer.Formed (step s) := by
  unfold Machine.step
  split
  · exact .onDev (f := Dev.idleCycle) .idleCycle h
  · exact .exec h

end Answer.Formed

theorem State.memoriesWf_iff (s : State) : s.memoriesWf = true ↔ s.dev.Formed := by
  simp only [State.memoriesWf, State.memories, List.all_cons, List.all_nil, Bool.and_true, Bool.and_eq_true]
  exact ⟨fun ⟨hm, hb, he, hs, hf⟩ => ⟨hm, hb, he, hs, hf⟩, fun ⟨hm, hb, he, hs, hf⟩ => ⟨hm, hb, he, hs, hf⟩⟩

/-- Settles O59: every function of the device keeps the canonical form of the addressed memories, and a step is one of them. -/
theorem memoriesKeepForm : Obligations.MemoriesKeepForm := by
  unfold Obligations.MemoriesKeepForm
  intro s u hs hu
  rw [State.memoriesWf_iff] at hs ⊢
  exact Answer.Formed.step hs u hu

end Sys2Proof.Machine

/-! PROOFS. The writes of BANK_CTRL and of the registers of a far port (spec/05 R127, R131, R136, R140, R154). -/

namespace Sys2Proof.Machine

/-! What the device at a write shows in the far and bank pages, whose registers lie above the counters. -/

theorem Dev.rdAt_atWrite_high (d : Dev) (t : Nat) {q : Reg} (m j : Nat) (hq : 0x400000 ≤ q.base) : (d.atWrite t).rdAt q m j = d.rdAt q m j := by
  refine Dev.rdAt_atWrite d t ?_
  simp only [Reg.key, R.CNT.LIVE]
  omega

theorem Dev.rdAt_atWrite_bank (d : Dev) (t g : Nat) :
    (d.atWrite t).rdAt R.BANK.BANK_CTRL_ASPECT g 0 = d.rdAt R.BANK.BANK_CTRL_ASPECT g 0 ∧ (d.atWrite t).rdAt R.BANK.BANK_CTRL_JOIN g 0 = d.rdAt R.BANK.BANK_CTRL_JOIN g 0 ∧
    (d.atWrite t).rdAt R.BANK.BANK_STATUS_OWNER_NOW g 0 = d.rdAt R.BANK.BANK_STATUS_OWNER_NOW g 0 :=
  ⟨Dev.rdAt_atWrite_high d t g 0 (by decide), Dev.rdAt_atWrite_high d t g 0 (by decide), Dev.rdAt_atWrite_high d t g 0 (by decide)⟩

/-- The page that controls a bank depends on the JOIN of the page below alone. -/
theorem Dev.bankPage_congr {d e : Dev} {g : Nat} (h : d.rdAt R.BANK.BANK_CTRL_JOIN (g - 1) 0 = e.rdAt R.BANK.BANK_CTRL_JOIN (g - 1) 0) : d.bankPage g = e.bankPage g := by
  unfold Dev.bankPage
  rw [h]

theorem Dev.bankPage_atWrite (d : Dev) (t g : Nat) : (d.atWrite t).bankPage g = d.bankPage g := Dev.bankPage_congr (d.rdAt_atWrite_bank t (g - 1)).2.1

/-! BANK_CTRL (R127, R131, R136). -/

/-- A write of BANK_CTRL that is dropped (R131, R154). -/
def Dev.bankCtrlRefused (d : Dev) (g w : Nat) : Prop :=
  d.bankPage g ≠ g ∨ 6 ≤ fieldAt w 0 3 ∨ fieldAt w 4 2 = 3 ∨
    d.running = true ∧ (fieldAt w 0 3 ≠ d.rdAt R.BANK.BANK_CTRL_ASPECT g 0 ∨ g % 2 = 0 ∧ bitAt w 3 ≠ d.rdAt R.BANK.BANK_CTRL_JOIN g 0)

theorem Dev.bankCtrlRefused_atWrite (d : Dev) (t g w : Nat) : (d.atWrite t).bankCtrlRefused g w ↔ d.bankCtrlRefused g w := by
  obtain ⟨haspect, hjoin, _⟩ := d.rdAt_atWrite_bank t g
  unfold Dev.bankCtrlRefused
  rw [Dev.bankPage_atWrite, Dev.running_atWrite, haspect, hjoin]

/-- BANK_CTRL by whether the write is dropped; an upper page keeps its JOIN. -/
theorem Dev.bankCtrlWrite_eq (d : Dev) (g w : Nat) [Decidable (d.bankCtrlRefused g w)] :
    d.bankCtrlWrite g w = if d.bankCtrlRefused g w then d.wrAt R.BANK.BANK_STATUS_WRITE_REFUSED g 0 1
      else (d.setBankShape g (fieldAt w 0 3) (bitAt w 3)).requestOwner g (fieldAt w 4 2) := by
  unfold Dev.bankCtrlWrite
  dsimp only
  have hshape : d.setBankShape g (fieldAt w 0 3) (if g % 2 = 0 then bitAt w 3 else d.rdAt R.BANK.BANK_CTRL_JOIN g 0) = d.setBankShape g (fieldAt w 0 3) (bitAt w 3) := by
    unfold Dev.setBankShape
    split_ifs <;> rfl
  rw [hshape]
  refine if_congr ?_ rfl rfl
  unfold Dev.bankCtrlRefused
  by_cases hg : g % 2 = 0 <;> simp [hg, or_assoc]

theorem Dev.bankCtrl_taken {d : Dev} {g w : Nat} (hown : d.bankPage g = g) (haspect : fieldAt w 0 3 < 6) (howner : fieldAt w 4 2 ≠ 3)
    (hrun : d.running = true → fieldAt w 0 3 = d.rdAt R.BANK.BANK_CTRL_ASPECT g 0 ∧ (g % 2 = 0 → bitAt w 3 = d.rdAt R.BANK.BANK_CTRL_JOIN g 0)) :
    ¬ d.bankCtrlRefused g w := by
  rintro (h | h | h | ⟨h, hshape⟩)
  · exact h hown
  · omega
  · exact howner h
  · obtain ⟨hsame, hjoin⟩ := hrun h
    exact hshape.elim (fun h => h hsame) fun ⟨heven, h⟩ => h (hjoin heven)

section Shape

variable {d : Dev} {g aspect join : Nat}

/-- A register other than ASPECT of the page, JOIN of a lower page, and JOINED stays as it was. -/
theorem Dev.rdAt_setBankShape {q : Reg} {m j : Nat} (haspect : q.key m j ≠ R.BANK.BANK_CTRL_ASPECT.key g 0)
    (hjoin : g % 2 = 0 → q.key m j ≠ R.BANK.BANK_CTRL_JOIN.key g 0) (hjoined : ∀ n, q.key m j ≠ R.BANK.BANK_STATUS_JOINED.key n 0) :
    (d.setBankShape g aspect join).rdAt q m j = d.rdAt q m j := by
  unfold Dev.setBankShape
  dsimp only
  split_ifs with heven
  · rw [Dev.rdAt_wrAt_ne _ _ (hjoined _), Dev.rdAt_wrAt_ne _ _ (hjoined _), Dev.rdAt_wrAt_ne _ _ (hjoin heven), Dev.rdAt_wrAt_ne _ _ haspect]
  · rw [Dev.rdAt_wrAt_ne _ _ haspect]

theorem Dev.setBankShape_arr : (d.setBankShape g aspect join).arr = d.arr := by
  unfold Dev.setBankShape
  dsimp only
  split_ifs <;> simp only [Dev.wrAt_arr]

theorem Dev.running_congr {d e : Dev} (h : d.rdAt R.RUN.RUN_STATUS_STATE 0 0 = e.rdAt R.RUN.RUN_STATUS_STATE 0 0) : d.running = e.running := by
  unfold Dev.running Dev.runState Dev.rd
  rw [h]

theorem Dev.running_setBankShape : (d.setBankShape g aspect join).running = d.running :=
  Dev.running_congr (Dev.rdAt_setBankShape (by simp only [Reg.key, R.RUN.RUN_STATUS_STATE, R.BANK.BANK_CTRL_ASPECT]; omega)
    (fun _ => by simp only [Reg.key, R.RUN.RUN_STATUS_STATE, R.BANK.BANK_CTRL_JOIN]; omega)
    fun n => by simp only [Reg.key, R.RUN.RUN_STATUS_STATE, R.BANK.BANK_STATUS_JOINED]; omega)

/-- The page that controls a bank does not depend on the shape of that bank, only on that of the one below. -/
theorem Dev.bankPage_setBankShape : (d.setBankShape g aspect join).bankPage g = d.bankPage g := by
  by_cases heven : g % 2 = 0
  · simp [Dev.bankPage, heven]
  · refine Dev.bankPage_congr (Dev.rdAt_setBankShape ?_ (fun h => absurd h heven) fun n => ?_)
    · simp only [Reg.key, R.BANK.BANK_CTRL_JOIN, R.BANK.BANK_CTRL_ASPECT]
      omega
    · simp only [Reg.key, R.BANK.BANK_CTRL_JOIN, R.BANK.BANK_STATUS_JOINED]
      omega

theorem Dev.bankOwner_setBankShape : (d.setBankShape g aspect join).bankOwner g = d.bankOwner g := by
  unfold Dev.bankOwner
  rw [Dev.bankPage_setBankShape]
  refine Dev.rdAt_setBankShape ?_ (fun _ => ?_) fun n => ?_
  · simp only [Reg.key, R.BANK.BANK_STATUS_OWNER_NOW, R.BANK.BANK_CTRL_ASPECT]
    omega
  · simp only [Reg.key, R.BANK.BANK_STATUS_OWNER_NOW, R.BANK.BANK_CTRL_JOIN]
    omega
  · simp only [Reg.key, R.BANK.BANK_STATUS_OWNER_NOW, R.BANK.BANK_STATUS_JOINED]
    omega

end Shape

section Owner

variable {d : Dev} {g owner : Nat}

/-- The device with the owner requested, before a handover that may be made at once (R136). -/
def Dev.ownerAsked (d : Dev) (g owner : Nat) : Dev :=
  (d.wrAt R.BANK.BANK_CTRL_OWNER g 0 owner).wrAt R.BANK.BANK_STATUS_HANDOVER_PENDING g 0 (bit (d.bankOwner g != owner))

theorem Dev.rdAt_ownerAsked {q : Reg} {m j : Nat} (howner : q.key m j ≠ R.BANK.BANK_CTRL_OWNER.key g 0)
    (hpending : q.key m j ≠ R.BANK.BANK_STATUS_HANDOVER_PENDING.key g 0) : (d.ownerAsked g owner).rdAt q m j = d.rdAt q m j := by
  unfold Dev.ownerAsked
  rw [Dev.rdAt_wrAt_ne _ _ hpending, Dev.rdAt_wrAt_ne _ _ howner]

theorem Dev.running_ownerAsked : (d.ownerAsked g owner).running = d.running :=
  Dev.running_congr (Dev.rdAt_ownerAsked (by simp only [Reg.key, R.RUN.RUN_STATUS_STATE, R.BANK.BANK_CTRL_OWNER]; omega)
    (by simp only [Reg.key, R.RUN.RUN_STATUS_STATE, R.BANK.BANK_STATUS_HANDOVER_PENDING]; omega))

theorem Dev.bankOwner_ownerAsked : (d.ownerAsked g owner).bankOwner g = d.bankOwner g := by
  have hpage : (d.ownerAsked g owner).bankPage g = d.bankPage g :=
    Dev.bankPage_congr (Dev.rdAt_ownerAsked (by simp only [Reg.key, R.BANK.BANK_CTRL_JOIN, R.BANK.BANK_CTRL_OWNER]; omega)
      (by simp only [Reg.key, R.BANK.BANK_CTRL_JOIN, R.BANK.BANK_STATUS_HANDOVER_PENDING]; omega))
  unfold Dev.bankOwner
  rw [hpage]
  exact Dev.rdAt_ownerAsked (by simp only [Reg.key, R.BANK.BANK_STATUS_OWNER_NOW, R.BANK.BANK_CTRL_OWNER]; omega)
    (by simp only [Reg.key, R.BANK.BANK_STATUS_OWNER_NOW, R.BANK.BANK_STATUS_HANDOVER_PENDING]; omega)

theorem Dev.ownerAsked_owner : (d.ownerAsked g owner).rdAt R.BANK.BANK_CTRL_OWNER g 0 = owner % 2 ^ 2 := by
  unfold Dev.ownerAsked
  rw [Dev.rdAt_wrAt_ne _ _ (by simp only [Reg.key, R.BANK.BANK_CTRL_OWNER, R.BANK.BANK_STATUS_HANDOVER_PENDING]; omega), Dev.rdAt_wrAt_same]
  rfl

theorem Dev.ownerAsked_pending : (d.ownerAsked g owner).rdAt R.BANK.BANK_STATUS_HANDOVER_PENDING g 0 = bit (decide (d.bankOwner g ≠ owner)) := by
  unfold Dev.ownerAsked
  rw [Dev.rdAt_wrAt_same]
  by_cases h : d.bankOwner g = owner <;> simp [h, bit, R.BANK.BANK_STATUS_HANDOVER_PENDING]

/-- While the array runs, a change of owner waits for the take boundary. -/
theorem Dev.requestOwner_running (h : d.running = true) : d.requestOwner g owner = d.ownerAsked g owner := if_pos (Dev.running_ownerAsked.trans h)

theorem Dev.requestOwner_stopped (h : d.running = false) : d.requestOwner g owner = (d.ownerAsked g owner).handovers :=
  if_neg (ne_true_of_eq_false (Dev.running_ownerAsked.trans h))

end Owner

/-! The registers of a far port (R140). -/

section FarPort

variable {d : Dev} {g off w : Nat}

theorem Dev.farCtrlWrite_refused (h : d.running = true ∨ 0x80 ≤ off ∧ off % 16 = 8 ∧ (fieldAt w 8 6 < 16 ∨ 40 < fieldAt w 8 6)) :
    d.farCtrlWrite g off w = d.wrAt R.FAR.FAR_STATUS_WRITE_REFUSED g 0 1 := by
  refine if_pos ?_
  simpa [and_assoc] using h

theorem Dev.farCtrlWrite_ctrl (h : d.running = false) :
    d.farCtrlWrite g 0x40 w = (d.wrAt R.FAR.FAR_CTRL_ENABLE g 0 w).wrAt R.FAR.FAR_CTRL_CTX g 0 (w / 2) := by
  simp [Dev.farCtrlWrite, h]

theorem Dev.farCtrlWrite_baseHigh {k : Nat} (h : d.running = false) (hk : k < 16) :
    d.farCtrlWrite g (0x80 + 16 * k) w = d.wrAt R.FAR.WIN_BASE g k (putField (d.rdAt R.FAR.WIN_BASE g k) 0 16 (w / 2 ^ 16)) := by
  have hrow : (0x80 + 16 * k) % 16 = 0 := by omega
  have hctrl : 0x80 + 16 * k ≠ 0x40 := by omega
  have hoff : 0x80 + 16 * k < 0x180 := by omega
  simp [Dev.farCtrlWrite, h, hrow, hctrl, hoff]

theorem Dev.farCtrlWrite_baseLow {k : Nat} (h : d.running = false) (hk : k < 16) :
    d.farCtrlWrite g (0x84 + 16 * k) w = d.wrAt R.FAR.WIN_BASE g k (putField (d.rdAt R.FAR.WIN_BASE g k) 16 16 w) := by
  have hwin : (0x84 + 16 * k - 0x80) / 16 = k := by omega
  have hrow : (0x84 + 16 * k) % 16 = 4 := by omega
  have hctrl : 0x84 + 16 * k ≠ 0x40 := by omega
  have hoff : 0x80 ≤ 0x84 + 16 * k ∧ 0x84 + 16 * k < 0x180 := by omega
  simp [Dev.farCtrlWrite, h, hwin, hrow, hctrl, hoff]

theorem Dev.farCtrlWrite_config {k : Nat} (h : d.running = false) (hk : k < 16) (hsize : 16 ≤ fieldAt w 8 6 ∧ fieldAt w 8 6 ≤ 40) :
    d.farCtrlWrite g (0x88 + 16 * k) w =
      ((d.wrAt R.FAR.WIN_CFG_VALID g k w).wrAt R.FAR.WIN_CFG_WRITABLE g k (w / 2)).wrAt R.FAR.WIN_CFG_SIZE_LOG2 g k (w / 2 ^ 8) := by
  have hwin : (0x88 + 16 * k - 0x80) / 16 = k := by omega
  have hrow : (0x88 + 16 * k) % 16 = 8 := by omega
  have hctrl : 0x88 + 16 * k ≠ 0x40 := by omega
  have hoff : 0x80 ≤ 0x88 + 16 * k ∧ 0x88 + 16 * k < 0x180 := by omega
  simp [Dev.farCtrlWrite, h, hwin, hrow, hctrl, hoff, hsize]

end FarPort

/-- Settles O9: each write acts on the device at the write, whose far and bank pages read as before it. -/
theorem bankAndFarControl : Obligations.BankAndFarControl := by
  classical
  unfold Obligations.BankAndFarControl
  refine ⟨?refused, ?waits, ?taken, ?farRefused, ?farCtrl, ?farWindow⟩
  case refused =>
    intro s g w t hg hpage hbad
    have hrefused : (s.dev.atWrite t).bankCtrlRefused g w := (Dev.bankCtrlRefused_atWrite ..).mpr hbad
    exact State.onUnit_row (decide_eq_true hg) hpage ((Dev.bankCtrlWrite_eq ..).trans (if_pos hrefused))
  case waits =>
    intro s g w t hg hpage hown haspect howner hrun hsame hjoin
    have htaken : ¬ (s.dev.atWrite t).bankCtrlRefused g w :=
      mt (Dev.bankCtrlRefused_atWrite ..).mp (Dev.bankCtrl_taken hown haspect howner fun _ => ⟨hsame, hjoin⟩)
    have hrun' : ((s.dev.atWrite t).setBankShape g (fieldAt w 0 3) (bitAt w 3)).running = true :=
      Dev.running_setBankShape.trans ((Dev.running_atWrite ..).trans hrun)
    have howner' : ((s.dev.atWrite t).setBankShape g (fieldAt w 0 3) (bitAt w 3)).bankOwner g = s.dev.bankOwner g := by
      rw [Dev.bankOwner_setBankShape, Dev.bankOwner, Dev.bankOwner, Dev.bankPage_atWrite]
      exact (Dev.rdAt_atWrite_bank ..).2.2
    refine ⟨_, State.onUnit_row (g := fun d => ((d.atWrite t).setBankShape g (fieldAt w 0 3) (bitAt w 3)).ownerAsked g (fieldAt w 4 2)) (decide_eq_true hg) hpage
      ((Dev.bankCtrlWrite_eq ..).trans ((if_neg htaken).trans (Dev.requestOwner_running hrun'))), rfl, rfl, ?_, ?_, ?_, ?_⟩
    · simp only [State.after, Dev.ownerAsked, Dev.wrAt_arr, Dev.setBankShape_arr, Dev.atWrite_arr]
    · exact Dev.ownerAsked_owner.trans (Nat.mod_mod _ _)
    · exact Dev.bankOwner_ownerAsked.trans howner'
    · exact Dev.ownerAsked_pending.trans (by rw [howner'])
  case taken =>
    intro s g w t hg hpage hown haspect howner hrun
    have htaken : ¬ (s.dev.atWrite t).bankCtrlRefused g w :=
      mt (Dev.bankCtrlRefused_atWrite ..).mp (Dev.bankCtrl_taken hown haspect howner fun h => absurd h (ne_true_of_eq_false hrun))
    exact State.onUnit_row (decide_eq_true hg) hpage ((Dev.bankCtrlWrite_eq ..).trans ((if_neg htaken).trans
      (Dev.requestOwner_stopped (Dev.running_setBankShape.trans ((Dev.running_atWrite ..).trans hrun)))))
  case farRefused =>
    intro s g off w t hg hpage hbad
    rw [← Dev.running_atWrite _ t] at hbad
    exact State.onUnit_row (decide_eq_true hg) hpage (Dev.farCtrlWrite_refused hbad)
  case farCtrl =>
    intro s g w t hg hpage hrun
    exact State.onUnit_row (decide_eq_true hg) hpage (Dev.farCtrlWrite_ctrl ((Dev.running_atWrite ..).trans hrun))
  case farWindow =>
    intro s g k w t hg hk hpage hrun
    have hrun' := (Dev.running_atWrite s.dev t).trans hrun
    have hbase : (s.dev.atWrite t).rdAt R.FAR.WIN_BASE g k = s.dev.rdAt R.FAR.WIN_BASE g k := Dev.rdAt_atWrite_high _ t g k (by decide)
    refine ⟨?_, ?_, fun hsize => ?_⟩
    · exact State.onUnit_row (decide_eq_true hg) hpage ((Dev.farCtrlWrite_baseHigh hrun' hk).trans (by rw [hbase]))
    · exact State.onUnit_row (decide_eq_true hg) hpage ((Dev.farCtrlWrite_baseLow hrun' hk).trans (by rw [hbase]))
    · exact State.onUnit_row (decide_eq_true hg) hpage (Dev.farCtrlWrite_config hrun' hk hsize)

end Sys2Proof.Machine

/-! PROOFS. The array cycle of a bank (spec/05 R126 to R128, R132). -/

namespace Sys2Proof.Machine

/-! A number kept as bytes. -/

theorem leBytes_length (n k : Nat) : (leBytes n k).length = k := by
  induction k generalizing n with
  | zero => rfl
  | succ k ih => exact congrArg (· + 1) (ih _)

theorem leNat_leBytes (n k : Nat) : leNat (leBytes n k) = n % 256 ^ k := by
  induction k generalizing n with
  | zero => simp [leBytes, leNat, Nat.mod_one]
  | succ k ih =>
    rw [leBytes, leNat, ih, BitVec.toNat_ofNat, Nat.pow_succ' (m := 256), Nat.mod_mul]

/-- A counter that holds at its largest value reads what was counted. -/
theorem Dev.rdAt_bumpAt_same (d : Dev) (r : Reg) (n k : Nat) : (d.bumpAt r n k).rdAt r n k = satAdd (d.rdAt r n k) 1 r.width := by
  have hlt : satAdd (d.rdAt r n k) 1 r.width < 2 ^ r.width := lt_of_le_of_lt (min_le_right _ _) (Nat.sub_lt (Nat.two_pow_pos _) Nat.one_pos)
  rw [Dev.bumpAt, Dev.rdAt_wrAt_same, Nat.mod_eq_of_lt hlt]

/-! An access that waits on no array cycle: none, or one that is made, or one of the other kind. -/

section Access

variable {d : Dev} {key : Nat} {a : Acc}

theorem Dev.accRead_rests (h : ∀ a ∈ SMap.look d.arr.acc key, a.done = true ∨ a.write = 1) : d.accRead key = d := by
  unfold Dev.accRead
  split
  · rfl
  · next a ha => exact if_pos (h a ha)

theorem Dev.accRead_reads (ha : SMap.look d.arr.acc key = some a) (hread : a.write = 0) (hdone : a.done = false) :
    d.accRead key = { d with arr := { d.arr with acc := SMap.ins d.arr.acc key { a with done := true, word := some (d.bankRead (key / 2) a.addr) } } } := by
  unfold Dev.accRead
  rw [ha]
  exact if_neg (by simp [hread, hdone])

theorem Dev.accWrite_rests (h : ∀ a ∈ SMap.look d.arr.acc key, a.done = true ∨ a.write = 0) : d.accWrite key = d := by
  unfold Dev.accWrite
  split
  · rfl
  · next a ha => exact if_pos (h a ha)

/-- A write lands in a bank of its own, and that of the lower G2 in a joined pair. -/
theorem Dev.accWrite_lands (ha : SMap.look d.arr.acc key = some a) (hwrite : a.write = 1) (hdone : a.done = false)
    (hown : d.joined (key / 2) = false ∨ key / 2 % 2 = 0) :
    d.accWrite key = { d with arr := { d.arr with acc := SMap.ins d.arr.acc key { a with done := true } } }.bankWrite (key / 2) a.addr a.wdata := by
  have hlower : ¬ (d.joined (key / 2) = true ∧ key / 2 % 2 = 1) := fun ⟨hj, hodd⟩ => hown.elim (fun h => by simp [h] at hj) fun h => by omega
  unfold Dev.accWrite
  rw [ha]
  dsimp only
  rw [if_neg (by simp [hwrite, hdone]), if_neg hlower]

/-- The write of the upper G2 of a joined pair to the word that the lower one writes in the same cycle is dropped (R132). -/
theorem Dev.accWrite_dropped {l : Nat} {b : Acc} (hkey : key / 2 = l + 1) (heven : l % 2 = 0) (hjoined : d.joined (l + 1) = true)
    (ha : SMap.look d.arr.acc (l * 2) = some a) (hwa : a.write = 1) (hb : SMap.look d.arr.acc key = some b) (hwb : b.write = 1) (hdb : b.done = false)
    (hseq : a.seq = b.seq) (hword : d.bankWord (l + 1) a.addr = d.bankWord (l + 1) b.addr) :
    d.accWrite key = Dev.bumpAt { d with arr := { d.arr with acc := SMap.ins d.arr.acc key { b with done := true }, coll := SMap.set d.arr.coll key (b.seq + 3) } }
      R.BANK.DROP_COUNT l 0 := by
  unfold Dev.accWrite
  rw [hb]
  dsimp only
  rw [if_neg (by simp [hwb, hdb]), hkey, if_pos ⟨hjoined, by omega⟩, Nat.add_sub_cancel, ha]
  exact if_pos ⟨hwa, hseq, hword⟩

end Access

/-- Accesses that have nothing to do. -/
theorem forAll_rests {f : Nat → Dev → Dev} {l : List Nat} {d : Dev} (h : ∀ k ∈ l, f k d = d) : forAll l f d = d := by
  induction l with
  | nil => rfl
  | cons k l ih => exact (congrArg (forAll l f) (h k List.mem_cons_self)).trans (ih fun j hj => h j (List.mem_cons_of_mem k hj))

/-! The two ports of a bank of its own, in the order of the array cycle. -/

/-- Of two ports only `p` has something to do, before the other's turn and after it. -/
theorem forAll_ports {f : Nat → Dev → Dev} {g p : Nat} {d : Dev} (hp : p < 2) (hbefore : f (g * 2 + (1 - p)) d = d)
    (hafter : f (g * 2 + (1 - p)) (f (g * 2 + p) d) = f (g * 2 + p) d) : forAll [g * 2, g * 2 + 1] f d = f (g * 2 + p) d := by
  interval_cases p
  · exact hafter
  · exact congrArg (f (g * 2 + 1)) hbefore

section Ports

variable {d : Dev} {g p : Nat} {a b : Acc}

theorem Dev.bankCycle_own (h : d.joined g = false) : d.bankCycle g = forAll [g * 2, g * 2 + 1] Dev.accWrite (forAll [g * 2, g * 2 + 1] Dev.accRead d) := by
  unfold Dev.bankCycle
  simp [h]

/-- The device with the read of port `p` made. -/
def Dev.portRead (d : Dev) (g p : Nat) (a : Acc) : Dev :=
  { d with arr := { d.arr with acc := SMap.ins d.arr.acc (g * 2 + p) { a with done := true, word := some (d.bankRead g a.addr) } } }

/-- The device with the write of port `p` made. -/
def Dev.portWrite (d : Dev) (g p : Nat) (b : Acc) : Dev :=
  { d with arr := { d.arr with acc := SMap.ins d.arr.acc (g * 2 + p) { b with done := true } } }.bankWrite g b.addr b.wdata

theorem Dev.look_portRead : SMap.look (d.portRead g p a).arr.acc (g * 2 + p) = some { a with done := true, word := some (d.bankRead g a.addr) } := SMap.look_ins_same ..

theorem Dev.look_portRead_other (hp : p < 2) : SMap.look (d.portRead g p a).arr.acc (g * 2 + (1 - p)) = SMap.look d.arr.acc (g * 2 + (1 - p)) :=
  SMap.look_ins_ne _ _ (by omega)

theorem Dev.look_portWrite_other (hp : p < 2) : SMap.look (d.portWrite g p b).arr.acc (g * 2 + (1 - p)) = SMap.look d.arr.acc (g * 2 + (1 - p)) :=
  SMap.look_ins_ne _ _ (by omega)

/-- The reads of the cycle, where the other port does not read. -/
theorem Dev.reads_port (hp : p < 2) (ha : SMap.look d.arr.acc (g * 2 + p) = some a) (hread : a.write = 0) (hdone : a.done = false)
    (hother : ∀ b ∈ SMap.look d.arr.acc (g * 2 + (1 - p)), b.done = true ∨ b.write = 1) : forAll [g * 2, g * 2 + 1] Dev.accRead d = d.portRead g p a := by
  have hport : (g * 2 + p) / 2 = g := by omega
  have hreads : d.accRead (g * 2 + p) = d.portRead g p a := by rw [Dev.accRead_reads ha hread hdone, hport, Dev.portRead]
  refine (forAll_ports hp (Dev.accRead_rests hother) ?_).trans hreads
  rw [hreads]
  exact Dev.accRead_rests (by rwa [Dev.look_portRead_other hp])

/-- The writes of the cycle, where the other port does not write. -/
theorem Dev.writes_port (hown : d.joined g = false) (hp : p < 2) (hb : SMap.look d.arr.acc (g * 2 + p) = some b) (hwrite : b.write = 1) (hdone : b.done = false)
    (hother : ∀ a ∈ SMap.look d.arr.acc (g * 2 + (1 - p)), a.done = true ∨ a.write = 0) : forAll [g * 2, g * 2 + 1] Dev.accWrite d = d.portWrite g p b := by
  have hport : (g * 2 + p) / 2 = g := by omega
  have hwrites : d.accWrite (g * 2 + p) = d.portWrite g p b := by rw [Dev.accWrite_lands hb hwrite hdone (hport.symm ▸ .inl hown), hport, Dev.portWrite]
  refine (forAll_ports hp (Dev.accWrite_rests hother) ?_).trans hwrites
  rw [hwrites]
  exact Dev.accWrite_rests (by rwa [Dev.look_portWrite_other hp])

/-- Two ports that have nothing to do. -/
theorem Dev.ports_rest {f : Nat → Dev → Dev} (hp : p < 2) (hone : f (g * 2 + p) d = d) (hother : f (g * 2 + (1 - p)) d = d) : forAll [g * 2, g * 2 + 1] f d = d :=
  (forAll_ports hp hother (hone.symm ▸ hother)).trans hone

end Ports

/-! The joined pair (R129, R132). -/

section Pair

variable {d : Dev} {l : Nat}

theorem Dev.bankPage_even (heven : l % 2 = 0) : d.bankPage l = l := if_neg (by omega)

theorem Dev.bankPage_upper (heven : l % 2 = 0) (hjoin : d.rdAt R.BANK.BANK_CTRL_JOIN l 0 = 1) : d.bankPage (l + 1) = l := if_pos ⟨by omega, hjoin⟩

/-- Both G2s of a joined pair have the lower page, and with it the same words. -/
theorem Dev.pair_page {g : Nat} (heven : l % 2 = 0) (hjoin : d.rdAt R.BANK.BANK_CTRL_JOIN l 0 = 1) (hg : g = l ∨ g = l + 1) : d.bankPage g = l := by
  obtain rfl | rfl := hg
  · exact Dev.bankPage_even heven
  · exact Dev.bankPage_upper heven hjoin

theorem Dev.pair_joined {g : Nat} (heven : l % 2 = 0) (hjoin : d.rdAt R.BANK.BANK_CTRL_JOIN l 0 = 1) (hg : g = l ∨ g = l + 1) : d.joined g = true := by
  unfold Dev.joined
  rw [Dev.pair_page heven hjoin hg, hjoin]
  rfl

theorem Dev.bankWord_upper (heven : l % 2 = 0) (hjoin : d.rdAt R.BANK.BANK_CTRL_JOIN l 0 = 1) (addr : Nat) : d.bankWord (l + 1) addr = d.bankWord l addr := by
  unfold Dev.bankWord
  rw [Dev.pair_page heven hjoin (.inl rfl), Dev.pair_page heven hjoin (.inr rfl), Dev.pair_joined heven hjoin (.inl rfl), Dev.pair_joined heven hjoin (.inr rfl)]

theorem Dev.bankCycle_pair {g : Nat} (heven : l % 2 = 0) (hjoin : d.rdAt R.BANK.BANK_CTRL_JOIN l 0 = 1) (hg : g = l ∨ g = l + 1) :
    d.bankCycle g = forAll [l * 2, l * 2 + 1, l * 2 + 2, l * 2 + 3] Dev.accWrite (forAll [l * 2, l * 2 + 1, l * 2 + 2, l * 2 + 3] Dev.accRead d) := by
  unfold Dev.bankCycle
  rw [if_pos (Dev.pair_joined heven hjoin hg), Dev.pair_page heven hjoin hg]

/-- What a device shows of the shape of its banks rests on its registers alone. -/
theorem Dev.bankPage_regs {d e : Dev} (h : d.regs = e.regs) (g : Nat) : d.bankPage g = e.bankPage g := Dev.bankPage_congr (Dev.rdAt_congr h ..)

theorem Dev.joined_regs {d e : Dev} (h : d.regs = e.regs) (g : Nat) : d.joined g = e.joined g := by
  unfold Dev.joined
  rw [Dev.bankPage_regs h, Dev.rdAt_congr h]

theorem Dev.bankWord_regs {d e : Dev} (h : d.regs = e.regs) (g addr : Nat) : d.bankWord g addr = e.bankWord g addr := by
  unfold Dev.bankWord
  rw [Dev.bankPage_regs h, Dev.joined_regs h, Dev.rdAt_congr h]

theorem Dev.bankByte_regs {d e : Dev} (h : d.regs = e.regs) (g addr : Nat) : d.bankByte g addr = e.bankByte g addr := by
  unfold Dev.bankByte
  rw [Dev.bankPage_regs h, Dev.bankWord_regs h, Dev.rdAt_congr h]

/-- The two writes of a joined pair to one word: the lower one lands, the upper one is dropped. -/
theorem Dev.writes_pair {a b : Acc} (heven : l % 2 = 0) (hjoin : d.rdAt R.BANK.BANK_CTRL_JOIN l 0 = 1)
    (ha : SMap.look d.arr.acc (l * 2) = some a) (hwa : a.write = 1) (hda : a.done = false)
    (hb : SMap.look d.arr.acc (l * 2 + 3) = some b) (hwb : b.write = 1) (hdb : b.done = false)
    (h1 : SMap.look d.arr.acc (l * 2 + 1) = none) (h2 : SMap.look d.arr.acc (l * 2 + 2) = none)
    (hseq : a.seq = b.seq) (hword : d.bankWord l a.addr = d.bankWord l b.addr) :
    let e := forAll [l * 2, l * 2 + 1, l * 2 + 2, l * 2 + 3] Dev.accWrite d
    e.arr.banks = (d.bankWrite l a.addr a.wdata).arr.banks ∧
      e.rdAt R.BANK.DROP_COUNT l 0 = min (d.rdAt R.BANK.DROP_COUNT l 0 + 1) (2 ^ 32 - 1) ∧ SMap.get e.arr.coll (l * 2 + 3) = b.seq + 3 := by
  have hl : l * 2 / 2 = l := by omega
  let d1 := d.portWrite l 0 a
  have hlands : d.accWrite (l * 2) = d1 := by
    rw [Dev.accWrite_lands ha hwa hda (.inr (by omega)), hl]
    rfl
  have hlook (k : Nat) (hk : k ≠ l * 2) : SMap.look d1.arr.acc k = SMap.look d.arr.acc k := SMap.look_ins_ne _ _ hk
  have hrest (k : Nat) (hk : k ≠ l * 2) (hnone : SMap.look d.arr.acc k = none) : d1.accWrite k = d1 := Dev.accWrite_rests (by simp [hlook k hk, hnone])
  have hregs : d1.regs = d.regs := rfl
  have hsame : d1.bankWord (l + 1) a.addr = d1.bankWord (l + 1) b.addr := by
    rw [Dev.bankWord_regs hregs, Dev.bankWord_regs hregs, Dev.bankWord_upper heven hjoin, Dev.bankWord_upper heven hjoin, hword]
  have hdropped := Dev.accWrite_dropped (d := d1) (key := l * 2 + 3) (by omega) heven ((Dev.joined_regs hregs _).trans (Dev.pair_joined heven hjoin (.inr rfl)))
    (SMap.look_ins_same ..) hwa ((hlook _ (by omega)).trans hb) hwb hdb hseq hsame
  have hcycle : forAll [l * 2, l * 2 + 1, l * 2 + 2, l * 2 + 3] Dev.accWrite d = d1.accWrite (l * 2 + 3) :=
    calc forAll [l * 2, l * 2 + 1, l * 2 + 2, l * 2 + 3] Dev.accWrite d
        = (((d.accWrite (l * 2)).accWrite (l * 2 + 1)).accWrite (l * 2 + 2)).accWrite (l * 2 + 3) := rfl
      _ = d1.accWrite (l * 2 + 3) := by rw [hlands, hrest _ (by omega) h1, hrest _ (by omega) h2]
  dsimp only
  rw [hcycle, hdropped]
  refine ⟨by rw [Dev.bumpAt_arr]; rfl, ?_, ?_⟩
  · exact Dev.rdAt_bumpAt_same ..
  · rw [Dev.bumpAt_arr]
    exact SMap.get_set_same d1.arr.coll (l * 2 + 3) (b.seq + 3)

end Pair

/-- A word written reads back, cut to the width of the aspect (R127). -/
theorem Dev.bankRead_bankWrite (d : Dev) (g addr v : Nat) :
    (d.bankWrite g addr v).bankRead g addr = v % 2 ^ aspectBits (d.rdAt R.BANK.BANK_CTRL_ASPECT (d.bankPage g) 0) := by
  have hregs : (d.bankWrite g addr v).regs = d.regs := rfl
  unfold Dev.bankRead
  rw [Dev.bankByte_regs hregs, Dev.bankPage_regs hregs, Dev.rdAt_congr hregs]
  unfold Dev.bankWrite
  dsimp only
  generalize d.rdAt R.BANK.BANK_CTRL_ASPECT (d.bankPage g) 0 = code
  have hbytes := SMap.bytes_store d.arr.banks (d.bankByte g addr) (leBytes v (aspectBits code / 8))
  rw [leBytes_length] at hbytes
  have hbits : 256 ^ (aspectBits code / 8) = 2 ^ aspectBits code := by
    rw [aspectBits, Nat.mul_div_cancel_left _ (by decide), Nat.pow_mul]
  rw [hbytes, leNat_leBytes, hbits]

/-- Settles O7: the accesses of the two ports, or of the two G2s of a pair, in the order of the cycle. -/
theorem bankArrayCycle : Obligations.BankArrayCycle := by
  unfold Obligations.BankArrayCycle
  refine ⟨?readAndWrite, ?readOnly, ?writeOnly, ?collision, fun d g addr v _ => Dev.bankRead_bankWrite d g addr v, ?noUnit⟩
  case readAndWrite =>
    intro s g p a b hg hp hown ha hra hda hb hwb hdb
    have hother : SMap.look (s.dev.portRead g p a).arr.acc (g * 2 + (1 - p)) = some b := (Dev.look_portRead_other hp).trans hb
    have hport : g * 2 + (1 - (1 - p)) = g * 2 + p := by omega
    refine State.onUnit_after (decide_eq_true hg) ?_
    rw [Dev.bankCycle_own hown, Dev.reads_port hp ha hra hda (by simp [hb, hwb])]
    refine Dev.writes_port (p := 1 - p) ((Dev.joined_regs rfl g).trans hown) (by omega) hother hwb hdb ?_
    rw [hport, Dev.look_portRead]
    simp
  case readOnly =>
    intro s g p a hg hp hown ha hra hda hnone
    refine State.onUnit_after (decide_eq_true hg) ?_
    rw [Dev.bankCycle_own hown, Dev.reads_port hp ha hra hda (by simp [hnone])]
    refine Dev.ports_rest hp (Dev.accWrite_rests ?_) (Dev.accWrite_rests ?_)
    · rw [Dev.look_portRead]
      simp
    · rw [Dev.look_portRead_other hp, hnone]
      simp
  case writeOnly =>
    intro s g p b hg hp hown hb hwb hdb hnone
    refine State.onUnit_after (decide_eq_true hg) ?_
    rw [Dev.bankCycle_own hown, Dev.ports_rest hp (Dev.accRead_rests (by simp [hb, hwb])) (Dev.accRead_rests (by simp [hnone]))]
    exact Dev.writes_port hown hp hb hwb hdb (by simp [hnone])
  case collision =>
    intro s l g a b hl heven hg hjoin ha hwa hda hb hwb hdb h1 h2 hseq hword
    have hreads : forAll [l * 2, l * 2 + 1, l * 2 + 2, l * 2 + 3] Dev.accRead s.dev = s.dev := by
      refine forAll_rests fun k hk => Dev.accRead_rests ?_
      simp only [List.mem_cons, List.not_mem_nil, or_false] at hk
      obtain rfl | rfl | rfl | rfl := hk <;> simp [ha, h1, h2, hb, hwa, hwb]
    have hcycle : s.dev.bankCycle g = forAll [l * 2, l * 2 + 1, l * 2 + 2, l * 2 + 3] Dev.accWrite s.dev := by rw [Dev.bankCycle_pair heven hjoin hg, hreads]
    exact ⟨_, State.onUnit_after (decide_eq_true (by omega)) hcycle, Dev.writes_pair heven hjoin ha hwa hda hb hwb hdb h1 h2 hseq hword⟩
  case noUnit => exact fun s g hg => State.onUnit_fault _ _ (decide_eq_false (Nat.not_lt.mpr hg))

end Sys2Proof.Machine

/-! PROOFS. The response to a far request (spec/05 R143, R147, R150, R153). -/

namespace Sys2Proof.Machine

section FarResponse

variable {d d1 : Dev} {g id : Nat} {v v1 : MemView} {q : FarReq} {r : Dma}

/-- What becomes of a request whose access has ended in a device `d1`. -/
def Dev.farEnded (d1 : Dev) (g id : Nat) (q : FarReq) : Dma → Dev
  | .done bs => d1.holdResponse (g * 2 ^ 32 + id) g q (if q.write = 1 then ⟨2, 0⟩ else ⟨1, leNat bs⟩)
  | .poison pa => ((d1.dropRequest (g * 2 ^ 32 + id)).farStop (d1.uncorrectable 0 pa)).rewait
  | .wait => d1
  | .fence f => (((d1.fenceStatus f).dropRequest (g * 2 ^ 32 + id)).farTranslation g q).rewait
  | .xlate .. | .hostError => ((d1.dropRequest (g * 2 ^ 32 + id)).farTranslation g q).rewait

/-- A request that nothing holds back makes its access. -/
theorem Dev.farResponse_ends (hq : SMap.look d.arr.farReq (g * 2 ^ 32 + id) = some q) (hopen : q.answered = false) (hfirst : d.farBehind g id q = false)
    (haccess : (if q.write = 1 then d.dmaWrite (d.rdAt R.FAR.FAR_CTRL_CTX g 0) (d.farDva g q) (leBytes q.data 64) v
      else d.dmaRead 0 (d.rdAt R.FAR.FAR_CTRL_CTX g 0) (d.farDva g q) 64 v) = (r, v1, d1)) :
    d.farResponse g id v = d1.farEnded g id q r := by
  unfold Dev.farResponse
  dsimp only
  rw [hq]
  dsimp only
  rw [if_neg (by simp [hopen, hfirst]), haccess]
  cases r <;> rfl

theorem Dev.farResponse_none (hq : SMap.look d.arr.farReq (g * 2 ^ 32 + id) = none) : d.farResponse g id v = d := by
  unfold Dev.farResponse
  dsimp only
  rw [hq]

theorem Dev.farResponse_held (hq : SMap.look d.arr.farReq (g * 2 ^ 32 + id) = some q) (h : q.answered = true ∨ d.farBehind g id q = true) :
    d.farResponse g id v = d := by
  unfold Dev.farResponse
  dsimp only
  rw [hq]
  exact if_pos (by simpa using h)

end FarResponse

/-! The wait conditions are counted anew in the sequencer alone. -/

@[simp] theorem Dev.rewait_regs (d : Dev) : d.rewait.regs = d.regs := by
  unfold Dev.rewait
  split_ifs <;> rfl

@[simp] theorem Dev.rewait_arr (d : Dev) : d.rewait.arr = d.arr := by
  unfold Dev.rewait
  split_ifs <;> rfl

/-! A response that is held, and one of an abandoned attempt (R143, R153). -/

section Hold

variable {d : Dev} {key g : Nat} {q : FarReq} {e : FarEntry}

theorem Dev.holdResponse_discarded (h : q.discard = true) : d.holdResponse key g q e = { d with arr := { d.arr with farReq := SMap.del d.arr.farReq key } } := if_pos h

theorem Dev.holdResponse_arr (h : q.discard = false) : (d.holdResponse key g q e).arr =
    { d.arr with farReq := SMap.ins d.arr.farReq key { q with answered := true }, farPend := SMap.set d.arr.farPend (g * 16 + q.entry) e } := by
  unfold Dev.holdResponse
  rw [if_neg (by simp [h]), Dev.rewait_arr]

theorem Dev.holdResponse_regs (h : q.discard = false) : (d.holdResponse key g q e).regs = d.regs := by
  unfold Dev.holdResponse
  rw [if_neg (by simp [h]), Dev.rewait_regs]

end Hold

/-- A fault of a far request by where the array stands: at rest, frozen at a belay, in a step. -/
theorem Dev.farStop_eq (d : Dev) (r : FRec) :
    d.farStop r = if d.running = false then d.report r true else if d.frozen = true then d.faultStop [r] else d.addFaults [r] := by
  unfold Dev.farStop
  cases d.running <;> rfl

/-- Settles O8: the access of the request decides what becomes of it. -/
theorem farResponseIsHeld : Obligations.FarResponseIsHeld := by
  unfold Obligations.FarResponseIsHeld
  refine ⟨?ends, ?hold, ?translation, ?rests, ?noUnit⟩
  case ends =>
    intro s g id v q hg hq hopen hfirst
    generalize haccess : (if q.write = 1 then s.dev.dmaWrite (s.dev.rdAt R.FAR.FAR_CTRL_CTX g 0) (s.dev.farDva g q) (leBytes q.data 64) v
      else s.dev.dmaRead 0 (s.dev.rdAt R.FAR.FAR_CTRL_CTX g 0) (s.dev.farDva g q) 64 v) = x
    obtain ⟨r, v1, d1⟩ := x
    have hstep : exec (.farResponse g id v) s = .next (s.after fun _ => (d1.farEnded g id q r).wakeDdr 0x14C true) :=
      State.onUnit_after (decide_eq_true hg) (congrArg (Dev.wakeDdr 0x14C true) (Dev.farResponse_ends hq hopen hfirst haccess))
    cases r <;> exact hstep
  case hold =>
    intro d g id q e
    refine ⟨Dev.holdResponse_discarded, fun h => ⟨?_, ?_, Dev.holdResponse_regs h, ?_⟩⟩
    · rw [Dev.holdResponse_arr h, SMap.get_set_same]
    · rw [Dev.holdResponse_arr h, SMap.look_ins_same]
    · rw [Dev.holdResponse_arr h]
  case translation =>
    rintro d g q d1 r rfl rfl
    exact Dev.farStop_eq ..
  case rests =>
    intro s g id v hg h
    refine State.onUnit_after (decide_eq_true hg) (congrArg (Dev.wakeDdr 0x14C true) ?_)
    obtain hnone | ⟨q, hq, hheld⟩ := h
    · exact Dev.farResponse_none hnone
    · exact Dev.farResponse_held hq hheld
  case noUnit => exact fun s g id v hg => State.onUnit_fault _ _ (decide_eq_false (Nat.not_lt.mpr hg))

end Sys2Proof.Machine

/-! PROOFS. The slate of a reel, its frames and the commands of LOAD_CTRL (spec/07 R187 to R207). -/

namespace Sys2Proof.Machine

/-! Of the passing of time the loader sees nothing. -/

@[simp] theorem Dev.takesReels_toTime (d : Dev) (t : Nat) : (d.toTime t).takesReels = d.takesReels := by simp only [Dev.takesReels, Dev.toTime_mg]

@[simp] theorem Dev.loadState_toTime (d : Dev) (t : Nat) : (d.toTime t).loadState = d.loadState := Dev.rd_toTime ..

@[simp] theorem Dev.running_toTime (d : Dev) (t : Nat) : (d.toTime t).running = d.running := by simp only [Dev.running, Dev.runState, Dev.rd_toTime]

theorem Dev.loadState_atWrite (d : Dev) (t : Nat) : (d.atWrite t).loadState = d.loadState := Dev.rd_atWrite d t (by decide)

/-! What a slate comes to (R187, R195, R196, R203, R204). -/

section Slate

variable {d : Dev} {bs : Bytes} {v : MemView} {t : Nat}

theorem Dev.slateUnit_fault {code : Nat} (h : d.slateFault bs = some code) : d.slateUnit bs v = (.refused code, d.loadFault code 0 0) := by
  simp only [Dev.slateUnit, h]

theorem Dev.slateUnit_erasing (h : d.slateFault bs = none) (he : d.dbg.erasing = true) : d.slateUnit bs v = (.wait, d) := by
  simp only [Dev.slateUnit, h, he, if_true]

theorem Dev.slateUnit_partial (h : d.slateFault bs = none) (he : d.dbg.erasing = false) (hp : slatePartial bs = true) : d.slateUnit bs v =
    if leAt bs 0x200 1 = 1 ∧ d.running ∧ d.rd R.LOAD.FENCE_TAKE ≤ d.rd R.TAKE.TAKE_NUMBER then (.refused 0, d.wr R.LOAD.LOAD_STATUS_FENCE_PASSED 1)
    else (.taken, d.acceptPartial bs) := by
  simp only [Dev.slateUnit, h, he, hp, Bool.false_eq_true, if_false, if_true]

theorem Dev.slateUnit_running (h : d.slateFault bs = none) (he : d.dbg.erasing = false) (hp : slatePartial bs = false) (hr : d.running = true) :
    d.slateUnit bs v = (.running, d.wr R.LOAD.LOAD_STATUS_RUN_REFUSED 1) := by
  simp only [Dev.slateUnit, h, he, hp, hr, Bool.false_eq_true, if_false, if_true]

theorem Dev.slateUnit_stopped (h : d.slateFault bs = none) (he : d.dbg.erasing = false) (hp : slatePartial bs = false) (hr : d.running = false) :
    d.slateUnit bs v = (.taken, if d.loadState = 1 then d.loadIncomplete.acceptFull bs v else d.acceptFull bs v) := by
  simp only [Dev.slateUnit, h, he, hp, hr, Bool.false_eq_true, if_false, apply_ite (Dev.acceptFull bs v)]

/-! The bytes of a slate arrive. -/

theorem Dev.slateArrives_down (h : d.takesReels = false) : d.slateArrives bs v t = d.toTime t := by
  simp [Dev.slateArrives, h]

theorem Dev.slateArrives_split (h : d.takesReels = true) (hlen : bs.length < 4096) : d.slateArrives bs v t = (d.toTime t).wr R.LOAD.LOAD_STATUS_UNIT_SPLIT 1 := by
  simp [Dev.slateArrives, h, hlen, Dev.splitUnit]

/-- All 4,096 bytes are a unit, which the loader judges. -/
theorem Dev.slateArrives_judged {r : UnitResult} {e : Dev} (h : d.takesReels = true) (hlen : bs.length = 4096) (hu : (d.toTime t).slateUnit bs v = (r, e)) (hr : r ≠ .wait) :
    d.slateArrives bs v t = e := by
  simp only [Dev.slateArrives, Dev.takesReels_toTime, h, List.take_of_length_le hlen.le, hu, hlen, Nat.lt_irrefl, Bool.not_true, Bool.false_eq_true, if_false]

/-- A unit that must wait is presented again. -/
theorem Dev.slateArrives_waits {e : Dev} (h : d.takesReels = true) (hlen : bs.length = 4096) (hu : (d.toTime t).slateUnit bs v = (.wait, e)) :
    d.slateArrives bs v t = e.emit .wait := by
  simp only [Dev.slateArrives, Dev.takesReels_toTime, h, List.take_of_length_le hlen.le, hu, hlen, Nat.lt_irrefl, Bool.not_true, Bool.false_eq_true, if_false]

end Slate

/-- Settles O13: the checks of the slate, the erasing, its kind and the run state decide what becomes of it. -/
theorem slateIsJudged : Obligations.SlateIsJudged := by
  unfold Obligations.SlateIsJudged
  refine ⟨?full, ?running, ?partialSlate, ?fault, ?erasing, ?split, ?down⟩
  case full =>
    intro s bs v t h hlen hfault herasing hpartial hrun
    have hunit := Dev.slateUnit_stopped (v := v) hfault (by simpa using herasing) hpartial (by simpa using hrun)
    rw [Dev.loadState_toTime] at hunit
    exact State.onDev_after (Dev.slateArrives_judged h hlen hunit nofun)
  case running =>
    intro s bs v t h hlen hfault herasing hpartial hrun
    exact State.onDev_after (Dev.slateArrives_judged h hlen (Dev.slateUnit_running hfault (by simpa using herasing) hpartial (by simpa using hrun)) nofun)
  case partialSlate =>
    intro s bs v t h hlen hfault herasing hpartial
    have hunit := Dev.slateUnit_partial (v := v) hfault (by simpa using herasing) hpartial
    simp only [Dev.running_toTime, Dev.rd_toTime] at hunit
    refine State.onDev_after ?_
    split_ifs at hunit ⊢
    · exact Dev.slateArrives_judged h hlen hunit nofun
    · exact Dev.slateArrives_judged h hlen hunit nofun
  case fault => exact fun s bs v t code h hlen hfault => State.onDev_after (Dev.slateArrives_judged h hlen (Dev.slateUnit_fault hfault) nofun)
  case erasing => exact fun s bs v t h hlen hfault herasing => State.onDev_after (Dev.slateArrives_waits h hlen (Dev.slateUnit_erasing hfault (by simpa using herasing)))
  case split => exact fun s bs v t h hlen => State.onDev_after (Dev.slateArrives_split h hlen)
  case down => exact fun s bs v t h => State.onDev_after (Dev.slateArrives_down h)

/-! The commands of LOAD_CTRL and PRODUCTION_ID (R198, R200, R206, R207). -/

/-- The regions that start their release at clock edge `n`: those of the list that do not release yet. -/
theorem SMap.get_startAll (l : List Nat) (n : Nat) (m : SMap Nat) (r : Nat) :
    SMap.get (l.foldl (fun m r => if SMap.get m r = 0 then SMap.set m r (n + 1) else m) m) r = if r ∈ l ∧ SMap.get m r = 0 then n + 1 else SMap.get m r := by
  induction l generalizing m with
  | nil => simp
  | cons a l ih =>
    rw [List.foldl_cons, ih]
    by_cases ha : r = a
    · subst ha
      by_cases h0 : SMap.get m r = 0 <;> simp [h0]
    · have hkept : SMap.get (if SMap.get m a = 0 then SMap.set m a (n + 1) else m) r = SMap.get m r := by
        split_ifs
        · exact SMap.get_set_ne _ _ ha
        · rfl
      simp [hkept, ha]

theorem Dev.loadEnd_atWrite (d : Dev) (t : Nat) : (d.atWrite t).loadEnd t = if d.loadState = 1 then (d.atWrite t).loadIncomplete.refreshTrained else d.atWrite t := by
  simp only [Dev.loadEnd, Dev.toTime_atWrite, Dev.loadState_atWrite]

theorem Dev.regionReleaseWrite_dropped {d : Dev} (h : d.loadState ≠ 2) (t : Nat) : (d.atWrite t).regionReleaseWrite t = d.atWrite t := by
  simp only [Dev.regionReleaseWrite, Dev.toTime_atWrite, Dev.loadState_atWrite, if_pos h]

theorem Dev.regionReleaseWrite_complete {d : Dev} (h : d.loadState = 2) (t : Nat) : (d.atWrite t).regionReleaseWrite t = { d.atWrite t with edge := { d.edge with
    regionE0 := d.edge.fenced.foldl (fun m r => if SMap.get m r = 0 then SMap.set m r ((d.atWrite t).releaseEdge + 1) else m) d.edge.regionE0 } } := by
  simp only [Dev.regionReleaseWrite, Dev.toTime_atWrite, Dev.loadState_atWrite, h, Dev.atWrite_edge, ne_eq, not_true_eq_false, if_false]

theorem Dev.productionIdWrite_atWrite (d : Dev) (hi w t : Nat) : (d.atWrite t).productionIdWrite hi w =
    if d.loadState = 1 then d.atWrite t else (d.atWrite t).wr R.LOAD.PRODUCTION_ID (putField (d.rd R.LOAD.PRODUCTION_ID) (32 * hi) 32 w) := by
  rw [Dev.productionIdWrite, Dev.loadState_atWrite, Dev.rd_atWrite _ _ (by decide)]

/-- Settles O16: each command, at its write, by the state of the load. -/
theorem loadControl : Obligations.LoadControl := by
  unfold Obligations.LoadControl
  refine ⟨?loadEnd, ?stateAck, ?complete, ?dropped, ?productionId⟩
  case loadEnd => exact fun s t h => State.onDev_row h (Dev.loadEnd_atWrite s.dev t)
  case stateAck => exact fun s t h => State.onDev_row h rfl
  case complete => exact fun s t h hload => ⟨_, State.onDev_row h (Dev.regionReleaseWrite_complete hload t), fun r => SMap.get_startAll ..⟩
  case dropped => exact fun s t h hload => State.onDev_row h (Dev.regionReleaseWrite_dropped hload t)
  case productionId => exact fun s hi w t h => State.onDev_row h (Dev.productionIdWrite_atWrite s.dev hi w t)

end Sys2Proof.Machine

/-! PROOFS. The frames of a reel: what the loader makes of one (spec/07 R188, R189, R197, R198). -/

namespace Sys2Proof.Machine

section Frame

variable {d d1 : Dev} {f bs : Bytes} {v : MemView} {t ty : Nat}

/-! The rules of a frame hold for any place in the load: they look at neither the frames that the load has taken nor the number of the next. -/

theorem Dev.frameAddrOk_taken (frames : Bytes) (n a len : Nat) :
    ({ d with ld := { d.ld with frames := frames, expected := n } } : Dev).frameAddrOk ty a len = d.frameAddrOk ty a len := rfl

theorem Dev.payloadBad_taken (frames : Bytes) (n a : Nat) (p : Bytes) :
    ({ d with ld := { d.ld with frames := frames, expected := n } } : Dev).payloadBad ty a p = d.payloadBad ty a p := rfl

/-! A frame is admitted: written, or staged. -/

theorem Dev.writeFrame_written {p : Bytes} (ha : d.frameAddrOk (frameType f) (frameAddr f) (frameLen f) = true) (hp : d.payloadBad (frameType f) (frameAddr f) p = none)
    (hd : d.installFrame (frameType f) (frameAddr f) p = d1) : d.writeFrame f p =
      (none, { d1 with ld := { d1.ld with targets := frameTarget f :: d1.ld.targets } }.wr R.LOAD.FRAMES_WRITTEN (d1.rd R.LOAD.FRAMES_WRITTEN + 1)) := by
  simp only [Dev.writeFrame, ha, hp, hd, Bool.not_true, Bool.false_eq_true, if_false]
  rfl

theorem Dev.admitFrame_plain {e : Dev} (hs : slateSecure d.ld.slate = false)
    (hw : ({ d with ld := { d.ld with frames := d.ld.frames ++ f, expected := d.ld.expected + 1 } } : Dev).writeFrame f (reelPayload f) = (none, e)) :
    d.admitFrame f = (none, e) := by
  simp only [Dev.admitFrame, hs, hw, Bool.false_eq_true, if_false]

theorem Dev.admitFrame_staged (hs : slateSecure d.ld.slate = true) (hk : d.ld.secureKey ≠ none) (hf : frameFlags f ≠ 1) :
    d.admitFrame f = (none, { d with ld := { d.ld with frames := d.ld.frames ++ f, expected := d.ld.expected + 1, staging := d.ld.staging ++ [f] } }) := by
  simp only [Dev.admitFrame, hs, hk, hf, if_true, if_false]

/-! A whole frame (R189). -/

/-- A frame that fits raises no fault. -/
theorem frameFault_of_fits (h : d.frameFits f = true) : frameFault f d = none := by
  simp only [Dev.frameFits, Bool.and_eq_true, beq_iff_eq, Bool.not_eq_true'] at h
  obtain ⟨⟨⟨hindex, hfields⟩, htarget⟩, hrepeated⟩ := h
  simp [frameFault, hindex, hfields, htarget, hrepeated]

theorem Dev.frameUnit_waits (hw : d.frameWaits f = (true, d1)) : d.frameUnit f = (.wait, d1) := by
  simp only [Dev.frameUnit, hw]

theorem Dev.frameUnit_badCrc (hw : d.frameWaits f = (false, d1)) (hc : frameCrcOk f = false) :
    d.frameUnit f = (.refused 0x43, (d1.wr R.LOAD.LOAD_STATUS_CRC_RETRY 1).loadFault 0x43 (frameIndex f) 0) := by
  simp only [Dev.frameUnit, hw, hc, Bool.not_false, if_true]

theorem Dev.frameUnit_faults {code x : Nat} (hw : d.frameWaits f = (false, d1)) (hc : frameCrcOk f = true) (hf : frameFault f d1 = some (code, x)) :
    d.frameUnit f = (.refused code, d1.failLoad code (frameIndex f) x) := by
  simp only [Dev.frameUnit, hw, hc, hf, Bool.not_true, Bool.false_eq_true, if_false]

/-- A frame that is admitted may be the last one. -/
theorem Dev.frameUnit_taken {e : Dev} (hw : d.frameWaits f = (false, d1)) (hc : frameCrcOk f = true) (hf : d1.frameFits f = true) (ha : d1.admitFrame f = (none, e)) :
    d.frameUnit f = (.taken, if e.rd R.LOAD.FRAMES_WRITTEN = e.rd R.LOAD.FRAME_COUNT then e.verifyLoad else e) := by
  simp only [Dev.frameUnit, hw, hc, frameFault_of_fits hf, ha, Bool.not_true, Bool.false_eq_true, if_false]

/-! The bytes of a frame arrive (R198). -/

theorem Dev.isFrame_of_open (hopen : d.loadState = 1) (hmagic : leAt bs 0 4 ≠ 0x4C524B4C) : (d.toTime t).isFrame bs = true := by
  simp [Dev.isFrame, hopen, hmagic]

theorem Dev.frameArrives_down (h : d.takesReels = false) : d.frameArrives ty bs v t = d.toTime t := by
  simp [Dev.frameArrives, h]

theorem Dev.frameArrives_otherType (h : frameType bs ≠ ty) : d.frameArrives ty bs v t = d.toTime t := by
  simp [Dev.frameArrives, h]

theorem Dev.frameArrives_split (h : d.takesReels = true) (hopen : d.loadState = 1) (hmagic : leAt bs 0 4 ≠ 0x4C524B4C) (hty : frameType bs = ty)
    (hlen : bs.length < 32 + frameLen bs) : d.frameArrives ty bs v t = (d.toTime t).wr R.LOAD.LOAD_STATUS_UNIT_SPLIT 1 := by
  simp [Dev.frameArrives, Dev.unitLen, Dev.isFrame_of_open hopen hmagic, Dev.splitUnit, h, hty, hlen]

/-- The header and the payload that it announces are a unit, which the loader judges. -/
theorem Dev.frameArrives_judged {r : UnitResult} {e : Dev} (h : d.takesReels = true) (hopen : d.loadState = 1) (hmagic : leAt bs 0 4 ≠ 0x4C524B4C) (hty : frameType bs = ty)
    (hlen : bs.length = 32 + frameLen bs) (hu : (d.toTime t).frameUnit bs = (r, e)) (hr : r ≠ .wait) : d.frameArrives ty bs v t = e := by
  simp [Dev.frameArrives, Dev.unitLen, Dev.takeUnit, Dev.isFrame_of_open hopen hmagic, h, hty, ← hlen, hu]

/-- A unit that must wait is presented again. -/
theorem Dev.frameArrives_waits {e : Dev} (h : d.takesReels = true) (hopen : d.loadState = 1) (hmagic : leAt bs 0 4 ≠ 0x4C524B4C) (hty : frameType bs = ty)
    (hlen : bs.length = 32 + frameLen bs) (hu : (d.toTime t).frameUnit bs = (.wait, e)) : d.frameArrives ty bs v t = e.emit .wait := by
  simp [Dev.frameArrives, Dev.unitLen, Dev.takeUnit, Dev.isFrame_of_open hopen hmagic, h, hty, ← hlen, hu]

end Frame

/-- Each of the eight rows has its TYPE. -/
theorem exec_frameCommand {ty : Nat} (h1 : 1 ≤ ty) (h8 : ty ≤ 8) (bs : Bytes) (v : MemView) (t : Nat) (s : State) :
    exec (frameCommand ty bs v t) s = s.onDev (Dev.frameArrives ty bs v t) := by
  interval_cases ty <;> rfl

/-- A frame command, by what its bytes do to the device. -/
theorem exec_frameCommand_after {s : State} {ty : Nat} {bs : Bytes} {v : MemView} {t : Nat} {g : Dev → Dev} (h1 : 1 ≤ ty) (h8 : ty ≤ 8)
    (h : s.dev.frameArrives ty bs v t = g s.dev) : exec (frameCommand ty bs v t) s = .next (s.after g) := by
  rw [exec_frameCommand h1 h8]
  exact State.onDev_after h

theorem Dev.wholeFrame_iff {d : Dev} {ty : Nat} {bs : Bytes} : d.wholeFrame ty bs = true ↔
    d.loadState = 1 ∧ leAt bs 0 4 ≠ 0x4C524B4C ∧ frameType bs = ty ∧ bs.length = 32 + frameLen bs ∧ frameCrcOk bs = true := by
  simp only [Dev.wholeFrame, Bool.and_eq_true, beq_iff_eq, decide_eq_true_eq, and_assoc]

/-- Settles O14: what the loader makes of a frame, and what then becomes of it as one of the eight rows. -/
theorem frameIsWritten : Obligations.FrameIsWritten := by
  unfold Obligations.FrameIsWritten
  refine ⟨fun s ty bs v t h1 h8 h => ⟨?written, ?staged, ?faults, ?badCrc, ?waits, ?split, ?otherType⟩, ?down⟩
  case written =>
    intro d1 hwhole hw hfits hs ha hp
    obtain ⟨hopen, hmagic, rfl, hlen, hcrc⟩ := Dev.wholeFrame_iff.mp hwhole
    have hwrite := Dev.writeFrame_written (p := bs.drop 32) ((Dev.frameAddrOk_taken (d1.ld.frames ++ bs) (d1.ld.expected + 1) _ _).trans ha)
      ((Dev.payloadBad_taken (d1.ld.frames ++ bs) (d1.ld.expected + 1) _ _).trans hp) rfl
    have hunit := Dev.frameUnit_taken hw hcrc hfits (Dev.admitFrame_plain hs hwrite)
    exact ⟨_, exec_frameCommand_after (g := fun _ => _) h1 h8 (Dev.frameArrives_judged h hopen hmagic rfl hlen hunit nofun), rfl⟩
  case staged =>
    intro d1 hwhole hw hfits hs hk hf
    obtain ⟨hopen, hmagic, hty, hlen, hcrc⟩ := Dev.wholeFrame_iff.mp hwhole
    have hunit := Dev.frameUnit_taken hw hcrc hfits (Dev.admitFrame_staged hs hk hf)
    exact exec_frameCommand_after h1 h8 (Dev.frameArrives_judged h hopen hmagic hty hlen hunit nofun)
  case faults =>
    intro d1 code x hwhole hw hfault
    obtain ⟨hopen, hmagic, hty, hlen, hcrc⟩ := Dev.wholeFrame_iff.mp hwhole
    exact exec_frameCommand_after h1 h8 (Dev.frameArrives_judged h hopen hmagic hty hlen (Dev.frameUnit_faults hw hcrc hfault) nofun)
  case badCrc =>
    intro d1 hopen hmagic hty hlen hw hcrc
    exact exec_frameCommand_after h1 h8 (Dev.frameArrives_judged h hopen hmagic hty hlen (Dev.frameUnit_badCrc hw hcrc) nofun)
  case waits =>
    intro d1 hopen hmagic hty hlen hw
    exact exec_frameCommand_after h1 h8 (Dev.frameArrives_waits h hopen hmagic hty hlen (Dev.frameUnit_waits hw))
  case split => exact fun hopen hmagic hty hlen => exec_frameCommand_after h1 h8 (Dev.frameArrives_split h hopen hmagic hty hlen)
  case otherType => exact fun hty => exec_frameCommand_after h1 h8 (Dev.frameArrives_otherType hty)
  case down => exact fun s ty bs v t h1 h8 h => exec_frameCommand_after h1 h8 (Dev.frameArrives_down h)

end Sys2Proof.Machine

/-! PROOFS. What the payload of a frame becomes in the array (spec/02 R40, spec/03 R73, spec/05 R141, spec/07 R190). -/

namespace Sys2Proof.Machine

/-- A part of what a loop changes, where each round changes that part by itself. -/
theorem forUpto_part {α γ : Type} (g : α → γ) {f : Nat → α → α} {f' : Nat → γ → γ} (h : ∀ i a, g (f i a) = f' i (g a)) (n : Nat) (a : α) :
    g (forUpto n f a) = forUpto n f' (g a) :=
  (List.foldl_hom g fun a i => (h i a).symm).symm

/-- Entries stored one after the other, from `base` upward. -/
theorem SMap.get_forUpto_set {α : Type} [Inhabited α] [DecidableEq α] (base n : Nat) (x : Nat → α) (m : SMap α) (q : Nat) :
    SMap.get (forUpto n (fun i m => SMap.set m (base + i) (x i)) m) q = if base ≤ q ∧ q < base + n then x (q - base) else SMap.get m q := by
  induction n with
  | zero => rw [if_neg (by omega)]; rfl
  | succ n ih =>
    have hlast : forUpto (n + 1) (fun i m => SMap.set m (base + i) (x i)) m = SMap.set (forUpto n (fun i m => SMap.set m (base + i) (x i)) m) (base + n) (x n) := by
      simp [forUpto, List.range_succ]
    rw [hlast, SMap.get_set, ih]
    by_cases hq : q = base + n
    · rw [if_pos hq, if_pos (by omega), hq, Nat.add_sub_cancel_left]
    · rw [if_neg hq]
      exact if_congr (by omega) rfl rfl

/-- Bytes stored from `a` upward. -/
theorem SMap.get_store (m : SMap Byte) (a q : Nat) (p : Bytes) : SMap.get (SMap.store m a p) q = if a ≤ q ∧ q < a + p.length then p.getD (q - a) 0 else SMap.get m q := by
  by_cases h : a ≤ q ∧ q < a + p.length
  · obtain ⟨i, rfl⟩ := Nat.exists_eq_add_of_le h.1
    have hi : i < p.length := by omega
    rw [if_pos h, SMap.get_store_inside m a i p hi, Nat.add_sub_cancel_left, List.getD_eq_getElem _ _ hi]
  · rw [if_neg h, SMap.get_store_outside _ _ _ _ (by omega)]

theorem Dev.writeRow_stateRows (d : Dev) (per row x : Nat) : (d.writeRow 1 per row x).arr.stateRows = SMap.set d.arr.stateRows row x := rfl

theorem Dev.installInstr_cols (d : Dev) (a : Nat) (p : Bytes) : (d.installInstr a p).arr.cols =
    forUpto (p.length / 12) (fun i m => SMap.set m (a % 2 ^ 18 * 2048 + a / 2 ^ 18 % 8 * 256 + i) (encodeEcc 96 (leAt p (12 * i) 12))) d.arr.cols :=
  forUpto_part (fun d : Dev => d.arr.cols) (fun _ _ => rfl) _ d

theorem Dev.installState_rows (d : Dev) (a : Nat) (p : Bytes) : (d.installState a p).arr.stateRows =
    forUpto 4096 (fun i m => SMap.set m (a * 4096 + i) (leAt p i 1)) d.arr.stateRows := by
  unfold Dev.installState
  rw [forUpto_part (fun d : Dev => d.arr.stateRows) (f' := fun i m => SMap.set m (a * 4096 + i) (leAt p i 1))]
  exact fun i e => e.writeRow_stateRows 64 (a * 4096 + i) (leAt p i 1)

theorem Dev.installBank_banks {a : Nat} (h : a / 2 ^ 28 ≠ 0) (d : Dev) (p : Bytes) :
    (d.installBank a p).arr.banks = SMap.store d.arr.banks (a / 2 ^ 16 % 2 ^ 12 * 0x10000 + a % 32 * 4096) p := by
  rw [Dev.installBank, if_neg h]

theorem Dev.installLane_selTab {a : Nat} (h : segTy a ≠ 0xB) (d : Dev) (p : Bytes) : (d.installLane a p).arr.selTab =
    forUpto ((p.length + 7) / 8) (fun i m => SMap.set m (a * 512 + i) (encodeEcc 64 (leAt p (8 * i) 8))) d.arr.selTab := by
  rw [Dev.installLane, if_neg h]

/-- Settles O15: each payload is stored entry by entry, upward from the place that the address gives. -/
theorem framePayloads : Obligations.FramePayloads := by
  unfold Obligations.FramePayloads
  refine ⟨?instr, ?stateRows, ?bank, ?lane, ?pitch⟩
  case instr =>
    intro d a p q
    rw [Dev.installInstr_cols]
    exact SMap.get_forUpto_set _ _ (fun i => encodeEcc 96 (leAt p (12 * i) 12)) _ q
  case stateRows =>
    intro d a p r
    rw [Dev.installState_rows, SMap.get_forUpto_set _ _ (leAt p · 1), Nat.add_mul, Nat.one_mul]
  case bank =>
    intro d a p x h
    rw [Dev.installBank_banks h]
    exact SMap.get_store ..
  case lane =>
    intro d a p q h
    rw [Dev.installLane_selTab h]
    exact SMap.get_forUpto_set _ _ (fun i => encodeEcc 64 (leAt p (8 * i) 8)) _ q
  case pitch => exact fun d a b p => SMap.get_set ..

end Sys2Proof.Machine

/-! PROOFS. The boot (spec/07 R181, spec/18 R478, spec/13 R349). -/

namespace Sys2Proof.Machine

/-- A module that the SPD check of DDR5 training refuses: 8 GiB are too few (R345). -/
def smallDimm : Dimm := { kind := 1, gib := 8, ranks := 1, width := 8, speed := 4, bgBits := 3, bankBits := 2, colBits := 6, rowBits := 17 }

/-- A device in reset with one such module, in channel 0, where the fault of a failed channel (EV 0x5F6) is routed to the safety monitor (SAFETY, bit 14 of its route entry). -/
def safetyRouted : Dev := { Dev.fresh { Part.shipped with dimms := [(0, smallDimm)] } with evRoute := [(0x5F6, 2 ^ 14)] }

/-- Training fails as the boot starts, and its record is written to the MRAM log as record 1 (R349, R478). -/
theorem safetyRouted_logSeq : (safetyRouted.bootStart []).rd R.SAFETY.LOG_SEQ = 1 := by decide +kernel

/-- Before the boot that log is empty. -/
theorem safetyRouted_seqs : SMap.get safetyRouted.mg.seqs 1024 = 0 := by decide +kernel

/-- Refutes O56: LOG_SEQ after the start of a boot is not always that of before.  A channel that fails the SPD check at once raises a fault (R349); where its route sends it to the
safety monitor, the record enters the MRAM log and LOG_SEQ goes on with it (R478, R505).  The statement asks for the number of before of every device, and not only of those whose
routes stand as a reset leaves them. -/
theorem not_bootAndReadiness : ¬ Obligations.BootAndReadiness := by
  unfold Obligations.BootAndReadiness
  rintro ⟨-, -, -, -, -, -, -, -, hstart, -⟩
  obtain ⟨-, hseq, -⟩ := hstart safetyRouted _ [] rfl
  rw [safetyRouted_logSeq, safetyRouted_seqs] at hseq
  exact absurd hseq (by decide)

end Sys2Proof.Machine

/-! PROOFS. The edge fabric between clock events, and a presentation (spec/08 R212, R227 to R230, spec/04 R113). -/

namespace Sys2Proof.Machine

/-! What goes on in the fabric between clock events. -/

/-- `e` is `d` after its combinational part, its product-term clocks and its FIFO counts have gone on. -/
def Dev.Flows (d e : Dev) : Prop :=
  ∃ m l p q n, e = { d with edge := { d.edge with mac := m, longLines := l, ptPrev := p, fifo := q }, freeCtr := n }

theorem Dev.Flows.refl (d : Dev) : d.Flows d := ⟨_, _, _, _, _, rfl⟩

theorem Dev.Flows.trans {d e f : Dev} (h1 : d.Flows e) (h2 : e.Flows f) : d.Flows f := by
  obtain ⟨_, _, _, _, _, rfl⟩ := h1
  obtain ⟨_, _, _, _, _, rfl⟩ := h2
  exact ⟨_, _, _, _, _, rfl⟩

/-- None of it touches the presentation. -/
theorem Dev.Flows.presents {d e : Dev} (h : d.Flows e) : e.edge.shown = d.edge.shown ∧ e.edge.nextTake = d.edge.nextTake ∧ e.edge.present = d.edge.present := by
  obtain ⟨_, _, _, _, _, rfl⟩ := h
  exact ⟨rfl, rfl, rfl⟩

theorem Dev.flows_foldl {α : Type} {f : Dev → α → Dev} (hf : ∀ (d : Dev) a, d.Flows (f d a)) (l : List α) (d : Dev) : d.Flows (l.foldl f d) :=
  List.foldlRecOn (motive := d.Flows) _ _ (.refl d) fun _ he _ _ => he.trans (hf _ _)

theorem Dev.flows_freeLoops (k : SMap Nat) (d : Dev) : d.Flows (d.freeLoops k).2 :=
  List.foldlRecOn (motive := fun x : SMap Nat × Dev => d.Flows x.2) _ _ (.refl d) fun _ hx _ _ => hx.trans ⟨_, _, _, _, _, rfl⟩

theorem Dev.flows_asyncResets (k : SMap Nat) (d : Dev) : d.Flows (d.asyncResets k) :=
  Dev.flows_foldl (fun d _ => iteInduction (motive := d.Flows) (fun _ => ⟨_, _, _, _, _, rfl⟩) fun _ => .refl d) _ _

theorem Dev.flows_settleEdge (d : Dev) (fuel : Nat) : d.Flows (d.settleEdge fuel).2 := by
  induction fuel generalizing d with
  | zero => exact d.flows_freeLoops _
  | succ fuel ih =>
    have hfree : d.Flows d.combValues.2 := d.flows_freeLoops _
    rw [Dev.settleEdge]
    exact iteInduction (motive := fun x : SMap Nat × Dev => d.Flows x.2) (fun _ => hfree) fun _ => (hfree.trans (Dev.flows_asyncResets _ _)).trans (ih _)

theorem Dev.flows_restEdge (d : Dev) : d.Flows d.restEdge := (d.flows_settleEdge _).trans ⟨_, _, _, _, _, rfl⟩

theorem Dev.flows_clockMacs (d : Dev) (k : SMap Nat) (sel : Nat → Bool) : d.Flows (d.clockMacs k sel) := ⟨_, _, _, _, _, rfl⟩

theorem Dev.flows_ptPrev (d : Dev) (p : SMap Nat) : d.Flows { d with edge := { d.edge with ptPrev := p } } := ⟨_, _, _, _, _, rfl⟩

theorem Dev.flows_ripple (d : Dev) (k : SMap Nat) (fuel : Nat) : d.Flows (d.ripple k fuel) := by
  induction fuel generalizing d k with
  | zero => exact .refl d
  | succ fuel ih =>
    have hrest : d.Flows d.rest.2 := d.flows_restEdge
    rw [Dev.ripple]
    exact iteInduction (motive := d.Flows) (fun _ => hrest.trans (Dev.flows_ptPrev _ _))
      fun _ => ((hrest.trans (Dev.flows_ptPrev _ _)).trans (Dev.flows_clockMacs _ _ _)).trans (ih _ _)

theorem Dev.flows_ageFifos (d : Dev) (rise : Nat) : d.Flows (d.ageFifos rise) :=
  Dev.flows_foldl (fun d _ => iteInduction (motive := d.Flows) (fun _ => ⟨_, _, _, _, _, rfl⟩) fun _ => .refl d) _ _

/-! A presentation instant by what has come of it. -/

/-- The lanes of the take stand, it leaves the buffer, and the next take is awaited. -/
theorem Dev.showTake_presents (d : Dev) (n : Nat) (lanes : SMap Nat) :
    (d.showTake n lanes).edge.shown = lanes ∧ (d.showTake n lanes).edge.nextTake = n + 1 ∧ (d.showTake n lanes).edge.present = d.edge.present.drop 1 := by
  unfold Dev.showTake
  simp only [Dev.count_edge, Dev.wr_edge]
  exact (((Dev.flows_ripple _ _ _).trans (Dev.flows_ageFifos _ _)).trans (Dev.flows_restEdge _)).presents

section Instant

/-- The presentation instant has come, and `rest` are those to come. -/
def Dev.passInstant (rest : List (Nat × Nat)) (d : Dev) : Dev := { d with edge := { d.edge with instants := rest } }

theorem Dev.passInstant_toTime (d : Dev) (t : Nat) (rest : List (Nat × Nat)) :
    (d.toTime t).passInstant rest = { d.toTime t with edge := { d.edge with instants := rest } } := by
  rw [Dev.passInstant, Dev.toTime_edge]

variable {d : Dev} {t edge m : Nat} {rest : List (Nat × Nat)}

theorem Dev.presentation_none (h : d.edge.instants = []) : d.presentation t = d := by
  simp only [Dev.presentation, Dev.toTime_edge, h]

variable (hi : d.edge.instants = (edge, m) :: rest)
include hi

theorem Dev.presentation_early (hlt : d.edge.edges < edge) : d.presentation t = d := by
  simp only [Dev.presentation, Dev.toTime_edge, hi, Nat.not_le.mpr hlt, if_false]

variable (he : edge ≤ d.edge.edges)
include he

theorem Dev.presentation_reached : d.presentation t =
    let d1 := (d.toTime t).passInstant rest
    if d.runState = 3 ∨ m < d.edge.nextTake then d1 else ((d.toTime t).readyTake.map fun x => d1.showTake x.1 x.2).getD d1.holdPresentation := by
  have hrun : ((d.toTime t).passInstant rest).runState = d.runState := Dev.rd_toTime ..
  have hready : ((d.toTime t).passInstant rest).readyTake = (d.toTime t).readyTake := rfl
  rw [Dev.presentation]
  simp only [Dev.toTime_edge, hi, he, if_true]
  rw [← Dev.passInstant_toTime, hrun, hready]
  refine if_congr Iff.rfl rfl ?_
  cases (d.toTime t).readyTake <;> rfl

end Instant

/-- The oldest completed take is ready two GCT0 periods after its boundary. -/
theorem Dev.readyTake_first {d : Dev} {n b : Nat} {lanes : SMap Nat} {ps : List (Nat × SMap Nat × Nat)} (h : d.edge.present = (n, lanes, b) :: ps)
    (hn : n = d.edge.nextTake) (hb : b + 2 * d.edge.gctPeriod ≤ d.now) : d.readyTake = some (n, lanes) := by
  simp only [Dev.readyTake, h, hn, hb, and_self, if_true]

/-- Settles O17: whether the instant has come, whether it passes by, and whether the oldest take is ready. -/
theorem presentationShowsTheTake : Obligations.PresentationShowsTheTake := by
  unfold Obligations.PresentationShowsTheTake
  simp only [← Dev.passInstant_toTime]
  refine ⟨?shows, ?holds, ?passes, ?early⟩
  case shows =>
    intro s t e m n b rest lanes ps hi he hr hm hp hn hb
    have hedge := Dev.toTime_edge s.dev t
    have hready : (s.dev.toTime t).readyTake = some (n, lanes) := Dev.readyTake_first (ps := ps) (by rw [hedge, hp]) (by rw [hedge, hn]) (by rwa [hedge])
    have hpres : s.dev.presentation t = ((s.dev.toTime t).passInstant rest).showTake n lanes := by
      rw [Dev.presentation_reached hi he, if_neg (by omega), hready]
      rfl
    obtain ⟨hshown, hnext, hleft⟩ := ((s.dev.toTime t).passInstant rest).showTake_presents n lanes
    refine ⟨_, State.onDev_after (g := fun d => ((d.toTime t).passInstant rest).showTake n lanes) hpres, rfl, hshown, hnext, hleft.trans ?_⟩
    rw [Dev.passInstant, hedge, hp]
    rfl
  case holds =>
    intro s t e m rest hi he hr hm hnone
    refine State.onDev_after ?_
    rw [Dev.presentation_reached hi he, if_neg (by omega), hnone]
    rfl
  case passes =>
    intro s t e m rest hi he h
    refine State.onDev_after ?_
    rw [Dev.presentation_reached hi he, if_pos h]
  case early =>
    rintro s t (hnone | ⟨e, m, rest, hi, hlt⟩)
    · exact State.onDev_unchanged (Dev.presentation_none hnone)
    · exact State.onDev_unchanged (Dev.presentation_early hi hlt)

end Sys2Proof.Machine

/-! PROOFS. The block memories of the edge fabric (spec/08 R219 to R221, R230). -/

namespace Sys2Proof.Machine

/-! A byte memory by its bits. -/

/-- Bit `q` of a byte memory. -/
def SMap.memBit (m : SMap Byte) (q : Nat) : Nat := bitAt (SMap.get m (q / 8)).toNat (q % 8)

/-- Storing bit `q`. -/
def SMap.setMemBit (m : SMap Byte) (q v : Nat) : SMap Byte := SMap.set m (q / 8) (BitVec.ofNat 8 (putBit (SMap.get m (q / 8)).toNat (q % 8) v))

theorem SMap.memBit_setMemBit (m : SMap Byte) (q v j : Nat) : SMap.memBit (SMap.setMemBit m q v) j = if j = q then v % 2 else SMap.memBit m j := by
  unfold SMap.memBit SMap.setMemBit
  rw [SMap.get_set]
  by_cases hbyte : j / 8 = q / 8
  · have hbit : bitAt (BitVec.ofNat 8 (putBit (SMap.get m (q / 8)).toNat (q % 8) v)).toNat (j % 8) = bitAt (putBit (SMap.get m (q / 8)).toNat (q % 8) v) (j % 8) := by
      rw [BitVec.toNat_ofNat, bitAt_eq_toNat, bitAt_eq_toNat, Nat.testBit_mod_two_pow, decide_eq_true (Nat.mod_lt j (by decide)), Bool.true_and]
    rw [if_pos hbyte, hbit, bitAt_putBit, hbyte]
    exact if_congr (by omega) rfl rfl
  · rw [if_neg hbyte, if_neg (by rintro rfl; exact hbyte rfl)]

/-- A field of `w` bits stored from bit `base` upward. -/
theorem SMap.memBit_setField (m : SMap Byte) (base w v q : Nat) :
    SMap.memBit ((List.range w).foldl (fun m j => SMap.setMemBit m (base + j) (bitAt v j)) m) q =
      if base ≤ q ∧ q < base + w then bitAt v (q - base) else SMap.memBit m q := by
  induction w with
  | zero => rw [if_neg (by omega)]; rfl
  | succ w ih =>
    rw [List.range_succ, List.foldl_append, List.foldl_cons, List.foldl_nil, SMap.memBit_setMemBit, ih]
    by_cases hq : q = base + w
    · rw [if_pos hq, if_pos (by omega), hq, Nat.add_sub_cancel_left]
      exact Nat.mod_mod _ _
    · rw [if_neg hq]
      exact if_congr (by omega) rfl rfl

/-- The lowest `w` bits of a number, added up. -/
theorem foldl_bitAt (v w : Nat) : (List.range w).foldl (fun n j => n + bitAt v j * 2 ^ j) 0 = v % 2 ^ w := by
  induction w with
  | zero => simp [Nat.mod_one]
  | succ w ih =>
    rw [List.range_succ, List.foldl_append, List.foldl_cons, List.foldl_nil, ih, Nat.mod_pow_succ, Nat.mul_comm]
    rfl

/-! The words of a block memory. -/

/-- The first bit of word `i` of memory `b`, whose 32,768 bits follow those of memory `b - 1`. -/
def Dev.wordBase (d : Dev) (b i : Nat) : Nat := b * 32768 + i * 2 ^ leAt (d.memCfg b) 0 1

theorem Dev.memWord_bits (d : Dev) (b i : Nat) :
    d.memWord b i = (List.range (2 ^ leAt (d.memCfg b) 0 1)).foldl (fun n j => n + SMap.memBit d.edge.bmem (d.wordBase b i + j) * 2 ^ j) 0 := by
  unfold Dev.memWord SMap.memBit Dev.wordBase
  generalize 2 ^ leAt (d.memCfg b) 0 1 = w
  refine List.foldl_ext _ _ _ fun n j _ => ?_
  rw [show (b * 32768 + i * w + j) / 8 = b * 4096 + (i * w + j) / 8 by omega, show (b * 32768 + i * w + j) % 8 = (i * w + j) % 8 by omega]

/-- The words of the memories rest on their configuration and their bytes. -/
theorem Dev.memWord_congr {d e : Dev} (hcfg : d.edge.cfg = e.edge.cfg) (hmem : d.edge.bmem = e.edge.bmem) (b i : Nat) : d.memWord b i = e.memWord b i := by
  unfold Dev.memWord Dev.memCfg
  rw [hcfg, hmem]

theorem Dev.memStore_congr {d e : Dev} (hcfg : d.edge.cfg = e.edge.cfg) (hmem : d.edge.bmem = e.edge.bmem) (b i v : Nat) :
    (d.memStore b i v).edge.bmem = (e.memStore b i v).edge.bmem := by
  unfold Dev.memStore Dev.memCfg
  rw [hcfg, hmem]

theorem Dev.memStore_bits (d : Dev) (b i v : Nat) : d.memStore b i v = { d with edge := { d.edge with
    bmem := (List.range (2 ^ leAt (d.memCfg b) 0 1)).foldl (fun m j => SMap.setMemBit m (d.wordBase b i + j) (bitAt v j)) d.edge.bmem } } := by
  unfold Dev.memStore SMap.setMemBit Dev.wordBase
  generalize 2 ^ leAt (d.memCfg b) 0 1 = w
  have hstep : (fun (m : SMap Byte) (j : Nat) => SMap.set m ((b * 32768 + i * w + j) / 8) (BitVec.ofNat 8
      (putBit (SMap.get m ((b * 32768 + i * w + j) / 8)).toNat ((b * 32768 + i * w + j) % 8) (bitAt v j)))) =
      fun m j => SMap.set m (b * 4096 + (i * w + j) / 8) (BitVec.ofNat 8 (putBit (SMap.get m (b * 4096 + (i * w + j) / 8)).toNat ((i * w + j) % 8) (bitAt v j))) := by
    funext m j
    rw [show (b * 32768 + i * w + j) / 8 = b * 4096 + (i * w + j) / 8 by omega, show (b * 32768 + i * w + j) % 8 = (i * w + j) % 8 by omega]
  rw [hstep]

/-- A word of an aspect of 1 to 32 bits lies inside its memory. -/
theorem word_inside {i k : Nat} (hk : k ≤ 5) (hi : i < 2 ^ (15 - k)) : i * 2 ^ k + 2 ^ k ≤ 32768 :=
  calc i * 2 ^ k + 2 ^ k = (i + 1) * 2 ^ k := (Nat.succ_mul ..).symm
    _ ≤ 2 ^ (15 - k) * 2 ^ k := Nat.mul_le_mul_right _ hi
    _ = 32768 := by rw [← Nat.pow_add, Nat.sub_add_cancel (by omega)]

/-- Two words of memories in their aspects have no bit in common. -/
theorem Dev.words_apart {d : Dev} {b c a i j : Nat} (hb : leAt (d.memCfg b) 0 1 ≤ 5) (hc : leAt (d.memCfg c) 0 1 ≤ 5)
    (ha : a < 2 ^ (15 - leAt (d.memCfg b) 0 1)) (hi : i < 2 ^ (15 - leAt (d.memCfg c) 0 1)) (hne : ¬ (c = b ∧ i = a)) (hj : j < 2 ^ leAt (d.memCfg c) 0 1) :
    ¬ (d.wordBase b a ≤ d.wordBase c i + j ∧ d.wordBase c i + j < d.wordBase b a + 2 ^ leAt (d.memCfg b) 0 1) := by
  have hina := word_inside hb ha
  have hini := word_inside hc hi
  unfold Dev.wordBase
  by_cases hcb : c = b
  · subst hcb
    obtain hlt | hlt := Nat.lt_or_gt_of_ne fun h => hne ⟨rfl, h⟩
    · have := Nat.mul_le_mul_right (2 ^ leAt (d.memCfg c) 0 1) (Nat.succ_le_of_lt hlt)
      rw [Nat.succ_mul] at this
      omega
    · have := Nat.mul_le_mul_right (2 ^ leAt (d.memCfg c) 0 1) (Nat.succ_le_of_lt hlt)
      rw [Nat.succ_mul] at this
      omega
  · omega

/-- A word written reads back, cut to the width of the aspect; every other word of the memories reads as before. -/
theorem Dev.memWord_memStore {d : Dev} {b c a i : Nat} (v : Nat) (hb : leAt (d.memCfg b) 0 1 ≤ 5) (hc : leAt (d.memCfg c) 0 1 ≤ 5)
    (ha : a < 2 ^ (15 - leAt (d.memCfg b) 0 1)) (hi : i < 2 ^ (15 - leAt (d.memCfg c) 0 1)) :
    (d.memStore b a v).memWord c i = if c = b ∧ i = a then v % 2 ^ 2 ^ leAt (d.memCfg b) 0 1 else d.memWord c i := by
  have hwords : (d.memStore b a v).memWord c i = (List.range (2 ^ leAt (d.memCfg c) 0 1)).foldl (fun n j =>
      n + (if d.wordBase b a ≤ d.wordBase c i + j ∧ d.wordBase c i + j < d.wordBase b a + 2 ^ leAt (d.memCfg b) 0 1
        then bitAt v (d.wordBase c i + j - d.wordBase b a) else SMap.memBit d.edge.bmem (d.wordBase c i + j)) * 2 ^ j) 0 := by
    rw [Dev.memWord_bits, Dev.memStore_bits]
    simp only [SMap.memBit_setField]
    rfl
  rw [hwords]
  split_ifs with heq
  · obtain ⟨rfl, rfl⟩ := heq
    rw [← foldl_bitAt v]
    refine List.foldl_ext _ _ _ fun n j hj => ?_
    rw [if_pos ⟨Nat.le_add_right .., Nat.add_lt_add_left (List.mem_range.mp hj) _⟩, Nat.add_sub_cancel_left]
  · rw [Dev.memWord_bits]
    refine List.foldl_ext _ _ _ fun n j hj => ?_
    rw [if_neg (Dev.words_apart hb hc ha hi heq (List.mem_range.mp hj))]

/-! One port of a block memory. -/

/-- A port names a word of its memory. -/
theorem Dev.memPort_address {d : Dev} {b p a : Nat} {x : Option Nat} (h : d.memPort b p = some (a, x)) : a < 2 ^ (15 - leAt (d.memCfg b) 0 1) := by
  unfold Dev.memPort at h
  dsimp only at h
  split_ifs at h
  all_goals
    obtain ⟨rfl, -⟩ := Prod.mk.inj (Option.some.inj h)
    exact Nat.mod_lt _ (Nat.two_pow_pos _)

theorem Dev.memWord_actSide (d : Dev) (k b i : Nat) : (d.actSide k).memWord b i = d.memWord b i := Dev.memWord_congr rfl rfl b i

/-- The read register of port `p` of memory `b` takes `o`. -/
def Dev.setMemRead (b p o : Nat) (d : Dev) : Dev := { d with edge := { d.edge with memRead := SMap.set d.edge.memRead (b * 2 + p) o } }

/-- Port `p` of memory `b` writes `v` over the word `o` at address `a`. -/
def Dev.setMemWord (b p a v o : Nat) (d : Dev) : Dev :=
  { d with edge := { (d.memStore b a v).edge with portWrites := SMap.set d.edge.portWrites (b * 2 + p) (d.edge.eventAt + 1, a, o) } }

/-- `e` is `d` but for its edge fabric. -/
def Dev.OnEdge (d e : Dev) : Prop := ∃ g, e = { d with edge := g }

theorem Dev.OnEdge.eq {d e : Dev} (h : d.OnEdge e) : e = { d with edge := e.edge } := by
  obtain ⟨_, rfl⟩ := h
  rfl

theorem Dev.OnEdge.trans {d e f : Dev} (h1 : d.OnEdge e) (h2 : e.OnEdge f) : d.OnEdge f := by
  obtain ⟨_, rfl⟩ := h1
  obtain ⟨_, rfl⟩ := h2
  exact ⟨_, rfl⟩

theorem Dev.onEdge_setMemRead (d : Dev) (k b p o : Nat) : d.OnEdge ((d.actSide k).setMemRead b p o) := ⟨_, rfl⟩

theorem Dev.onEdge_setMemWord (d : Dev) (b p a v o : Nat) : d.OnEdge (d.setMemWord b p a v o) := ⟨_, rfl⟩

section Port

variable {d : Dev} {b p a : Nat}

theorem Dev.portAccess_reads (h : d.writtenNow b (1 - p) a = none) : d.portAccess b p a none = d.setMemRead b p (d.memWord b a) := by
  simp only [Dev.portAccess, h, Option.getD_none, Dev.setMemRead]

theorem Dev.portAccess_writes (v : Nat) (h : d.writtenNow b (1 - p) a = none) :
    d.portAccess b p a (some v) = (d.setMemRead b p (d.memWord b a)).setMemWord b p a v (d.memWord b a) := by
  simp only [Dev.portAccess, h, Option.getD_none, Option.isSome_none, Bool.false_eq_true, and_false, if_false, Dev.setMemRead, Dev.setMemWord, Dev.memStore]

/-- Port A writes what port B has written in the same cycle: its word lands. -/
theorem Dev.portAccess_lands (v : Nat) {o : Nat} (h : d.writtenNow b 1 a = some o) :
    d.portAccess b 0 a (some v) = ((d.setMemRead b 0 o).setMemWord b 0 a v o).collide b := by
  simp only [Dev.portAccess, Nat.sub_zero, h, Option.getD_some, Option.isSome_some, Nat.zero_ne_one, false_and, if_false, if_true, Dev.setMemRead, Dev.setMemWord, Dev.memStore]

/-- Port B writes what port A has written in the same cycle: the word of port A stays. -/
theorem Dev.portAccess_dropped (v : Nat) {o : Nat} (h : d.writtenNow b 0 a = some o) :
    d.portAccess b 1 a (some v) = (d.setMemRead b 1 o).collide b := by
  simp only [Dev.portAccess, Nat.sub_self, h, Option.getD_some, Option.isSome_some, and_self, if_true, Dev.setMemRead]

/-- What a port writes it has written now. -/
theorem Dev.writtenNow_setMemWord (v o : Nat) : (d.setMemWord b p a v o).writtenNow b p a = some o := by
  simp [Dev.writtenNow, Dev.setMemWord, Dev.memStore]

end Port

/-! Both ports. -/

section Ports

variable {d : Dev} {b a : Nat} {x : Option Nat} (h : d.edge.acted.contains b = false)
include h

theorem Dev.blockMemory_portA (hA : d.memPort b 0 = some (a, x)) (hB : d.memPort b 1 = none) : d.blockMemory b = (d.actSide b).portAccess b 0 a x := by
  simp only [Dev.blockMemory, h, hA, hB, Bool.false_eq_true, if_false, Dev.actSide]

theorem Dev.blockMemory_portB (hA : d.memPort b 0 = none) (hB : d.memPort b 1 = some (a, x)) : d.blockMemory b = (d.actSide b).portAccess b 1 a x := by
  simp only [Dev.blockMemory, h, hA, hB, Bool.false_eq_true, if_false, Dev.actSide]

theorem Dev.blockMemory_ports {y : Option Nat} (hA : d.memPort b 0 = some (a, x)) (hB : d.memPort b 1 = some (a, y)) :
    d.blockMemory b = ((d.actSide b).portAccess b 0 a x).portAccess b 1 a y := by
  simp only [Dev.blockMemory, h, hA, hB, Bool.false_eq_true, if_false, Dev.actSide]

end Ports

/-- Settles O19: the ports that act on the clock event, and what the other port has written in the same cycle. -/
theorem blockMemoryPorts : Obligations.BlockMemoryPorts := by
  unfold Obligations.BlockMemoryPorts
  refine ⟨?portA, ?both, ?landsA, ?droppedB, fun d b _ => rfl, ?acted, ?noUnit⟩
  case portA =>
    intro s b a x hb hact haspect hA hB hother
    have haddr := Dev.memPort_address hA
    cases x with
    | none =>
      have hmem := (Dev.blockMemory_portA hact hA hB).trans (Dev.portAccess_reads (d := s.dev.actSide b) hother)
      rw [Dev.memWord_actSide] at hmem
      refine ⟨s.after fun d => (d.actSide b).setMemRead b 0 (d.memWord b a), State.onUnit_after (decide_eq_true hb) hmem, State.after_congr (Dev.onEdge_setMemRead ..).eq, ?_, ?_, ?_⟩
      · exact SMap.get_set_same s.dev.edge.memRead (b * 2) (s.dev.memWord b a)
      · exact SMap.get_set s.dev.edge.memRead (b * 2) (v := s.dev.memWord b a)
      · exact fun c i _ _ _ => Dev.memWord_congr rfl rfl c i
    | some v =>
      have hmem := (Dev.blockMemory_portA hact hA hB).trans (Dev.portAccess_writes (d := s.dev.actSide b) v hother)
      rw [Dev.memWord_actSide] at hmem
      refine ⟨s.after fun d => ((d.actSide b).setMemRead b 0 (d.memWord b a)).setMemWord b 0 a v (d.memWord b a), State.onUnit_after (decide_eq_true hb) hmem, State.after_congr ((Dev.onEdge_setMemRead ..).trans (Dev.onEdge_setMemWord ..)).eq, ?_, ?_, ?_⟩
      · exact SMap.get_set_same s.dev.edge.memRead (b * 2) (s.dev.memWord b a)
      · exact SMap.get_set s.dev.edge.memRead (b * 2) (v := s.dev.memWord b a)
      · intro c i _ hi hc
        have hbytes : (((s.dev.actSide b).setMemRead b 0 (s.dev.memWord b a)).setMemWord b 0 a v (s.dev.memWord b a)).edge.bmem = (s.dev.memStore b a v).edge.bmem :=
          Dev.memStore_congr (d := (s.dev.actSide b).setMemRead b 0 (s.dev.memWord b a)) rfl rfl b a v
        exact (Dev.memWord_congr (by rfl) hbytes c i).trans (Dev.memWord_memStore v haspect hc haddr hi)
  case both =>
    intro s b a v w hb hact hA hB hother
    refine State.onUnit_after (decide_eq_true hb) ?_
    rw [Dev.blockMemory_ports hact hA hB, Dev.portAccess_writes (d := s.dev.actSide b) (p := 0) v hother, Dev.memWord_actSide,
      Dev.portAccess_dropped w (Dev.writtenNow_setMemWord ..)]
    rfl
  case landsA =>
    intro s b a v o hb hact hA hB hother
    exact State.onUnit_after (decide_eq_true hb) ((Dev.blockMemory_portA hact hA hB).trans (Dev.portAccess_lands (d := s.dev.actSide b) v hother))
  case droppedB =>
    intro s b a v o hb hact hA hB hother
    exact State.onUnit_after (decide_eq_true hb) ((Dev.blockMemory_portB hact hA hB).trans (Dev.portAccess_dropped (d := s.dev.actSide b) v hother))
  case acted => exact fun s b hb hact => State.onUnit_unchanged (decide_eq_true hb) (if_pos hact)
  case noUnit => exact fun s b hb => State.onUnit_fault _ _ (decide_eq_false (Nat.not_lt.mpr hb))

end Sys2Proof.Machine

/-! PROOFS. The staged release of the edge fabric (spec/08 R231, R232, spec/07 R206). -/

namespace Sys2Proof.Machine

/-! A write of EDGE_CTRL with RELEASE. -/

theorem isSet_or_one (w : Nat) : isSet (w ||| 1) 0 = true := by
  rw [isSet, bitAt_eq_toNat, Nat.testBit_or]
  simp

/-- A release of the whole fabric has been made or is in progress. -/
def Dev.releaseBegun (d : Dev) : Prop := 1 ≤ d.rd R.EDGE.EDGE_STATUS_RELEASE_STAGE ∨ d.edge.e0.isSome = true

/-- The load or a PLL refuses the release. -/
def Dev.releaseBarred (d : Dev) : Prop := d.loadState ≠ 2 ∨ d.treePllUnlocked = true

theorem Dev.treePllUnlocked_congr {d e : Dev} (hcfg : d.edge.cfg = e.edge.cfg) (h0 : d.rd R.EDGE.EDGE_STATUS_PLL0_LOCK = e.rd R.EDGE.EDGE_STATUS_PLL0_LOCK)
    (h1 : d.rd R.EDGE.EDGE_STATUS_PLL1_LOCK = e.rd R.EDGE.EDGE_STATUS_PLL1_LOCK) : d.treePllUnlocked = e.treePllUnlocked := by
  simp only [Dev.treePllUnlocked, Dev.treeSource, Dev.on, hcfg, h0, h1]

section EdgeCtrl

/-- The device at a write of EDGE_CTRL whose HALT_GATE has been taken. -/
def Dev.haltGateWritten (w t : Nat) (d : Dev) : Dev := (d.atWrite t).wr R.EDGE.EDGE_CTRL_HALT_GATE ((w ||| 1) / 2 ^ 8)

variable (d : Dev) (w t : Nat)

theorem Dev.rd_haltGateWritten {q : Reg} (hq : q.key 0 0 ≠ R.EDGE.EDGE_CTRL_HALT_GATE.key 0 0) (hc : q.key 0 0 ≠ R.CNT.LIVE.key 0xB0 11) :
    (d.haltGateWritten w t).rd q = d.rd q := (Dev.rd_wr_ne _ _ hq).trans (Dev.rd_atWrite d t hc)

theorem Dev.haltGateWritten_edge : (d.haltGateWritten w t).edge = d.edge := by rw [Dev.haltGateWritten, Dev.wr_edge, Dev.atWrite_edge]

theorem Dev.releaseBegun_haltGateWritten : (d.haltGateWritten w t).releaseBegun ↔ d.releaseBegun := by
  rw [Dev.releaseBegun, Dev.rd_haltGateWritten d w t (by decide) (by decide), Dev.haltGateWritten_edge, Dev.releaseBegun]

theorem Dev.releaseBarred_haltGateWritten : (d.haltGateWritten w t).releaseBarred ↔ d.releaseBarred := by
  have hload : (d.haltGateWritten w t).loadState = d.loadState := Dev.rd_haltGateWritten d w t (by decide) (by decide)
  have hpll : (d.haltGateWritten w t).treePllUnlocked = d.treePllUnlocked := Dev.treePllUnlocked_congr (congrArg _ (Dev.haltGateWritten_edge d w t))
    (Dev.rd_haltGateWritten d w t (by decide) (by decide)) (Dev.rd_haltGateWritten d w t (by decide) (by decide))
  rw [Dev.releaseBarred, hload, hpll, Dev.releaseBarred]

/-- RELEASE once HALT_GATE has been taken. -/
theorem Dev.edgeCtrlWrite_release : (d.atWrite t).edgeCtrlWrite (w ||| 1) t =
    let d1 := d.haltGateWritten w t
    if d1.loadState ≠ 2 ∨ d1.treePllUnlocked then
      if 1 ≤ d1.rd R.EDGE.EDGE_STATUS_RELEASE_STAGE ∨ d1.edge.e0.isSome then d1
      else ((d1.wr R.EDGE.EDGE_STATUS_RELEASE_REFUSED 1).wr R.RUN.RUN_STATUS_REFUSED 1).wr R.RUN.RUN_STATUS_REFUSE_REASON 0x10
    else if 1 ≤ d1.rd R.EDGE.EDGE_STATUS_RELEASE_STAGE ∨ d1.edge.e0.isSome then d1
    else { d1 with edge := { d1.edge with e0 := some d1.releaseEdge } } := by
  unfold Dev.edgeCtrlWrite
  rw [isSet_or_one, Dev.toTime_atWrite]
  rfl

variable {d}

theorem Dev.edgeCtrlWrite_begun (h : d.releaseBegun) : (d.atWrite t).edgeCtrlWrite (w ||| 1) t = d.haltGateWritten w t := by
  have h1 := (d.releaseBegun_haltGateWritten w t).mpr h
  rw [Dev.edgeCtrlWrite_release]
  by_cases hb : (d.haltGateWritten w t).releaseBarred
  · exact (if_pos hb).trans (if_pos h1)
  · exact (if_neg hb).trans (if_pos h1)

theorem Dev.edgeCtrlWrite_refused (h : ¬ d.releaseBegun) (hb : d.releaseBarred) : (d.atWrite t).edgeCtrlWrite (w ||| 1) t =
    (((d.haltGateWritten w t).wr R.EDGE.EDGE_STATUS_RELEASE_REFUSED 1).wr R.RUN.RUN_STATUS_REFUSED 1).wr R.RUN.RUN_STATUS_REFUSE_REASON 0x10 := by
  rw [Dev.edgeCtrlWrite_release]
  exact (if_pos ((d.releaseBarred_haltGateWritten w t).mpr hb)).trans (if_neg (mt (d.releaseBegun_haltGateWritten w t).mp h))

theorem Dev.edgeCtrlWrite_begins (h : ¬ d.releaseBegun) (hb : ¬ d.releaseBarred) : (d.atWrite t).edgeCtrlWrite (w ||| 1) t =
    let d1 := d.haltGateWritten w t
    { d1 with edge := { d1.edge with e0 := some d1.releaseEdge } } := by
  rw [Dev.edgeCtrlWrite_release]
  exact (if_neg (mt (d.releaseBarred_haltGateWritten w t).mp hb)).trans (if_neg (mt (d.releaseBegun_haltGateWritten w t).mp h))

end EdgeCtrl

/-! The stages of a release. -/

section Stage

variable {d : Dev} {e n after : Nat}

theorem Dev.globalReach_none (h : d.edge.e0 = none) : d.globalReach n after = d := by
  simp only [Dev.globalReach, h]

/-- A stage does not come before its edge, nor out of order. -/
theorem Dev.globalReach_rests (h : d.edge.e0 = none ∨ d.rd R.EDGE.EDGE_STATUS_RELEASE_STAGE + 1 ≠ n ∨ ∃ e, d.edge.e0 = some e ∧ d.edge.edges < e + after) :
    d.globalReach n after = d := by
  cases hs : d.edge.e0 with
  | none => exact Dev.globalReach_none hs
  | some e =>
    have hrests : d.edge.edges < e + after ∨ d.rd R.EDGE.EDGE_STATUS_RELEASE_STAGE + 1 ≠ n := by
      rcases h with h | h | ⟨e', h, hlt⟩
      · simp [hs] at h
      · exact .inr h
      · rw [hs] at h
        exact .inl (Option.some.inj h ▸ hlt)
    simp only [Dev.globalReach, hs, hrests, if_true]

theorem Dev.globalReach_reaches (h : d.edge.e0 = some e) (hn : d.rd R.EDGE.EDGE_STATUS_RELEASE_STAGE + 1 = n) (he : e + after ≤ d.edge.edges) :
    d.globalReach n after =
      let d1 := d.wr R.EDGE.EDGE_STATUS_RELEASE_STAGE n
      if n < 3 then d1.restEdge else { d1 with edge := { d1.edge with e0 := none, shown := [] } }.restEdge.event 0x240 := by
  have hreaches : ¬ (d.edge.edges < e + after ∨ d.rd R.EDGE.EDGE_STATUS_RELEASE_STAGE + 1 ≠ n) := by omega
  simp only [Dev.globalReach, h, hreaches, if_false]

theorem Dev.reachStage_global (h : d.edge.fenced.filter (d.regionDue n after) = []) : d.reachStage n after = d.globalReach n after := by
  rw [Dev.reachStage, h]
  rfl

theorem Dev.reachStage_region {r : Nat} (h : d.edge.e0 = none) (hr : d.edge.fenced.filter (d.regionDue n after) = [r]) : d.reachStage n after = d.regionReach n r := by
  rw [Dev.reachStage, hr, Dev.globalReach_none h]
  rfl

theorem Dev.regionDue_next {r : Nat} (he : SMap.get d.edge.regionE0 r = e + 1) (hn : SMap.get d.edge.regionStage r + 1 = n) :
    d.regionDue n after r = decide (e + after ≤ d.edge.edges) := by
  simp [Dev.regionDue, he, hn]

end Stage

/-- Settles O18: RELEASE by what stands in its way, and each stage by whose edge of it has come. -/
theorem stagedRelease : Obligations.StagedRelease := by
  unfold Obligations.StagedRelease
  refine ⟨?begins, ?refused, ?begun, ?stage1, ?stage2, ?stage3, ?region, fun d n after r e => Dev.regionDue_next, ?rests⟩
  case begins =>
    intro s w t h hload hpll hstage he0
    have hbegun : ¬ s.dev.releaseBegun := by simp [Dev.releaseBegun, hstage, he0]
    have hbarred : ¬ s.dev.releaseBarred := by simp [Dev.releaseBarred, hload, hpll]
    exact State.onDev_row h (Dev.edgeCtrlWrite_begins w t hbegun hbarred)
  case refused =>
    intro s w t h hbarred hstage he0
    have hbegun : ¬ s.dev.releaseBegun := by simp [Dev.releaseBegun, hstage, he0]
    exact State.onDev_row h (Dev.edgeCtrlWrite_refused w t hbegun hbarred)
  case begun => exact fun s w t h hbegun => State.onDev_row h (Dev.edgeCtrlWrite_begun w t hbegun)
  case stage1 => exact fun s e h hs he hr => State.onDev_after ((Dev.reachStage_global hr).trans (Dev.globalReach_reaches h (by rw [hs]) he))
  case stage2 => exact fun s e h hs he hr => State.onDev_after ((Dev.reachStage_global hr).trans (Dev.globalReach_reaches h (by rw [hs]) he))
  case stage3 => exact fun s e h hs he hr => State.onDev_after ((Dev.reachStage_global hr).trans (Dev.globalReach_reaches h (by rw [hs]) he))
  case region =>
    exact fun s r h => ⟨fun hr => State.onDev_after (Dev.reachStage_region h hr), fun hr => State.onDev_after (Dev.reachStage_region h hr),
      fun hr => State.onDev_after (Dev.reachStage_region h hr)⟩
  case rests =>
    intro s
    refine ⟨fun h hr => ?_, fun h hr => ?_, fun h hr => ?_⟩
    all_goals
      refine State.onDev_unchanged ((Dev.reachStage_global hr).trans (Dev.globalReach_rests ?_))
      exact h.imp_right (Or.imp_left (by omega))

end Sys2Proof.Machine

/-! PROOFS. The FIFOs of the edge fabric (spec/08 R222, R223, R230). -/

namespace Sys2Proof.Machine

section Fifo

variable {d : Dev} {f : Nat}

/-! The write side. -/

theorem Dev.pushFifo_takes (v : Nat) (h : (SMap.get d.edge.fifo f).length < 64) : d.pushFifo f v = d.setFifo f (SMap.get d.edge.fifo f ++ [(v % 2 ^ 32, 3)]) :=
  if_neg (Nat.not_le.mpr h)

theorem Dev.pushFifo_drops (v : Nat) (h : 64 ≤ (SMap.get d.edge.fifo f).length) :
    d.pushFifo f v = ((d.wr R.EDGE.FIFO_OVF (d.rd R.EDGE.FIFO_OVF ||| 2 ^ f)).count 0xB3 4 1).event 0x243 := if_pos h

/-- The write side may act on the last clock event: it has not, the FIFO is configured, and stage 2 has come. -/
def Dev.writeSideLive (d : Dev) (f : Nat) : Prop := d.edge.acted.contains (64 + 2 * f) = false ∧ d.fifoUsed f = true ∧ 2 ≤ d.stageOf (f / 2)

/-- A presentation offers OUT FIFO `f` a word, with PUSH = 1. -/
def Dev.wordOffered (d : Dev) (f : Nat) : Bool := d.edge.pushDue.contains f && SMap.get d.edge.shown (leAt (d.fifoCfg f) 6 2 + 32) % 2 == 1

/-- The clock of IN FIFO `f` has risen with WE = 1. -/
def Dev.writeClocked (d : Dev) (f : Nat) : Bool :=
  isSet d.edge.rose (leAt (d.fifoCfg f) 1 1) && !d.sideGated (leAt (d.fifoCfg f) 1 1) && d.preSig (leAt (d.fifoCfg f) 4 2) == 1

theorem Dev.fifoWrite_rests (h : ¬ d.writeSideLive f) : d.fifoWrite f = d := by
  refine if_pos ?_
  by_contra hc
  simp only [Bool.not_eq_true, Bool.or_eq_false_iff, Bool.not_eq_false', decide_eq_false_iff_not, Nat.not_lt, and_assoc] at hc
  exact h hc

theorem Dev.fifoWrite_live (h : d.writeSideLive f) : d.fifoWrite f =
    if d.fifoOut f then
      if d.wordOffered f then
        ({ d with edge := { d.edge with pushDue := d.edge.pushDue.filter (· != f) } } : Dev).pushFifo f
          ((List.range 32).foldl (fun v i => v + SMap.get d.edge.shown (leAt (d.fifoCfg f) 6 2 + i) % 2 * 2 ^ i) 0)
      else d
    else if d.writeClocked f then (d.actSide (64 + 2 * f)).pushFifo f (d.preNum (d.fifoCfg f) 8 32) else d := by
  obtain ⟨hact, hused, hstage⟩ := h
  exact if_neg (by simp only [hact, hused, Bool.not_true, Bool.or_false, Bool.false_or, decide_eq_true_eq, Nat.not_lt, hstage])

/-! The read side. -/

/-- The clock of OUT FIFO `f` has risen with RE = 1, and its read side has not acted on it. -/
def Dev.readClocked (d : Dev) (f : Nat) : Bool :=
  !(d.edge.acted.contains (65 + 2 * f) || !isSet d.edge.rose (leAt (d.fifoCfg f) 1 1) || d.sideGated (leAt (d.fifoCfg f) 1 1) || d.preSig (leAt (d.fifoCfg f) 4 2) == 0)

theorem Dev.fifoPop_unused (h : d.fifoUsed f = false) : d.fifoPop f = d := if_pos (by rw [h]; rfl)

theorem Dev.fifoPop_out (hu : d.fifoUsed f = true) (hdir : d.fifoOut f = true) : d.fifoPop f =
    if d.readClocked f then
      if d.preSig (0x2C00 + 2 * f) = 0 then (d.actSide (65 + 2 * f)).popHead f
      else (((d.actSide (65 + 2 * f)).wr R.EDGE.FIFO_UNF (d.rd R.EDGE.FIFO_UNF ||| 2 ^ f)).count 0xB3 5 1).event 0x244
    else d := by
  simp only [Dev.fifoPop, hu, hdir, Dev.readClocked, Bool.not_true, Bool.false_eq_true, if_false, if_true, Bool.not_eq_true', ← Bool.not_eq_true, ite_not]
  rfl

theorem Dev.fifoPop_in (hu : d.fifoUsed f = true) (hdir : d.fifoOut f = false) : d.fifoPop f =
    if SMap.get d.edge.popDue f = 1 then
      let d1 : Dev := { d with edge := { d.edge with popDue := SMap.set d.edge.popDue f 0 } }
      if d.fifoSeen f = [] then d1 else d1.popHead f
    else d := by
  simp only [Dev.fifoPop, hu, hdir, Bool.not_true, Bool.false_eq_true, if_false]

theorem Dev.popHead_out (h : d.fifoOut f = true) : d.popHead f =
    let d1 := d.setFifo f ((SMap.get d.edge.fifo f).drop 1)
    { d1 with edge := { d1.edge with fifoWord := SMap.set d.edge.fifoWord f (((d.fifoSeen f).head?.map (·.1)).getD 0) } } := if_pos h

end Fifo

/-- Settles O20: each side by whether it acts, by the direction of the FIFO and by its fill. -/
theorem edgeFifos : Obligations.EdgeFifos := by
  unfold Obligations.EdgeFifos
  refine ⟨?writeIn, ?writeOut, ?writeRests, ?popOut, ?popIn, ?popInEmpty, ?popRests, ?noUnit⟩
  case writeIn =>
    intro s f hf hact hused hstage hdir hrose hgate hwe
    have hclock : s.dev.writeClocked f = true := by rw [Dev.writeClocked, hrose, hgate, hwe]; rfl
    have hpush : s.dev.fifoWrite f = (s.dev.actSide (64 + 2 * f)).pushFifo f (s.dev.preNum (s.dev.fifoCfg f) 8 32) := by
      rw [Dev.fifoWrite_live ⟨hact, hused, hstage⟩, hdir, hclock]
      rfl
    exact ⟨fun hroom => State.onUnit_after (decide_eq_true hf) (hpush.trans (Dev.pushFifo_takes _ hroom)),
      fun hfull => State.onUnit_after (decide_eq_true hf) (hpush.trans (Dev.pushFifo_drops _ hfull))⟩
  case writeOut =>
    intro s f hf hact hused hstage hdir hdue hpush
    have hoffer : s.dev.wordOffered f = true := by rw [Dev.wordOffered, hdue, hpush]; rfl
    refine State.onUnit_after (decide_eq_true hf) ?_
    rw [Dev.fifoWrite_live ⟨hact, hused, hstage⟩, hdir, hoffer]
    rfl
  case writeRests =>
    intro s f hf h
    refine State.onUnit_unchanged (decide_eq_true hf) ?_
    by_cases hlive : s.dev.writeSideLive f
    · rw [Dev.fifoWrite_live hlive]
      obtain ⟨hact, hused, hstage⟩ := hlive
      rcases h with h | h | h | ⟨hdir, h⟩ | ⟨hdir, h⟩
      · exact absurd h (by rw [hact]; decide)
      · exact absurd h (by rw [hused]; decide)
      · omega
      · have hoffer : s.dev.wordOffered f = false := by rcases h with h | h <;> simp only [Dev.wordOffered, h, Bool.false_and, Bool.and_false, Nat.reduceBEq]
        rw [hdir, hoffer]
        rfl
      · have hclock : s.dev.writeClocked f = false := by
          rcases h with hrose | hgate | hwe
          · rw [Dev.writeClocked, hrose, Bool.false_and, Bool.false_and]
          · rw [Dev.writeClocked, hgate, Bool.not_true, Bool.and_false, Bool.false_and]
          · rw [Dev.writeClocked, beq_eq_false_iff_ne.mpr hwe, Bool.and_false]
        rw [hdir, hclock]
        rfl
    · exact Dev.fifoWrite_rests hlive
  case popOut =>
    intro s f hf hused hdir hact hrose hgate hre
    have hclock : s.dev.readClocked f = true := by rw [Dev.readClocked, hact, hrose, hgate, hre]; rfl
    have hpop := Dev.fifoPop_out hused hdir
    rw [hclock, if_pos rfl] at hpop
    refine ⟨fun hholds => State.onUnit_after (decide_eq_true hf) ?_, fun hempty => State.onUnit_after (decide_eq_true hf) ?_⟩
    · rw [hpop, if_pos hholds]
      exact Dev.popHead_out (d := s.dev.actSide (65 + 2 * f)) hdir
    · rw [hpop, if_neg (by rw [hempty]; decide)]
  case popIn =>
    intro s f hf hused hdir hdue hseen
    refine State.onUnit_after (decide_eq_true hf) ?_
    rw [Dev.fifoPop_in hused hdir, if_pos hdue]
    exact if_neg hseen
  case popInEmpty =>
    intro s f hf hused hdir hdue hseen
    refine State.onUnit_after (decide_eq_true hf) ?_
    rw [Dev.fifoPop_in hused hdir, if_pos hdue]
    exact if_pos hseen
  case popRests =>
    intro s f hf h
    refine State.onUnit_unchanged (decide_eq_true hf) ?_
    cases hused : s.dev.fifoUsed f with
    | false => exact Dev.fifoPop_unused hused
    | true =>
      rcases h with h | ⟨hdir, hdue⟩ | ⟨hdir, h⟩
      · rw [hused] at h
        exact absurd h (by decide)
      · rw [Dev.fifoPop_in hused hdir, if_neg hdue]
      · have hclock : s.dev.readClocked f = false := by
          rcases h with h | h | h | h <;> simp only [Dev.readClocked, h, Bool.true_or, Bool.or_true, Bool.not_false, Bool.not_true, beq_self_eq_true]
        rw [Dev.fifoPop_out hused hdir, hclock]
        rfl
  case noUnit =>
    exact fun s f hf => ⟨State.onUnit_fault _ _ (decide_eq_false (Nat.not_lt.mpr hf)), State.onUnit_fault _ _ (decide_eq_false (Nat.not_lt.mpr hf))⟩

end Sys2Proof.Machine

/-! PROOFS. A GCT0 edge, and the registers of the edge fabric with rules of their own (spec/08 R213, R215, R233, R238). -/

namespace Sys2Proof.Machine

/-! A fabric for which nothing is configured (R212, R215). -/

/-- The part of the device that a statement of GCT0 edges speaks of. -/
structure EdgeView where
  cfg : SMap Bytes
  mac : SMap Nat
  bmem : SMap Byte
  arr : Arr
  mono : Nat
  edges : Nat
  lastEdge : Nat
  gctPeriod : Nat

def Dev.edgeView (d : Dev) : EdgeView := ⟨d.edge.cfg, d.edge.mac, d.edge.bmem, d.arr, d.mono, d.edge.edges, d.edge.lastEdge, d.edge.gctPeriod⟩

theorem Dev.cfg_of_edgeView {d e : Dev} (h : e.edgeView = d.edgeView) (hcfg : d.edge.cfg = []) : e.edge.cfg = [] := (congrArg EdgeView.cfg h).trans hcfg

theorem Dev.settlePin_edgeView (p : Nat) (d : Dev) : (d.settlePin p).edgeView = d.edgeView := by
  have htakes : ∀ (w : Nat × Nat) (d : Dev), (d.pinTakes p w.1 w.2).edgeView = d.edgeView := fun w d =>
    iteInduction (motive := fun e : Dev => e.edgeView = d.edgeView) (fun _ => rfl) fun _ => rfl
  exact iteInduction (motive := fun e : Dev => e.edgeView = d.edgeView) (fun _ => rfl) fun _ => forAll_keeps Dev.edgeView _ htakes _ _

theorem Dev.settlePins_edgeView (d : Dev) : d.settlePins.edgeView = d.edgeView :=
  forAll_keeps Dev.edgeView (fun (e : Nat × List (Nat × Nat)) d => d.settlePin e.1) (fun e d => d.settlePin_edgeView e.1) _ _

theorem Dev.keepSignals_edgeView (k : SMap Nat) (d : Dev) : (d.keepSignals k).edgeView = d.edgeView := rfl

/-- A GCT0 edge is counted and stamped. -/
def EdgeView.counted (v : EdgeView) : EdgeView := { v with edges := v.edges + 1, lastEdge := v.mono, gctPeriod := v.mono - v.lastEdge }

theorem Dev.fields_of_counted {d e : Dev} (h : e.edgeView = d.edgeView.counted) : e.edge.edges = d.edge.edges + 1 ∧ e.edge.lastEdge = d.mono ∧
    e.edge.gctPeriod = d.mono - d.edge.lastEdge ∧ e.arr = d.arr ∧ e.edge.bmem = d.edge.bmem ∧ e.edge.mac = d.edge.mac :=
  ⟨congrArg EdgeView.edges h, congrArg EdgeView.lastEdge h, congrArg EdgeView.gctPeriod h, congrArg EdgeView.arr h, congrArg EdgeView.bmem h, congrArg EdgeView.mac h⟩

/-- No value by signal number is that of a macrocell, which have the numbers below 0x1000 (R209). -/
def SMap.NoMac (k : SMap Nat) : Prop := ∀ e ∈ k, 0x1000 ≤ e.1

theorem SMap.NoMac.del {k : SMap Nat} (h : SMap.NoMac k) (n : Nat) : SMap.NoMac (SMap.del k n) := by
  induction k with
  | nil => exact h
  | cons e r ih =>
    have hr : SMap.NoMac (SMap.del r n) := ih fun x hx => h x (List.mem_cons_of_mem _ hx)
    rw [SMap.del]
    split_ifs
    · exact hr
    · exact List.forall_mem_cons.mpr ⟨h e List.mem_cons_self, hr⟩

theorem SMap.NoMac.ins {k : SMap Nat} (h : SMap.NoMac k) {n : Nat} (hn : 0x1000 ≤ n) (v : Nat) : SMap.NoMac (SMap.ins k n v) := by
  induction k with
  | nil => exact List.forall_mem_cons.mpr ⟨hn, h⟩
  | cons e r ih =>
    obtain ⟨he, hr⟩ := List.forall_mem_cons.mp h
    rw [SMap.ins]
    split_ifs
    · exact List.forall_mem_cons.mpr ⟨hn, h⟩
    · exact List.forall_mem_cons.mpr ⟨hn, hr⟩
    · exact List.forall_mem_cons.mpr ⟨he, ih hr⟩

theorem SMap.NoMac.set {k : SMap Nat} (h : SMap.NoMac k) {n : Nat} (hn : 0x1000 ≤ n) (v : Nat) : SMap.NoMac (SMap.set k n v) :=
  iteInduction (fun _ => h.del n) fun _ => h.ins hn v

theorem SMap.NoMac.range {k : SMap Nat} (h : SMap.NoMac k) : SMap.range k 0 0x1000 = [] :=
  List.filter_eq_nil_iff.mpr fun e he => by
    have := h e he
    simp only [decide_eq_true_eq]
    omega

section Unconfigured

variable {d : Dev} (h : d.edge.cfg = [])
include h

theorem Dev.macs_unconfigured : d.macs = [] := by
  rw [Dev.macs, h]
  rfl

theorem Dev.treeSource_unconfigured (g : Nat) : d.treeSource g = if g = 0 then 1 else 0 := by
  rw [Dev.treeSource, h]
  rfl

theorem Dev.lineDrivers_unconfigured (l : Nat) : d.lineDrivers l = [] := by
  rw [Dev.lineDrivers, Dev.macs_unconfigured h]
  rfl

theorem Dev.noMac_flowPass {k : SMap Nat} (hk : SMap.NoMac k) : SMap.NoMac (d.flowPass k) := by
  rw [Dev.flowPass, Dev.macs_unconfigured h]
  refine List.foldlRecOn (motive := SMap.NoMac) _ _ hk fun k hk l _ => ?_
  split_ifs
  · split
    · exact hk.set (by omega) _
    · exact hk
  · exact hk

theorem Dev.noMac_flow {k : SMap Nat} (hk : SMap.NoMac k) (n : Nat) : SMap.NoMac (d.flow k n) := by
  induction n generalizing k with
  | zero => exact hk
  | succ n ih =>
    rw [Dev.flow]
    exact iteInduction (motive := SMap.NoMac) (fun _ => hk) fun _ => ih (d.noMac_flowPass h hk)

theorem Dev.noMac_freeLoops {k : SMap Nat} (hk : SMap.NoMac k) : SMap.NoMac (d.freeLoops k).1 := by
  rw [Dev.freeLoops, Dev.macs_unconfigured h]
  refine List.foldlRecOn (motive := fun x : SMap Nat × Dev => SMap.NoMac x.1) _ _ hk fun x hx n hn => ?_
  refine SMap.NoMac.set (n := n) hx ?_ ((x.2.free 1).1 + 1)
  simp only [List.filter_nil, List.nil_append, List.mem_filter, List.mem_map] at hn
  obtain ⟨⟨l, -, rfl⟩, -⟩ := hn
  omega

theorem Dev.noMac_combValues : SMap.NoMac d.combValues.1 := d.noMac_freeLoops h (d.noMac_flow h (by nofun) _)

omit h in
theorem Dev.freeLoops_edgeView (k : SMap Nat) (d : Dev) : (d.freeLoops k).2.edgeView = d.edgeView :=
  List.foldlRecOn (motive := fun x : SMap Nat × Dev => x.2.edgeView = d.edgeView) _ _ rfl fun _ hx _ _ => hx

/-- With no macrocell there is no reset: one pass settles the fabric. -/
theorem Dev.settleEdge_unconfigured : d.settleEdge (d.macs.length + 1) = d.combValues := by
  have hcfg : d.combValues.2.edge.cfg = [] := Dev.cfg_of_edgeView (d.freeLoops_edgeView _) h
  have hreset : d.combValues.2.asyncResets d.combValues.1 = d.combValues.2 := by
    rw [Dev.asyncResets, Dev.macs_unconfigured hcfg]
    rfl
  rw [Dev.settleEdge]
  exact if_pos (by rw [hreset])

/-- At rest the fabric has stored the values of long lines alone. -/
theorem Dev.rest_unconfigured : d.rest.2.edgeView = d.edgeView := by
  have hview : d.combValues.2.edgeView = d.edgeView := d.freeLoops_edgeView _
  rw [Dev.rest, Dev.settleEdge_unconfigured h, Dev.storeComb, (d.noMac_combValues h).range]
  exact hview

theorem Dev.clockMacs_unconfigured (k : SMap Nat) (sel : Nat → Bool) : d.clockMacs k sel = d := by
  rw [Dev.clockMacs, Dev.macs_unconfigured h]
  rfl

theorem Dev.ripple_unconfigured (k : SMap Nat) (n : Nat) : (d.ripple k n).edgeView = d.edgeView := by
  induction n generalizing d k with
  | zero => rfl
  | succ n ih =>
    have hrest := d.rest_unconfigured h
    rw [Dev.ripple]
    generalize d.rest = x at hrest ⊢
    have hclock (p : SMap Nat) (sel : Nat → Bool) : (({ x.2 with edge := { x.2.edge with ptPrev := p } } : Dev).clockMacs k sel).edgeView = d.edgeView :=
      (congrArg Dev.edgeView (Dev.clockMacs_unconfigured (d := { x.2 with edge := { x.2.edge with ptPrev := p } }) (Dev.cfg_of_edgeView hrest h) k sel)).trans hrest
    exact iteInduction (motive := fun e : Dev => e.edgeView = d.edgeView) (fun _ => hrest)
      fun _ => (ih (Dev.cfg_of_edgeView (hclock _ _) h) _).trans (hclock _ _)

theorem Dev.clockTrees_unconfigured (k : SMap Nat) (rise fall : Nat) : (d.clockTrees k rise fall).edgeView = d.edgeView := by
  have hripple (high n : Nat) : (({ d with edge := { d.edge with high := high } } : Dev).ripple k n).edgeView = d.edgeView :=
    Dev.ripple_unconfigured (d := { d with edge := { d.edge with high := high } }) h k n
  have hmacs (high : Nat) (sel : Nat → Bool) : ({ d with edge := { d.edge with high := high } } : Dev).clockMacs k sel = { d with edge := { d.edge with high := high } } :=
    Dev.clockMacs_unconfigured (d := { d with edge := { d.edge with high := high } }) h k sel
  rw [Dev.clockTrees, hmacs]
  exact hripple _ _

theorem Dev.ageFifos_unconfigured (rise : Nat) : d.ageFifos rise = d := by
  rw [Dev.ageFifos, h]
  rfl

theorem Dev.finishAccesses_unconfigured : d.finishAccesses = d := by
  rw [Dev.finishAccesses, h]
  dsimp only [SMap.range, List.filter_nil, forAll, List.foldl_nil]

/-- Without drivers no long line has a conflict. -/
theorem Dev.lineConflicts_unconfigured (k : SMap Nat) : d.lineConflicts k = d :=
  List.foldlRecOn (motive := fun e => e = d) _ _ rfl fun e he l _ => by
    subst he
    exact if_neg (by rw [Dev.lineDrivers_unconfigured h, List.filter_nil]; decide)

/-- The end of a GCT0 cycle counts and stamps the edge. -/
theorem Dev.endCycle_unconfigured (k : SMap Nat) : (d.endCycle k).edgeView = d.edgeView.counted := by
  have hevents : (d.shiftProbes k).userEvents k = d.shiftProbes k := if_pos (by rw [Dev.shiftProbes, h]; rfl)
  rw [Dev.endCycle, Dev.lineConflicts_unconfigured h, hevents]
  rfl

/-- GCT0 alone has a source. -/
theorem Dev.outerTrees_unconfigured : d.outerTrees 1 = 1 := by
  simp only [Dev.outerTrees, Dev.treeSource_unconfigured h]
  decide

/-- A rising edge of GCT0 is counted and stamped, and that is all. -/
theorem Dev.edgeClock_unconfigured (t fall levels : Nat) : (d.edgeClock t 1 fall levels).edgeView = (d.toTime t).edgeView.counted := by
  unfold Dev.edgeClock
  extract_lets d0 r0 f0 x d1 d2 r f _ d3
  have h0 : d0.edgeView = (d.toTime t).edgeView := by
    unfold d0
    rw [Dev.finishAccesses_unconfigured h, Dev.settlePins_edgeView]
  have hcfg0 : d0.edge.cfg = [] := Dev.cfg_of_edgeView h0 ((congrArg Edge.cfg (Dev.toTime_edge d t)).trans h)
  have h1 : d1.edgeView = d0.edgeView := (Dev.keepSignals_edgeView _ _).trans (Dev.rest_unconfigured (d := d0.takeInputs levels 0 0) hcfg0)
  have hcfg1 := Dev.cfg_of_edgeView h1 hcfg0
  have hrises : isSet r0 0 = true := by
    unfold r0
    rw [Dev.outerTrees_unconfigured hcfg0]
    decide
  have h2 : d2.edgeView = d1.edgeView.counted :=
    (congrArg Dev.edgeView (if_pos hrises)).trans (Dev.endCycle_unconfigured hcfg1 x.1)
  clear_value d2 d1
  have hcfg3 : d3.edge.cfg = [] := (congrArg EdgeView.cfg h2).trans hcfg1
  have h4 : (d3.clockTrees x.1 r f).edgeView = d2.edgeView := Dev.clockTrees_unconfigured hcfg3 _ _ _
  have hcfg4 := Dev.cfg_of_edgeView h4 hcfg3
  rw [Dev.ageFifos_unconfigured hcfg4, Dev.restEdge, Dev.rest_unconfigured hcfg4, h4, h2, h1, h0]

end Unconfigured

/-! PLL locks, probe selections and PRESENT_CFG. -/

/-- PLL `n` is enabled by its word; where no clock frame is loaded, PLL0 is (R215). -/
def Dev.pllOn (d : Dev) (n : Nat) : Prop :=
  if SMap.get d.edge.cfg 0x30000 = [] then n = 0 else isSet (leAt (SMap.get d.edge.cfg 0x30000) (8 * n) 8) 0 = true

theorem Dev.pllOn_iff (d : Dev) (n : Nat) :
    (if SMap.get d.edge.cfg 0x30000 = [] then n == 0 else isSet (leAt (SMap.get d.edge.cfg 0x30000) (8 * n) 8) 0) = true ↔ d.pllOn n := by
  unfold Dev.pllOn
  split_ifs
  · exact beq_iff_eq
  · rfl

theorem Dev.pllLock_of_off {d : Dev} {n : Nat} (h : ¬ d.pllOn n) : d.pllLock n = d :=
  if_pos (by rw [Bool.not_eq_true', ← Bool.not_eq_true, Dev.pllOn_iff]; exact h)

theorem Dev.pllLock_of_on {d : Dev} {n : Nat} (hn : n < 2) (h : d.pllOn n) :
    d.pllLock n = if n = 0 then d.wr R.EDGE.EDGE_STATUS_PLL0_LOCK 1 else d.wr R.EDGE.EDGE_STATUS_PLL1_LOCK 1 := by
  have hlocks : d.pllLock n = if n = 0 then d.wr R.EDGE.EDGE_STATUS_PLL0_LOCK 1 else if n = 1 then d.wr R.EDGE.EDGE_STATUS_PLL1_LOCK 1 else d :=
    if_neg (by rw [Bool.not_eq_true', ← Bool.not_eq_true, Dev.pllOn_iff]; exact not_not.mpr h)
  rw [hlocks]
  obtain rfl | rfl : n = 0 ∨ n = 1 := by omega
  · rfl
  · rfl

theorem Dev.presentCfgWrite_atWrite (d : Dev) (w t : Nat) : (d.atWrite t).presentCfgWrite w =
    if d.running = true ∨ fieldAt w 0 4 = 0 ∨ fieldAt w 4 16 < 3 then (d.atWrite t).wr R.EDGE.EDGE_STATUS_WRITE_REFUSED 1
    else ((d.atWrite t).wr R.EDGE.PRESENT_CFG_P w).wr R.EDGE.PRESENT_CFG_OFF (w / 16) := by
  rw [Dev.presentCfgWrite, Dev.running_atWrite]

/-- Settles O21: the clock event of a fabric for which nothing is configured, and each register by its rule. -/
theorem edgeClockAndRegisters : Obligations.EdgeClockAndRegisters := by
  unfold Obligations.EdgeClockAndRegisters
  refine ⟨?counts, fun s rise fall levels t => State.onDev_after rfl, ?locks, ?unlocked, ?probe, ?presentCfg, ?refused, ?noUnit⟩
  case counts =>
    intro s fall levels t hcfg _
    obtain ⟨hedges, hlast, hperiod, harr, hbmem, hmac⟩ := Dev.fields_of_counted (Dev.edgeClock_unconfigured hcfg t fall levels)
    rw [Dev.toTime_edge] at hedges hperiod hbmem hmac
    rw [Dev.toTime_arr] at harr
    exact ⟨{ s with dev := s.dev.edgeClock t 1 fall levels }, rfl, hedges, hlast, hperiod, harr, hbmem, hmac, rfl, rfl⟩
  case locks => exact fun s n hn hon => State.onUnit_after (decide_eq_true hn) (Dev.pllLock_of_on hn hon)
  case unlocked => exact fun s n hn hoff => State.onUnit_unchanged (decide_eq_true hn) (Dev.pllLock_of_off hoff)
  case probe => exact fun s k w t hk h => State.onUnit_row (decide_eq_true hk) h rfl
  case presentCfg =>
    intro s w t h hrun hp hoff
    exact State.onDev_row h ((Dev.presentCfgWrite_atWrite s.dev w t).trans (if_neg (by simp only [hrun, Bool.false_eq_true, false_or]; omega)))
  case refused => exact fun s w t h hrefused => State.onDev_row h ((Dev.presentCfgWrite_atWrite s.dev w t).trans (if_pos hrefused))
  case noUnit =>
    exact fun s n k w t => ⟨fun hn => State.onUnit_fault _ _ (decide_eq_false (Nat.not_lt.mpr hn)), fun hk => State.onUnit_fault _ _ (decide_eq_false (Nat.not_lt.mpr hk))⟩

end Sys2Proof.Machine

/-! PROOFS. Who may change the envelope unit (spec/09 R254, R257, spec/18 R469, R492). -/

namespace Sys2Proof.Machine

/-- An envelope unit that a boot has locked, or that a reset has unloaded. -/
def Envelope.Closed (v : Envelope) : Prop := v.locked = true ∨ v = default

theorem State.envelopeSealed_iff (s : State) : s.envelopeSealed = true ↔ s.envelope.Closed := by
  simp only [State.envelopeSealed, Envelope.Closed, Bool.or_eq_true, decide_eq_true_eq]

/-! A reset device. -/

theorem Dev.fresh_inReset (part : Part) : (Dev.fresh part).mg.inReset = true := by
  unfold Dev.fresh
  dsimp only
  split_ifs <;> rfl

theorem Dev.por_inReset (d : Dev) : d.por.mg.inReset = true := Dev.fresh_inReset d.part

theorem Dev.deviceReset_inReset (cause : Nat) (d : Dev) : (d.deviceReset cause).mg.inReset = true := by
  have hcopied : ∀ (r : Reg) (n : Nat) (x : Dev), (forUpto n (fun k x => x.wrAt r 0 k (d.rdAt r 0 k)) x).mg = x.mg := fun r n x =>
    forAll_keeps Dev.mg (fun k x => x.wrAt r 0 k (d.rdAt r 0 k)) (fun _ _ => rfl) (List.range n) x
  unfold Dev.deviceReset
  simp only [Dev.wr_mg, hcopied]
  exact Dev.fresh_inReset d.part

theorem Dev.externalReset_inReset (cause t : Nat) (d : Dev) : (d.externalReset cause t).mg.inReset = true := Dev.deviceReset_inReset cause _

/-! A boot loads the envelope section of the settings block in use, locked, or none. -/

theorem Dev.bootImages_envelope (errors runs ms : Nat) (v : Envelope) (d : Dev) :
    (d.bootImages errors runs ms v).2 = v ∨ (d.bootImages errors runs ms v).2 = default := by
  unfold Dev.bootImages
  split
  · exact .inl rfl
  · split
    · exact .inl rfl
    · exact .inr rfl

theorem Dev.bootAll_envelope (errors runs : Nat) (mv : List Nat) (ms : Nat) (d : Dev) : (d.bootAll errors runs mv ms).2.Closed := by
  unfold Dev.bootAll
  dsimp only
  split
  · exact .inr rfl
  · split_ifs
    · obtain h | h := Dev.bootImages_envelope errors runs ms (envelopeOf (envelopeSection _)) _
      · exact .inl (congrArg Envelope.locked h)
      · exact .inr h
    · exact .inr rfl

/-- A boot of a device that is not in reset leaves the envelope unit alone (R182). -/
theorem Dev.boot_envelope (errors runs : Nat) (mv : List Nat) (t0 t : Nat) (v : Envelope) (d : Dev) :
    (d.boot errors runs mv t0 t v).2 = v ∨ d.mg.inReset = true ∧ (d.boot errors runs mv t0 t v).2.Closed := by
  unfold Dev.boot
  dsimp only
  split_ifs with h
  · simp only [Bool.and_eq_true, Dev.toTime_mg] at h
    exact .inr ⟨h.1.1, Dev.bootAll_envelope _ _ _ _ _⟩
  · exact .inl rfl

/-! What an answer leaves of the queue and of the envelope unit. -/

/-- In the state `s` a command, a boot where `boots` holds, keeps the queue; the envelope unit stays, or is blank with the device in reset, or has been loaded by the boot of a device
in reset. -/
def Answer.Seals (s : State) (boots : Prop) (r : Answer) : Prop :=
  ∀ u, r = .next u → u.pending = s.pending ∧
    (u.envelope = s.envelope ∨ u.envelope = default ∧ u.dev.mg.inReset = true ∨ boots ∧ s.dev.mg.inReset = true ∧ u.envelope.Closed)

namespace Answer.Seals

variable {s : State} {boots : Prop}

theorem onDev {f : Dev → Dev} : Answer.Seals s boots (s.onDev f) := fun _ hu =>
  have ⟨hq, he⟩ := State.onDev_pending hu
  ⟨hq, .inl he⟩

theorem onUnit {c : Bool} {f : Dev → Dev} : Answer.Seals s boots (s.onUnit c f) := fun _ hu =>
  have ⟨hq, he⟩ := State.onUnit_pending hu
  ⟨hq, .inl he⟩

theorem onFresh {f : Dev → Dev} (hf : (f s.dev).mg.inReset = true) : Answer.Seals s boots (s.onFresh f) := fun _ hu =>
  have ⟨hq, he⟩ := State.onFresh_pending hu
  ⟨hq, .inr (.inl ⟨he, by cases hu; exact hf⟩)⟩

theorem onEnvelope {f : Dev → Dev} : Answer.Seals s boots (s.onEnvelope f) := fun _ hu =>
  have ⟨hq, he⟩ := State.onEnvelope_pending hu
  ⟨hq, he.imp_right fun ⟨hr, hd⟩ => .inl ⟨hd, hr⟩⟩

theorem boot {errors runs t0 t : Nat} {mv : List Nat} (h : boots) : Answer.Seals s boots (execBoot errors runs mv t0 t s) := fun _ hu =>
  ⟨State.onBoot_pending hu, by
    cases hu
    exact (Dev.boot_envelope errors runs mv t0 t s.envelope s.dev).imp_right fun hd => .inr ⟨h, hd⟩⟩

theorem fault {f : Fault} : Answer.Seals s boots (.fault f) := fun _ hu => nomatch hu

theorem ite {c : Prop} [Decidable c] {a b : Answer} (ha : Answer.Seals s boots a) (hb : Answer.Seals s boots b) : Answer.Seals s boots (if c then a else b) := by
  split <;> assumption

/-- Each command by the way in which it acts on the state: on the device; on a unit of it; on the envelope unit too where it may reset the device, where it does reset it, and where
it is a boot. -/
theorem exec {c : Instr} : Answer.Seals s (∃ errors runs mv t0 t, c = .boot errors runs mv t0 t) (exec c s) :=
  match c with
  | .belayEntry | .snapshot .. | .belayConditionsMet .. | .belayRelease .. | .belayTimeout .. | .tickEdge .. | .presentation .. | .start .. | .halt ..
    | .takeWatchdog .. | .wdogPeriodUsWrite .. | .takeCtrlWrite .. | .injectThroughWrite .. | .checkCtrlWrite .. | .slate .. | .instrFrame ..
    | .stateFrame .. | .bankFrame .. | .laneFrame .. | .pitchFrame .. | .edgeFrame .. | .pinFrame .. | .timebaseFrame .. | .loadEnd ..
    | .regionRelease .. | .stateAck .. | .productionIdWrite .. | .stagedGlobalRelease .. | .releaseStage1 | .releaseStage2 | .releaseStage3
    | .edgeClockCycle .. | .presentCfgWrite .. | .timeWrap .. | .addendWrite .. | .jumpAccept .. | .jumpReject .. | .resume .. | .syncInterval ..
    | .ptmExchange .. | .syncLoss .. | .inflightPeakRead .. | .bar2Read .. | .bar2Write .. | .bar2OffsetHiWrite .. | .bar4Read .. | .bar4Write ..
    | .go .. | .invalidationDone | .commitFences .. | .fenceCommitted | .fenceLock .. | .ddrRetrain .. | .tokenPost .. | .rspTimeout ..
    | .checkModeWrite .. | .routerDrained .. | .targetWrite .. | .bivouacEntry .. | .pcieDStateChange .. | .limiterSample .. | .attach ..
    | .watchCtrlWrite .. | .bapGo .. | .bapDone .. | .newNonce .. | .unlock .. | .unlockEraseDone .. | .extest .. | .samplePreload .. | .idcode ..
    | .bypass .. | .testLogicReset .. | .traceEnableWrite .. | .flush .. | .sinkRestart .. | .sinkLineWrite .. | .traceOverflow .. | .tsPeriod ..
    | .snapReq .. | .mgmtWatchdog .. | .mgmtRestart .. | .doorbell .. | .mboxReply .. | .getInfo .. | .logRead .. | .counterRead .. | .counterRaise ..
    | .updateBegin .. | .updateData .. | .updateCommit .. | .sensorRead .. | .i2cXfer .. | .clear .. | .test .. | .estopInput .. | .estopDeassert ..
    | .instructionStoreScrub .. | .edgeScrub .. | .thermalSample .. | .stepMhzWrite .. | .stepPllLock .. | .arrayReset .. | .edgeReset .. | .flrPf0 ..
    | .flrPf1 .. | .referenceReturn .. | .offsetAbsorbed .. | .tapHoldsDbgAccess .. => .onDev
  | .nop .. | .eval .. | .evalDrive .. | .commit .. | .commitDrive .. | .memAddr .. | .memWdata .. | .memGo .. | .farAddr .. | .farData .. | .farGo ..
    | .edgeOut .. | .probe .. | .reservedMode .. | .bankArrayCycle .. | .farResponse .. | .bankCtrlWrite .. | .farCtrlWrite .. | .blockMemoryAccess ..
    | .fifoWrite .. | .fifoPop .. | .edgePllLock .. | .probeSelWrite .. | .pinCfgHiWrite .. | .keeperWindowEnd .. | .lockKey .. | .lock ..
    | .lockSeqTimeout .. | .matchCtrlWrite .. | .pinMatch .. | .pinLevelRequest .. | .minPulseElapsed .. | .rateWindowEnd .. | .outputReadback ..
    | .dividerCount .. | .periodicInstant .. | .triggerEdge .. | .zeroCrossEdge .. | .lineSyncEdge .. | .encoderCount .. | .index .. | .lostTimeout ..
    | .substituteTick .. | .tbCfgWrite .. | .pulseCtrlWrite .. | .pulseBoundary .. | .captureEdge .. | .stampLoRead .. | .trigPulseEnd .. | .enable ..
    | .retrain .. | .peerClockActivity .. | .receivePllLock .. | .bitLockDone .. | .symbolLockDone .. | .linkStateTimeout .. | .exchangeA ..
    | .exchangeB .. | .exchangeC .. | .linkFrameSend .. | .linkFrameReceive .. | .replayTimeout .. | .linkLos .. | .linkLol .. | .announce ..
    | .sync .. | .followUp .. | .delayReq .. | .delayResp .. | .tick .. | .ready .. | .release .. | .stop .. | .startCheck .. | .lowrateReq ..
    | .lowrateAck .. | .fullrateReq .. | .txEqWrite .. | .ctxRootWrite .. | .ddrChannelReady .. | .ddrInitFailed .. | .patrolScrubRead ..
    | .ddrRefresh .. | .dimmTempRead .. | .sqTailWrite .. | .cqHeadWrite .. | .qCtrlWrite .. | .queueReset .. | .descriptorFetch .. | .itemDispatch ..
    | .restartPoint .. | .itemCompletion .. | .copy .. | .fill .. | .loadFrames .. | .readback .. | .verify .. | .inject .. | .capture ..
    | .restore .. | .checksum .. | .traceDrain .. | .erase .. | .fence .. | .token .. | .timer .. | .timerDue .. | .mailbox .. | .nocPacketArrival ..
    | .domCtrlWrite .. | .pointOfNoReturn .. | .domainOff .. | .clockMonitor .. | .pageLockWrite .. | .evRouteWrite .. | .evRaisedClear ..
    | .evEnableWrite .. | .evForceWrite .. | .msixVectorUnmask .. | .railEntersWindow .. => .onUnit
  | .registerWrite .. | .dbgAccess .. | .resetCtrlDevice .. => .onEnvelope
  | .domainOn .. => .ite .onEnvelope .fault
  | .por => .onFresh (Dev.por_inReset _)
  | .voltageMonitor .. => .ite (.onFresh (Dev.por_inReset _)) .onUnit
  | .deviceReset .. => .onFresh (Dev.externalReset_inReset _ _ _)
  | .boot .. => .boot ⟨_, _, _, _, _, rfl⟩

end Answer.Seals

/-- The command at the front of the queue is taken off, and answers. -/
theorem step_seals {s u : State} {c : Instr} {rest : List Instr} (hq : s.pending = c :: rest) (hu : step s = .next u) : u.pending = rest ∧
    (u.envelope = s.envelope ∨ u.envelope = default ∧ u.dev.mg.inReset = true ∨
      (∃ errors runs mv t0 t, c = .boot errors runs mv t0 t) ∧ s.dev.mg.inReset = true ∧ u.envelope.Closed) := by
  rw [stepRunsFront s c rest hq] at hu
  exact Answer.Seals.exec (s := { s with pending := rest }) u hu

theorem step_idle {s : State} (hq : s.pending = []) : step s = .next { s with dev := s.dev.idleCycle } := by
  unfold step
  rw [hq]

/-- Settles O58: each command by the way in which it acts on the state; a step on an empty queue acts on the device alone. -/
theorem envelopeIsSealed : Obligations.EnvelopeIsSealed := by
  unfold Obligations.EnvelopeIsSealed
  refine ⟨?changes, ?stays, ?idle⟩
  case changes =>
    intro s u c rest hq hu
    obtain ⟨hrest, henv⟩ := step_seals hq hu
    exact ⟨hrest, henv.imp_right (Or.imp_right fun ⟨hboot, hreset, _⟩ => ⟨hboot, hreset⟩)⟩
  case stays =>
    intro s u hs hu
    rw [State.envelopeSealed_iff] at hs ⊢
    cases hq : s.pending with
    | nil =>
      rw [step_idle hq] at hu
      cases hu
      exact hs
    | cons c rest =>
      obtain ⟨_, hkept | ⟨hblank, _⟩ | ⟨_, _, hloaded⟩⟩ := step_seals hq hu
      · rwa [hkept]
      · exact .inr hblank
      · exact hloaded
  case idle => exact fun s hq => ⟨_, step_idle hq, rfl, hq⟩

end Sys2Proof.Machine

/-! PROOFS. What the envelope lets a pad take (spec/09 R254 to R262). -/

namespace Sys2Proof.Machine

/-! Records, events and the array fault stop, which a fault of the envelope can bring about, move no pad: HALT changes what governs the pins, not their pads (R252).  Each
function has one lemma here, under the function's own name, whose proof term repeats its definition. -/

/-- The pads stand at `m`. -/
def Dev.PadsAre (m : SMap Nat) (d : Dev) : Prop := d.pins.pads = m

namespace Dev.PadsAre

variable {m : SMap Nat} {d : Dev}

theorem ite {c : Prop} [Decidable c] {a b : Dev} (ha : a.PadsAre m) (hb : b.PadsAre m) : (if c then a else b).PadsAre m := by split <;> assumption

theorem ite_record {c : Prop} [Decidable c] {a b : FRec × Bool × Dev} (ha : a.2.2.PadsAre m) (hb : b.2.2.PadsAre m) : (if c then a else b).2.2.PadsAre m := by
  split <;> assumption

theorem forAll {α : Type} {f : α → Dev → Dev} {l : List α} (hf : ∀ {a e}, Dev.PadsAre m e → (f a e).PadsAre m) (h : d.PadsAre m) : (forAll l f d).PadsAre m :=
  List.foldlRecOn l _ h fun _ he _ _ => hf he

theorem wr {r : Reg} {v : Nat} (h : d.PadsAre m) : (d.wr r v).PadsAre m := h

theorem bump {r : Reg} (h : d.PadsAre m) : (d.bump r).PadsAre m := h

theorem count {u k n : Nat} (h : d.PadsAre m) : (d.count u k n).PadsAre m := h

theorem tracePacket {bs : Bytes} (h : d.PadsAre m) : (d.tracePacket bs).PadsAre m := .ite (.ite h h) h

theorem traceFault {r : FRec} (h : d.PadsAre m) : (d.traceFault r).PadsAre m := .tracePacket h

theorem traceHalt {origin : Nat} (h : d.PadsAre m) : (d.traceHalt origin).PadsAre m := .tracePacket h

theorem accRead {key : Nat} (h : d.PadsAre m) : (d.accRead key).PadsAre m := by
  dsimp only [Dev.accRead]
  split
  · exact h
  · exact .ite h h

theorem accWrite {key : Nat} (h : d.PadsAre m) : (d.accWrite key).PadsAre m := by
  dsimp only [Dev.accWrite]
  split
  · exact h
  · refine .ite h ?_
    split
    · exact .ite h h
    · exact h

theorem bankCycles (h : d.PadsAre m) : d.bankCycles.PadsAre m := .forAll (fun hd => .forAll .accWrite <| .forAll .accRead hd) h

theorem handovers (h : d.PadsAre m) : d.handovers.PadsAre m := .forAll (fun hd => .ite hd <| .ite hd hd) h

theorem sendMsix {route : Nat} (h : d.PadsAre m) : (d.sendMsix route).PadsAre m := .ite h <| .ite h h

theorem flagEvent {src : Nat} (h : d.PadsAre m) : (d.flagEvent src).PadsAre m := .ite (.sendMsix h) h

theorem plainEvent {src : Nat} (h : d.PadsAre m) : (d.plainEvent src).PadsAre m := .ite (.traceFault <| .flagEvent h) <| .flagEvent h

theorem writeRecord {r : FRec} (h : d.PadsAre m) : (d.writeRecord r).2.2.PadsAre m := .ite_record h <| .ite_record h h

theorem routedRecord {src : Nat} (h : d.PadsAre m) : (d.routedRecord src).PadsAre m := .ite (.plainEvent <| .writeRecord h) <| .writeRecord h

theorem sendStop {code : Nat} (h : d.PadsAre m) : (d.sendStop code).PadsAre m := .ite (.forAll (l := List.range 8) (fun hd => .ite hd hd) h) h

theorem windowsFrom {start : Nat} {sel : Nat → Bool} (h : d.PadsAre m) : (d.windowsFrom start sel).PadsAre m := h

theorem pinTakes {p w edge : Nat} (h : d.PadsAre m) : (d.pinTakes p w edge).PadsAre m := .ite h <| .windowsFrom h

theorem settlePins (h : d.PadsAre m) : d.settlePins.PadsAre m := .forAll (fun hd => .ite hd <| .forAll .pinTakes hd) h

theorem pinsHalt (h : d.PadsAre m) : d.pinsHalt.PadsAre m := .ite h <| .windowsFrom <| .settlePins h

theorem deliverReads (h : d.PadsAre m) : d.deliverReads.PadsAre m := h

theorem discardShadows (h : d.PadsAre m) : d.discardShadows.PadsAre m := h

theorem keepInjects (h : d.PadsAre m) : d.keepInjects.PadsAre m := h

theorem discardRequests (h : d.PadsAre m) : d.discardRequests.PadsAre m := h

theorem dropInstants (h : d.PadsAre m) : d.dropInstants.PadsAre m := h

theorem abandonTake (h : d.PadsAre m) : d.abandonTake.PadsAre m := by
  unfold Dev.abandonTake
  extract_lets d0 _ d1 _ _ d2 d3
  have h0 : d0.PadsAre m := .pinsHalt <| .dropInstants <| .discardRequests <| .keepInjects <| .discardShadows <| .deliverReads <| .bankCycles h
  have h3 : d3.PadsAre m := .handovers <| .count <| .wr h0
  exact h3

theorem stopForSafe {code : Nat} (h : d.PadsAre m) : (d.stopForSafe code).PadsAre m := .ite (.ite (.traceHalt <| .sendStop <| .abandonTake h) h) h

theorem enterSafe {r : FRec} {cause : Nat} (h : d.PadsAre m) : (d.enterSafe r cause).PadsAre m := by
  unfold Dev.enterSafe
  extract_lets d1 _ d2 d3 d4
  have h3 : d3.PadsAre m := .traceFault <| .plainEvent <| .wr h
  have h4 : d4.PadsAre m := .ite (.routedRecord h3) h3
  exact .ite h <| .ite h4 <| .stopForSafe h4

theorem event {src : Nat} (h : d.PadsAre m) : (d.event src).PadsAre m := .ite (.enterSafe <| .routedRecord <| .plainEvent h) <| .plainEvent h

theorem report {r : FRec} {packet : Bool} (h : d.PadsAre m) : (d.report r packet).PadsAre m := by
  unfold Dev.report
  extract_lets _ _ _ _ _ _ d1 d2 d3
  have h1 : d1.PadsAre m := .flagEvent <| .writeRecord h
  have h2 : d2.PadsAre m := .ite (.traceFault h1) h1
  have h3 : d3.PadsAre m := .ite (.event h2) h2
  exact .ite (.enterSafe h3) h3

theorem envFault {code detail : Nat} (h : d.PadsAre m) : (d.envFault code detail).PadsAre m := .report h

theorem setClamped {p : Nat} {on : Bool} (h : d.PadsAre m) : (d.setClamped p on).PadsAre m := .ite (.bump h) h

theorem unclamp {p : Nat} (h : d.PadsAre m) : (d.unclamp p).PadsAre m := .setClamped h

theorem clampPin {p q lv : Nat} (h : d.PadsAre m) : (d.clampPin p q lv).PadsAre m := .event <| .envFault <| .setClamped h

theorem delayPin {p kind : Nat} (h : d.PadsAre m) : (d.delayPin p kind).PadsAre m := .ite h <| .envFault <| .setClamped h

end Dev.PadsAre

/-! The pad of a pin. -/

theorem Dev.pad_of_pads {d e : Dev} (h : e.PadsAre d.pins.pads) (q : Nat) : e.pad q = d.pad q := by
  unfold Dev.pad
  rw [h]

theorem Dev.pad_unclamp (p q : Nat) (d : Dev) : (d.unclamp p).pad q = d.pad q := Dev.pad_of_pads (.unclamp rfl) q

theorem Dev.pad_setPad (d : Dev) (v : Envelope) (p lv q : Nat) : (d.setPad v p lv).pad q = if q = p then lv else d.pad q := by
  by_cases hlv : d.pad p = lv
  · have hkept : d.setPad v p lv = d := if_pos hlv
    rw [hkept]
    split_ifs with hq
    · rw [hq, hlv]
    · rfl
  · have hpads : (d.setPad v p lv).pins.pads = SMap.set d.pins.pads p lv := congrArg (fun e : Dev => e.pins.pads) (if_neg hlv)
    unfold Dev.pad
    rw [hpads, SMap.get_set]

/-- The pad takes a level, and a clamp of its pin ends. -/
theorem Dev.pad_unclamp_setPad (d : Dev) (v : Envelope) (p lv q : Nat) : ((d.unclamp p).setPad v p lv).pad q = if q = p then lv else d.pad q := by
  rw [Dev.pad_setPad, Dev.pad_unclamp]

/-- CLAMPED has the bit of a pin that is clamped; CLAMP_COUNT lies beside it (R264). -/
theorem Dev.rdAt_setClamped (d : Dev) (p : Nat) : (d.setClamped p true).rdAt R.ENV.CLAMPED 0 (p / 32) = putBit (d.rdAt R.ENV.CLAMPED 0 (p / 32)) (p % 32) 1 % 2 ^ 32 := by
  have hcount : R.ENV.CLAMPED.key 0 (p / 32) ≠ R.ENV.CLAMP_COUNT.key 0 0 := by
    simp only [Reg.key, R.ENV.CLAMPED, R.ENV.CLAMP_COUNT]
    omega
  unfold Dev.setClamped
  dsimp only
  split_ifs
  · exact (Dev.rdAt_bumpAt_ne _ hcount).trans (Dev.rdAt_wrAt_same ..)
  · exact Dev.rdAt_wrAt_same ..

/-! A requested level by what the envelope makes of it (R258 to R260). -/

/-- The level `lv` is requested of pin `p`. -/
def Dev.requested (d : Dev) (p lv : Nat) : Dev := { d with pins := { d.pins with request := SMap.set d.pins.request p lv } }

/-- What becomes of a request that neither MIN_PULSE nor the rate limit holds back, by the pairs that forbid it. -/
def Dev.contest (d : Dev) (v : Envelope) (p lv : Nat) (r : List Nat) : Dev :=
  match lowest (r ++ d.interlocks v p lv) with
  | some c => (d.requested p lv).clampPin p c lv
  | none => ((d.requested p lv).unclamp p).setPad v p lv

section Permit

variable {d : Dev} {v : Envelope} {p lv : Nat} {r : List Nat}

theorem Dev.contest_lost {c : Nat} (h : lowest (r ++ d.interlocks v p lv) = some c) : d.contest v p lv r = (d.requested p lv).clampPin p c lv := by
  unfold Dev.contest
  rw [h]

theorem Dev.contest_won (h : d.interlocks v p lv = []) : d.contest v p lv [] = ((d.requested p lv).unclamp p).setPad v p lv := by
  unfold Dev.contest
  rw [h]
  rfl

/-- Without an envelope that acts, the pad takes what is requested. -/
theorem Dev.permit_unbound (h : v.acts = false) : d.permit v p lv r = ((d.requested p lv).unclamp p).setPad v p lv := if_pos (by rw [h]; rfl)

variable (ha : v.acts = true) (hc : SMap.get d.pins.clamp p ≠ lv ∨ lv = 0)
include ha hc

/-- The limits of the envelope, in the order in which they act on a pin that is not clamped at the level requested. -/
theorem Dev.permit_bound : d.permit v p lv r =
    if d.pad p = lv then (d.requested p lv).unclamp p
    else if d.pulseHolds v p && decide (r = []) then (d.requested p lv).delayPin p 0
    else if d.rateHolds v p && decide (r = []) then (d.requested p lv).delayPin p 1
    else d.contest v p lv r :=
  (if_neg (by rw [ha]; nofun)).trans (if_neg fun ⟨hlv, h0⟩ => hc.elim (· hlv) h0)

theorem Dev.permit_same (h : d.pad p = lv) : d.permit v p lv r = (d.requested p lv).unclamp p := (Dev.permit_bound ha hc).trans (if_pos h)

variable (h : d.pad p ≠ lv)
include h

theorem Dev.permit_delays (hheld : d.pulseHolds v p = true ∨ d.rateHolds v p = true) : ∃ kind, d.permit v p lv [] = (d.requested p lv).delayPin p kind := by
  rw [Dev.permit_bound ha hc, if_neg h]
  simp only [decide_true, Bool.and_true]
  split_ifs with hpulse hrate
  · exact ⟨0, rfl⟩
  · exact ⟨1, rfl⟩
  · exact (hheld.elim hpulse hrate).elim

theorem Dev.permit_contest (hfree : r = [] → d.pulseHolds v p = false ∧ d.rateHolds v p = false) : d.permit v p lv r = d.contest v p lv r := by
  have hpulse : ¬ (d.pulseHolds v p && decide (r = [])) = true := by
    rw [Bool.and_eq_true, decide_eq_true_eq]
    exact fun ⟨hp, hr⟩ => Bool.false_ne_true ((hfree hr).1.symm.trans hp)
  have hrate : ¬ (d.rateHolds v p && decide (r = [])) = true := by
    rw [Bool.and_eq_true, decide_eq_true_eq]
    exact fun ⟨hp, hr⟩ => Bool.false_ne_true ((hfree hr).2.symm.trans hp)
  rw [Dev.permit_bound ha hc, if_neg h, if_neg hpulse, if_neg hrate]

end Permit

theorem Envelope.safePad_eq (v : Envelope) (p : Nat) :
    v.safePad p = if v.acts = false then 0 else if v.safeMode p = 4 then 1 else if v.safeMode p = 5 then 2 else 0 := by
  unfold Envelope.safePad
  simp only [Bool.not_eq_true']

/-- Settles O23: the pad by what the envelope makes of a request. -/
theorem envelopePermits : Obligations.EnvelopePermits := by
  unfold Obligations.EnvelopePermits
  refine ⟨?unbound, ?granted, ?clamped, ?delayed, ?same, fun d p => d.rdAt_setClamped p, ?safe⟩
  case unbound =>
    intro d v p lv q r ha
    rw [Dev.permit_unbound ha]
    exact Dev.pad_unclamp_setPad ..
  case granted =>
    intro d v p lv q ha hc hpulse hrate hpairs
    by_cases h : d.pad p = lv
    · rw [Dev.permit_same ha hc h, Dev.pad_unclamp]
      split_ifs with hq
      · rw [hq]
        exact h
      · rfl
    · rw [Dev.permit_contest ha hc h fun _ => ⟨hpulse, hrate⟩, Dev.contest_won hpairs]
      exact Dev.pad_unclamp_setPad ..
  case clamped =>
    intro d v p lv c r ha hc h hfree hlow
    rw [Dev.permit_contest ha hc h hfree, Dev.contest_lost hlow]
    exact ⟨rfl, Dev.PadsAre.clampPin rfl⟩
  case delayed =>
    intro d v p lv ha hc h hheld
    obtain ⟨kind, hdelay⟩ := Dev.permit_delays ha hc h hheld
    rw [hdelay]
    exact Dev.PadsAre.delayPin rfl
  case same => exact fun d v p lv r ha hc h => Dev.permit_same ha hc h
  case safe =>
    intro d v p ext q hsafe
    rw [← Envelope.safePad_eq, Dev.drivePin, if_pos hsafe]
    exact Dev.pad_unclamp_setPad ..

end Sys2Proof.Machine

/-! PROOFS. The pattern matchers (spec/09 R250, R251). -/

namespace Sys2Proof.Machine

/-! Keys of registers: pages of a kind are alike, and the pages of pins and matchers lie above the counters. -/

theorem Reg.key_page (r : Reg) (n k : Nat) : r.key n k = r.key 0 k + 0x8000 * n := by
  unfold Reg.key
  omega

theorem Reg.key_page_ne {q r : Reg} {j k : Nat} (m : Nat) (h : q.key 0 j ≠ r.key 0 k) : q.key m j ≠ r.key m k := by
  rw [Reg.key_page q, Reg.key_page r]
  omega

/-- A register of the page of a bank of pins or of a matcher, or of a page above, is none of the counters. -/
theorem Dev.rdAt_atWrite_pinPage (d : Dev) (t : Nat) {q : Reg} (m j : Nat) (hq : 0x301000 ≤ q.base) : (d.atWrite t).rdAt q m j = d.rdAt q m j := by
  refine Dev.rdAt_atWrite d t ?_
  simp only [Reg.key, R.CNT.LIVE]
  omega

/-! Words of pins that take effect change no register (R245). -/

theorem Dev.pinTakes_regs (p w edge : Nat) (d : Dev) : (d.pinTakes p w edge).regs = d.regs :=
  iteInduction (motive := fun e : Dev => e.regs = d.regs) (fun _ => rfl) fun _ => rfl

theorem Dev.settlePin_regs (p : Nat) (d : Dev) : (d.settlePin p).regs = d.regs :=
  iteInduction (motive := fun e : Dev => e.regs = d.regs) (fun _ => rfl) fun _ => forAll_keeps Dev.regs _ (fun (x : Nat × Nat) e => e.pinTakes_regs p x.1 x.2) _ _

@[simp] theorem Dev.settlePins_regs (d : Dev) : d.settlePins.regs = d.regs :=
  forAll_keeps Dev.regs (fun (x : Nat × List (Nat × Nat)) e => e.settlePin x.1) (fun x e => e.settlePin_regs x.1) _ _

/-- The device that a matcher sees reads the registers as they stand. -/
theorem Dev.rdAt_sampled (d : Dev) (t levels : Nat) (q : Reg) (m j : Nat) : ((d.toTime t).settlePins.samplePins levels).rdAt q m j = d.rdAt q m j :=
  Dev.rdAt_congr ((Dev.settlePins_regs _).trans (Dev.toTime_regs d t)) q m j

/-- A command of a unit of the pins ends with a look at the input pins of the time bases (spec/10 R276). -/
theorem State.onUnit_watched {s : State} {c : Bool} {f g : Dev → Dev} (hc : c = true) (h : f s.dev = g s.dev) :
    s.onUnit c (fun d => (f d).watchTbPins) = .next (s.after fun d => (g d).watchTbPins) :=
  State.onUnit_after hc (congrArg Dev.watchTbPins h)

/-! The raw and the filtered match. -/

section Match

variable {d : Dev} {m raw since v : Nat}

theorem Dev.rdAt_setRaw (h : raw < 2) : (d.setRaw m raw since).rdAt R.MATCH.MATCH_STATUS_RAW m 0 = raw :=
  (Dev.rdAt_wrAt_same d R.MATCH.MATCH_STATUS_RAW m 0 raw).trans (Nat.mod_eq_of_lt h)

theorem Dev.rdAt_setRaw_ne {q : Reg} {n j : Nat} (h : q.key n j ≠ R.MATCH.MATCH_STATUS_RAW.key m 0) : (d.setRaw m raw since).rdAt q n j = d.rdAt q n j :=
  Dev.rdAt_wrAt_ne d raw h

theorem Dev.rawSince_setRaw : SMap.get (d.setRaw m raw since).pins.rawSince m =
    if SMap.get d.pins.rawSince m ≠ 0 ∧ d.rdAt R.MATCH.MATCH_STATUS_RAW m 0 = raw then SMap.get d.pins.rawSince m else since + 1 := by
  unfold Dev.setRaw
  simp only [Bool.and_eq_true, decide_eq_true_eq, beq_iff_eq]
  split_ifs
  · rfl
  · exact SMap.get_set_same ..

theorem Dev.rdAt_setFiltered (h : v < 2) : (d.setFiltered m v).rdAt R.MATCH.MATCH_STATUS_FILTERED m 0 = v :=
  (Dev.rdAt_wrAt_same d R.MATCH.MATCH_STATUS_FILTERED m 0 v).trans (Nat.mod_eq_of_lt h)

theorem Dev.rdAt_setFiltered_ne {q : Reg} {n j : Nat} (h : q.key n j ≠ R.MATCH.MATCH_STATUS_FILTERED.key m 0) : (d.setFiltered m v).rdAt q n j = d.rdAt q n j :=
  Dev.rdAt_wrAt_ne d v h

theorem Dev.filterAt_setFiltered : SMap.get (d.setFiltered m v).pins.filterAt m = d.stamp := SMap.get_set_same ..

theorem bit_lt (b : Bool) : bit b < 2 := by cases b <;> decide

theorem Dev.rawMatch_lt (d : Dev) (m : Nat) : d.rawMatch m < 2 := bit_lt _

/-- The raw match rests on the pins and on the selection, VALUE and MASK of the matcher. -/
theorem Dev.rawMatch_congr {e : Dev} (hpins : e.pins = d.pins) (hmono : e.mono = d.mono) (hpin : ∀ i, e.rdAt R.MATCH.SEL_PIN m i = d.rdAt R.MATCH.SEL_PIN m i)
    (hsel : ∀ i, e.rdAt R.MATCH.SEL_ENABLE m i = d.rdAt R.MATCH.SEL_ENABLE m i) (hvalue : e.rdAt R.MATCH.VALUE m 0 = d.rdAt R.MATCH.VALUE m 0)
    (hmask : e.rdAt R.MATCH.MASK m 0 = d.rdAt R.MATCH.MASK m 0) : e.rawMatch m = d.rawMatch m := by
  unfold Dev.rawMatch Dev.matchWord Dev.inWindow
  simp only [hpins, hmono, hpin, hsel, hvalue, hmask]

/-! MATCH_CTRL (R251). -/

variable {w : Nat}

theorem isSet_zero (w : Nat) : isSet w 0 = true ↔ w % 2 = 1 := by
  unfold isSet bitAt
  rw [Nat.pow_zero, Nat.div_one, beq_iff_eq]

/-- The fields of MATCH_CTRL take the word. -/
def Dev.matchCtrlSet (d : Dev) (m w : Nat) : Dev :=
  ((d.wrAt R.MATCH.MATCH_CTRL_ENABLE m 0 w).wrAt R.MATCH.MATCH_CTRL_MODE m 0 (w / 2)).wrAt R.MATCH.MATCH_CTRL_DEBOUNCE m 0 (w / 2 ^ 16)

theorem Dev.rdAt_matchCtrlSet {q : Reg} {j : Nat} (henable : q.key 0 j ≠ R.MATCH.MATCH_CTRL_ENABLE.key 0 0) (hmode : q.key 0 j ≠ R.MATCH.MATCH_CTRL_MODE.key 0 0)
    (hdebounce : q.key 0 j ≠ R.MATCH.MATCH_CTRL_DEBOUNCE.key 0 0) : (d.matchCtrlSet m w).rdAt q m j = d.rdAt q m j := by
  unfold Dev.matchCtrlSet
  rw [Dev.rdAt_wrAt_ne _ _ (Reg.key_page_ne m hdebounce), Dev.rdAt_wrAt_ne _ _ (Reg.key_page_ne m hmode), Dev.rdAt_wrAt_ne _ _ (Reg.key_page_ne m henable)]

theorem Dev.matchCtrlSet_fields : (d.matchCtrlSet m w).rdAt R.MATCH.MATCH_CTRL_ENABLE m 0 = w % 2 ∧
    (d.matchCtrlSet m w).rdAt R.MATCH.MATCH_CTRL_MODE m 0 = w / 2 % 4 ∧ (d.matchCtrlSet m w).rdAt R.MATCH.MATCH_CTRL_DEBOUNCE m 0 = w / 2 ^ 16 % 2 ^ 16 := by
  unfold Dev.matchCtrlSet
  refine ⟨?_, ?_, Dev.rdAt_wrAt_same ..⟩
  · rw [Dev.rdAt_wrAt_ne _ _ (Reg.key_page_ne m (by decide)), Dev.rdAt_wrAt_ne _ _ (Reg.key_page_ne m (by decide))]
    exact Dev.rdAt_wrAt_same ..
  · rw [Dev.rdAt_wrAt_ne _ _ (Reg.key_page_ne m (by decide))]
    exact Dev.rdAt_wrAt_same ..

/-- No selection of a pin lies in MATCH_CTRL. -/
theorem Dev.rawMatch_matchCtrlSet : (d.matchCtrlSet m w).rawMatch m = d.rawMatch m := by
  have hselect : ∀ {q : Reg} (i : Nat), q.base = 0x310000 → 0x44 ≤ q.off → (d.matchCtrlSet m w).rdAt q m i = d.rdAt q m i := by
    intro q i hbase hoff
    apply Dev.rdAt_matchCtrlSet
    all_goals
      simp only [Reg.key, R.MATCH.MATCH_CTRL_ENABLE, R.MATCH.MATCH_CTRL_MODE, R.MATCH.MATCH_CTRL_DEBOUNCE]
      omega
  exact Dev.rawMatch_congr rfl rfl (fun i => hselect i rfl (by decide)) (fun i => hselect i rfl (by decide)) (hselect 0 rfl (by decide)) (hselect 0 rfl (by decide))

/-- The matcher takes the word; where the word enables it, its filtered match is preset. -/
def Dev.matchCtrlTaken (d : Dev) (m w : Nat) : Dev :=
  let d1 := d.matchCtrlSet m w
  if w % 2 = 1 then (d1.setRaw m (d1.rawMatch m) d1.mono).setFiltered m (d1.rawMatch m) else d1

theorem Dev.matchCtrlWrite_eq : d.matchCtrlWrite m w =
    if w / 2 % 4 = 3 ∨ d.rdAt R.MATCH.MATCH_CTRL_ENABLE m 0 = 1 ∧ w % 2 = 1 then d.wrAt R.MATCH.MATCH_STATUS_WRITE_REFUSED m 0 1 else d.matchCtrlTaken m w := by
  unfold Dev.matchCtrlWrite Dev.matchCtrlTaken Dev.matchCtrlSet
  simp only [Bool.and_eq_true, beq_iff_eq, isSet_zero, fieldAt, Nat.pow_one, Nat.reducePow]

theorem Dev.rdAt_matchCtrlTaken {q : Reg} (hraw : q.key 0 0 ≠ R.MATCH.MATCH_STATUS_RAW.key 0 0) (hfiltered : q.key 0 0 ≠ R.MATCH.MATCH_STATUS_FILTERED.key 0 0) :
    (d.matchCtrlTaken m w).rdAt q m 0 = (d.matchCtrlSet m w).rdAt q m 0 := by
  unfold Dev.matchCtrlTaken
  dsimp only
  split_ifs
  · rw [Dev.rdAt_setFiltered_ne (Reg.key_page_ne m hfiltered), Dev.rdAt_setRaw_ne (Reg.key_page_ne m hraw)]
  · rfl

theorem Dev.filtered_matchCtrlTaken : (d.matchCtrlTaken m w).rdAt R.MATCH.MATCH_STATUS_FILTERED m 0 =
    if w % 2 = 1 then d.rawMatch m else d.rdAt R.MATCH.MATCH_STATUS_FILTERED m 0 := by
  unfold Dev.matchCtrlTaken
  dsimp only
  split_ifs
  · rw [Dev.rdAt_setFiltered (Dev.rawMatch_lt ..), Dev.rawMatch_matchCtrlSet]
  · exact Dev.rdAt_matchCtrlSet (by decide) (by decide) (by decide)

/-! A cycle of an enabled matcher (R250, R251). -/

/-- The filtered match after a cycle with the raw match `raw`, which has stood since `since` where it is another than before. -/
def Dev.nextFiltered (d : Dev) (m raw since : Nat) : Nat :=
  if SMap.get (d.setRaw m raw since).pins.rawSince m - 1 + d.rdAt R.MATCH.MATCH_CTRL_DEBOUNCE m 0 * d.rd R.TIME.ADDEND ≤ d.mono then raw
  else d.rdAt R.MATCH.MATCH_STATUS_FILTERED m 0

theorem Dev.debounced_setRaw (hm : m < 16) : (d.setRaw m raw since).debounced m = true ↔
    SMap.get (d.setRaw m raw since).pins.rawSince m - 1 + d.rdAt R.MATCH.MATCH_CTRL_DEBOUNCE m 0 * d.rd R.TIME.ADDEND ≤ d.mono := by
  have hdebounce : (d.setRaw m raw since).rdAt R.MATCH.MATCH_CTRL_DEBOUNCE m 0 = d.rdAt R.MATCH.MATCH_CTRL_DEBOUNCE m 0 :=
    Dev.rdAt_setRaw_ne (Reg.key_page_ne m (by decide))
  have haddend : (d.setRaw m raw since).rd R.TIME.ADDEND = d.rd R.TIME.ADDEND := by
    refine Dev.rdAt_setRaw_ne ?_
    simp only [Reg.key, R.TIME.ADDEND, R.MATCH.MATCH_STATUS_RAW]
    omega
  unfold Dev.debounced Dev.auxCycle
  rw [hdebounce, haddend, decide_eq_true_eq]
  rfl

/-- The filtered match follows the raw match. -/
def Dev.matchFollows (d : Dev) (m raw since : Nat) : Dev :=
  if d.nextFiltered m raw since ≠ d.rdAt R.MATCH.MATCH_STATUS_FILTERED m 0 then (d.setRaw m raw since).setFiltered m (d.nextFiltered m raw since)
  else d.setRaw m raw since

theorem Dev.matchFollows_eq (hm : m < 16) : (if (d.setRaw m raw since).debounced m = true ∧ d.rdAt R.MATCH.MATCH_STATUS_FILTERED m 0 ≠ raw then
    (d.setRaw m raw since).setFiltered m raw else d.setRaw m raw since) = d.matchFollows m raw since := by
  unfold Dev.matchFollows Dev.nextFiltered
  simp only [Dev.debounced_setRaw hm]
  by_cases hstood : SMap.get (d.setRaw m raw since).pins.rawSince m - 1 + d.rdAt R.MATCH.MATCH_CTRL_DEBOUNCE m 0 * d.rd R.TIME.ADDEND ≤ d.mono
  · simp only [hstood, true_and, if_true, ne_comm]
  · simp only [hstood, false_and, if_false, ne_eq, not_true_eq_false]

theorem Dev.filtered_matchFollows (hraw : raw < 2) : (d.matchFollows m raw since).rdAt R.MATCH.MATCH_STATUS_FILTERED m 0 = d.nextFiltered m raw since := by
  have hkept : (d.setRaw m raw since).rdAt R.MATCH.MATCH_STATUS_FILTERED m 0 = d.rdAt R.MATCH.MATCH_STATUS_FILTERED m 0 :=
    Dev.rdAt_setRaw_ne (Reg.key_page_ne m (by decide))
  unfold Dev.matchFollows
  split_ifs with hnew
  · have hnext : d.nextFiltered m raw since = raw := by
      unfold Dev.nextFiltered at hnew ⊢
      split_ifs at hnew ⊢
      · rfl
      · exact absurd rfl hnew
    rw [hnext]
    exact Dev.rdAt_setFiltered hraw
  · rw [hkept]
    exact (not_not.mp hnew).symm

/-- The instant from which the raw match has stood that stands in the cycle now reached and in the ones before it, `cycles` in all. -/
def Dev.matchSince (d : Dev) (cycles : Nat) : Nat := d.mono - (cycles - 1) * d.auxCycle

/-- The event of a matcher by its MODE (R251). -/
abbrev matchRaises (mode old new : Nat) : Prop := mode = 0 ∧ new = 1 ∨ mode = 1 ∧ old = 0 ∧ new = 1 ∨ mode = 2 ∧ old = 1 ∧ new = 0

theorem matchRaises_iff (mode old new : Nat) :
    ((mode == 0 && new == 1) || (mode == 1 && old == 0 && new == 1) || (mode == 2 && old == 1 && new == 0)) = true ↔ matchRaises mode old new := by
  simp only [matchRaises, Bool.or_eq_true, Bool.and_eq_true, beq_iff_eq, and_assoc, or_assoc]

theorem Dev.pinMatch_disabled {levels cycles t : Nat} (h : d.rdAt R.MATCH.MATCH_CTRL_ENABLE m 0 = 0) :
    d.pinMatch m levels cycles t = (d.toTime t).settlePins.samplePins levels :=
  if_pos ((Dev.rdAt_sampled ..).trans h)

theorem Dev.pinMatch_enabled {levels cycles t : Nat} {d1 : Dev} (hm : m < 16) (h : d.rdAt R.MATCH.MATCH_CTRL_ENABLE m 0 = 1)
    (h1 : d1 = (d.toTime t).settlePins.samplePins levels) : d.pinMatch m levels cycles t =
      if matchRaises (d1.rdAt R.MATCH.MATCH_CTRL_MODE m 0) (d1.rdAt R.MATCH.MATCH_STATUS_FILTERED m 0) (d1.nextFiltered m (d1.rawMatch m) (d1.matchSince cycles)) then
        ((d1.matchFollows m (d1.rawMatch m) (d1.matchSince cycles)).wrAt R.MATCH.STAMP m 0
          (SMap.get (d1.matchFollows m (d1.rawMatch m) (d1.matchSince cycles)).pins.filterAt m)).event (0x260 + m)
      else d1.matchFollows m (d1.rawMatch m) (d1.matchSince cycles) := by
  have hon : d1.rdAt R.MATCH.MATCH_CTRL_ENABLE m 0 = 1 := by
    rw [h1, Dev.rdAt_sampled]
    exact h
  unfold Dev.pinMatch
  rw [← h1]
  dsimp only
  rw [if_neg (by rw [hon]; decide), Dev.matchFollows_eq hm, Dev.filtered_matchFollows (Dev.rawMatch_lt ..)]
  simp only [matchRaises_iff]
  rfl

end Match

/-- Settles O25: MATCH_CTRL by whether the write is refused, a cycle by whether the matcher is enabled. -/
theorem patternMatchers : Obligations.PatternMatchers := by
  unfold Obligations.PatternMatchers
  refine ⟨?refused, ?taken, ?enabled, fun d m raw since h => ⟨Dev.rdAt_setRaw h, Dev.rawSince_setRaw⟩, fun d m v h => ⟨Dev.rdAt_setFiltered h, Dev.filterAt_setFiltered⟩,
    ?disabled, ?noUnit⟩
  case refused =>
    intro s m w t hm h hrefused
    refine State.onUnit_row (decide_eq_true hm) h (Dev.matchCtrlWrite_eq.trans (if_pos ?_))
    rwa [Dev.rdAt_atWrite_pinPage _ _ _ _ (by decide)]
  case taken =>
    intro s m w t hm h hmode hopen
    have htaken : (s.dev.atWrite t).matchCtrlWrite m w = (s.dev.atWrite t).matchCtrlTaken m w := by
      refine Dev.matchCtrlWrite_eq.trans (if_neg ?_)
      rw [Dev.rdAt_atWrite_pinPage _ _ _ _ (by decide)]
      omega
    obtain ⟨henable, hmodes, hdebounce⟩ := Dev.matchCtrlSet_fields (d := s.dev.atWrite t) (m := m) (w := w)
    refine ⟨s.after fun d => (d.atWrite t).matchCtrlTaken m w, State.onUnit_row (decide_eq_true hm) h htaken, rfl, ?_, ?_, ?_, ?_⟩
    · exact (Dev.rdAt_matchCtrlTaken (by decide) (by decide)).trans henable
    · exact (Dev.rdAt_matchCtrlTaken (by decide) (by decide)).trans hmodes
    · exact (Dev.rdAt_matchCtrlTaken (by decide) (by decide)).trans hdebounce
    · rw [← Dev.rdAt_atWrite_pinPage s.dev t m 0 (q := R.MATCH.MATCH_STATUS_FILTERED) (by decide)]
      exact Dev.filtered_matchCtrlTaken
  case enabled =>
    intro s m levels cycles t d1 hm hon h1
    exact State.onUnit_watched (decide_eq_true hm) (Dev.pinMatch_enabled hm hon h1)
  case disabled => exact fun s m levels cycles t hm hoff => State.onUnit_watched (decide_eq_true hm) (Dev.pinMatch_disabled hoff)
  case noUnit =>
    exact fun s m w c t hm => ⟨State.onUnit_fault _ _ (decide_eq_false (Nat.not_lt.mpr hm)), State.onUnit_fault _ _ (decide_eq_false (Nat.not_lt.mpr hm))⟩

end Sys2Proof.Machine

/-! PROOFS. Words of pins and the lock sequence of a bank (spec/09 R245, R247 to R249). -/

namespace Sys2Proof.Machine

/-! PIN_CFG (R245, R247). -/

section PinCfg

variable {d : Dev} {b k hi t w : Nat}

/-- The word that the HI word commits: its low half is the LO word written last. -/
def Dev.pinWordWritten (d : Dev) (b k hi : Nat) : Nat := d.stagedLow (R.PINBANK.PIN_CFG.key b k) (d.rdAt R.PINBANK.PIN_CFG b k) + hi % 2 ^ 32 * 2 ^ 32

theorem Dev.endArming_unarmed (h : SMap.get d.pins.lockStep b ≠ 2) : d.endArming b = d := if_neg h

theorem Dev.pinCfgHiWrite_taken (hlock : (d.toTime t).settlePins.pinLocked (b * 32 + k) = false)
    (htaken : (d.toTime t).settlePins.pinWordTaken (b * 32 + k) ((d.toTime t).settlePins.pinWordWritten b k hi) = true) :
    d.pinCfgHiWrite b k hi t =
      ((d.toTime t).settlePins.unstage (R.PINBANK.PIN_CFG.key b k)).commitPin (b * 32 + k) ((d.toTime t).settlePins.pinWordWritten b k hi) :=
  if_pos ((Bool.and_eq_true ..).mpr ⟨(Bool.not_eq_true' _).mpr hlock, htaken⟩)

theorem Dev.pinCfgHiWrite_refused (h : (d.toTime t).settlePins.pinLocked (b * 32 + k) = true ∨
      (d.toTime t).settlePins.pinWordTaken (b * 32 + k) ((d.toTime t).settlePins.pinWordWritten b k hi) = false) :
    d.pinCfgHiWrite b k hi t = ((d.toTime t).settlePins.unstage (R.PINBANK.PIN_CFG.key b k)).wrAt R.PINBANK.BANK_STATUS_WRITE_REFUSED b 0 1 := by
  refine if_neg fun htaken => ?_
  obtain ⟨hopen, hword⟩ := (Bool.and_eq_true ..).mp htaken
  obtain hlock | hbad := h
  · exact Bool.false_ne_true (((Bool.not_eq_true' _).mp hopen).symm.trans hlock)
  · exact Bool.false_ne_true (hbad.symm.trans hword)

/-- A word committed for pin `k` of bank `b` (R245). -/
theorem Dev.commitPin_bank (hk : k < 32) (d : Dev) (w : Nat) : d.commitPin (b * 32 + k) w =
    { d.wrAt R.PINBANK.PIN_CFG b k w with pins := { d.pins with
        next := SMap.set d.pins.next (b * 32 + k) ((SMap.get d.pins.next (b * 32 + k)).filter (fun x => decide (x.2 ≠ d.changeEdge)) ++ [(w, d.changeEdge)]) } } := by
  have hbank : (b * 32 + k) / 32 = b := by omega
  have hpin : (b * 32 + k) % 32 = k := by omega
  unfold Dev.commitPin
  rw [hbank, hpin]

end PinCfg

/-! LOCKKEY and LOCK (R248). -/

section Lock

variable {d : Dev} {b w t : Nat}

theorem Dev.expireLock_runs (h : d.lockExpired b = false) : d.expireLock b = d := if_neg (by rw [h]; exact Bool.false_ne_true)

/-- No sequence that has not begun runs out. -/
theorem Dev.lockExpired_idle (h : SMap.get d.pins.lockStep b = 0) : d.lockExpired b = false := by
  unfold Dev.lockExpired
  rw [h]
  rfl

theorem Dev.lockKeyWrite_first (h : SMap.get d.pins.lockStep b = 0) (ht : d.toTime t = d) :
    d.lockKeyWrite b w t = if w % 2 ^ 16 = 0x6B1D then d.setLock b 1 else d.wrAt R.PINBANK.BANK_STATUS_LOCK_SEQ_FAILED b 0 1 := by
  unfold Dev.lockKeyWrite
  rw [ht, Dev.expireLock_runs (Dev.lockExpired_idle h)]
  simp only [h]

theorem Dev.lockKeyWrite_second (h : SMap.get d.pins.lockStep b = 1) (hruns : d.lockExpired b = false) (ht : d.toTime t = d) :
    d.lockKeyWrite b w t = if w % 2 ^ 16 = 0x94E2 then (d.setLock b 2).wrAt R.PINBANK.BANK_STATUS_LOCK_ARMED b 0 1 else d.endLock b true := by
  unfold Dev.lockKeyWrite
  rw [ht, Dev.expireLock_runs hruns]
  simp only [h]

theorem Dev.lockKeyWrite_armed (h : SMap.get d.pins.lockStep b = 2) (hruns : d.lockExpired b = false) (ht : d.toTime t = d) :
    d.lockKeyWrite b w t = d.endLock b true := by
  unfold Dev.lockKeyWrite
  rw [ht, Dev.expireLock_runs hruns]
  simp only [h]

theorem Dev.lockWrite_eq (hruns : d.lockExpired b = false) (ht : d.toTime t = d) : d.lockWrite b w t =
    if SMap.get d.pins.lockStep b = 2 then (d.wrAt R.PINBANK.LOCK b 0 (d.rdAt R.PINBANK.LOCK b 0 ||| (w % 2 ^ 32))).endLock b false else d := by
  unfold Dev.lockWrite
  rw [ht, Dev.expireLock_runs hruns]

end Lock

/-- Settles O22: PIN_CFG by whether the word is taken, a key and LOCK by where the sequence of the bank stands. -/
theorem pinWords : Obligations.PinWords := by
  unfold Obligations.PinWords
  have hstep : ∀ (s : State) (b t : Nat), SMap.get (s.dev.atWrite t).pins.lockStep b = SMap.get s.dev.pins.lockStep b := fun s b t => by rw [Dev.atWrite_pins]
  refine ⟨?committed, ?dropped, ?first, ?second, ?armed, ?locks, ?unarmed, ?timeout, ?runs, ?noBank, ?noPin⟩
  case committed =>
    intro s b k hi t w hb hk h hstart hw hlock htaken
    refine State.onUnit_row ((Bool.and_eq_true ..).mpr ⟨decide_eq_true hb, decide_eq_true hk⟩) h (congrArg Dev.watchTbPins ?_)
    rw [Dev.endArming_unarmed ((hstep ..).trans_ne hstart), Dev.pinCfgHiWrite_taken (by rwa [Dev.toTime_atWrite]) (by rwa [Dev.toTime_atWrite, Dev.pinWordWritten, ← hw]),
      Dev.toTime_atWrite, Dev.pinWordWritten, ← hw]
    exact Dev.commitPin_bank hk _ w
  case dropped =>
    intro s b k hi t w hb hk h hstart hw hrefused
    refine State.onUnit_row ((Bool.and_eq_true ..).mpr ⟨decide_eq_true hb, decide_eq_true hk⟩) h (congrArg Dev.watchTbPins ?_)
    rw [Dev.endArming_unarmed ((hstep ..).trans_ne hstart), Dev.pinCfgHiWrite_refused (by rwa [Dev.toTime_atWrite, Dev.pinWordWritten, ← hw]), Dev.toTime_atWrite]
  case first =>
    exact fun s b w t hb h hstart => State.onUnit_row (decide_eq_true hb) h (Dev.lockKeyWrite_first ((hstep ..).trans hstart) (Dev.toTime_atWrite ..))
  case second =>
    exact fun s b w t hb h hstart hruns => State.onUnit_row (decide_eq_true hb) h (Dev.lockKeyWrite_second ((hstep ..).trans hstart) hruns (Dev.toTime_atWrite ..))
  case armed =>
    exact fun s b w t hb h hstart hruns => State.onUnit_row (decide_eq_true hb) h (Dev.lockKeyWrite_armed ((hstep ..).trans hstart) hruns (Dev.toTime_atWrite ..))
  case locks =>
    intro s b w t hb h hstart hruns
    refine State.onUnit_row (decide_eq_true hb) h ?_
    rw [Dev.lockWrite_eq hruns (Dev.toTime_atWrite ..), if_pos ((hstep ..).trans hstart), Dev.rdAt_atWrite_pinPage _ _ _ _ (by decide)]
  case unarmed =>
    exact fun s b w t hb h hstart hruns => State.onUnit_row (decide_eq_true hb) h
      ((Dev.lockWrite_eq hruns (Dev.toTime_atWrite ..)).trans (if_neg ((hstep ..).trans_ne hstart)))
  case timeout => exact fun s b t hb hexpired => State.onUnit_after (decide_eq_true hb) (if_pos hexpired)
  case runs => exact fun s b t hb hruns => State.onUnit_unchanged (decide_eq_true hb) (if_neg (by rw [hruns]; exact Bool.false_ne_true))
  case noBank =>
    intro s b k w t hb
    have hnone : decide (b < 10) = false := decide_eq_false (Nat.not_lt.mpr hb)
    exact ⟨State.onUnit_fault _ _ (by rw [hnone]; rfl), State.onUnit_fault _ _ hnone, State.onUnit_fault _ _ hnone, State.onUnit_fault _ _ hnone⟩
  case noPin => exact fun s b k w t hk => State.onUnit_fault _ _ (by rw [decide_eq_false (Nat.not_lt.mpr hk)]; exact Bool.and_false _)

end Sys2Proof.Machine

/-! PROOFS. The commands of a pad (spec/09 R245, R258 to R262). -/

namespace Sys2Proof.Machine

section Pad

variable {d : Dev} {v : Envelope} {p ext t level since : Nat}

/-! A request of a pin (R258), and the end of its keeper window (R245, R246). -/

theorem Dev.pinRequest_drives (h : (d.toTime t).settlePins.inWindow p = false ∨ (d.toTime t).settlePins.on R.SAFETY.SAFE_STATUS_IN_SAFE = true) :
    d.pinRequest v p ext t = (d.toTime t).settlePins.drivePin v p ext := by
  refine if_neg ?_
  obtain hopen | hsafe := h
  · rw [hopen]
    exact Bool.false_ne_true
  · rw [hsafe, Bool.not_true, Bool.and_false]
    exact Bool.false_ne_true

theorem Dev.pinRequest_waits (hwindow : (d.toTime t).settlePins.inWindow p = true) (hsafe : (d.toTime t).settlePins.on R.SAFETY.SAFE_STATUS_IN_SAFE = false) :
    d.pinRequest v p ext t = d := if_pos (by rw [hwindow, hsafe]; rfl)

theorem Dev.windowEnd_over (h : SMap.get (d.toTime t).settlePins.pins.window p ≠ 0) (hover : (d.toTime t).settlePins.inWindow p = false) :
    d.windowEnd v p ext t =
      let d1 := (d.toTime t).settlePins
      ({ d1 with pins := { d1.pins with
          window := SMap.set d1.pins.window p 0, windowEnd := SMap.set d1.pins.windowEnd p (SMap.get d1.pins.window p) } } : Dev).drivePin v p ext :=
  if_pos (by rw [decide_eq_true h, hover]; rfl)

theorem Dev.windowEnd_not_over (h : SMap.get (d.toTime t).settlePins.pins.window p = 0 ∨ (d.toTime t).settlePins.inWindow p = true) : d.windowEnd v p ext t = d := by
  refine if_neg ?_
  rw [Bool.and_eq_true, decide_eq_true_eq, Bool.not_eq_true']
  exact fun ⟨hwindow, hover⟩ => h.elim hwindow fun hin => Bool.false_ne_true (hover.symm.trans hin)

/-! The end of MIN_PULSE and of a rate window (R259, R260). -/

/-- Pin `p`, which the limit `kind` has held back, is free of it, and stands in no keeper window. -/
def Dev.freed (d : Dev) (p kind : Nat) (held : Bool) : Prop := SMap.get d.pins.delay p = kind ∧ held = false ∧ d.inWindow p = false

theorem Dev.freed_iff (d : Dev) (p kind : Nat) (held : Bool) : (SMap.get d.pins.delay p = kind ∧ (!held) = true ∧ (!d.inWindow p) = true) ↔ d.freed p kind held := by
  rw [Dev.freed, Bool.not_eq_true', Bool.not_eq_true']

theorem Dev.not_freed {kind : Nat} {held : Bool} (h : SMap.get d.pins.delay p ≠ kind ∨ held = true ∨ d.inWindow p = true) : ¬ d.freed p kind held := by
  rintro ⟨hkind, hheld, hwindow⟩
  obtain h | h | h := h
  · exact h hkind
  · exact Bool.false_ne_true (hheld.symm.trans h)
  · exact Bool.false_ne_true (hwindow.symm.trans h)

theorem Dev.minPulseElapsed_freed (h : (d.toTime t).settlePins.freed p 1 ((d.toTime t).settlePins.pulseHolds v p)) :
    d.minPulseElapsed v p ext t = (d.toTime t).settlePins.drivePin v p ext := if_pos ((Dev.freed_iff ..).mpr h)

theorem Dev.minPulseElapsed_held (h : ¬ (d.toTime t).settlePins.freed p 1 ((d.toTime t).settlePins.pulseHolds v p)) : d.minPulseElapsed v p ext t = d :=
  if_neg (mt (Dev.freed_iff ..).mp h)

theorem Dev.rateWindowEnd_freed (h : (d.toTime t).settlePins.freed p 2 ((d.toTime t).settlePins.rateHolds v p)) :
    d.rateWindowEnd v p ext t = (d.toTime t).settlePins.drivePin v p ext := if_pos ((Dev.freed_iff ..).mpr h)

theorem Dev.rateWindowEnd_held (h : ¬ (d.toTime t).settlePins.freed p 2 ((d.toTime t).settlePins.rateHolds v p)) : d.rateWindowEnd v p ext t = d :=
  if_neg (mt (Dev.freed_iff ..).mp h)

/-! The readback of a pad (R261). -/

theorem Dev.outputReadback_eq {d1 : Dev} {m : Nat} (h1 : d1 = (d.toTime t).settlePins) (hm : m = max (d1.mono + d1.instantOf since - d1.now) (d1.comparedSince p)) :
    d.outputReadback v p level since t =
      if v.acts = true ∧ v.readback p = true ∧ d1.pad p ≠ 0 ∧ d1.pad p ≠ 1 + level % 2 ∧ d1.inWindow p = false ∧ m + 100 * 2 ^ 32 + v.rbFilter p * envCycle ≤ d1.mono then
        d1.envFault 0x82 (p + (d1.pad p - 1) * 2 ^ 24 + level % 2 * 2 ^ 25)
      else d := by
  unfold Dev.outputReadback driven
  rw [← h1]
  dsimp only
  rw [← hm]
  simp only [Bool.and_eq_true, decide_eq_true_eq, Bool.not_eq_true', and_assoc]

end Pad

/-- Settles O24: each command by whether the pin is to be driven. -/
theorem padCommands : Obligations.PadCommands := by
  unfold Obligations.PadCommands
  refine ⟨?request, ?waits, ?ended, ?window, ?pulse, ?rate, ?held, ?readback, ?noPin⟩
  case request => exact fun s p ext t hp h => State.onUnit_watched (decide_eq_true hp) (Dev.pinRequest_drives h)
  case waits => exact fun s p ext t hp hwindow hsafe => State.onUnit_watched (decide_eq_true hp) (Dev.pinRequest_waits hwindow hsafe)
  case ended => exact fun s p ext t hp h hover => State.onUnit_watched (decide_eq_true hp) (Dev.windowEnd_over h hover)
  case window => exact fun s p ext t hp h => State.onUnit_watched (decide_eq_true hp) (Dev.windowEnd_not_over h)
  case pulse =>
    exact fun s p ext t hp hwindow hdelay hfree => State.onUnit_watched (decide_eq_true hp) (Dev.minPulseElapsed_freed ⟨hdelay, hfree, hwindow⟩)
  case rate =>
    exact fun s p ext t hp hwindow hdelay hfree => State.onUnit_watched (decide_eq_true hp) (Dev.rateWindowEnd_freed ⟨hdelay, hfree, hwindow⟩)
  case held =>
    exact fun s p ext t hp =>
      ⟨fun h => State.onUnit_watched (decide_eq_true hp) (Dev.minPulseElapsed_held (Dev.not_freed h)),
        fun h => State.onUnit_watched (decide_eq_true hp) (Dev.rateWindowEnd_held (Dev.not_freed h))⟩
  case readback =>
    intro s p level since t m d1 hp h1 hm
    exact State.onUnit_after (decide_eq_true hp) ((congrArg Dev.watchTbPins (Dev.outputReadback_eq h1 hm)).trans (apply_ite Dev.watchTbPins ..))
  case noPin =>
    intro s p a b t hp
    have hnone : decide (p < 320) = false := decide_eq_false (Nat.not_lt.mpr hp)
    exact ⟨State.onUnit_fault _ _ hnone, State.onUnit_fault _ _ hnone, State.onUnit_fault _ _ hnone, State.onUnit_fault _ _ hnone, State.onUnit_fault _ _ hnone⟩

end Sys2Proof.Machine

/-! PROOFS. The sources of a time base (spec/10 R276 to R278). -/

namespace Sys2Proof.Machine

/-! One count (R276, R277): a step within the positions, or a wrap over their end. -/

section Count

variable {d : Dev} {n p c r : Nat}

theorem Dev.countTb_up (m : Nat) (hp : p = d.rdAt R.TBASE.POSITION n 0) (hc : d.tbPositions n = c) (h : p + 1 < c) :
    d.countTb n true m = (d.wrAt R.TBASE.POSITION n 0 (p + 1)).crossed n (p + 1) true m := by
  have hlast : ¬ c - 1 ≤ p := by omega
  simp [Dev.countTb, ← hp, hc, hlast]

theorem Dev.countTb_up_wraps (m : Nat) (hp : p = d.rdAt R.TBASE.POSITION n 0) (hr : r = d.rdAt R.TBASE.REVOLUTIONS n 0) (hc : d.tbPositions n = c) (h : p + 1 = c) :
    d.countTb n true m = ((d.wrAt R.TBASE.POSITION n 0 0).wrAt R.TBASE.REVOLUTIONS n 0 (r + 1)).crossed n 0 true m := by
  have hlast : c - 1 ≤ p := by omega
  simp [Dev.countTb, ← hp, ← hr, hc, hlast]

theorem Dev.countTb_down (m : Nat) (hp : p = d.rdAt R.TBASE.POSITION n 0) (h : p ≠ 0) :
    d.countTb n false m = (d.wrAt R.TBASE.POSITION n 0 (p - 1)).crossed n p false m := by
  simp [Dev.countTb, ← hp, h]

theorem Dev.countTb_down_wraps (m : Nat) (hp : 0 = d.rdAt R.TBASE.POSITION n 0) (hr : r = d.rdAt R.TBASE.REVOLUTIONS n 0) (hc : d.tbPositions n = c) :
    d.countTb n false m = ((d.wrAt R.TBASE.POSITION n 0 (c - 1)).wrAt R.TBASE.REVOLUTIONS n 0 (2 ^ 32 + r - 1)).crossed n 0 false m := by
  simp [Dev.countTb, ← hp, ← hr, hc]

end Count

/-! POSITION and REVOLUTIONS are two fields. -/

theorem Dev.revolutions_position (d : Dev) (n q : Nat) : (d.wrAt R.TBASE.POSITION n 0 q).rdAt R.TBASE.REVOLUTIONS n 0 = d.rdAt R.TBASE.REVOLUTIONS n 0 :=
  Dev.rdAt_wrAt_ne _ _ (Reg.key_page_ne n (by decide))

theorem Dev.position_revolutions (d : Dev) (n v : Nat) : (d.wrAt R.TBASE.REVOLUTIONS n 0 v).rdAt R.TBASE.POSITION n 0 = d.rdAt R.TBASE.POSITION n 0 :=
  Dev.rdAt_wrAt_ne _ _ (Reg.key_page_ne n (by decide))

/-- A write of two fields is a write of registers alone. -/
theorem Dev.wrAt_wrAt_eq (d : Dev) (q r : Reg) (n v w : Nat) :
    (d.wrAt q n 0 v).wrAt r n 0 w = { d with regs := ((d.wrAt q n 0 v).wrAt r n 0 w).regs } := rfl

/-- The position and the revolutions of a count, up or down, by whether it wraps. -/
theorem Dev.countTb_position {d : Dev} {n p c r : Nat} (m : Nat) (up : Bool) (hp : p = d.rdAt R.TBASE.POSITION n 0) (hr : r = d.rdAt R.TBASE.REVOLUTIONS n 0)
    (hc : d.tbPositions n = c) (hlt : p < c) (hc32 : c ≤ 2 ^ 32) :
    ∃ d1 : Dev, d.countTb n up m = d1.crossed n (if up then d1.rdAt R.TBASE.POSITION n 0 else p) up m ∧
      d1.rdAt R.TBASE.POSITION n 0 = (if up then (p + 1) % c else (p + c - 1) % c) ∧
      d1.rdAt R.TBASE.REVOLUTIONS n 0 = (if up = true ∧ p + 1 = c then (r + 1) % 2 ^ 32 else if up = false ∧ p = 0 then (r + 2 ^ 32 - 1) % 2 ^ 32 else r) ∧
      d1 = { d with regs := d1.regs } := by
  have hcut {q : Nat} (hq : q < c) : q % 2 ^ R.TBASE.POSITION.width = q := Nat.mod_eq_of_lt (Nat.lt_of_lt_of_le hq hc32)
  cases up with
  | true =>
    by_cases hwrap : p + 1 = c
    · refine ⟨(d.wrAt R.TBASE.POSITION n 0 0).wrAt R.TBASE.REVOLUTIONS n 0 (r + 1), (Dev.countTb_up_wraps m hp hr hc hwrap).trans ?_, ?_, ?_, Dev.wrAt_wrAt_eq ..⟩
      · simp [Dev.position_revolutions]
      · simp [Dev.position_revolutions, hwrap]
      · simp [hwrap, R.TBASE.REVOLUTIONS]
    · have hnext : p + 1 < c := by omega
      refine ⟨d.wrAt R.TBASE.POSITION n 0 (p + 1), (Dev.countTb_up m hp hc hnext).trans ?_, ?_, ?_, rfl⟩
      · simp [hcut hnext]
      · simp [hcut hnext, Nat.mod_eq_of_lt hnext]
      · simp [Dev.revolutions_position, hwrap, hr]
  | false =>
    by_cases hwrap : p = 0
    · subst hwrap
      have hend : c - 1 < c := by omega
      refine ⟨(d.wrAt R.TBASE.POSITION n 0 (c - 1)).wrAt R.TBASE.REVOLUTIONS n 0 (2 ^ 32 + r - 1), (Dev.countTb_down_wraps m hp hr hc).trans ?_, ?_, ?_, Dev.wrAt_wrAt_eq ..⟩
      · simp
      · simp [Dev.position_revolutions, hcut hend, Nat.mod_eq_of_lt hend]
      · rw [Dev.rdAt_wrAt_same, Nat.add_comm (2 ^ 32) r, if_neg (fun h => Bool.false_ne_true h.1), if_pos ⟨rfl, rfl⟩]
        rfl
    · have hprev : p - 1 < c := by omega
      have hmod : (p + c - 1) % c = p - 1 := by
        rw [show p + c - 1 = p - 1 + c by omega, Nat.add_mod_right, Nat.mod_eq_of_lt hprev]
      refine ⟨d.wrAt R.TBASE.POSITION n 0 (p - 1), (Dev.countTb_down m hp hwrap).trans ?_, ?_, ?_, rfl⟩
      · simp
      · simp [hcut hprev, hmod]
      · simp [Dev.revolutions_position, hwrap, hr]

/-! The sources that count time (R276, R277). -/

theorem Dev.dividerCount_eq (d : Dev) (n t : Nat) :
    d.dividerCount n t =
      (let d1 := d.toTick t
       if d1.tbCounts n 1 = true ∧ SMap.get d1.clk.divNext n ≤ d1.refEdges then
         ({ d1 with clk := { d1.clk with divNext := SMap.set d1.clk.divNext n (SMap.get d1.clk.divNext n + d1.rdAt R.TBASE.DIV n 0) } } : Dev).countTb n true
           (d1.refInstant (SMap.get d1.clk.divNext n))
       else d1) :=
  if_congr (by rw [Bool.and_eq_true, decide_eq_true_eq]) rfl rfl

theorem Dev.periodicInstant_eq (d : Dev) (n t : Nat) :
    d.periodicInstant n t =
      (let d1 := d.toTick t
       let m := d1.tbEdge (d1.monoAt (SMap.get d1.clk.perNext n)) 0
       if d1.tbCounts n 6 = true ∧ m ≤ d1.mono then
         ({ d1 with clk := { d1.clk with perNext := SMap.set d1.clk.perNext n (SMap.get d1.clk.perNext n + d1.rdAt R.TBASE.PERIOD n 0) } } : Dev).countTb n true m
       else d1) :=
  if_congr (by rw [Bool.and_eq_true, decide_eq_true_eq]) rfl rfl

/-! The place of the two levels of an encoder in the sequence that counts up (R278). -/

theorem quadrature_eq (a b : Nat) : quadrature (a % 2) (b % 2) = if b % 2 = 0 then a % 2 else 3 - a % 2 := by
  obtain ha | ha := Nat.mod_two_eq_zero_or_one a <;> obtain hb | hb := Nat.mod_two_eq_zero_or_one b <;> simp [quadrature, ha, hb]

/-! The sources that count edges of an input (R267, R276). -/

section Input

variable {d d1 : Dev} {n since t m : Nat} (h1 : d1 = (d.toTick t).settlePins.watchTbPins) (hm : m = d1.qualified (d1.rdAt R.TBASE.TB_CFG_FILTER n 0) since)
include h1 hm

theorem Dev.inputEdge_eq (source level : Nat) :
    d.inputEdge source n level since t =
      if m ≤ d1.mono ∧ d1.tbCounts n source = true ∧ edgeSelected (d1.rdAt R.TBASE.TB_CFG_EDGE n 0) level = true then d1.countTb n true m else d1 := by
  unfold Dev.inputEdge Dev.toInput Dev.tbQualified
  rw [← h1]
  dsimp only
  rw [← hm]
  by_cases hcome : m ≤ d1.mono
  · simp only [hcome, if_true, true_and, Bool.and_eq_true]
  · simp only [hcome, if_false, false_and]

/-! An encoder counts by how far its place lies from the last one (R278). -/

theorem Dev.encoderCount_eq {a b q : Nat} (hq : q = if b % 2 = 0 then a % 2 else 3 - a % 2) (hlast : SMap.get d1.clk.lastAB n < 4) :
    d.encoderCount n a b since t =
      (let d2 := { d1 with clk := { d1.clk with lastAB := SMap.set d1.clk.lastAB n q } }
       if d1.mono < m then d1
       else if d1.tbCounts n 3 = false ∨ q = SMap.get d1.clk.lastAB n then d2
       else if q = (SMap.get d1.clk.lastAB n + 2) % 4 then ((d2.bumpAt R.TBASE.ENC_ERRORS n 0).event (0x408 + n)).loseTb n 3
       else if (q = (SMap.get d1.clk.lastAB n + 1) % 4) ↔ d1.rdAt R.TBASE.TB_CFG_DIR_INV n 0 ≠ 1 then (d2.endCause n 3).countTb n true m
       else (d2.endCause n 3).countTb n false m) := by
  have hq4 : q < 4 := by
    rw [hq]
    split <;> omega
  unfold Dev.encoderCount Dev.toInput Dev.tbQualified
  rw [quadrature_eq, ← h1, ← hq]
  dsimp only
  rw [← hm]
  by_cases hcome : m ≤ d1.mono
  · rw [if_pos hcome, if_neg (Nat.not_lt.mpr hcome)]
    dsimp only
    refine if_congr ?rests rfl (if_congr ?both rfl ?counts)
    case rests =>
      rw [Bool.not_eq_true']
      exact or_congr Iff.rfl (by omega)
    case both => omega
    case counts =>
      have hup : (q + 4 - SMap.get d1.clk.lastAB n) % 4 = 1 ↔ q = (SMap.get d1.clk.lastAB n + 1) % 4 := by omega
      have hdir (x : Nat) : (((q + 4 - SMap.get d1.clk.lastAB n) % 4 == 1) != (x == 1)) = decide ((q = (SMap.get d1.clk.lastAB n + 1) % 4) ↔ x ≠ 1) := by
        rw [Bool.eq_iff_iff, bne_iff_ne, decide_eq_true_eq, ne_eq, Bool.eq_iff_iff, beq_iff_eq, beq_iff_eq, hup]
        tauto
      refine (congrArg (Dev.countTb n · m _) (hdir (d1.rdAt R.TBASE.TB_CFG_DIR_INV n 0))).trans ?_
      split
      next h => rw [decide_eq_true h]
      next h => rw [decide_eq_false h]
  · rw [if_neg hcome, if_pos (Nat.lt_of_not_le hcome)]

end Input

theorem Dev.triggerEdge_output {d : Dev} {line : Nat} (level since t : Nat) (h : d.rdAt R.TIME.TRIG_CFG_OUT 0 line = 1) : d.triggerEdge line level since t = d :=
  if_pos h

theorem Dev.triggerEdge_input {d : Dev} {line : Nat} (level since t : Nat) (h : d.rdAt R.TIME.TRIG_CFG_OUT 0 line ≠ 1) :
    d.triggerEdge line level since t = forUpto 4 (fun n d => if d.rdAt R.TBASE.TB_CFG_TRIG_LINE n 0 = line then d.inputEdge 2 n level since t else d) d :=
  if_neg h

/-- Settles O28: each source by the instant at which it gives out a count. -/
theorem timeBasesCount : Obligations.TimeBasesCount := by
  unfold Obligations.TimeBasesCount
  refine ⟨?count, ?divider, ?periodic, ?input, ?output, ?line, ?encoder, ?noTimeBase, ?noLine⟩
  case count =>
    exact fun d n m up p c r _ hp hr hc hlt hc32 _ => Dev.countTb_position m up hp hr hc.symm hlt hc32
  case divider =>
    rintro s n t d1 hn rfl
    exact State.onUnit_after (decide_eq_true hn) (Dev.dividerCount_eq s.dev n t)
  case periodic =>
    rintro s n t m d1 hn rfl rfl
    exact State.onUnit_after (decide_eq_true hn) (Dev.periodicInstant_eq s.dev n t)
  case input =>
    exact fun s n level since t m d1 hn h1 hm =>
      ⟨State.onUnit_after (decide_eq_true hn) (Dev.inputEdge_eq h1 hm 4 level), State.onUnit_after (decide_eq_true hn) (Dev.inputEdge_eq h1 hm 5 level)⟩
  case output => exact fun s line level since t hline h => State.onUnit_unchanged (decide_eq_true hline) (Dev.triggerEdge_output level since t h)
  case line => exact fun s line level since t hline h => State.onUnit_after (decide_eq_true hline) (Dev.triggerEdge_input level since t h)
  case encoder => exact fun s n a b since t q m d1 hn hq h1 hlast hm => State.onUnit_after (decide_eq_true hn) (Dev.encoderCount_eq h1 hm hq hlast)
  case noTimeBase =>
    intro s n a b t hn
    have noUnit (f : Dev → Dev) : s.onUnit (n < 4) f = .fault .noSuchUnit := State.onUnit_fault s f (decide_eq_false (Nat.not_lt.mpr hn))
    exact ⟨noUnit _, noUnit _, noUnit _, noUnit _, noUnit _⟩
  case noLine => exact fun s n a b t hn => State.onUnit_fault s _ (decide_eq_false (Nat.not_lt.mpr hn))

end Sys2Proof.Machine

/-! PROOFS. What a correction of device time leaves as it is (spec/10 R271, R274): who keeps the time.  The effects of a correction reach the time bases, and through their ticks
and events the array, the safe state and the messages; none of them makes an election, changes SOURCE or loads a reel.  Each function has one lemma here, under the function's own
name, whose proof term repeats its definition; record updates that write no register are passed over. -/

namespace Sys2Proof.Machine

/-- The device keeps time by the same SOURCE as `e`, is the master where `e` is, and belongs to a reel set of the same size. -/
def Dev.KeepsTimeAs (e d : Dev) : Prop :=
  d.rd R.TIME.TIME_CTRL_SOURCE = e.rd R.TIME.TIME_CTRL_SOURCE ∧ d.rd R.TIME.TIME_STATUS_MASTER = e.rd R.TIME.TIME_STATUS_MASTER ∧ d.ld.setSize = e.ld.setSize

namespace Dev.KeepsTimeAs

variable {e d : Dev}

theorem ite {c : Prop} [Decidable c] {a b : Dev} (ha : e.KeepsTimeAs a) (hb : e.KeepsTimeAs b) : e.KeepsTimeAs (if c then a else b) := by split <;> assumption

theorem ite_record {c : Prop} [Decidable c] {a b : FRec × Bool × Dev} (ha : e.KeepsTimeAs a.2.2) (hb : e.KeepsTimeAs b.2.2) :
    e.KeepsTimeAs (if c then a else b).2.2 := by
  split <;> assumption

theorem forAll {α : Type} {f : α → Dev → Dev} {l : List α} (hf : ∀ {a b}, e.KeepsTimeAs b → e.KeepsTimeAs (f a b)) (h : e.KeepsTimeAs d) :
    e.KeepsTimeAs (forAll l f d) :=
  List.foldlRecOn l _ h fun _ hb _ _ => hf hb

theorem forUpto {f : Nat → Dev → Dev} {n : Nat} (hf : ∀ {i b}, e.KeepsTimeAs b → e.KeepsTimeAs (f i b)) (h : e.KeepsTimeAs d) : e.KeepsTimeAs (forUpto n f d) :=
  .forAll hf h

/-- What writes no register and loads no reel. -/
theorem same {b : Dev} (h : e.KeepsTimeAs d) (hregs : b.regs = d.regs := by rfl) (hld : b.ld = d.ld := by rfl) : e.KeepsTimeAs b := by
  unfold Dev.KeepsTimeAs Dev.rd
  rw [Dev.rdAt_congr hregs, Dev.rdAt_congr hregs, hld]
  exact h

/-- A register of a numbered page or of a numbered register that lies above TIME_STATUS. -/
theorem wrAt {r : Reg} {n k v : Nat} (h : e.KeepsTimeAs d) (hr : 0xD048 ≤ r.base + r.off := by decide) : e.KeepsTimeAs (d.wrAt r n k v) := by
  obtain ⟨hsource, hmaster, hsize⟩ := h
  refine ⟨(Dev.rdAt_wrAt_ne d v ?_).trans hsource, (Dev.rdAt_wrAt_ne d v ?_).trans hmaster, hsize⟩
  · simp only [Reg.key, R.TIME.TIME_CTRL_SOURCE]
    omega
  · simp only [Reg.key, R.TIME.TIME_STATUS_MASTER]
    omega

theorem wr {r : Reg} {v : Nat} (h : e.KeepsTimeAs d)
    (hr : R.TIME.TIME_CTRL_SOURCE.key 0 0 ≠ r.key 0 0 ∧ R.TIME.TIME_STATUS_MASTER.key 0 0 ≠ r.key 0 0 := by decide) : e.KeepsTimeAs (d.wr r v) := by
  obtain ⟨hsource, hmaster, hsize⟩ := h
  exact ⟨(Dev.rd_wr_ne d v hr.1).trans hsource, (Dev.rd_wr_ne d v hr.2).trans hmaster, hsize⟩

theorem bumpAt {r : Reg} {n k : Nat} (h : e.KeepsTimeAs d) (hr : 0xD048 ≤ r.base + r.off := by decide) : e.KeepsTimeAs (d.bumpAt r n k) := .wrAt h hr

theorem bump {r : Reg} (h : e.KeepsTimeAs d)
    (hr : R.TIME.TIME_CTRL_SOURCE.key 0 0 ≠ r.key 0 0 ∧ R.TIME.TIME_STATUS_MASTER.key 0 0 ≠ r.key 0 0 := by decide) : e.KeepsTimeAs (d.bump r) := .wr h hr

theorem count {u k n : Nat} (h : e.KeepsTimeAs d) : e.KeepsTimeAs (d.count u k n) := .wrAt h

theorem when {c : Bool} {f : Dev → Dev} (h : e.KeepsTimeAs d) (hf : ∀ {b}, e.KeepsTimeAs b → e.KeepsTimeAs (f b)) : e.KeepsTimeAs (d.when c f) := .ite (hf h) h

theorem toTime {t : Nat} (h : e.KeepsTimeAs d) : e.KeepsTimeAs (d.toTime t) := by
  unfold Dev.KeepsTimeAs
  rw [Dev.rd_toTime, Dev.rd_toTime, Dev.toTime_ld]
  exact h

/-! Packets, events and safe state. -/

theorem tracePacket {bs : Bytes} (h : e.KeepsTimeAs d) : e.KeepsTimeAs (d.tracePacket bs) := .ite (.ite (.count <| .count h) <| .count <| .wr h) h

theorem traceFault {r : FRec} (h : e.KeepsTimeAs d) : e.KeepsTimeAs (d.traceFault r) := .tracePacket h

theorem traceHalt {origin : Nat} (h : e.KeepsTimeAs d) : e.KeepsTimeAs (d.traceHalt origin) := .tracePacket h

theorem traceTs (h : e.KeepsTimeAs d) : e.KeepsTimeAs d.traceTs := .ite (.tracePacket h) <| .tracePacket h

theorem accRead {key : Nat} (h : e.KeepsTimeAs d) : e.KeepsTimeAs (d.accRead key) := by
  dsimp only [Dev.accRead]
  split
  · exact h
  · exact .ite h h

theorem accWrite {key : Nat} (h : e.KeepsTimeAs d) : e.KeepsTimeAs (d.accWrite key) := by
  dsimp only [Dev.accWrite]
  split
  · exact h
  · refine .ite h ?_
    split
    · exact .ite (.bumpAt h) h
    · exact h

theorem bankCycles (h : e.KeepsTimeAs d) : e.KeepsTimeAs d.bankCycles := .forAll (fun hb => .forAll .accWrite <| .forAll .accRead hb) h

theorem handovers (h : e.KeepsTimeAs d) : e.KeepsTimeAs d.handovers := .forAll (fun hb => .ite hb <| .ite (.wrAt <| .wrAt hb) hb) h

theorem sendMsix {route : Nat} (h : e.KeepsTimeAs d) : e.KeepsTimeAs (d.sendMsix route) := .ite h <| .ite (.count h) h

theorem flagEvent {src : Nat} (h : e.KeepsTimeAs d) : e.KeepsTimeAs (d.flagEvent src) := .ite (.sendMsix h) h

theorem plainEvent {src : Nat} (h : e.KeepsTimeAs d) : e.KeepsTimeAs (d.plainEvent src) := .ite (.traceFault <| .flagEvent h) <| .flagEvent h

theorem writeRecord {r : FRec} (h : e.KeepsTimeAs d) : e.KeepsTimeAs (d.writeRecord r).2.2 := .ite_record (.wr <| .wr h) <| .ite_record (.bump <| .wr h) <| .wr h

theorem routedRecord {src : Nat} (h : e.KeepsTimeAs d) : e.KeepsTimeAs (d.routedRecord src) := .ite (.plainEvent <| .writeRecord h) <| .writeRecord h

theorem sendAll {kind : Nat} {body : Bytes} (h : e.KeepsTimeAs d) : e.KeepsTimeAs (d.sendAll kind body) := .forUpto (fun hb => .ite hb hb) h

theorem sendStop {code : Nat} (h : e.KeepsTimeAs d) : e.KeepsTimeAs (d.sendStop code) := .ite (.sendAll h) h

theorem settlePins (h : e.KeepsTimeAs d) : e.KeepsTimeAs d.settlePins := .forAll (fun hb => .ite hb <| .forAll (fun hc => .ite hc hc) hb) h

theorem pinsHalt (h : e.KeepsTimeAs d) : e.KeepsTimeAs d.pinsHalt := .ite h <| .settlePins h

theorem deliverReads (h : e.KeepsTimeAs d) : e.KeepsTimeAs d.deliverReads := .same h

theorem discardShadows (h : e.KeepsTimeAs d) : e.KeepsTimeAs d.discardShadows := .same h

theorem keepInjects (h : e.KeepsTimeAs d) : e.KeepsTimeAs d.keepInjects := .same h

theorem discardRequests (h : e.KeepsTimeAs d) : e.KeepsTimeAs d.discardRequests := .same h

theorem dropInstants (h : e.KeepsTimeAs d) : e.KeepsTimeAs d.dropInstants := .same h

theorem restArray (h : e.KeepsTimeAs d) : e.KeepsTimeAs d.restArray := .same h

theorem abandonTake (h : e.KeepsTimeAs d) : e.KeepsTimeAs d.abandonTake := by
  unfold Dev.abandonTake
  extract_lets d0 _ d1 _ _ d2 d3
  have h0 : e.KeepsTimeAs d0 := .pinsHalt <| .dropInstants <| .discardRequests <| .keepInjects <| .discardShadows <| .deliverReads <| .bankCycles h
  have h1 : e.KeepsTimeAs d1 := .same h0
  have h2 : e.KeepsTimeAs d2 := .same (.restArray h1)
  have h3 : e.KeepsTimeAs d3 := .handovers <| .count <| .wr h2
  exact .same h3

theorem stopForSafe {code : Nat} (h : e.KeepsTimeAs d) : e.KeepsTimeAs (d.stopForSafe code) := .ite (.ite (.traceHalt <| .sendStop <| .abandonTake h) h) h

theorem enterSafe {r : FRec} {cause : Nat} (h : e.KeepsTimeAs d) : e.KeepsTimeAs (d.enterSafe r cause) := by
  unfold Dev.enterSafe
  extract_lets d1 _ d2 d3 d4
  have h1 : e.KeepsTimeAs d1 := .bump <| .wr <| .wr <| .wr h
  have h3 : e.KeepsTimeAs d3 := .traceFault <| .plainEvent <| .wr h1
  have h4 : e.KeepsTimeAs d4 := .ite (.routedRecord h3) h3
  exact .ite h <| .ite h4 <| .stopForSafe h4

theorem event {src : Nat} (h : e.KeepsTimeAs d) : e.KeepsTimeAs (d.event src) := .ite (.enterSafe <| .routedRecord <| .plainEvent h) <| .plainEvent h

/-! Ticks. -/

theorem postToken {t n : Nat} (h : e.KeepsTimeAs d) : e.KeepsTimeAs (d.postToken t n) :=
  .ite h <| .forAll (fun hb => .ite hb hb) <| .ite (.event <| .wr <| .wr h) h

theorem tickToken {n : Nat} (h : e.KeepsTimeAs d) : e.KeepsTimeAs (d.tickToken n) := .ite (.postToken h) h

theorem tickPulses {n m : Nat} (h : e.KeepsTimeAs d) : e.KeepsTimeAs (d.tickPulses n m) := .ite h <| .forUpto (fun hb => .ite hb hb) h

theorem sequencerTick {n u : Nat} (h : e.KeepsTimeAs d) : e.KeepsTimeAs (d.sequencerTick n u) := by
  dsimp only [Dev.sequencerTick]
  refine .ite ?_ h
  split <;> exact h

theorem rewait (h : e.KeepsTimeAs d) : e.KeepsTimeAs d.rewait := .ite h h

theorem spreadTick {n u m : Nat} (h : e.KeepsTimeAs d) : e.KeepsTimeAs (d.spreadTick n u m) := by
  unfold Dev.spreadTick
  extract_lets _ _ d1 d2 d3
  have h1 : e.KeepsTimeAs d1 := .same h
  have h2 : e.KeepsTimeAs d2 := .tickPulses <| .tickToken h1
  have h3 : e.KeepsTimeAs d3 := .ite (.sendAll h2) h2
  exact .rewait <| .sequencerTick h3

theorem issueTick {n u m : Nat} (h : e.KeepsTimeAs d) : e.KeepsTimeAs (d.issueTick n u m) := by
  unfold Dev.issueTick
  extract_lets _ _ _ _ _ d1 d2
  have h1 : e.KeepsTimeAs d1 := .wrAt <| .wrAt <| .wrAt <| .same h
  have h2 : e.KeepsTimeAs d2 := .ite (.wrAt <| .wrAt h1) h1
  exact .spreadTick h2

theorem mergeTick {n : Nat} (h : e.KeepsTimeAs d) : e.KeepsTimeAs (d.mergeTick n) := .bumpAt h

theorem tickCycle {n k m : Nat} (h : e.KeepsTimeAs d) : e.KeepsTimeAs (d.tickCycle n k m) :=
  .ite h <| .ite (.forUpto .mergeTick h) <| .forUpto .mergeTick <| .issueTick h

theorem fireEntry {n x m : Nat} (h : e.KeepsTimeAs d) : e.KeepsTimeAs (d.fireEntry n x m) :=
  .ite (.event <| .wrAt h) <| .ite h <| .ite h <| .ite h <| .ite h h

theorem countTb {n : Nat} {up : Bool} {m : Nat} (h : e.KeepsTimeAs d) : e.KeepsTimeAs (d.countTb n up m) :=
  .tickCycle <| .forAll .fireEntry <| .ite (.wrAt <| .wrAt h) <| .ite (.wrAt <| .wrAt h) <| .wrAt h

/-! The effects of a correction. -/

theorem pulseStep {k m : Nat} (h : e.KeepsTimeAs d) : e.KeepsTimeAs (d.pulseStep k m) := .ite h <| .ite h <| .wrAt h

theorem latePulse {from' m k : Nat} (h : e.KeepsTimeAs d) : e.KeepsTimeAs (d.latePulse from' m k) := .ite (.wrAt <| .forUpto (fun hb => .ite (.pulseStep hb) hb) h) h

theorem lateGate {from' k : Nat} (h : e.KeepsTimeAs d) : e.KeepsTimeAs (d.lateGate from' k) := .ite (.wrAt h) h

theorem latePeriodic {m n : Nat} (h : e.KeepsTimeAs d) : e.KeepsTimeAs (d.latePeriodic m n) := .ite (.forUpto .countTb h) h

theorem settleJump (h : e.KeepsTimeAs d) : e.KeepsTimeAs d.settleJump := by
  dsimp only [Dev.settleJump]
  split
  · exact h
  next m a j _ =>
    have hstep : e.KeepsTimeAs ((({ d with clk := { d.clk with jumped := none } } : Dev).event 0x402).when j.ts Dev.traceTs) :=
      .when (.event h) .traceTs
    split
    · exact .forUpto .latePeriodic <| .forUpto .lateGate <| .forUpto .latePulse hstep
    · exact hstep
    · exact .wr hstep

theorem toTick {t : Nat} (h : e.KeepsTimeAs d) : e.KeepsTimeAs (d.toTick t) := .settleJump <| .toTime h

end Dev.KeepsTimeAs

end Sys2Proof.Machine

/-! PROOFS. The time master and its followers (spec/10 R271 to R273, R280). -/

namespace Sys2Proof.Machine

theorem Dev.on_iff (d : Dev) (r : Reg) : d.on r = true ↔ d.rd r = 1 := beq_iff_eq

/-! Who keeps time, while device time goes on and a correction has its effects. -/

theorem Dev.KeepsTimeAs.leadsTime {e d : Dev} (h : e.KeepsTimeAs d) : d.leadsTime = e.leadsTime := by
  obtain ⟨_, hmaster, hsize⟩ := h
  unfold Dev.leadsTime Dev.linked Dev.on
  rw [hmaster, hsize]

theorem Dev.keepsTimeAs_toTick (d : Dev) (t : Nat) : d.KeepsTimeAs (d.toTick t) := .toTick ⟨rfl, rfl, rfl⟩

theorem Dev.leadsTime_toTick (d : Dev) (t : Nat) : (d.toTick t).leadsTime = d.leadsTime := (d.keepsTimeAs_toTick t).leadsTime

theorem Dev.source_toTick (d : Dev) (t : Nat) : (d.toTick t).rd R.TIME.TIME_CTRL_SOURCE = d.rd R.TIME.TIME_CTRL_SOURCE := (d.keepsTimeAs_toTick t).1

/-! SYNC (R270, R272). -/

theorem Dev.masterRate_eq (d : Dev) : d.masterRate = if d.rd R.TIME.TIME_STATUS_MASTER = 1 ∨ d.clk.masterAddend = 0 then d.rd R.TIME.ADDEND else d.clk.masterAddend :=
  if_congr (by rw [Bool.or_eq_true, Dev.on_iff, decide_eq_true_eq]) rfl rfl

theorem Dev.syncInterval_eq (d : Dev) (t : Nat) :
    d.syncInterval t =
      (let d1 := d.toTick t
       if d1.rd R.TIME.TIME_STATUS_MASTER = 1 then d1.sendAll 0x11 (leBytes d1.masterRate 5)
       else d1.sendAllBut (d1.rd R.TIME.TIME_STATUS_UPSTREAM_PORT) 0x11 (leBytes d1.masterRate 5)) :=
  if_congr (Dev.on_iff _ _) rfl rfl

/-! PTM (R273). -/

section Ptm

variable {d : Dev}

/-- The PTM requester has run and has received master time `m`. -/
def Dev.ptmAnswered (m : Nat) (d : Dev) : Dev := (d.emit .ptmRequest).wr R.TIME.PTM_LAST m

theorem Dev.leadsTime_ptmAnswered (m t : Nat) : ((d.toTick t).ptmAnswered m).leadsTime = d.leadsTime :=
  Dev.KeepsTimeAs.leadsTime (.wr <| .same <| d.keepsTimeAs_toTick t)

theorem Dev.ptmExchange_idle (m t : Nat) (hsource : d.rd R.TIME.TIME_CTRL_SOURCE = 0) (hlead : d.leadsTime = true) : d.ptmExchange m t = d.toTick t :=
  if_pos ⟨(d.source_toTick t).trans hsource, (d.leadsTime_toTick t).trans hlead⟩

theorem Dev.ptmExchange_runs (m t : Nat) (h : d.rd R.TIME.TIME_CTRL_SOURCE ≠ 0 ∨ d.leadsTime = false) :
    d.ptmExchange m t =
      (let d2 := (d.toTick t).ptmAnswered m
       if d.leadsTime then d2.applyOffset (signedOf 64 ((m + d2.rd R.TIME.PTM_OFFSET) % 2 ^ 32 * 2 ^ 32 + 2 ^ 64 - d2.stamp)) (10 * 2 ^ 32) else d2) := by
  unfold Dev.ptmExchange
  dsimp only
  rw [Dev.source_toTick, Dev.leadsTime_toTick, if_neg (by simpa [or_iff_not_imp_left] using h), ← Dev.ptmAnswered, Dev.leadsTime_ptmAnswered]

theorem Dev.ptmExchange_follows (m t : Nat) (hlead : d.leadsTime = false) : d.ptmExchange m t = (d.toTick t).ptmAnswered m := by
  rw [Dev.ptmExchange_runs m t (.inr hlead), hlead]
  exact if_neg Bool.false_ne_true

theorem Dev.ptmExchange_leads (m t : Nat) (hsource : d.rd R.TIME.TIME_CTRL_SOURCE ≠ 0) (hlead : d.leadsTime = true) :
    d.ptmExchange m t =
      (let d1 := d.toTick t
       (d1.ptmAnswered m).applyOffset (signedOf 64 ((m + d1.rd R.TIME.PTM_OFFSET) % 2 ^ 32 * 2 ^ 32 + 2 ^ 64 - d1.stamp)) (10 * 2 ^ 32)) := by
  have hoffset : ((d.toTick t).ptmAnswered m).rd R.TIME.PTM_OFFSET = (d.toTick t).rd R.TIME.PTM_OFFSET := Dev.rd_wr_ne _ _ (by decide)
  have hstamp : ((d.toTick t).ptmAnswered m).stamp = (d.toTick t).stamp := rfl
  rw [Dev.ptmExchange_runs m t (.inl hsource), hlead]
  dsimp only
  rw [hoffset, hstamp]
  exact if_pos rfl

end Ptm

/-! The loss of SYNC (R271, R280). -/

theorem Dev.syncLoss_master {d : Dev} {t : Nat} (h : (d.toTick t).on R.TIME.TIME_STATUS_MASTER = true) : d.syncLoss t = d.toTick t := if_pos h

theorem Dev.syncLoss_follower {d : Dev} {t : Nat} (h : (d.toTick t).on R.TIME.TIME_STATUS_MASTER = false) :
    d.syncLoss t =
      (let d1 := d.toTick t
       let d2 := if d1.clk.lastHeard + d1.fourSyncs ≤ d1.now then
         forUpto 4 (fun n (d : Dev) => if d.tbSource n = 7 then d.loseTb n 4 else d) { d1 with clk := { d1.clk with lastHeard := d1.now } } else d1
       if d2.clk.lastSync + d2.fourSyncs ≤ d2.now then ({ d2 with clk := { d2.clk with lastSync := d2.now } } : Dev).forgetMaster else d2) :=
  if_neg (by rw [h]; exact Bool.false_ne_true)

/-- Settles O27: each command by who keeps the time. -/
theorem timeMaster : Obligations.TimeMaster := by
  unfold Obligations.TimeMaster
  refine ⟨?sync, ?leads, ?free, ?follows, ?loss, ?master, fun d => ⟨rfl, rfl⟩⟩
  case sync =>
    rintro s t d1 a rfl ha
    refine State.onDev_after ((Dev.syncInterval_eq s.dev t).trans ?_)
    rw [ha, ← Dev.masterRate_eq]
  case leads =>
    rintro s m t d1 rfl hsource hlead
    exact State.onDev_after (Dev.ptmExchange_leads m t hsource hlead)
  case free => exact fun s m t hsource hlead => State.onDev_after (Dev.ptmExchange_idle m t hsource hlead)
  case follows => exact fun s m t hlead => State.onDev_after (Dev.ptmExchange_follows m t hlead)
  case loss =>
    rintro s t d1 d2 rfl hfollower rfl
    exact State.onDev_after (Dev.syncLoss_follower hfollower)
  case master => exact fun s t h => State.onDev_after (Dev.syncLoss_master h)

end Sys2Proof.Machine

/-! PROOFS. The control of a time base: its index, its loss and its source block (spec/10 R279 to R281, R288, R290). -/

namespace Sys2Proof.Machine

/-! An index (R279). -/

section Index

variable {d d1 : Dev} {n since t : Nat} (h1 : d1 = (d.toTick t).settlePins.watchTbPins)
include h1

theorem Dev.index_eq :
    d.index n since t =
      if d1.qualified (d1.rdAt R.TBASE.TB_CFG_FILTER n 0) since ≤ d1.mono ∧ (d1.tbCounts n 3 = true ∨ d1.tbCounts n 5 = true) ∧
          (d1.rdAt R.TBASE.TB_CFG_INDEX_MODE n 0 = 1 ∨ d1.rdAt R.TBASE.TB_CFG_INDEX_MODE n 0 = 2 ∧ SMap.get d1.clk.indexed n = 0) then
        let d2 := { d1 with clk := { d1.clk with indexed := SMap.set d1.clk.indexed n 1 } }
        let d3 := (d2.wrAt R.TBASE.POSITION n 0 (d1.rdAt R.TBASE.INDEX_POS n 0)).wrAt R.TBASE.TB_STATUS_INDEX_SEEN n 0 1
        if d1.rdAt R.TBASE.POSITION n 0 = d1.rdAt R.TBASE.INDEX_POS n 0 then d3 else (d3.bumpAt R.TBASE.INDEX_ERRORS n 0).event (0x40C + n)
      else d1 := by
  unfold Dev.index Dev.toInput
  rw [← h1]
  refine if_congr ?applies ?wrong rfl
  case applies =>
    have hcome : (d1.tbQualified n since).isSome = true ↔ d1.qualified (d1.rdAt R.TBASE.TB_CFG_FILTER n 0) since ≤ d1.mono := Option.isSome_ite
    simp only [Bool.and_eq_true, Bool.or_eq_true, beq_iff_eq, hcome, and_assoc]
  case wrong =>
    dsimp only
    simp only [decide_eq_true_eq, ne_eq, ite_not]

end Index

/-! A loss (R280). -/

theorem Dev.lostTimeout_eq (d : Dev) (n t : Nat) :
    d.lostTimeout n t =
      (let d1 := d.toTick t
       if 2 ≤ d1.tbSource n ∧ d1.tbSource n ≤ 5 ∧ d1.rdAt R.TBASE.LOST_TIMEOUT n 0 ≠ 0 ∧
           SMap.get d1.clk.lostSince n + d1.rdAt R.TBASE.LOST_TIMEOUT n 0 * usec ≤ d1.now ∧ isSet (SMap.get d1.clk.lost n) 1 = false then d1.loseTb n 1
       else d1) :=
  if_congr (by rw [Bool.not_eq_true']) rfl rfl

/-! Substitute ticks (R281). -/

/-- A substitute tick of time base `n` is due, and the time base is lost, selected and answered with SUBSTITUTE. -/
def Dev.substituteDue (n : Nat) (d : Dev) : Prop :=
  SMap.get d.clk.subNext n ≠ 0 ∧ d.tbEdge (d.monoAt (SMap.get d.clk.subNext n)) 0 ≤ d.mono ∧ SMap.get d.clk.lostNow n = 1 ∧ d.rd R.TAKE.TAKE_CTRL_TB_SEL = n ∧
    d.rd R.TAKE.TAKE_CTRL_LOST_RESP = 2

theorem Dev.substituteTick_due {d : Dev} {n t : Nat} (h : (d.toTick t).substituteDue n) :
    d.substituteTick n t =
      (let d1 := d.toTick t
       d1.substitute n (SMap.get d1.clk.subNext n) (d1.tbEdge (d1.monoAt (SMap.get d1.clk.subNext n)) 0)) :=
  if_pos h

theorem Dev.substituteTick_not_due {d : Dev} {n t : Nat} (h : ¬ (d.toTick t).substituteDue n) : d.substituteTick n t = d.toTick t := if_neg h

/-- A substitute tick of the selected time base: while the array runs in locked mode, the sequencer keeps its stamp. -/
theorem Dev.substitute_selected {d : Dev} {n : Nat} (due m : Nat) (h : d.rd R.TAKE.TAKE_CTRL_TB_SEL = n) :
    d.substitute n due m =
      (let d2 := { d with
         clk := { d.clk with subNext := SMap.set d.clk.subNext n (due + d.rdAt R.TBASE.MEAN_PERIOD n 0 * 2 ^ 32) }
         tk := { d.tk with subs := if d.running = true ∧ d.locked = true then d.stampAt m :: d.tk.subs else d.tk.subs } }
       ((d2.wrAt R.TBASE.TB_STATUS_SUBSTITUTING n 0 1).wrAt R.TBASE.LAST_TICK n 0 (d.stampAt m)).spreadTick n (d.stampAt m) m) := by
  unfold Dev.substitute
  simp only [h, decide_true, Bool.and_true, Bool.and_eq_true]

/-! The source block (R288, R290). -/

/-- A register of the first pages of the time bases is none of the counters. -/
theorem Dev.rdAt_atWrite_timeBase {d : Dev} {n : Nat} (t : Nat) (hn : n < 4) {q : Reg} (hbase : q.base = R.TBASE.DIV.base) (hoff : q.off < 0x1000) (hlo : q.lo < 32) :
    (d.atWrite t).rdAt q n 0 = d.rdAt q n 0 := by
  refine Dev.rdAt_atWrite d t ?_
  simp only [Reg.key, R.CNT.LIVE, hbase, R.TBASE.DIV]
  omega

theorem Dev.tbBlock_atWrite {d : Dev} {n : Nat} (t : Nat) (hn : n < 4) : (d.atWrite t).tbBlock n = d.tbBlock n := by
  have hrd {q : Reg} (hq : q.base = R.TBASE.DIV.base ∧ q.off < 0x1000 ∧ q.lo < 32) : (d.atWrite t).rdAt q n 0 = d.rdAt q n 0 :=
    Dev.rdAt_atWrite_timeBase t hn hq.1 hq.2.1 hq.2.2
  unfold Dev.tbBlock Dev.tbSource
  simp (disch := decide) only [hrd]

theorem Dev.stagedLow_atWrite (d : Dev) (t key now : Nat) : (d.atWrite t).stagedLow key now = d.stagedLow key now := by
  unfold Dev.stagedLow
  rw [Dev.atWrite_latch]

/-- The array runs on time base `n`, whose block then takes no write. -/
def Dev.runsOn (n : Nat) (d : Dev) : Prop := d.running = true ∧ d.rd R.TAKE.TAKE_CTRL_TB_SEL = n

theorem Dev.runsOn_atWrite (d : Dev) (n t : Nat) : (d.atWrite t).runsOn n ↔ d.runsOn n := by
  unfold Dev.runsOn
  rw [Dev.running_atWrite, Dev.rd_atWrite _ _ (by decide)]

theorem Dev.not_runsOn {d : Dev} {n : Nat} (h : d.running = false ∨ d.rd R.TAKE.TAKE_CTRL_TB_SEL ≠ n) : ¬ d.runsOn n := by
  rintro ⟨hrun, hsel⟩
  obtain hrests | hother := h
  · exact Bool.false_ne_true (hrests.symm.trans hrun)
  · exact hother hsel

/-- The source block of time base `n` becomes `bs` where R288 accepts it, by a write that has left the device as `e`. -/
def Dev.takeTbBlock (n : Nat) (bs : Bytes) (e d : Dev) : Dev := if blockValid bs then e.setTbBlock n bs false else d.wrAt R.TBASE.TB_STATUS_WRITE_REFUSED n 0 1

section TbCfg

variable {d : Dev} {n off w : Nat}

theorem Dev.tbCfgWrite_runs (h : d.runsOn n) : d.tbCfgWrite n off w = d.wrAt R.TBASE.TB_STATUS_WRITE_REFUSED n 0 1 := if_pos h

theorem Dev.tbCfgWrite_low (h : ¬ d.runsOn n) (hoff : off = 0x50 ∨ off = 0x58) : d.tbCfgWrite n off w = d.stageLow ((0xE000 + 0x1000 * n + off) * 8) w :=
  (if_neg h).trans (if_pos hoff)

theorem Dev.tbCfgWrite_word (h : ¬ d.runsOn n) (hlow : ¬ (off = 0x50 ∨ off = 0x58)) (hhigh : ¬ (off = 0x54 ∨ off = 0x5C)) :
    d.tbCfgWrite n off w = Dev.takeTbBlock n ((d.tbBlock n).take (off - 0x40) ++ leBytes w 4 ++ (d.tbBlock n).drop (off - 0x40 + 4)) d d := by
  have hpair : (off == 0x54 || off == 0x5C) = false := by simpa using hhigh
  refine (if_neg h).trans ((if_neg hlow).trans ?_)
  simp only [hpair, Bool.false_eq_true, if_false, leBytes_length]
  rfl

theorem Dev.tbCfgWrite_high (h : ¬ d.runsOn n) (hoff : off = 0x54 ∨ off = 0x5C) :
    d.tbCfgWrite n off w =
      (let key := (0xE000 + 0x1000 * n + off) * 8 - 32
       Dev.takeTbBlock n ((d.tbBlock n).take (off - 0x44) ++ leBytes (d.stagedLow key (leAt (d.tbBlock n) (off - 0x44) 4)) 4 ++ leBytes w 4 ++
         (d.tbBlock n).drop (off - 0x44 + 8)) (d.unstage key) d) := by
  have hpair : (off == 0x54 || off == 0x5C) = true := by simpa using hoff
  refine (if_neg h).trans ((if_neg (by omega)).trans ?_)
  simp only [hpair, hoff, if_true, List.length_append, leBytes_length, List.append_assoc]
  rfl

end TbCfg

/-- Settles O29: an index by whether it applies, a substitute tick by whether it is due, and a write of the source block by its word. -/
theorem timeBaseControl : Obligations.TimeBaseControl := by
  unfold Obligations.TimeBaseControl
  refine ⟨?index, ?noIndex, ?lost, ?substitute, ?noSubstitute, ?runs, ?word, ?low, ?high, ?noUnit⟩
  case index =>
    intro s n since t d1 hn h1 hcome hsource hmode
    exact State.onUnit_after (decide_eq_true hn) ((Dev.index_eq h1).trans (if_pos ⟨hcome, hsource, hmode⟩))
  case noIndex =>
    intro s n since t d1 hn h1 h
    refine State.onUnit_after (decide_eq_true hn) ((Dev.index_eq h1).trans (if_neg ?_))
    rintro ⟨hcome, hsource, hmode⟩
    obtain hearly | ⟨h3, h5⟩ | h0 | ⟨h2, hindexed⟩ := h
    · omega
    · simp [h3, h5] at hsource
    · omega
    · omega
  case lost =>
    rintro s n t d1 hn rfl
    exact State.onUnit_after (decide_eq_true hn) (Dev.lostTimeout_eq s.dev n t)
  case substitute =>
    rintro s n t m d1 hn rfl rfl hnext hcome hlost hsel hresp
    exact ⟨_, State.onUnit_after (decide_eq_true hn) ((Dev.substituteTick_due ⟨hnext, hcome, hlost, hsel, hresp⟩).trans (Dev.substitute_selected _ _ hsel)), rfl⟩
  case noSubstitute =>
    rintro s n t d1 hn rfl h
    refine State.onUnit_after (decide_eq_true hn) (Dev.substituteTick_not_due ?_)
    rintro ⟨hnext, hcome, hlost, hsel, hresp⟩
    omega
  case runs =>
    exact fun s n off w t hn hreach hrun hsel => State.onUnit_row (decide_eq_true hn) hreach (Dev.tbCfgWrite_runs ((Dev.runsOn_atWrite ..).mpr ⟨hrun, hsel⟩))
  case word =>
    rintro s n off w t bs hn hreach hrests h50 h54 h58 h5C rfl
    refine State.onUnit_row (decide_eq_true hn) hreach ((Dev.tbCfgWrite_word (mt (Dev.runsOn_atWrite ..).mp (Dev.not_runsOn hrests)) (by omega) (by omega)).trans ?_)
    rw [Dev.tbBlock_atWrite t hn]
    rfl
  case low =>
    intro s n off w t hn hreach hrests hoff
    exact State.onUnit_row (decide_eq_true hn) hreach (Dev.tbCfgWrite_low (mt (Dev.runsOn_atWrite ..).mp (Dev.not_runsOn hrests)) hoff)
  case high =>
    rintro s n off w t key bs hn hreach hrests hoff rfl rfl
    refine State.onUnit_row (decide_eq_true hn) hreach ((Dev.tbCfgWrite_high (mt (Dev.runsOn_atWrite ..).mp (Dev.not_runsOn hrests)) hoff).trans ?_)
    dsimp only
    rw [Dev.tbBlock_atWrite t hn, Dev.stagedLow_atWrite]
    rfl
  case noUnit =>
    intro s n o w t hn
    have noUnit (f : Dev → Dev) : s.onUnit (n < 4) f = .fault .noSuchUnit := State.onUnit_fault s f (decide_eq_false (Nat.not_lt.mpr hn))
    exact ⟨noUnit _, noUnit _, noUnit _, noUnit _⟩

end Sys2Proof.Machine

/-! PROOFS. The messages of device time (spec/10 R271, R272, R282, spec/11 R302). -/

namespace Sys2Proof.Machine

/-! What queued messages and the passing of time leave. -/

/-- A part of the device that no queued message changes is what it was after one to every other port. -/
theorem Dev.sendAllBut_keeps {γ : Type} (g : Dev → γ) (hg : ∀ d p kind body, g (Dev.queueMessage p kind body d) = g d) (from' kind : Nat) (body : Bytes) (d : Dev) :
    g (d.sendAllBut from' kind body) = g d :=
  forAll_keeps g _ (fun p e => iteInduction (motive := fun b : Dev => g b = g e) (fun _ => hg e p kind body) fun _ => rfl) (List.range 8) d

@[simp] theorem Dev.position_sendAllBut (d : Dev) (from' kind : Nat) (body : Bytes) : (d.sendAllBut from' kind body).position = d.position :=
  Dev.sendAllBut_keeps Dev.position (fun _ _ _ _ => rfl) ..

@[simp] theorem Dev.sendAllBut_clk (d : Dev) (from' kind : Nat) (body : Bytes) : (d.sendAllBut from' kind body).clk = d.clk :=
  Dev.sendAllBut_keeps Dev.clk (fun _ _ _ _ => rfl) ..

@[simp] theorem Dev.sendAllBut_now (d : Dev) (from' kind : Nat) (body : Bytes) : (d.sendAllBut from' kind body).now = d.now :=
  Dev.sendAllBut_keeps Dev.now (fun _ _ _ _ => rfl) ..

@[simp] theorem Dev.portTalks_toTime (d : Dev) (t p : Nat) : (d.toTime t).portTalks p = d.portTalks p := by
  unfold Dev.portTalks Dev.portState
  rw [Dev.rdAt_toTime]

@[simp] theorem Dev.isUpstream_toTime (d : Dev) (t p : Nat) : (d.toTime t).isUpstream p = d.isUpstream p := by
  unfold Dev.isUpstream
  rw [Dev.on_toTime, Dev.rd_toTime]

/-! Messages that any port brings which carries them (R271, R272). -/

section Talks

variable {d : Dev} {p : Nat} (h : d.portTalks p = true)
include h

theorem Dev.recvAnnounce_talks (eligible priority origin hops : Nat) :
    d.recvAnnounce p eligible priority origin hops =
      (let d1 := if hops < 3 then d.sendAllBut p 0x10 (leBytes eligible 1 ++ leBytes priority 1 ++ leBytes origin 1 ++ leBytes (hops + 1) 1) else d
       if origin = d.position then d1
       else { d1 with clk := { d1.clk with masterSeen := SMap.set d1.clk.masterSeen origin (1 + eligible % 2 + 2 * (priority % 16)) } }.elect) := by
  refine (if_pos h).trans (if_congr ?_ rfl rfl)
  by_cases hrelay : hops < 3
  · rw [if_pos hrelay, Dev.position_sendAllBut]
  · rw [if_neg hrelay]

theorem Dev.recvDelayReq_talks (again t : Nat) :
    d.recvDelayReq p again t = (d.toTime t).queueMessage p 0x14 (leBytes ((d.toTime t).stamp / 2 ^ 28 * 2 ^ 28) 8 ++ leBytes again 1) :=
  if_pos ((Dev.portTalks_toTime d t p).trans h)

end Talks

/-! Messages that the upstream port of a follower brings (R272, R282, R302). -/

section Upstream

variable {d : Dev} {p : Nat} (h : d.portTalks p = true) (hup : d.isUpstream p = true)
include h hup

theorem Dev.recvSync_upstream (addend t : Nat) :
    d.recvSync p addend t =
      (let d2 := (d.toTime t).voidMeasure p
       let d3 := { d2 with clk := { d2.clk with
           lastSync := d2.now, lastHeard := d2.now, masterAddend := addend, t2 := SMap.set d2.clk.t2 p (d2.stamp / 2 ^ 28 * 2 ^ 28 + 1) } }
       let d4 := if d.rd R.TIME.TIME_STATUS_FROZEN = 1 ∨ d.rd R.TIME.TIME_STATUS_HOLDOVER = 1 then d3 else d3.setAddend addend
       (forUpto 4 (fun n (d : Dev) => if d.tbSource n = 7 then d.endCause n 4 else d) d4).queueMessage p 0x13 []) := by
  refine (if_pos (by rw [Dev.portTalks_toTime, Dev.isUpstream_toTime, h, hup]; rfl)).trans (congrArg (fun d4 => Dev.queueMessage p 0x13 [] (forUpto 4 _ d4)) ?_)
  have hheld (r : Reg) : ((d.toTime t).on r = true) ↔ d.rd r = 1 := by rw [Dev.on_iff, Dev.rd_toTime]
  exact if_congr (Bool.or_eq_true_iff.trans (or_congr (hheld _) (hheld _))) rfl rfl

theorem Dev.recvFollowUp_upstream (stamp void : Nat) :
    d.recvFollowUp p stamp void =
      if void = 1 then d.voidMeasure p else if SMap.get d.clk.t2 p = 0 then d
      else ({ d with clk := { d.clk with t1 := SMap.set d.clk.t1 p (stamp + 1) } } : Dev).tryMeasure p :=
  if_pos (by rw [h, hup]; rfl)

theorem Dev.recvDelayResp_upstream (stamp void : Nat) :
    d.recvDelayResp p stamp void =
      if void = 1 then d.voidMeasure p else if SMap.get d.clk.t3 p = 0 then d
      else ({ d with clk := { d.clk with t4 := SMap.set d.clk.t4 p (stamp + 1) } } : Dev).tryMeasure p :=
  if_pos (by rw [h, hup]; rfl)

theorem Dev.recvTick_upstream {n : Nat} (stamp pos : Nat) (hn : n < 4) :
    d.recvTick p n stamp pos =
      (let d2 := { d.sendAllBut p 0x15 (leBytes n 1 ++ leBytes stamp 8 ++ leBytes pos 4) with clk := { d.clk with lastHeard := d.now } }
       if d2.tbSource n = 7 then
         let d3 := (d2.endCause n 4).followPosition n pos
         d3.issueTick n (d3.instantOf (d3.fromMaster stamp)) d3.tbNow
       else d2) := by
  refine (if_pos (by rw [h, hup]; rfl)).trans ?_
  simp only [Dev.sendAllBut_clk, Dev.sendAllBut_now, hn, decide_true, Bool.true_and, beq_iff_eq]

end Upstream

/-! A port that carries no messages, and one that is not upstream. -/

section Deaf

variable {d : Dev} {p : Nat}

theorem Dev.recvAnnounce_silent (h : d.portTalks p = false) (eligible priority origin hops : Nat) : d.recvAnnounce p eligible priority origin hops = d := by
  simp [Dev.recvAnnounce, h]

theorem Dev.recvDelayReq_silent (h : d.portTalks p = false) (again t : Nat) : d.recvDelayReq p again t = d := by simp [Dev.recvDelayReq, h]

variable (h : d.portTalks p = false ∨ d.isUpstream p = false)
include h

theorem Dev.not_talks_upstream : (d.portTalks p && d.isUpstream p) = false := Bool.and_eq_false_iff.mpr h

theorem Dev.recvSync_deaf (addend t : Nat) : d.recvSync p addend t = d := by simp [Dev.recvSync, Dev.not_talks_upstream h]

theorem Dev.recvFollowUp_deaf (stamp void : Nat) : d.recvFollowUp p stamp void = d := by simp [Dev.recvFollowUp, Dev.not_talks_upstream h]

theorem Dev.recvDelayResp_deaf (stamp void : Nat) : d.recvDelayResp p stamp void = d := by simp [Dev.recvDelayResp, Dev.not_talks_upstream h]

theorem Dev.recvTick_deaf (n stamp pos : Nat) : d.recvTick p n stamp pos = d := by simp [Dev.recvTick, Dev.not_talks_upstream h]

end Deaf

/-- Settles O34: each message by whether its port carries it and, for those of the master, is the upstream one. -/
theorem timeMessages : Obligations.TimeMessages := by
  unfold Obligations.TimeMessages
  refine ⟨?announce, ?sync, ?stamps, ?delayReq, ?tick, ?deaf, ?silent, ?noUnit⟩
  case announce => exact fun s p eligible priority origin hops hp h => State.onUnit_after (decide_eq_true hp) (Dev.recvAnnounce_talks h ..)
  case sync => exact fun s p addend t hp h hup => State.onUnit_after (decide_eq_true hp) (Dev.recvSync_upstream h hup addend t)
  case stamps =>
    exact fun s p stamp void hp h hup =>
      ⟨State.onUnit_after (decide_eq_true hp) (Dev.recvFollowUp_upstream h hup stamp void),
        State.onUnit_after (decide_eq_true hp) (Dev.recvDelayResp_upstream h hup stamp void)⟩
  case delayReq => exact fun s p again t hp h => State.onUnit_after (decide_eq_true hp) (Dev.recvDelayReq_talks h again t)
  case tick =>
    rintro s p n stamp pos d2 hp hn h hup rfl
    exact State.onUnit_after (by rw [decide_eq_true hp, decide_eq_true hn]; rfl) (Dev.recvTick_upstream h hup stamp pos hn)
  case deaf =>
    intro s p n a b t hp hn h
    exact ⟨State.onUnit_unchanged (decide_eq_true hp) (Dev.recvSync_deaf h a t), State.onUnit_unchanged (decide_eq_true hp) (Dev.recvFollowUp_deaf h a b),
      State.onUnit_unchanged (decide_eq_true hp) (Dev.recvDelayResp_deaf h a b),
      State.onUnit_unchanged (by rw [decide_eq_true hp, decide_eq_true hn]; rfl) (Dev.recvTick_deaf h n a b)⟩
  case silent =>
    exact fun s p a b c e t hp h =>
      ⟨State.onUnit_unchanged (decide_eq_true hp) (Dev.recvAnnounce_silent h a b c e), State.onUnit_unchanged (decide_eq_true hp) (Dev.recvDelayReq_silent h a t)⟩
  case noUnit =>
    intro s p n a b c e t h
    have noPort (f : Dev → Dev) (hp : 8 ≤ p) : s.onUnit (p < 8) f = .fault .noSuchUnit := State.onUnit_fault s f (decide_eq_false (Nat.not_lt.mpr hp))
    refine ⟨State.onUnit_fault s _ ?_, noPort _, noPort _, noPort _, noPort _, noPort _⟩
    rw [Bool.and_eq_false_iff, decide_eq_false_iff_not, decide_eq_false_iff_not]
    omega

end Sys2Proof.Machine

/-! PROOFS. Device time: its wraps, its rate, its corrections and its reference (spec/10 R268, R273 to R276). -/

namespace Sys2Proof.Machine

/-! The bits of a word that the host writes, and what a command sets in it. -/

theorem isSet_eq_testBit (n i : Nat) : isSet n i = n.testBit i := by
  unfold isSet
  rw [bitAt_eq_toNat]
  cases n.testBit i <;> rfl

theorem isSet_or (a b i : Nat) : isSet (a ||| b) i = (isSet a i || isSet b i) := by
  simp only [isSet_eq_testBit, Nat.testBit_or]

theorem isSet_clear {n i : Nat} (h : bitAt n i = 0) : isSet n i = false := by
  unfold isSet
  rw [h]
  rfl

/-! Wraps (R268). -/

theorem Dev.timeWrap_wraps {d : Dev} {t : Nat} (h : (d.toTime t).clk.epoch < (d.toTime t).now / 2 ^ 64) :
    d.timeWrap t =
      (let d1 := d.toTime t
       ((({ d1 with clk := { d1.clk with epoch := d1.clk.epoch + 1 } } : Dev).wr R.TIME.WRAPS (d.rd R.TIME.WRAPS + 1)).event 0x400).traceWrap) := by
  rw [← Dev.rd_toTime d t]
  exact if_pos h

theorem Dev.timeWrap_goes_on {d : Dev} {t : Nat} (h : (d.toTime t).now / 2 ^ 64 ≤ (d.toTime t).clk.epoch) : d.timeWrap t = d := if_neg (Nat.not_lt.mpr h)

/-! ADDEND (R273). -/

theorem Dev.leadsTime_atWrite (d : Dev) (t : Nat) : (d.atWrite t).leadsTime = d.leadsTime :=
  Dev.KeepsTimeAs.leadsTime (.count <| .toTime ⟨rfl, rfl, rfl⟩)

/-- The ADDEND that a write of its high word commits. -/
def Dev.addendPair (d : Dev) (hi : Nat) : Nat := d.stagedLow (R.TIME.ADDEND.key 0 0) (d.rd R.TIME.ADDEND) + hi % 2 ^ 8 * 2 ^ 32

/-- The device takes `v` as its ADDEND: it keeps time itself with SOURCE FREE, and `v` lies within 9.990 to 10.010 ns. -/
def Dev.takesAddend (d : Dev) (v : Nat) : Prop :=
  d.rd R.TIME.TIME_CTRL_SOURCE = 0 ∧ d.leadsTime = true ∧ 9990 * 2 ^ 32 ≤ v * 1000 ∧ v * 1000 ≤ 10010 * 2 ^ 32

theorem Dev.addendPair_atWrite (d : Dev) (t hi : Nat) : (d.atWrite t).addendPair hi = d.addendPair hi := by
  unfold Dev.addendPair
  rw [Dev.stagedLow_atWrite, Dev.rd_atWrite _ _ (by decide)]

theorem Dev.takesAddend_atWrite (d : Dev) (t v : Nat) : (d.atWrite t).takesAddend v ↔ d.takesAddend v := by
  unfold Dev.takesAddend
  rw [Dev.rd_atWrite _ _ (by decide), Dev.leadsTime_atWrite]

theorem Dev.addendWrite_taken {d : Dev} {hi : Nat} (h : d.takesAddend (d.addendPair hi)) :
    d.addendWrite hi = (d.unstage (R.TIME.ADDEND.key 0 0)).setAddend (d.addendPair hi) := if_pos h

theorem Dev.addendWrite_refused {d : Dev} {hi : Nat} (h : ¬ d.takesAddend (d.addendPair hi)) :
    d.addendWrite hi = (d.unstage (R.TIME.ADDEND.key 0 0)).wr R.TIME.TIME_STATUS_WRITE_REFUSED 1 := if_neg h

theorem Dev.addend_setAddend (d : Dev) (v : Nat) : (d.setAddend v).rd R.TIME.ADDEND = v % 2 ^ 40 := Dev.rd_wr_same ..

/-! The commands in TIME_CTRL (R275). -/

theorem Dev.timeCtrlWrite_accept {d : Dev} {w : Nat} (h11 : bitAt w 11 = 0) (h12 : bitAt w 12 = 0) :
    d.timeCtrlWrite (w ||| 0x400) = (d.timeCtrlFields (w ||| 0x400)).jumpAccept := by
  simp [Dev.timeCtrlWrite, Dev.when, isSet_or, isSet_clear h11, isSet_clear h12, show isSet 0x400 10 = true by decide, show isSet 0x400 11 = false by decide,
    show isSet 0x400 12 = false by decide]

theorem Dev.timeCtrlWrite_reject {d : Dev} {w : Nat} (h10 : bitAt w 10 = 0) (h12 : bitAt w 12 = 0) :
    d.timeCtrlWrite (w ||| 0x800) = (d.timeCtrlFields (w ||| 0x800)).jumpReject := by
  simp [Dev.timeCtrlWrite, Dev.when, isSet_or, isSet_clear h10, isSet_clear h12, show isSet 0x800 10 = false by decide, show isSet 0x800 11 = true by decide,
    show isSet 0x800 12 = false by decide]

theorem Dev.timeCtrlWrite_resume {d : Dev} {w : Nat} (h10 : bitAt w 10 = 0) (h11 : bitAt w 11 = 0) :
    d.timeCtrlWrite (w ||| 0x1000) = (d.timeCtrlFields (w ||| 0x1000)).resumeTime := by
  simp [Dev.timeCtrlWrite, Dev.when, isSet_or, isSet_clear h10, isSet_clear h11, show isSet 0x1000 10 = false by decide, show isSet 0x1000 11 = false by decide,
    show isSet 0x1000 12 = true by decide]

theorem Dev.jumpAccept_runs {d : Dev} (h : d.running = true) : d.jumpAccept = d.wr R.TIME.TIME_STATUS_WRITE_REFUSED 1 := if_pos h

theorem Dev.jumpAccept_frozen {d : Dev} (hrests : d.running = false) (hfrozen : d.on R.TIME.TIME_STATUS_FROZEN = true) :
    d.jumpAccept =
      (let x := signedOf 64 (d.rd R.TIME.OFFSET)
       (d.wr R.TIME.TIME_STATUS_FROZEN 0).setJump (if 0 ≤ x then .forward else .backward) x.natAbs true) :=
  (if_neg (by rw [hrests]; exact Bool.false_ne_true)).trans (if_pos hfrozen)

theorem Dev.jumpReject_eq (d : Dev) :
    d.jumpReject =
      if d.rd R.TIME.TIME_STATUS_FROZEN = 1 then ((d.wr R.TIME.TIME_STATUS_FROZEN 0).wr R.TIME.PENDING 0).wr R.TIME.TIME_STATUS_HOLDOVER 1 else d :=
  if_congr (Dev.on_iff _ _) rfl rfl

/-! A correction at its edge of REFCLK_100 (R274). -/

section Jump

variable {d : Dev} {j : Jump}

theorem Dev.passJump_due {dt : Nat} (h : d.clk.jump = some j) (hdue : j.wait ≤ dt) : d.passJump dt = (d.elapse j.wait).makeJump j := by
  unfold Dev.passJump
  rw [h]
  exact if_pos hdue

theorem Dev.makeJump_now (d : Dev) (j : Jump) :
    (d.makeJump j).now = match j.kind with | .forward => d.now + j.size | .backward => d.now - j.size | .slew => d.now := rfl

theorem Dev.toTime_makes_jump {t : Nat} (h : d.clk.jump = some j) (hdue : j.wait ≤ d.timeTo t) :
    (d.toTime t).clk.jump = none ∧ (d.toTime t).clk.jumped = some ((d.elapse j.wait).mono, d.now + j.wait, j) := by
  unfold Dev.toTime
  rw [Dev.passJump_due h hdue]
  exact ⟨rfl, rfl⟩

theorem Dev.settleJump_backward {m a : Nat} (h : d.clk.jumped = some (m, a, j)) (hkind : j.kind = .backward) (hts : j.ts = true) :
    d.settleJump = (({ d with clk := { d.clk with jumped := none } } : Dev).event 0x402).traceTs := by
  unfold Dev.settleJump Dev.when
  rw [h]
  dsimp only
  rw [hkind, hts]
  rfl

end Jump

theorem Dev.offsetAbsorbed_eq (d : Dev) (t : Nat) :
    d.offsetAbsorbed t =
      (let d1 := d.toTick t
       if d1.on R.TIME.TIME_STATUS_SLEWING = true ∧ d1.clk.slewLeft = 0 then d1.wr R.TIME.TIME_STATUS_SLEWING 0 else d1) :=
  if_congr (by rw [Bool.and_eq_true, decide_eq_true_eq]) rfl rfl

/-! The return of the reference (R276). -/

/-- Time base `n` when the reference is back: cause 0x5 ends, and a source that counts the reference starts again where it stood still. -/
def Dev.referenceBack (held : Bool) (n : Nat) (d : Dev) : Dev :=
  let cause := isSet (SMap.get d.clk.lost n) 5
  let d2 := if cause then d.endCause n 5 else d
  if (held || cause) && (d.tbSource n == 1 || d.tbSource n == 6) then d2.tbTakesEffect n else d2

theorem Dev.referenceReturn_eq (d : Dev) (t : Nat) :
    d.referenceReturn t = forUpto 4 (Dev.referenceBack ((d.toTick t).on R.CLK.CLK_STATUS_HOLDOVER)) ((d.toTick t).wr R.CLK.CLK_STATUS_HOLDOVER 0) := rfl

theorem Dev.referenceBack_held (n : Nat) (d : Dev) :
    d.referenceBack true n =
      (let d2 := if isSet (SMap.get d.clk.lost n) 5 = true then d.endCause n 5 else d
       if d.tbSource n = 1 ∨ d.tbSource n = 6 then d2.tbTakesEffect n else d2) :=
  if_congr (by simp only [Bool.true_or, Bool.true_and, Bool.or_eq_true, beq_iff_eq]) rfl rfl

theorem Dev.referenceBack_not_held (n : Nat) (d : Dev) :
    d.referenceBack false n =
      if isSet (SMap.get d.clk.lost n) 5 = true then (if d.tbSource n = 1 ∨ d.tbSource n = 6 then (d.endCause n 5).tbTakesEffect n else d.endCause n 5) else d := by
  unfold Dev.referenceBack
  by_cases hcause : isSet (SMap.get d.clk.lost n) 5 = true
  · simp only [hcause, Bool.or_true, Bool.true_and, if_true, Bool.or_eq_true, beq_iff_eq]
  · simp only [hcause, Bool.or_false, Bool.false_and, Bool.false_eq_true, if_false]

/-- Settles O26: each command by the state of device time that it meets, and a correction by its edge. -/
theorem deviceTime : Obligations.DeviceTime := by
  unfold Obligations.DeviceTime
  refine ⟨?wraps, ?goesOn, ?addend, ?addendRefused, ?accept, fun d k x ts => rfl, ?edge, fun d m a j => Dev.settleJump_backward, ?acceptRuns, ?reject, ?resume, ?absorbed,
    ?held, ?notHeld⟩
  case wraps => exact fun s t h => State.onDev_after (Dev.timeWrap_wraps h)
  case goesOn => exact fun s t h => State.onDev_unchanged (Dev.timeWrap_goes_on h)
  case addend =>
    intro s hi t v hreach hv hsource hlead hmin hmax
    have hpair : (s.dev.atWrite t).addendPair hi = v := (s.dev.addendPair_atWrite t hi).trans hv.symm
    have htakes : (s.dev.atWrite t).takesAddend v := (s.dev.takesAddend_atWrite t v).mpr ⟨hsource, hlead, hmin, hmax⟩
    refine ⟨_, State.onDev_row (g := fun d => ((d.atWrite t).unstage (R.TIME.ADDEND.key 0 0)).setAddend v) hreach ?_, rfl, ?_⟩
    · rw [Dev.addendWrite_taken (hpair.symm ▸ htakes), hpair]
    · exact (Dev.addend_setAddend _ v).trans (Nat.mod_eq_of_lt (by omega))
  case addendRefused =>
    intro s hi t v hreach hv h
    have hpair : (s.dev.atWrite t).addendPair hi = v := (s.dev.addendPair_atWrite t hi).trans hv.symm
    refine State.onDev_row hreach (Dev.addendWrite_refused ?_)
    rw [hpair, Dev.takesAddend_atWrite]
    rintro ⟨hsource, hlead, hmin, hmax⟩
    obtain hs | hl | hlow | hhigh := h
    · exact hs hsource
    · exact Bool.false_ne_true (hl.symm.trans hlead)
    · omega
    · omega
  case accept =>
    rintro s w t x d1 hreach h11 h12 rfl hrests hfrozen rfl
    exact State.onDev_row hreach ((Dev.timeCtrlWrite_accept h11 h12).trans (Dev.jumpAccept_frozen hrests hfrozen))
  case edge =>
    intro d j t hjump hdue
    obtain ⟨hnone, hjumped⟩ := Dev.toTime_makes_jump hjump hdue
    refine ⟨?_, hnone, _, hjumped⟩
    rw [Dev.passJump_due hjump hdue]
    exact Dev.makeJump_now ..
  case acceptRuns =>
    rintro s w t d1 hreach h11 h12 rfl hrun
    exact State.onDev_row hreach ((Dev.timeCtrlWrite_accept h11 h12).trans (Dev.jumpAccept_runs hrun))
  case reject =>
    rintro s w t d1 hreach h10 h12 rfl
    exact State.onDev_row hreach ((Dev.timeCtrlWrite_reject h10 h12).trans (Dev.jumpReject_eq _))
  case resume => exact fun s w t hreach h10 h11 => State.onDev_row hreach (Dev.timeCtrlWrite_resume h10 h11)
  case absorbed =>
    rintro s t d1 rfl
    exact State.onDev_after (Dev.offsetAbsorbed_eq s.dev t)
  case held =>
    rintro s t d1 rfl hheld
    refine State.onDev_after ((Dev.referenceReturn_eq s.dev t).trans ?_)
    rw [hheld, funext₂ Dev.referenceBack_held]
  case notHeld =>
    rintro s t d1 rfl hheld
    refine State.onDev_after ((Dev.referenceReturn_eq s.dev t).trans ?_)
    rw [hheld, funext₂ Dev.referenceBack_not_held]

end Sys2Proof.Machine

/-! PROOFS. Pulse outputs, captures and the pulses of trigger lines (spec/10 R285 to R287). -/

namespace Sys2Proof.Machine

/-! Fields of a numbered register, and a field that is written on a condition. -/

theorem Reg.key_number_ne {q r : Reg} (n k : Nat) (hstride : q.stride = r.stride) (h : q.key n 0 ≠ r.key n 0) : q.key n k ≠ r.key n k := by
  unfold Reg.key at *
  rw [hstride]
  omega

section When

variable {d : Dev} {c : Bool} {r : Reg} {n k v : Nat}

theorem Dev.rdAt_when_wrAt_same : (d.when c fun x => x.wrAt r n k v).rdAt r n k = if c then v % 2 ^ r.width else d.rdAt r n k := by
  unfold Dev.when
  rw [apply_ite (Dev.rdAt · r n k), Dev.rdAt_wrAt_same]

theorem Dev.rdAt_when_wrAt_ne {q : Reg} {m j : Nat} (h : q.key m j ≠ r.key n k) : (d.when c fun x => x.wrAt r n k v).rdAt q m j = d.rdAt q m j := by
  unfold Dev.when
  rw [apply_ite (Dev.rdAt · q m j), Dev.rdAt_wrAt_ne d v h, ite_self]

/-- What no register write changes, none on a condition does. -/
theorem Dev.when_wrAt_keeps {γ : Type} (g : Dev → γ) (hg : g (d.wrAt r n k v) = g d) : g (d.when c fun x => x.wrAt r n k v) = g d := by
  unfold Dev.when
  rw [apply_ite g, hg, ite_self]

end When

theorem Dev.instantOf_congr {d e : Dev} (h : d.now = e.now) (x : Nat) : d.instantOf x = e.instantOf x := by
  unfold Dev.instantOf Dev.stamp
  rw [h]

/-! The level of a pulse output: its pad shows it two cycles after the edge (R267). -/

section SetPulse

variable (d : Dev) (k v m : Nat)

@[simp] theorem Dev.setPulse_pulse : (d.setPulse k v m).clk.pulse = SMap.set d.clk.pulse k v := rfl

@[simp] theorem Dev.setPulse_pulseEnd : (d.setPulse k v m).clk.pulseEnd = d.clk.pulseEnd := rfl

theorem Dev.setPulse_shows : (SMap.get (d.setPulse k v m).clk.outs k).head? = some (d.tbEdge m 2, v) := by
  simp only [Dev.setPulse, Dev.setOut, SMap.get_set_same]
  rfl

end SetPulse

/-! PULSE_CTRL (R285). -/

/-- A write of PULSE_CTRL_k that R285 drops: a PERIODIC output whose PERIOD is no longer than its WIDTH, or below 5 ns. -/
def Dev.pulseDrops (d : Dev) (k w : Nat) : Prop :=
  w % 4 = 2 ∧ (d.rdAt R.TIME.PERIOD 0 k ≤ d.rdAt R.TIME.WIDTH 0 k * 2 ^ 32 ∨ d.rdAt R.TIME.PERIOD 0 k < 5 * 2 ^ 32)

/-- MODE of the word: ONCE or PERIODIC. -/
def pulseArms (w : Nat) : Bool := w % 4 == 1 || w % 4 == 2

/-- The fields of PULSE_CTRL_k after a write of `w`, but for a LATE that it sets. -/
def Dev.pulseFields (k w : Nat) (d : Dev) : Dev :=
  (((d.when (isSet w 9) fun x => x.wrAt R.TIME.PULSE_CTRL_LATE 0 k 0).wrAt R.TIME.PULSE_CTRL_MODE 0 k (w % 4)).wrAt R.TIME.PULSE_CTRL_IDLE 0 k (w / 4)).wrAt
    R.TIME.PULSE_CTRL_ARMED 0 k (bit (pulseArms w))

/-- Pulse output `k` is idle and armed as `w` says, on the device `e` with its fields. -/
def Dev.pulseIdle (k w : Nat) (d e : Dev) : Dev :=
  { e with clk := { e.clk with
      pulseEnd := SMap.set e.clk.pulseEnd k 0, pulseArm := SMap.set e.clk.pulseArm k (e.mono + 1)
      pulseNext := SMap.set e.clk.pulseNext k (if pulseArms w then d.instantOf (d.rdAt R.TIME.START 0 k) else 0)
      pulsePer := SMap.set e.clk.pulsePer k (if w % 4 = 2 then d.rdAt R.TIME.PERIOD 0 k else 0)
      pulseWid := SMap.set e.clk.pulseWid k (if pulseArms w then d.rdAt R.TIME.WIDTH 0 k * 2 ^ 32 else 0) } }.setPulse k 0 e.tbNow

/-- A write of PULSE_CTRL_k that is taken. -/
def Dev.pulseTaken (k w : Nat) (d : Dev) : Dev :=
  (Dev.pulseIdle k w d (d.pulseFields k w)).when (pulseArms w && decide (d.instantOf (d.rdAt R.TIME.START 0 k) ≤ d.now)) fun x => x.wrAt R.TIME.PULSE_CTRL_LATE 0 k 1

section PulseCtrl

variable {d : Dev} {k w : Nat}

theorem Dev.pulseFields_now : (d.pulseFields k w).now = d.now := by
  unfold Dev.pulseFields
  simp only [Dev.wrAt_now, Dev.when_wrAt_keeps Dev.now (Dev.wrAt_now ..)]

theorem Dev.pulseCtrlWrite_dropped {t : Nat} (h : (d.toTick t).pulseDrops k w) : d.pulseCtrlWrite k w t = (d.toTick t).wr R.TIME.TIME_STATUS_WRITE_REFUSED 1 :=
  if_pos h

theorem Dev.pulseCtrlWrite_taken {t : Nat} (h : ¬ (d.toTick t).pulseDrops k w) : d.pulseCtrlWrite k w t = (d.toTick t).pulseTaken k w := by
  have hat : ((d.toTick t).pulseFields k w).instantOf ((d.toTick t).rdAt R.TIME.START 0 k) = (d.toTick t).instantOf ((d.toTick t).rdAt R.TIME.START 0 k) :=
    Dev.instantOf_congr Dev.pulseFields_now _
  refine (if_neg h).trans ?_
  unfold Dev.pulseTaken Dev.pulseIdle
  rw [← hat, ← Dev.pulseFields_now (d := d.toTick t) (k := k) (w := w)]
  exact if_congr (by rw [Bool.and_eq_true, decide_eq_true_eq]; rfl) rfl rfl

/-- What a write of PULSE_CTRL_k leaves in it. -/
theorem Dev.pulseTaken_fields : (d.pulseTaken k w).rdAt R.TIME.PULSE_CTRL_MODE 0 k = w % 4 ∧ (d.pulseTaken k w).rdAt R.TIME.PULSE_CTRL_IDLE 0 k = w / 4 % 2 ∧
    (d.pulseTaken k w).rdAt R.TIME.PULSE_CTRL_ARMED 0 k = bit (pulseArms w) := by
  have hfields {q : Reg} (hlate : q.key 0 k ≠ R.TIME.PULSE_CTRL_LATE.key 0 k) : (d.pulseTaken k w).rdAt q 0 k = (d.pulseFields k w).rdAt q 0 k :=
    Dev.rdAt_when_wrAt_ne hlate
  have hne {q r : Reg} (h : q.stride = r.stride ∧ q.key 0 0 ≠ r.key 0 0) : q.key 0 k ≠ r.key 0 k := Reg.key_number_ne 0 k h.1 h.2
  refine ⟨(hfields (hne (by decide))).trans ?_, (hfields (hne (by decide))).trans ?_, (hfields (hne (by decide))).trans ?_⟩
  · exact (Dev.rdAt_wrAt_ne _ _ (hne (by decide))).trans ((Dev.rdAt_wrAt_ne _ _ (hne (by decide))).trans ((Dev.rdAt_wrAt_same ..).trans (Nat.mod_mod _ 4)))
  · exact (Dev.rdAt_wrAt_ne _ _ (hne (by decide))).trans (Dev.rdAt_wrAt_same ..)
  · exact (Dev.rdAt_wrAt_same ..).trans (Nat.mod_eq_of_lt (bit_lt _))

/-- LATE is set where the instant of an output that the write arms has passed, and else as the word leaves it. -/
theorem Dev.pulseTaken_late (harms : pulseArms w = true) :
    (d.pulseTaken k w).rdAt R.TIME.PULSE_CTRL_LATE 0 k =
      if d.instantOf (d.rdAt R.TIME.START 0 k) ≤ d.now then 1 else if isSet w 9 then 0 else d.rdAt R.TIME.PULSE_CTRL_LATE 0 k := by
  have hne {r : Reg} (h : R.TIME.PULSE_CTRL_LATE.stride = r.stride ∧ R.TIME.PULSE_CTRL_LATE.key 0 0 ≠ r.key 0 0) :
      R.TIME.PULSE_CTRL_LATE.key 0 k ≠ r.key 0 k := Reg.key_number_ne 0 k h.1 h.2
  have hfields : (d.pulseFields k w).rdAt R.TIME.PULSE_CTRL_LATE 0 k = if isSet w 9 then 0 else d.rdAt R.TIME.PULSE_CTRL_LATE 0 k :=
    (Dev.rdAt_wrAt_ne _ _ (hne (by decide))).trans
      ((Dev.rdAt_wrAt_ne _ _ (hne (by decide))).trans ((Dev.rdAt_wrAt_ne _ _ (hne (by decide))).trans Dev.rdAt_when_wrAt_same))
  refine Dev.rdAt_when_wrAt_same.trans (if_congr ?_ rfl hfields)
  rw [harms, Bool.true_and, decide_eq_true_eq]

theorem Dev.pulseTaken_arr : (d.pulseTaken k w).arr = d.arr := (Dev.when_wrAt_keeps Dev.arr rfl).trans (Dev.when_wrAt_keeps Dev.arr rfl)

theorem Dev.pulseTaken_pins : (d.pulseTaken k w).pins = d.pins := (Dev.when_wrAt_keeps Dev.pins rfl).trans (Dev.when_wrAt_keeps Dev.pins rfl)

theorem Dev.pulse_pulseTaken : SMap.get (d.pulseTaken k w).clk.pulse k = 0 :=
  (Dev.when_wrAt_keeps (fun d => SMap.get d.clk.pulse k) rfl).trans (by rw [Dev.pulseIdle, Dev.setPulse_pulse, SMap.get_set_same])

theorem Dev.pulseNext_pulseTaken (harms : pulseArms w = true) : SMap.get (d.pulseTaken k w).clk.pulseNext k = d.instantOf (d.rdAt R.TIME.START 0 k) :=
  (Dev.when_wrAt_keeps (fun d => SMap.get d.clk.pulseNext k) rfl).trans ((SMap.get_set_same ..).trans (if_pos harms))

end PulseCtrl

/-! The boundaries of a pulse (R285). -/

section Boundary

variable {d : Dev} {k m : Nat}

theorem Dev.pulseStep_start (h : SMap.get d.clk.pulseEnd k = 0) :
    d.pulseStep k m =
      ({ d with clk := { d.clk with
          pulseEnd := SMap.set d.clk.pulseEnd k 1, pulseNext := SMap.set d.clk.pulseNext k (SMap.get d.clk.pulseNext k + SMap.get d.clk.pulseWid k) } } : Dev).setPulse k
        (bit (decide (0 < SMap.get d.clk.pulseWid k))) m := if_pos h

theorem Dev.pulseStep_end (h : SMap.get d.clk.pulseEnd k ≠ 0) :
    d.pulseStep k m =
      (let d2 := ({ d with clk := { d.clk with
           pulseEnd := SMap.set d.clk.pulseEnd k 0
           pulseNext := SMap.set d.clk.pulseNext k (SMap.get d.clk.pulseNext k - SMap.get d.clk.pulseWid k + SMap.get d.clk.pulsePer k) } } : Dev).setPulse k 0 m
       if d.rdAt R.TIME.PULSE_CTRL_MODE 0 k = 2 then d2 else d2.wrAt R.TIME.PULSE_CTRL_ARMED 0 k 0) := if_neg h

theorem Dev.pulseEnd_pulseStep_start (h : SMap.get d.clk.pulseEnd k = 0) : SMap.get (d.pulseStep k m).clk.pulseEnd k = 1 := by
  simp only [Dev.pulseStep_start h, Dev.setPulse_pulseEnd, SMap.get_set_same]

theorem Dev.pulseEnd_pulseStep_end (h : SMap.get d.clk.pulseEnd k ≠ 0) : SMap.get (d.pulseStep k m).clk.pulseEnd k = 0 := by
  rw [Dev.pulseStep_end h]
  dsimp only
  split <;> simp only [Dev.wrAt_clk, Dev.setPulse_pulseEnd, SMap.get_set_same]

theorem Dev.pulseDue_iff (d : Dev) (k : Nat) : d.pulseDue k = true ↔ d.rdAt R.TIME.PULSE_CTRL_ARMED 0 k = 1 ∧ d.pulseEdge k ≤ d.mono := by
  unfold Dev.pulseDue
  rw [Bool.and_eq_true, beq_iff_eq, decide_eq_true_eq]

variable {t : Nat}

/-- A start, with the end that falls on its edge. -/
theorem Dev.pulseBoundary_start (hdue : (d.toTick t).pulseDue k = true) (h : SMap.get (d.toTick t).clk.pulseEnd k = 0) :
    d.pulseBoundary k t =
      (let m := (d.toTick t).pulseEdge k
       let d2 := (d.toTick t).pulseStep k m
       if d2.pulseEdge k = m then d2.pulseStep k m else d2) :=
  (if_pos hdue).trans (if_congr (and_iff_right (Dev.pulseEnd_pulseStep_start h)) rfl rfl)

theorem Dev.pulseBoundary_end (hdue : (d.toTick t).pulseDue k = true) (h : SMap.get (d.toTick t).clk.pulseEnd k ≠ 0) :
    d.pulseBoundary k t = (d.toTick t).pulseStep k ((d.toTick t).pulseEdge k) :=
  (if_pos hdue).trans (if_neg fun hend => absurd ((Dev.pulseEnd_pulseStep_end h).symm.trans hend.1) (by decide))

theorem Dev.pulseBoundary_not_due (h : ¬ (d.toTick t).pulseDue k = true) : d.pulseBoundary k t = d.toTick t := if_neg h

end Boundary

/-! Captures (R286). -/

section Capture

variable {d d1 : Dev} {k level since t m u : Nat}

/-- Capture `k` takes the edge to `level` that comes at the edge `m` of the time-base clock, stamped `u`. -/
def Dev.captures (k level m u : Nat) (d : Dev) : Prop :=
  m ≤ d.mono ∧ d.rdAt R.TIME.CAP_CTRL_ENABLE 0 k = 1 ∧ edgeSelected (d.rdAt R.TIME.CAP_CTRL_EDGE 0 k) (level % 2) = true ∧
    (d.rdAt R.TIME.CAP_CTRL_GATE_EN 0 k = 0 ∨ stampGe u (d.rdAt R.TIME.GATE_START 0 k) = true ∧ (!stampGe u (d.rdAt R.TIME.GATE_END 0 k)) = true) ∧
    d.pinServes (264 + k) 3 (0x10 + k) = true

theorem Dev.captureEdge_taken (h1 : d1 = (d.toTick t).settlePins) (hm : m = d1.qualified (d1.rdAt R.TIME.CAP_CTRL_FILTER 0 k) since) (hu : u = d1.stampAt m % 2 ^ 64)
    (h : d1.captures k level m u) :
    d.captureEdge k level since t =
      if 16 ≤ (SMap.get d1.clk.caps k).length then (d1.wrAt R.TIME.CAP_STATUS_OVERFLOW 0 k 1).event (0x430 + k)
      else (d1.setCaps k (SMap.get d1.clk.caps k ++ [putBit u 0 level])).event (0x420 + k) := by
  subst h1 hm hu
  exact if_pos h

theorem Dev.captureEdge_missed (h1 : d1 = (d.toTick t).settlePins) (hm : m = d1.qualified (d1.rdAt R.TIME.CAP_CTRL_FILTER 0 k) since) (hu : u = d1.stampAt m % 2 ^ 64)
    (h : ¬ d1.captures k level m u) : d.captureEdge k level since t = d1 := by
  subst h1 hm hu
  exact if_neg h

/-! Reading a stamp (R286): time that passes leaves the FIFOs. -/

theorem Dev.elapse_caps (d : Dev) (dt : Nat) : (d.elapse dt).clk.caps = d.clk.caps := rfl

theorem Dev.passJump_caps (d : Dev) (dt : Nat) : (d.passJump dt).clk.caps = d.clk.caps := by
  unfold Dev.passJump
  split
  · exact iteInduction (motive := fun e : Dev => e.clk.caps = d.clk.caps) (fun _ => rfl) fun _ => rfl
  · rfl

theorem Dev.atRead_caps (d : Dev) (t : Nat) : (d.atRead t).clk.caps = d.clk.caps := (Dev.elapse_caps ..).trans (Dev.passJump_caps ..)

theorem Dev.stampLoRead_atRead (hk : k < 16) :
    (d.atRead t).stampLoRead k =
      (let d1 := d.atRead t
       (({ d1 with latch := SMap.set d1.latch (R.TIME.STAMP.key 0 k / 8) (d.rdAt R.TIME.STAMP 0 k / 2 ^ 32 + 1) } : Dev).emit
         (.readData (leBytes (d.rdAt R.TIME.STAMP 0 k) 4))).setCaps k ((SMap.get d.clk.caps k).drop 1)) := by
  have hstamp : (d.atRead t).rdAt R.TIME.STAMP 0 k = d.rdAt R.TIME.STAMP 0 k := by
    refine Dev.rdAt_atRead d t ?_
    simp only [Reg.key, R.TIME.STAMP, R.CNT.LIVE]
    omega
  unfold Dev.stampLoRead
  dsimp only
  rw [hstamp, Dev.atRead_caps]

end Capture

/-- Settles O30: a pulse output by its writes and boundaries, a capture by what it takes of an edge. -/
theorem pulsesAndCaptures : Obligations.PulsesAndCaptures := by
  unfold Obligations.PulsesAndCaptures
  refine ⟨?taken, ?dropped, ?start, ?stop, fun d k v m => ⟨by rw [Dev.setPulse_pulse, SMap.get_set_same], d.setPulse_shows k v m⟩, ?noBoundary, ?captured, ?missed, ?popped,
    ?lineEnds, ?noOutput, ?noInput⟩
  case taken =>
    intro s k w t d0 hk hreach h0 hkept
    have htick : (s.dev.atWrite t).toTick t = d0 := by rw [Dev.toTick, Dev.toTime_atWrite, h0]
    have hkeeps : ¬ d0.pulseDrops k w := by
      rintro ⟨hmode, hshort⟩
      omega
    obtain ⟨hmode, hidle, harmed⟩ := d0.pulseTaken_fields (k := k) (w := w)
    have harms (h : w % 4 = 1 ∨ w % 4 = 2) : pulseArms w = true := by simpa [pulseArms] using h
    refine ⟨_, State.onUnit_row (g := fun _ => d0.pulseTaken k w) (decide_eq_true hk) hreach ?_, rfl, rfl, Dev.pulseTaken_arr, Dev.pulseTaken_pins, hmode, hidle,
      harmed.trans ?_, Dev.pulse_pulseTaken, fun h => ⟨Dev.pulseNext_pulseTaken (harms h), (Dev.pulseTaken_late (harms h)).trans ?_⟩⟩
    · rw [Dev.pulseCtrlWrite_taken (htick.symm ▸ hkeeps), htick]
    · exact congrArg bit (Bool.eq_iff_iff.mpr (by simp [pulseArms]))
    · simp only [isSet, beq_iff_eq]
  case dropped =>
    intro s k w t d0 hk hreach h0 hmode hshort
    have htick : (s.dev.atWrite t).toTick t = d0 := by rw [Dev.toTick, Dev.toTime_atWrite, h0]
    refine State.onUnit_row (decide_eq_true hk) hreach ?_
    rw [Dev.pulseCtrlWrite_dropped (htick.symm ▸ ⟨hmode, hshort⟩), htick]
  case start =>
    rintro s k t m d1 hk rfl rfl harmed hcome hstart
    refine State.onUnit_after (decide_eq_true hk) ((Dev.pulseBoundary_start ((Dev.pulseDue_iff ..).mpr ⟨harmed, hcome⟩) hstart).trans ?_)
    dsimp only
    rw [Dev.pulseStep_start hstart]
  case stop =>
    rintro s k t m d1 hk rfl rfl harmed hcome hend
    exact State.onUnit_after (decide_eq_true hk) ((Dev.pulseBoundary_end ((Dev.pulseDue_iff ..).mpr ⟨harmed, hcome⟩) hend).trans (Dev.pulseStep_end hend))
  case noBoundary =>
    intro s k t hk h
    refine State.onUnit_after (decide_eq_true hk) (Dev.pulseBoundary_not_due ?_)
    rw [Dev.pulseDue_iff]
    omega
  case captured =>
    intro s k level since t m u d1 hk h1 hm hu hcome henable hedge hgate hpin
    refine State.onUnit_after (decide_eq_true hk) (Dev.captureEdge_taken h1 hm hu ⟨hcome, henable, hedge, ?_, hpin⟩)
    rwa [Bool.not_eq_true']
  case missed =>
    intro s k level since t m u d1 hk h1 hm hu h
    refine State.onUnit_after (decide_eq_true hk) (Dev.captureEdge_missed h1 hm hu ?_)
    rintro ⟨hcome, henable, hedge, hgate, hpin⟩
    obtain hearly | hoff | hother | hunserved | ⟨hgated, houtside⟩ := h
    · omega
    · exact hoff henable
    · exact Bool.false_ne_true (hother.symm.trans hedge)
    · exact Bool.false_ne_true (hunserved.symm.trans hpin)
    · obtain hopen | ⟨hafter, hbefore⟩ := hgate
      · exact hgated hopen
      · rw [Bool.not_eq_true'] at hbefore
        simp [hafter, hbefore] at houtside
  case popped =>
    exact fun s k t hk hup => State.onUnit_after (decide_eq_true hk) ((Dev.rowRead_up s.dev 0xD t _ hup).trans (Dev.stampLoRead_atRead hk))
  case lineEnds =>
    rintro s k t d1 hk rfl
    exact State.onUnit_after (decide_eq_true hk) rfl
  case noOutput =>
    intro s k w t hk
    have noUnit (f : Dev → Dev) : s.onUnit (k < 8) f = .fault .noSuchUnit := State.onUnit_fault s f (decide_eq_false (Nat.not_lt.mpr hk))
    exact ⟨noUnit _, noUnit _⟩
  case noInput =>
    intro s k v t hk
    have noUnit (f : Dev → Dev) : s.onUnit (k < 16) f = .fault .noSuchUnit := State.onUnit_fault s f (decide_eq_false (Nat.not_lt.mpr hk))
    exact ⟨noUnit _, noUnit _, noUnit _⟩

end Sys2Proof.Machine

/-! PROOFS. The training of a KermaLink port (spec/11 R293, R304, R307, R309, R315). -/

namespace Sys2Proof.Machine

/-! What the passing of time and the writes of registers leave of a port. -/

@[simp] theorem Dev.port_toTime (d : Dev) (t p : Nat) : (d.toTime t).port p = d.port p := by
  unfold Dev.port
  rw [Dev.toTime_ports]

@[simp] theorem Dev.portState_toTime (d : Dev) (t p : Nat) : (d.toTime t).portState p = d.portState p := Dev.rdAt_toTime ..

@[simp] theorem Dev.minLanes_toTime (d : Dev) (t p : Nat) : (d.toTime t).minLanes p = d.minLanes p := by
  unfold Dev.minLanes
  rw [Dev.port_toTime, Dev.rdAt_toTime]

theorem Dev.port_wrAt (d : Dev) (r : Reg) (n k v p : Nat) : (d.wrAt r n k v).port p = d.port p := rfl

/-- A field is written alike by words that agree in its bits. -/
theorem Dev.wrAt_congr_mod (d : Dev) (r : Reg) (n k : Nat) {v w : Nat} (h : v % 2 ^ r.width = w % 2 ^ r.width) : d.wrAt r n k v = d.wrAt r n k w := by
  unfold Dev.wrAt
  rw [h]

/-- A record of a port names the position and the take, which no register of a page from the ports' on holds. -/
theorem Dev.linkFault_wrAt (d : Dev) {r : Reg} (n k v code sev p lane detail : Nat) (hr : 0x209000 ≤ r.base) :
    (d.wrAt r n k v).linkFault code sev p lane detail = d.linkFault code sev p lane detail := by
  have hposition : (d.wrAt r n k v).rd R.LOAD.POSITION = d.rd R.LOAD.POSITION := Dev.rdAt_wrAt_ne d v (by simp only [Reg.key, R.LOAD.POSITION]; omega)
  have htake : (d.wrAt r n k v).rd R.TAKE.TAKE_NUMBER = d.rd R.TAKE.TAKE_NUMBER := Dev.rdAt_wrAt_ne d v (by simp only [Reg.key, R.TAKE.TAKE_NUMBER]; omega)
  unfold Dev.linkFault Dev.record Dev.position
  rw [hposition, htake]
  rfl

/-! KL_CTRL and TX_EQ (R304, R315). -/

section Control

variable {d : Dev} {p w : Nat}

theorem Dev.klEnable_atWrite (d : Dev) (t : Nat) (hp : p < 8) : (d.atWrite t).rdAt R.KL.KL_CTRL_ENABLE p 0 = d.rdAt R.KL.KL_CTRL_ENABLE p 0 :=
  Dev.rdAt_atWrite d t (by simp only [Reg.key, R.KL.KL_CTRL_ENABLE, R.CNT.LIVE]; omega)

/-- RETRAIN is none of the fields that KL_CTRL holds. -/
theorem Dev.klFields_retrain (d : Dev) (p w : Nat) : d.klFields p (w ||| 4) = d.klFields p w := by
  have hlow : (w ||| 4) % 2 = w % 2 := by simp [Nat.or_mod_two_pow (n := 1)]
  have hallow : (w ||| 4) / 2 % 2 = w / 2 % 2 := by
    rw [Nat.or_div_two, Nat.or_mod_two_pow (n := 1)]
    simp
  have hfield (lo : Nat) (hlo : 3 ≤ lo) : fieldAt (w ||| 4) lo 4 = fieldAt w lo 4 := by
    unfold fieldAt
    rw [Nat.or_div_two_pow, Nat.div_eq_of_lt (a := 4), Nat.or_zero]
    exact lt_of_lt_of_le (by decide : 4 < 2 ^ 3) (Nat.pow_le_pow_right (by decide) hlo)
  unfold Dev.klFields
  rw [hfield 4 (by decide), hfield 8 (by decide), Dev.wrAt_congr_mod d R.KL.KL_CTRL_ENABLE p 0 hlow, Dev.wrAt_congr_mod _ R.KL.KL_CTRL_V2_ALLOW p 0 hallow]

theorem Dev.klCtrlWrite_running (h : d.running = true) : d.klCtrlWrite p w = d.wrAt R.KL.KL_STATUS_WRITE_REFUSED p 0 1 := if_pos h

theorem Dev.txEqWrite_running (h : d.running = true) : d.txEqWrite p w = d.wrAt R.KL.KL_STATUS_WRITE_REFUSED p 0 1 := if_pos h

variable (h : d.running = false)
include h

theorem Dev.klCtrlWrite_on (hw : w % 2 = 1) :
    d.klCtrlWrite p w =
      if d.rdAt R.KL.KL_CTRL_ENABLE p 0 = 0 ∨ bitAt w 2 = 1 then
        (((d.klFields p w).wrAt R.KL.KL_STATUS_V2_FAILED p 0 0).setPort p fun q => { q with fails := 0 }).enterDetect p
      else d.klFields p w := by
  refine (if_neg (by simp [h])).trans ((if_neg (by omega)).trans (if_congr ?_ rfl rfl))
  rw [isSet, beq_iff_eq]

theorem Dev.klCtrlWrite_off (hw : w % 2 = 0) :
    d.klCtrlWrite p w =
      if d.rdAt R.KL.KL_CTRL_ENABLE p 0 = 1 then ((d.klFields p w).wrAt R.KL.KL_STATUS_V2_FAILED p 0 0).portDown p 1 else d.klFields p w :=
  (if_neg (by simp [h])).trans (if_pos hw)

/-- RETRAIN with ENABLE set trains anew. -/
theorem Dev.klCtrlWrite_retrain_on (hw : w % 2 = 1) :
    d.klCtrlWrite p (w ||| 4) = (((d.klFields p w).wrAt R.KL.KL_STATUS_V2_FAILED p 0 0).setPort p fun q => { q with fails := 0 }).enterDetect p := by
  have hbit : bitAt (w ||| 4) 2 = 1 := by
    have : isSet (w ||| 4) 2 = true := by simp [isSet_or, show isSet 4 2 = true from rfl]
    simpa [isSet] using this
  rw [Dev.klCtrlWrite_on h (by simpa [Nat.or_mod_two_pow (n := 1)] using hw), if_pos (.inr hbit), Dev.klFields_retrain]

theorem Dev.klCtrlWrite_retrain_off (hw : w % 2 = 0) :
    d.klCtrlWrite p (w ||| 4) =
      if d.rdAt R.KL.KL_CTRL_ENABLE p 0 = 1 then ((d.klFields p w).wrAt R.KL.KL_STATUS_V2_FAILED p 0 0).portDown p 1 else d.klFields p w := by
  rw [Dev.klCtrlWrite_off h (by simpa [Nat.or_mod_two_pow (n := 1)] using hw), Dev.klFields_retrain]

theorem Dev.txEqWrite_stopped : d.txEqWrite p w = ((d.wrAt R.KL.TX_EQ_PRE p 0 w).wrAt R.KL.TX_EQ_POST p 0 (w / 16)).wrAt R.KL.TX_EQ_SWING p 0 (w / 512) :=
  if_neg (by simp [h])

end Control

/-! From DETECT to EXCHANGE, or LOWRATE (R304, R314). -/

section States

variable {d : Dev} {p : Nat} (t : Nat)

theorem Dev.peerClockActivity_detect (hp : p < 8) (h : d.portState p = 1) : d.peerClockActivity p t = (d.toTime t).enterClockLock p 1 false :=
  if_pos ⟨hp, (Dev.portState_toTime ..).trans h⟩

theorem Dev.peerClockActivity_other (h : d.portState p ≠ 1) : d.peerClockActivity p t = d :=
  if_neg fun ⟨_, hstate⟩ => h ((Dev.portState_toTime ..).symm.trans hstate)

theorem Dev.receivePllLock_clockLock (hp : p < 8) (h : d.portState p = 2) :
    d.receivePllLock p t =
      (let d1 := (d.toTime t).wrAt R.KL.CLK_LOL_NOW p 0 0
       if (d.port p).low then d1.enterSymbolLock p 1 else d1.enterBitLock p) := by
  refine (if_pos ⟨hp, (Dev.portState_toTime ..).trans h⟩).trans ?_
  dsimp only
  rw [Dev.port_wrAt, Dev.port_toTime]

theorem Dev.receivePllLock_other (h : d.portState p ≠ 2) : d.receivePllLock p t = d :=
  if_neg fun ⟨_, hstate⟩ => h ((Dev.portState_toTime ..).symm.trans hstate)

theorem Dev.bitLockDone_bitLock (lanes : Nat) (hp : p < 8) (h : d.portState p = 3) :
    d.bitLockDone p lanes t =
      (let d1 := (d.toTime t).setPort p fun q => { q with locked := lanes &&& q.wanted }
       if lanes &&& (d.port p).wanted = (d.port p).wanted ∧ d1.minLanes p ≤ popCount (d.port p).wanted 8 then d1.enterSymbolLock p (d.port p).wanted else d1) := by
  refine (if_pos ⟨hp, (Dev.portState_toTime ..).trans h⟩).trans ?_
  dsimp only
  rw [Dev.port_setPort, Dev.port_toTime]
  by_cases hall : lanes &&& (d.port p).wanted = (d.port p).wanted
  · rw [hall]
    rfl
  · exact (if_neg (mt And.left hall)).trans (if_neg (mt And.left hall)).symm

theorem Dev.bitLockDone_other (lanes : Nat) (h : d.portState p ≠ 3) : d.bitLockDone p lanes t = d :=
  if_neg fun ⟨_, hstate⟩ => h ((Dev.portState_toTime ..).symm.trans hstate)

theorem Dev.symbolLockDone_symbolLock (hp : p < 8) (h : d.portState p = 4) :
    d.symbolLockDone p t =
      (let d1 := d.toTime t
       if (d.port p).low then (d1.setPort p fun q => { q.requeue with fails := 0, fromLow := true }).setPortState p 7 else d1.enterExchange p) := by
  refine (if_pos ⟨hp, (Dev.portState_toTime ..).trans h⟩).trans ?_
  rw [Dev.port_toTime]

theorem Dev.symbolLockDone_other (h : d.portState p ≠ 4) : d.symbolLockDone p t = d :=
  if_neg fun ⟨_, hstate⟩ => h ((Dev.portState_toTime ..).symm.trans hstate)

/-! Timeouts (R304, R307). -/

theorem Dev.linkStateTimeout_due (hp : p < 8) (htimeout : linkTimeout (d.portState p) ≠ 0) (hdue : (d.port p).since + linkTimeout (d.portState p) ≤ (d.toTime t).mono) :
    d.linkStateTimeout p t =
      if d.portState p ≠ 3 then (d.toTime t).attemptFailed p 2
      else if d.minLanes p ≤ popCount (d.port p).locked 8 then (d.toTime t).enterSymbolLock p (d.port p).locked else (d.toTime t).attemptFailed p 3 := by
  unfold Dev.linkStateTimeout
  dsimp only
  rw [Dev.portState_toTime, Dev.port_toTime, Dev.minLanes_toTime, if_pos ⟨hp, htimeout, hdue⟩, ite_not]

theorem Dev.linkStateTimeout_not_due (h : linkTimeout (d.portState p) = 0 ∨ (d.toTime t).mono < (d.port p).since + linkTimeout (d.portState p)) :
    d.linkStateTimeout p t = d := by
  unfold Dev.linkStateTimeout
  dsimp only
  rw [Dev.portState_toTime, Dev.port_toTime, if_neg]
  rintro ⟨_, htimeout, hdue⟩
  exact h.elim htimeout (Nat.not_lt.mpr hdue)

/-! Loss of signal and of lock (R309). -/

theorem Dev.linkLos_wanted {lane : Nat} (hp : p < 8) (hlane : lane < 8) (h : 3 ≤ d.portState p) (hwanted : isSet (d.port p).wanted lane = true) :
    d.linkLos p lane t =
      (let d1 := (d.toTime t).wrAt R.KL.LOS_NOW p 0 (putBit (d.rdAt R.KL.LOS_NOW p 0) lane 1)
       let d2 := (d1.report (d1.linkFault 0x60 0 p lane 0) false).setPort p fun q => { q with excl := putBit q.excl lane 1 }
       if d.portState p = 3 then d2 else d2.enterBitLock p) := by
  unfold Dev.linkLos
  dsimp only
  rw [Dev.portState_toTime, Dev.port_toTime, Dev.rdAt_toTime, if_pos ⟨hp, hlane, h, hwanted⟩, Dev.linkFault_wrAt _ _ _ _ _ _ _ _ _ (by decide)]

theorem Dev.linkLos_other {lane : Nat} (h : d.portState p < 3 ∨ 8 ≤ lane ∨ isSet (d.port p).wanted lane = false) : d.linkLos p lane t = d := by
  unfold Dev.linkLos
  dsimp only
  rw [Dev.portState_toTime, Dev.port_toTime, if_neg]
  rintro ⟨_, hlane, hstate, hwanted⟩
  obtain h | h | h := h
  · omega
  · omega
  · exact Bool.false_ne_true (h.symm.trans hwanted)

theorem Dev.linkLol_wanted {lane : Nat} (hp : p < 8) (hlane : lane < 8) (h : 3 ≤ d.portState p) (hwanted : isSet (d.port p).wanted lane = true) :
    d.linkLol p lane t =
      (let d1 := (d.toTime t).wrAt R.KL.LOL_NOW p 0 (putBit (d.rdAt R.KL.LOL_NOW p 0) lane 1)
       let d2 := d1.report (d1.linkFault 0x61 0 p lane 0) false
       if d.portState p = 3 then d2 else d2.enterBitLock p) := by
  unfold Dev.linkLol
  dsimp only
  rw [Dev.portState_toTime, Dev.port_toTime, Dev.rdAt_toTime, if_neg (by omega), if_pos ⟨hp, hlane, h, hwanted⟩, Dev.linkFault_wrAt _ _ _ _ _ _ _ _ _ (by decide)]

theorem Dev.linkLol_clock (hp : p < 8) (h : 3 ≤ d.portState p) :
    d.linkLol p 0x7F t =
      (let d1 := (d.toTime t).wrAt R.KL.CLK_LOL_NOW p 0 1
       (d1.report (d1.linkFault 0x61 0 p 0x7F 0) false).enterClockLock p (d.port p).version (d.port p).low) := by
  unfold Dev.linkLol
  dsimp only
  rw [Dev.portState_toTime, Dev.port_toTime, if_pos ⟨hp, rfl, h⟩, Dev.linkFault_wrAt _ _ _ _ _ _ _ _ _ (by decide)]

theorem Dev.linkLol_other {lane : Nat} (h : d.portState p < 3 ∨ lane ≠ 0x7F ∧ (8 ≤ lane ∨ isSet (d.port p).wanted lane = false)) : d.linkLol p lane t = d := by
  unfold Dev.linkLol
  dsimp only
  rw [Dev.portState_toTime, Dev.port_toTime, if_neg (by omega), if_neg]
  rintro ⟨_, hlane, hstate, hwanted⟩
  obtain h | ⟨_, h | h⟩ := h
  · omega
  · omega
  · exact Bool.false_ne_true (h.symm.trans hwanted)

end States

/-- Settles O31: each command by the state that it acts in. -/
theorem portTraining : Obligations.PortTraining := by
  unfold Obligations.PortTraining
  refine ⟨?refused, ?txEq, ?on, ?off, ?clock, fun s p t hp h => State.onUnit_after (decide_eq_true hp) (Dev.receivePllLock_clockLock t hp h), ?pllOther,
    fun s p lanes t hp h => State.onUnit_after (decide_eq_true hp) (Dev.bitLockDone_bitLock t lanes hp h), ?bitOther,
    fun s p t hp h => State.onUnit_after (decide_eq_true hp) (Dev.symbolLockDone_symbolLock t hp h), ?symbolOther,
    fun s p t hp htimeout hdue => State.onUnit_after (decide_eq_true hp) (Dev.linkStateTimeout_due t hp htimeout hdue), ?notDue, ?lost, ?clockLost, ?unwanted, ?noLaneLos,
    ?noLaneLol, ?noUnit⟩
  case refused =>
    intro s p w t hp hreach hrun
    have hwrite : (s.dev.atWrite t).running = true := (s.dev.running_atWrite t).trans hrun
    exact ⟨State.onUnit_row (decide_eq_true hp) hreach (Dev.klCtrlWrite_running hwrite), State.onUnit_row (decide_eq_true hp) hreach (Dev.klCtrlWrite_running hwrite),
      State.onUnit_row (decide_eq_true hp) hreach (Dev.txEqWrite_running hwrite)⟩
  case txEq =>
    intro s p w t hp hreach hrest
    exact State.onUnit_row (decide_eq_true hp) hreach (Dev.txEqWrite_stopped ((s.dev.running_atWrite t).trans hrest))
  case on =>
    intro s p w t hp hreach hrest hw
    have hwrite : (s.dev.atWrite t).running = false := (s.dev.running_atWrite t).trans hrest
    refine ⟨State.onUnit_row (decide_eq_true hp) hreach ((Dev.klCtrlWrite_on hwrite hw).trans ?_),
      State.onUnit_row (decide_eq_true hp) hreach (Dev.klCtrlWrite_retrain_on hwrite hw)⟩
    rw [Dev.klEnable_atWrite s.dev t hp]
  case off =>
    intro s p w t hp hreach hrest hw
    have hwrite : (s.dev.atWrite t).running = false := (s.dev.running_atWrite t).trans hrest
    refine ⟨State.onUnit_row (decide_eq_true hp) hreach ((Dev.klCtrlWrite_off hwrite hw).trans ?_),
      State.onUnit_row (decide_eq_true hp) hreach ((Dev.klCtrlWrite_retrain_off hwrite hw).trans ?_)⟩ <;>
    rw [Dev.klEnable_atWrite s.dev t hp]
  case clock =>
    intro s p t hp
    split
    next h => exact State.onUnit_after (decide_eq_true hp) (Dev.peerClockActivity_detect t hp h)
    next h => exact State.onUnit_unchanged (decide_eq_true hp) (Dev.peerClockActivity_other t h)
  case pllOther => exact fun s p t hp h => State.onUnit_unchanged (decide_eq_true hp) (Dev.receivePllLock_other t h)
  case bitOther => exact fun s p lanes t hp h => State.onUnit_unchanged (decide_eq_true hp) (Dev.bitLockDone_other t lanes h)
  case symbolOther => exact fun s p t hp h => State.onUnit_unchanged (decide_eq_true hp) (Dev.symbolLockDone_other t h)
  case notDue => exact fun s p t hp h => State.onUnit_unchanged (decide_eq_true hp) (Dev.linkStateTimeout_not_due t h)
  case lost =>
    exact fun s p lane t hp hlane h hwanted => ⟨State.onUnit_after (decide_eq_true hp) (Dev.linkLos_wanted t hp hlane h hwanted),
      State.onUnit_after (decide_eq_true hp) (Dev.linkLol_wanted t hp hlane h hwanted)⟩
  case clockLost => exact fun s p t hp h => State.onUnit_after (decide_eq_true hp) (Dev.linkLol_clock t hp h)
  case unwanted =>
    exact fun s p lane t hp h => ⟨State.onUnit_unchanged (decide_eq_true hp) (Dev.linkLos_other t (h.imp_right fun hlane => .inr hlane.2)),
      State.onUnit_unchanged (decide_eq_true hp) (Dev.linkLol_other t (h.imp_right fun ⟨hlane, hexcluded⟩ => ⟨by omega, .inr hexcluded⟩))⟩
  case noLaneLos => exact fun s p lane t hp hlane => State.onUnit_unchanged (decide_eq_true hp) (Dev.linkLos_other t (.inr (.inl hlane)))
  case noLaneLol => exact fun s p lane t hp hlane hclock => State.onUnit_unchanged (decide_eq_true hp) (Dev.linkLol_other t (.inr ⟨hclock, .inl hlane⟩))
  case noUnit =>
    intro s p a t hp
    have noUnit (f : Dev → Dev) : s.onUnit (p < 8) f = .fault .noSuchUnit := State.onUnit_fault s f (decide_eq_false (Nat.not_lt.mpr hp))
    exact ⟨noUnit _, noUnit _, noUnit _, noUnit _, noUnit _, noUnit _, noUnit _, noUnit _, noUnit _, noUnit _⟩

end Sys2Proof.Machine

/-! PROOFS. The exchange of a KermaLink port (spec/11 R301, R305, R306, spec/01 R32). -/

namespace Sys2Proof.Machine

/-! EXCHANGE_A (R305, R306). -/

section ExchangeA

variable {d : Dev} {p : Nat}

/-- The registers of the port show what the peer says of itself (R305). -/
def Dev.peerShown (p highest position port device : Nat) (d : Dev) : Dev :=
  (((d.wrAt R.KL.PEER_POSITION p 0 position).wrAt R.KL.PEER_PORT p 0 port).wrAt R.KL.PEER_VERSION p 0 highest).wrAt R.KL.PEER_DEVICE_ID p 0 device

/-- The port goes on with the lanes `use`, which both sides use (R305). -/
def Dev.lanesAgreed (p use : Nat) (d : Dev) : Dev := (d.wrAt R.KL.KL_STATUS_USABLE p 0 use).setPort p fun q => { q with excl := 255 - use }

/-- EXCHANGE_A of a peer that fits has left the lanes `use` (R305, R306). -/
def Dev.exchangeTaken (p highest selected use : Nat) (d : Dev) : Dev :=
  if popCount use 8 < d.minLanes p then d.attemptFailed p 3
  else
    let d1 := d.setPort p fun q => { q with gotA := true, peerSel := selected + 1, sel := min (d.highestVersion p) highest }
    (if min (d.highestVersion p) highest = (d.port p).sel then d1 else d1.sendExchangeA p).exchangeDone p

variable (highest position port device use : Nat)

theorem Dev.rdAt_peerShown {q : Reg} {n : Nat} (h : ∀ r ∈ [R.KL.PEER_POSITION, R.KL.PEER_PORT, R.KL.PEER_VERSION, R.KL.PEER_DEVICE_ID], q.key n 0 ≠ r.key p 0) :
    (d.peerShown p highest position port device).rdAt q n 0 = d.rdAt q n 0 := by
  simp only [List.forall_mem_cons] at h
  obtain ⟨hposition, hport, hversion, hdevice, _⟩ := h
  unfold Dev.peerShown
  rw [Dev.rdAt_wrAt_ne _ _ hdevice, Dev.rdAt_wrAt_ne _ _ hversion, Dev.rdAt_wrAt_ne _ _ hport, Dev.rdAt_wrAt_ne _ _ hposition]

/-- A register of a page below the ports' reads as before. -/
theorem Dev.rd_peerShown {q : Reg} (hq : q.key 0 0 < 0x209000 * 8) : (d.peerShown p highest position port device).rd q = d.rd q := by
  refine Dev.rdAt_peerShown highest position port device fun r hr => ?_
  have hpage : 0x209000 * 8 ≤ r.key 0 0 := (by decide : ∀ r ∈ [R.KL.PEER_POSITION, R.KL.PEER_PORT, R.KL.PEER_VERSION, R.KL.PEER_DEVICE_ID], 0x209000 * 8 ≤ r.key 0 0) r hr
  rw [Reg.key_page r p]
  omega

/-- Another register of the port's page reads as before. -/
theorem Dev.rdAt_peerShown_page {q : Reg}
    (hq : ∀ r ∈ [R.KL.PEER_POSITION, R.KL.PEER_PORT, R.KL.PEER_VERSION, R.KL.PEER_DEVICE_ID], q.key 0 0 ≠ r.key 0 0) :
    (d.peerShown p highest position port device).rdAt q p 0 = d.rdAt q p 0 :=
  Dev.rdAt_peerShown highest position port device fun r hr => Reg.key_page_ne p (hq r hr)

theorem Dev.highestVersion_lanesAgreed : ((d.peerShown p highest position port device).lanesAgreed p use).highestVersion p = d.highestVersion p := by
  unfold Dev.highestVersion Dev.lanesAgreed
  rw [Dev.rdAt_setPort, Dev.rdAt_setPort, Dev.rdAt_wrAt_ne _ _ (Reg.key_page_ne p (by decide)), Dev.rdAt_wrAt_ne _ _ (Reg.key_page_ne p (by decide)),
    Dev.rdAt_peerShown_page _ _ _ _ (by decide), Dev.rdAt_peerShown_page _ _ _ _ (by decide)]

theorem Dev.sel_lanesAgreed : (((d.peerShown p highest position port device).lanesAgreed p use).port p).sel = (d.port p).sel := by
  unfold Dev.lanesAgreed
  rw [Dev.port_setPort]
  rfl

/-- The version is selected as before the peer showed itself. -/
theorem Dev.exchangeTaken_lanesAgreed (selected : Nat) :
    ((d.peerShown p highest position port device).lanesAgreed p use).exchangeTaken p highest selected use =
      (let d2 := (d.peerShown p highest position port device).lanesAgreed p use
       if popCount use 8 < d2.minLanes p then d2.attemptFailed p 3
       else
         let d3 := d2.setPort p fun q => { q with gotA := true, peerSel := selected + 1, sel := min (d.highestVersion p) highest }
         (if min (d.highestVersion p) highest = (d.port p).sel then d3 else d3.sendExchangeA p).exchangeDone p) := by
  unfold Dev.exchangeTaken
  rw [Dev.highestVersion_lanesAgreed, Dev.sel_lanesAgreed]

theorem Dev.exchangeA_exchange (selected lanes mhz : Nat) (hp : p < 8) (h : d.portState p = 5) :
    d.exchangeA p highest selected lanes position port mhz device =
      (let d1 := d.peerShown p highest position port device
       let use := d.rdAt R.KL.KL_STATUS_USABLE p 0 &&& lanes
       if facing d.position p = some (position, port) ∧ device = d.deviceId ∧ mhz = d.rd R.CLK.STEP_MHZ then (d1.lanesAgreed p use).exchangeTaken p highest selected use
       else d1.peerMismatch p) := by
  have hposition : (d.peerShown p highest position port device).position = d.position := Dev.rd_peerShown _ _ _ _ (by decide)
  have hstep : (d.peerShown p highest position port device).rd R.CLK.STEP_MHZ = d.rd R.CLK.STEP_MHZ := Dev.rd_peerShown _ _ _ _ (by decide)
  have husable : (d.peerShown p highest position port device).rdAt R.KL.KL_STATUS_USABLE p 0 = d.rdAt R.KL.KL_STATUS_USABLE p 0 :=
    Dev.rdAt_peerShown_page _ _ _ _ (by decide)
  rw [← hposition, ← hstep, ← husable]
  exact if_pos ⟨hp, h⟩

end ExchangeA

/-! EXCHANGE_B and EXCHANGE_C (R301, R305). -/

section Exchange

variable {d : Dev} {p : Nat} (hp : p < 8) (h : d.portState p = 5)
include hp h

/-- PRODUCTION_ID of the peer is shown; the PRODUCTION_ID and SET_SIZE of the device itself are as before. -/
theorem Dev.exchangeB_exchange (production size : Nat) :
    d.exchangeB p production size =
      (let d1 := d.wrAt R.KL.PEER_PRODUCTION_ID p 0 production
       if production = d.rd R.LOAD.PRODUCTION_ID ∧ size = d.ld.setSize then (d1.setPort p fun q => { q with gotB := true }).exchangeDone p else d1.peerMismatch p) := by
  have hown : (d.wrAt R.KL.PEER_PRODUCTION_ID p 0 production).rd R.LOAD.PRODUCTION_ID = d.rd R.LOAD.PRODUCTION_ID :=
    Dev.rdAt_wrAt_ne d _ (by simp only [Reg.key, R.KL.PEER_PRODUCTION_ID, R.LOAD.PRODUCTION_ID]; omega)
  refine (if_pos ⟨hp, h⟩).trans ?_
  dsimp only
  rw [hown, Dev.wrAt_ld]

theorem Dev.exchangeC_exchange (serial : Nat) :
    d.exchangeC p serial = ((d.wrAt R.KL.PEER_SERIAL p 0 serial).setPort p fun q => { q with gotC := true }).exchangeDone p := if_pos ⟨hp, h⟩

end Exchange

theorem Dev.exchangeDone_eq (d : Dev) (p : Nat) : d.exchangeDone p =
    if (d.port p).gotA = true ∧ (d.port p).gotB = true ∧ (d.port p).gotC = true ∧ (d.port p).peerSel = (d.port p).sel + 1 then
      (if (d.port p).sel = (d.port p).version then d.enterActive p else d.enterClockLock p (d.port p).sel false)
    else d :=
  if_congr (by simp only [Bool.and_eq_true, decide_eq_true_eq, and_assoc]) rfl rfl

/-- Settles O32: each message by whether the port is in EXCHANGE and whether the peer fits. -/
theorem portExchange : Obligations.PortExchange := by
  unfold Obligations.PortExchange
  refine ⟨?exchangeA, ?fits, ?mismatch,
    fun s p serial hp h => State.onUnit_after (decide_eq_true hp) (Dev.exchangeC_exchange hp h serial), Dev.exchangeDone_eq, ?ignored, ?noUnit⟩
  case exchangeA =>
    intro s p highest selected lanes position port mhz device hp h
    refine State.onUnit_after (decide_eq_true hp) ((Dev.exchangeA_exchange highest position port device selected lanes mhz hp h).trans ?_)
    dsimp only
    rw [Dev.exchangeTaken_lanesAgreed]
    rfl
  case fits =>
    intro s p production size hp h hproduction hsize
    exact State.onUnit_after (decide_eq_true hp) ((Dev.exchangeB_exchange hp h production size).trans (if_pos ⟨hproduction, hsize⟩))
  case mismatch =>
    intro s p production size hp h hother
    exact State.onUnit_after (decide_eq_true hp) ((Dev.exchangeB_exchange hp h production size).trans (if_neg (not_and_or.mpr hother)))
  case ignored =>
    intro s p a b c e f g k hp h
    have unchanged {f : Dev → Dev} (hf : f s.dev = s.dev) := State.onUnit_unchanged (decide_eq_true hp) hf
    exact ⟨unchanged (if_neg fun hc => h hc.2), unchanged (if_neg fun hc => h hc.2), unchanged (if_neg fun hc => h hc.2)⟩
  case noUnit =>
    intro s p a b c e f g k hp
    have noUnit (f : Dev → Dev) : s.onUnit (p < 8) f = .fault .noSuchUnit := State.onUnit_fault s f (decide_eq_false (Nat.not_lt.mpr hp))
    exact ⟨noUnit _, noUnit _, noUnit _⟩

end Sys2Proof.Machine

/-! PROOFS. What a fault record leaves of the ports (spec/06 R173, spec/18 R478, R482, R484, spec/19 R501 to R506): the event, the safe state that it can bring about and the stop
of the array change the state of no port.  Each function has one lemma here, under the function's own name, whose proof term repeats its definition; record updates that write no
register are passed over. -/

namespace Sys2Proof.Machine

/-- Every port is in the state in which it is in `e`. -/
def Dev.PortStatesAs (e d : Dev) : Prop := ∀ p < 8, d.portState p = e.portState p

namespace Dev.PortStatesAs

variable {e d : Dev}

theorem ite {c : Prop} [Decidable c] {a b : Dev} (ha : e.PortStatesAs a) (hb : e.PortStatesAs b) : e.PortStatesAs (if c then a else b) := by split <;> assumption

theorem ite_record {c : Prop} [Decidable c] {a b : FRec × Bool × Dev} (ha : e.PortStatesAs a.2.2) (hb : e.PortStatesAs b.2.2) :
    e.PortStatesAs (if c then a else b).2.2 := by
  split <;> assumption

theorem forAll {α : Type} {f : α → Dev → Dev} {l : List α} (hf : ∀ {a b}, e.PortStatesAs b → e.PortStatesAs (f a b)) (h : e.PortStatesAs d) :
    e.PortStatesAs (forAll l f d) :=
  List.foldlRecOn l _ h fun _ hb _ _ => hf hb

/-- What writes no register. -/
theorem same {b : Dev} (h : e.PortStatesAs d) (hregs : b.regs = d.regs) : e.PortStatesAs b := fun p hp => (Dev.rdAt_congr hregs ..).trans (h p hp)

/-- A register of a page above the ports'. -/
theorem wrAt {r : Reg} {n k v : Nat} (h : e.PortStatesAs d) (hr : 0x211000 ≤ r.base) : e.PortStatesAs (d.wrAt r n k v) := by
  intro p hp
  refine (Dev.rdAt_wrAt_ne d v ?_).trans (h p hp)
  simp only [Reg.key, R.KL.KL_STATUS_STATE]
  omega

theorem wr {r : Reg} {v : Nat} (h : e.PortStatesAs d) (hr : ∀ p < 8, R.KL.KL_STATUS_STATE.key p 0 ≠ r.key 0 0) : e.PortStatesAs (d.wr r v) :=
  fun p hp => (Dev.rdAt_wr_ne d v (hr p hp)).trans (h p hp)

theorem bump {r : Reg} (h : e.PortStatesAs d) (hr : ∀ p < 8, R.KL.KL_STATUS_STATE.key p 0 ≠ r.key 0 0) : e.PortStatesAs (d.bump r) := .wr h hr

theorem count {u k n : Nat} (h : e.PortStatesAs d) : e.PortStatesAs (d.count u k n) := .wrAt h (by decide)

theorem tracePacket {bs : Bytes} (h : e.PortStatesAs d) : e.PortStatesAs (d.tracePacket bs) := .ite (.ite (.count <| .count h) <| .count <| .wr h (by decide)) h

theorem sendMsix {route : Nat} (h : e.PortStatesAs d) : e.PortStatesAs (d.sendMsix route) := .ite h <| .ite (.count h) h

theorem flagEvent {src : Nat} (h : e.PortStatesAs d) : e.PortStatesAs (d.flagEvent src) := .ite (.sendMsix h) h

theorem plainEvent {src : Nat} (h : e.PortStatesAs d) : e.PortStatesAs (d.plainEvent src) := .ite (.tracePacket <| .flagEvent h) <| .flagEvent h

theorem writeRecord {r : FRec} (h : e.PortStatesAs d) : e.PortStatesAs (d.writeRecord r).2.2 :=
  .ite_record (.wr (.wr h (by decide)) (by decide)) <| .ite_record (.bump (.wr h (by decide)) (by decide)) <| .wr h (by decide)

theorem routedRecord {src : Nat} (h : e.PortStatesAs d) : e.PortStatesAs (d.routedRecord src) := .ite (.plainEvent <| .writeRecord h) <| .writeRecord h

theorem sendStop {code : Nat} (h : e.PortStatesAs d) : e.PortStatesAs (d.sendStop code) := .ite (.forAll (l := List.range 8) (fun hb => .ite hb hb) h) h

theorem bankCycles (h : e.PortStatesAs d) : e.PortStatesAs d.bankCycles := by
  intro p hp
  refine (Dev.rdAt_bankCycles (fun g => ?_) d).trans (h p hp)
  simp only [Reg.key, R.KL.KL_STATUS_STATE, R.BANK.DROP_COUNT]
  omega

theorem handovers (h : e.PortStatesAs d) : e.PortStatesAs d.handovers := .forAll (fun hb => .ite hb <| .ite (.wrAt (.wrAt hb (by decide)) (by decide)) hb) h

theorem pinsHalt (h : e.PortStatesAs d) : e.PortStatesAs d.pinsHalt := .ite h <| .same h (Dev.settlePins_regs d)

theorem deliverReads (h : e.PortStatesAs d) : e.PortStatesAs d.deliverReads := .same h rfl

theorem discardShadows (h : e.PortStatesAs d) : e.PortStatesAs d.discardShadows := .same h rfl

theorem keepInjects (h : e.PortStatesAs d) : e.PortStatesAs d.keepInjects := .same h rfl

theorem discardRequests (h : e.PortStatesAs d) : e.PortStatesAs d.discardRequests := .same h rfl

theorem dropInstants (h : e.PortStatesAs d) : e.PortStatesAs d.dropInstants := .same h rfl

theorem restArray (h : e.PortStatesAs d) : e.PortStatesAs d.restArray := .same h rfl

theorem abandonTake (h : e.PortStatesAs d) : e.PortStatesAs d.abandonTake := by
  unfold Dev.abandonTake
  extract_lets d0 _ d1 _ _ d2 d3
  have h0 : e.PortStatesAs d0 := .pinsHalt <| .dropInstants <| .discardRequests <| .keepInjects <| .discardShadows <| .deliverReads <| .bankCycles h
  have h1 : e.PortStatesAs d1 := .same h0 rfl
  have h2 : e.PortStatesAs d2 := .same (.restArray h1) rfl
  have h3 : e.PortStatesAs d3 := .handovers <| .count <| .wr h2 (by decide)
  exact .same h3 rfl

theorem stopForSafe {code : Nat} (h : e.PortStatesAs d) : e.PortStatesAs (d.stopForSafe code) := .ite (.ite (.tracePacket <| .sendStop <| .abandonTake h) h) h

theorem enterSafe {r : FRec} {cause : Nat} (h : e.PortStatesAs d) : e.PortStatesAs (d.enterSafe r cause) := by
  unfold Dev.enterSafe
  extract_lets d1 _ d2 d3 d4
  have h1 : e.PortStatesAs d1 := .bump (.wr (.wr (.wr h (by decide)) (by decide)) (by decide)) (by decide)
  have h3 : e.PortStatesAs d3 := .tracePacket <| .plainEvent <| .wr h1 (by decide)
  have h4 : e.PortStatesAs d4 := .ite (.routedRecord h3) h3
  exact .ite h <| .ite h4 <| .stopForSafe h4

theorem event {src : Nat} (h : e.PortStatesAs d) : e.PortStatesAs (d.event src) := .ite (.enterSafe <| .routedRecord <| .plainEvent h) <| .plainEvent h

theorem report {r : FRec} {packet : Bool} (h : e.PortStatesAs d) : e.PortStatesAs (d.report r packet) := by
  unfold Dev.report
  extract_lets _ _ _ _ _ _ d1 d2 d3
  have h1 : e.PortStatesAs d1 := .flagEvent <| .writeRecord h
  have h2 : e.PortStatesAs d2 := .ite (.tracePacket h1) h1
  have h3 : e.PortStatesAs d3 := .ite (.event h2) h2
  exact .ite (.enterSafe h3) h3

/-- The count of the errors is a register of the ports' own pages. -/
theorem disparity {p : Nat} {errors : List (Nat × Nat)} (h : e.PortStatesAs d) : e.PortStatesAs (d.disparity p errors) := by
  unfold Dev.disparity
  extract_lets _ n d1 _
  have hcounted : e.PortStatesAs (d.wrAt R.KL.DISPARITY_ERRORS p 0 (satAdd (d.rdAt R.KL.DISPARITY_ERRORS p 0) n 32)) := by
    intro k hk
    refine (Dev.rdAt_wrAt_ne d _ ?_).trans (h k hk)
    simp only [Reg.key, R.KL.KL_STATUS_STATE, R.KL.DISPARITY_ERRORS]
    omega
  have h1 : e.PortStatesAs d1 := .count hcounted
  exact .ite h <| .ite (.same (.report h1) rfl) h1

end Dev.PortStatesAs

end Sys2Proof.Machine

/-! PROOFS. The 8b/10b coding of a lane: what is sent is received (spec/11 R294). -/

namespace Sys2Proof.Machine

/-- A data byte, or one of the K codes of a frame. -/
def isSymbol (x : Bool × Nat) : Prop := x = (true, commaByte) ∨ x = (true, idleByte) ∨ x.1 = false ∧ x.2 < 256

/-- The symbols of `xs` from a running disparity on, and the running disparity after them. -/
def codedSymbols : List (Bool × Nat) → Bool → List Nat × Bool
  | [], plus => ([], plus)
  | x :: xs, plus =>
    let y := symbolOf x.1 x.2 plus
    (y.1 :: (codedSymbols xs y.2).1, (codedSymbols xs y.2).2)

/-- What the symbols 0 to 31 of a lane say: the comma, the bytes `bs`, the idle symbol. -/
def laneContent (bs : Bytes) : List (Bool × Nat) := ((true, commaByte) :: bs.map fun b => (false, b.toNat)) ++ [(true, idleByte)]

/-- A lane has brought one symbol more. -/
def LaneIn.receive (a : LaneIn) (s : Nat) : LaneIn :=
  let b := symbolByte s a.plus
  { a with
    bytes := a.bytes ++ [match b with | some (false, v) => some (BitVec.ofNat 8 v) | _ => none]
    errors := a.errors + bit b.isNone, plus := disparityPast s a.plus }

theorem laneIn_eq (syms : List Nat) (rd : Nat) :
    laneIn syms rd =
      (let plus0 := if rd = 0 then syms.headD 0 == (symbolOf true commaByte true).1 else rd == 2
       syms.foldl LaneIn.receive { bytes := [], comma := decide (symbolByte (syms.headD 0) plus0 = some (true, commaByte)), errors := 0, plus := plus0 }) := rfl

theorem laneSymbols_eq (bs : Bytes) (plus : Bool) : laneSymbols bs plus = codedSymbols (laneContent bs) plus := by
  have hfold (xs : List (Bool × Nat)) (sent : List Nat) (r : Bool) :
      xs.foldl (fun (a : List Nat × Bool) x => let y := symbolOf x.1 x.2 a.2; (a.1 ++ [y.1], y.2)) (sent, r) =
        (sent ++ (codedSymbols xs r).1, (codedSymbols xs r).2) := by
    induction xs generalizing sent r with
    | nil => simp [codedSymbols]
    | cons x xs ih => simp [codedSymbols, ih]
  exact hfold (laneContent bs) [] plus

/-! The groups of six and of four bits are read back by their place in the code, and the group of six of the K codes is that of no data byte. -/

theorem sixOf_decodes : ∀ x < 32, ∀ plus, (List.range 32).find? (fun y => sixOf false y plus == sixOf false x plus) = some x ∧ sixOf false x plus < 64 ∧
    sixOf false x plus ≠ sixOf true 28 plus := by
  decide

theorem fourOf_decodes : ∀ x < 32, ∀ y < 8, ∀ plus, (List.range 8).find? (fun z => fourOf false x z plus == fourOf false x y plus) = some y ∧ fourOf false x y plus < 16 := by
  decide

theorem symbolOf_control : ∀ b ∈ [commaByte, idleByte], ∀ plus,
    symbolByte (symbolOf true b plus).1 plus = some (true, b) ∧ disparityPast (symbolOf true b plus).1 plus = (symbolOf true b plus).2 ∧
      (symbolOf true b plus).1 / 16 = sixOf true 28 plus := by
  decide

/-- Every data symbol is read as its byte, at the running disparity at which it was sent. -/
theorem symbolOf_data {b : Nat} (hb : b < 256) (plus : Bool) :
    symbolByte (symbolOf false b plus).1 plus = some (false, b) ∧ disparityPast (symbolOf false b plus).1 plus = (symbolOf false b plus).2 := by
  have hx : b % 32 < 32 := Nat.mod_lt _ (by decide)
  obtain ⟨hsix, hsixWidth, hsixData⟩ := sixOf_decodes (b % 32) hx plus
  obtain ⟨hfour, hfourWidth⟩ := fourOf_decodes (b % 32) hx (b / 32 % 8) (Nat.mod_lt _ (by decide)) (disparityAfter (sixOf false (b % 32) plus) 6 plus)
  have hcode : (symbolOf false b plus).1 =
      sixOf false (b % 32) plus * 16 + fourOf false (b % 32) (b / 32 % 8) (disparityAfter (sixOf false (b % 32) plus) 6 plus) := rfl
  have hhigh : (symbolOf false b plus).1 / 16 = sixOf false (b % 32) plus := by omega
  have hlow : (symbolOf false b plus).1 % 16 = fourOf false (b % 32) (b / 32 % 8) (disparityAfter (sixOf false (b % 32) plus) 6 plus) := by omega
  have hdata (k : Nat) (hk : k ∈ [commaByte, idleByte]) : (symbolOf false b plus).1 ≠ (symbolOf true k plus).1 := by
    intro heq
    obtain ⟨_, _, hcontrol⟩ := symbolOf_control k hk plus
    exact hsixData (by rw [← hhigh, heq, hcontrol])
  constructor
  · have hbyte : b % 32 + 32 * (b / 32 % 8) = b := by omega
    unfold symbolByte
    rw [if_neg (hdata _ (by simp)), if_neg (hdata _ (by simp)), hhigh, hlow, hsix]
    dsimp only
    rw [hfour, Option.map_some, hbyte]
  · unfold disparityPast
    rw [hhigh, hlow, Nat.mod_eq_of_lt hsixWidth]
    rfl

theorem symbolOf_received {x : Bool × Nat} (h : isSymbol x) (plus : Bool) :
    symbolByte (symbolOf x.1 x.2 plus).1 plus = some x ∧ disparityPast (symbolOf x.1 x.2 plus).1 plus = (symbolOf x.1 x.2 plus).2 := by
  obtain rfl | rfl | ⟨hdata, hbyte⟩ := h
  · exact (symbolOf_control commaByte (by simp) plus).imp_right And.left
  · exact (symbolOf_control idleByte (by simp) plus).imp_right And.left
  · obtain ⟨k, b⟩ := x
    subst hdata
    exact symbolOf_data hbyte plus

/-- The byte that a symbol carries. -/
def symbolData (x : Bool × Nat) : Option Byte := if x.1 then none else some (BitVec.ofNat 8 x.2)

theorem LaneIn.receive_symbol {x : Bool × Nat} (h : isSymbol x) (a : LaneIn) :
    a.receive (symbolOf x.1 x.2 a.plus).1 = { a with bytes := a.bytes ++ [symbolData x], plus := (symbolOf x.1 x.2 a.plus).2 } := by
  obtain ⟨hbyte, hplus⟩ := symbolOf_received h a.plus
  unfold LaneIn.receive
  dsimp only
  rw [hbyte, hplus]
  obtain ⟨_ | _, b⟩ := x <;> rfl

theorem LaneIn.receive_symbols {xs : List (Bool × Nat)} (h : ∀ x ∈ xs, isSymbol x) (a : LaneIn) :
    (codedSymbols xs a.plus).1.foldl LaneIn.receive a = { a with bytes := a.bytes ++ xs.map symbolData, plus := (codedSymbols xs a.plus).2 } := by
  induction xs generalizing a with
  | nil => simp [codedSymbols]
  | cons x xs ih =>
    obtain ⟨hx, hxs⟩ := List.forall_mem_cons.mp h
    have hrest := ih hxs (a.receive (symbolOf x.1 x.2 a.plus).1)
    rw [LaneIn.receive_symbol hx] at hrest
    simp only [codedSymbols, List.foldl_cons, LaneIn.receive_symbol hx, hrest, List.map_cons, List.append_assoc, List.singleton_append]

theorem isSymbol_laneContent (bs : Bytes) : ∀ x ∈ laneContent bs, isSymbol x := by
  intro x hx
  simp only [laneContent, List.mem_append, List.mem_cons, List.mem_map, List.not_mem_nil, or_false] at hx
  obtain (rfl | ⟨b, _, rfl⟩) | rfl := hx
  · exact .inl rfl
  · exact .inr (.inr ⟨rfl, b.isLt⟩)
  · exact .inr (.inl rfl)

theorem symbolData_laneContent (bs : Bytes) : (laneContent bs).map symbolData = none :: bs.map some ++ [none] := by
  have hbyte : symbolData ∘ (fun b : Byte => (false, b.toNat)) = some := funext fun b => by simp [symbolData]
  simp only [laneContent, List.map_append, List.map_cons, List.map_map, hbyte, List.map_nil]
  rfl

/-- A lane that is sent at a running disparity is received at it. -/
theorem laneIn_laneSymbols (bs : Bytes) (plus : Bool) :
    laneIn (laneSymbols bs plus).1 (1 + bit plus) = ⟨none :: bs.map some ++ [none], true, 0, (laneSymbols bs plus).2⟩ := by
  have hdisparity : (if 1 + bit plus = 0 then (laneSymbols bs plus).1.headD 0 == (symbolOf true commaByte true).1 else 1 + bit plus == 2) = plus := by cases plus <;> rfl
  have hcomma : symbolByte ((laneSymbols bs plus).1.headD 0) plus = some (true, commaByte) := by
    rw [laneSymbols_eq]
    exact (symbolOf_control commaByte (by simp) plus).1
  rw [laneIn_eq]
  dsimp only
  rw [hdisparity, hcomma, laneSymbols_eq]
  refine (LaneIn.receive_symbols (isSymbol_laneContent bs) ⟨[], _, 0, plus⟩).trans ?_
  rw [symbolData_laneContent]
  simp

theorem LaneIn.data_of_bytes {bs : Bytes} (h : bs.length = 30) (c : Bool) (n : Nat) (r : Bool) : (LaneIn.mk (none :: bs.map some ++ [none]) c n r).data = some bs := by
  have htake : ((none :: bs.map some ++ [none]).drop 1).take 30 = bs.map some := by
    rw [List.cons_append, List.drop_one, List.tail_cons]
    exact List.take_left' (by simp [h])
  unfold LaneIn.data
  simp only [htake]
  simp [h]

end Sys2Proof.Machine

/-! PROOFS. The frames of a KermaLink port (spec/11 R294, R298, R300, R310, R311). -/

namespace Sys2Proof.Machine

/-! Sending (R298, R300). -/

/-- The bytes of the message stream are taken from the queue; the sequence and the replay buffer stay. -/
theorem Port.streamBytes_port (need fuel : Nat) (q : Port) : (q.streamBytes need fuel).2.2.txSeq = q.txSeq ∧ (q.streamBytes need fuel).2.2.replay = q.replay := by
  induction fuel generalizing need q with
  | zero => exact ⟨rfl, rfl⟩
  | succ fuel ih =>
    unfold Port.streamBytes
    extract_lets q1
    have h1 : q1.txSeq = q.txSeq ∧ q1.replay = q.replay := by
      unfold q1
      split_ifs
      · split <;> exact ⟨rfl, rfl⟩
      · exact ⟨rfl, rfl⟩
    split_ifs
    · exact ⟨rfl, rfl⟩
    · exact h1
    · obtain ⟨hseq, hreplay⟩ := ih (need - q1.txMsg.length) { q1 with txMsg := [], txCur := none }
      exact h1.imp hseq.trans hreplay.trans

theorem Port.streamBytes_keeps {need fuel : Nat} {q q1 : Port} {bytes : Bytes} {msgs : List (Nat × Bytes)} (h : q.streamBytes need fuel = (bytes, msgs, q1)) :
    q1.txSeq = q.txSeq ∧ q1.replay = q.replay := by
  have hport := q.streamBytes_port need fuel
  rwa [h] at hport

section Send

variable {d : Dev} {p : Nat} (t : Nat)

@[simp] theorem Dev.usedLanes_toTime (d : Dev) (t p : Nat) : (d.toTime t).usedLanes p = d.usedLanes p := by
  unfold Dev.usedLanes
  rw [Dev.rdAt_toTime]

theorem Dev.newFrame_eq {need : Nat} {bytes : Bytes} {msgs : List (Nat × Bytes)} {q : Port} {f : LinkFrame}
    (hneed : need = if d.portState p = 7 then 14 else 2 * (d.usedLanes p - 1)) (hstream : (d.port p).streamBytes need (need + 2) = (bytes, msgs, q))
    (hf : f = ⟨(d.port p).txSeq, d.filledFrame p, bytes, msgs⟩) :
    d.newFrame p =
      (let d2 := d.setPort p fun _ =>
         { q with
           txSeq := (f.seq + 1) % 128, replay := q.replay ++ [f], ackSince := if q.replay = [] then d.mono else q.ackSince
           txTotal := q.txTotal + bit f.data.isSome }
       forAll msgs (fun m d => d.messageSent p f.seq m.1) ((d2.emitFrame p (d.frameNow p f) f.data.isSome).count (0x48 + p) 6 msgs.length)) := by
  obtain ⟨hseq, _⟩ := Port.streamBytes_keeps hstream
  subst hf
  unfold Dev.newFrame
  dsimp only
  rw [← hneed, hstream, hseq]

variable (hp : p < 8) (h : d.portState p = 6 ∨ d.portState p = 7)
include hp h

/-! A port that talks sends the next entry of a replay, nothing with a full buffer, or a new frame. -/

theorem Dev.linkFrameSend_replay {f : LinkFrame} (hresend : 0 < (d.port p).resend) (hf : (d.port p).replay[(d.port p).replay.length - (d.port p).resend]? = some f) :
    d.linkFrameSend p t =
      (let d1 := d.toTime t
       (d1.emitFrame p (d1.frameNow p f) f.data.isSome).setPort p fun q => { q with resend := q.resend - 1 }) := by
  refine (if_pos ⟨hp, by simpa using h⟩).trans ((if_pos (by simpa using hresend)).trans ?_)
  rw [Dev.port_toTime, hf]

theorem Dev.linkFrameSend_full (hresend : (d.port p).resend = 0) (hfull : 64 ≤ (d.port p).replay.length) : d.linkFrameSend p t = d.toTime t :=
  (if_pos ⟨hp, by simpa using h⟩).trans ((if_neg (by simp [hresend])).trans (if_pos (by simpa using hfull)))

theorem Dev.linkFrameSend_new (hresend : (d.port p).resend = 0) (hroom : (d.port p).replay.length < 64) : d.linkFrameSend p t = (d.toTime t).newFrame p :=
  (if_pos ⟨hp, by simpa using h⟩).trans ((if_neg (by simp [hresend])).trans (if_neg (by simpa using hroom)))

end Send

theorem Dev.linkFrameSend_other {d : Dev} {p : Nat} (t : Nat) (h6 : d.portState p ≠ 6) (h7 : d.portState p ≠ 7) : d.linkFrameSend p t = d := by
  unfold Dev.linkFrameSend
  dsimp only
  rw [Dev.portState_toTime, if_neg fun hc => hc.2.elim h6 h7]

/-! Receiving (R294, R310). -/

theorem Dev.setPort_congr {d : Dev} {p : Nat} {f g : Port → Port} (h : f (d.port p) = g (d.port p)) : d.setPort p f = d.setPort p g := by
  unfold Dev.setPort
  rw [h]

@[simp] theorem Dev.frameLaneNos_toTime (d : Dev) (t p : Nat) : (d.toTime t).frameLaneNos p = d.frameLaneNos p := by
  unfold Dev.frameLaneNos
  rw [Dev.port_toTime, Dev.rdAt_toTime]

section Receive

variable {d : Dev} {p : Nat} (t : Nat) (lanes : List (List Nat))

theorem Dev.linkFrameReceive_locked (hp : p < 8) (h : 4 ≤ d.portState p) :
    d.linkFrameReceive p lanes t =
      (let ins := (lanes.zip (d.frameLaneNos p)).map fun l => (laneIn l.1 (SMap.get (d.port p).rxPlus l.2), l.2)
       let d1 := ((d.toTime t).setPort p fun q => { q with rxPlus := ins.foldl (fun m l => SMap.set m l.2 (1 + bit l.1.plus)) q.rxPlus }).disparity p (ins.map fun l => (l.2, l.1.errors))
       let d2 := if d.portState p = 4 then d1 else d1.commaChecks p (ins.foldl (fun m l => putBit m l.2 (bit (!l.1.comma))) 0) t
       if d2.portTalks p then d2.judgeFrame p t (ins.map (·.1)) else d2) := by
  have hstate (f : Port → Port) (errors : List (Nat × Nat)) : (((d.toTime t).setPort p f).disparity p errors).portState p = d.portState p :=
    Dev.PortStatesAs.disparity (fun k _ => (Dev.rdAt_setPort ..).trans (Dev.portState_toTime ..)) p hp
  have hplus (ins : List (LaneIn × Nat)) : ((d.toTime t).setPort p fun q => { q with rxPlus := ins.foldl (fun m l => SMap.set m l.2 (1 + bit l.1.plus)) (d.port p).rxPlus }) =
      (d.toTime t).setPort p fun q => { q with rxPlus := ins.foldl (fun m l => SMap.set m l.2 (1 + bit l.1.plus)) q.rxPlus } :=
    Dev.setPort_congr (by rw [Dev.port_toTime])
  unfold Dev.linkFrameReceive
  simp only [Dev.portState_toTime, Dev.frameLaneNos_toTime, Dev.port_toTime, hplus, hstate]
  exact if_pos ⟨hp, h⟩

theorem Dev.linkFrameReceive_unlocked (h : d.portState p < 4) : d.linkFrameReceive p lanes t = d := by
  unfold Dev.linkFrameReceive
  dsimp only
  rw [Dev.portState_toTime, if_neg (by omega)]

/-! The judgement of a frame (R310). -/

/-- A frame of `u` lanes is good: every lane came with its comma, without a code or disparity error and with a correct CRC, and all with one sequence byte. -/
def goodFrame (u : Nat) (ins : List LaneIn) : Prop :=
  ins.length = u ∧ (ins.filterMap LaneIn.data).length = u ∧ (∀ l ∈ ins, l.comma = true ∧ l.errors = 0) ∧
    ∀ l ∈ ins.filterMap LaneIn.data, laneGood l = true ∧ l.headD 0 = ((ins.filterMap LaneIn.data).headD []).headD 0

theorem Dev.judgeFrame_eq {u : Nat} {ins : List LaneIn} (hu : u = if d.portState p = 7 then 1 else d.usedLanes p) [Decidable (goodFrame u ins)] :
    d.judgeFrame p t ins =
      (let lanes := ins.filterMap LaneIn.data
       let ahead := (((lanes.headD []).headD 0).toNat % 128 + 128 - (d.port p).expect % 128) % 128
       if ¬ goodFrame u ins then ((d.discardFrame p ((d.port p).ahead + 1)).bumpAt R.KL.CRC_ERRORS p 0).count (0x48 + p) 3 1
       else if ahead ≠ 0 then d.discardFrame p (if ahead < 64 then ahead + 1 else (d.port p).ahead)
       else d.acceptFrame p u t lanes) := by
  have hwidth : (if (d.portState p == 7) = true then 1 else d.usedLanes p) = u := by simp only [beq_iff_eq, hu]
  unfold Dev.judgeFrame
  dsimp only
  rw [hwidth]
  refine if_congr ?_ rfl rfl
  unfold goodFrame
  rw [Bool.not_eq_true', ← Bool.not_eq_true]
  refine not_congr ?_
  simp only [Bool.and_eq_true, decide_eq_true_eq, List.all_eq_true, beq_iff_eq, and_assoc, forall_and]

theorem Dev.acceptFrame_eq (u : Nat) (lanes : List Bytes) :
    d.acceptFrame p u t lanes =
      (let ack := leAt (lanes.headD []) 26 1
       let stream := if d.portState p = 7 then ((lanes.headD []).drop 1).take 14 else (lanes.drop 1).flatMap fun l => (l.drop 26).take 2
       let x := splitMessages 4 ((d.port p).rxMsg ++ stream)
       let d1 := ((d.count (0x48 + p) 1 1).setPort p fun q => { q with nak := false, ahead := 0, again := q.again - 1, expect := (q.expect + 1) % 128, rxMsg := x.2 }).ackFrames p (ack % 128)
       let d2 := if 128 ≤ ack then d1.startReplay p else d1
       let d3 := if 128 ≤ ((lanes.headD []).headD 0).toNat ∧ d.portState p ≠ 7 ∧ d2.portTalks p = true then d2.takeData p u lanes else d2
       forAll (x.1.filter fun m => m.1 ≠ 0) (fun m d' => (d'.count (0x48 + p) 7 1).takeMessage p (bit (decide (0 < (d.port p).again))) t m) d3) := by
  unfold Dev.acceptFrame
  simp only [beq_iff_eq, Bool.not_eq_true', beq_eq_false_iff_ne]

/-- Lanes that all carry data are the lanes of the frame. -/
theorem filterMap_data {ins : List LaneIn} {lanes : List Bytes} (h : ins.map LaneIn.data = lanes.map some) : ins.filterMap LaneIn.data = lanes :=
  calc
    ins.filterMap LaneIn.data = (ins.map LaneIn.data).filterMap id := by rw [List.filterMap_map]; rfl
    _ = lanes := by rw [h, List.filterMap_map]; exact List.filterMap_some

theorem Dev.judgeFrame_bad {u : Nat} {ins : List LaneIn} (hu : u = if d.portState p = 7 then 1 else d.usedLanes p) (h : ¬ goodFrame u ins) :
    d.judgeFrame p t ins = ((d.setPort p fun q => { q with nak := true, ahead := q.ahead + 1, again := max q.again (q.ahead + 1) }).bumpAt R.KL.CRC_ERRORS p 0).count (0x48 + p) 3 1 := by
  classical
  exact (Dev.judgeFrame_eq t hu).trans (if_pos h)

section Good

variable {head : Byte} {ins : List LaneIn} {lanes : List Bytes} (hdata : ins.map LaneIn.data = lanes.map some)
  (hwidth : ins.length = if d.portState p = 7 then 1 else d.usedLanes p) (hlanes : 0 < ins.length) (hclean : ∀ l ∈ ins, l.comma = true ∧ l.errors = 0)
  (hgood : ∀ l ∈ lanes, laneGood l = true ∧ l.headD 0 = head)
include hdata hlanes hgood

theorem headD_lanes : (lanes.headD []).headD 0 = head := by
  cases lanes with
  | nil => simp [List.map_eq_nil_iff.mp hdata] at hlanes
  | cons l lanes => exact (hgood l List.mem_cons_self).2

include hclean

theorem goodFrame_lanes : goodFrame ins.length ins := by
  have hlength : lanes.length = ins.length := by simpa using (congrArg List.length hdata).symm
  unfold goodFrame
  rw [filterMap_data hdata, headD_lanes hdata hlanes hgood]
  exact ⟨rfl, hlength, hclean, hgood⟩

include hwidth

theorem Dev.judgeFrame_good :
    d.judgeFrame p t ins =
      (let ahead := (head.toNat % 128 + 128 - (d.port p).expect % 128) % 128
       if ahead ≠ 0 then d.discardFrame p (if ahead < 64 then ahead + 1 else (d.port p).ahead) else d.acceptFrame p ins.length t lanes) := by
  classical
  refine (Dev.judgeFrame_eq t hwidth).trans ?_
  dsimp only
  rw [if_neg (not_not_intro (goodFrame_lanes hdata hlanes hclean hgood)), filterMap_data hdata, headD_lanes hdata hlanes hgood]

end Good

end Receive

/-! Acknowledgement and replay (R310, R311). -/

section Replay

variable {d : Dev} {p : Nat} {f : LinkFrame} {fs : List LinkFrame} (hreplay : (d.port p).replay = f :: fs)
include hreplay

/-- The entries before the SEQ acknowledged leave the buffer. -/
theorem Dev.replay_ackFrames {ack : Nat} (hsync : (d.port p).sync = none) (hsome : 0 < (ack + 128 - f.seq) % 128) (hheld : (ack + 128 - f.seq) % 128 ≤ fs.length + 1) :
    ((d.ackFrames p ack).port p).replay = (f :: fs).drop ((ack + 128 - f.seq) % 128) := by
  unfold Dev.ackFrames
  simp only [hreplay, hsync, List.length_cons]
  rw [if_pos ⟨hsome, hheld⟩, Dev.port_setPort]

theorem Dev.startReplay_eq (hresend : (d.port p).resend = 0) {n : Nat} (hn : n = if (d.port p).nakSeq = some f.seq then (d.port p).nakCount + 1 else 1) :
    d.startReplay p =
      if 9 ≤ n then d.replayExhausted p
      else
        ((d.setPort p fun q =>
          { q with
            resend := q.replay.length, nakSeq := some f.seq, nakCount := n, ackSince := d.mono
            sync := q.sync.map fun s => (s.1, s.2.1, true) }).bumpAt R.KL.REPLAYS p 0).count (0x48 + p) 4 1 := by
  unfold Dev.startReplay
  simp only [hreplay, hresend, ne_eq, not_true_eq_false, if_false, ← hn]

end Replay

/-- A replay that goes on is not begun anew. -/
theorem Dev.startReplay_going {d : Dev} {p : Nat} (hresend : (d.port p).resend ≠ 0) : d.startReplay p = d := by
  unfold Dev.startReplay
  dsimp only
  split
  · rfl
  · exact if_pos hresend

section Timeout

variable {d : Dev} {p : Nat} {t : Nat}

theorem Dev.replayTimeout_due (hp : p < 8) (h : d.portState p = 6 ∨ d.portState p = 7) (hreplay : (d.port p).replay ≠ [])
    (hdue : (d.port p).ackSince + d.rdAt R.KL.REPLAY_TIMEOUT_NS p 0 * 2 ^ 32 ≤ (d.toTime t).mono) : d.replayTimeout p t = (d.toTime t).startReplay p := by
  unfold Dev.replayTimeout
  dsimp only
  rw [Dev.portState_toTime, Dev.port_toTime, Dev.rdAt_toTime, if_pos ⟨hp, h, hreplay, hdue⟩]

theorem Dev.replayTimeout_not_due (h : d.portState p ≠ 6 ∧ d.portState p ≠ 7 ∨ (d.port p).replay = [] ∨
    (d.toTime t).mono < (d.port p).ackSince + d.rdAt R.KL.REPLAY_TIMEOUT_NS p 0 * 2 ^ 32) : d.replayTimeout p t = d := by
  unfold Dev.replayTimeout
  dsimp only
  rw [Dev.portState_toTime, Dev.port_toTime, Dev.rdAt_toTime, if_neg]
  rintro ⟨_, hstate, hreplay, hdue⟩
  obtain ⟨h6, h7⟩ | hempty | hearly := h
  · exact hstate.elim h6 h7
  · exact hreplay hempty
  · omega

end Timeout

theorem Dev.replayExhausted_stopped {d : Dev} (p : Nat) (h : d.running = false) : d.replayExhausted p = (d.report (d.linkFault 0x63 0 p 0 0) false).portDown p 5 := by
  simp [Dev.replayExhausted, h]

/-- With the array still running at the end of the record, the others are told and the array stops at the next belay. -/
theorem Dev.replayExhausted_running {d d1 : Dev} {p : Nat} (h : d.running = true) (h1 : d1 = (d.report (d.linkFault 0x63 2 p 0 0) true).portDown p 5) (hrun : d1.running = true) :
    d.replayExhausted p = (let d2 := d1.sendStop 0x63
      if d2.frozen then d2.linkStopped else { d2 with tk := { d2.tk with linkStop := true } }) := by
  unfold Dev.replayExhausted
  simp only [h, if_true, Bool.true_and, ← h1, hrun]

/-- Settles O33: a frame period, a frame received and a missing acknowledgement, each by the state of the port and of its replay buffer. -/
theorem portFrames : Obligations.PortFrames := by
  unfold Obligations.PortFrames
  refine ⟨fun s p t f hp h hresend hf => State.onUnit_after (decide_eq_true hp) (Dev.linkFrameSend_replay t hp h hresend hf),
    fun s p t hp h hresend hfull => State.onUnit_after (decide_eq_true hp) (Dev.linkFrameSend_full t hp h hresend hfull), ?new,
    fun s p t hp h6 h7 => State.onUnit_unchanged (decide_eq_true hp) (Dev.linkFrameSend_other t h6 h7), fun need fuel bytes msgs q q1 h => Port.streamBytes_keeps h, ?coded,
    fun s p t lanes hp h => State.onUnit_after (decide_eq_true hp) (congrArg Dev.heldStart (Dev.linkFrameReceive_locked t lanes hp h)),
    fun s p t lanes hp h => State.onUnit_after (decide_eq_true hp) (congrArg Dev.heldStart (Dev.linkFrameReceive_unlocked t lanes h)), ?bad, ?good,
    fun d p ack f fs hreplay _ _ hsync hsome hheld => Dev.replay_ackFrames hreplay hsync hsome hheld, ?timeout, fun d p h => Dev.replayExhausted_stopped p h,
    fun d d1 p h h1 hrun => Dev.replayExhausted_running h h1 hrun, ?going, fun s p t hp h => State.onUnit_unchanged (decide_eq_true hp) (Dev.replayTimeout_not_due h), ?noUnit⟩
  case new =>
    intro s p t need bytes msgs q f hp h hresend hroom hneed hstream hf
    refine State.onUnit_after (decide_eq_true hp) ((Dev.linkFrameSend_new t hp h hresend hroom).trans (Dev.newFrame_eq (need := need) (bytes := bytes) ?_ ?_ ?_))
    · rw [Dev.portState_toTime, Dev.usedLanes_toTime, hneed]
    · rw [Dev.port_toTime, hstream]
    · rw [Dev.port_toTime, hf]
  case coded =>
    intro bs plus hlength _
    rw [laneIn_laneSymbols]
    exact ⟨LaneIn.data_of_bytes hlength _ _ _, rfl, rfl, rfl⟩
  case bad =>
    intro d p t u ins hu hbad
    refine Dev.judgeFrame_bad t hu ?_
    rintro ⟨hwidth, hdata, hclean, hgood⟩
    obtain h | h | ⟨l, hl, h⟩ | ⟨l, hl, h⟩ := hbad
    · exact h hwidth
    · exact h hdata
    · obtain ⟨hcomma, herrors⟩ := hclean l hl
      exact h.elim (fun h => Bool.false_ne_true (h.symm.trans hcomma)) fun h => h herrors
    · obtain ⟨hcrc, hhead⟩ := hgood l hl
      exact h.elim (fun h => Bool.false_ne_true (h.symm.trans hcrc)) fun h => h hhead
  case good =>
    intro d p t n head ins lanes hdata hwidth hlanes hclean hgood hn
    have hjudged := Dev.judgeFrame_good t hdata hwidth hlanes hclean hgood
    dsimp only at hjudged
    rw [← hn] at hjudged
    refine ⟨fun hpos => ⟨_, hjudged.trans (if_pos (by omega))⟩, fun hzero => hjudged.trans ((if_neg (by omega)).trans ((Dev.acceptFrame_eq t ins.length lanes).trans ?_))⟩
    rw [headD_lanes hdata hlanes hgood]
  case timeout =>
    intro s p t f fs n hp h hreplay hresend hdue hn
    have hbegun := Dev.startReplay_eq (d := s.dev.toTime t) (p := p) (f := f) (fs := fs) (n := n)
    simp only [Dev.port_toTime] at hbegun
    exact State.onUnit_after (decide_eq_true hp) ((Dev.replayTimeout_due hp h (by simp [hreplay]) hdue).trans (hbegun hreplay hresend hn))
  case going =>
    intro s p t hp h hreplay hresend hdue
    exact State.onUnit_after (decide_eq_true hp) ((Dev.replayTimeout_due hp h hreplay hdue).trans (Dev.startReplay_going (by rwa [Dev.port_toTime])))
  case noUnit =>
    intro s p t lanes hp
    have noUnit (f : Dev → Dev) : s.onUnit (p < 8) f = .fault .noSuchUnit := State.onUnit_fault s f (decide_eq_false (Nat.not_lt.mpr hp))
    exact ⟨noUnit _, noUnit _, noUnit _⟩

end Sys2Proof.Machine

/-! PROOFS. The event controller: PAGE_LOCK, RAISED, ENABLE, FORCE and the routes of a page, and masked vectors (spec/12 R326, R327, spec/19 R497 to R507). -/

namespace Sys2Proof.Machine

/-! The bits of a word, and the sources that they name. -/

theorem mem_setBitsFrom {n i w j : Nat} : j ∈ setBitsFrom n i w ↔ i ≤ j ∧ j < i + w ∧ bitAt n (j - i) = 1 := by
  induction w generalizing n i with
  | zero => simp [setBitsFrom]; omega
  | succ w ih =>
    have htail : j ∈ setBitsFrom (n / 2) (i + 1) w ↔ i + 1 ≤ j ∧ j < i + (w + 1) ∧ bitAt n (j - i) = 1 := by
      rw [ih]
      refine and_congr_right fun hj => ?_
      rw [show i + 1 + w = i + (w + 1) by omega, bitAt, bitAt, Nat.div_div_eq_div_mul, ← Nat.pow_succ', show (j - (i + 1)).succ = j - i by omega]
    have hhead : bitAt n (i - i) = n % 2 := by simp [bitAt]
    unfold setBitsFrom
    split_ifs with h
    · rw [List.mem_cons, htail]
      refine ⟨?_, fun ⟨hi, hw, hb⟩ => (Nat.eq_or_lt_of_le hi).imp Eq.symm fun h => ⟨h, hw, hb⟩⟩
      rintro (rfl | ⟨hi, hw, hb⟩)
      · exact ⟨le_rfl, by omega, hhead.trans h⟩
      · exact ⟨by omega, hw, hb⟩
    · rw [htail]
      refine ⟨fun ⟨hi, hw, hb⟩ => ⟨by omega, hw, hb⟩, fun ⟨hi, hw, hb⟩ => ⟨?_, hw, hb⟩⟩
      obtain rfl | hi := Nat.eq_or_lt_of_le hi
      · exact absurd (hhead.symm.trans hb) h
      · exact hi

theorem mem_setBits {n w j : Nat} : j ∈ setBits n w ↔ j < w ∧ bitAt n j = 1 := by
  simp [setBits, mem_setBitsFrom]

theorem isSet_iff {n i : Nat} : isSet n i = true ↔ bitAt n i = 1 := beq_iff_eq

theorem mem_localSources {p w src : Nat} : src ∈ localSources p w ↔ ∃ j, j < 32 ∧ j < evCount p ∧ bitAt w j = 1 ∧ evSource p j = src := by
  simp only [localSources, List.mem_filterMap, mem_setBits, Option.ite_none_right_eq_some, Option.some.injEq]
  exact exists_congr fun j => by tauto

theorem mem_evtSources {base w src : Nat} : src ∈ evtSources base w ↔ ∃ j, j < 32 ∧ bitAt w j = 1 ∧ evAssigned src = true ∧ base + j = src := by
  simp only [evtSources, List.mem_filterMap, mem_setBits, Option.ite_none_right_eq_some, Option.some.injEq]
  refine exists_congr fun j => ⟨?_, ?_⟩
  · rintro ⟨⟨hj, hb⟩, ha, rfl⟩; exact ⟨hj, hb, ha, rfl⟩
  · rintro ⟨hj, hb, ha, rfl⟩; exact ⟨⟨hj, hb⟩, ha, rfl⟩

theorem ite_le_of {c : Prop} [Decidable c] {a b n : Nat} (ha : c → a ≤ n) (hb : ¬c → b ≤ n) : (if c then a else b) ≤ n := by
  split
  · exact ha ‹_›
  · exact hb ‹_›

theorem of_ite_eq_ite {α : Type} {c q : Prop} [Decidable c] {a b x y : α} (ha : c → a = x → q) (hb : ¬c → b = y → q) (h : (if c then a else b) = if c then x else y) : q := by
  split at h
  · exact ha ‹_› h
  · exact hb ‹_› h

/-- The pages whose sources `evSource` does not tell apart by the number of the local event have no two of them. -/
theorem evCount_le_one {p : Nat} (h : p = 0xB ∨ p = 0x13 ∨ 0x17 ≤ p ∧ p < 0x103 ∨ p = 0x200 ∨ 0x212 ≤ p ∧ p < 0x320 ∧ p ≠ 0x300 ∨ 0x480 ≤ p) : evCount p ≤ 1 := by
  unfold evCount
  iterate 21 refine ite_le_of (fun _ => by omega) fun _ => ?_
  exact Nat.zero_le 1

/-- The local events of a page are different sources (R498, R509). -/
theorem evSource_injective {p i j : Nat} (hi : i < evCount p) (hj : j < evCount p) (h : evSource p i = evSource p j) : i = j := by
  have hone := evCount_le_one (p := p)
  unfold evSource at h
  revert h
  iterate 2 refine of_ite_eq_ite (fun _ h => by omega) fun _ => ?_
  refine of_ite_eq_ite (fun hp h => ?_) fun _ => ?_
  · rw [hp, show evCount 0x15 = 4 from rfl] at hi hj
    split_ifs at h <;> omega
  iterate 3 refine of_ite_eq_ite (fun _ h => by omega) fun _ => ?_
  iterate 2 refine of_ite_eq_ite (fun _ h => by split_ifs at h <;> omega) fun _ => ?_
  iterate 13 refine of_ite_eq_ite (fun _ h => by omega) fun _ => ?_
  intro h
  omega

/-! A write to the event controller, on a page that is there (R495). -/

section EventWrite

variable {d : Dev} {func off p o w t : Nat}

theorem Dev.eventWrite_up {f : Nat → Nat → Dev → Dev} (hup : d.funcUp func = true) (hpage : pageOf func off = (p, o)) (hrows : (d.pageRows p).isSome = true) :
    d.eventWrite func off t f = f p o (d.atWrite t) := by
  unfold Dev.eventWrite
  simp only [Dev.funcUp_toTime, Dev.pageRows_part (Dev.toTime_part d t), hpage, hup, hrows, Bool.and_self, if_true]
  rfl

theorem Dev.eventWrite_down (f : Nat → Nat → Dev → Dev) (hdown : d.funcUp func = false) : d.eventWrite func off t f = d.toTime t := by
  simp [Dev.eventWrite, hdown]

theorem Dev.pageRows_evt (h1 : 1 ≤ p) (h5 : p < 5) : (d.pageRows p).isSome = true := by
  unfold Dev.pageRows
  rw [if_neg (by omega), if_pos h5]
  rfl

theorem isEvt_of_range (h1 : 1 ≤ p) (h5 : p < 5) : isEvt p = true := decide_eq_true ⟨h1, h5⟩

end EventWrite

/-! PAGE_LOCK (R497). -/

theorem Dev.lockOpen_atWrite (d : Dev) (t p : Nat) : (d.atWrite t).lockOpen p = d.lockOpen p := by
  unfold Dev.lockOpen
  rw [Dev.rdAt_atWrite d t (by simp only [Reg.key, R.HDR.PAGE_LOCK_OPEN, R.CNT.LIVE]; omega)]

theorem Dev.lockOpen_wrAt_same (d : Dev) (p : Nat) (b : Bool) : (d.wrAt R.HDR.PAGE_LOCK_OPEN p 0 (bit b)).lockOpen p = b := by
  unfold Dev.lockOpen
  rw [Dev.rdAt_wrAt_same]
  cases b <;> rfl

/-! RAISED (R502). -/

theorem Dev.raised_clearRaised (d : Dev) (x src : Nat) : (d.clearRaised x).raised src = (d.raised src && !decide (src = x)) := by
  unfold Dev.raised Dev.clearRaised
  dsimp only
  rw [SMap.get_set]
  split_ifs with h <;> simp [h]

/-- Of the sources of a list RAISED is cleared, of every other one it stays. -/
theorem Dev.raised_clearAll (l : List Nat) (d : Dev) (src : Nat) : (forAll l (fun x d => d.clearRaised x) d).raised src = (d.raised src && !decide (src ∈ l)) := by
  induction l generalizing d with
  | nil => simp [forAll]
  | cons x l ih =>
    refine (ih (d.clearRaised x)).trans ?_
    rw [Dev.raised_clearRaised]
    simp [Bool.and_assoc]

theorem Dev.clearAll_keeps {γ : Type} (g : Dev → γ) (hg : ∀ x d, g (d.clearRaised x) = g d) (l : List Nat) (d : Dev) : g (forAll l (fun x d => d.clearRaised x) d) = g d :=
  forAll_keeps g (fun x d => d.clearRaised x) hg l d

/-! ENABLE (R504). -/

/-- Values put into a store one after the other. -/
def setEach (l : List (Nat × Nat)) (m : SMap Nat) : SMap Nat := forAll l (fun x m => SMap.set m x.1 x.2) m

/-- What a key reads after values have been put, where those put under it are all `v`. -/
theorem get_setEach {l : List (Nat × Nat)} {k v : Nat} (hv : ∀ x ∈ l, x.1 = k → x.2 = v) (m : SMap Nat) :
    SMap.get (setEach l m) k = if k ∈ l.map Prod.fst then v else SMap.get m k := by
  induction l generalizing m with
  | nil => rfl
  | cons x l ih =>
    refine (ih (fun y hy => hv y (List.mem_cons_of_mem x hy)) (SMap.set m x.1 x.2)).trans ?_
    rw [List.map_cons, SMap.get_set]
    by_cases hl : k ∈ l.map Prod.fst
    · rw [if_pos hl, if_pos (List.mem_cons_of_mem _ hl)]
    · by_cases hx : k = x.1
      · rw [if_neg hl, if_pos hx, if_pos (by simp [hx]), hv x List.mem_cons_self hx.symm]
      · rw [if_neg hl, if_neg hx, if_neg (by simp [hx, hl])]

/-- A source that is not raised sends nothing as ENABLE is written. -/
theorem Dev.writeEnable_quiet {d : Dev} {src : Nat} (v : Nat) (h : d.raised src = false) : d.writeEnable src v = { d with evEnable := SMap.set d.evEnable src v } := by
  simp [Dev.writeEnable, h]

theorem Dev.writeEnables_quiet {l : List (Nat × Nat)} {d : Dev} (h : ∀ x ∈ l, d.raised x.1 = false) : d.writeEnables l = { d with evEnable := setEach l d.evEnable } := by
  induction l generalizing d with
  | nil => rfl
  | cons x l ih =>
    have hx : d.writeEnable x.1 x.2 = { d with evEnable := SMap.set d.evEnable x.1 x.2 } := Dev.writeEnable_quiet x.2 (h x List.mem_cons_self)
    exact (congrArg (Dev.writeEnables l) hx).trans (ih fun y hy => h y (List.mem_cons_of_mem x hy))

/-! The routes (R503). -/

section Route

variable {d : Dev} {p src entry safety : Nat}

theorem Dev.writeRoute_refused (hf : isSet entry 11 = true) (hv : 31 < entry % 2 ^ 11) : d.writeRoute p src entry safety = d.wrAt R.HDR.STATUS_ROUTE_REFUSED p 0 1 :=
  if_pos ⟨hf, hv⟩

theorem Dev.writeRoute_taken (h : isSet entry 11 = false ∨ entry % 2 ^ 11 ≤ 31) : d.writeRoute p src entry safety =
    { d with evRoute := SMap.set d.evRoute src (entry % 2 ^ 14 + (if d.lockOpen p then safety % 2 else bitAt (d.route src) 14) * 2 ^ 14) } :=
  if_neg (by
    rintro ⟨hf, hv⟩
    obtain h | h := h
    · exact Bool.false_ne_true (h.symm.trans hf)
    · omega)

/-- A route that is taken is that of its source alone. -/
theorem Dev.route_writeRoute (h : isSet entry 11 = false ∨ entry % 2 ^ 11 ≤ 31) (x : Nat) : (d.writeRoute p src entry safety).route x =
    if x = src then entry % 2 ^ 14 + (if d.lockOpen p then safety % 2 else bitAt (d.route src) 14) * 2 ^ 14 else d.route x := by
  rw [Dev.writeRoute_taken h]
  exact SMap.get_set ..

end Route

theorem isSet_routeEntry (w : Nat) : isSet (fieldAt w 16 14) 11 = isSet w 27 := by
  have h : bitAt (fieldAt w 16 14) 11 = bitAt w 27 := by unfold bitAt fieldAt; omega
  unfold isSet
  rw [h]

theorem routeEntry_vector (w : Nat) : fieldAt w 16 14 % 2 ^ 11 = fieldAt w 16 11 := by unfold fieldAt; omega

theorem routeEntry_mod (w : Nat) : fieldAt w 16 14 % 2 ^ 14 = fieldAt w 16 14 := Nat.mod_mod _ _

theorem bitAt_mod_two (n i : Nat) : bitAt n i % 2 = bitAt n i := Nat.mod_mod _ _

section EvRoute

variable {d : Dev} {p w : Nat}

theorem Dev.evRouteWrite_refused (h : evCount p ≤ w % 32 ∨ bitAt w 15 = 0 ∧ bitAt w 27 = 1 ∧ 31 < fieldAt w 16 11) : d.evRouteWrite p w = d.wrAt R.HDR.STATUS_ROUTE_REFUSED p 0 1 := by
  by_cases hl : evCount p ≤ w % 32
  · exact if_pos hl
  · obtain ⟨h15, h27, hv⟩ := h.resolve_left hl
    exact (if_neg hl).trans ((if_neg (by simp [isSet_clear h15])).trans (if_pos ⟨isSet_iff.mpr h27, hv⟩))

theorem Dev.evRouteWrite_names (hl : w % 32 < evCount p) (h15 : bitAt w 15 = 1) : d.evRouteWrite p w = d.wrAt R.HDR.EV_ROUTE_LOCAL p 0 (w % 32) :=
  (if_neg (Nat.not_le.mpr hl)).trans (if_pos (isSet_iff.mpr h15))

theorem Dev.evRouteWrite_sets (hl : w % 32 < evCount p) (h15 : bitAt w 15 = 0) (h : bitAt w 27 = 0 ∨ fieldAt w 16 11 ≤ 31) :
    d.evRouteWrite p w = (d.wrAt R.HDR.EV_ROUTE_LOCAL p 0 (w % 32)).writeRoute p (evSource p (w % 32)) (fieldAt w 16 14) (bitAt w 30) := by
  refine (if_neg (Nat.not_le.mpr hl)).trans ((if_neg (by simp [isSet_clear h15])).trans (if_neg ?_))
  rintro ⟨h27, hv⟩
  have := isSet_iff.mp h27
  omega

end EvRoute

/-! Masked vectors (spec/12 R326, R327). -/

section Unmask

variable {d : Dev} {func vector : Nat}

/-- The mask bit of the vector under key `v` is cleared. -/
def Dev.unmasked (v : Nat) (d : Dev) : Dev := { d with host := { d.host with msixUnmask := SMap.set d.host.msixUnmask v 1 } }

/-- The pending bit of the vector under key `v` is cleared. -/
def Dev.notPending (v : Nat) (d : Dev) : Dev := { d with host := { d.host with msixPend := SMap.set d.host.msixPend v 0 } }

theorem Dev.msixUnmask_eq (hf : func < 2) (hv : vector < if func = 0 then 2048 else 32) : d.msixUnmask func vector =
    if SMap.get d.host.msixPend (func * 4096 + vector) = 1 ∧ SMap.get d.host.msixEnable func = 1 then
      ((d.unmasked (func * 4096 + vector)).notPending (func * 4096 + vector)).sendMsix (func * 2 ^ 11 + vector)
    else d.unmasked (func * 4096 + vector) := by
  unfold Dev.msixUnmask
  dsimp only
  rw [if_neg (by omega), Nat.mod_eq_of_lt hf]
  rfl

theorem Dev.sendMsix_unmasked {route func vector : Nat} (hfunc : bitAt route 11 = func) (hvector : route % 2048 = vector) (hen : SMap.get d.host.msixEnable func = 1)
    (hun : SMap.get d.host.msixUnmask (func * 4096 + vector) = 1) : d.sendMsix route =
      (d.emit (.msix func vector (SMap.get d.host.msixAddr (func * 4096 + vector)) (SMap.get d.host.msixData (func * 4096 + vector)))).count 0xB0 9 1 := by
  subst hfunc hvector
  unfold Dev.sendMsix
  dsimp only
  rw [if_neg (by omega), if_pos hun]

theorem Dev.rowFunc_up {act : Dev → Dev} {t : Nat} (hup : d.funcUp func = true) : d.rowFunc func t act = act (d.atWrite t) := by
  unfold Dev.rowFunc
  dsimp only
  rw [Dev.funcUp_toTime, if_pos hup]
  rfl

theorem Dev.rowFunc_down {act : Dev → Dev} {t : Nat} (hdown : d.funcUp func = false) : d.rowFunc func t act = d.toTime t := by
  unfold Dev.rowFunc
  dsimp only
  rw [Dev.funcUp_toTime, if_neg (by simp [hdown])]

end Unmask

/-! The registers of a header, on a page that is there. -/

section Header

variable {d : Dev} {func off p w t : Nat} (hup : d.funcUp func = true) (hrows : (d.pageRows p).isSome = true)
include hup hrows

theorem Dev.pageLockRow_header (hpage : pageOf func off = (p, 0x0C)) (hrwl : hasRwl p = true) :
    d.pageLockRow func off w t = (d.atWrite t).wrAt R.HDR.PAGE_LOCK_OPEN p 0 (bit (w % 2 ^ 16 == 0x5A3C)) :=
  (Dev.eventWrite_up hup hpage hrows).trans ((if_pos rfl).trans (if_pos hrwl))

theorem Dev.evRaisedRow_header (same : Nat) (hpage : pageOf func off = (p, 0x18)) : d.evRaisedRow func off w same t =
    forAll (localSources p same) (fun x d => d.event x) (forAll (localSources p w) (fun x d => d.clearRaised x) (d.atWrite t)) :=
  (Dev.eventWrite_up hup hpage hrows).trans (if_pos rfl)

theorem Dev.evEnableRow_header (hpage : pageOf func off = (p, 0x1C)) :
    d.evEnableRow func off w t = (d.atWrite t).writeEnables ((List.range (evCount p)).map fun j => (evSource p j, bitAt w j)) :=
  (Dev.eventWrite_up hup hpage hrows).trans (if_pos rfl)

theorem Dev.evForceRow_header (hpage : pageOf func off = (p, 0x20)) : d.evForceRow func off w t = forAll (localSources p w) (fun x d => d.event x) (d.atWrite t) :=
  (Dev.eventWrite_up hup hpage hrows).trans (if_pos rfl)

theorem Dev.evRouteRow_header (hpage : pageOf func off = (p, 0x24)) : d.evRouteRow func off w t = (d.atWrite t).evRouteWrite p w :=
  (Dev.eventWrite_up hup hpage hrows).trans (if_pos rfl)

end Header

/-! The registers of an EVT page beyond its header (R513). -/

/-- The sources of the word of ENABLE from `base` on, with the bits of `w`. -/
def evtEnables (base w : Nat) : List (Nat × Nat) := (evtSources base (2 ^ 32 - 1)).map fun s => (s, bitAt w (s - base))

section Evt

variable {d : Dev} {func off p o w b x t : Nat} (hup : d.funcUp func = true) (hpage : pageOf func off = (p, o)) (h1 : 1 ≤ p) (h5 : p < 5) (halign : o % 4 = 0)
include hup hpage h1 h5 halign

theorem Dev.evRaisedRow_evt (same : Nat) (hlo : 0x40 ≤ o) (hhi : o < 0x80) (hb : b = 512 * (p - 1) + (o - 0x40) * 8) : d.evRaisedRow func off w same t =
    forAll (evtSources b same) (fun x d => d.event x) (forAll (evtSources b w) (fun x d => d.clearRaised x) (d.atWrite t)) := by
  rw [hb]
  exact (Dev.eventWrite_up hup hpage (Dev.pageRows_evt h1 h5)).trans ((if_neg (by omega)).trans (if_pos (by simp [isEvt_of_range h1 h5, hlo, hhi, halign])))

theorem Dev.evEnableRow_evt (hlo : 0x80 ≤ o) (hhi : o < 0xC0) (hb : b = 512 * (p - 1) + (o - 0x80) * 8) : d.evEnableRow func off w t = (d.atWrite t).writeEnables (evtEnables b w) := by
  rw [hb]
  exact (Dev.eventWrite_up hup hpage (Dev.pageRows_evt h1 h5)).trans ((if_neg (by omega)).trans (if_pos (by simp [isEvt_of_range h1 h5, hlo, hhi, halign])))

theorem Dev.evForceRow_evt (hlo : 0xC0 ≤ o) (hhi : o < 0x100) (hb : b = 512 * (p - 1) + (o - 0xC0) * 8) :
    d.evForceRow func off w t = forAll (evtSources b w) (fun x d => d.event x) (d.atWrite t) := by
  rw [hb]
  exact (Dev.eventWrite_up hup hpage (Dev.pageRows_evt h1 h5)).trans ((if_neg (by omega)).trans (if_pos (by simp [isEvt_of_range h1 h5, hlo, hhi, halign])))

theorem Dev.evRouteRow_evt (hlo : 0x800 ≤ o) (hx : x = 512 * (p - 1) + (o - 0x800) / 4) :
    d.evRouteRow func off w t = if evAssigned x then (d.atWrite t).writeRoute p x (w % 2 ^ 14) (bitAt w 14) else d.atWrite t := by
  rw [hx]
  exact (Dev.eventWrite_up hup hpage (Dev.pageRows_evt h1 h5)).trans ((if_neg (by omega)).trans (if_pos (by simp [isEvt_of_range h1 h5, hlo, halign])))

end Evt

theorem bitAt_ones {j : Nat} (h : j < 32) : bitAt (2 ^ 32 - 1) j = 1 := by
  rw [bitAt_eq_toNat, Nat.testBit_two_pow_sub_one, decide_eq_true h]
  rfl

/-- Every entry is one of the 32 sources, with its bit. -/
theorem mem_evtEnables {base w : Nat} {x : Nat × Nat} : x ∈ evtEnables base w ↔ ∃ j, j < 32 ∧ evAssigned (base + j) = true ∧ x = (base + j, bitAt w j) := by
  simp only [evtEnables, List.mem_map, mem_evtSources]
  constructor
  · rintro ⟨_, ⟨j, hj, -, h, rfl⟩, rfl⟩
    exact ⟨j, hj, h, by rw [Nat.add_sub_cancel_left]⟩
  · rintro ⟨j, hj, h, rfl⟩
    exact ⟨base + j, ⟨j, hj, bitAt_ones hj, h, rfl⟩, by rw [Nat.add_sub_cancel_left]⟩

/-- ENABLE of the sources of a word of an EVT page: a reserved one keeps its value. -/
theorem get_setEach_evt {base w j : Nat} (hj : j < 32) (m : SMap Nat) :
    SMap.get (setEach (evtEnables base w) m) (base + j) = if evAssigned (base + j) then bitAt w j else SMap.get m (base + j) := by
  rw [get_setEach (v := bitAt w j)]
  · have hmem : base + j ∈ (evtEnables base w).map Prod.fst ↔ evAssigned (base + j) = true := by
      simp only [List.mem_map, mem_evtEnables]
      constructor
      · rintro ⟨_, ⟨i, -, h, rfl⟩, hij⟩
        exact hij ▸ h
      · exact fun h => ⟨_, ⟨j, hj, h, rfl⟩, rfl⟩
    simp only [hmem]
  · rintro _ hx hij
    obtain ⟨i, -, -, rfl⟩ := mem_evtEnables.mp hx
    rw [Nat.add_left_cancel hij]

/-- Settles O39: the registers of a header, then a vector that is unmasked, then those of an EVT page. -/
theorem eventRegisters : Obligations.EventRegisters := by
  unfold Obligations.EventRegisters
  refine ⟨?lock, ?cleared, fun s func off p w same t hf hup hpage hrows => State.onUnit_after (decide_eq_true hf) (Dev.evRaisedRow_header hup hrows same hpage), ?enabled,
    fun s func off p w t hf hup hpage hrows => State.onUnit_after (decide_eq_true hf) (Dev.evForceRow_header hup hrows hpage),
    fun s func off p w t hf hup hpage hrows h => State.onUnit_after (decide_eq_true hf) ((Dev.evRouteRow_header hup hrows hpage).trans (Dev.evRouteWrite_refused h)),
    fun s func off p w t hf hup hpage hrows hl h15 => State.onUnit_after (decide_eq_true hf) ((Dev.evRouteRow_header hup hrows hpage).trans (Dev.evRouteWrite_names hl h15)),
    ?routed, ?unmasked, ?noMessage, fun d src hdis hraised hmsi hmask => if_pos ⟨rfl, by simp [hdis], hraised, hmsi, by simp [hmask]⟩,
    fun s func off p o w same b t hf hup hpage h1 h5 hlo hhi halign hb => State.onUnit_after (decide_eq_true hf) (Dev.evRaisedRow_evt hup hpage h1 h5 halign same hlo hhi hb), ?evtEnabled,
    fun s func off p o w b t hf hup hpage h1 h5 hlo hhi halign hb => State.onUnit_after (decide_eq_true hf) (Dev.evForceRow_evt hup hpage h1 h5 halign hlo hhi hb), ?evtReserved,
    ?evtRefused, ?evtRouted, ?down⟩
  case lock =>
    intro s func off p w t hf hup hpage hrows hrwl
    exact ⟨_, State.onUnit_after (decide_eq_true hf) (Dev.pageLockRow_header hup hrows hpage hrwl), rfl, Dev.lockOpen_wrAt_same _ p _⟩
  case cleared =>
    intro s func off p w t hf hup hpage hrows
    refine ⟨_, State.onUnit_after (g := fun d => forAll (localSources p w) (fun x d => d.clearRaised x) (d.atWrite t)) (decide_eq_true hf) (Dev.evRaisedRow_header hup hrows 0 hpage),
      rfl, rfl, ?_, ?_, Dev.clearAll_keeps Dev.regs (fun _ _ => rfl) _ _, fun src => ?_⟩
    · exact (Dev.clearAll_keeps Dev.evEnable (fun _ _ => rfl) _ _).trans (Dev.atWrite_evEnable ..)
    · exact (Dev.clearAll_keeps Dev.evRoute (fun _ _ => rfl) _ _).trans (Dev.atWrite_evRoute ..)
    · have hmem : src ∈ localSources p w ↔ src ∈ (List.range (min 32 (evCount p))).filterMap fun j => if bitAt w j = 1 then some (evSource p j) else none := by
        simp only [mem_localSources, List.mem_filterMap, List.mem_range, Nat.lt_min, Option.ite_none_right_eq_some, Option.some.injEq, and_assoc]
      refine (Dev.raised_clearAll _ _ src).trans ?_
      rw [decide_eq_decide.mpr hmem, Dev.raised, Dev.atWrite_evRaised, ← Dev.raised]
  case enabled =>
    intro s func off p w t hf hup hpage hrows hquiet
    have hnone : ∀ x ∈ (List.range (evCount p)).map fun j => (evSource p j, bitAt w j), (s.dev.atWrite t).raised x.1 = false := by
      simp only [List.mem_map, List.mem_range, Dev.raised, Dev.atWrite_evRaised]
      rintro _ ⟨j, hj, rfl⟩
      exact hquiet j hj
    refine ⟨_, State.onUnit_after (g := fun d => { d.atWrite t with evEnable := setEach _ _ }) (decide_eq_true hf)
      ((Dev.evEnableRow_header hup hrows hpage).trans (Dev.writeEnables_quiet hnone)), Dev.atWrite_evRaised .., Dev.atWrite_out .., fun j hj => ?_⟩
    refine (get_setEach (v := bitAt w j) ?_ _).trans (if_pos ?_)
    · simp only [List.mem_map, List.mem_range]
      rintro _ ⟨i, hi, rfl⟩ hij
      rw [evSource_injective hi hj hij]
    · simp only [List.map_map, List.mem_map, List.mem_range]
      exact ⟨j, hj, rfl⟩
  case routed =>
    intro s func off p w t hf hup hpage hrows hl h15 hv
    have hentry : isSet (fieldAt w 16 14) 11 = false ∨ fieldAt w 16 14 % 2 ^ 11 ≤ 31 := by
      rw [isSet_routeEntry, routeEntry_vector]
      exact hv.imp_left isSet_clear
    have hroute := Dev.route_writeRoute (d := (s.dev.atWrite t).wrAt R.HDR.EV_ROUTE_LOCAL p 0 (w % 32)) (p := p) (src := evSource p (w % 32)) (safety := bitAt w 30) hentry
    have hlock : ((s.dev.atWrite t).wrAt R.HDR.EV_ROUTE_LOCAL p 0 (w % 32)).lockOpen p = s.dev.lockOpen p := by
      refine Eq.trans ?_ (Dev.lockOpen_atWrite s.dev t p)
      unfold Dev.lockOpen
      rw [Dev.rdAt_wrAt_ne _ _ (by simp only [Reg.key, R.HDR.PAGE_LOCK_OPEN, R.HDR.EV_ROUTE_LOCAL]; omega)]
    have hold (x : Nat) : ((s.dev.atWrite t).wrAt R.HDR.EV_ROUTE_LOCAL p 0 (w % 32)).route x = s.dev.route x := by simp [Dev.route]
    simp only [hlock, hold, routeEntry_mod, bitAt_mod_two] at hroute
    refine ⟨_, State.onUnit_after (g := fun d => ((d.atWrite t).wrAt R.HDR.EV_ROUTE_LOCAL p 0 (w % 32)).writeRoute p (evSource p (w % 32)) (fieldAt w 16 14) (bitAt w 30))
      (decide_eq_true hf) ((Dev.evRouteRow_header hup hrows hpage).trans (Dev.evRouteWrite_sets hl h15 hv)), ?_, (hroute _).trans (if_pos rfl), fun x hx => (hroute x).trans (if_neg hx)⟩
    simp [State.after, Dev.writeRoute_taken hentry]
  case unmasked =>
    intro s func vector t hf hup hv hpend hen
    have hrow : (s.dev.rowFunc func t fun d => d.msixUnmask func vector) = _ := (Dev.rowFunc_up hup).trans
      ((Dev.msixUnmask_eq hf hv).trans ((if_pos (by simp [hpend, hen])).trans (Dev.sendMsix_unmasked (func := func) (vector := vector) (by unfold bitAt; split_ifs at hv <;> omega)
        (by split_ifs at hv <;> omega) (by simp [Dev.notPending, Dev.unmasked, hen]) (by simp [Dev.notPending, Dev.unmasked]))))
    refine ⟨_, State.onUnit_after (g := fun _ => _) (decide_eq_true hf) hrow, ?_, ?_, ?_⟩
    · simp [State.after, Dev.notPending]
    · simp [State.after, Dev.notPending, Dev.unmasked]
    · simp [State.after, Dev.notPending, Dev.unmasked, Dev.emit]
  case noMessage =>
    intro s func vector t hf hup hv h
    refine State.onUnit_after (decide_eq_true hf) ((Dev.rowFunc_up hup).trans ((Dev.msixUnmask_eq hf hv).trans ((if_neg ?_).trans ?_)))
    · rw [Dev.atWrite_host]
      omega
    · simp [Dev.unmasked]
  case evtEnabled =>
    intro s func off p o w b t hf hup hpage h1 h5 hlo hhi halign hb hquiet
    have hnone : ∀ x ∈ evtEnables b w, (s.dev.atWrite t).raised x.1 = false := by
      intro x hx
      obtain ⟨j, hj, -, rfl⟩ := mem_evtEnables.mp hx
      simpa [Dev.raised] using List.all_eq_true.mp hquiet j (List.mem_range.mpr hj)
    refine ⟨_, State.onUnit_after (g := fun d => { d.atWrite t with evEnable := setEach _ _ }) (decide_eq_true hf)
      ((Dev.evEnableRow_evt hup hpage h1 h5 halign hlo hhi hb).trans (Dev.writeEnables_quiet hnone)), Dev.atWrite_evRaised .., Dev.atWrite_out .., fun j hj => ?_⟩
    refine (get_setEach_evt hj _).trans ?_
    rw [Dev.atWrite_evEnable]
  case evtReserved =>
    intro s func off p o w x t hf hup hpage h1 h5 hlo halign hx hreserved
    exact State.onUnit_after (decide_eq_true hf) ((Dev.evRouteRow_evt hup hpage h1 h5 halign hlo hx).trans (if_neg (by simp [hreserved])))
  case evtRefused =>
    intro s func off p o w x t hf hup hpage h1 h5 hlo halign hx hassigned h11 hv
    refine State.onUnit_after (decide_eq_true hf) ((Dev.evRouteRow_evt hup hpage h1 h5 halign hlo hx).trans ((if_pos hassigned).trans (Dev.writeRoute_refused ?_ ?_)))
    · exact isSet_iff.mpr (by unfold bitAt at *; omega)
    · omega
  case evtRouted =>
    intro s func off p o w x t hf hup hpage h1 h5 hlo halign hx hassigned hv
    have hentry : isSet (w % 2 ^ 14) 11 = false ∨ w % 2 ^ 14 % 2 ^ 11 ≤ 31 := by
      refine hv.imp (fun h => isSet_clear ?_) fun h => ?_
      · unfold bitAt at *; omega
      · omega
    have hroute := Dev.route_writeRoute (d := s.dev.atWrite t) (p := p) (src := x) (safety := bitAt w 14) hentry
    have hold (y : Nat) : (s.dev.atWrite t).route y = s.dev.route y := by simp [Dev.route]
    simp only [Dev.lockOpen_atWrite, hold, Nat.mod_mod, bitAt_mod_two] at hroute
    refine ⟨_, State.onUnit_after (g := fun d => (d.atWrite t).writeRoute p x (w % 2 ^ 14) (bitAt w 14)) (decide_eq_true hf)
      ((Dev.evRouteRow_evt hup hpage h1 h5 halign hlo hx).trans (if_pos hassigned)), ?_, (hroute x).trans (if_pos rfl), fun y hy => (hroute y).trans (if_neg hy)⟩
    dsimp only [State.after]
    rw [Dev.writeRoute_taken hentry, Dev.atWrite_evRaised]
  case down =>
    intro s func off w t hf hdown
    exact ⟨State.onUnit_after (decide_eq_true hf) (Dev.eventWrite_down _ hdown), State.onUnit_after (decide_eq_true hf) (Dev.eventWrite_down _ hdown),
      State.onUnit_after (decide_eq_true hf) (Dev.eventWrite_down _ hdown), State.onUnit_after (decide_eq_true hf) (Dev.eventWrite_down _ hdown),
      State.onUnit_after (decide_eq_true hf) (Dev.eventWrite_down _ hdown), State.onUnit_after (decide_eq_true hf) (Dev.rowFunc_down hdown)⟩

end Sys2Proof.Machine

/-! PROOFS. The invalidation of the device MMU, context roots and DMA fences (spec/12 R333, R334, R337 to R341). -/

namespace Sys2Proof.Machine

theorem Dev.on_atWrite (d : Dev) (t : Nat) {q : Reg} (h : q.key 0 0 ≠ R.CNT.LIVE.key 0xB0 11) : (d.atWrite t).on q = d.on q := by
  unfold Dev.on
  rw [Dev.rd_atWrite d t h]

/-! INV_CTRL (R333). -/

section Invalidation

variable {d : Dev} {w : Nat}

theorem Dev.invCtrlWrite_busy (hgo : isSet w 8 = true) (h : d.on R.DMMU.INV_STATUS_BUSY = true) : d.invCtrlWrite w = d.wr R.DMMU.DMMU_STATUS_WRITE_REFUSED 1 := by
  simp [Dev.invCtrlWrite, hgo, h]

/-- CTX and SCOPE of INV_CTRL are stored. -/
def Dev.scopeWritten (d : Dev) (w : Nat) : Dev := (d.wr R.DMMU.INV_CTRL_CTX w).wr R.DMMU.INV_CTRL_SCOPE (w / 64)

theorem Dev.rd_scopeWritten_ne {q : Reg} (hctx : q.key 0 0 ≠ R.DMMU.INV_CTRL_CTX.key 0 0) (hscope : q.key 0 0 ≠ R.DMMU.INV_CTRL_SCOPE.key 0 0) : (d.scopeWritten w).rd q = d.rd q := by
  unfold Dev.scopeWritten
  rw [Dev.rd_wr_ne _ _ hscope, Dev.rd_wr_ne _ _ hctx]

theorem Dev.rd_scopeWritten_ctx : (d.scopeWritten w).rd R.DMMU.INV_CTRL_CTX = w % 64 := by
  unfold Dev.scopeWritten
  rw [Dev.rd_wr_ne _ _ (by decide), Dev.rd_wr_same]
  rfl

theorem Dev.rd_scopeWritten_scope : (d.scopeWritten w).rd R.DMMU.INV_CTRL_SCOPE = w / 64 % 4 := Dev.rd_wr_same ..

theorem Dev.invCtrlWrite_invalid (hgo : isSet w 8 = true) (h : d.on R.DMMU.INV_STATUS_BUSY = false) (hscope : fieldAt w 6 2 = 3) :
    d.invCtrlWrite w = (d.scopeWritten w).wr R.DMMU.DMMU_STATUS_WRITE_REFUSED 1 := by
  simp [Dev.invCtrlWrite, Dev.scopeWritten, hgo, h, hscope]

theorem Dev.invCtrlWrite_starts (hgo : isSet w 8 = true) (h : d.on R.DMMU.INV_STATUS_BUSY = false) (hscope : fieldAt w 6 2 ≠ 3) :
    d.invCtrlWrite w = ({ d.scopeWritten w with host := { d.host with
      invalidating := some (fieldAt w 6 2, fieldAt w 0 6, d.rd R.DMMU.INV_BASE / 2 ^ 12 % 2 ^ 36, d.rd R.DMMU.INV_PAGES) } } : Dev).wr R.DMMU.INV_STATUS_BUSY 1 := by
  rw [← Dev.rd_scopeWritten_ne (d := d) (w := w) (q := R.DMMU.INV_BASE) (by decide) (by decide), ← Dev.rd_scopeWritten_ne (d := d) (w := w) (q := R.DMMU.INV_PAGES) (by decide) (by decide)]
  simp [Dev.invCtrlWrite, Dev.scopeWritten, hgo, h, hscope]

theorem isSet_go (w : Nat) : isSet (w ||| 0x100) 8 = true := by
  rw [isSet_or, show isSet 0x100 8 = true from rfl, Bool.or_true]

/-- A command bit leaves the fields below it as they are written. -/
theorem or_mod_of_clear (w : Nat) {a n : Nat} (h : a % 2 ^ n = 0) : (w ||| a) % 2 ^ n = w % 2 ^ n := by
  rw [Nat.or_mod_two_pow, h, Nat.or_zero]

theorem go_low (w : Nat) : (w ||| 0x100) % 2 ^ 8 = w % 2 ^ 8 := or_mod_of_clear w rfl

theorem fieldAt_go_scope (w : Nat) : fieldAt (w ||| 0x100) 6 2 = w / 64 % 4 := by
  have := go_low w
  unfold fieldAt
  omega

theorem fieldAt_go_ctx (w : Nat) : fieldAt (w ||| 0x100) 0 6 = w % 64 := by
  have := go_low w
  unfold fieldAt
  omega

theorem Dev.scopeWritten_go : d.scopeWritten (w ||| 0x100) = d.scopeWritten w := by
  have := go_low w
  unfold Dev.scopeWritten Dev.wr
  rw [Dev.wrAt_congr_mod d _ _ _ (v := w ||| 0x100) (w := w), Dev.wrAt_congr_mod _ R.DMMU.INV_CTRL_SCOPE _ _ (v := (w ||| 0x100) / 64) (w := w / 64)]
  · simp only [R.DMMU.INV_CTRL_SCOPE]; omega
  · simp only [R.DMMU.INV_CTRL_CTX]; omega

end Invalidation

/-! Context roots (R334). -/

section CtxRoot

variable {d : Dev} {c hi w : Nat}

theorem Dev.ctxRoot_atWrite (d : Dev) (t : Nat) {q : Reg} {c : Nat} (hc : c < 64) (hq : q ∈ [R.DMMU.CTX_ROOT_VALID, R.DMMU.CTX_ROOT_ADDR]) : (d.atWrite t).rdAt q 0 c = d.rdAt q 0 c := by
  refine Dev.rdAt_atWrite d t ?_
  simp only [List.mem_cons, List.not_mem_nil, or_false] at hq
  obtain rfl | rfl := hq <;> simp only [Reg.key, R.DMMU.CTX_ROOT_VALID, R.DMMU.CTX_ROOT_ADDR, R.CNT.LIVE] <;> omega

theorem Dev.ctxRootWrite_refused (hvalid : d.rdAt R.DMMU.CTX_ROOT_VALID 0 c = 1) (h : hi = 1 ∨ w % 2 = 1) : d.ctxRootWrite c hi w = d.wr R.DMMU.DMMU_STATUS_WRITE_REFUSED 1 :=
  if_pos (by simpa [hvalid] using h)

theorem Dev.ctxRootWrite_low (h : d.rdAt R.DMMU.CTX_ROOT_VALID 0 c ≠ 1 ∨ w % 2 = 0) : d.ctxRootWrite c 0 w =
    ((d.wrAt R.DMMU.CTX_ROOT_VALID 0 c w).wrAt R.DMMU.CTX_ROOT_ROOT_TARGET 0 c (w / 2)).wrAt R.DMMU.CTX_ROOT_ADDR 0 c (putField (d.rdAt R.DMMU.CTX_ROOT_ADDR 0 c) 0 20 (w / 2 ^ 12)) :=
  (if_neg (by
    simp only [Bool.and_eq_true, Bool.or_eq_true, beq_iff_eq]
    omega)).trans (if_neg (by decide))

theorem Dev.ctxRootWrite_high (h : d.rdAt R.DMMU.CTX_ROOT_VALID 0 c ≠ 1) :
    d.ctxRootWrite c 1 w = d.wrAt R.DMMU.CTX_ROOT_ADDR 0 c (putField (d.rdAt R.DMMU.CTX_ROOT_ADDR 0 c) 20 32 w) :=
  (if_neg (by simp [h])).trans (if_pos rfl)

end CtxRoot

/-! FENCE_CTRL (R339, R341). -/

section Fences

variable {d : Dev} {w : Nat}

/-- The staged fences are the registers of the FENCE entries: a register elsewhere is none of them. -/
theorem Dev.stagedFences_wrAt (d : Dev) {r : Reg} {n k : Nat} (v : Nat) (h : r.key n k < 0x102100 * 8 ∨ 0x102300 * 8 ≤ r.key n k) : (d.wrAt r n k v).stagedFences = d.stagedFences := by
  unfold Dev.stagedFences
  refine List.filterMap_congr fun f hf => ?_
  have hf := List.mem_range.mp hf
  rw [Dev.rdAt_wrAt_ne d (q := R.FENCE.ENTRY_BASE_VALID) v (by simp only [Reg.key, R.FENCE.ENTRY_BASE_VALID] at *; omega),
    Dev.rdAt_wrAt_ne d (q := R.FENCE.ENTRY_BASE_BASE) v (by simp only [Reg.key, R.FENCE.ENTRY_BASE_BASE] at *; omega),
    Dev.rdAt_wrAt_ne d (q := R.FENCE.ENTRY_LIMIT) v (by simp only [Reg.key, R.FENCE.ENTRY_LIMIT] at *; omega)]

theorem Dev.stagedFences_atWrite (d : Dev) (t : Nat) : (d.atWrite t).stagedFences = d.stagedFences := by
  refine (Dev.stagedFences_wrAt (d.toTime t) _ (.inr (by decide))).trans ?_
  simp only [Dev.stagedFences, Dev.rdAt_toTime]

theorem Dev.fenceCtrlWrite_locked (h : d.on R.FENCE.FENCE_CTRL_LOCK = true) : d.fenceCtrlWrite w = d.wr R.FENCE.FENCE_STATUS_WRITE_REFUSED 1 := if_pos h

/-- ENFORCE of FENCE_CTRL is stored, and LOCK where it is written 1. -/
def Dev.fenceCtrlSet (d : Dev) (w : Nat) : Dev := (d.wr R.FENCE.FENCE_CTRL_ENFORCE w).when (isSet w 1) fun d => d.wr R.FENCE.FENCE_CTRL_LOCK 1

theorem Dev.fenceCtrlWrite_open (h : d.on R.FENCE.FENCE_CTRL_LOCK = false) (hcommit : isSet w 2 = false) : d.fenceCtrlWrite w = d.fenceCtrlSet w :=
  (if_neg (by simp [h])).trans (if_neg (by simp [hcommit]))

theorem Dev.fenceCtrlWrite_commits (h : d.on R.FENCE.FENCE_CTRL_LOCK = false) (hcommit : isSet w 2 = true) : d.fenceCtrlWrite w =
    ({ d.fenceCtrlSet w with host := { (d.fenceCtrlSet w).host with fenceNext := some (d.fenceCtrlSet w).stagedFences } } : Dev).wr R.FENCE.FENCE_STATUS_COMMITTED 0 :=
  (if_neg (by simp [h])).trans (if_pos hcommit)

theorem Dev.stagedFences_fenceCtrlSet : (d.fenceCtrlSet w).stagedFences = d.stagedFences :=
  (Dev.when_wrAt_keeps Dev.stagedFences (Dev.stagedFences_wrAt _ _ (.inl (by decide)))).trans (Dev.stagedFences_wrAt _ _ (.inl (by decide)))

theorem Dev.fenceCtrlSet_host : (d.fenceCtrlSet w).host = d.host := (Dev.when_wrAt_keeps Dev.host (Dev.wrAt_host ..)).trans (Dev.wr_host ..)

theorem Dev.rd_fenceCtrlSet_enforce : (d.fenceCtrlSet w).rd R.FENCE.FENCE_CTRL_ENFORCE = w % 2 :=
  (Dev.rdAt_when_wrAt_ne (by decide)).trans (Dev.rd_wr_same ..)

theorem Dev.rd_fenceCtrlSet_lock (h : d.on R.FENCE.FENCE_CTRL_LOCK = false) : (d.fenceCtrlSet w).rd R.FENCE.FENCE_CTRL_LOCK = 1 ↔ bitAt w 1 = 1 := by
  have hopen : d.rd R.FENCE.FENCE_CTRL_LOCK ≠ 1 := by simpa [Dev.on] using h
  have hread : (d.fenceCtrlSet w).rd R.FENCE.FENCE_CTRL_LOCK = if isSet w 1 then 1 else d.rd R.FENCE.FENCE_CTRL_LOCK :=
    Dev.rdAt_when_wrAt_same.trans (by rw [Dev.rdAt_wr_ne d w (by decide)]; rfl)
  rw [hread, ← isSet_iff]
  split_ifs with hset <;> simp [hset, hopen]

end Fences

/-- Settles O38: GO by the state of the invalidation, a word of a context root by VALID, then FENCE_CTRL by LOCK. -/
theorem mmuAndFences : Obligations.MmuAndFences := by
  unfold Obligations.MmuAndFences
  refine ⟨?starts, ?busy, ?invalid, ?done, fun s h => State.onDev_unchanged (by simp [Dev.invalidationDone, h]), ?refused, ?low, ?high, ?locked, ?commits, ?locks, ?committed,
    fun s h => State.onDev_unchanged (by simp [Dev.fenceCommitted, h]), fun s c hi w t hc => State.onUnit_fault s _ (decide_eq_false (Nat.not_lt.mpr hc))⟩
  case starts =>
    intro s w t hreach hidle hscope
    have hact := Dev.invCtrlWrite_starts (d := s.dev.atWrite t) (isSet_go w) ((Dev.on_atWrite _ t (by decide)).trans hidle) (by rwa [fieldAt_go_scope])
    rw [Dev.scopeWritten_go, fieldAt_go_scope, fieldAt_go_ctx, Dev.rd_atWrite _ _ (by decide), Dev.rd_atWrite _ _ (by decide), Dev.atWrite_host] at hact
    refine ⟨_, State.onDev_row (g := fun _ => _) hreach hact, rfl, rfl, Dev.rd_wr_same .., ?_, ?_, rfl, rfl⟩
    · exact (Dev.rd_wr_ne _ _ (by decide)).trans Dev.rd_scopeWritten_ctx
    · exact (Dev.rd_wr_ne _ _ (by decide)).trans Dev.rd_scopeWritten_scope
  case busy =>
    intro s w t hreach hbusy
    exact State.onDev_row hreach (Dev.invCtrlWrite_busy (isSet_go w) ((Dev.on_atWrite _ t (by decide)).trans hbusy))
  case invalid =>
    intro s w t hreach hidle hscope
    have hact := Dev.invCtrlWrite_invalid (d := s.dev.atWrite t) (isSet_go w) ((Dev.on_atWrite _ t (by decide)).trans hidle) (by rwa [fieldAt_go_scope])
    refine State.onDev_row hreach (hact.trans ?_)
    rw [Dev.scopeWritten_go]
    exact congrArg (Dev.wr · _ 1) (Dev.wrAt_congr_mod _ R.DMMU.INV_CTRL_SCOPE 0 0 hscope)
  case done =>
    intro s x hx
    exact State.onDev_after (by simp only [Dev.invalidationDone, hx])
  case refused =>
    intro s c hi w t hc hreach hvalid h
    exact State.onUnit_row (decide_eq_true hc) hreach (Dev.ctxRootWrite_refused ((Dev.ctxRoot_atWrite _ t hc (by simp)).trans hvalid) h)
  case low =>
    intro s c w t hc hreach h
    refine State.onUnit_row (decide_eq_true hc) hreach ((Dev.ctxRootWrite_low (by rwa [Dev.ctxRoot_atWrite _ t hc (by simp)])).trans ?_)
    rw [Dev.ctxRoot_atWrite _ t hc (by simp)]
  case high =>
    intro s c w t hc hreach h
    refine State.onUnit_row (decide_eq_true hc) hreach ((Dev.ctxRootWrite_high (by rwa [Dev.ctxRoot_atWrite _ t hc (by simp)])).trans ?_)
    rw [Dev.ctxRoot_atWrite _ t hc (by simp)]
  case locked =>
    intro s w t hreach hlock
    have h : (s.dev.atWrite t).on R.FENCE.FENCE_CTRL_LOCK = true := (Dev.on_atWrite _ t (by decide)).trans hlock
    exact ⟨State.onDev_row hreach (Dev.fenceCtrlWrite_locked h), State.onDev_row hreach (Dev.fenceCtrlWrite_locked h)⟩
  case commits =>
    intro s w t hreach hlock
    have h : (s.dev.atWrite t).on R.FENCE.FENCE_CTRL_LOCK = false := (Dev.on_atWrite _ t (by decide)).trans hlock
    have hact := Dev.fenceCtrlWrite_commits (w := w ||| 4) h (by rw [isSet_or, show isSet 4 2 = true from rfl, Bool.or_true])
    rw [Dev.stagedFences_fenceCtrlSet, Dev.stagedFences_atWrite, Dev.fenceCtrlSet_host, Dev.atWrite_host] at hact
    have henforce : (w ||| 4) % 2 = w % 2 := or_mod_of_clear w (n := 1) rfl
    have hbit : bitAt (w ||| 4) 1 = bitAt w 1 := by rw [bitAt_eq_toNat, bitAt_eq_toNat, Nat.testBit_or, show Nat.testBit 4 1 = false from rfl, Bool.or_false]
    refine ⟨_, State.onDev_row (g := fun _ => _) hreach hact, rfl, rfl, rfl, ?_, Dev.rd_wr_same .., rfl, ?_⟩
    · exact (Dev.rd_wr_ne _ _ (by decide)).trans (Dev.rd_fenceCtrlSet_enforce.trans henforce)
    · rw [← hbit, ← Dev.rd_fenceCtrlSet_lock h]
      exact Eq.congr_left (Dev.rd_wr_ne _ _ (by decide))
  case locks =>
    intro s w t hreach hlock hcommit
    have h : (s.dev.atWrite t).on R.FENCE.FENCE_CTRL_LOCK = false := (Dev.on_atWrite _ t (by decide)).trans hlock
    refine State.onDev_row hreach ((Dev.fenceCtrlWrite_open h (by rw [isSet_or, isSet_clear hcommit]; rfl)).trans ?_)
    unfold Dev.fenceCtrlSet
    rw [isSet_or, show isSet 2 1 = true from rfl, Bool.or_true]
    exact congrArg (Dev.wr · _ 1) (Dev.wrAt_congr_mod _ R.FENCE.FENCE_CTRL_ENFORCE 0 0 (or_mod_of_clear w rfl))
  case committed =>
    intro s x hx
    exact State.onDev_after (by simp only [Dev.fenceCommitted, hx])

end Sys2Proof.Machine

/-! PROOFS. What a read of INFLIGHT_PEAK answers (spec/12 R343). -/

namespace Sys2Proof.Machine

section InflightPeak

variable {d : Dev} {t : Nat}

/-- A word in which the last field alone lies. -/
theorem Dev.rowsWord_last {rows : List Reg} {r : Reg} {o : Nat} (n : Nat) (h : ∀ q ∈ rows, q.place o = none) : d.rowsWord (rows ++ [r]) n o = d.fieldWord r n o := by
  have hzero (rows : List Reg) (h : ∀ q ∈ rows, q.place o = none) : rows.foldl (fun a r => a + d.fieldWord r n o) 0 = 0 := by
    induction rows with
    | nil => rfl
    | cons q rows ih =>
      have hq : d.fieldWord q n o = 0 := by simp only [Dev.fieldWord, h q List.mem_cons_self]
      rw [List.foldl_cons, hq]
      exact ih fun x hx => h x (List.mem_cons_of_mem q hx)
  unfold Dev.rowsWord
  rw [List.foldl_append, hzero rows h]
  exact Nat.zero_add _

/-- INFLIGHT_PEAK is 17 bits wide: a read shows the peak cut to them. -/
theorem Dev.pageWord_inflightPeak (d : Dev) : d.pageWord 0x100 0x54 = max (d.rd R.PCIE.INFLIGHT_PEAK) d.inflight % 2 ^ 17 := by
  have hview : d.view R.PCIE.INFLIGHT_PEAK 0 0 = max (d.rd R.PCIE.INFLIGHT_PEAK) d.inflight := rfl
  calc d.pageWord 0x100 0x54 = d.rowsWord (rowsPcie.dropLast ++ [R.PCIE.INFLIGHT_PEAK]) 0 0x54 := rfl
    _ = d.fieldWord R.PCIE.INFLIGHT_PEAK 0 0x54 := Dev.rowsWord_last 0 (by decide)
    _ = d.view R.PCIE.INFLIGHT_PEAK 0 0 % 2 ^ 17 * 2 ^ 0 / 2 ^ (32 * 0) % 2 ^ 32 := rfl
    _ = _ := by rw [hview]; omega

theorem Dev.readPage_inflightPeak (d : Dev) : d.readPage false 0x100 0x54 = (max (d.rd R.PCIE.INFLIGHT_PEAK) d.inflight % 2 ^ 17, d.wr R.PCIE.INFLIGHT_PEAK 0) := by
  rw [← Dev.pageWord_inflightPeak]
  rfl

/-- A page of PF0 BAR0 above the MSI-X table and below the staging memory of the engines. -/
theorem Dev.readPf0_page (d : Dev) {off p o : Nat} (hlo : 0xF8100 ≤ off) (hhi : off < 0x180000) (hp : off / 0x1000 = p) (ho : off % 0x1000 = o) : d.readPf0 off = d.readPage false p o := by
  unfold Dev.readPf0
  dsimp only
  rw [Nat.mod_eq_of_lt (by omega), if_neg (by omega), decide_eq_false (by omega), hp, ho]

/-- The PCIE page lies behind no gateway. -/
theorem Dev.gatedRead_inflightPeak (d : Dev) : d.gatedRead 0 0x100054 4 = (some (max (d.rd R.PCIE.INFLIGHT_PEAK) d.inflight % 2 ^ 17), d.wr R.PCIE.INFLIGHT_PEAK 0) := by
  unfold Dev.gatedRead Dev.gatedWord
  norm_num [pageDomain, Dev.readPf0_page d (off := 0x100054) (by decide) (by decide) rfl rfl, Dev.readPage_inflightPeak]

theorem Dev.inflight_atRead (d : Dev) (t : Nat) : (d.atRead t).inflight = d.inflight := by
  unfold Dev.inflight Dev.atRead
  rw [Dev.count_arr, Dev.toTime_arr]

theorem Dev.writeHeld_atRead (d : Dev) (t : Nat) : (d.atRead t).writeHeld = d.writeHeld := by
  unfold Dev.writeHeld Dev.atRead
  rw [Dev.count_net, Dev.toTime_net]

theorem Dev.busRead_inflightPeak (hup : d.funcUp 0 = true) (hheld : d.writeHeld = false) : d.busRead 0 0x100054 4 t =
    ((d.atRead t).wr R.PCIE.INFLIGHT_PEAK 0).emit (.readData (leBytes (max (d.rd R.PCIE.INFLIGHT_PEAK) d.inflight % 2 ^ 17) 4)) := by
  have hpeak : (d.atRead t).rd R.PCIE.INFLIGHT_PEAK = d.rd R.PCIE.INFLIGHT_PEAK := Dev.rdAt_atRead d t (by decide)
  unfold Dev.busRead
  dsimp only
  rw [Dev.funcUp_toTime, hup, ← Dev.atRead, Dev.writeHeld_atRead, hheld, Dev.gatedRead_inflightPeak, hpeak, Dev.inflight_atRead]
  rfl

theorem exec_inflightPeakRead {s : State} (hup : s.dev.funcUp 0 = true) (hheld : s.dev.writeHeld = false) : exec (.inflightPeakRead (.bar0 0 0x100054) 4 t) s =
    .next (s.after fun d => ((d.atRead t).wr R.PCIE.INFLIGHT_PEAK 0).emit (.readData (leBytes (max (d.rd R.PCIE.INFLIGHT_PEAK) d.inflight % 2 ^ 17) 4))) :=
  State.onDev_after (Dev.busRead_inflightPeak hup hheld)

end InflightPeak

/-- `n` requests of far port 0 that array fault stops have abandoned and whose responses have not come (spec/02 R67). -/
def abandonedRequests (n : Nat) : SMap FarReq := (List.range n).map fun i => (i, { (default : FarReq) with discard := true })

/-- A booted device with these requests in flight. -/
def inFlight (n : Nat) : Dev :=
  { State.reset.dev with mg := { State.reset.dev.mg with inReset := false }, arr := { State.reset.dev.arr with farReq := abandonedRequests n } }

theorem inflight_inFlight (n : Nat) : (inFlight n).inflight = n := by
  have hall : (abandonedRequests n).filter (fun e => !e.2.answered) = abandonedRequests n := by
    refine List.filter_eq_self.mpr fun e he => ?_
    obtain ⟨i, -, rfl⟩ := List.mem_map.mp he
    rfl
  calc (inFlight n).inflight = (abandonedRequests n).length := congrArg List.length hall
    _ = n := by rw [abandonedRequests, List.length_map, List.length_range]

theorem rd_inflightPeak_inFlight (n : Nat) : (inFlight n).rd R.PCIE.INFLIGHT_PEAK = 0 := rfl

/-- Refutes O37: INFLIGHT_PEAK shows 17 bits of the peak (R343), and the statement asks for all of it.  With 2^17 requests in flight the read answers four bytes of 0, where the
statement has 00 00 02 00. -/
theorem not_barAccesses : ¬ Obligations.BarAccesses := by
  unfold Obligations.BarAccesses
  rintro ⟨-, -, -, -, -, -, -, -, -, -, -, -, -, -, hpeak, -⟩
  have hbytes (n : Nat) : leBytes (n % 2 ^ 17) 4 = leBytes n 4 := by
    have hread := (exec_inflightPeakRead (s := { State.reset with dev := inFlight n }) (t := 0) rfl rfl).symm.trans (hpeak _ 0 rfl rfl)
    have hout := congrArg (fun u => u.dev.out) (Host.Outcome.next.inj hread)
    simpa [State.after, Dev.emit, rd_inflightPeak_inFlight, inflight_inFlight] using hout
  exact absurd (hbytes (2 ^ 17)) (by decide)

end Sys2Proof.Machine

/-! PROOFS. DDR5 channels: training, patrol scrub, refresh and temperature (spec/13 R346 to R359). -/

namespace Sys2Proof.Machine

@[simp] theorem Dev.ddrReady_toTime (d : Dev) (t : Nat) : (d.toTime t).ddrReady = d.ddrReady := Dev.on_toTime ..

theorem Dev.inflight_atWrite (d : Dev) (t : Nat) : (d.atWrite t).inflight = d.inflight := by unfold Dev.inflight; rw [Dev.atWrite_arr]

theorem Dev.ddrCtrlFields_part (w : Nat) (d : Dev) : (d.ddrCtrlFields w).part = d.part := by
  unfold Dev.ddrCtrlFields
  dsimp only
  split <;> simp only [Dev.wr_part]

theorem ddrCountOk_iff {n : Nat} : ddrCountOk n = true ↔ n ∈ [2, 4, 8] := by
  simp only [ddrCountOk, Bool.or_eq_true, beq_iff_eq, List.mem_cons, List.not_mem_nil, or_false]
  omega

section Channel

variable {d : Dev} {c t : Nat}

/-! Training: a channel becomes ready, or fails (R349, R350). -/

/-- Channel `c` is in its initialisation: in training, or at its zero-fill (R362). -/
def Dev.inTraining (d : Dev) (c : Nat) : Prop := d.rdAt R.DDRCH.CH_STATUS_STATE c 0 = 1 ∨ d.rdAt R.DDRCH.CH_STATUS_STATE c 0 = 2

theorem Dev.inTraining_toTime (d : Dev) (t c : Nat) : (d.toTime t).inTraining c ↔ d.inTraining c := by simp only [Dev.inTraining, Dev.rdAt_toTime]

/-- The device once channel `c` has completed step 8 of its training. -/
def Dev.channelTrained (d : Dev) (c t : Nat) : Dev := (((d.toTime t).wrAt R.DDRCH.CH_STATUS_STATE c 0 3).wrAt R.DDRCH.CH_STATUS_STEP c 0 8).showGeometry c

/-- The channels that take part are 8, 4 or 2, and all READY. -/
def Dev.channelsReady (d : Dev) : Prop := d.ddrWanted.length ∈ [2, 4, 8] ∧ ∀ i, i ∈ d.ddrWanted → d.rdAt R.DDRCH.CH_STATUS_STATE i 0 = 3

theorem Dev.channelsReady_iff : d.channelsReady ↔ (ddrCountOk d.ddrWanted.length && d.ddrWanted.all fun i => d.rdAt R.DDRCH.CH_STATUS_STATE i 0 == 3) = true := by
  simp only [Dev.channelsReady, Bool.and_eq_true, ddrCountOk_iff, List.all_eq_true, beq_iff_eq]

theorem Dev.ddrChannelReady_last (hc : c < 8) (h : d.inTraining c) (hall : (d.channelTrained c t).channelsReady) :
    d.ddrChannelReady c t =
      (let d2 := d.channelTrained c t
       ((((((d2.wr R.DDR.DDR_STATUS_ACTIVE (d2.ddrWanted.foldl (fun m i => m + 2 ^ i) 0)).wr R.DDR.DDR_STATUS_SPEED d2.ddrSpeed).wr R.DDR.DDR_STATUS_DPC d2.ddrDpc).wr
          R.DDR.DDR_STATUS_INIT_PERCENT 100).wr R.DDR.CAPACITY d2.ddrBytes).wr R.DDR.DDR_STATUS_READY 1).event 0x510) :=
  (if_pos ⟨hc, (Dev.inTraining_toTime d t c).mpr h⟩).trans (if_pos (Dev.channelsReady_iff.mp hall))

theorem Dev.ddrChannelReady_not_last (hc : c < 8) (h : d.inTraining c) (hall : ¬ (d.channelTrained c t).channelsReady) : d.ddrChannelReady c t = d.channelTrained c t :=
  (if_pos ⟨hc, (Dev.inTraining_toTime d t c).mpr h⟩).trans (if_neg (mt Dev.channelsReady_iff.mpr hall))

theorem Dev.ddrChannelReady_not_inTraining (h : ¬ d.inTraining c) : d.ddrChannelReady c t = d := if_neg fun hs => h ((Dev.inTraining_toTime d t c).mp hs.2)

theorem Dev.ddrInitFailed_inTraining {step slot : Nat} (hc : c < 8) (h : d.inTraining c) : d.ddrInitFailed c step slot t = (d.toTime t).failChannel c step slot :=
  if_pos ⟨hc, (Dev.inTraining_toTime d t c).mpr h⟩

theorem Dev.ddrInitFailed_not_inTraining {step slot : Nat} (h : ¬ d.inTraining c) : d.ddrInitFailed c step slot t = d := if_neg fun hs => h ((Dev.inTraining_toTime d t c).mp hs.2)

/-! Patrol scrub (R357). -/

/-- The patrol scrubber serves channel `c`: it is on, DDR5 is READY, and so is the channel. -/
def Dev.scrubs (d : Dev) (c : Nat) : Prop := d.ddr.scrubOn = true ∧ d.ddrReady = true ∧ d.rdAt R.DDRCH.CH_STATUS_STATE c 0 = 3

theorem Dev.scrubs_toTime (d : Dev) (t c : Nat) : (d.toTime t).scrubs c ↔ d.scrubs c := by simp only [Dev.scrubs, Dev.toTime_ddr, Dev.ddrReady_toTime, Dev.rdAt_toTime]

/-- Line `n` of channel `c` has been read: the pass goes on at the next line, or ends. -/
def Dev.scrubPast (d : Dev) (c n : Nat) : Dev :=
  if d.rd R.DDR.CAPACITY / 64 / max 1 d.activeChannels.length ≤ n + 1 then
    ({ d with ddr := { d.ddr with scrubAt := SMap.set d.ddr.scrubAt c 0 } } : Dev).wrAt R.DDRCH.SCRUB_PASSES c 0 (d.rdAt R.DDRCH.SCRUB_PASSES c 0 + 1)
  else { d with ddr := { d.ddr with scrubAt := SMap.set d.ddr.scrubAt c (n + 1) } }

theorem Dev.patrolScrub_reads {v : MemView} {n : Nat} (hc : c < 8) (h : d.scrubs c) (hn : n = SMap.get d.ddr.scrubAt c) :
    d.patrolScrub c v t = Dev.scrubPast ((d.toTime t).ddrRead 5 ((d.toTime t).physical c (n * 64) / 64) v).2.2 c n := by
  rw [hn, ← Dev.toTime_ddr d t]
  exact if_pos ⟨hc, (Dev.scrubs_toTime d t c).mpr h⟩

theorem Dev.patrolScrub_rests {v : MemView} (h : ¬ d.scrubs c) : d.patrolScrub c v t = d := if_neg fun hs => h ((Dev.scrubs_toTime d t c).mp hs.2)

/-! Refresh and temperature (R358, R359). -/

theorem Dev.ddrRefresh_eq (hc : c < 8) : d.ddrRefresh c t = if d.rdAt R.DDRCH.CH_STATUS_STATE c 0 = 3 then (d.toTime t).count (0x40 + c) 3 1 else d := by
  simp only [Dev.ddrRefresh, Dev.rdAt_toTime, hc, true_and]

/-- The temperature of channel `c` is kept, and its refresh doubled above 85 °C. -/
def Dev.tempKept (d : Dev) (c temp t : Nat) : Dev :=
  { (d.toTime t).wrAt R.DDRCH.CH_STATUS_TEMP c 0 temp with ddr := { d.ddr with doubled := SMap.set d.ddr.doubled c (if 85 < temp then 1 else 0) } }

theorem Dev.dimmTemp_read {temp : Nat} (hc : c < 8) (h0 : d.rdAt R.DDRCH.CH_STATUS_STATE c 0 ≠ 0) (h5 : d.rdAt R.DDRCH.CH_STATUS_STATE c 0 ≠ 5) :
    d.dimmTemp c temp t =
      if d.rd R.DDR.THERM_LIMIT ≤ temp then
        (if d.rdAt R.DDRCH.CH_STATUS_HOT c 0 = 1 then d.tempKept c temp t else ((d.tempKept c temp t).wrAt R.DDRCH.CH_STATUS_HOT c 0 1).event (0x520 + c))
      else if temp + 5 ≤ d.rd R.DDR.THERM_LIMIT then (d.tempKept c temp t).wrAt R.DDRCH.CH_STATUS_HOT c 0 0 else d.tempKept c temp t := by
  have hdoubled : bit (decide (85 < temp)) = if 85 < temp then 1 else 0 := by simp only [bit, decide_eq_true_eq]
  simp only [Dev.dimmTemp, Dev.tempKept, Dev.rdAt_toTime, Dev.rd_toTime, Dev.toTime_ddr, hdoubled]
  exact if_pos ⟨hc, h0, h5⟩

theorem Dev.dimmTemp_unread {temp : Nat} (h : d.rdAt R.DDRCH.CH_STATUS_STATE c 0 = 0 ∨ d.rdAt R.DDRCH.CH_STATUS_STATE c 0 = 5) : d.dimmTemp c temp t = d :=
  if_neg fun ⟨_, hs⟩ => by
    rw [Dev.rdAt_toTime] at hs
    omega

end Channel

section Retrain

variable {d : Dev} {w : Nat}

/-! A write of DDR_CTRL with RETRAIN (R346, R349). -/

theorem Dev.retrainOk_iff : d.retrainOk = true ↔
    (let all := (setBits d.part.dimmMask 8).filter fun c => !isSet (d.rd R.DDR.DDR_CTRL_EXCLUDE) c
     all.length ∈ [2, 4, 8] ∧ ∀ c ∈ all, d.part.spdFault all c = none) := by
  simp only [Dev.retrainOk, Bool.and_eq_true, ddrCountOk_iff, List.all_eq_true, Option.isNone_iff_eq_none]

theorem Dev.ddrRetrain_busy (h : d.running = true ∨ d.inflight ≠ 0) : d.ddrRetrain w = d.wr R.DDR.DDR_STATUS_WRITE_REFUSED 1 := if_pos h

theorem Dev.ddrRetrain_free (hrun : d.running = false) (hin : d.inflight = 0) :
    d.ddrRetrain w = if (d.ddrCtrlFields w).retrainOk = true then (d.ddrCtrlFields w).ddrStart else d.ddrCtrlFields w :=
  if_neg (by simp [hrun, hin])

end Retrain

/-- Settles O40: each command reads the registers of the channel as they stood before its stamp, for device time alone goes on in between; its cases are the lemmas above. -/
theorem ddrChannels : Obligations.DdrChannels := by
  unfold Obligations.DdrChannels
  refine ⟨?ready, ?failed, ?notTraining, ?busy, ?retrain, ?scrub, ?scrubRests, ?refresh, ?temp, ?unread, ?noChannel⟩
  case ready =>
    intro s c t hc h
    exact ⟨s.dev.channelTrained c t, rfl, fun hall => State.onUnit_after (decide_eq_true hc) (Dev.ddrChannelReady_last hc h hall),
      fun hall => State.onUnit_after (decide_eq_true hc) (Dev.ddrChannelReady_not_last hc h hall)⟩
  case failed =>
    intro s c step slot t hc h
    exact State.onUnit_after (decide_eq_true hc) (Dev.ddrInitFailed_inTraining hc h)
  case notTraining =>
    intro s c step slot t hc h1 h2
    have h : ¬ s.dev.inTraining c := not_or.mpr ⟨h1, h2⟩
    exact ⟨State.onUnit_unchanged (decide_eq_true hc) (Dev.ddrChannelReady_not_inTraining h), State.onUnit_unchanged (decide_eq_true hc) (Dev.ddrInitFailed_not_inTraining h)⟩
  case busy =>
    intro s w t hreach h
    refine State.onDev_row hreach (Dev.ddrRetrain_busy ?_)
    rwa [Dev.running_atWrite, Dev.inflight_atWrite]
  case retrain =>
    intro s w t hreach hrun hin
    refine State.onDev_row hreach ((Dev.ddrRetrain_free ((Dev.running_atWrite s.dev t).trans hrun) ((Dev.inflight_atWrite s.dev t).trans hin)).trans (if_congr ?_ rfl rfl))
    rw [Dev.retrainOk_iff, Dev.ddrCtrlFields_part, Dev.atWrite_part]
  case scrub =>
    intro s c t n v hc hon hready hstate hn
    exact State.onUnit_after (decide_eq_true hc) (Dev.patrolScrub_reads hc ⟨hon, hready, hstate⟩ hn)
  case scrubRests =>
    intro s c t v hc h
    refine State.onUnit_unchanged (decide_eq_true hc) (Dev.patrolScrub_rests fun ⟨hon, hready, hstate⟩ => ?_)
    simp [hon, hready, hstate] at h
  case refresh =>
    intro s c t hc
    have hrefresh := Dev.ddrRefresh_eq (d := s.dev) (t := t) hc
    split_ifs with h
    · exact State.onUnit_after (decide_eq_true hc) (hrefresh.trans (if_pos h))
    · exact State.onUnit_unchanged (decide_eq_true hc) (hrefresh.trans (if_neg h))
  case temp =>
    intro s c temp t hc h0 h5
    exact State.onUnit_after (decide_eq_true hc) (Dev.dimmTemp_read hc h0 h5)
  case unread =>
    intro s c temp t hc h
    exact State.onUnit_unchanged (decide_eq_true hc) (Dev.dimmTemp_unread h)
  case noChannel =>
    intro s c a b t v hc
    have hno : decide (c < 8) = false := decide_eq_false (Nat.not_lt.mpr hc)
    exact ⟨State.onUnit_fault s _ hno, State.onUnit_fault s _ hno, State.onUnit_fault s _ hno, State.onUnit_fault s _ hno, State.onUnit_fault s _ hno⟩

end Sys2Proof.Machine
